-- ==== Sys2Proof/Word.lean ====
section
/-! DEFINITION. The word types of the FL-TV9-640A model: bytes, register words, binary codes (R6: bit 0 is the
least significant, bytes are little-endian). -/

namespace Sys2Proof

/-- One byte. -/
abbrev Byte := BitVec 8

/-- A register value; a 32-bit register uses bits [31:0]. -/
abbrev W64 := BitVec 64

/-- A binary code, query or stored, held at the greatest code length of R29; a shorter code has zero high bits. -/
abbrev Code := BitVec 1024

/-- A table keyed by number, kept with strictly rising keys: the plain-data form of every sparse array. -/
abbrev Tbl (α : Type) := List (Nat × α)

end Sys2Proof
end

