-- ==== Sys2Proof/RegName.lean ====
section
/-! DEFINITION. The names of the registers and counters of the device, as the register maps and counter tables of
the spec spell them (R5, R8, R72). A register with copies is told apart by up to two indices (`RegId`). -/

namespace Sys2Proof

/-- Every register of a register map, then every counter of a counter table. A counter that R92 keeps once for a
band and once for a die has two names, the second ending in `_DIE`. The words of the trigger-table window, which the
spec gives no name (R288), are `XT_TWR_WIN`: slot and word. The mailbox buffers of R375 are held as 32-bit words. -/
inductive RegName where
  | HQ_IDX_CTL | HQ_IDX_VER | HQ_IDX_LIM | BD_GQ_CFG | BD_PR_CFG | BD_CTL | BD_STATUS | BD_SNAP | SE_MG_STATUS
  | SE_SNAP | TN_SHADOW_CFG | PJ_RR_FMT | CF_RR_FMT | PJ_MAT | GE_TBL_CTL | GE_TBL_GEOM | GE_TBL_VER | GE_TBL_ROWS
  | GE_TBL_OPT | GE_TBL_EPS | GE_TBL_PEER | GE_HP_CTL | GE_HH_CFG | GE_STATUS | HQ_GRP_SHARD | CF_SVC
  | CF_REBUILD_POS | CF_CTL | CF_STATUS | CF_CAP | CF_TL_CFG | CF_RD_CFG | CF_TL_STATUS | TN_QUOTA_LIMIT
  | TN_QUOTA_USED | TN_TIER_CFG | TN_RG | TN_DL_CFG | HQ_CTX_BIND | HQ_SQ_DB | HQ_CQ_DB | HQ_CTX_CTL
  | HQ_CTX_STATUS | HQ_SQ_BASE | HQ_CQ_BASE | HQ_CG_CTL | HQ_GRP_CTL | HQ_GRP_MEMBER | XT_CONN_CFG | XT_CONN_CC
  | XT_CONN_STATUS | XT_ADDR_MAC | XT_ADDR_IP_LO | XT_ADDR_IP_HI | XT_RGN_BASE | XT_RGN_CTL | XT_RR_POOL | SY_VAL
  | SY_ADD | SY_CFG | XT_TWR_CTL | XT_TWR_WIN | XT_CFG | XT_REL_CFG | XT_TC_MAP | PL_PD_TENANT | PL_CTX_COLOUR | PL_POL_CTL
  | PL_POL_CIR | PL_POL_PIR | PL_POL_BURST | PL_STRICT_CTL | PL_SHP_CTL | PL_SHP_RATE | PL_SHP_SIZE | TN_CMP_PART
  | TN_CMP_BAND | TN_CMP_CTL | TN_CMP_EPOCH | TN_ACC_SNAP | TN_LEASE_CFG | EL_SEQ | EL_CTL | HG_WIN | HG_CFG
  | DM_SURVIVE | DM_CTL | DM_INFO | BD_SVC | XT_LANE_SVC | HG_CORE_SVC | HQ_START_STATUS | HQ_MB_CTL | BD_THR
  | GE_SNAP | CF_SNAP | XT_SNAP | TN_PART | TN_BAND | XT_PORT_MAC | XT_PORT_IP_LO | XT_PORT_IP_HI | XT_PORT_VLAN
  | PL_STRICT_RATE | PL_STRICT_SIZE | TN_POOL_CTL | PJ_DSCALE | PJ_ZP | CF_ZP | BD_TASKS | BD_REMOTE_TASKS
  | BD_BLOCKS | BD_SKIP_SUMMARY | BD_SKIP_WORD | BD_SKIP_ERROR | BD_BYTES_READ | BD_SEG_SKIP | BD_PLANES_SKIP
  | BD_SLOTS_DONE | BD_SLOTS_ABANDONED | BD_CAND_EMIT | BD_TILE_CYC | BD_LANE_CYC | BD_EMIT_STALL_CYC | BD_REDUCE
  | BD_CHECKPOINTS | BD_GQ_POSTED | BD_GQ_LAUNCH_FILL | BD_GQ_LAUNCH_DEADLINE | BD_GQ_LAUNCH_WINDOW
  | BD_GQ_LAUNCH_PRESSURE | BD_GQ_PAIRS_LAUNCHED | BD_GQ_WAIT_NS | BD_GQ_LATE | BD_GQ_NOCTX_NS | BD_GQ_POOL_HOLD
  | BD_GQ_RESUMED | BD_GQ_POOL_MAX | BD_PR_PASSES | BD_PR_QUERIES | BD_PR_CYC | SE_REDUCE_ELEMS
  | SE_REDUCE_QWAIT_CYC | SE_DUP_DROPPED | SE_DUP_DROPPED_DIE | SE_REFILL_PASSES | SE_REFILL_PASSES_DIE | SE_NAN
  | SE_MG_ROWS | SE_MG_FLUSHES | SE_MG_PIECES | SE_MG_REPEAT_PASSES | SE_MG_KEY_PASSES | SE_MG_APPROX
  | SE_MG_SHORT | SE_MG_FILTER_WAIT_CYC | SE_MG_BUSY_CYC | BD_FLT_QBM_BYTES | BD_FLT_ALLOWED | BD_WD_QUERIES
  | BD_WD_STEPS | BD_WD_PAIRS | BD_WD_CEIL_STOP | BD_WD_DEADLINE_STOP | TN_SHADOW_SAMPLED | TN_SHADOW_SKIPPED
  | TN_SHADOW_DONE | TN_SHADOW_DROPPED | TN_SHADOW_LOST | TN_SHADOW_K_SUM | TN_SHADOW_OVERLAP_SUM | PJ_ENC_QUERY
  | PJ_ENC_INSERT | PJ_MAT_LOADS | PJ_SIGN_NAN | PJ_CLAMP_LEVEL | PJ_CLAMP_TSCALE | PJ_CLAMP_QUERY
  | PJ_CLAMP_USCALE | PJ_SR_DRAWS | PJ_BUSY_CYC | GE_SR_DRAWS | GE_SR_SAT | GE_SR_NAN | BD_RR_REBUILT | CF_SCORED
  | CF_SCORE_NAN | CF_HDR_MISMATCH | GE_DOT_ROWS | GE_DOT_PINNED | GE_REQ_SERVED | GE_REQ_REFUSED
  | GE_REQ_UNREACHABLE | GE_MARKERS | GE_ABSENT | GE_UPD_ENTRIES | GE_UPD_STEPS | GE_HH_PROMOTIONS | GE_HH_ADDS
  | GE_LOCK_WAIT | GE_LOCK_WAIT_NS | GE_HP_LOADS | GE_HP_WRITEBACKS | GE_HP_DIRTY_MAX | HQ_UPD_CMDS
  | HQ_UPD_SLOTS_NEW | HQ_UPD_TOMBSTONES | HQ_UPD_REDUNDANT | HQ_UPD_RETIRE_WAIT | HQ_UPD_RETIRE_LATE
  | HQ_UPD_ROLLBACK | HQ_UPD_MIRRORED | HQ_UPD_COPIED | HQ_GRP_DIVERGED | HQ_GRP_PROMOTIONS | CF_REQ | CF_READS
  | CF_JOINED | CF_LINGER_HITS | CF_QV_LOADS | CF_SOFT_DECODES | CF_UNREADABLE | CF_ABSENT | CF_NO_QUERY
  | CF_CHANNEL_DOWN | CF_QUEUE_FULL_NS | CF_REBUILD_READS | GE_PAR_WRITES | GE_PAR_ONLY | GE_PAR_RECOMPUTE
  | GE_PAR_UNPROTECTED | GE_DEG_READS | GE_DEG_FAIL | GE_DEG_REPAIRED | GE_REBUILD_SECTORS | GE_REBUILD_LOST
  | GE_STRIPE_WAIT_NS | CF_TL_HOST_BYTES | CF_TL_NAND_BYTES | CF_TL_FOLDS | CF_TL_GC_MOVES | CF_TL_GC_ORPHANS
  | CF_TL_ERASES | CF_TL_RETIRED | CF_TL_WL_MOVES | CF_TL_REFRESH | CF_TL_MAP_MISS | CF_TL_CKPT
  | CF_TL_RETRY_READS | CF_TL_WRITE_WAIT_NS | CF_TL_HOLDUP_SHORT | CF_TL_TIME_REFUSED | TN_QUOTA_REFUSED
  | TN_RES_CREDITED | TN_RES_TAKEN | TN_RES_TAKE_REFUSED | TN_RES_OVERRIDDEN | TN_PF_DEMAND | TN_PF_SCHEDULE
  | TN_PF_FAILED | TN_PF_POOL_EVICT | TN_DL_SCAN_CUT | TN_DL_EXPIRED | TN_DL_FLASH_DROP | TN_DL_LATE_RECORDS
  | TN_RG_FAILED | TN_RG_LISTS_LOST | GE_PF_BYTES_UP | GE_PF_BYTES_DOWN | GE_PF_WAIT_NS | EL_ECC_CORR
  | EL_ECC_UNCORR | EL_ECC_PPR_PENDING | HQ_CMD_FETCHED | HQ_CMD_POLICED | HQ_CMD_INVALID | HQ_CPL_WRITTEN
  | HQ_DB_DISCARDED | HQ_FETCH_HELD_NS | HQ_DMA_ERR | HQ_CANCELS | HQ_HANDOVERS | HQ_HO_TORN | HQ_GRP_SUBQ
  | HQ_GRP_MISSING | HQ_GRP_LATE | XT_TX_PKTS | XT_RX_PKTS | XT_RX_BAD | XT_RESEND_PKTS | XT_NAK_SEQ | XT_NAK_MSG
  | XT_HOLD_FILLED | XT_REORDER_FULL | XT_RTO | XT_BUSY | XT_MP_TABLE_FULL | XT_MP_DUP | XT_REFUSED_REVOKED
  | XT_REFUSED_ACCESS | XT_CONN_ERRORS | XT_PFC_RX_NS | XT_RGN_REVOKES | XT_RGN_DRAIN_TORN | XT_TWR_ISSUED
  | XT_TWR_FAILED | XT_OPS_FULL_NS | PL_GREEN | PL_YELLOW | PL_RED | PL_RED_BYTES | PL_STRICT_DROP | PL_UNMAPPED
  | PL_COMMIT_REFUSED | PL_SHP_BYTES | PL_SHP_WAIT_NS | TN_ACC_QUERIES | TN_ACC_WAIT_NS | TN_ACC_WAIT_HIST
  | TN_ACC_PREEMPT | TN_ACC_TORN | TN_ACC_TILE_CYC | TN_ACC_RR_RECORDS | TN_ACC_DRAM_BYTES | TN_ACC_FLASH_READS
  | TN_ACC_FLASH_WRITES | TN_ACC_REMOTE_BYTES | TN_ACC_JOINED | TN_CMP_COMMITS | TN_CMP_AUTO | TN_CMP_REFUSED
  | TN_CMP_LATE | TN_LEASE_ACQUIRED | TN_LEASE_LOST | TN_LEASE_CONFLICT | TN_POOL_RECORDS_MAX | EL_RECORDS
  | EL_COALESCED | EL_OVERWRITTEN | HG_MISSES | HG_REPLAYED | HG_TORN | HG_RESETS | HG_ESCALATIONS
  | HG_TILE_FAILED | HG_GAUNTLET_TX | HG_GAUNTLET_RX | HG_RTS_PASSED | HG_RTS_FAILED | HG_CORE_FAILOVERS
  | DM_DUMPS | DM_REFUSED | DM_MARKERS | BD_THR_CYC | BD_GATED_NS | HQ_MB_REQ
  | HQ_MB_RSP
  deriving DecidableEq, Repr

end Sys2Proof
end

