-- ==== Sys2Proof/Syntax.lean ====
section
/-! DEFINITION. The commands of the block, one constructor for each row of spec/opcode_table.json. A command names
the unit it concerns by its number (R5) and carries what comes from outside the device: a written value, the fields
of a received packet, a sensor reading, whether a read or a program succeeded. What the device already holds (a ring
entry, a queued pair, a waiting request) is not an operand: the command takes it from the state. `loc` is the
location word of R319 of a register access or dictionary write, as the access was made. -/

namespace Sys2Proof

/-- The key of a gathering queue (R63). -/
structure GKey where
  pn : Nat
  index : Nat
  vslot : Nat
  cluster : Nat
  deriving DecidableEq, Repr

/-- What a walker met when it read one block (R59, R61, R62, R221). -/
structure ScanErr where
  /-- an uncorrectable header, bitmap, code or container word: the stack and the die-local address -/
  dram : Option (Nat × Nat)
  /-- HDR_CHECK of the header word read does not match (R39) -/
  hdrBad : Bool
  /-- slots whose ID-map entry is uncorrectable when an alias is resolved (R61) -/
  idMap : List Nat
  deriving DecidableEq, Repr

/-- How the decode of a transferred codeword ended (R176, R211). -/
inductive DecodeEnd where
  /-- the hard decode at the current read level succeeded -/
  | hard
  /-- the hard decode at the current level failed: take the next level of the ladder, or the soft decode -/
  | fail
  /-- the soft decode succeeded -/
  | soft
  /-- the soft decode failed too -/
  | uncorrectable
  deriving DecidableEq, Repr

/-- A received Stoez packet (R265 to R268): what its frame and headers carry. -/
structure Pkt where
  /-- fabric die and port it arrived on -/
  die : Nat
  port : Nat
  /-- frame bytes, destination address to FCS -/
  frameBytes : Nat
  /-- false when R265 or the ICRC discards the frame -/
  frameOk : Bool
  /-- DEI of the 802.1Q tag (R297) -/
  dei : Bool
  ver : Nat
  opcode : Nat
  /-- true when a reserved bit of a header is not zero -/
  rsvSet : Bool
  mp : Bool
  ackReq : Bool
  dstConn : Nat
  srcConn : Nat
  inc : Nat
  psn : Nat
  msn : Nat
  offset : Nat
  msgLen : Nat
  txTs : Nat
  /-- REGION extension -/
  handle : Nat
  addr : Nat
  /-- SIGNAL extension -/
  sync : Nat
  value : W64
  /-- SEND extension -/
  sendType : Nat
  /-- ACK extension -/
  ackPsn : Nat
  ackMsn : Nat
  nakOffset : Nat
  status : Nat
  kind : Nat
  echoTs : Nat
  payload : List Byte
  deriving DecidableEq, Repr

/-- One Nirrex request (R360, R367), with the path it arrived on: 0 mailbox P0, 1 mailbox P1, 2 MCTP, 3 management port. -/
structure NxMsg where
  path : Nat
  op : Nat
  last : Bool
  auth : Bool
  tag : Nat
  index : Nat
  sub : Nat
  offset : Nat
  data : List Byte
  /-- true when a reserved field of the header or trailer is not zero -/
  rsvSet : Bool
  requester : Nat
  seq : Nat
  mac : List Byte
  /-- the port whose endpoint an MCTP message has reached (R374) -/
  port : Nat := 0
  /-- destination and source of a datagram, an address below 2^32 being one of IPv4, and whether its length is that of its
  message (R373) -/
  dstIp : Nat := 0
  dstPort : Nat := 0
  srcIp : Nat := 0
  srcPort : Nat := 0
  exact : Bool := true
  deriving DecidableEq, Repr

/-- A unit of R317: SRC_KIND and SRC_NUM. -/
structure UnitId where
  kind : Nat
  num : Nat
  deriving DecidableEq, Repr

/-- Sensor and rail readings of one power-controller tick (R380, R384, R386, R387). -/
structure PowerReading where
  /-- package power over the tick, mW -/
  powerMw : Nat
  railMv : List Nat
  railMa : List Nat
  /-- hottest sensor of each die of R393's order, in quarters of a degree -/
  dieTempQ : List Int
  deriving DecidableEq, Repr

/-- An image set as it is read (R344, R345): the 4,096 bytes of its header, whether SIGNER_CERT and SIGNATURE verify, and for
each directory entry whether its component matches its DIGEST. -/
structure ImageInfo where
  header : List Byte
  certOk : Bool
  sigOk : Bool
  same : List Bool
  deriving DecidableEq, Repr

/-- What a start step has found failing: units, and at S5 the faults of tiles by band (R348, R350). -/
structure StepFaults where
  units : List UnitId
  tiles : List (Nat × Nat)
  deriving DecidableEq, Repr

/-- How a grant ends: its lender begins to revoke it, or it has failed (R230). -/
inductive GrantEnd where
  | revoking
  | failed (cause : Nat)
  deriving DecidableEq, Repr

/-- How the copy of a unit ended: the status of its program, the sectors that were uncorrectable in the victim, and the stripe
members that cannot be read (R203). -/
structure UnitCopy where
  ok : Bool
  uncorr : List Nat
  bad : List Nat
  deriving DecidableEq, Repr

inductive Instr where
  /-- REGISTER_WRITE (R8). A write to a register with no row of its own sets its fields by their access codes, subject to the reserved-value and discard rules. -/
  | registerWrite (reg : RegName) (i j width : Nat) (aligned : Bool) (value loc : W64)
  /-- READ_CLEAR (R9). A read of an RC field returns its value and clears it, keeping any increment made in the same cycle. -/
  | readClear (reg : RegName) (i j inc : Nat)
  /-- SNAP (R72). Writing SNAP copies a block's counters into shadow copies at one clock edge and sets SNAP_DONE. -/
  | snap (reg : RegName) (i : Nat) (value : W64)
  /-- SQ_DOORBELL (R242). A write of the submission TAIL makes ring entries available, or is discarded and logged when out of range or the context is not OPEN. -/
  | sqDoorbell (c tail port func : Nat) (loc : W64)
  /-- CQ_DOORBELL (R243). A write of the completion HEAD acknowledges completions and lowers IN_FLIGHT, or is discarded when invalid. -/
  | cqDoorbell (c head port func : Nat) (loc : W64)
  /-- CONTEXT_OPEN (R240). Setting OPEN on a CLOSED bound context resets its ring pointers and phase, draws its key, and makes it OPEN. -/
  | contextOpen (c : Nat) (value loc : W64)
  /-- CONTEXT_CLOSE (R241). Clearing OPEN stops fetching, completes every fetched command with CONTEXT_TORN_DOWN, and closes the context after the last completion. -/
  | contextClose (c : Nat) (value loc : W64)
  /-- FUNCTION_LEVEL_RESET (R241). A function-level reset closes every context bound to the function without further port writes, keeping the bindings. -/
  | functionLevelReset (port func : Nat)
  /-- DESCRIPTOR_FETCH (R243). The device fetches the next submission entry once IN_FLIGHT leaves room in the completion ring. -/
  | descriptorFetch (c : Nat) (readOk : Bool) (pcieErr : Nat)
  /-- NOP (R247). The NOP command completes with nothing done. -/
  | nop (c : Nat)
  /-- SEARCH (R251). A search is policed, checked, has its versions captured and its home die assigned, and enters its cascade. -/
  | search (c : Nat) (readOk : Bool)
  /-- CANCEL (R256). CANCEL finds a search of its context and cuts it as though its deadlines were reached, completing at once. -/
  | cancel (c seq : Nat)
  /-- LOG_READ (R111). LOG_READ returns shadow-log entries from the requested sequence number onward. -/
  | logRead (c : Nat)
  /-- INSERT (R161). INSERT appends each entry's slots in the order of R41 and returns ordinal records at the visibility point. -/
  | insert (c : Nat) (readOk : Bool)
  /-- DELETE (R162). DELETE sets tombstone bits and reduces LIVE_COUNT, counting redundant entries. -/
  | delete (c : Nat) (readOk : Bool)
  /-- REWRITE (R163). REWRITE creates new alias slots and places the old slots on the retire queue. -/
  | rewrite (c : Nat) (readOk : Bool)
  /-- BITS_SET (R94). BITS_SET writes the summary bit and then the standing-bitmap word of each named slot. -/
  | bitsSet (c : Nat) (readOk : Bool)
  /-- BITS_CLEAR (R162). BITS_CLEAR writes only the standing-bitmap word of each named slot. -/
  | bitsClear (c : Nat) (readOk : Bool)
  /-- LIST_COPY (R170). LIST_COPY copies the live slots of one list into the successor version and writes map records. -/
  | listCopy (c : Nat)
  /-- DEFINE_BITMAP (R93). DEFINE_BITMAP allocates and charges a zeroed standing bitmap, and sets its STD_MASK bit last. -/
  | defineBitmap (c : Nat)
  /-- INDEX_BUILD (R409). INDEX_BUILD creates a version in the lowest free slot, allocates its per-die objects, places its clusters, and sets VALID last. -/
  | indexBuild (c : Nat) (readOk : Bool)
  /-- INDEX_RETIRE (R410). INDEX_RETIRE marks a non-current version slot RETIRING until its holders are gone. -/
  | indexRetire (c : Nat)
  /-- SCHEDULE_LOAD (R228). SCHEDULE_LOAD replaces a version's prefetch schedule whole. -/
  | scheduleLoad (c : Nat) (readOk : Bool)
  /-- PROMOTE (R224). PROMOTE starts bringing a list's code blocks into DRAM for the requesting tenant. -/
  | promote (c : Nat)
  /-- DEMOTE (R225). DEMOTE begins writing a resident list's lower copies, or is overridden while the list is promoting. -/
  | demote (c : Nat)
  /-- TABLE_UPDATE (R152). TABLE_UPDATE applies an update batch in coalesced or sequential mode. -/
  | tableUpdate (c : Nat) (readOk : Bool)
  /-- GATHER_DOT (R150). GATHER_DOT returns this device's partial dot products for a list of rows. -/
  | gatherDot (c : Nat) (readOk : Bool) (badRows : List Nat)
  /-- ROW_READ (R150). ROW_READ returns this device's row slices, with moments on request. -/
  | rowRead (c : Nat) (readOk : Bool) (badRows : List Nat)
  /-- ROW_WRITE (R150). ROW_WRITE writes row slices and their moments and sets their PRESENT bits. -/
  | rowWrite (c : Nat) (readOk : Bool)
  /-- HATPIN_SWAP (R145). HATPIN_SWAP checks the new pinned set and loads its entering rows into free slots. -/
  | hatpinSwap (c : Nat) (readOk : Bool)
  /-- HATPIN_DRAIN_END (R145). Once no lookup holds the old hatpin index, leaving rows are written back and freed, and the swap completes. -/
  | hatpinDrainEnd
  /-- HATPIN_FLUSH (R146). HATPIN_FLUSH writes every dirty pinned row back to flash. -/
  | hatpinFlush (c : Nat)
  /-- TABLE_RETIRE (R143). The retire command marks a non-current table version slot RETIRING. -/
  | tableRetire (c : Nat)
  /-- MSIX_COALESCE_TIMEOUT (R244). When COAL_US8 × 8 µs have passed since the first unreported completion, the context's MSI-X message is sent. -/
  | msixCoalesceTimeout (c : Nat)
  /-- TAKE (R257). TAKE stops the context group on its old port, decides each command's fate, and rebinds the contexts to the taking port. -/
  | take (g port : Nat) (value loc : W64)
  /-- PERST_ASSERT (R398). A low on PERSTn_N resets one port and closes its contexts, keeping their bindings. -/
  | perstAssert (port : Nat)
  /-- SUB_QUERY (R261). A member admits a sub-query received on its fabric context and answers it with one message. -/
  | subQuery (conn : Nat)
  /-- GROUP_ANSWER (R262). The head merges a member's answer into the group result and completes the command once every answer is in. -/
  | groupAnswer (conn : Nat)
  /-- GROUP_ANSWER_TIMEOUT (R262). At the head's T_rr, the missing shards are named and the group command completes. -/
  | groupAnswerTimeout (gq : Nat)
  /-- MEMBER_LOST (R172). When a member is lost, the head marks its replicas failed, moves SERVE, and reports the affected shards missing. -/
  | memberLost (m : Nat)
  /-- QUERY_ENCODE (R127). The projection unit encodes a waiting FP16 query into a binary code and an int8 vector. -/
  | queryEncode (die : Nat)
  /-- PROBE_PASS_LAUNCH (R70). A probe pass starts when 128 queries of a version wait or the oldest has waited for the probe window. -/
  | probePassLaunch (die : Nat)
  /-- PROBE_PASS_COMPLETE (R71). A finished probe pass selects each query's nearest clusters and posts the first n_probe pairs. -/
  | probePassComplete (die : Nat)
  /-- HELD_PAIR_POST (R66). A pair held by a full pool is posted once an entry of that pool frees. -/
  | heldPairPost (die : Nat)
  /-- LAUNCH_BY_EXPIRY (R64). When device time reaches a queue's lowest launch-by time, the queue is triggered as DEADLINE or WINDOW. -/
  | launchByExpiry (die : Nat) (k : GKey)
  /-- QUEUE_LAUNCH (R65). A triggered queue takes up to 2,048 pairs into a list task on a chosen band once a walker context is free. -/
  | queueLaunch (die : Nat) (k : GKey) (dirErr : Option (Nat × Nat))
  /-- TILE_BIND (R408). Freed tiles are bound to waiting LOADING contexts in launch order, and the task starts running. -/
  | tileBind (band : Nat)
  /-- BLOCK_SCAN (R59). The walker reads a block's header and bitmap words, forms the allowed words, and scans or skips the block. -/
  | blockScan (task : Nat) (err : ScanErr)
  /-- LANE_REDUCTION (R83). The band's selection unit reduces a queued lane row to K_S and delivers the lane's new τ. -/
  | laneReduction (band : Nat)
  /-- TASK_COMPLETE (R84). A drained task sends its partial lists to the die merge unit and reports to the home die with allowed counts. -/
  | taskComplete (task : Nat)
  /-- TASK_CHECKPOINT (R68). A task on a departing band finishes its open blocks and writes its checkpoint. -/
  | taskCheckpoint (task : Nat)
  /-- CHECKPOINT_DURABLE (R68). A durable checkpoint returns the task to its gathering queue as resumable. -/
  | checkpointDurable (task : Nat)
  /-- DIE_MERGE_PARTIAL (R81). A partial list joins the query's merge row on the die, which is reduced as a piece at 2^20 elements. -/
  | dieMergePartial (die : Nat)
  /-- DIE_MERGE_FLUSH (R84). On a flush, a die reduces its merge row to M and sends the die list to the home die. -/
  | dieMergeFlush (die q : Nat)
  /-- HOME_MERGE (R84). The home die selects M from the union of its die lists. -/
  | homeMerge (q : Nat) (sidecarErr idErr : List Nat)
  /-- SHADOW_TIMEOUT (R110). A shadow not done TIMEOUT_S after the live query's admission is dropped with DEADLINE_EXPIRED. -/
  | shadowTimeout (q : Nat)
  /-- QUERY_VECTOR_LOAD (R178). A cuff die stores a query-vector entry in the query-cache granules named by its handle. -/
  | queryVectorLoad (ch die : Nat)
  /-- CANDIDATE_REQUEST (R181). A candidate request joins a context holding its sector or takes a free context. -/
  | candidateRequest (ch die : Nat)
  /-- PLANE_OP_ISSUE (R182). An idle plane issues its next queued operation by priority class. -/
  | planeOpIssue (ch plane : Nat)
  /-- PAGE_DECODE (R176). A transferred codeword is decoded, checked against the format, and its joined requests are scored and answered. -/
  | pageDecode (ch ctx : Nat) (e : DecodeEnd)
  /-- LINGER_EXPIRY (R181). When LINGER_US has elapsed, a scorer context releases its page buffer. -/
  | lingerExpiry (ch ctx : Nat)
  /-- SCORE_RECORD (R180). The home die takes a score record, and excludes the candidate or starts a degraded read according to RSTATUS. -/
  | scoreRecord (die : Nat)
  /-- PARTIAL_SUM_REQUEST (R148). A member computes partial sums of its slice, writes them to the requester and signals its sync object. -/
  | partialSumRequest (conn : Nat) (badRows : List Nat)
  /-- FP16_REDUCTION (R123). When all partial sums are present, the requester reduces them in slice order and selects. -/
  | fp16Reduction (q : Nat)
  /-- DEGRADED_READ (R188). A stripe engine rebuilds a sector from its stripe members and parity, or from mirror copies, and returns it. -/
  | degradedRead (die : Nat) (bad : List Nat)
  /-- REBUILT_SECTOR (R122). The home die checks a rebuilt sector's header and scores its records on a band. -/
  | rebuiltSector (die : Nat)
  /-- SCAN_DEADLINE (R231). At T_sd the scan stage is cut: queued pairs are removed, lanes made inactive, and the flush or DEADLINE_EXPIRED follows. -/
  | scanDeadline (q : Nat)
  /-- RERANK_BUDGET_END (R232). At T_rr an outstanding flash stage is abandoned, and the query completes on binary scores with DEGRADED. -/
  | rerankBudgetEnd (q : Nat)
  /-- FLASH_RECORD_DURABLE (R46). A cuff die's durability acknowledgement lets the device write the slot's sidecar with V = 1. -/
  | flashRecordDurable (ch : Nat)
  /-- RETIRED_SLOT_TOMBSTONE (R165). Once every query that captured the version before the visibility point has completed, the retired slot is tombstoned. -/
  | retiredSlotTombstone
  /-- RETIRE_LATE_EXPIRY (R165). A retired slot still waiting 1 s after its visibility point is counted late. -/
  | retireLateExpiry
  /-- VERSION_FREE (R410). When a retiring version's REF_SYNC reads zero, its objects are freed, VALID and RETIRING are cleared, and the retire completes. -/
  | versionFree (n v : Nat)
  /-- TABLE_VERSION_FREE (R143). When a retiring table version has no holder, its flash is freed and the retire completes. -/
  | tableVersionFree (t v : Nat)
  /-- INDEX_VERSION_SWITCH (R49). A write of HQ_IDX_CTL changes CURRENT and VALID together, or is discarded under R50. -/
  | indexVersionSwitch (n : Nat) (value loc : W64)
  /-- TABLE_VERSION_SWITCH (R142). A write of GE_TBL_CTL changes the current table version, or is discarded under R143. -/
  | tableVersionSwitch (t : Nat) (value loc : W64)
  /-- SHARD_COPY_STREAM (R173). A copying replica takes a shard-copy and update stream, holding updates for lists not yet copied. -/
  | shardCopyStream (conn : Nat)
  /-- SHARD_LIST_LANDED (R173). When a list's copy lands, its held updates are applied in arrival order. -/
  | shardListLanded (conn cluster : Nat)
  /-- ROW_LOCK_GRANT (R140). A waiting row access is granted its lock in arrival order and proceeds on the authoritative copy. -/
  | rowLockGrant (die : Nat)
  /-- STRIPE_WRITE (R186). A data-sector write takes its stripe lock and writes intent, data, parity and close records in order. -/
  | stripeWrite (die : Nat) (bad : List Nat)
  /-- RECORD_APPEND (R187). A re-rank record is appended to its list's open sector and mirrored to the parity channel's journal. -/
  | recordAppend (die : Nat)
  /-- OPEN_SECTOR_TIMEOUT (R187). An open sector is committed once OPEN_TIMEOUT_MS has passed since its first record. -/
  | openSectorTimeout (ch lsn : Nat)
  /-- DETACH (R190). DETACH takes a channel out of new masks and starts its drain, unless another channel is out of service. -/
  | detach (ch : Nat) (loc : W64)
  /-- CHANNEL_FAULT (R190). A cuff-die fault, a failed cuff reset or a passed health limit takes the channel out of service automatically. -/
  | channelFault (ch cause : Nat)
  /-- DETACH_DRAIN_END (R191). When the channel's queue empties or DRAIN_MS elapses, the remaining requests are answered CHANNEL_DOWN and the carrier is powered down. -/
  | detachDrainEnd (ch : Nat)
  /-- ATTACH (R191). ATTACH resets the cuff die, initialises the new carrier and starts its self-test. -/
  | attach (ch : Nat) (loc : W64)
  /-- ABORT_ATTACH (R191). ABORT_ATTACH powers the carrier interface down and returns the channel to DETACHED. -/
  | abortAttach (ch : Nat) (loc : W64)
  /-- CHANNEL_SELF_TEST_DONE (R191). When the attach self-test ends, the carrier is formatted and rebuild begins, or the channel returns to DETACHED. -/
  | channelSelfTestDone (ch : Nat) (pass : Bool) (goodUnits : Nat)
  /-- REBUILD_SECTOR (R192). The rebuild reconstructs the sector at its cursor under the stripe lock, writes it, and advances. -/
  | rebuildSector (ch : Nat) (bad : List Nat)
  /-- CHANNEL_SHADOW_RECORD (R191). A shadow score from a returning channel is compared with the live degraded score. -/
  | channelShadowRecord (ch tag : Nat)
  /-- CARRIER_PRESENCE_CHANGE (R403). A carrier removed outside DETACHED is a fault of the cuff die, which isolates its balls. -/
  | carrierPresenceChange (ch : Nat) (present : Bool)
  /-- STAGING_TIMEOUT (R197). 50 µs after the first record entered a staging slot, the slot is programmed to the journal area. -/
  | stagingTimeout (ch : Nat)
  /-- FOLD (R199). A unit meeting a fold condition is rebuilt from its newest sectors and programmed into the data area. -/
  | fold (ch unit : Nat)
  /-- TL_CHECKPOINT (R200). Every CKPT_INTERVAL_S seconds or 2^18 records, dirty map sectors and the directory are written with a CHECKPOINT record. -/
  | tlCheckpoint (ch : Nat)
  /-- GC_UNIT_COPY (R203). On program status of a collection copy, the map is locked and the GC_MOVE is committed, or the copy is an orphan. -/
  | gcUnitCopy (ch : Nat) (copy : UnitCopy)
  /-- GC_ERASE (R203). An emptied victim is erased once its conditions hold, and an ERASE record is written. -/
  | gcErase (ch sb : Nat) (ok : Bool)
  /-- HEALTH_RECHECK (R214). Every 60 s a held channel's health limits are checked again. -/
  | healthRecheck (ch : Nat)
  /-- FLASH_TIME_RECORD (R209). A TIME record is written every 60 s. -/
  | flashTimeRecord (ch : Nat)
  /-- FLASH_FORMAT (R194). FLASH_FORMAT formats all 32 channels and sets DATA_SECTORS. -/
  | flashFormat (goodUnits : List Nat)
  /-- FLASH_TIME_SET (R209). FLASH_TIME_SET raises every channel's flash-time offset by a later host time, or is counted when not later. -/
  | flashTimeSet (time : Nat)
  /-- PWR_LOSS_ASSERT (R201). On PWR_LOSS_N each cuff die stops writes and background work and flushes its staging buffer. -/
  | pwrLossAssert
  /-- FLUSH_COMPLETE (R201). After the last staging program, a CLEAN record is programmed and flush-done is raised. -/
  | flushComplete (ch : Nat)
  /-- PWR_LOSS_DEASSERT (R201). PWR_LOSS_N rising before power falls lets the cuff dies resume and acknowledge the held writes. -/
  | pwrLossDeassert
  /-- PROMOTION_COMPLETE (R224). When every block has been read and written, the list becomes RESIDENT, or on failure it returns to LOW. -/
  | promotionComplete (n v cluster : Nat) (ok : Bool)
  /-- DEMOTION_COMPLETE (R224). When the lower copies are durable and no task holds the list, it becomes LOW and its DRAM is freed. -/
  | demotionComplete (n v cluster : Nat) (refused : Option Nat)
  /-- SCHEDULE_PROMOTION (R228). Scheduled lists are promoted in array order while the owner's promotion pool has room. -/
  | schedulePromotion (n v : Nat)
  /-- PROMOTION_RETRY (R227). A promotion blocked by quota is retried when the tenant's DRAM usage falls. -/
  | promotionRetry (n v cluster tenant : Nat)
  /-- HEAT_HALVING (R229). Every HEAT_HALF_S seconds each list's HEAT is halved. -/
  | heatHalving (tenant : Nat)
  /-- QUOTA_LIMIT_WRITE (R219). A write of TN_QUOTA_LIMIT takes effect, or is discarded when the limits would exceed the tier's capacity. -/
  | quotaLimitWrite (tenant tier : Nat) (value loc : W64)
  /-- GRANT_FAILED (R230). A remote grant becomes failed, and lists held only in it become lost. -/
  | grantFailed (g : Nat) (how : GrantEnd)
  /-- PATROL_SCRUB (R220). The patrol scrubber reads each address once per SCRUB_HOURS and writes back corrected data. -/
  | patrolScrub (stack addr corrected : Nat) (uncorrectable : Bool)
  /-- WRITE (R283). A received WRITE message is checked at admission and its bytes are placed in the region. -/
  | write (p : Pkt)
  /-- WRITE_SIGNAL (R287). A received WRITE_SIGNAL places its bytes, then applies its signal after they are visible. -/
  | writeSignal (p : Pkt)
  /-- READ_REQ (R283). A received READ_REQ is checked and answered with READ_RSP data. -/
  | readReq (p : Pkt)
  /-- READ_RSP (R291). Received READ_RSP data is placed, and the read completes when it is whole and visible. -/
  | readRsp (p : Pkt)
  /-- SEND (R269). A received SEND is taken into the receive pool, or refused BUSY, and delivered whole in MSN order. -/
  | send (p : Pkt)
  /-- SIGNAL (R287). A received SIGNAL is applied to a remote-enabled sync object of the same PD, after earlier writes. -/
  | signal (p : Pkt)
  /-- ACK (R272). A received ACK advances the sender's window, yields a round-trip sample, and completes covered work requests. -/
  | ack (p : Pkt)
  /-- MSG_DONE (R276). A received MSG_DONE completes the multipath message at the sender. -/
  | msgDone (p : Pkt)
  /-- NAK_SEQ (R273). A received NAK_SEQ causes every path-0 packet from ACK_PSN to be resent, with a loss cut. -/
  | nakSeq (p : Pkt)
  /-- NAK_MSG (R277). A received NAK_MSG causes the message to be resent from NAK_OFFSET. -/
  | nakMsg (p : Pkt)
  /-- NAK_STATUS (R283). A received NAK_STATUS fails the work request with its status, without retransmission. -/
  | nakStatus (p : Pkt)
  /-- BUSY (R269). A received BUSY schedules a resend of the SEND from its first packet. -/
  | busy (p : Pkt)
  /-- BUSY_RESEND (R269). After BUSY_US the refused SEND is resent. -/
  | busyResend (conn msn : Nat)
  /-- KEEPALIVE (R273). A received KEEPALIVE is answered with an ACK. -/
  | keepalive (p : Pkt)
  /-- KEEPALIVE_SEND (R273). An idle READY connection sends a KEEPALIVE every KA_MS. -/
  | keepaliveSend (conn : Nat)
  /-- KEEPALIVE_LOSS (R273). A connection that receives nothing for 4 × KA_MS enters ERROR. -/
  | keepaliveLoss (conn : Nat)
  /-- PACKET_HOLD_EXPIRY (R271). On hold-timer expiry the kept packets are discarded and NAK_SEQ is sent. -/
  | packetHoldExpiry (conn : Nat)
  /-- MESSAGE_HOLD_EXPIRY (R277). On a message's hold-timer expiry, NAK_MSG is sent with the lowest missing offset. -/
  | messageHoldExpiry (conn msn : Nat)
  /-- ACK_DELAY_EXPIRY (R272). 2 µs after the first unacknowledged packet an ACK is sent. -/
  | ackDelayExpiry (conn : Nat)
  /-- RETRANSMIT_TIMEOUT (R273). RTO_US without progress resends from the oldest unacknowledged packet and doubles the timeout. -/
  | retransmitTimeout (conn : Nat)
  /-- PACKET_DEPART (R301). A data packet leaves once its shaper, pacing and window all allow it. -/
  | packetDepart (conn : Nat)
  /-- PFC_PAUSE (R267). A received PFC frame pauses the paused class's transmission. -/
  | pfcPause (die port cls durationNs : Nat)
  /-- CONNECT (R270). CONNECT moves a valid RESET connection to READY with PSN and MSN at zero. -/
  | connect (conn : Nat) (loc : W64)
  /-- CONNECTION_RESET (R270). The RESET command fails the connection's work requests and returns it to RESET. -/
  | connectionReset (conn : Nat)
  /-- VALIDATE (R284). VALIDATE makes an INVALID region VALID. -/
  | validate (r : Nat) (loc : W64)
  /-- REVOKE (R284). REVOKE refuses later admissions to a region and waits for its admitted set. -/
  | revoke (r : Nat) (loc : W64)
  /-- REVOCATION_COMPLETE (R284). When the admitted set drains, KEY is incremented, REVOKE_SYNC is signalled and the region becomes INVALID. -/
  | revocationComplete (r : Nat)
  /-- SY_VAL_WRITE (R286). A write of SY_VAL sets a sync object and counts as a signal for triggers. -/
  | syValWrite (i : Nat) (value : W64)
  /-- SY_ADD (R286). A signal adds to a sync object, satisfying its waits. -/
  | syAdd (i : Nat) (value : W64)
  /-- ARM (R289). ARM checks a work request and arms it, issuing it at once if its trigger is already met. -/
  | arm (slot : Nat) (loc : W64)
  /-- DISARM (R289). DISARM frees an ARMED trigger-table slot. -/
  | disarm (slot : Nat) (loc : W64)
  /-- OPS_ENTRY_GRANT (R290). An issued request waiting for an outstanding-operation entry takes one when it frees. -/
  | opsEntryGrant
  /-- POLICER_COMMIT (R302). A write of PL_POL_CTL commits the staged policer values and sets its buckets. -/
  | policerCommit (p t : Nat) (value loc : W64)
  /-- STRICT_COMMIT (R299). A write of PL_STRICT_CTL commits a strict slot for a privileged tenant. -/
  | strictCommit (k : Nat) (value loc : W64)
  /-- SHAPER_COMMIT (R302). A write of PL_SHP_CTL commits the staged shaper values. -/
  | shaperCommit (sh t : Nat) (value loc : W64)
  /-- BUCKET_REFILL (R295). At each microsecond every bucket gains its rate in micro-tokens, up to its size. -/
  | bucketRefill
  /-- COMMIT (R306). A composition commit is checked and refused, or EPOCH is incremented and the new map applied. -/
  | commit (value loc : W64)
  /-- BAND_DRAINED (R307). A drained departing band takes its new owner, and APPLYING ends when all have done so. -/
  | bandDrained (band : Nat)
  /-- COMMIT_DRAIN_LATE (R308). A departing band not drained within 2 ms is counted late and treated as missing its window. -/
  | commitDrainLate (band : Nat)
  /-- AUTO_EPOCH (R310). A unit pending for AUTO_EPOCH_MS with no commit causes the composition in force to be committed. -/
  | autoEpoch
  /-- ACQUIRE (R314). A pool creates a lease record with epoch 1 for the head. -/
  | acquire (conn : Nat)
  /-- RENEW (R314). A pool extends a lease's expiry. -/
  | renew (conn : Nat)
  /-- PARK (R314). A pool takes over a lease at the next epoch. -/
  | park (conn : Nat)
  /-- CLAIM (R315). A pool hands a lease back at exactly the next epoch, or answers LEASE_LOST. -/
  | claim (conn : Nat)
  /-- RELEASE (R314). A pool frees a lease record. -/
  | release (conn : Nat)
  /-- REPLY (R315). The head acts on a pool's reply, resolving epoch conflicts. -/
  | reply (conn : Nat)
  /-- LEASE_RENEW_TIMER (R314). 1 ms after the last confirmed send, a held lease is renewed. -/
  | leaseRenewTimer (key : W64)
  /-- LEASE_EXPIRY (R314). 4 ms without confirmation, the head stops acting and completes the command with LEASE_LOST. -/
  | leaseExpiry (key : W64)
  /-- POOL_LEASE_EXPIRY (R314). A pool's lease record expires 4 ms after its last confirmed message. -/
  | poolLeaseExpiry (key : W64)
  /-- WATCHDOG_SAMPLE (R323). At each window end an engine that held work without progress misses its window, logs HANG and is reset. -/
  | watchdogSample (e : Nat)
  /-- REPLAY (R325). After an engine reset the suspects are replayed in sets and marked REPLAYED. -/
  | replay (e inst : Nat) (missed : Bool)
  /-- RESET (R327). The dictionary's reset command resets the named domain. -/
  | reset (u : UnitId)
  /-- RESET_COMPLETE (R327). A completed domain reset logs RESET and re-admits or replays the affected work. -/
  | resetComplete (domain num : Nat)
  /-- RESET_WINDOW_EXPIRY (R328). A reset not finished within its window escalates to the next domain. -/
  | resetWindowExpiry (domain num : Nat)
  /-- SP_START_TIMEOUT (R329). A service processor not running its start within 2 s asserts FAULT_N and holds reset. -/
  | spStartTimeout
  /-- SRAM_UNCORRECTABLE (R322). An uncorrectable SRAM word tears down its job or resets its domain. -/
  | sramUncorrectable (u : UnitId) (array word : Nat) (job : Option Nat)
  /-- DUMP (R331). DUMP walks the dump list into the dump buffer. -/
  | dump
  /-- CLEAR (R332). CLEAR discards the held dump. -/
  | clear
  /-- DUMP_READ_TIMEOUT (R332). A dump read that times out after 64 µs ends its entry and marks the unit unreadable. -/
  | dumpReadTimeout
  /-- DUMP_LIMIT_EXPIRY (R332). At LIMIT_MS every remaining entry yields a LIMIT record. -/
  | dumpLimitExpiry
  /-- ERROR_WINDOW_CLOSE (R320). When a coalescing window closes, one record is written for the occurrences it counted. -/
  | errorWindowClose (kind num code : Nat)
  /-- ERROR_IRQ_HOLDOFF (R321). At most one error-log message is sent per 10 µs, covering the records since the last. -/
  | errorIrqHoldoff
  /-- GAUNTLET_ABORT (R335). A received ABORT aborts the job's part, rolls back its update, and enters the key in the aborted table. -/
  | gauntletAbort (p : Pkt)
  /-- GAUNTLET_RELEASE (R333). A received RELEASE lets a member drop its kept log entries for the job. -/
  | gauntletRelease (p : Pkt)
  /-- ABORTED_KEY_EXPIRY (R335). An aborted job key leaves the table after 1 s. -/
  | abortedKeyExpiry
  /-- REMOVE (R339). REMOVE drains a band, lane or core out of service. -/
  | remove (u : UnitId) (loc : W64)
  /-- UNIT_DRAINED (R339). A draining unit holding no work is powered down and becomes OUT. -/
  | unitDrained (u : UnitId)
  /-- RETURN (R339). RETURN resets an OUT unit and starts its self-test. -/
  | returnUnit (u : UnitId) (loc : W64)
  /-- UNIT_SELF_TEST_DONE (R339). At the end of self-test, repairs are applied and shadow traffic starts, or the unit returns to OUT. -/
  | unitSelfTestDone (u : UnitId) (signature expected : W64) (tileFaults : Nat)
  /-- UNIT_SHADOW_ITEM (R340). A shadow item's agreement is counted toward JOIN_PENDING, or a mismatch returns the unit to OUT. -/
  | unitShadowItem (u : UnitId) (agree compared : Bool)
  /-- ABORT_RETURN (R339). ABORT_RETURN powers a testing or shadowing unit down. -/
  | abortReturn (u : UnitId) (loc : W64)
  /-- CORE_WATCHDOG (R337). A control core missing its 100 ms watchdog is replaced by the spare. -/
  | coreWatchdog (k : Nat)
  /-- LANE_FAILED (R337). A lane whose post-FEC error rate exceeds 10^−12 over 1 s is replaced by its die's spare. -/
  | laneFailed (l cause : Nat)
  /-- POWER_ON (R348). Power-on begins a start at S0. -/
  | powerOn
  /-- START_STEP_COMPLETE (R348). A finished start step passes to the next, ending at SERVING. -/
  | startStepComplete (failed : Bool) (a b : ImageInfo) (okUnits : List UnitId) (found : StepFaults)
  /-- STEP_TIMEOUT (R348). A start step passing its limit fails the start with STEP_TIMEOUT. -/
  | stepTimeout
  /-- PROVISION (R347). PROVISION generates and seals the device key and returns its public key. -/
  | provision
  /-- ATTEST (R354). ATTEST forms and signs an attestation report over a nonce. -/
  | attest (nonce : List Byte)
  /-- IMAGE_WRITE (R353). IMAGE_WRITE erases and programs an image set. -/
  | imageWrite (set : Nat) (image : ImageInfo)
  /-- IMAGE_VERIFY (R345). IMAGE_VERIFY checks an image set and returns its failure bits. -/
  | imageVerify (set : Nat)
  /-- SECVER_COMMIT (R353). SECVER_COMMIT raises SEC_FLOOR to the running set's security version. -/
  | secverCommit
  /-- START_RETRY (R352). START_RETRY in mitten mode sets FAILS to 0 and restarts from a chosen set. -/
  | startRetry (set : Nat)
  /-- CONFIG_RESET (R353). CONFIG_RESET writes a configuration record of image defaults. -/
  | configReset
  /-- PREFERRED_SET (R343). A write of PREFERRED_SET updates the boot-flash anchor before it is acknowledged. -/
  | preferredSet (set : Nat)
  /-- READ (R362). A Nirrex READ returns a segment of an object's value. -/
  | read (m : NxMsg)
  /-- NIRREX_WRITE (R359). A Nirrex WRITE checks and applies a value, writing every register copy in order. -/
  | nirrexWrite (m : NxMsg)
  /-- DESCRIBE (R364). DESCRIBE returns an object's type, access and limits. -/
  | describe (m : NxMsg)
  /-- INVOKE (R363). INVOKE runs a command object, answering PENDING when it takes more than 100 ms. -/
  | invoke (m : NxMsg)
  /-- POLL (R363). POLL returns PENDING or a command's final result. -/
  | poll (m : NxMsg)
  /-- SEGMENT_TIMEOUT (R362). A segmented transfer with no segment for 10 s is discarded. -/
  | segmentTimeout (path index sub : Nat)
  /-- RESULT_HOLD_EXPIRY (R363). A command result not read within 60 s is discarded. -/
  | resultHoldExpiry (index sub : Nat)
  /-- SAVE (R370). SAVE writes the configuration record now and completes when it reads back. -/
  | save
  /-- CONFIG_SAVE_TIMER (R370). 1 s after the last or 10 s after the first unsaved persistent write, a new configuration record is written. -/
  | configSaveTimer
  /-- GO (R376). Setting GO submits the mailbox request, whose response is written before DONE is set. -/
  | go (port : Nat) (m : NxMsg) (loc : W64)
  /-- SET_ENDPOINT_ID (R374). Set Endpoint ID accepts an endpoint ID from the bus owner. -/
  | setEndpointId (port eid : Nat)
  /-- GET_ENDPOINT_ID (R374). Get Endpoint ID returns the endpoint ID. -/
  | getEndpointId (port : Nat)
  /-- GET_MCTP_VERSION_SUPPORT (R374). Get MCTP Version Support is answered. -/
  | getMctpVersionSupport (port : Nat)
  /-- GET_MESSAGE_TYPE_SUPPORT (R374). Get Message Type Support is answered. -/
  | getMessageTypeSupport (port : Nat)
  /-- GET_VENDOR_DEFINED_MESSAGE_SUPPORT (R374). Get Vendor Defined Message Support is answered. -/
  | getVendorDefinedMessageSupport (port : Nat)
  /-- ARP_REQUEST (R373). The management port answers ARP for its IPv4 address. -/
  | arpRequest (ipv4 senderIp senderMac : Nat)
  /-- NEIGHBOUR_SOLICITATION (R373). The management port answers IPv6 neighbour solicitation for its addresses. -/
  | neighbourSolicitation (target sender : Nat)
  /-- POWER_TICK (R384). Every 100 µs the power controller updates g, the thermal caps and every band's level. -/
  | powerTick (r : PowerReading)
  /-- CRITICAL_TEMPERATURE (R388). A crown die reaching 110 °C takes its in-service bands out of service. -/
  | criticalTemperature (die : Nat)
  /-- THERMTRIP (R389). A die reaching 125 °C stops its PLLs and asserts THERMTRIP_N. -/
  | thermtrip (u : UnitId)
  /-- PLL_LOSS_OF_LOCK (R382). A PLL losing lock is treated as a failed reset of its domain and escalates. -/
  | pllLossOfLock (u : UnitId)
  /-- SYSCLK_LOSS (R382). A loss of SYSCLK for more than 10 µs is a device reset. -/
  | sysclkLoss
  /-- RESET_N_ASSERT (R397). RESET_N low requests a device reset and holds it. -/
  | resetNAssert
  /-- RESET_N_DEASSERT (R397). RESET_N rising lets the start begin. -/
  | resetNDeassert
  /-- BAND_WAKE (R385). A gated band finishes waking 40 µs after a commit gives it an owner. -/
  | bandWake (band : Nat)
  /-- SELF_TEST (R390). SELF_TEST starts a logic or memory test of an idle unit. -/
  | selfTest (u : UnitId) (test : Nat)
  /-- SELF_TEST_COMPLETE (R390). A finished self-test returns its signature, expected value and verdict. -/
  | selfTestComplete (u : UnitId) (signature expected : W64) (verdict repairs tileFaults : Nat)
  /-- BYPASS (R392). The BYPASS instruction selects the bypass register. -/
  | bypass
  /-- IDCODE (R392). The IDCODE instruction returns 0x17A0_95C7. -/
  | idcode
  /-- SAMPLE_PRELOAD (R392). SAMPLE/PRELOAD samples pins without disturbing them. -/
  | samplePreload
  /-- EXTEST (R392). EXTEST drives the boundary cells while BSCAN_EN is 1. -/
  | extest
  /-- EXTEST_PULSE (R392). EXTEST_PULSE tests the AC-coupled lanes while BSCAN_EN is 1. -/
  | extestPulse
  /-- EXTEST_TRAIN (R392). EXTEST_TRAIN tests the AC-coupled lanes with a pulse train while BSCAN_EN is 1. -/
  | extestTrain
  /-- CLAMP (R392). CLAMP holds the outputs while BSCAN_EN is 1. -/
  | clamp
  /-- HIGHZ (R392). HIGHZ floats the outputs while BSCAN_EN is 1. -/
  | highz
  /-- PERST_DEASSERT (R398). On the rising edge of PERSTn_N, port Pn's link trains. -/
  | perstDeassert (port : Nat)
  /-- ACCESS_WIDTH_READ (R7). A register read of the wrong width or alignment returns zero and logs an access-width error record. -/
  | accessWidthRead (reg : RegName) (i j width : Nat) (aligned : Bool) (loc : W64)
  /-- COMPLETION_TIMEOUT (R238). A device read of host memory that gets no completion before the PCIe completion timeout fails its command with INVALID_DESCRIPTOR, reports through AER and logs HOST_DMA. -/
  | completionTimeout (c seq : Nat) (addr : W64)
  /-- FOLD_PROGRAM_STATUS (R199). When a fold's program status succeeds, the FOLD record is written, the cached map updated and the unit's journal-index entries dropped. -/
  | foldProgramStatus (ch unit : Nat) (ok : Bool)
  /-- REFRESH_AGE_REACHED (R212). A superblock whose age reaches REFRESH_DAYS is queued for refresh. -/
  | refreshAgeReached (ch sb : Nat)
  /-- HEALTH_TEMPERATURE_SAMPLE (R213). Once a second, the cuff die samples its sensor into TEMP_MAX and the hour bins of TEMP_HOURS. -/
  | healthTemperatureSample (ch : Nat) (temp : Int)
  /-- MR4_SAMPLE (R387). Every 32 ms each DRAM controller reads its stack's MR4 and applies the refresh rate it reports. -/
  | mr4Sample (stack code : Nat)
  /-- SYSCLK_RESTORED (R382). After a SYSCLK loss, the start begins at S0 once SYSCLK has been present for 1 ms. -/
  | sysclkRestored
  /-- CARRIER_POWER_SETTLED (R402). 5 ms after CARRIER_PWR_EN rises at ATTACH, ONFI initialisation and training of the carrier begin. -/
  | carrierPowerSettled (ch : Nat)
  /-- PLCA_BEACON (R372). A received PLCA beacon makes pending changes of the PLCA objects take effect. -/
  | plcaBeacon
  /-- PFC_PAUSE_EXPIRY (R267). When the pause time of a received PFC frame runs out, the paused class resumes transmission. -/
  | pfcPauseExpiry (die port cls : Nat)
  /-- TAP_RESET (R392). TRST_N low, or TMS high for five TCK cycles, resets the test access port. -/
  | tapReset
  /-- RESET_FLUSH_WAIT_EXPIRY (R401). With PWR_LOSS_N and RESET_N both low, the reset proceeds past step 5 when 8 ms have passed without every flush-done. -/
  | resetFlushWaitExpiry
  deriving DecidableEq, Repr

end Sys2Proof
end

