-- ==== Sys2Proof/Decode.lean ====
section
/-! DEFINITION. The words of the opcode table. The device is a block: it takes commands from outside, and
spec/opcode_table.json gives no row any bits, so that no word spells a command. -/

namespace Sys2Proof

/-- The command a word spells by the bits of the opcode table: none, because no row of the table gives bits. -/
def decodeTableWord (_nbits _w : Nat) : Option Instr := none

end Sys2Proof
end

