-- ==== Sys2Proof/Config.lean ====
section
/-! DEFINITION. The values the spec leaves open and the functions it names without giving them: opaque constants, so
that nothing can be proved of the value one of them takes. -/

namespace Sys2Proof

/-- The context key drawn at the n-th drawing from the entropy source (R125, R240). -/
opaque Config.contextKey : Nat → BitVec 32

/-- A value the spec leaves open, the n-th one taken in a run (see the assumption log). -/
opaque Config.free : Nat → BitVec 64

/-- What the spec leaves open of the IP header of the n-th message that leaves: identification or flow label, and ECN (R266). -/
opaque Config.ipFree : Nat → BitVec 64

/-- The sign and payload of a NaN the device produces, which R114 does not give. -/
opaque Config.nanBits : BitVec 32

/-- The integer that a NaN or an infinity rounds to where no clamp fixes it; no rule states it. -/
opaque Config.nanLevel : Int

/-- SHAKE256 of a message, to a number of bytes (17). -/
opaque Config.shake256 : List Byte → Nat → List Byte

/-- KMAC256 of key, message, customisation and length (R367). -/
opaque Config.kmac256 : List Byte → List Byte → List Byte → Nat → List Byte

/-- Ed448 signature of a message under the key sealed in a device (R347, R354). -/
opaque Config.ed448Sign : List Byte → List Byte → List Byte

/-- Ed448 public key of a secret key (R347). -/
opaque Config.ed448Public : List Byte → List Byte

/-- The default dump list of the image set with a digest: its component of type 6, as bytes (R331, R344). -/
opaque Config.dumpList : List Byte → List Byte

/-- The device key drawn by the n-th provisioning (R347). -/
opaque Config.deviceKey : Nat → List Byte

/-- The electronic serial number and other identity bytes written at the factory (17). -/
opaque Config.identity : Nat → List Byte

/-- The running image's READ_START table: start level of an age and temperature bin (R211, R213). -/
opaque Config.readStart : Nat → BitVec 4

/-- The device's PCI vendor ID, as its configuration space holds it (R374). -/
opaque Config.pciVendorId : BitVec 16

/-- The MCTP versions that the endpoint reports, as its answer carries them (R374). -/
opaque Config.mctpVersions : List Byte

end Sys2Proof
end

