-- ==== Sys2Proof/Machine/Float.lean ====
section
/-! DEFINITION. The arithmetic of 06: FP16 and FP32 with rounding to nearest, ties to even (R114), the fixed summation
order (R120), stochastic rounding and its draws (R124, R125), and the two integer checks of headers and packets,
CRC-16/CCITT-FALSE (R38) and CRC-32C (R266). -/

namespace Sys2Proof.Machine

/-- An IEEE 754 number: NaN, an infinity, or ± m × 2^e. -/
inductive Fp where
  | nan
  | inf (neg : Bool)
  | fin (neg : Bool) (m : Nat) (e : Int)
  deriving DecidableEq, Repr

/-- A binary format: precision with the hidden bit, the exponent of the last place of a subnormal, and the exponent
field of infinity. -/
structure FpFormat where
  p : Nat
  emin : Int
  expInf : Nat

def fp16 : FpFormat := ⟨11, -24, 31⟩
def fp32 : FpFormat := ⟨24, -149, 255⟩

/-- Bits below the sign of a format. -/
def FpFormat.inf (f : FpFormat) : Nat := f.expInf * 2 ^ (f.p - 1)

/-- The number a magnitude field and a sign spell. -/
def FpFormat.decode (f : FpFormat) (neg : Bool) (mag : Nat) : Fp :=
  let ex := mag / 2 ^ (f.p - 1)
  let fr := mag % 2 ^ (f.p - 1)
  if ex = f.expInf then (if fr = 0 then .inf neg else .nan)
  else if ex = 0 then .fin neg fr f.emin
  else .fin neg (fr + 2 ^ (f.p - 1)) (f.emin + (ex - 1 : Nat))

def decode16 (x : BitVec 16) : Fp := fp16.decode x.msb (x.toNat % 2 ^ 15)
def decode32 (x : BitVec 32) : Fp := fp32.decode x.msb (x.toNat % 2 ^ 31)

/-- m × 2^e as a quotient of naturals. -/
def dyadic (m : Nat) (e : Int) : Nat × Nat := if 0 ≤ e then (m * 2 ^ e.toNat, 1) else (m, 2 ^ (-e).toNat)

/-- The exponent of the last place in which a format holds the magnitude n / d. -/
def FpFormat.lastPlace (f : FpFormat) (n d : Nat) : Int :=
  let e : Int := (Nat.log2 n : Int) - Nat.log2 d - f.p
  let (a, b) := dyadic (2 ^ f.p) e
  max (if a * d ≤ n * b then e + 1 else e) f.emin

/-- Magnitude n / d in units of the last place 2^e: quotient, remainder and divisor. -/
def inPlaces (n d : Nat) (e : Int) : Nat × Nat × Nat :=
  let a := if 0 ≤ e then n else n * 2 ^ (-e).toNat
  let b := if 0 ≤ e then d * 2 ^ e.toNat else d
  (a / b, a % b, b)

/-- The magnitude field of q units of last place e; infinity beyond the range. -/
def FpFormat.pack (f : FpFormat) (q : Nat) (e : Int) : Nat := min ((e - f.emin).toNat * 2 ^ (f.p - 1) + q) f.inf

/-- Round the magnitude n / d to nearest, ties to even (R114). -/
def FpFormat.nearest (f : FpFormat) (n d : Nat) : Nat :=
  if n = 0 then 0 else
  let e := f.lastPlace n d
  let (q, r, b) := inPlaces n d e
  f.pack (if b < 2 * r ∨ (b = 2 * r ∧ q % 2 = 1) then q + 1 else q) e

/-- The NaN the device produces: a quiet NaN whose other bits are open. -/
def nan32 : BitVec 32 := Config.nanBits ||| 0x7FC00000

def bits32 (neg : Bool) (mag : Nat) : BitVec 32 := BitVec.ofNat 32 (mag + if neg then 2 ^ 31 else 0)
def bits16 (neg : Bool) (mag : Nat) : BitVec 16 := BitVec.ofNat 16 (mag + if neg then 2 ^ 15 else 0)

def encode32 (x : Fp) : BitVec 32 :=
  match x with
  | .nan => nan32
  | .inf n => bits32 n fp32.inf
  | .fin n m e => let (a, b) := dyadic m e; bits32 n (fp32.nearest a b)

/-- FP16 to FP32, exact (R114). -/
def widen (x : BitVec 16) : BitVec 32 := encode32 (decode16 x)

/-- A signed integer as FP32. -/
def ofInt32 (z : Int) : BitVec 32 := encode32 (.fin (decide (z < 0)) z.natAbs 0)

def Fp.add (x y : Fp) : Fp :=
  match x, y with
  | .nan, _ => .nan
  | _, .nan => .nan
  | .inf a, .inf b => if a = b then .inf a else .nan
  | .inf a, _ => .inf a
  | _, .inf b => .inf b
  | .fin a m e, .fin b n g =>
    let l := min e g
    let u : Int := m * 2 ^ (e - l).toNat
    let v : Int := n * 2 ^ (g - l).toNat
    let z : Int := (if a then -u else u) + (if b then -v else v)
    if z = 0 then .fin (a && b) 0 l else .fin (decide (z < 0)) z.natAbs l

def Fp.mul (x y : Fp) : Fp :=
  match x, y with
  | .nan, _ => .nan
  | _, .nan => .nan
  | .inf a, .inf b => .inf (a != b)
  | .inf a, .fin b n _ => if n = 0 then .nan else .inf (a != b)
  | .fin a m _, .inf b => if m = 0 then .nan else .inf (a != b)
  | .fin a m e, .fin b n g => .fin (a != b) (m * n) (e + g)

def fadd (x y : BitVec 32) : BitVec 32 := encode32 ((decode32 x).add (decode32 y))
def fmul (x y : BitVec 32) : BitVec 32 := encode32 ((decode32 x).mul (decode32 y))
def fneg (x : BitVec 32) : BitVec 32 := x ^^^ 0x80000000
def fsub (x y : BitVec 32) : BitVec 32 := fadd x (fneg y)

def fdiv (x y : BitVec 32) : BitVec 32 :=
  match decode32 x, decode32 y with
  | .nan, _ => nan32
  | _, .nan => nan32
  | .inf _, .inf _ => nan32
  | .inf a, .fin b _ _ => bits32 (a != b) fp32.inf
  | .fin a _ _, .inf b => bits32 (a != b) 0
  | .fin a m e, .fin b n g =>
    if n = 0 then (if m = 0 then nan32 else bits32 (a != b) fp32.inf)
    else
      let (u, v) := dyadic m (e - g)
      bits32 (a != b) (fp32.nearest u (v * n))

/-- Square root, rounded to nearest: the root of m × 2^e to 30 further bits, with a sticky last bit. -/
def fsqrt (x : BitVec 32) : BitVec 32 :=
  match decode32 x with
  | .nan => nan32
  | .inf true => nan32
  | .inf false => bits32 false fp32.inf
  | .fin neg m e =>
    if m = 0 then x
    else if neg then nan32
    else
      let h : Int := (e - 60) / 2
      let n := m * 2 ^ (e - 2 * h).toNat
      let r := Nat.sqrt n
      let (a, b) := dyadic (2 * r + if r * r = n then 0 else 1) (h - 1)
      bits32 false (fp32.nearest a b)

def isNaN32 (x : BitVec 32) : Bool := decide (fp32.inf < x.toNat % 2 ^ 31)
def isFinite32 (x : BitVec 32) : Bool := decide (x.toNat % 2 ^ 31 < fp32.inf)
def isFinite16 (x : BitVec 16) : Bool := decide (x.toNat % 2 ^ 15 < fp16.inf)
def isZero32 (x : BitVec 32) : Bool := x.toNat % 2 ^ 31 == 0
def fabs (x : BitVec 32) : BitVec 32 := x &&& 0x7FFFFFFF

/-- −0 becomes +0 (R74, R121, R123). -/
def plusZero (x : BitVec 32) : BitVec 32 := if x = 0x80000000 then 0 else x

/-- The score key of kind 2 (R74). -/
def floatKey (x : BitVec 32) : BitVec 32 :=
  if isNaN32 x then 0 else
  let y := plusZero x
  if y.msb then ~~~ y else y ^^^ 0x80000000

/-- x > y as numbers; false with a NaN (R126). -/
def fgt (x y : BitVec 32) : Bool := !isNaN32 x && !isNaN32 y && decide ((floatKey y).toNat < (floatKey x).toNat)

def fmax (x y : BitVec 32) : BitVec 32 := if fgt y x then y else x

/-- Adjacent pairs summed, once. -/
def pairSums : List (BitVec 32) → List (BitVec 32)
  | a :: b :: t => fadd a b :: pairSums t
  | l => l

/-- A group of 64 terms as a balanced pairwise tree of six levels (R120). -/
def treeSum (l : List (BitVec 32)) : BitVec 32 :=
  ((pairSums (pairSums (pairSums (pairSums (pairSums (pairSums l)))))).head?).getD 0

/-- The fixed summation order (R120). -/
def fixedSum (l : List (BitVec 32)) : BitVec 32 :=
  (List.range ((l.length + 63) / 64)).foldl (fun acc g => fadd acc (treeSum ((l.drop (64 * g)).take 64))) 0

/-- Sum of products of FP16 elements in the fixed summation order (R119, R120). -/
def dot16 (a b : List (BitVec 16)) : BitVec 32 := fixedSum ((a.zip b).map fun p => fmul (widen p.1) (widen p.2))

/-- The least FP16 value at or above a non-negative FP32 value, limited to 65,504; whether the limit took effect. -/
def leastFp16 (x : BitVec 32) : BitVec 16 × Bool :=
  match decode32 x with
  | .fin false m e =>
    let (n, d) := dyadic m e
    if n = 0 then (0, false) else
    let l := fp16.lastPlace n d
    let (q, r, _) := inPlaces n d l
    let mag := fp16.pack (if r = 0 then q else q + 1) l
    if fp16.inf ≤ mag then (0x7BFF, true) else (bits16 false mag, false)
  | .fin true _ _ => (0, false)
  | _ => (0x7BFF, true)

/-- Stochastic rounding to an integer of a finite FP32 value under a draw (R124); 0 for what is not finite. -/
def srInt (x : BitVec 32) (r : BitVec 16) : Int :=
  match decode32 x with
  | .fin neg m e =>
    let (n, d) := dyadic m e
    let z : Int := if neg then -(n : Int) else n
    let a := z.fdiv d
    let f := ((z - a * d).toNat * 2 ^ 16) / d
    if r.toNat < f then a + 1 else a
  | _ => 0

/-- What a write-back to FP16 met (R131). -/
inductive Narrow where
  | plain | saturated | nan
  deriving DecidableEq, Repr

/-- Stochastic rounding of FP32 to FP16 under a draw, with saturation (R124, R131). -/
def srFp16 (x : BitVec 32) (r : BitVec 16) : BitVec 16 × Narrow :=
  match decode32 x with
  | .nan => (0x7E00, .nan)
  | .inf neg => (bits16 neg 0x7BFF, .saturated)
  | .fin neg m e =>
    let (n, d) := dyadic m e
    if n = 0 then (bits16 neg 0, .plain) else
    let l := fp16.lastPlace n d
    let (q, rem, b) := inPlaces n d l
    let lo := fp16.pack q l
    if rem = 0 then
      (if fp16.inf ≤ lo then (bits16 neg 0x7BFF, .saturated) else (bits16 neg lo, .plain))
    else if 0x7BFF ≤ lo then (bits16 neg 0x7BFF, .saturated)
    else
      let hi := fp16.pack (q + 1) l
      let f := if neg then (2 ^ 16 * (b - rem)) / b else (2 ^ 16 * rem) / b
      if neg then (bits16 true (if r.toNat < f then lo else hi), .plain)
      else (bits16 false (if r.toNat < f then hi else lo), .plain)

/-- The draw of a lane whose counter is `counter`, under a key (R125). -/
def drawBits (counter key : BitVec 32) : BitVec 16 :=
  let v := counter ^^^ key
  let v := (v ^^^ (v >>> 16)) * 0x045D9F3B
  let v := (v ^^^ (v >>> 16)) * 0x045D9F3B
  let v := v ^^^ (v >>> 16)
  BitVec.extractLsb' 16 16 v

/-! ### Integer checks -/

/-- One bit, most significant first, into CRC-16/CCITT-FALSE. -/
def crc16Bit (c : BitVec 16) (b : Bool) : BitVec 16 := if c.msb != b then (c <<< 1) ^^^ 0x1021 else c <<< 1

/-- CRC-16/CCITT-FALSE over bytes (R38). -/
def crc16 (bs : List Byte) : BitVec 16 :=
  bs.foldl (fun c b => (List.range 8).foldl (fun c i => crc16Bit c (b.getLsbD (7 - i))) c) 0xFFFF

/-- CRC-32C over bytes (R266). -/
def crc32c (bs : List Byte) : BitVec 32 :=
  ~~~ (bs.foldl (fun c b => (List.range 8).foldl
    (fun c i => let x := c.getLsbD 0 != b.getLsbD i; if x then (c >>> 1) ^^^ 0x82F63B78 else c >>> 1) c)
    (0xFFFFFFFF : BitVec 32))

end Sys2Proof.Machine
end

