-- ==== Sys2Proof/Machine/RegMap.lean ====
section
/-! DEFINITION. The register maps of the spec as data: width, fields, access codes, reset values and the ranges of
values that are not reserved (R7, R8, R10, R11). Generated from the register tables of spec/ and then kept by hand. -/

namespace Sys2Proof

/-- The access codes of R8. -/
inductive Access where
  | RO | RW | WO | W1C | W1S | RC | RSV
  deriving DecidableEq, Repr

/-- One row of a register map: bits, access, reset value, and the ranges of values that are not reserved (no range:
every value is defined). -/
structure FieldRow where
  hi : Nat
  lo : Nat
  acc : Access
  reset : Nat
  ok : List (Nat × Nat)
  deriving DecidableEq, Repr

/-- A field of a register, by its register and bits. -/
structure Fld where
  reg : RegName
  hi : Nat
  lo : Nat
  deriving DecidableEq, Repr

/-- The width of a register in bits (R7); every counter is 64 bits wide (R72). -/
def RegName.width : RegName → Nat
  | .HQ_IDX_LIM | .BD_GQ_CFG | .BD_PR_CFG | .BD_CTL | .BD_STATUS | .BD_SNAP
  | .SE_MG_STATUS | .SE_SNAP | .TN_SHADOW_CFG | .PJ_RR_FMT | .CF_RR_FMT | .GE_TBL_EPS
  | .GE_TBL_PEER | .GE_HH_CFG | .GE_STATUS | .HQ_GRP_SHARD | .CF_SVC | .CF_CTL
  | .CF_STATUS | .CF_TL_CFG | .CF_RD_CFG | .CF_TL_STATUS | .TN_TIER_CFG | .TN_DL_CFG
  | .HQ_SQ_DB | .HQ_CQ_DB | .HQ_CTX_CTL | .HQ_CTX_STATUS | .HQ_CG_CTL | .HQ_GRP_CTL
  | .HQ_GRP_MEMBER | .XT_RR_POOL | .SY_CFG | .XT_TWR_CTL | .XT_CFG | .XT_REL_CFG
  | .XT_TC_MAP | .PL_PD_TENANT | .PL_CTX_COLOUR | .PL_POL_CTL | .PL_STRICT_CTL | .PL_SHP_CTL
  | .PL_SHP_SIZE | .TN_CMP_BAND | .TN_CMP_CTL | .TN_ACC_SNAP | .EL_CTL | .HG_WIN
  | .HG_CFG | .DM_SURVIVE | .DM_CTL | .BD_SVC | .XT_LANE_SVC | .HG_CORE_SVC
  | .HQ_MB_CTL | .BD_THR | .GE_SNAP | .CF_SNAP | .XT_SNAP | .TN_BAND
  | .XT_PORT_VLAN | .TN_POOL_CTL | .PJ_DSCALE | .PJ_ZP | .CF_ZP | .HQ_MB_REQ | .HQ_MB_RSP => 32
  | _ => 64

/-- The number of copies of a register: the range of its first and of its second index (R5). -/
def RegName.dims : RegName → Nat × Nat
  | .XT_CFG | .XT_REL_CFG | .XT_TC_MAP | .HQ_MB_CTL | .XT_SNAP
  | .XT_TX_PKTS | .XT_RX_PKTS | .XT_RX_BAD | .XT_RESEND_PKTS | .XT_NAK_SEQ
  | .XT_NAK_MSG | .XT_HOLD_FILLED | .XT_REORDER_FULL | .XT_RTO | .XT_BUSY
  | .XT_MP_TABLE_FULL | .XT_MP_DUP | .XT_REFUSED_REVOKED | .XT_REFUSED_ACCESS | .XT_CONN_ERRORS
  | .XT_PFC_RX_NS | .PL_UNMAPPED => (2, 1)
  | .XT_PORT_MAC | .XT_PORT_IP_LO | .XT_PORT_IP_HI | .XT_PORT_VLAN => (2, 4)
  | .HQ_MB_REQ | .HQ_MB_RSP => (2, 512)
  | .PL_POL_CTL | .PL_POL_CIR | .PL_POL_PIR | .PL_POL_BURST | .PL_GREEN
  | .PL_YELLOW | .PL_RED | .PL_RED_BYTES => (3, 256)
  | .PL_PD_TENANT => (3, 1024)
  | .HG_CORE_SVC => (4, 1)
  | .BD_PR_CFG | .SE_MG_STATUS | .SE_SNAP | .GE_HH_CFG | .GE_STATUS
  | .GE_SNAP | .BD_PR_PASSES | .BD_PR_QUERIES | .BD_PR_CYC | .SE_DUP_DROPPED_DIE
  | .SE_REFILL_PASSES_DIE | .SE_NAN | .SE_MG_ROWS | .SE_MG_FLUSHES | .SE_MG_PIECES
  | .SE_MG_REPEAT_PASSES | .SE_MG_KEY_PASSES | .SE_MG_APPROX | .SE_MG_SHORT | .SE_MG_FILTER_WAIT_CYC
  | .SE_MG_BUSY_CYC | .BD_WD_QUERIES | .BD_WD_STEPS | .BD_WD_PAIRS | .BD_WD_CEIL_STOP
  | .BD_WD_DEADLINE_STOP | .PJ_ENC_QUERY | .PJ_ENC_INSERT | .PJ_MAT_LOADS | .PJ_SIGN_NAN
  | .PJ_CLAMP_LEVEL | .PJ_CLAMP_TSCALE | .PJ_CLAMP_QUERY | .PJ_CLAMP_USCALE | .PJ_SR_DRAWS
  | .PJ_BUSY_CYC | .GE_SR_DRAWS | .GE_SR_SAT | .GE_SR_NAN | .GE_DOT_ROWS
  | .GE_DOT_PINNED | .GE_REQ_SERVED | .GE_REQ_REFUSED | .GE_REQ_UNREACHABLE | .GE_MARKERS
  | .GE_ABSENT | .GE_UPD_ENTRIES | .GE_UPD_STEPS | .GE_HH_PROMOTIONS | .GE_HH_ADDS
  | .GE_LOCK_WAIT | .GE_LOCK_WAIT_NS | .GE_HP_LOADS | .GE_HP_WRITEBACKS | .GE_HP_DIRTY_MAX
  | .GE_PAR_WRITES | .GE_PAR_ONLY | .GE_PAR_RECOMPUTE | .GE_PAR_UNPROTECTED | .GE_DEG_READS
  | .GE_DEG_FAIL | .GE_DEG_REPAIRED | .GE_REBUILD_SECTORS | .GE_REBUILD_LOST | .GE_STRIPE_WAIT_NS
  | .GE_PF_BYTES_UP | .GE_PF_BYTES_DOWN | .GE_PF_WAIT_NS => (5, 1)
  | .BD_GQ_CFG | .BD_GQ_POSTED | .BD_GQ_LAUNCH_FILL | .BD_GQ_LAUNCH_DEADLINE | .BD_GQ_LAUNCH_WINDOW
  | .BD_GQ_LAUNCH_PRESSURE | .BD_GQ_PAIRS_LAUNCHED | .BD_GQ_WAIT_NS | .BD_GQ_LATE | .BD_GQ_NOCTX_NS
  | .BD_GQ_POOL_HOLD | .BD_GQ_RESUMED | .BD_GQ_POOL_MAX => (5, 50)
  | .PJ_RR_FMT | .PJ_MAT => (5, 64)
  | .PJ_ZP => (5, 65536)
  | .PJ_DSCALE => (5, 131072)
  | .HG_RESETS | .HG_ESCALATIONS => (6, 1)
  | .PL_STRICT_CTL => (8, 1)
  | .PL_STRICT_RATE | .PL_STRICT_SIZE | .PL_STRICT_DROP => (8, 3)
  | .HG_WIN | .HG_MISSES => (10, 1)
  | .HQ_IDX_CTL | .HQ_CG_CTL => (16, 1)
  | .HQ_IDX_VER | .HQ_IDX_LIM => (16, 4)
  | .XT_LANE_SVC => (18, 1)
  | .EL_ECC_CORR | .EL_ECC_UNCORR | .EL_ECC_PPR_PENDING => (20, 1)
  | .GE_TBL_CTL | .GE_TBL_GEOM | .GE_TBL_OPT | .GE_TBL_EPS | .CF_SVC
  | .CF_REBUILD_POS | .CF_CTL | .CF_STATUS | .CF_CAP | .CF_TL_CFG
  | .CF_RD_CFG | .CF_TL_STATUS | .CF_SNAP | .CF_SCORED | .CF_SCORE_NAN
  | .CF_HDR_MISMATCH | .CF_REQ | .CF_READS | .CF_JOINED | .CF_LINGER_HITS
  | .CF_QV_LOADS | .CF_SOFT_DECODES | .CF_UNREADABLE | .CF_ABSENT | .CF_NO_QUERY
  | .CF_CHANNEL_DOWN | .CF_QUEUE_FULL_NS | .CF_REBUILD_READS | .CF_TL_HOST_BYTES | .CF_TL_NAND_BYTES
  | .CF_TL_FOLDS | .CF_TL_GC_MOVES | .CF_TL_GC_ORPHANS | .CF_TL_ERASES | .CF_TL_RETIRED
  | .CF_TL_WL_MOVES | .CF_TL_REFRESH | .CF_TL_MAP_MISS | .CF_TL_CKPT | .CF_TL_RETRY_READS
  | .CF_TL_WRITE_WAIT_NS | .CF_TL_HOLDUP_SHORT | .CF_TL_TIME_REFUSED => (32, 1)
  | .GE_TBL_VER | .GE_TBL_ROWS => (32, 4)
  | .GE_TBL_PEER => (32, 16)
  | .CF_RR_FMT => (32, 64)
  | .CF_ZP => (32, 65536)
  | .PL_SHP_CTL | .PL_SHP_RATE | .PL_SHP_SIZE | .PL_SHP_BYTES | .PL_SHP_WAIT_NS => (34, 256)
  | .BD_CTL | .BD_STATUS | .BD_SNAP | .TN_SHADOW_CFG | .TN_DL_CFG
  | .TN_CMP_PART | .TN_CMP_BAND | .BD_SVC | .BD_THR | .TN_PART
  | .TN_BAND | .BD_TASKS | .BD_REMOTE_TASKS | .BD_BLOCKS | .BD_SKIP_SUMMARY
  | .BD_SKIP_WORD | .BD_SKIP_ERROR | .BD_BYTES_READ | .BD_SEG_SKIP | .BD_PLANES_SKIP
  | .BD_SLOTS_DONE | .BD_SLOTS_ABANDONED | .BD_CAND_EMIT | .BD_TILE_CYC | .BD_LANE_CYC
  | .BD_EMIT_STALL_CYC | .BD_REDUCE | .BD_CHECKPOINTS | .SE_REDUCE_ELEMS | .SE_REDUCE_QWAIT_CYC
  | .SE_DUP_DROPPED | .SE_REFILL_PASSES | .BD_FLT_QBM_BYTES | .BD_FLT_ALLOWED | .TN_SHADOW_SAMPLED
  | .TN_SHADOW_SKIPPED | .TN_SHADOW_DONE | .TN_SHADOW_DROPPED | .TN_SHADOW_LOST | .TN_SHADOW_K_SUM
  | .TN_SHADOW_OVERLAP_SUM | .BD_RR_REBUILT | .TN_DL_SCAN_CUT | .TN_DL_EXPIRED | .TN_DL_FLASH_DROP
  | .TN_DL_LATE_RECORDS | .BD_THR_CYC | .BD_GATED_NS => (50, 1)
  | .HQ_GRP_SHARD | .TN_RG | .HQ_GRP_MEMBER => (64, 1)
  | .TN_TIER_CFG | .HQ_CTX_BIND | .HQ_SQ_DB | .HQ_CQ_DB | .HQ_CTX_CTL
  | .HQ_CTX_STATUS | .HQ_SQ_BASE | .HQ_CQ_BASE | .PL_CTX_COLOUR | .TN_RES_CREDITED
  | .TN_RES_TAKEN | .TN_RES_TAKE_REFUSED | .TN_RES_OVERRIDDEN | .TN_PF_DEMAND | .TN_PF_SCHEDULE
  | .TN_PF_FAILED | .TN_PF_POOL_EVICT | .TN_ACC_QUERIES | .TN_ACC_WAIT_NS | .TN_ACC_PREEMPT
  | .TN_ACC_TORN | .TN_ACC_TILE_CYC | .TN_ACC_RR_RECORDS | .TN_ACC_DRAM_BYTES | .TN_ACC_FLASH_READS
  | .TN_ACC_FLASH_WRITES | .TN_ACC_REMOTE_BYTES | .TN_ACC_JOINED => (256, 1)
  | .TN_QUOTA_LIMIT | .TN_QUOTA_USED | .TN_QUOTA_REFUSED => (256, 3)
  | .TN_ACC_WAIT_HIST => (256, 16)
  | .XT_ADDR_MAC | .XT_ADDR_IP_LO | .XT_ADDR_IP_HI => (1024, 1)
  | .XT_CONN_CFG | .XT_CONN_CC | .XT_CONN_STATUS => (8192, 1)
  | .SY_VAL | .SY_ADD | .SY_CFG => (16384, 1)
  | .XT_TWR_CTL => (32768, 1)
  | .XT_TWR_WIN => (32768, 8)
  | .XT_RGN_BASE | .XT_RGN_CTL => (65536, 1)
  | _ => (1, 1)

/-- The multiples of 64 up to 64n, as the values that a field defines. -/
def mult64 (n : Nat) : List (Nat × Nat) := (List.range n).map fun i => (64 * (i + 1), 64 * (i + 1))

/-- The fields of a register, from the highest bit down. A counter is one RO field [63:0] (R72), but for the three
that carry RC access. -/
def RegName.fields : RegName → List FieldRow
  | .HQ_IDX_CTL => [⟨63, 63, .RW, 0, []⟩, ⟨62, 60, .RSV, 0, []⟩, ⟨59, 56, .RW, 0, []⟩, ⟨55, 54, .RW, 0, []⟩,
      ⟨53, 52, .RW, 0, [(0, 1)]⟩, ⟨51, 50, .RW, 0, []⟩, ⟨49, 48, .RSV, 0, []⟩, ⟨47, 32, .RO, 0, []⟩,
      ⟨31, 28, .RO, 0, []⟩, ⟨27, 18, .RSV, 0, []⟩, ⟨17, 0, .RSV, 0, []⟩]
  | .HQ_IDX_VER => [⟨63, 48, .RW, 0, []⟩, ⟨47, 34, .RW, 0, []⟩, ⟨33, 0, .RW, 0, []⟩]
  | .HQ_IDX_LIM => [⟨31, 18, .RSV, 0, []⟩, ⟨17, 0, .RW, 0, [(1, 131072)]⟩]
  | .BD_GQ_CFG => [⟨31, 20, .RW, 96, [(1, 2048)]⟩, ⟨19, 7, .RW, 200, [(5, 5000)]⟩, ⟨6, 0, .RW, 20, []⟩]
  | .BD_PR_CFG => [⟨31, 10, .RSV, 0, []⟩, ⟨9, 0, .RW, 4, [(1, 1000)]⟩]
  | .BD_CTL => [⟨31, 31, .RW, 0, []⟩, ⟨30, 3, .RSV, 0, []⟩, ⟨2, 2, .RW, 1, []⟩, ⟨1, 1, .RW, 1, []⟩,
      ⟨0, 0, .RW, 1, []⟩]
  | .BD_STATUS => [⟨31, 31, .RO, 0, []⟩, ⟨30, 30, .RO, 1, []⟩, ⟨29, 24, .RO, 63, []⟩, ⟨23, 17, .RO, 0, []⟩,
      ⟨16, 12, .RO, 0, []⟩, ⟨11, 0, .RSV, 0, []⟩]
  | .BD_SNAP => [⟨31, 31, .WO, 0, []⟩, ⟨30, 30, .RO, 0, []⟩, ⟨29, 29, .RW, 0, []⟩, ⟨28, 0, .RSV, 0, []⟩]
  | .SE_MG_STATUS => [⟨31, 15, .RO, 0, []⟩, ⟨14, 12, .RO, 0, []⟩, ⟨11, 0, .RSV, 0, []⟩]
  | .SE_SNAP => [⟨31, 31, .WO, 0, []⟩, ⟨30, 30, .RO, 0, []⟩, ⟨29, 29, .RW, 0, []⟩, ⟨28, 0, .RSV, 0, []⟩]
  | .TN_SHADOW_CFG => [⟨31, 31, .RW, 0, []⟩, ⟨30, 29, .RSV, 0, []⟩, ⟨28, 24, .RW, 12, [(8, 24)]⟩,
      ⟨23, 20, .RW, 4, [(1, 15)]⟩, ⟨19, 10, .RW, 60, [(1, 1000)]⟩, ⟨9, 0, .RSV, 0, []⟩]
  | .PJ_RR_FMT => [⟨31, 30, .RW, 0, [(0, 2)]⟩, ⟨29, 29, .RW, 0, []⟩, ⟨28, 16, .RW, 0, []⟩, ⟨15, 12, .RO, 0, []⟩,
      ⟨11, 5, .RO, 0, []⟩, ⟨4, 0, .RSV, 0, []⟩]
  | .CF_RR_FMT => [⟨31, 30, .RW, 0, [(0, 2)]⟩, ⟨29, 29, .RW, 0, []⟩, ⟨28, 16, .RW, 0, []⟩, ⟨15, 12, .RO, 0, []⟩,
      ⟨11, 5, .RO, 0, []⟩, ⟨4, 0, .RSV, 0, []⟩]
  | .PJ_MAT => [⟨63, 63, .RW, 0, []⟩, ⟨62, 50, .RW, 0, mult64 64⟩, ⟨49, 34, .RSV, 0, []⟩, ⟨33, 0, .RW, 0, []⟩]
  | .GE_TBL_CTL => [⟨63, 63, .RW, 0, []⟩, ⟨62, 62, .RW, 0, []⟩, ⟨61, 60, .RSV, 0, []⟩, ⟨59, 56, .RW, 0, []⟩,
      ⟨55, 52, .RO, 0, []⟩, ⟨51, 50, .RW, 0, []⟩, ⟨49, 48, .RSV, 0, []⟩, ⟨47, 32, .RO, 0, []⟩,
      ⟨31, 26, .RW, 63, []⟩, ⟨25, 0, .RSV, 0, []⟩]
  | .GE_TBL_GEOM => [⟨63, 60, .RW, 0, [(1, 15)]⟩, ⟨59, 56, .RW, 0, []⟩, ⟨55, 43, .RW, 0, mult64 64⟩,
      ⟨42, 31, .RW, 0, []⟩, ⟨30, 18, .RW, 0, mult64 31⟩, ⟨17, 15, .RW, 0, [(0, 4)]⟩, ⟨14, 14, .RW, 0, []⟩, ⟨13, 8, .RW, 0, []⟩,
      ⟨7, 2, .RW, 0, [(1, 37)]⟩, ⟨1, 0, .RSV, 0, []⟩]
  | .GE_TBL_VER => [⟨63, 48, .RW, 0, []⟩, ⟨47, 34, .RW, 0, []⟩, ⟨33, 27, .RSV, 0, []⟩, ⟨26, 0, .RW, 0, []⟩]
  | .GE_TBL_ROWS => [⟨63, 37, .RSV, 0, []⟩, ⟨36, 0, .RW, 0, []⟩]
  | .GE_TBL_OPT => [⟨63, 32, .RW, 0, []⟩, ⟨31, 0, .RW, 0, []⟩]
  | .GE_TBL_EPS => [⟨31, 0, .RW, 0, []⟩]
  | .GE_TBL_PEER => [⟨31, 31, .RW, 0, []⟩, ⟨30, 13, .RSV, 0, []⟩, ⟨12, 0, .RW, 0, []⟩]
  | .GE_HP_CTL => [⟨63, 63, .RW, 0, []⟩, ⟨62, 62, .RO, 0, []⟩, ⟨61, 57, .RO, 0, []⟩, ⟨56, 55, .RO, 0, []⟩,
      ⟨54, 28, .RO, 0, []⟩, ⟨27, 1, .RW, 0, []⟩, ⟨0, 0, .RSV, 0, []⟩]
  | .GE_HH_CFG => [⟨31, 31, .RW, 1, []⟩, ⟨30, 8, .RSV, 0, []⟩, ⟨7, 0, .RW, 8, [(2, 255)]⟩]
  | .GE_STATUS => [⟨31, 19, .RO, 0, []⟩, ⟨18, 10, .RO, 0, []⟩, ⟨9, 0, .RSV, 0, []⟩]
  | .HQ_GRP_SHARD => [⟨31, 31, .RW, 0, []⟩, ⟨30, 29, .RW, 0, [(0, 2)]⟩, ⟨28, 27, .RSV, 0, []⟩,
      ⟨26, 25, .RW, 0, []⟩, ⟨24, 24, .RSV, 0, []⟩, ⟨23, 18, .RW, 0, []⟩, ⟨17, 16, .RW, 0, []⟩,
      ⟨15, 15, .RSV, 0, []⟩, ⟨14, 9, .RW, 0, []⟩, ⟨8, 7, .RW, 0, []⟩, ⟨6, 6, .RSV, 0, []⟩, ⟨5, 0, .RW, 0, []⟩]
  | .CF_SVC => [⟨31, 29, .RO, 2, []⟩, ⟨28, 26, .RO, 0, []⟩, ⟨25, 24, .WO, 0, []⟩, ⟨23, 17, .RO, 0, []⟩,
      ⟨16, 0, .RSV, 0, []⟩]
  | .CF_REBUILD_POS => [⟨63, 32, .RSV, 0, []⟩, ⟨31, 0, .RO, 0, []⟩]
  | .CF_CTL => [⟨31, 24, .RW, 4, []⟩, ⟨23, 16, .RW, 10, [(1, 50)]⟩, ⟨15, 8, .RW, 10, [(1, 255)]⟩,
      ⟨7, 0, .RW, 50, [(1, 255)]⟩]
  | .CF_STATUS => [⟨31, 23, .RO, 0, []⟩, ⟨22, 10, .RO, 0, []⟩, ⟨9, 0, .RSV, 0, []⟩]
  | .CF_CAP => [⟨63, 32, .RO, 0, []⟩, ⟨31, 0, .RO, 0, []⟩]
  | .CF_TL_CFG => [⟨31, 24, .RW, 20, [(5, 50)]⟩, ⟨23, 18, .RW, 8, [(3, 63)]⟩, ⟨17, 14, .RW, 2, [(1, 15)]⟩,
      ⟨13, 13, .RW, 1, []⟩, ⟨12, 0, .RW, 500, [(50, 5000)]⟩]
  | .CF_RD_CFG => [⟨31, 28, .RW, 8, [(1, 15)]⟩, ⟨27, 24, .RW, 4, [(1, 15)]⟩, ⟨23, 14, .RW, 365, [(1, 1023)]⟩,
      ⟨13, 6, .RW, 10, [(1, 60)]⟩, ⟨5, 0, .RSV, 0, []⟩]
  | .CF_TL_STATUS => [⟨31, 31, .RO, 0, []⟩, ⟨30, 30, .RO, 0, []⟩, ⟨29, 23, .RO, 0, []⟩, ⟨22, 17, .RO, 0, []⟩,
      ⟨16, 11, .RO, 0, []⟩, ⟨10, 0, .RO, 0, []⟩]
  | .TN_QUOTA_LIMIT => [⟨63, 40, .RSV, 0, []⟩, ⟨39, 0, .RW, 0, []⟩]
  | .TN_QUOTA_USED => [⟨63, 40, .RSV, 0, []⟩, ⟨39, 0, .RO, 0, []⟩]
  | .TN_TIER_CFG => [⟨31, 12, .RW, 0, []⟩, ⟨11, 4, .RW, 10, [(1, 255)]⟩, ⟨3, 0, .RSV, 0, []⟩]
  | .TN_RG => [⟨63, 63, .RW, 0, []⟩, ⟨62, 61, .RO, 0, []⟩, ⟨60, 53, .RW, 0, []⟩, ⟨52, 40, .RW, 0, []⟩,
      ⟨39, 24, .RW, 0, []⟩, ⟨23, 0, .RW, 0, []⟩]
  | .TN_DL_CFG => [⟨31, 10, .RSV, 0, []⟩, ⟨9, 0, .RW, 20, [(5, 1000)]⟩]
  | .HQ_CTX_BIND => [⟨63, 63, .RW, 0, []⟩, ⟨62, 62, .RW, 0, []⟩, ⟨61, 55, .RW, 0, []⟩, ⟨54, 47, .RW, 0, []⟩,
      ⟨46, 41, .RW, 63, []⟩, ⟨40, 37, .RW, 0, []⟩, ⟨36, 36, .RW, 0, []⟩, ⟨35, 35, .RW, 0, []⟩,
      ⟨34, 22, .RW, 0, []⟩, ⟨21, 0, .RSV, 0, []⟩]
  | .HQ_SQ_DB => [⟨31, 16, .RSV, 0, []⟩, ⟨15, 0, .WO, 0, []⟩]
  | .HQ_CQ_DB => [⟨31, 16, .RSV, 0, []⟩, ⟨15, 0, .WO, 0, []⟩]
  | .HQ_CTX_CTL => [⟨31, 31, .RW, 0, []⟩, ⟨30, 27, .RW, 0, [(0, 12)]⟩, ⟨26, 23, .RW, 0, [(0, 12)]⟩,
      ⟨22, 22, .RW, 0, []⟩, ⟨21, 14, .RW, 0, []⟩, ⟨13, 7, .RW, 0, []⟩, ⟨6, 0, .RW, 0, []⟩]
  | .HQ_CTX_STATUS => [⟨31, 30, .RO, 0, []⟩, ⟨29, 14, .RO, 0, []⟩, ⟨13, 0, .RSV, 0, []⟩]
  | .HQ_SQ_BASE => [⟨63, 12, .RW, 0, []⟩, ⟨11, 0, .RSV, 0, []⟩]
  | .HQ_CQ_BASE => [⟨63, 12, .RW, 0, []⟩, ⟨11, 0, .RSV, 0, []⟩]
  | .HQ_CG_CTL => [⟨31, 31, .RW, 0, []⟩, ⟨30, 30, .RO, 0, []⟩, ⟨29, 28, .WO, 0, []⟩, ⟨27, 26, .RO, 0, []⟩,
      ⟨25, 19, .RW, 0, []⟩, ⟨18, 0, .RSV, 0, []⟩]
  | .HQ_GRP_CTL => [⟨31, 31, .RW, 0, []⟩, ⟨30, 25, .RW, 0, []⟩, ⟨24, 15, .RW, 50, [(10, 1000)]⟩,
      ⟨14, 0, .RSV, 0, []⟩]
  | .HQ_GRP_MEMBER => [⟨31, 31, .RW, 0, []⟩, ⟨30, 13, .RSV, 0, []⟩, ⟨12, 0, .RW, 0, []⟩]
  | .XT_CONN_CFG => [⟨63, 62, .RO, 0, []⟩, ⟨61, 60, .WO, 0, []⟩, ⟨59, 50, .RW, 0, []⟩, ⟨49, 49, .RW, 0, []⟩,
      ⟨48, 45, .RW, 0, []⟩, ⟨44, 44, .RW, 0, []⟩, ⟨43, 42, .RW, 1, [(0, 1)]⟩, ⟨41, 41, .RW, 0, []⟩,
      ⟨40, 39, .RW, 0, []⟩, ⟨38, 38, .RSV, 0, []⟩, ⟨37, 25, .RW, 0, []⟩, ⟨24, 15, .RW, 0, []⟩, ⟨14, 7, .RW, 0, []⟩,
      ⟨6, 0, .RSV, 0, []⟩]
  | .XT_CONN_CC => [⟨63, 52, .RW, 64, [(1, 1024)]⟩, ⟨51, 40, .RW, 100, [(20, 4095)]⟩, ⟨39, 28, .RO, 0, []⟩,
      ⟨27, 12, .RO, 0, []⟩, ⟨11, 0, .RO, 0, []⟩]
  | .XT_CONN_STATUS => [⟨63, 56, .RO, 0, []⟩, ⟨55, 52, .RO, 0, []⟩, ⟨51, 35, .RO, 0, []⟩, ⟨34, 0, .RSV, 0, []⟩]
  | .XT_ADDR_MAC => [⟨63, 63, .RW, 0, []⟩, ⟨62, 62, .RW, 0, []⟩, ⟨61, 48, .RSV, 0, []⟩, ⟨47, 0, .RW, 0, []⟩]
  | .XT_ADDR_IP_LO => [⟨63, 0, .RW, 0, []⟩]
  | .XT_ADDR_IP_HI => [⟨63, 0, .RW, 0, []⟩]
  | .XT_RGN_BASE => [⟨63, 43, .RSV, 0, []⟩, ⟨42, 40, .RW, 0, []⟩, ⟨39, 12, .RW, 0, []⟩, ⟨11, 0, .RSV, 0, []⟩]
  | .XT_RGN_CTL => [⟨63, 62, .RO, 0, []⟩, ⟨61, 60, .WO, 0, []⟩, ⟨59, 50, .RW, 0, []⟩, ⟨49, 49, .RW, 0, []⟩,
      ⟨48, 48, .RW, 0, []⟩, ⟨47, 47, .RSV, 0, []⟩, ⟨46, 46, .RW, 0, []⟩, ⟨45, 38, .RO, 0, []⟩,
      ⟨37, 24, .RW, 0, []⟩, ⟨23, 0, .RW, 0, []⟩]
  | .XT_RR_POOL => [⟨31, 16, .RW, 0, []⟩, ⟨15, 4, .RW, 0, []⟩, ⟨3, 0, .RSV, 0, []⟩]
  | .SY_VAL => [⟨63, 0, .RW, 0, []⟩]
  | .SY_ADD => [⟨63, 0, .WO, 0, []⟩]
  | .SY_CFG => [⟨31, 31, .RW, 0, []⟩, ⟨30, 21, .RW, 0, []⟩, ⟨20, 0, .RSV, 0, []⟩]
  | .XT_TWR_CTL => [⟨31, 30, .RO, 0, []⟩, ⟨29, 28, .WO, 0, []⟩, ⟨27, 0, .RSV, 0, []⟩]
  | .XT_TWR_WIN => [⟨63, 0, .RW, 0, []⟩]
  | .XT_CFG => [⟨31, 16, .RW, 50085, []⟩, ⟨15, 14, .RW, 2, [(0, 2)]⟩, ⟨13, 13, .RW, 0, []⟩, ⟨12, 5, .RW, 1, []⟩,
      ⟨4, 0, .RSV, 0, []⟩]
  | .XT_REL_CFG => [⟨31, 20, .RW, 200, [(20, 4000)]⟩, ⟨19, 17, .RW, 7, [(1, 7)]⟩, ⟨16, 9, .RW, 8, [(1, 255)]⟩,
      ⟨8, 0, .RW, 20, [(1, 511)]⟩]
  | .XT_TC_MAP => [⟨31, 29, .RW, 3, []⟩, ⟨28, 23, .RW, 26, []⟩, ⟨22, 20, .RW, 4, []⟩, ⟨19, 14, .RW, 34, []⟩,
      ⟨13, 11, .RW, 6, []⟩, ⟨10, 5, .RW, 48, []⟩, ⟨4, 0, .RSV, 0, []⟩]
  | .PL_PD_TENANT => [⟨31, 31, .RW, 0, []⟩, ⟨30, 8, .RSV, 0, []⟩, ⟨7, 0, .RW, 0, []⟩]
  | .PL_CTX_COLOUR => [⟨31, 1, .RSV, 0, []⟩, ⟨0, 0, .RW, 0, []⟩]
  | .PL_POL_CTL => [⟨31, 31, .RW, 0, []⟩, ⟨30, 29, .RW, 0, []⟩, ⟨28, 28, .RW, 0, []⟩, ⟨27, 27, .WO, 0, []⟩,
      ⟨26, 0, .RSV, 0, []⟩]
  | .PL_POL_CIR => [⟨63, 36, .RSV, 0, []⟩, ⟨35, 0, .RW, 0, []⟩]
  | .PL_POL_PIR => [⟨63, 36, .RSV, 0, []⟩, ⟨35, 0, .RW, 0, []⟩]
  | .PL_POL_BURST => [⟨63, 32, .RW, 0, []⟩, ⟨31, 0, .RW, 0, []⟩]
  | .PL_STRICT_CTL => [⟨31, 31, .RW, 0, []⟩, ⟨30, 30, .WO, 0, []⟩, ⟨29, 8, .RSV, 0, []⟩, ⟨7, 0, .RW, 0, []⟩]
  | .PL_SHP_CTL => [⟨31, 31, .RW, 0, []⟩, ⟨30, 30, .WO, 0, []⟩, ⟨29, 23, .RSV, 0, []⟩, ⟨22, 16, .RW, 20, []⟩,
      ⟨15, 0, .RSV, 0, []⟩]
  | .PL_SHP_RATE => [⟨63, 36, .RSV, 0, []⟩, ⟨35, 0, .RW, 0, []⟩]
  | .PL_SHP_SIZE => [⟨31, 0, .RW, 0, []⟩]
  | .TN_CMP_PART => [⟨63, 63, .RW, 0, []⟩, ⟨62, 55, .RW, 0, []⟩, ⟨54, 38, .RW, 0, []⟩, ⟨37, 0, .RSV, 0, []⟩]
  | .TN_CMP_BAND => [⟨31, 31, .RW, 0, []⟩, ⟨30, 25, .RW, 0, []⟩, ⟨24, 0, .RSV, 0, []⟩]
  | .TN_CMP_CTL => [⟨31, 31, .WO, 0, []⟩, ⟨30, 29, .RO, 0, []⟩, ⟨28, 26, .RO, 0, []⟩,
      ⟨25, 10, .RW, 100, [(0, 60000)]⟩, ⟨9, 0, .RSV, 0, []⟩]
  | .TN_CMP_EPOCH => [⟨63, 32, .RO, 0, []⟩, ⟨31, 0, .RO, 0, []⟩]
  | .TN_ACC_SNAP => [⟨31, 31, .WO, 0, []⟩, ⟨30, 30, .RO, 0, []⟩, ⟨29, 29, .RW, 0, []⟩, ⟨28, 8, .RSV, 0, []⟩,
      ⟨7, 0, .RW, 0, []⟩]
  | .TN_LEASE_CFG => [⟨63, 63, .RW, 0, []⟩, ⟨62, 62, .RW, 0, []⟩, ⟨61, 56, .RW, 0, []⟩, ⟨55, 43, .RW, 0, []⟩,
      ⟨42, 27, .RW, 0, []⟩, ⟨26, 0, .RSV, 0, []⟩]
  | .EL_SEQ => [⟨63, 32, .RO, 1, []⟩, ⟨31, 0, .RO, 1, []⟩]
  | .EL_CTL => [⟨31, 31, .RW, 0, []⟩, ⟨30, 30, .RW, 0, []⟩, ⟨29, 22, .RW, 0, []⟩, ⟨21, 19, .RW, 4, [(0, 6)]⟩,
      ⟨18, 0, .RSV, 0, []⟩]
  | .HG_WIN => [⟨31, 31, .RW, 1, []⟩, ⟨30, 20, .RSV, 0, []⟩, ⟨19, 0, .RW, 0, [(10, 1000000)]⟩]
  | .HG_CFG => [⟨31, 23, .RW, 1, [(1, 256)]⟩, ⟨22, 0, .RSV, 0, []⟩]
  | .DM_SURVIVE => [⟨31, 31, .RW, 1, []⟩, ⟨30, 30, .RW, 0, []⟩, ⟨29, 0, .RSV, 0, []⟩]
  | .DM_CTL => [⟨31, 31, .WO, 0, []⟩, ⟨30, 30, .WO, 0, []⟩, ⟨29, 29, .RW, 1, []⟩, ⟨28, 28, .RW, 0, []⟩,
      ⟨27, 27, .RW, 0, []⟩, ⟨26, 16, .RW, 250, [(1, 2047)]⟩, ⟨15, 14, .RO, 0, []⟩, ⟨13, 0, .RSV, 0, []⟩]
  | .DM_INFO => [⟨63, 32, .RO, 0, []⟩, ⟨31, 16, .RO, 0, []⟩, ⟨15, 0, .RO, 0, []⟩]
  | .BD_SVC => [⟨31, 29, .RO, 2, []⟩, ⟨28, 26, .RO, 0, []⟩, ⟨25, 24, .WO, 0, []⟩, ⟨23, 12, .RO, 0, []⟩,
      ⟨11, 0, .RSV, 0, []⟩]
  | .XT_LANE_SVC => [⟨31, 29, .RO, 2, []⟩, ⟨28, 26, .RO, 0, []⟩, ⟨25, 24, .WO, 0, []⟩, ⟨23, 12, .RO, 0, []⟩,
      ⟨11, 0, .RSV, 0, []⟩]
  | .HG_CORE_SVC => [⟨31, 29, .RO, 2, []⟩, ⟨28, 26, .RO, 0, []⟩, ⟨25, 24, .WO, 0, []⟩, ⟨23, 12, .RO, 0, []⟩,
      ⟨11, 0, .RSV, 0, []⟩]
  | .HQ_START_STATUS => [⟨63, 62, .RO, 0, []⟩, ⟨61, 58, .RO, 0, []⟩, ⟨57, 57, .RO, 0, []⟩, ⟨56, 56, .RO, 0, []⟩,
      ⟨55, 48, .RO, 0, []⟩, ⟨47, 40, .RO, 0, []⟩, ⟨39, 24, .RO, 0, []⟩, ⟨23, 8, .RO, 0, []⟩, ⟨7, 0, .RSV, 0, []⟩]
  | .HQ_MB_CTL => [⟨31, 31, .W1S, 0, []⟩, ⟨30, 30, .RO, 0, []⟩, ⟨29, 29, .W1C, 0, []⟩, ⟨28, 28, .RW, 0, []⟩,
      ⟨27, 20, .RW, 0, []⟩, ⟨19, 0, .RSV, 0, []⟩]
  | .BD_THR => [⟨31, 28, .RO, 8, []⟩, ⟨27, 24, .RW, 8, [(1, 8)]⟩, ⟨23, 20, .RO, 8, []⟩, ⟨19, 16, .RO, 8, []⟩,
      ⟨15, 15, .RO, 1, []⟩, ⟨14, 0, .RSV, 0, []⟩]
  | .GE_SNAP => [⟨31, 31, .WO, 0, []⟩, ⟨30, 30, .RO, 0, []⟩, ⟨29, 29, .RW, 0, []⟩, ⟨28, 0, .RSV, 0, []⟩]
  | .CF_SNAP => [⟨31, 31, .WO, 0, []⟩, ⟨30, 30, .RO, 0, []⟩, ⟨29, 29, .RW, 0, []⟩, ⟨28, 0, .RSV, 0, []⟩]
  | .XT_SNAP => [⟨31, 31, .WO, 0, []⟩, ⟨30, 30, .RO, 0, []⟩, ⟨29, 29, .RW, 0, []⟩, ⟨28, 0, .RSV, 0, []⟩]
  | .TN_PART => [⟨63, 63, .RO, 0, []⟩, ⟨62, 55, .RO, 0, []⟩, ⟨54, 38, .RO, 0, []⟩, ⟨37, 0, .RSV, 0, []⟩]
  | .TN_BAND => [⟨31, 31, .RO, 0, []⟩, ⟨30, 25, .RO, 0, []⟩, ⟨24, 0, .RSV, 0, []⟩]
  | .XT_PORT_MAC => [⟨63, 63, .RW, 0, []⟩, ⟨62, 62, .RW, 0, []⟩, ⟨61, 48, .RSV, 0, []⟩, ⟨47, 0, .RW, 0, []⟩]
  | .XT_PORT_IP_LO => [⟨63, 0, .RW, 0, []⟩]
  | .XT_PORT_IP_HI => [⟨63, 0, .RW, 0, []⟩]
  | .XT_PORT_VLAN => [⟨31, 12, .RSV, 0, []⟩, ⟨11, 0, .RW, 0, []⟩]
  | .PL_STRICT_RATE => [⟨63, 36, .RSV, 0, []⟩, ⟨35, 0, .RW, 0, []⟩]
  | .PL_STRICT_SIZE => [⟨63, 32, .RSV, 0, []⟩, ⟨31, 0, .RW, 0, []⟩]
  | .TN_POOL_CTL => [⟨31, 31, .RW, 0, []⟩, ⟨30, 0, .RSV, 0, []⟩]
  | .PJ_DSCALE => [⟨31, 16, .RW, 0, [(1, 31743)]⟩, ⟨15, 0, .RW, 0, [(1, 31743)]⟩]
  | .PJ_ZP => [⟨31, 24, .RW, 0, []⟩, ⟨23, 16, .RW, 0, []⟩, ⟨15, 8, .RW, 0, []⟩, ⟨7, 0, .RW, 0, []⟩]
  | .CF_ZP => [⟨31, 24, .RW, 0, []⟩, ⟨23, 16, .RW, 0, []⟩, ⟨15, 8, .RW, 0, []⟩, ⟨7, 0, .RW, 0, []⟩]
  | .HQ_MB_REQ => [⟨31, 0, .RW, 0, []⟩]
  | .HQ_MB_RSP => [⟨31, 0, .RO, 0, []⟩]
  | .BD_GQ_POOL_MAX | .GE_HP_DIRTY_MAX | .TN_POOL_RECORDS_MAX => [⟨63, 0, .RC, 0, []⟩]
  | _ => [⟨63, 0, .RO, 0, []⟩]

/-! ### The fields by name -/

def fHQ_IDX_CTL_ENABLE : Fld := ⟨.HQ_IDX_CTL, 63, 63⟩
def fHQ_IDX_CTL_VALID : Fld := ⟨.HQ_IDX_CTL, 59, 56⟩
def fHQ_IDX_CTL_CURRENT : Fld := ⟨.HQ_IDX_CTL, 55, 54⟩
def fHQ_IDX_CTL_CENT_LEN : Fld := ⟨.HQ_IDX_CTL, 53, 52⟩
def fHQ_IDX_CTL_CODE_LEN : Fld := ⟨.HQ_IDX_CTL, 51, 50⟩
def fHQ_IDX_CTL_SWITCH_COUNT : Fld := ⟨.HQ_IDX_CTL, 47, 32⟩
def fHQ_IDX_CTL_RETIRING : Fld := ⟨.HQ_IDX_CTL, 31, 28⟩
def fHQ_IDX_VER_VERSION : Fld := ⟨.HQ_IDX_VER, 63, 48⟩
def fHQ_IDX_VER_REF_SYNC : Fld := ⟨.HQ_IDX_VER, 47, 34⟩
def fHQ_IDX_VER_REC_ADDR : Fld := ⟨.HQ_IDX_VER, 33, 0⟩
def fHQ_IDX_LIM_ORD_LIMIT_64K : Fld := ⟨.HQ_IDX_LIM, 17, 0⟩
def fBD_GQ_CFG_FILL_TARGET : Fld := ⟨.BD_GQ_CFG, 31, 20⟩
def fBD_GQ_CFG_WINDOW_US : Fld := ⟨.BD_GQ_CFG, 19, 7⟩
def fBD_GQ_CFG_LAUNCH_MARGIN : Fld := ⟨.BD_GQ_CFG, 6, 0⟩
def fBD_PR_CFG_PROBE_WINDOW_US : Fld := ⟨.BD_PR_CFG, 9, 0⟩
def fBD_CTL_DRAIN : Fld := ⟨.BD_CTL, 31, 31⟩
def fBD_CTL_SUMMARY_SKIP_EN : Fld := ⟨.BD_CTL, 2, 2⟩
def fBD_CTL_SEG_SKIP_EN : Fld := ⟨.BD_CTL, 1, 1⟩
def fBD_CTL_ABORT_EN : Fld := ⟨.BD_CTL, 0, 0⟩
def fBD_STATUS_IN_SERVICE : Fld := ⟨.BD_STATUS, 31, 31⟩
def fBD_STATUS_DRAINED : Fld := ⟨.BD_STATUS, 30, 30⟩
def fBD_STATUS_PN : Fld := ⟨.BD_STATUS, 29, 24⟩
def fBD_STATUS_CTX_BUSY : Fld := ⟨.BD_STATUS, 23, 17⟩
def fBD_STATUS_TILES_BOUND : Fld := ⟨.BD_STATUS, 16, 12⟩
def fBD_SNAP_SNAP : Fld := ⟨.BD_SNAP, 31, 31⟩
def fBD_SNAP_SNAP_DONE : Fld := ⟨.BD_SNAP, 30, 30⟩
def fBD_SNAP_VIEW : Fld := ⟨.BD_SNAP, 29, 29⟩
def fSE_MG_STATUS_QUERIES_OPEN : Fld := ⟨.SE_MG_STATUS, 31, 15⟩
def fSE_MG_STATUS_FILTERS_BUSY : Fld := ⟨.SE_MG_STATUS, 14, 12⟩
def fSE_SNAP_SNAP : Fld := ⟨.SE_SNAP, 31, 31⟩
def fSE_SNAP_SNAP_DONE : Fld := ⟨.SE_SNAP, 30, 30⟩
def fSE_SNAP_VIEW : Fld := ⟨.SE_SNAP, 29, 29⟩
def fTN_SHADOW_CFG_EN : Fld := ⟨.TN_SHADOW_CFG, 31, 31⟩
def fTN_SHADOW_CFG_PERIOD_LOG2 : Fld := ⟨.TN_SHADOW_CFG, 28, 24⟩
def fTN_SHADOW_CFG_SHADOW_DEPTH : Fld := ⟨.TN_SHADOW_CFG, 23, 20⟩
def fTN_SHADOW_CFG_TIMEOUT_S : Fld := ⟨.TN_SHADOW_CFG, 19, 10⟩
def fPJ_RR_FMT_CODE : Fld := ⟨.PJ_RR_FMT, 31, 30⟩
def fPJ_RR_FMT_BLOCK_SCALE : Fld := ⟨.PJ_RR_FMT, 29, 29⟩
def fPJ_RR_FMT_DIMS : Fld := ⟨.PJ_RR_FMT, 28, 16⟩
def fPJ_RR_FMT_GROUP : Fld := ⟨.PJ_RR_FMT, 15, 12⟩
def fPJ_RR_FMT_GROUPS : Fld := ⟨.PJ_RR_FMT, 11, 5⟩
def fCF_RR_FMT_CODE : Fld := ⟨.CF_RR_FMT, 31, 30⟩
def fCF_RR_FMT_BLOCK_SCALE : Fld := ⟨.CF_RR_FMT, 29, 29⟩
def fCF_RR_FMT_DIMS : Fld := ⟨.CF_RR_FMT, 28, 16⟩
def fCF_RR_FMT_GROUP : Fld := ⟨.CF_RR_FMT, 15, 12⟩
def fCF_RR_FMT_GROUPS : Fld := ⟨.CF_RR_FMT, 11, 5⟩
def fPJ_MAT_SIGN_EN : Fld := ⟨.PJ_MAT, 63, 63⟩
def fPJ_MAT_D_IN : Fld := ⟨.PJ_MAT, 62, 50⟩
def fPJ_MAT_MAT_ADDR : Fld := ⟨.PJ_MAT, 33, 0⟩
def fGE_TBL_CTL_ENABLE : Fld := ⟨.GE_TBL_CTL, 63, 63⟩
def fGE_TBL_CTL_WRITE_THROUGH : Fld := ⟨.GE_TBL_CTL, 62, 62⟩
def fGE_TBL_CTL_VALID : Fld := ⟨.GE_TBL_CTL, 59, 56⟩
def fGE_TBL_CTL_RETIRING : Fld := ⟨.GE_TBL_CTL, 55, 52⟩
def fGE_TBL_CTL_CURRENT : Fld := ⟨.GE_TBL_CTL, 51, 50⟩
def fGE_TBL_CTL_SWITCH_COUNT : Fld := ⟨.GE_TBL_CTL, 47, 32⟩
def fGE_TBL_CTL_PN : Fld := ⟨.GE_TBL_CTL, 31, 26⟩
def fGE_TBL_GEOM_G_M1 : Fld := ⟨.GE_TBL_GEOM, 63, 60⟩
def fGE_TBL_GEOM_SLICE : Fld := ⟨.GE_TBL_GEOM, 59, 56⟩
def fGE_TBL_GEOM_COLS : Fld := ⟨.GE_TBL_GEOM, 55, 43⟩
def fGE_TBL_GEOM_COL_LO : Fld := ⟨.GE_TBL_GEOM, 42, 31⟩
def fGE_TBL_GEOM_W : Fld := ⟨.GE_TBL_GEOM, 30, 18⟩
def fGE_TBL_GEOM_TYPE : Fld := ⟨.GE_TBL_GEOM, 17, 15⟩
def fGE_TBL_GEOM_MOM_FP32 : Fld := ⟨.GE_TBL_GEOM, 14, 14⟩
def fGE_TBL_GEOM_ROW_SHIFT : Fld := ⟨.GE_TBL_GEOM, 13, 8⟩
def fGE_TBL_GEOM_ROW_BITS : Fld := ⟨.GE_TBL_GEOM, 7, 2⟩
def fGE_TBL_VER_VERSION : Fld := ⟨.GE_TBL_VER, 63, 48⟩
def fGE_TBL_VER_REF_SYNC : Fld := ⟨.GE_TBL_VER, 47, 34⟩
def fGE_TBL_VER_BG_BASE : Fld := ⟨.GE_TBL_VER, 26, 0⟩
def fGE_TBL_ROWS_ROWS : Fld := ⟨.GE_TBL_ROWS, 36, 0⟩
def fGE_TBL_OPT_BETA2 : Fld := ⟨.GE_TBL_OPT, 63, 32⟩
def fGE_TBL_OPT_BETA1 : Fld := ⟨.GE_TBL_OPT, 31, 0⟩
def fGE_TBL_EPS_EPS : Fld := ⟨.GE_TBL_EPS, 31, 0⟩
def fGE_TBL_PEER_V : Fld := ⟨.GE_TBL_PEER, 31, 31⟩
def fGE_TBL_PEER_CONN : Fld := ⟨.GE_TBL_PEER, 12, 0⟩
def fGE_HP_CTL_ENABLE : Fld := ⟨.GE_HP_CTL, 63, 63⟩
def fGE_HP_CTL_SWAP_BUSY : Fld := ⟨.GE_HP_CTL, 62, 62⟩
def fGE_HP_CTL_TABLE : Fld := ⟨.GE_HP_CTL, 61, 57⟩
def fGE_HP_CTL_VER_SLOT : Fld := ⟨.GE_HP_CTL, 56, 55⟩
def fGE_HP_CTL_PINNED : Fld := ⟨.GE_HP_CTL, 54, 28⟩
def fGE_HP_CTL_CAP_SLOTS : Fld := ⟨.GE_HP_CTL, 27, 1⟩
def fGE_HH_CFG_EN : Fld := ⟨.GE_HH_CFG, 31, 31⟩
def fGE_HH_CFG_PROMOTE : Fld := ⟨.GE_HH_CFG, 7, 0⟩
def fGE_STATUS_LOCKS_HELD : Fld := ⟨.GE_STATUS, 31, 19⟩
def fGE_STATUS_HH_USED : Fld := ⟨.GE_STATUS, 18, 10⟩
def fHQ_GRP_SHARD_V : Fld := ⟨.HQ_GRP_SHARD, 31, 31⟩
def fHQ_GRP_SHARD_SERVE : Fld := ⟨.HQ_GRP_SHARD, 30, 29⟩
def fHQ_GRP_SHARD_R2_STATE : Fld := ⟨.HQ_GRP_SHARD, 26, 25⟩
def fHQ_GRP_SHARD_R2_MEMBER : Fld := ⟨.HQ_GRP_SHARD, 23, 18⟩
def fHQ_GRP_SHARD_R1_STATE : Fld := ⟨.HQ_GRP_SHARD, 17, 16⟩
def fHQ_GRP_SHARD_R1_MEMBER : Fld := ⟨.HQ_GRP_SHARD, 14, 9⟩
def fHQ_GRP_SHARD_R0_STATE : Fld := ⟨.HQ_GRP_SHARD, 8, 7⟩
def fHQ_GRP_SHARD_R0_MEMBER : Fld := ⟨.HQ_GRP_SHARD, 5, 0⟩
def fCF_SVC_STATE : Fld := ⟨.CF_SVC, 31, 29⟩
def fCF_SVC_CAUSE : Fld := ⟨.CF_SVC, 28, 26⟩
def fCF_SVC_CMD : Fld := ⟨.CF_SVC, 25, 24⟩
def fCF_SVC_REBUILD_PCT : Fld := ⟨.CF_SVC, 23, 17⟩
def fCF_REBUILD_POS_CURSOR : Fld := ⟨.CF_REBUILD_POS, 31, 0⟩
def fCF_CTL_LINGER_US : Fld := ⟨.CF_CTL, 31, 24⟩
def fCF_CTL_REBUILD_SHARE : Fld := ⟨.CF_CTL, 23, 16⟩
def fCF_CTL_OPEN_TIMEOUT_MS : Fld := ⟨.CF_CTL, 15, 8⟩
def fCF_CTL_DRAIN_MS : Fld := ⟨.CF_CTL, 7, 0⟩
def fCF_STATUS_CTX_BUSY : Fld := ⟨.CF_STATUS, 31, 23⟩
def fCF_STATUS_REQ_QUEUED : Fld := ⟨.CF_STATUS, 22, 10⟩
def fCF_CAP_DATA_SECTORS : Fld := ⟨.CF_CAP, 63, 32⟩
def fCF_CAP_PARITY_SECTORS : Fld := ⟨.CF_CAP, 31, 0⟩
def fCF_TL_CFG_GC_SHARE : Fld := ⟨.CF_TL_CFG, 31, 24⟩
def fCF_TL_CFG_GC_START : Fld := ⟨.CF_TL_CFG, 23, 18⟩
def fCF_TL_CFG_GC_URGENT : Fld := ⟨.CF_TL_CFG, 17, 14⟩
def fCF_TL_CFG_WL_EN : Fld := ⟨.CF_TL_CFG, 13, 13⟩
def fCF_TL_CFG_WL_LIMIT : Fld := ⟨.CF_TL_CFG, 12, 0⟩
def fCF_RD_CFG_RETRY_MAX : Fld := ⟨.CF_RD_CFG, 31, 28⟩
def fCF_RD_CFG_REFRESH_RETRIES : Fld := ⟨.CF_RD_CFG, 27, 24⟩
def fCF_RD_CFG_REFRESH_DAYS : Fld := ⟨.CF_RD_CFG, 23, 14⟩
def fCF_RD_CFG_CKPT_INTERVAL_S : Fld := ⟨.CF_RD_CFG, 13, 6⟩
def fCF_TL_STATUS_FLUSH_DONE : Fld := ⟨.CF_TL_STATUS, 31, 31⟩
def fCF_TL_STATUS_TIME_CERTAIN : Fld := ⟨.CF_TL_STATUS, 30, 30⟩
def fCF_TL_STATUS_JOURNAL_FILL : Fld := ⟨.CF_TL_STATUS, 29, 23⟩
def fCF_TL_STATUS_FREE_MIN : Fld := ⟨.CF_TL_STATUS, 22, 17⟩
def fCF_TL_STATUS_LUN_COLLECTING : Fld := ⟨.CF_TL_STATUS, 16, 11⟩
def fCF_TL_STATUS_STAGE_KIB : Fld := ⟨.CF_TL_STATUS, 10, 0⟩
def fTN_QUOTA_LIMIT_LIMIT : Fld := ⟨.TN_QUOTA_LIMIT, 39, 0⟩
def fTN_QUOTA_USED_USED : Fld := ⟨.TN_QUOTA_USED, 39, 0⟩
def fTN_TIER_CFG_POOL_MIB : Fld := ⟨.TN_TIER_CFG, 31, 12⟩
def fTN_TIER_CFG_HEAT_HALF_S : Fld := ⟨.TN_TIER_CFG, 11, 4⟩
def fTN_RG_V : Fld := ⟨.TN_RG, 63, 63⟩
def fTN_RG_STATE : Fld := ⟨.TN_RG, 62, 61⟩
def fTN_RG_TENANT : Fld := ⟨.TN_RG, 60, 53⟩
def fTN_RG_CONN : Fld := ⟨.TN_RG, 52, 40⟩
def fTN_RG_REGION : Fld := ⟨.TN_RG, 39, 24⟩
def fTN_RG_SIZE : Fld := ⟨.TN_RG, 23, 0⟩
def fTN_DL_CFG_RETURN_MARGIN_US : Fld := ⟨.TN_DL_CFG, 9, 0⟩
def fHQ_CTX_BIND_V : Fld := ⟨.HQ_CTX_BIND, 63, 63⟩
def fHQ_CTX_BIND_PORT : Fld := ⟨.HQ_CTX_BIND, 62, 62⟩
def fHQ_CTX_BIND_FUNC : Fld := ⟨.HQ_CTX_BIND, 61, 55⟩
def fHQ_CTX_BIND_TENANT : Fld := ⟨.HQ_CTX_BIND, 54, 47⟩
def fHQ_CTX_BIND_PN : Fld := ⟨.HQ_CTX_BIND, 46, 41⟩
def fHQ_CTX_BIND_CG : Fld := ⟨.HQ_CTX_BIND, 40, 37⟩
def fHQ_CTX_BIND_GROUP_EP : Fld := ⟨.HQ_CTX_BIND, 36, 36⟩
def fHQ_CTX_BIND_FABRIC : Fld := ⟨.HQ_CTX_BIND, 35, 35⟩
def fHQ_CTX_BIND_CONN : Fld := ⟨.HQ_CTX_BIND, 34, 22⟩
def fHQ_SQ_DB_TAIL : Fld := ⟨.HQ_SQ_DB, 15, 0⟩
def fHQ_CQ_DB_HEAD : Fld := ⟨.HQ_CQ_DB, 15, 0⟩
def fHQ_CTX_CTL_OPEN : Fld := ⟨.HQ_CTX_CTL, 31, 31⟩
def fHQ_CTX_CTL_SQ_SZ : Fld := ⟨.HQ_CTX_CTL, 30, 27⟩
def fHQ_CTX_CTL_CQ_SZ : Fld := ⟨.HQ_CTX_CTL, 26, 23⟩
def fHQ_CTX_CTL_IRQ_EN : Fld := ⟨.HQ_CTX_CTL, 22, 22⟩
def fHQ_CTX_CTL_VECTOR : Fld := ⟨.HQ_CTX_CTL, 21, 14⟩
def fHQ_CTX_CTL_COAL_COUNT : Fld := ⟨.HQ_CTX_CTL, 13, 7⟩
def fHQ_CTX_CTL_COAL_US8 : Fld := ⟨.HQ_CTX_CTL, 6, 0⟩
def fHQ_CTX_STATUS_STATE : Fld := ⟨.HQ_CTX_STATUS, 31, 30⟩
def fHQ_CTX_STATUS_IN_FLIGHT : Fld := ⟨.HQ_CTX_STATUS, 29, 14⟩
def fHQ_SQ_BASE_BASE : Fld := ⟨.HQ_SQ_BASE, 63, 12⟩
def fHQ_CQ_BASE_BASE : Fld := ⟨.HQ_CQ_BASE, 63, 12⟩
def fHQ_CG_CTL_HANDOVER_EN : Fld := ⟨.HQ_CG_CTL, 31, 31⟩
def fHQ_CG_CTL_ACTIVE_PORT : Fld := ⟨.HQ_CG_CTL, 30, 30⟩
def fHQ_CG_CTL_CMD : Fld := ⟨.HQ_CG_CTL, 29, 28⟩
def fHQ_CG_CTL_STATE : Fld := ⟨.HQ_CG_CTL, 27, 26⟩
def fHQ_CG_CTL_NEW_FUNC : Fld := ⟨.HQ_CG_CTL, 25, 19⟩
def fHQ_GRP_CTL_EN : Fld := ⟨.HQ_GRP_CTL, 31, 31⟩
def fHQ_GRP_CTL_SELF : Fld := ⟨.HQ_GRP_CTL, 30, 25⟩
def fHQ_GRP_CTL_GROUP_MARGIN_US : Fld := ⟨.HQ_GRP_CTL, 24, 15⟩
def fHQ_GRP_MEMBER_V : Fld := ⟨.HQ_GRP_MEMBER, 31, 31⟩
def fHQ_GRP_MEMBER_CONN : Fld := ⟨.HQ_GRP_MEMBER, 12, 0⟩
def fXT_CONN_CFG_STATE : Fld := ⟨.XT_CONN_CFG, 63, 62⟩
def fXT_CONN_CFG_CMD : Fld := ⟨.XT_CONN_CFG, 61, 60⟩
def fXT_CONN_CFG_PD : Fld := ⟨.XT_CONN_CFG, 59, 50⟩
def fXT_CONN_CFG_MP : Fld := ⟨.XT_CONN_CFG, 49, 49⟩
def fXT_CONN_CFG_PATHS_M1 : Fld := ⟨.XT_CONN_CFG, 48, 45⟩
def fXT_CONN_CFG_CC_MODE : Fld := ⟨.XT_CONN_CFG, 44, 44⟩
def fXT_CONN_CFG_TC : Fld := ⟨.XT_CONN_CFG, 43, 42⟩
def fXT_CONN_CFG_X_DIE : Fld := ⟨.XT_CONN_CFG, 41, 41⟩
def fXT_CONN_CFG_PORT : Fld := ⟨.XT_CONN_CFG, 40, 39⟩
def fXT_CONN_CFG_PEER_CONN : Fld := ⟨.XT_CONN_CFG, 37, 25⟩
def fXT_CONN_CFG_ADDR_IDX : Fld := ⟨.XT_CONN_CFG, 24, 15⟩
def fXT_CONN_CFG_INC : Fld := ⟨.XT_CONN_CFG, 14, 7⟩
def fXT_CONN_CC_WINDOW : Fld := ⟨.XT_CONN_CC, 63, 52⟩
def fXT_CONN_CC_TARGET_100NS : Fld := ⟨.XT_CONN_CC, 51, 40⟩
def fXT_CONN_CC_RATE : Fld := ⟨.XT_CONN_CC, 39, 28⟩
def fXT_CONN_CC_SRTT_10NS : Fld := ⟨.XT_CONN_CC, 27, 12⟩
def fXT_CONN_CC_BASE_100NS : Fld := ⟨.XT_CONN_CC, 11, 0⟩
def fXT_CONN_STATUS_LAST_STATUS : Fld := ⟨.XT_CONN_STATUS, 63, 56⟩
def fXT_CONN_STATUS_ERR_CAUSE : Fld := ⟨.XT_CONN_STATUS, 55, 52⟩
def fXT_CONN_STATUS_OUTSTANDING : Fld := ⟨.XT_CONN_STATUS, 51, 35⟩
def fXT_ADDR_MAC_V : Fld := ⟨.XT_ADDR_MAC, 63, 63⟩
def fXT_ADDR_MAC_IPV6 : Fld := ⟨.XT_ADDR_MAC, 62, 62⟩
def fXT_ADDR_MAC_MAC : Fld := ⟨.XT_ADDR_MAC, 47, 0⟩
def fXT_ADDR_IP_LO_IP_LO : Fld := ⟨.XT_ADDR_IP_LO, 63, 0⟩
def fXT_ADDR_IP_HI_IP_HI : Fld := ⟨.XT_ADDR_IP_HI, 63, 0⟩
def fXT_RGN_BASE_DIE : Fld := ⟨.XT_RGN_BASE, 42, 40⟩
def fXT_RGN_BASE_ADDR : Fld := ⟨.XT_RGN_BASE, 39, 12⟩
def fXT_RGN_CTL_STATE : Fld := ⟨.XT_RGN_CTL, 63, 62⟩
def fXT_RGN_CTL_CMD : Fld := ⟨.XT_RGN_CTL, 61, 60⟩
def fXT_RGN_CTL_PD : Fld := ⟨.XT_RGN_CTL, 59, 50⟩
def fXT_RGN_CTL_RD : Fld := ⟨.XT_RGN_CTL, 49, 49⟩
def fXT_RGN_CTL_WR : Fld := ⟨.XT_RGN_CTL, 48, 48⟩
def fXT_RGN_CTL_KEY_REQ : Fld := ⟨.XT_RGN_CTL, 46, 46⟩
def fXT_RGN_CTL_KEY : Fld := ⟨.XT_RGN_CTL, 45, 38⟩
def fXT_RGN_CTL_REVOKE_SYNC : Fld := ⟨.XT_RGN_CTL, 37, 24⟩
def fXT_RGN_CTL_SIZE_4K : Fld := ⟨.XT_RGN_CTL, 23, 0⟩
def fXT_RR_POOL_BASE : Fld := ⟨.XT_RR_POOL, 31, 16⟩
def fXT_RR_POOL_COUNT : Fld := ⟨.XT_RR_POOL, 15, 4⟩
def fSY_VAL_VALUE : Fld := ⟨.SY_VAL, 63, 0⟩
def fSY_ADD_ADD : Fld := ⟨.SY_ADD, 63, 0⟩
def fSY_CFG_REMOTE : Fld := ⟨.SY_CFG, 31, 31⟩
def fSY_CFG_PD : Fld := ⟨.SY_CFG, 30, 21⟩
def fXT_TWR_CTL_STATE : Fld := ⟨.XT_TWR_CTL, 31, 30⟩
def fXT_TWR_CTL_CMD : Fld := ⟨.XT_TWR_CTL, 29, 28⟩
def fXT_CFG_UDP_PORT : Fld := ⟨.XT_CFG, 31, 16⟩
def fXT_CFG_MTU : Fld := ⟨.XT_CFG, 15, 14⟩
def fXT_CFG_BREAKOUT : Fld := ⟨.XT_CFG, 13, 13⟩
def fXT_CFG_KA_MS : Fld := ⟨.XT_CFG, 12, 5⟩
def fXT_REL_CFG_RTO_US : Fld := ⟨.XT_REL_CFG, 31, 20⟩
def fXT_REL_CFG_RETRY_MAX : Fld := ⟨.XT_REL_CFG, 19, 17⟩
def fXT_REL_CFG_ACK_EVERY : Fld := ⟨.XT_REL_CFG, 16, 9⟩
def fXT_REL_CFG_BUSY_US : Fld := ⟨.XT_REL_CFG, 8, 0⟩
def fXT_TC_MAP_PCP0 : Fld := ⟨.XT_TC_MAP, 31, 29⟩
def fXT_TC_MAP_DSCP0 : Fld := ⟨.XT_TC_MAP, 28, 23⟩
def fXT_TC_MAP_PCP1 : Fld := ⟨.XT_TC_MAP, 22, 20⟩
def fXT_TC_MAP_DSCP1 : Fld := ⟨.XT_TC_MAP, 19, 14⟩
def fXT_TC_MAP_PCP2 : Fld := ⟨.XT_TC_MAP, 13, 11⟩
def fXT_TC_MAP_DSCP2 : Fld := ⟨.XT_TC_MAP, 10, 5⟩
def fPL_PD_TENANT_V : Fld := ⟨.PL_PD_TENANT, 31, 31⟩
def fPL_PD_TENANT_TENANT : Fld := ⟨.PL_PD_TENANT, 7, 0⟩
def fPL_CTX_COLOUR_YELLOW : Fld := ⟨.PL_CTX_COLOUR, 0, 0⟩
def fPL_POL_CTL_EN : Fld := ⟨.PL_POL_CTL, 31, 31⟩
def fPL_POL_CTL_MODE : Fld := ⟨.PL_POL_CTL, 30, 29⟩
def fPL_POL_CTL_AWARE : Fld := ⟨.PL_POL_CTL, 28, 28⟩
def fPL_POL_CTL_TOK_FULL : Fld := ⟨.PL_POL_CTL, 27, 27⟩
def fPL_POL_CIR_CIR : Fld := ⟨.PL_POL_CIR, 35, 0⟩
def fPL_POL_PIR_PIR : Fld := ⟨.PL_POL_PIR, 35, 0⟩
def fPL_POL_BURST_SIZE_B : Fld := ⟨.PL_POL_BURST, 63, 32⟩
def fPL_POL_BURST_SIZE_A : Fld := ⟨.PL_POL_BURST, 31, 0⟩
def fPL_STRICT_CTL_EN : Fld := ⟨.PL_STRICT_CTL, 31, 31⟩
def fPL_STRICT_CTL_TOK_FULL : Fld := ⟨.PL_STRICT_CTL, 30, 30⟩
def fPL_STRICT_CTL_TENANT : Fld := ⟨.PL_STRICT_CTL, 7, 0⟩
def fPL_SHP_CTL_EN : Fld := ⟨.PL_SHP_CTL, 31, 31⟩
def fPL_SHP_CTL_TOK_FULL : Fld := ⟨.PL_SHP_CTL, 30, 30⟩
def fPL_SHP_CTL_OVERHEAD : Fld := ⟨.PL_SHP_CTL, 22, 16⟩
def fPL_SHP_RATE_RATE : Fld := ⟨.PL_SHP_RATE, 35, 0⟩
def fPL_SHP_SIZE_SIZE : Fld := ⟨.PL_SHP_SIZE, 31, 0⟩
def fTN_CMP_PART_V : Fld := ⟨.TN_CMP_PART, 63, 63⟩
def fTN_CMP_PART_TENANT : Fld := ⟨.TN_CMP_PART, 62, 55⟩
def fTN_CMP_PART_GRANT_MIB : Fld := ⟨.TN_CMP_PART, 54, 38⟩
def fTN_CMP_BAND_V : Fld := ⟨.TN_CMP_BAND, 31, 31⟩
def fTN_CMP_BAND_PN : Fld := ⟨.TN_CMP_BAND, 30, 25⟩
def fTN_CMP_CTL_COMMIT : Fld := ⟨.TN_CMP_CTL, 31, 31⟩
def fTN_CMP_CTL_STATE : Fld := ⟨.TN_CMP_CTL, 30, 29⟩
def fTN_CMP_CTL_REFUSE_CAUSE : Fld := ⟨.TN_CMP_CTL, 28, 26⟩
def fTN_CMP_CTL_AUTO_EPOCH_MS : Fld := ⟨.TN_CMP_CTL, 25, 10⟩
def fTN_CMP_EPOCH_EPOCH : Fld := ⟨.TN_CMP_EPOCH, 63, 32⟩
def fTN_CMP_EPOCH_APPLY_NS : Fld := ⟨.TN_CMP_EPOCH, 31, 0⟩
def fTN_ACC_SNAP_SNAP : Fld := ⟨.TN_ACC_SNAP, 31, 31⟩
def fTN_ACC_SNAP_SNAP_DONE : Fld := ⟨.TN_ACC_SNAP, 30, 30⟩
def fTN_ACC_SNAP_VIEW : Fld := ⟨.TN_ACC_SNAP, 29, 29⟩
def fTN_ACC_SNAP_TENANT : Fld := ⟨.TN_ACC_SNAP, 7, 0⟩
def fTN_LEASE_CFG_EN : Fld := ⟨.TN_LEASE_CFG, 63, 63⟩
def fTN_LEASE_CFG_REMOTE : Fld := ⟨.TN_LEASE_CFG, 62, 62⟩
def fTN_LEASE_CFG_POOL_MEMBER : Fld := ⟨.TN_LEASE_CFG, 61, 56⟩
def fTN_LEASE_CFG_POOL_CONN : Fld := ⟨.TN_LEASE_CFG, 55, 43⟩
def fTN_LEASE_CFG_POOL_REGION : Fld := ⟨.TN_LEASE_CFG, 42, 27⟩
def fEL_SEQ_NEXT : Fld := ⟨.EL_SEQ, 63, 32⟩
def fEL_SEQ_OLDEST : Fld := ⟨.EL_SEQ, 31, 0⟩
def fEL_CTL_IRQ_EN : Fld := ⟨.EL_CTL, 31, 31⟩
def fEL_CTL_PORT : Fld := ⟨.EL_CTL, 30, 30⟩
def fEL_CTL_VECTOR : Fld := ⟨.EL_CTL, 29, 22⟩
def fEL_CTL_MIN_CLASS : Fld := ⟨.EL_CTL, 21, 19⟩
def fHG_WIN_EN : Fld := ⟨.HG_WIN, 31, 31⟩
def fHG_WIN_WINDOW_US : Fld := ⟨.HG_WIN, 19, 0⟩
def fHG_CFG_REPLAY_SET : Fld := ⟨.HG_CFG, 31, 23⟩
def fDM_SURVIVE_KEEP_ERRORS : Fld := ⟨.DM_SURVIVE, 31, 31⟩
def fDM_SURVIVE_KEEP_DRAM : Fld := ⟨.DM_SURVIVE, 30, 30⟩
def fDM_CTL_DUMP : Fld := ⟨.DM_CTL, 31, 31⟩
def fDM_CTL_CLEAR : Fld := ⟨.DM_CTL, 30, 30⟩
def fDM_CTL_ON_RESET : Fld := ⟨.DM_CTL, 29, 29⟩
def fDM_CTL_ON_DIE : Fld := ⟨.DM_CTL, 28, 28⟩
def fDM_CTL_OVERWRITE : Fld := ⟨.DM_CTL, 27, 27⟩
def fDM_CTL_LIMIT_MS : Fld := ⟨.DM_CTL, 26, 16⟩
def fDM_CTL_STATE : Fld := ⟨.DM_CTL, 15, 14⟩
def fDM_INFO_BYTES : Fld := ⟨.DM_INFO, 63, 32⟩
def fDM_INFO_ENTRIES : Fld := ⟨.DM_INFO, 31, 16⟩
def fDM_INFO_MARKERS : Fld := ⟨.DM_INFO, 15, 0⟩
def fBD_SVC_STATE : Fld := ⟨.BD_SVC, 31, 29⟩
def fBD_SVC_CAUSE : Fld := ⟨.BD_SVC, 28, 26⟩
def fBD_SVC_CMD : Fld := ⟨.BD_SVC, 25, 24⟩
def fBD_SVC_SHADOW_DONE : Fld := ⟨.BD_SVC, 23, 12⟩
def fXT_LANE_SVC_STATE : Fld := ⟨.XT_LANE_SVC, 31, 29⟩
def fXT_LANE_SVC_CAUSE : Fld := ⟨.XT_LANE_SVC, 28, 26⟩
def fXT_LANE_SVC_CMD : Fld := ⟨.XT_LANE_SVC, 25, 24⟩
def fXT_LANE_SVC_SHADOW_DONE : Fld := ⟨.XT_LANE_SVC, 23, 12⟩
def fHG_CORE_SVC_STATE : Fld := ⟨.HG_CORE_SVC, 31, 29⟩
def fHG_CORE_SVC_CAUSE : Fld := ⟨.HG_CORE_SVC, 28, 26⟩
def fHG_CORE_SVC_CMD : Fld := ⟨.HG_CORE_SVC, 25, 24⟩
def fHG_CORE_SVC_SHADOW_DONE : Fld := ⟨.HG_CORE_SVC, 23, 12⟩
def fHQ_START_STATUS_MODE : Fld := ⟨.HQ_START_STATUS, 63, 62⟩
def fHQ_START_STATUS_STEP : Fld := ⟨.HQ_START_STATUS, 61, 58⟩
def fHQ_START_STATUS_SET_RUN : Fld := ⟨.HQ_START_STATUS, 57, 57⟩
def fHQ_START_STATUS_KEY_OK : Fld := ⟨.HQ_START_STATUS, 56, 56⟩
def fHQ_START_STATUS_LAST_REASON : Fld := ⟨.HQ_START_STATUS, 55, 48⟩
def fHQ_START_STATUS_FAILS : Fld := ⟨.HQ_START_STATUS, 47, 40⟩
def fHQ_START_STATUS_SEC_VERSION : Fld := ⟨.HQ_START_STATUS, 39, 24⟩
def fHQ_START_STATUS_SEC_FLOOR : Fld := ⟨.HQ_START_STATUS, 23, 8⟩
def fHQ_MB_CTL_GO : Fld := ⟨.HQ_MB_CTL, 31, 31⟩
def fHQ_MB_CTL_BUSY : Fld := ⟨.HQ_MB_CTL, 30, 30⟩
def fHQ_MB_CTL_DONE : Fld := ⟨.HQ_MB_CTL, 29, 29⟩
def fHQ_MB_CTL_IRQ_EN : Fld := ⟨.HQ_MB_CTL, 28, 28⟩
def fHQ_MB_CTL_VECTOR : Fld := ⟨.HQ_MB_CTL, 27, 20⟩
def fBD_THR_LEVEL : Fld := ⟨.BD_THR, 31, 28⟩
def fBD_THR_LEVEL_MAX : Fld := ⟨.BD_THR, 27, 24⟩
def fBD_THR_POWER_LEVEL : Fld := ⟨.BD_THR, 23, 20⟩
def fBD_THR_THERMAL_CAP : Fld := ⟨.BD_THR, 19, 16⟩
def fBD_THR_GATED : Fld := ⟨.BD_THR, 15, 15⟩
def fGE_SNAP_SNAP : Fld := ⟨.GE_SNAP, 31, 31⟩
def fGE_SNAP_SNAP_DONE : Fld := ⟨.GE_SNAP, 30, 30⟩
def fGE_SNAP_VIEW : Fld := ⟨.GE_SNAP, 29, 29⟩
def fCF_SNAP_SNAP : Fld := ⟨.CF_SNAP, 31, 31⟩
def fCF_SNAP_SNAP_DONE : Fld := ⟨.CF_SNAP, 30, 30⟩
def fCF_SNAP_VIEW : Fld := ⟨.CF_SNAP, 29, 29⟩
def fXT_SNAP_SNAP : Fld := ⟨.XT_SNAP, 31, 31⟩
def fXT_SNAP_SNAP_DONE : Fld := ⟨.XT_SNAP, 30, 30⟩
def fXT_SNAP_VIEW : Fld := ⟨.XT_SNAP, 29, 29⟩
def fTN_PART_V : Fld := ⟨.TN_PART, 63, 63⟩
def fTN_PART_TENANT : Fld := ⟨.TN_PART, 62, 55⟩
def fTN_PART_GRANT_MIB : Fld := ⟨.TN_PART, 54, 38⟩
def fTN_BAND_V : Fld := ⟨.TN_BAND, 31, 31⟩
def fTN_BAND_PN : Fld := ⟨.TN_BAND, 30, 25⟩
def fXT_PORT_MAC_V : Fld := ⟨.XT_PORT_MAC, 63, 63⟩
def fXT_PORT_MAC_IPV6 : Fld := ⟨.XT_PORT_MAC, 62, 62⟩
def fXT_PORT_MAC_MAC : Fld := ⟨.XT_PORT_MAC, 47, 0⟩
def fXT_PORT_IP_LO_IP_LO : Fld := ⟨.XT_PORT_IP_LO, 63, 0⟩
def fXT_PORT_IP_HI_IP_HI : Fld := ⟨.XT_PORT_IP_HI, 63, 0⟩
def fXT_PORT_VLAN_VID : Fld := ⟨.XT_PORT_VLAN, 11, 0⟩
def fPL_STRICT_RATE_RATE : Fld := ⟨.PL_STRICT_RATE, 35, 0⟩
def fPL_STRICT_SIZE_SIZE : Fld := ⟨.PL_STRICT_SIZE, 31, 0⟩
def fTN_POOL_CTL_EN : Fld := ⟨.TN_POOL_CTL, 31, 31⟩
def fPJ_DSCALE_S1 : Fld := ⟨.PJ_DSCALE, 31, 16⟩
def fPJ_DSCALE_S0 : Fld := ⟨.PJ_DSCALE, 15, 0⟩
def fPJ_ZP_Z3 : Fld := ⟨.PJ_ZP, 31, 24⟩
def fPJ_ZP_Z2 : Fld := ⟨.PJ_ZP, 23, 16⟩
def fPJ_ZP_Z1 : Fld := ⟨.PJ_ZP, 15, 8⟩
def fPJ_ZP_Z0 : Fld := ⟨.PJ_ZP, 7, 0⟩
def fCF_ZP_Z3 : Fld := ⟨.CF_ZP, 31, 24⟩
def fCF_ZP_Z2 : Fld := ⟨.CF_ZP, 23, 16⟩
def fCF_ZP_Z1 : Fld := ⟨.CF_ZP, 15, 8⟩
def fCF_ZP_Z0 : Fld := ⟨.CF_ZP, 7, 0⟩

end Sys2Proof
end

