-- ==== Sys2Proof/Machine/State.lean ====
section
/-! DEFINITION. The state of the device as plain data. Registers and counters of the register maps live in `regs`,
keyed by name and index, each reading as its reset value until it is written; what the spec gives the machine beside
its registers is held by the structures below, one group for each chapter. -/

namespace Sys2Proof.Machine

/-! ### Host interface (12) -/

/-- A command that has been fetched and whose completion is not yet written (R243, R246). `seq` numbers the fetches
of the device and names the job. -/
structure Cmd where
  seq : Nat
  bytes : List Byte
  fetchTime : Nat := 0
  /-- device time of admission, once admitted (R252) -/
  admitted : Option Nat := none
  /-- a CANCEL has marked it before its admission (R256) -/
  cancelled : Bool := false
  /-- coloured yellow by the command policer (R297) -/
  yellow : Bool := false
  /-- the query block that a sub-query carries inline (R260) -/
  inlined : List Byte := []
  /-- fabric connection it came on, when its context is a fabric context (R261) -/
  conn : Option Nat := none
  /-- job key of a group command (R333) -/
  jobKey : Option W64 := none
  replayed : Bool := false
  /-- the error record that explains its end, when a fault ends it (R252) -/
  errSeq : Nat := 0
  /-- it has waited for space in the retire queue, and is counted (R163) -/
  waited : Bool := false
  /-- it has passed the policer and waits at admission (R100, R163, R224) -/
  policed : Bool := false
  deriving DecidableEq, Repr

/-- A completed command whose completion entry the host has not acknowledged (R243, R258). -/
structure DoneCmd where
  seq : Nat
  opcode : Nat
  commandId : Nat
  status : Nat
  flags : Nat := 0
  info : Nat := 0
  admitTime : Nat := 0
  errSeq : Nat := 0
  /-- slots it created or copied: index key, slot reference (R258, R259) -/
  slots : List (Nat × Nat) := []
  deriving DecidableEq, Repr

/-- One host context (R240 to R244, R257). Its registers are in `regs`. -/
structure Ctx where
  sqHead : Nat := 0
  sqTail : Nat := 0
  cqHead : Nat := 0
  cqTail : Nat := 0
  phase : Bool := true
  /-- the context key of R125 -/
  key : BitVec 32 := 0
  cmds : List Cmd := []
  done : List DoneCmd := []
  /-- completions written since the last MSI-X message, and the time of the first (R244) -/
  irqCount : Nat := 0
  irqFirst : Nat := 0
  /-- fate completions still to be written on opening after a handover, and the marker's old head (R257, R258) -/
  fates : List DoneCmd := []
  marker : Option Nat := none
  /-- set while nothing may be written through the port for the context (R241, R257, R398) -/
  silent : Bool := false
  /-- since when fetching has been held by a full completion ring (R243) -/
  heldSince : Option Nat := none
  deriving DecidableEq, Repr

/-- What leaves the device for the outside: interrupts, error reports, packets and answers, oldest first. -/
inductive OutMsg where
  | msix (port func vector : Nat)
  | aer (port : Nat) (addr : Nat)
  /-- a Stoez packet, and its frame as bytes, from destination address to ICRC (R266) -/
  | packet (die port : Nat) (p : Pkt) (frame : List Byte)
  /-- a Nirrex response: on MCTP the port and the message body, on the management port the address and port it is sent to and
  the datagram (R360, R373, R374) -/
  | nirrex (path : Nat) (dest : Nat × Nat) (bytes : List Byte)
  | mctp (port : Nat) (kind : Nat) (data : List Byte)
  | arpReply (ip : Nat) (mac : List Byte) (peerIp peerMac : Nat)
  | neighbourAdvert (target : Nat) (mac : List Byte) (peer : Nat)
  | tdo (value : Nat)
  | tdoPins (mode : Nat)
  | provisioned (key : List Byte)
  deriving DecidableEq, Repr

/-! ### Indexes (02, 05, 08, 11) -/

/-- One block of a list: its header fields (R38) and the code words of its slots (R35, R36). -/
structure Block where
  seq : Nat
  ordBase : Nat
  /-- slots allocated, those of them not yet written, and FILL: the slots below it are all written (R41) -/
  taken : Nat := 0
  unwritten : List Nat := []
  fill : Nat := 0
  stdSummary : BitVec 16 := 0
  codeAddr : Nat := 0
  hdrGen : Nat := 0
  sealed : Bool := false
  hasAlias : Bool := false
  codes : Tbl Code := []
  /-- lower copy: its CODE_ADDR, and whether it is as new as the block (R222, R223) -/
  low : Option Nat := none
  lowFresh : Bool := false
  deriving DecidableEq, Repr

/-- One inverted list: directory entry (R44), residency record (R222) and blocks. -/
structure IList where
  die : Nat
  hdrAddr : Nat := 0
  hdrCapLog2 : Nat := 0
  blocks : List Block := []
  appendClosed : Bool := false
  residency : Nat := 0
  holder : Nat := 0
  holds : Nat := 0
  heat : Nat := 0
  demand : Bool := false
  pinned : Bool := false
  lowTier : Nat := 0
  lowTable : Nat := 0
  /-- DRAM of the lower-tier block table, in 4 KiB units -/
  lowTabUnits : Nat := 0
  rstate : Nat := 0
  /-- grant named by a DEMOTE to the remote tier, and the commands waiting for the transition: context and seq (R224) -/
  lowGrant : Nat := 0
  movers : List (Nat × Nat) := []
  /-- work requests that carry its blocks to or from a grant: block and request (R223, R230) -/
  wrs : List (Nat × Nat) := []
  /-- the only lower copy lies in a failed grant (R230) -/
  lost : Bool := false
  deriving DecidableEq, Repr

/-- Where a crown die holds the objects of a version: the addresses of its version record, and that of its part of the
forward map (02, R169). -/
structure DieRec where
  placeBase : Nat := 0
  dirBase : Nat := 0
  idmapBase : Nat := 0
  sidecarBase : Nat := 0
  tombBase : Nat := 0
  aliasBase : Nat := 0
  stdBase : Tbl Nat := []
  fwdBase : Nat := 0
  deriving DecidableEq, Repr

/-- One version of an index (R47 to R50, R409): version record, centroids, placement, lists and per-slot arrays. -/
structure Version where
  holds : Bool := false
  owner : Nat := 0
  centBase : Nat := 0
  cents : List Code := []
  place : List Nat := []
  /-- the version records' addresses, by die -/
  recs : Tbl DieRec := []
  /-- first ordinal of each die, one past the last, and the next untaken one (R48, R160) -/
  ordLo : List Nat := []
  ordHi : List Nat := []
  ordNext : List Nat := []
  lists : Tbl IList := []
  idMap : Tbl W64 := []
  sidecar : Tbl W64 := []
  tomb : List Nat := []
  aliasOrds : List Nat := []
  /-- standing-bitmap bits of a slot, one bit for each bitmap -/
  std : Tbl (BitVec 16) := []
  stdMask : BitVec 16 := 0
  /-- the successor's version slot and its REASSIGN (R169) -/
  succ : Option Nat := none
  reassign : Bool := false
  /-- forward map: word 0 (slot reference in the successor) and word 1 (canonical ordinal there) -/
  fwdSlot : Tbl Nat := []
  fwdCanon : Tbl Nat := []
  /-- prefetch schedule and the next entry to promote (R228) -/
  schedule : List (Nat × Bool) := []
  schedPos : Nat := 0
  /-- DRAM charged to the owner for the version, in 4 KiB units (R48), and the part of it that is header arrays which a
  task may still be reading, by die (R44) -/
  charged : Nat := 0
  oldHdrs : Tbl Nat := []
  /-- flash sectors charged to its owner for its re-rank records: channel and LSN (R407) -/
  sectors : List (Nat × Nat) := []
  retireCmd : Option Nat := none
  deriving DecidableEq, Repr

/-- A slot on the retire queue (R163, R165): its version (4n + v), slot reference, and visibility point. -/
structure Retired where
  ver : Nat
  ref : Nat
  vis : Nat
  /-- queries that captured the version before the visibility point and had not completed at it -/
  waits : List Nat := []
  /-- counted late under R165 -/
  late : Bool := false
  deriving DecidableEq, Repr

/-- One new slot of an update command on its way through R41. -/
structure NewSlot where
  ver : Nat
  entry : Nat
  cluster : Nat
  ord : Nat
  seq : Nat
  slot : Nat
  canon : Nat
  isAlias : Bool
  extId : W64
  std : BitVec 16
  code : Code
  record : List Byte
  /-- sidecar value once the flash record is durable, or when the format has no record (R46) -/
  durable : Bool
  sidecar : W64
  written : Bool
  deriving DecidableEq, Repr

/-- An update command in progress (R159 to R168). -/
structure UpdJob where
  seq : Nat
  ctx : Nat
  ver : Nat
  opcode : Nat
  count : Nat
  slots : List NewSlot := []
  /-- retired slots it will queue at its visibility point (R163) -/
  retire : List Nat := []
  records : List (Nat × Nat) := []
  /-- flash units reserved at admission and not yet taken by an open sector, by tenant (R159) -/
  reserved : Tbl Nat := []
  deriving DecidableEq, Repr

/-! ### Queries (01, 03, 04, 05, 06, 12) -/

/-- A row element (R73). -/
structure Elem where
  score : BitVec 32
  canon : Nat
  order : Nat
  rank : Nat
  deriving DecidableEq, Repr

/-- The stage a query is in: `lease` while its group command waits for a lease (R314). -/
inductive QStage where
  | lease | encode | probe | scan | flush | homeReady | flash | fp16 | done
  deriving DecidableEq, Repr

/-- One candidate of a re-rank stage (R84, R147, R180): 0 outstanding, 1 scored, 2 excluded, 3 in a degraded read. -/
structure Cand where
  elem : Elem
  sidecar : W64 := 0
  st : Nat := 0
  score : BitVec 32 := 0
  rebuilt : Bool := false
  row : Nat := 0
  /-- partial sums received, by slice (R123) -/
  parts : Tbl (BitVec 32) := []
  deriving DecidableEq, Repr

/-- A search, from its admission to its completion; also a shadow (R109) and a sub-query (R261). -/
structure Query where
  ctx : Nat
  commandId : Nat
  tenant : Nat := 0
  pn : Nat := 0
  index : Nat := 0
  vslot : Nat := 0
  version : Nat := 0
  bits : Nat := 256
  k : Nat := 1
  ks : Nat := 1
  rr : Nat := 1
  nProbe : Nat := 1
  ceil : Nat := 0
  wstep : Nat := 1
  filter : BitVec 64 := 0
  /-- block of tags that its candidate requests carry (R233) -/
  tagBlock : Nat := 0
  /-- bits of a per-query bitmap, as the ordinals it allows: runs [lo, hi) (R98) -/
  qbm : List (Nat × Nat) := []
  /-- the container's words as they are copied to every crown die, its position index, and what a copy takes of a die, in
  4 KiB units (R100) -/
  qbmWords : List Nat := []
  qbmIndex : List Nat := []
  qbmUnits : Nat := 0
  flashStage : Bool := false
  fp16Stage : Bool := false
  f : Nat := 0
  tbl : Nat := 0
  tblVslot : Nat := 0
  tblVersion : Nat := 0
  tAdmit : Nat := 0
  tFetch : Nat := 0
  tSd : Option Nat := none
  tRr : Option Nat := none
  /-- T_sd and T_rr were brought forward by CANCEL, not by the budget (R235, R256) -/
  cancelCut : Bool := false
  home : Nat := 0
  stage : QStage := .probe
  inProbe : Bool := true
  code : Code := 0
  x : List Byte := []
  u : BitVec 16 := 0
  fp16 : List (BitVec 16) := []
  /-- clusters by probe rank (R71) -/
  ranks : List Nat := []
  pCur : Nat := 0
  /-- ranks posted and not yet reported -/
  outstanding : List Nat := []
  reported : Nat := 0
  allowed : Nat := 0
  skipped : Nat := 0
  notScanned : Nat := 0
  flags : BitVec 16 := 0
  /-- merge rows, by die, what of each is reduced already, and the dies whose flush is awaited (R81, R84) -/
  dieRows : Tbl (List Elem) := []
  dieReduced : Tbl Nat := []
  flushing : List Nat := []
  dieLists : Tbl (List Elem) := []
  homeList : List Elem := []
  cands : List Cand := []
  /-- ORDER_KEYs of the candidates scored from rebuilt sectors (R122) -/
  rebuilt : List Nat := []
  /-- canonical ordinals whose ID-map entries are uncorrectable (R221) -/
  badIds : List Nat := []
  /-- channel mask captured by the stage (R191) -/
  mask : BitVec 32 := 0
  region : Option Nat := none
  /-- other slices asked for, the requests' work requests, and the sync object with its value before them (R147, R149) -/
  reqSlices : List Nat := []
  reqWrs : List Nat := []
  sync : Nat := 0
  syncBase : W64 := 0
  lastLaunch : Option Nat := none
  isShadow : Bool := false
  /-- shadow: the live query's external IDs and log header fields (R111) -/
  live : List Byte := []
  liveCount : Nat := 0
  liveAdmit : Nat := 0
  liveFlags : BitVec 16 := 0
  liveLists : Nat := 0
  sampled : Bool := false
  nextPost : Nat := 0
  conn : Option Nat := none
  jobKey : Option W64 := none
  yellow : Bool := false
  errSeq : Nat := 0
  /-- context key under which it is encoded, fetch position of its group command on a head, and whether the answer goes to
  the head's own merge (R125, R260) -/
  key : BitVec 32 := 0
  group : Option Nat := none
  /-- the descriptor -/
  bytes : List Byte := []
  /-- a widening step has been posted -/
  widened : Bool := false
  deriving DecidableEq, Repr

/-- A (query, list) pair waiting in a gathering queue (R63, R64). -/
structure Pair where
  q : Nat
  rank : Nat
  tPost : Nat
  lb : Nat
  /-- T_sd − L_est is the lesser term of LB, or equal (R64) -/
  byDeadline : Bool
  filter : BitVec 64
  shadow : Bool := false
  deriving DecidableEq, Repr

/-- The trigger under which a launch counts (R64). -/
inductive Trig where
  | fill | deadline | window | pressure
  deriving DecidableEq, Repr

/-- A gathering queue on its list die (R63 to R66). -/
structure GQueue where
  die : Nat
  key : GKey
  pairs : List Pair := []
  /-- tasks returned by a checkpoint, ahead of the pairs -/
  resumable : List Nat := []
  trig : Option Trig := none
  trigTime : Nat := 0
  deriving DecidableEq, Repr

/-- A pair held on its home die by a full pool (R66). -/
structure Held where
  q : Nat
  rank : Nat
  die : Nat
  key : GKey
  deriving DecidableEq, Repr

/-- One lane of a list task (R54 to R56). -/
structure Lane where
  q : Nat
  rank : Nat
  cls : Nat
  tau : Nat
  active : Bool := true
  row : List Elem := []
  allowed : Nat := 0
  queued : Bool := false
  queuedAt : Nat := 0
  deriving DecidableEq, Repr

/-- The state of a walker context (03, walker context states). -/
inductive WState where
  | loading | running | draining | checkpointed
  deriving DecidableEq, Repr

/-- A list task in a walker context, or resumable in its queue on no band (R59, R65, R68, R408). -/
structure Task where
  id : Nat
  band : Nat
  die : Nat
  key : GKey
  st : WState := .loading
  order : Nat := 0
  nextSeq : Nat := 0
  blockCount : Nat := 0
  /-- filter classes: the expression, and 1 above the query that a class belongs to alone, or 0 (R97) -/
  classes : List (BitVec 64 × Nat) := []
  lanes : List Lane := []
  /-- decode position in the container of each class that has one: 65,536-ordinal range, and element (R100) -/
  decode : Tbl (Nat × Nat) := []
  bound : Nat := 0
  replay : Bool := false
  /-- enabled cycles that its blocks have taken, by which the windows of R383 are counted -/
  ran : Nat := 0
  deriving DecidableEq, Repr

/-- A partial list on its way from a band to the die's merge unit (R83, R84). -/
structure Partial where
  die : Nat
  band : Nat
  q : Nat
  rank : Nat
  elems : List Elem
  deriving DecidableEq, Repr

/-- The probe unit of a crown die (R70, R71): waiting queries with the time each began to wait, and the pass. -/
structure ProbeUnit where
  waiting : List (Nat × Nat) := []
  pass : List Nat := []
  started : Nat := 0
  deriving DecidableEq, Repr

/-- A shadow-log entry (R111). -/
structure ShadowEntry where
  seq : Nat
  tAdmit : Nat
  tDone : Nat
  ctx : Nat
  commandId : Nat
  index : Nat
  status : Nat
  version : Nat
  k : Nat
  liveCount : Nat
  shadowCount : Nat
  overlap : Nat
  liveFlags : BitVec 16
  listsLive : Nat
  listsShadow : Nat
  liveRecs : List Byte
  shadowRecs : List Byte
  deriving DecidableEq, Repr

/-- Shadow sampling of a partition (R108 to R111). -/
structure Shadow where
  eligible : Nat := 0
  log : List ShadowEntry := []
  nextSeq : Nat := 0
  readUpTo : Nat := 0
  deriving DecidableEq, Repr

/-! ### Tables (07) -/

/-- A pinned row slice: row elements, then moments, as stored bytes (R137); a row never written is not present. -/
structure RowRec where
  bytes : List Byte
  present : Bool := true
  dirty : Bool := false
  deriving DecidableEq, Repr

/-- A waiting row access (R140, R151, R152): an optimiser step with its gradient and the parameters read at the batch's
admission. -/
structure RowAccess where
  cmd : Nat
  ctx : Nat
  tbl : Nat
  vslot : Nat
  row : Nat
  eta : BitVec 32
  b1 : BitVec 32
  b2 : BitVec 32
  eps : BitVec 32
  grad : List (BitVec 32)
  since : Nat
  /-- its sum lies in the heavy-hitter detector (R153) -/
  heavy : Bool := false
  /-- another access held its lock when it arrived -/
  waited : Bool := false
  deriving DecidableEq, Repr

/-- A table batch whose row accesses are in progress (R152, R155). -/
structure TblJob where
  seq : Nat
  ctx : Nat
  tbl : Nat
  vslot : Nat
  remaining : Nat
  stepped : Nat := 0
  commandId : Nat := 0
  deriving DecidableEq, Repr

/-- A hatpin swap between steps 2 and 7 of R145: the version it pinned, what leaves the set with the version it belongs
to, and the rows loaded. -/
structure Swap where
  seq : Nat
  ctx : Nat
  tbl : Nat
  vslot : Nat
  oldTbl : Nat
  oldVslot : Nat
  leaving : Tbl RowRec
  loaded : Nat
  deriving DecidableEq, Repr

/-- The hatpin set (R144 to R146): pinned rows by number, and the active index buffer. -/
structure Hatpin where
  rows : Tbl RowRec := []
  table : Nat := 0
  vslot : Nat := 0
  buffer : Nat := 0
  swap : Option Swap := none
  /-- DRAM charged for the set, in 4 KiB units, and the tenant charged -/
  charged : Nat := 0
  chargedTo : Nat := 0
  deriving DecidableEq, Repr

/-! ### Flash channels (09, 10) -/

/-- A candidate request (R179) with the home die and query it serves. -/
structure CandReq where
  q : Nat
  cand : Nat
  tenant : Nat
  pn : Nat := 0
  /-- the request as it is sent: SIDECAR, HOME_DIE, QSLOT, INDEX, VERSION_SLOT, TAG -/
  word : BitVec 128
  /-- copy sent as shadow traffic of a returning channel (R192) -/
  shadow : Bool := false
  deriving DecidableEq, Repr

/-- A message from a crown die to a cuff die in the REQ class (R178, R179). -/
inductive CuffMsg where
  | load (q qslot : Nat) (entry : List Byte)
  | req (r : CandReq)
  deriving DecidableEq, Repr

/-- A query-cache entry (R178). -/
structure QvEntry where
  q : Nat
  dims : Nat
  index : Nat
  vslot : Nat
  u : BitVec 16
  x : List Byte
  granules : Nat
  deriving DecidableEq, Repr

inductive CState where
  | queued | reading | decoding | linger
  deriving DecidableEq, Repr

/-- A scorer context (R181). -/
structure ScCtx where
  lsn : Nat
  st : CState := .queued
  joined : List CandReq := []
  opened : Nat := 0
  retries : Nat := 0
  level : Nat := 0
  soft : Bool := false
  lingerAt : Nat := 0
  /-- location it translated to, when the sector lies in a superblock -/
  loc : Option Nat := none
  /-- the sector as its one read gives it -/
  data : List Byte := []
  level0 : Nat := 0
  deriving DecidableEq, Repr

/-- A plane operation and its priority class (R182): the sector read of scorer context `num` (class 1), the program of
fold of unit `num` or of a collection copy of unit `num` (class 3), or a promotion's read of sector `num` (class 2 or 4). -/
structure PlaneOp where
  cls : Nat
  /-- 0 the read of context `num`, 1 or 2 a fold or a copy of unit `num`, 3 a promotion's read of sector `num` -/
  kind : Nat
  num : Nat
  /-- when it was issued, and whether reads of class 1 waited at the plane then (R182, R207) -/
  since : Nat := 0
  contended : Bool := false
  /-- the tenant that a read of a schedule promotion is charged to (R293) -/
  tenant : Nat := 0
  deriving DecidableEq, Repr

/-- The payload of a journal record (R198). -/
inductive JPay where
  | sector (lsn : Nat) (data : List Byte) (wseqX : Option (BitVec 32))
  | mirror (ch lsn off : Nat) (data : List Byte)
  | intent (e c : Nat)
  | close (e c : Nat)
  | fold (unit old new : Nat)
  | gcMove (unit old new : Nat)
  | blockOpen (sb time : Nat) (temp : Int)
  | erase (sb count : Nat)
  | retire (sb cause : Nat)
  | lost (lsn : Nat)
  | checkpoint (time replayFrom : Nat)
  | time (t : Nat)
  | clean (time : Nat)
  deriving DecidableEq, Repr

/-- A journal record (R197, R198). `staged` while it is only in the staging buffer. -/
structure JRec where
  jseq : Nat
  pay : JPay
  staged : Bool := true
  atTime : Nat := 0
  deriving DecidableEq, Repr

/-- A sector as a unit slot holds it: data, WSEQ of a parity sector (R189), and whether it was ever written. -/
structure Sect where
  data : List Byte
  wseqX : Option (BitVec 32) := none
  /-- WSEQ of a data sector (R176) -/
  wseq : Nat := 0
  deriving DecidableEq, Repr

/-- A superblock's block record (R210) and its unit slots. State: 0 free, 1 fold target, 2 collection target,
3 closed, 4 retired, 5 journal area, 6 map area. -/
structure SBlock where
  st : Nat := 0
  erases : Nat := 0
  openTime : Nat := 0
  openTemp : Int := 0
  hint : Nat := 0
  reads : Nat := 0
  thisStart : Bool := false
  /-- unit slot contents: page, unit, sectors by index in the unit -/
  slots : Tbl (Nat × Tbl Sect) := []
  nextPage : Nat := 0
  /-- superblocks that received a unit of it (R203) -/
  movedTo : List Nat := []
  deriving DecidableEq, Repr

/-- What the journal and the checkpoint keep of a superblock's block record (R198, R200, R210). -/
structure BlockRec where
  st : Nat := 0
  erases : Nat := 0
  openTime : Nat := 0
  openTemp : Int := 0
  deriving DecidableEq, Repr

/-- Plane time, in ns, that reads of class 1 and operations of class 3 have had while reads of class 1 were waiting
(R207). -/
structure PlaneUse where
  fg : Nat := 0
  bg : Nat := 0
  deriving DecidableEq, Repr

/-- A collection, wear-levelling or refresh move in progress (R203, R208, R212): 0 collection, 1 levelling, 2 refresh. -/
structure Collect where
  kind : Nat
  lun : Nat
  victim : Nat
  target : Option Nat := none
  /-- the copy whose program status is awaited: unit, source, destination -/
  pend : Option (Nat × Nat × Nat) := none
  deriving DecidableEq, Repr

/-- Health figures of a carrier (R213, R214). -/
structure Health where
  s0 : Nat := 0
  goodUnits : Nat := 0
  ratedPe : Nat := 0
  corrBits : Nat := 0
  readRetries : Nat := 0
  softDecodes : Nat := 0
  uncorr : Nat := 0
  progFail : Nat := 0
  eraseFail : Nat := 0
  retired : Nat := 0
  tempMax : Int := 0
  held : Nat := 0
  heldNow : Bool := false
  tempSecs : Tbl Nat := []
  deriving DecidableEq, Repr

/-- An open sector (R187): its list, the records appended, and the time of the first. -/
structure OpenSect where
  lsn : Nat
  ver : Nat
  cluster : Nat
  data : List Byte
  records : Nat
  first : Nat
  /-- channels whose journals hold the mirror copies of its records, in order -/
  mirrors : List Nat := []
  tenant : Nat
  /-- what the sector held when it was opened, which its parity still counts; none: never written -/
  old : Option (List Byte) := none
  /-- its commit is under way: it takes no further append -/
  closing : Bool := false
  deriving DecidableEq, Repr

/-- One flash channel with its cuff die (09, 10). -/
structure Chan where
  reqQ : List CandReq := []
  /-- since when the request queue has been full -/
  fullSince : Option Nat := none
  qcache : Tbl QvEntry := []
  ctxs : Tbl ScCtx := []
  planeQ : Tbl (List PlaneOp) := []
  planeBusy : Tbl PlaneOp := []
  openS : List OpenSect := []
  /-- messages from each crown die, in order (R20) -/
  inbox : Tbl (List CuffMsg) := []
  drainSince : Nat := 0
  shadowDone : Nat := 0
  /-- shadow traffic of a returning channel: score records of the live degraded path and of the channel, by tag -/
  shadowWant : Tbl W64 := []
  shadowGot : Tbl W64 := []
  present : Bool := true
  pwrEn : Bool := false
  pwrRise : Nat := 0
  /-- ONFI initialisation has begun (R402) -/
  onfiUp : Bool := false
  isolated : Bool := false
  /-- the last reading of the cuff die's thermal sensor, in whole °C (R210, R213) -/
  temp : Int := 0
  /-- parity sectors recomputed by the rebuild (R192) -/
  parityPos : Nat := 0
  /-- geometry of the carrier: targets, LUNs of a target, unit slots of a superblock (log entry 31) -/
  targets : Nat := 8
  luns : Nat := 1
  pages : Nat := 1536
  /-- read-retry levels of the carrier (R211) -/
  levels : Nat := 16
  /-- translation layer -/
  map : Tbl Nat := []
  dirtyMap : List Nat := []
  mapCached : List Nat := []
  lost : List Nat := []
  journal : List JRec := []
  jNext : Nat := 1
  jIndex : Tbl Nat := []
  sinceCkpt : Nat := 0
  ckptAt : Nat := 0
  /-- map and lost-sector table as the newest checkpoint holds them -/
  ckptMap : Tbl Nat := []
  ckptLost : List Nat := []
  /-- block records and health figures as the newest checkpoint or CLEAN record holds them (R200, R213) -/
  ckptSbs : Tbl BlockRec := []
  ckptHealth : Health := {}
  /-- when the last TIME record was written (R209) -/
  timeAt : Nat := 0
  /-- plane time by class, and sector reads of class 1 and of class 4, both while reads of class 1 were waiting (R182) -/
  planeUse : Tbl PlaneUse := []
  fgReads : Nat := 0
  rbReads : Nat := 0
  sbs : Tbl SBlock := []
  /-- folds being programmed: unit, location, JSEQ at the fold -/
  foldPending : Tbl (Nat × Nat) := []
  nextLun : Nat := 0
  collect : List Collect := []
  levelling : Bool := false
  refreshQ : List Nat := []
  timeOffset : Int := 0
  flushing : Bool := false
  lastHealth : Nat := 0
  /-- lowest sector never used for records, and those released below it (R407) -/
  nextFree : Nat := 0
  released : List Nat := []
  acks : List (Nat × Nat × W64) := []
  health : Health := {}
  deriving DecidableEq, Repr

/-- A data-sector write waiting for its stripe engine (R186): the data goes to data sector (ch, lsn). -/
structure SWrite where
  ch : Nat
  lsn : Nat
  data : List Byte
  /-- the writer holds the old data, or the sector was never written (R186 step 2) -/
  old : Option (List Byte)
  /-- the old data was never written: it counts zero in WSEQ (R189) -/
  never : Bool := false
  tenant : Nat
  repair : Bool := false
  fromOpen : Bool := false
  /-- when it was queued behind another holder of its stripe lock (R193), and since when journal space has been lacking
  (R198) -/
  behind : Option Nat := none
  starved : Option Nat := none
  deriving DecidableEq, Repr

/-- A degraded read waiting at its stripe engine, or answered to its home die (R188). -/
structure DegRead where
  q : Nat
  cand : Nat
  die : Nat
  pn : Nat := 0
  tenant : Nat := 0
  ch : Nat
  lsn : Nat
  owner : Nat
  offset : Nat
  index : Nat
  vslot : Nat
  result : Option (List Byte) := none
  failed : Bool := false
  deriving DecidableEq, Repr

/-- A re-rank record to be appended to a list's open sector (R187). -/
structure AppendReq where
  seq : Nat
  slotIx : Nat
  ver : Nat
  cluster : Nat
  die : Nat
  tenant : Nat
  record : List Byte
  deriving DecidableEq, Repr

/-- A score record on its way to the home die (R180). -/
structure ScoreRec where
  q : Nat
  cand : Nat
  die : Nat
  pn : Nat := 0
  /-- the record as it is sent: SCORE, RSTATUS, TAG -/
  word : W64
  ch : Nat
  lsn : Nat
  deriving DecidableEq, Repr

/-! ### Transport (13, 14) -/

/-- A packet waiting to leave, or sent and not yet covered by an acknowledgement (R271 to R280). -/
structure TxPkt where
  pkt : Pkt
  wr : Option Nat := none
  sent : Bool := false
  /-- it has left before and is being resent -/
  again : Bool := false
  sentAt : Nat := 0
  deriving DecidableEq, Repr

/-- A message being received (R275, R276, R277, R283). -/
structure RxMsg where
  msn : Nat
  opcode : Nat
  len : Nat
  got : List (Nat × Nat) := []
  refused : Option Nat := none
  region : Nat := 0
  addr : Nat := 0
  sync : Nat := 0
  value : W64 := 0
  sendType : Nat := 0
  data : List Byte := []
  hold : Option Nat := none
  mp : Bool := false
  dei : Bool := false
  /-- a SEND that has its room in the receive pool -/
  pooled : Bool := false
  deriving DecidableEq, Repr

/-- A work request (R288). `internal` ones belong to the device's own engines; `slot` is the trigger-table slot. -/
structure WR where
  id : Nat
  slot : Nat := 0
  internal : Bool := false
  op : Nat
  triggered : Bool := false
  compEn : Bool := false
  conn : Nat
  trigSync : Nat := 0
  compSync : Nat := 0
  trigVal : W64 := 0
  compVal : W64 := 0
  len : Nat
  sendType : Nat := 0
  rHandle : Nat := 0
  rAddr : Nat := 0
  lRegion : Nat := 0
  signalSync : Nat := 0
  rearm : Nat := 0
  lAddr : Nat := 0
  signalVal : W64 := 0
  /-- bytes of a message the device made itself, and the job it is sent for -/
  data : List Byte := []
  job : Option Nat := none
  yellow : Bool := false
  /-- issued, and holding one of the outstanding-operation entries (R290) -/
  issued : Bool := false
  hasOp : Bool := false
  waitSince : Nat := 0
  /-- messages it was cut into: MSN and offset within the request -/
  msgs : List (Nat × Nat) := []
  /-- bytes of a READ still to come -/
  left : Nat := 0
  deriving DecidableEq, Repr

/-- What a connection keeps beside its registers (R270 to R280). Rates are in Gb/s, times in ns. -/
structure Conn where
  txPsn : Nat := 0
  txMsn : Nat := 0
  rxPsn : Nat := 0
  /-- lowest MSN not yet done, and those done above it (R269, R278) -/
  rxMsn : Nat := 0
  rxAbove : List Nat := []
  txq : List TxPkt := []
  /-- packets kept in the reorder store, and the end of the hold timer (R271) -/
  kept : List Pkt := []
  hold : Option Nat := none
  unacked : Nat := 0
  firstUnacked : Option Nat := none
  newestTs : Nat := 0
  newestAt : Nat := 0
  timeouts : Nat := 0
  lastProgress : Nat := 0
  lastTx : Nat := 0
  lastRx : Nat := 0
  /-- messages being received, and path-0 messages waiting for lower MSNs (R278) -/
  rx : List RxMsg := []
  waiting : List RxMsg := []
  /-- whole SENDs waiting for their consumer, in MSN order (R269) -/
  inbox : List RxMsg := []
  /-- refused SENDs and when to resend them (R269) -/
  busy : Tbl Nat := []
  /-- SENDs refused BUSY here, whose further packets are discarded (R269) -/
  refusedSends : List Nat := []
  /-- congestion control of R280 -/
  rate : Rat := 0
  srtt : Rat := 0
  base : Option Nat := none
  baseTime : Nat := 0
  acc : Rat := 0
  accN : Nat := 0
  periodStart : Nat := 0
  lastCut : Option Nat := none
  nextDepart : Rat := 0
  deriving DecidableEq, Repr

/-- A policer, strict slot or shaper: the committed values and its buckets in micro-tokens (R295, R302). -/
structure Meter where
  en : Bool := false
  mode : Nat := 0
  aware : Bool := false
  cir : Nat := 0
  pir : Nat := 0
  sizeA : Nat := 0
  sizeB : Nat := 0
  overhead : Int := 20
  tenant : Nat := 0
  c : Nat := 0
  p : Nat := 0
  waitSince : Option Nat := none
  deriving DecidableEq, Repr

/-! ### Groups, leases and replicas (08, 12, 15, 16) -/

/-- An answer a head has taken in: the shard, its member, status, flags, skipped and record bytes (R262). -/
structure GroupAns where
  shard : Nat
  member : Nat
  status : Nat
  flags : Nat
  skipped : Nat
  lists : Nat
  records : List Byte
  /-- the queue wait of the head's own part, where it launched pairs (R312) -/
  waited : Option Nat := none
  deriving DecidableEq, Repr

/-- A group command in progress on a head (R260 to R263, R171). -/
structure GroupJob where
  seq : Nat
  ctx : Nat
  commandId : Nat
  opcode : Nat
  k : Nat := 1
  wantStage : Nat := 0
  tenant : Nat := 0
  /-- the die that homes the command, whose merge unit merges the answers (R27, R92) -/
  home : Nat := 0
  admitTime : Nat := 0
  tRr : Option Nat := none
  /-- members awaited with the shards each serves, and answers: member, status, flags, skipped, lists, records -/
  awaited : List (Nat × List Nat) := []
  answers : List GroupAns := []
  shards : List Nat := []
  shard : Nat := 0
  key : W64 := 0
  abort : Bool := false
  sync : Option (Nat × W64) := none
  /-- descriptor and inline query block or entries as they are fanned out -/
  bytes : List Byte := []
  block : List Byte := []
  ver : Nat := 0
  yellow : Bool := false
  /-- phase 1 has run, and the wait for members is over (R262, R314) -/
  fanned : Bool := false
  /-- a replica's ABORT has been relayed (R334) -/
  relayed : Bool := false
  expired : Bool := false
  /-- answers of copying replicas, which the visibility point does not wait for (R171) -/
  copied : List GroupAns := []
  deriving DecidableEq, Repr

/-- The ordinal records of a group update that is over, for the copying replicas whose answers are still to come (R171). -/
structure CopyWait where
  key : W64
  shard : Nat
  records : List Byte
  members : List Nat
  deriving DecidableEq, Repr

/-- A lease as its head keeps it (R314, R315): 0 acquiring, 1 held, 2 parked. -/
structure HeadLease where
  key : W64
  st : Nat
  epoch : Nat
  /-- lowest and pending epochs and times of the last message sent and of the last one confirmed -/
  pendingEpoch : Nat
  lastSent : Nat
  confirmed : Nat
  seq : Nat
  /-- where its state lies in the pool region, in 64-byte units -/
  off : Nat := 0
  deriving DecidableEq, Repr

/-- A lease record of a pool (15). -/
structure PoolLease where
  key : W64
  epoch : Nat
  holder : Nat
  expiry : Nat
  deriving DecidableEq, Repr

/-- A lease message (R313). -/
structure LeaseMsg where
  lop : Nat
  lstatus : Nat
  holder : Nat
  epoch : Nat
  key : W64
  deriving DecidableEq, Repr

/-- A shard being copied onto this device (R173). -/
structure ShardCopy where
  conn : Nat
  ver : Nat
  shard : Nat := 0
  total : Nat
  landed : List Nat := []
  /-- updates held for lists not yet copied: DEI and bytes of each message, oldest first -/
  held : List (Bool × List Byte) := []
  /-- list data received and not yet landed: cluster and slot entries -/
  incoming : List (Nat × List Byte) := []
  deriving DecidableEq, Repr

/-- A shard copy at its source, once its lists have been sent (R173): the updates in progress at that moment, whose new slots
follow. -/
structure ShardSend where
  conn : Nat
  ver : Nat
  shard : Nat
  jobs : List Nat
  deriving DecidableEq, Repr

/-- What the update log keeps for a group update until its ABORT or RELEASE (R168, R333): the slots it created and those it
retired, with their versions; `conn` is the connection to the head, none on the head itself. -/
structure KeptLog where
  key : W64
  conn : Option Nat
  slots : List (Nat × Nat)
  retired : List (Nat × Nat)
  deriving DecidableEq, Repr

/-! ### Errors, hangs, resets, dump (16) -/

/-- An error record (R317). -/
structure ErrRec where
  seq : Nat
  cls : Nat
  srcKind : Nat
  srcNum : Nat
  engine : Nat := 0xFF
  code : Nat
  count : Nat := 1
  ctx : Nat := 0xFFFF
  commandId : Nat := 0
  time : Nat
  tenant : Nat := 0
  status : Nat := 0
  d0 : Nat := 0
  d1 : Nat := 0
  d2 : Nat := 0
  d3 : Nat := 0
  deriving DecidableEq, Repr

/-- An open coalescing window (R320). -/
structure ErrWin where
  kind : Nat
  num : Nat
  code : Nat
  opened : Nat
  seq : Nat
  more : Nat := 0
  first : Option ErrRec := none
  deriving DecidableEq, Repr

/-- A monitored engine (R323 to R326): its progress and whether it held work at the last sample, the sets of jobs still to
replay, and the tasks of a band that wait for the sets of their lanes' jobs. -/
structure Engine where
  sampled : Nat := 0
  heldWork : Bool := false
  replaySets : List (List Nat) := []
  parked : List Nat := []
  deriving DecidableEq, Repr

/-- A reset in progress (R327, R328). Domain: 0 tile, 1 band, 2 cuff die, 3 crown die, 4 fabric die, 5 device. -/
structure Reset where
  domain : Nat
  num : Nat
  since : Nat
  /-- asked for by the dictionary's RESET, which it answers -/
  byCommand : Bool := false
  /-- a device reset's progress: 0 its dump is being taken, 1 waiting for the cuff dies' flushes, 2 every domain reset and the
  start not yet begun, 3 hung, 4 held in reset since power-on -/
  phase : Nat := 0
  deriving DecidableEq, Repr

/-- A band's tiles (R327, R337): liners that are usable and not in use, the physical tiles found failed, and tile resets. -/
structure Tiles where
  linersFree : Nat := 2
  failed : Nat := 0
  resets : List (Nat × Nat) := []
  deriving DecidableEq, Repr

/-- An entry of the repair record (R346): unit kind and number, spare kind, physical and logical index. -/
structure Repair where
  kind : Nat
  num : Nat
  spare : Nat
  phys : Nat
  logical : Nat
  deriving DecidableEq, Repr

/-- One dump record (R331). -/
structure DumpRec where
  entry : Nat
  dstatus : Nat
  addr : Nat
  length : Nat
  time : Nat
  data : List Byte := []
  deriving DecidableEq, Repr

/-- One dump list entry (R331). -/
structure DumpEntry where
  space : Nat
  unitKind : Nat
  unitNum : Nat
  length : Nat
  addr : Nat
  deriving DecidableEq, Repr

/-- The dump engine (R331, R332). -/
structure Dump where
  list : List DumpEntry := []
  recs : List DumpRec := []
  pos : Nat := 0
  started : Nat := 0
  readAt : Nat := 0
  got : List Byte := []
  unreadable : List UnitId := []
  forDomain : Option (Nat × Nat) := none
  deriving DecidableEq, Repr

/-! ### Start-up (17), dictionary (18), power and test (19), pins (20) -/

/-- A start-history entry (R351). -/
structure HistEntry where
  startNo : Nat
  outcome : Nat := 0
  step : Nat := 0
  reason : Nat := 0
  sets : Nat := 0
  fails : Nat := 0
  detail : Nat := 0
  durationMs : Nat := 0
  secVersion : Nat := 0
  deriving DecidableEq, Repr

/-- A signed record's two copies: SEQUENCE and whether the signature verifies (R346). -/
structure RecCopies where
  seqA : Nat := 0
  okA : Bool := false
  seqB : Nat := 0
  okB : Bool := false
  deriving DecidableEq, Repr

/-- The boot flash (R342 to R346): anchor, image sets, records, start history. -/
structure BootFlash where
  prefA : Nat := 0
  prefB : Nat := 0
  anchor : RecCopies := {}
  setA : Option ImageInfo := none
  setB : Option ImageInfo := none
  identity : RecCopies := {}
  repair : RecCopies := {}
  config : RecCopies := {}
  repairs : List Repair := []
  /-- persistent objects stored in the configuration record: index, sub, value -/
  stored : List (Nat × Nat × List Byte) := []
  secFloor : Nat := 0
  history : List HistEntry := []
  /-- error log and dump as the last flush left them -/
  flushed : List ErrRec := []
  flushedDump : List DumpRec := []
  startNo : Nat := 0
  fails : Nat := 0
  deriving DecidableEq, Repr

/-- The start in progress or last made (R348 to R353). -/
structure Start where
  /-- device time of the power-on or reset it answers, and of the step it is in -/
  began : Nat := 0
  stepAt : Nat := 0
  running : Bool := false
  /-- first choice given by START_RETRY -/
  firstChoice : Option Nat := none
  /-- power was removed since the last start -/
  powerLost : Bool := false
  /-- DRAM was held, with a copy of the descriptor registers (R330) -/
  restoreDram : Bool := false
  copy : Tbl W64 := []
  /-- SETS of the history entry, the set digest, and the units that failed a step -/
  sets : Nat := 0
  setDigest : List Byte := []
  bad : List UnitId := []
  /-- bit p: port p runs with a common reference clock, as S0 found its input; else with SRIS (R381) -/
  commonRef : Nat := 0
  deriving DecidableEq, Repr

/-- An unfinished segmented transfer (R362). -/
structure Xfer where
  path : Nat
  index : Nat
  sub : Nat
  data : List Byte
  atTime : Nat
  deriving DecidableEq, Repr

/-- A command object running, or ended with its result held (R363). -/
structure Running where
  path : Nat
  index : Nat
  sub : Nat
  since : Nat
  ended : Option Nat := none
  status : Nat := 0
  detail : Nat := 0
  result : List Byte := []
  deriving DecidableEq, Repr

/-- The dictionary server (18). -/
structure Dict where
  /-- values of objects that are not register mirrors, by 256 × index + sub; absent: the default -/
  objs : Tbl (List Byte) := []
  xfers : List Xfer := []
  running : List Running := []
  /-- last SEQ accepted of each (path, requester), keyed 256 × path + requester -/
  seqs : Tbl Nat := []
  /-- pending configuration record: time of the first and of the last unsaved persistent write -/
  pending : Option (Nat × Nat) := none
  /-- persistent writes not yet in a record, newest last: index, sub, value -/
  unsaved : List (Nat × Nat × List Byte) := []
  saveFailed : Bool := false
  lastSave : Nat := 0
  /-- values of the PLCA objects in force at the port, by subindex, where a beacon has brought them (R372) -/
  plca : List (Nat × List Byte) := []
  counters : Tbl Nat := []
  deriving DecidableEq, Repr

/-- A self-test in progress (R390). -/
structure Test where
  unit : UnitId
  test : Nat
  since : Nat
  deriving DecidableEq, Repr

/-- Power, thermal and test state (19). -/
structure Power where
  g : Nat := 8
  calm : Nat := 0
  caps : List Nat := [8, 8, 8, 8, 8]
  cool : List Nat := [0, 0, 0, 0, 0]
  hist : List Nat := []
  /-- rail voltages and currents of the last 100 ticks, newest first -/
  railMv : List (List Nat) := []
  railMa : List (List Nat) := []
  temps : List Int := []
  tempMax : List Int := []
  mr4 : Tbl Nat := []
  waking : Tbl Nat := []
  gatedSince : Tbl Nat := []
  tests : List Test := []
  lastTest : List Byte := []
  stepsDown : Nat := 0
  stepsUp : Nat := 0
  thermDown : Nat := 0
  critEvents : Nat := 0
  tripped : List UnitId := []
  /-- instruction of the test access port; a port just powered holds IDCODE (log entry 45) -/
  tap : Nat := 1
  deriving DecidableEq, Repr

/-- The control and carrier pins (20), true for high. -/
structure Pins where
  resetN : Bool := true
  pwrLossN : Bool := true
  faultN : Bool := true
  thermtripN : Bool := true
  perst0N : Bool := true
  perst1N : Bool := true
  sysclk : Bool := true
  /-- bit p: PCIE_REFCLKp toggles (R381) -/
  refclk : Nat := 3
  /-- ranges of host memory, as `hostKey` numbers it, whose host refuses writes: set from outside, like a pin (R238, log
  entry 67) -/
  hostRefused : List (Nat × Nat) := []
  deriving DecidableEq, Repr

/-! ### The machine -/

/-- Host contexts and group commands (12). -/
structure HostSide where
  nextSeq : Nat := 0
  ctxs : Tbl Ctx := []
  groups : List GroupJob := []
  copyWaits : List CopyWait := []
  nextReqSeq : Nat := 0
  deriving DecidableEq, Repr

/-- Queries and the units that scan for them (01, 03 to 06). -/
structure Queries where
  queries : Tbl Query := []
  gqueues : List GQueue := []
  held : Tbl (List Held) := []
  tasks : List Task := []
  nextTask : Nat := 0
  /-- lanes queued for reduction in a band: task and lane, in order (R83) -/
  redQ : Tbl (List (Nat × Nat)) := []
  partials : Tbl (List Partial) := []
  probe : Tbl ProbeUnit := []
  /-- encodes waiting at the projection unit of a die, in admission order, and the matrix loaded (R127) -/
  encodeQ : Tbl (List Nat) := []
  matrix : Tbl Nat := []
  /-- further encodes taken since that matrix was loaded -/
  encTaken : Tbl Nat := []
  shadows : Tbl Shadow := []
  deriving DecidableEq, Repr

/-- Index versions, updates in progress and the matrices in DRAM (02, 06, 08, 11). -/
structure Indexes where
  versions : Tbl Version := []
  updates : List UpdJob := []
  retireQ : List Retired := []
  updateLog : List KeptLog := []
  /-- when the heat of the lists of a tenant was last halved (R229) -/
  heatAt : Tbl Nat := []
  /-- counters of the rounding lanes, keyed by unit and lane (R125) -/
  lanes : Tbl (BitVec 32) := []
  deriving DecidableEq, Repr

/-- Embedding tables (07). -/
structure Tables where
  hatpin : Hatpin := {}
  rowQ : Tbl (List RowAccess) := []
  tblJobs : List TblJob := []
  /-- by table version: its retire command, its owning tenant, and the flash sectors charged for it -/
  tblRetire : Tbl Nat := []
  tblOwner : Tbl Nat := []
  tblUnits : Tbl Nat := []
  deriving DecidableEq, Repr

/-- Flash channels and the stripe engines (09, 10). -/
structure Flash where
  chans : Tbl Chan := []
  swrites : Tbl (List SWrite) := []
  degQ : Tbl (List DegRead) := []
  degDone : Tbl (List DegRead) := []
  appendQ : Tbl (List AppendReq) := []
  scores : Tbl (List ScoreRec) := []
  deriving DecidableEq, Repr

/-- The fabric side: connections, work requests, regions and tier grants (13, 11). -/
structure Fabric where
  conns : Tbl Conn := []
  wrs : List WR := []
  /-- bytes that READs of lower copies have brought, by request, and the requests of lower copies that failed, with their
  statuses -/
  staging : Tbl (List Byte) := []
  failed : List (Nat × Nat) := []
  twrOrder : Nat := 0
  poolBytes : Tbl Nat := []
  /-- paused classes: since when, and until when, keyed 64 × die + 8 × port + class (R267) -/
  pfc : Tbl (Nat × Nat) := []
  /-- partition whose FP16 stage last used a reduction region (R149, R233) -/
  regionPn : Tbl Nat := []
  deriving DecidableEq, Repr

/-- Policers, strict slots and shapers (14). -/
structure Policing where
  policers : Tbl Meter := []
  stricts : Tbl Meter := []
  shapers : Tbl Meter := []
  lastRefill : Nat := 0
  deriving DecidableEq, Repr

/-- Composition and leases (15, 08). -/
structure Tenancy where
  /-- departing bands with their new owner, and the time of the commit (R307) -/
  departing : Tbl (Option Nat) := []
  commitAt : Nat := 0
  headLeases : List HeadLease := []
  poolLeases : List PoolLease := []
  shardCopies : List ShardCopy := []
  shardSends : List ShardSend := []
  deriving DecidableEq, Repr

/-- Error logging, engines, resets and dump (16). -/
structure Ras where
  errLog : List ErrRec := []
  errWins : List ErrWin := []
  irqLast : Option Nat := none
  irqPending : Bool := false
  engines : Tbl Engine := []
  /-- progress counters of the engines that no register shows: elements a merge unit has consumed, records a gather and update
  engine has accessed, contexts a cuff scorer has freed (R323) -/
  work : Tbl Nat := []
  resets : List Reset := []
  /-- when each engine class was last sampled -/
  sampleAt : Tbl Nat := []
  tiles : Tbl Tiles := []
  dumpEng : Dump := {}
  abortedKeys : List (W64 × Nat) := []
  unitPending : Tbl Nat := []
  laneMap : Tbl Nat := []
  /-- the model's own count of register writes and commands that a rule has discarded or refused -/
  refused : Nat := 0
  eccSeen : List (Nat × Nat) := []
  pprList : List (Nat × Nat) := []
  deriving DecidableEq, Repr

/-- The whole machine. Every group of state of the spec is a field of its own. -/
structure State where
  /-- commands sent to the device and not yet carried out, oldest first -/
  pending : List Instr
  /-- device time in ns (R26) -/
  now : Nat
  /-- the model's own counter of free values: not a register of the device -/
  freeCount : Nat
  regs : Tbl W64
  /-- shadow copies taken by SNAP (R72, R92) -/
  shadowRegs : Tbl W64
  /-- value returned by the last register read (R8, R9) -/
  readData : W64
  /-- host memory, at 2^64 × port + address -/
  hostMem : List Host.Cell
  /-- crown-die DRAM as bytes (regions, matrices), at 2^40 × die + die-local address -/
  dram : List Host.Cell
  out : List OutMsg
  hq : HostSide
  qry : Queries
  idx : Indexes
  tbl : Tables
  fl : Flash
  net : Fabric
  pol : Policing
  ten : Tenancy
  ras : Ras
  boot : BootFlash
  start : Start
  dict : Dict
  power : Power
  pins : Pins
  deriving DecidableEq, Repr

/-- The reasons the device can stop for good. -/
inductive Fault where
  /-- The device has no clock or no power and holds no state to go on from. No meaning raises it: every event the spec
  describes leaves a next state. Safe. -/
  | stopped
  deriving DecidableEq, Repr

/-- The reasons a command has no meaning here. -/
inductive Refusal where
  /-- A command the model has not reached. Safe: nothing can be proved of it. -/
  | notModelled (mnemonic : String)
  deriving DecidableEq, Repr

/-- The device as power-on leaves it (R348): every register at its reset value, no context open, no command waiting. -/
def State.reset : State where
  pending := []
  now := 0
  freeCount := 0
  regs := []
  shadowRegs := []
  readData := 0
  hostMem := []
  dram := []
  out := []
  hq := {}
  qry := {}
  idx := {}
  tbl := {}
  fl := {}
  net := {}
  pol := {}
  ten := {}
  ras := {}
  boot := {}
  start := {}
  dict := {}
  power := {}
  pins := {}

end Sys2Proof.Machine
end

