-- ==== Sys2Proof/Machine/Tbl.lean ====
section
/-! DEFINITION. Tables keyed by number: lists of pairs with strictly rising keys. Every sparse array of the model is one,
memory and the registers among them. A table with a default value keeps no entry equal to it, so that equal contents are
equal data. -/

namespace Sys2Proof

/-- The entry at key `i`, if there is one. -/
def Tbl.get? {α : Type} : Tbl α → Nat → Option α
  | [], _ => none
  | (k, v) :: t, i => if i = k then some v else Tbl.get? t i

/-- The entry at key `i`, or the default. -/
def Tbl.getD {α : Type} (t : Tbl α) (d : α) (i : Nat) : α := (t.get? i).getD d

/-- Put an entry at key `i`, keeping the keys rising. -/
def Tbl.put {α : Type} : Tbl α → Nat → α → Tbl α
  | [], i, v => [(i, v)]
  | (k, w) :: t, i, v =>
    if i < k then (i, v) :: (k, w) :: t else if i = k then (i, v) :: t else (k, w) :: Tbl.put t i v

/-- Remove what is at key `i`. -/
def Tbl.del {α : Type} : Tbl α → Nat → Tbl α
  | [], _ => []
  | (k, w) :: t, i => if i = k then Tbl.del t i else (k, w) :: Tbl.del t i

/-- Write `v` at key `i` of a table whose unlisted keys read as `d`: the default itself is not kept. -/
def Tbl.wr {α : Type} [DecidableEq α] (t : Tbl α) (d : α) (i : Nat) (v : α) : Tbl α :=
  if v = d then t.del i else t.put i v

/-- Change the entry at key `i`, a default standing for an absent one. -/
def Tbl.upd {α : Type} (t : Tbl α) (d : α) (i : Nat) (f : α → α) : Tbl α := t.put i (f (t.getD d i))

/-- Every key of the table is above `b`, and they rise. -/
def Tbl.risesFrom {α : Type} : Tbl α → Nat → Bool
  | [], _ => true
  | (k, _) :: t, b => decide (b < k) && Tbl.risesFrom t k

/-- The keys rise strictly. -/
def Tbl.sorted {α : Type} : Tbl α → Bool
  | [] => true
  | (k, _) :: t => Tbl.risesFrom t k

/-- The canonical form of a table with default `d`: rising keys, no entry equal to the default. -/
def Tbl.wf {α : Type} [DecidableEq α] (t : Tbl α) (d : α) : Bool := t.sorted && t.all fun e => decide (e.2 ≠ d)

/-- The values, in key order. -/
def Tbl.vals {α : Type} (t : Tbl α) : List α := t.map Prod.snd

/-- The keys, in order. -/
def Tbl.keys {α : Type} (t : Tbl α) : List Nat := t.map Prod.fst

end Sys2Proof
end

