-- ==== Sys2Proof/Machine/Ops.lean ====
section
/-! DEFINITION. The shared operations on the state: bytes and memory, registers and their fields, counters, device time,
free values, what leaves the device, and the error log (R6 to R12, R23, R26, R72, R317 to R321). -/

namespace Sys2Proof.Machine

/-- The outcome of a command. -/
abbrev Out := Host.Outcome State Fault Refusal

/-! ### Bytes -/

/-- The number a list of bytes spells, little-endian (R6). -/
def leNat : List Byte → Nat
  | [] => 0
  | b :: bs => b.toNat + 256 * leNat bs

/-- The `n` little-endian bytes of a number. -/
def leBytes : Nat → Nat → List Byte
  | 0, _ => []
  | n + 1, v => BitVec.ofNat 8 v :: leBytes n (v / 256)

/-- The field of `n` bytes at offset `o`. -/
def fieldAt (b : List Byte) (o n : Nat) : Nat := leNat ((b.drop o).take n)

/-- Bits hi to lo of a number (R6). -/
def bits (v hi lo : Nat) : Nat := v / 2 ^ lo % 2 ^ (hi + 1 - lo)

/-- Apply a state change for each element, in order. -/
def forEach {α : Type} (xs : List α) (f : α → State → State) (s : State) : State := xs.foldl (fun t x => f x t) s

/-- The first `n` numbers for which `p` holds. -/
def firstFit (p : Nat → Bool) (n : Nat) : Option Nat := (List.range n).find? p

def us : Nat := 1000
def ms : Nat := 1000000
def sec : Nat := 1000000000

/-! ### Fields and registers -/

/-- The value of a field (R6). -/
def Fld.get (f : Fld) (v : W64) : Nat := bits v.toNat f.hi f.lo

/-- A register value with a field replaced. -/
def Fld.put (f : Fld) (v : W64) (n : Nat) : W64 :=
  BitVec.ofNat 64 (v.toNat - bits v.toNat f.hi f.lo * 2 ^ f.lo + n % 2 ^ (f.hi + 1 - f.lo) * 2 ^ f.lo)

/-- Default windows of the engine classes, in µs (R323). -/
def defaultWindow (e : Nat) : Nat := [1000, 200, 1000, 2000, 1000, 5000, 5000, 50000, 100000, 1000].getD e 1000

/-- The value a register takes at reset (R11). -/
def regReset (r : RegName) (i : Nat) : W64 :=
  match r with
  | .HG_WIN => BitVec.ofNat 64 (2 ^ 31 + defaultWindow i)
  | _ => BitVec.ofNat 64 ((RegName.fields r).foldl (fun n f => n + f.reset * 2 ^ f.lo) 0)

/-- Where a register copy lives in `regs`. -/
def regKey (r : RegName) (i j : Nat) : Nat := Nat.pair r.ctorIdx (Nat.pair i j)

/-- The value a register holds. -/
def State.reg (s : State) (r : RegName) (i j : Nat) : W64 := s.regs.getD (regReset r i) (regKey r i j)

/-- Give a register a value. -/
def State.setReg (r : RegName) (i j : Nat) (v : W64) (s : State) : State :=
  { s with regs := s.regs.wr (regReset r i) (regKey r i j) v }

/-- The value of a field of a register copy. -/
def State.fld (s : State) (f : Fld) (i j : Nat) : Nat := Fld.get f (s.reg f.reg i j)

/-- A one-bit field as a truth value. -/
def State.isOn (s : State) (f : Fld) (i j : Nat) : Bool := s.fld f i j == 1

/-- Give a field of a register copy a value. -/
def State.setFld (f : Fld) (i j n : Nat) (s : State) : State := s.setReg f.reg i j (Fld.put f (s.reg f.reg i j) n)

/-- Add to a counter (R72). -/
def State.bump (r : RegName) (i j n : Nat) (s : State) : State := s.setReg r i j (s.reg r i j + BitVec.ofNat 64 n)

/-- Raise a counter that keeps the highest value seen. -/
def State.raise (r : RegName) (i j n : Nat) (s : State) : State :=
  if (s.reg r i j).toNat < n then s.setReg r i j (BitVec.ofNat 64 n) else s

/-! ### Memory -/

/-- Write bytes from address `a` on; an unlisted byte reads as zero (log entry 2). -/
def memWrite (m : List Host.Cell) (a : Nat) : List Byte → List Host.Cell
  | [] => m
  | b :: bs => memWrite (Tbl.wr m 0 a b) (a + 1) bs

/-- Where a host address lies in `hostMem`: each PCIe port has the 64-bit address space of its own host. -/
def hostKey (port a : Nat) : Nat := port * 2 ^ 64 + a % 2 ^ 64

/-- The byte of host memory at an address, through a port. -/
def State.rd (s : State) (port a : Nat) : Byte := Tbl.getD s.hostMem 0 (hostKey port a)

/-- `n` bytes of host memory. -/
def State.rdN (s : State) (port a n : Nat) : List Byte := (List.range n).map fun i => s.rd port (a + i)

/-- Write bytes to host memory. -/
def State.wrHost (port a : Nat) (bs : List Byte) (s : State) : State :=
  { s with hostMem := memWrite s.hostMem (hostKey port a) bs }

/-- Where a die-local DRAM address lies in `dram`. -/
def dramKey (die a : Nat) : Nat := die * 2 ^ 40 + a % 2 ^ 40

/-- `n` bytes of a crown die's DRAM. -/
def State.rdDram (s : State) (die a n : Nat) : List Byte :=
  (List.range n).map fun i => Tbl.getD s.dram 0 (dramKey die (a + i))

/-- Write bytes to a crown die's DRAM. -/
def State.wrDram (die a : Nat) (bs : List Byte) (s : State) : State :=
  { s with dram := memWrite s.dram (dramKey die a) bs }

/-! ### Time, free values, what leaves the device -/

/-- Device time reaches `t`; it never decreases (R26). -/
def State.reach (t : Nat) (s : State) : State := { s with now := max s.now t }

/-- Take the next free value. -/
def State.draw (s : State) : State := { s with freeCount := s.freeCount + 1 }

/-- Something leaves the device. -/
def State.emit (m : OutMsg) (s : State) : State := { s with out := s.out ++ [m] }

/-! ### The error log (R317 to R321) -/

/-- The class of a code (R319); a code with two classes takes `alt` where the occurrence has the second. -/
def errClass (code : Nat) : Nat :=
  if code < 0x0100 then 2
  else if code = 0x0100 ∨ code = 0x0103 ∨ code = 0x0205 ∨ code = 0x0206 then 1
  else if code = 0x0207 ∨ code = 0x0432 ∨ code = 0x0501 then 0
  else if code = 0x0101 ∨ code = 0x0102 ∨ (0x0200 ≤ code ∧ code ≤ 0x0204) ∨ code = 0x0208 ∨ code = 0x0302 then 3
  else if code = 0x0104 ∨ code = 0x0300 ∨ code = 0x0301 ∨ code = 0x0401 ∨ code = 0x0410 ∨ code = 0x0411
    ∨ code = 0x0420 ∨ code = 0x0421 then 4
  else if code = 0x0500 then 6
  else 5

/-- An error occurrence of a code at a unit, with its DETAIL words. -/
def mkErr (code kind num d0 d1 d2 d3 : Nat) : ErrRec :=
  { seq := 0, cls := errClass code, srcKind := kind, srcNum := num, code := code, time := 0, d0 := d0, d1 := d1,
    d2 := d2, d3 := d3 }

/-- Whom an occurrence concerns: the job's context, command and tenant, and the tag of a partial-sum request, which goes into
the fourth DETAIL word (R317, R148, log entry 39). -/
structure JobRef where
  ctx : Nat := 0xFFFF
  commandId : Nat := 0
  tenant : Nat
  tag : Nat := 0
  deriving DecidableEq, Repr

/-- The record names the job it concerns. -/
def ErrRec.of (e : ErrRec) (j : JobRef) : ErrRec :=
  { e with ctx := j.ctx, commandId := j.commandId, tenant := j.tenant, d3 := j.tag }

/-- Send the message of the error log, or leave it to the hold-off of 10 µs (R321). -/
def State.errIrq (cls : Nat) (s : State) : State :=
  if s.isOn fEL_CTL_IRQ_EN 0 0 && decide (s.fld fEL_CTL_MIN_CLASS 0 0 ≤ cls) then
    if s.ras.irqLast.all (fun t => decide (t + 10 * us ≤ s.now)) then
      { s.emit (.msix (s.fld fEL_CTL_PORT 0 0) 0 (s.fld fEL_CTL_VECTOR 0 0)) with
        ras := { s.ras with irqLast := some s.now, irqPending := false } }
    else { s with ras := { s.ras with irqPending := true } }
  else s

/-- The sequence number after `n` (R317). -/
def nextErrSeq (n : Nat) : Nat := if n = 0xFFFFFFFF then 1 else n + 1

/-- Write a record into the ring of 8,192; the newest stands first in the model's list (R321). -/
def State.writeErr (e : ErrRec) (s : State) : State :=
  let n := s.fld fEL_SEQ_NEXT 0 0
  let full := decide (8192 ≤ s.ras.errLog.length)
  let s := { s with ras := { s.ras with errLog := ({ e with seq := n } :: s.ras.errLog).take 8192 } }
  let s := (s.setFld fEL_SEQ_NEXT 0 0 (nextErrSeq n)).bump .EL_RECORDS 0 0 1
  let s := if full then
      (s.setFld fEL_SEQ_OLDEST 0 0 (nextErrSeq (s.fld fEL_SEQ_OLDEST 0 0))).bump .EL_OVERWRITTEN 0 0 1
    else s
  s.errIrq e.cls

/-- Two occurrences share a key (R320). -/
def ErrWin.hasKey (w : ErrWin) (kind num code : Nat) : Bool := w.kind == kind && w.num == num && w.code == code

/-- Close the window of a key: one record stands for the further occurrences, if there were any (R320). -/
def State.closeErrWin (kind num code : Nat) (s : State) : State :=
  match s.ras.errWins.find? (ErrWin.hasKey · kind num code) with
  | none => s
  | some w =>
    let s := { s with ras := { s.ras with errWins := s.ras.errWins.filter fun x => !x.hasKey kind num code } }
    match w.first with
    | none => s
    | some e => s.writeErr { e with count := min w.more 65535 }

/-- A further occurrence is counted into the window of its key (R320). -/
def countInto (e : ErrRec) (w : ErrWin) : ErrWin :=
  if w.hasKey e.srcKind e.srcNum e.code then { w with more := w.more + 1, first := some (w.first.getD e) } else w

/-- Log an occurrence under R320, and name the record that explains it (the ERR_SEQ of a completion). -/
def State.logSeq (e : ErrRec) (s : State) : State × Nat :=
  let e := { e with time := s.now }
  if 4 ≤ e.cls then (s.writeErr e, s.fld fEL_SEQ_NEXT 0 0)
  else
    let s := match s.ras.errWins.find? (ErrWin.hasKey · e.srcKind e.srcNum e.code) with
      | some w => if w.opened + sec ≤ s.now then s.closeErrWin e.srcKind e.srcNum e.code else s
      | none => s
    match s.ras.errWins.find? (ErrWin.hasKey · e.srcKind e.srcNum e.code) with
    | some w =>
      let ws := s.ras.errWins.map (countInto e)
      (State.bump .EL_COALESCED 0 0 1 { s with ras := { s.ras with errWins := ws } }, w.seq)
    | none =>
      let n := s.fld fEL_SEQ_NEXT 0 0
      let w : ErrWin := { kind := e.srcKind, num := e.srcNum, code := e.code, opened := s.now, seq := n }
      (State.writeErr e { s with ras := { s.ras with errWins := s.ras.errWins ++ [w] } }, n)

/-- Log an occurrence (R317, R320). -/
def State.log (e : ErrRec) (s : State) : State := (s.logSeq e).1

/-- A register write refused or discarded: WRITE_DISCARDED from brim die H, with the location word (R319; log entry 5). -/
def State.discard (loc value : W64) (s : State) : State :=
  State.log (mkErr 0x0002 4 0 loc.toNat value.toNat 0 0) { s with ras := { s.ras with refused := s.ras.refused + 1 } }

/-- A command discarded by a rule: its location word names its opcode (R319, path 2). -/
def State.discardCmd (c opcode commandId : Nat) (s : State) : State :=
  s.log { mkErr 0x0002 4 0 (2 ^ 63 + opcode) 0 0 0 with ctx := c, commandId := commandId }

/-- An engine of class `e` has made progress (R323). -/
def State.progressed (e i n : Nat) (s : State) : State :=
  { s with ras := { s.ras with work := s.ras.work.upd 0 (Nat.pair e i) (· + n) } }

/-! ### Errors of the DRAM (R220, R221) -/

/-- A word of a stack was uncorrectable: counted, and on its second time entered in the post-package repair list. -/
def State.eccUncorr (stack addr : Nat) (s : State) : State :=
  let s := s.bump .EL_ECC_UNCORR stack 0 1
  let e := (stack, addr)
  if s.ras.pprList.contains e then s
  else if s.ras.eccSeen.contains e then
    let s := { s with ras := { s.ras with pprList := s.ras.pprList ++ [e] } }
    s.setReg .EL_ECC_PPR_PENDING stack 0 (BitVec.ofNat 64 (s.ras.pprList.filter (·.1 == stack)).length)
  else { s with ras := { s.ras with eccSeen := s.ras.eccSeen ++ [e] } }

/-- An uncorrectable read by a consumer of R221: DRAM_UNCORR from the unit that read. `f` fills the record's context. -/
def State.dramUncorrAt (kind num stack addr consumer : Nat) (f : ErrRec → ErrRec) (s : State) : State :=
  (s.eccUncorr stack addr).log (f (mkErr 0x0101 kind num stack addr consumer 0))

/-- The same where the command does not say which word it was: stack and address are free values. -/
def State.dramUncorrFree (kind num consumer : Nat) (f : ErrRec → ErrRec) (s : State) : State :=
  let v := (Config.free s.freeCount).toNat
  s.draw.dramUncorrAt kind num (v % 20) (v / 32 % 2 ^ 40) consumer f

/-! ### Units -/

/-- Crown die of a band (R5). -/
def dieOf (band : Nat) : Nat := band / 10

/-- A band is in service (R338, R339). -/
def State.bandUp (s : State) (g : Nat) : Bool := s.isOn fBD_STATUS_IN_SERVICE g 0

/-- The partition that owns a band in force, when a partition owns it and it is not departing (R304, R307). -/
def State.bandOwner (s : State) (g : Nat) : Option Nat :=
  if s.isOn fTN_BAND_V g 0 && (Tbl.get? s.ten.departing g).isNone then some (s.fld fTN_BAND_PN g 0) else none

/-- The bands in service that a partition owns on a die. -/
def State.bandsOf (s : State) (pn die : Nat) : List Nat :=
  ((List.range 10).map (10 * die + ·)).filter fun g => s.bandUp g && s.bandOwner g == some pn

/-- A reset of a domain is in progress (R327). -/
def State.inReset (s : State) (domain num : Nat) : Bool := s.ras.resets.any fun r => r.domain == domain && r.num == num

/-- A crown die is in a reset, its own or the device's, or its PLLs have stopped (R389). -/
def State.dieReset (s : State) (d : Nat) : Bool :=
  s.inReset 3 d || s.ras.resets.any (·.domain == 5) || s.power.tripped.contains ⟨1, d⟩

/-- A cuff die is in a reset, or its PLLs have stopped. -/
def State.cuffReset (s : State) (n : Nat) : Bool := s.inReset 2 n || s.power.tripped.contains ⟨3, n⟩

/-- A band is in a reset, its own or one that covers it. -/
def State.bandReset (s : State) (g : Nat) : Bool := s.inReset 1 g || s.dieReset (dieOf g)

/-- A band whose tasks checkpoint and go elsewhere: departing under a commit, or drained out of service (R307, R339). -/
def State.bandLeaving (s : State) (g : Nat) : Bool :=
  (Tbl.get? s.ten.departing g).isSome || s.fld fBD_SVC_STATE g 0 == 1

/-- A self-test by command runs on a unit (R391). -/
def State.testing (s : State) (u : UnitId) : Bool := s.power.tests.any fun t => t.unit == u

/-- Entries of a table of a flash channel. -/
def State.chan (s : State) (n : Nat) : Chan := s.fl.chans.getD {} n

def State.setChan (n : Nat) (c : Chan) (s : State) : State :=
  { s with fl := { s.fl with chans := s.fl.chans.put n c } }

def State.ctx (s : State) (c : Nat) : Ctx := s.hq.ctxs.getD {} c

/-- Replace a context, and with it the in-flight count that HQ_CTX_STATUS shows (R243). -/
def State.setCtx (c : Nat) (x : Ctx) (s : State) : State :=
  { s with hq := { s.hq with ctxs := s.hq.ctxs.put c x } }.setFld fHQ_CTX_STATUS_IN_FLIGHT c 0
    (x.cmds.length + x.done.length)

def State.query (s : State) (q : Nat) : Option Query := s.qry.queries.get? q

def State.setQuery (q : Nat) (x : Query) (s : State) : State :=
  { s with qry := { s.qry with queries := s.qry.queries.put q x } }

def State.delQuery (q : Nat) (s : State) : State :=
  { s with qry := { s.qry with queries := s.qry.queries.del q } }

/-- Version slot v of index n (R47). -/
def verKey (n v : Nat) : Nat := 4 * n + v

def State.version (s : State) (k : Nat) : Version := s.idx.versions.getD {} k

def State.setVersion (k : Nat) (x : Version) (s : State) : State :=
  { s with idx := { s.idx with versions := s.idx.versions.put k x } }

def State.conn (s : State) (c : Nat) : Conn := s.net.conns.getD {} c

def State.setConn (c : Nat) (x : Conn) (s : State) : State :=
  { s with net := { s.net with conns := s.net.conns.put c x } }

end Sys2Proof.Machine
end

