-- ==== Sys2Proof/Machine/Flags.lean ====
section
/-! DEFINITION. Completion statuses (R12), completion flags (R15), and how several of them combine (R13, R16). -/

namespace Sys2Proof.Machine

def stSuccess : Nat := 0x00
def stInvalid : Nat := 0x10
def stBadVersion : Nat := 0x11
def stQuota : Nat := 0x12
def stPoliced : Nat := 0x13
def stAccess : Nat := 0x20
def stRevoked : Nat := 0x21
def stTornDown : Nat := 0x30
def stAborted : Nat := 0x31
def stDeadline : Nat := 0x32
def stDeviceReset : Nat := 0x40
def stLeaseLost : Nat := 0x41

def flShort : Nat := 1
def flPartial : Nat := 2
def flDegraded : Nat := 4
def flWidened : Nat := 8
def flApprox : Nat := 16
def flReplayed : Nat := 32
def flStale : Nat := 64

/-- The status of the checks that fail: the highest of them, or SUCCESS (R13). -/
def worst (checks : List (Bool × Nat)) : Nat := checks.foldl (fun n c => if c.1 then max n c.2 else n) stSuccess

/-- A status that a command or a work request may fail with when the spec names none: one of R12, never a reserved one. -/
def someStatus (f : Nat) : Nat :=
  [stInvalid, stBadVersion, stQuota, stPoliced, stAccess, stRevoked, stTornDown, stAborted, stDeadline, stDeviceReset,
   stLeaseLost].getD (f % 11) stInvalid

/-- The same, and not BAD_VERSION. -/
def otherStatus (f : Nat) : Nat :=
  [stInvalid, stQuota, stPoliced, stAccess, stRevoked, stTornDown, stAborted, stDeadline, stDeviceReset, stLeaseLost].getD
    (f % 10) stInvalid

/-- A flag, when it is earned. -/
def flag (b : Bool) (f : Nat) : Nat := if b then f else 0

end Sys2Proof.Machine
end

