-- ==== Sys2Proof/Machine/Wire.lean ====
section
/-! DEFINITION. The bytes of a Stoez frame as it leaves a port: Ethernet, IP and UDP headers in network byte order, the Stoez
headers and the payload little-endian, and the ICRC (R6, R266, R268). The FCS that follows is the Ethernet MAC's. -/

namespace Sys2Proof.Machine

/-- Bytes of a number in network order (R6). -/
def beBytes (n v : Nat) : List Byte := (leBytes n v).reverse

/-- The Internet checksum: the complement of the ones' complement sum of the 16-bit words, the last one padded. -/
def inetSum : List Byte → Nat → Nat
  | a :: b :: rest, n => inetSum rest (n + 256 * a.toNat + b.toNat)
  | [a], n => n + 256 * a.toNat
  | [], n => n

def inetFold (n : Nat) : Nat := let m := n % 65536 + n / 65536; m % 65536 + m / 65536

def inetChecksum (b : List Byte) : Nat := 65535 - inetFold (inetSum b 0)

/-! ### Stoez headers (R268) -/

def stoezBase (p : Pkt) : List Byte :=
  leBytes 1 p.opcode ++ leBytes 1 ((if p.mp then 1 else 0) + (if p.ackReq then 2 else 0)) ++ leBytes 2 p.dstConn
    ++ leBytes 2 p.srcConn ++ leBytes 1 p.inc ++ leBytes 1 p.ver ++ leBytes 4 (if p.mp then 0 else p.psn) ++ leBytes 4 p.msn
    ++ leBytes 4 p.offset ++ leBytes 4 p.msgLen ++ leBytes 8 p.txTs

def regionExt (p : Pkt) : List Byte := leBytes 4 p.handle ++ leBytes 4 0 ++ leBytes 8 p.addr
def signalExt (p : Pkt) : List Byte := leBytes 2 p.sync ++ leBytes 6 0 ++ leBytes 8 p.value.toNat
def sendExt (p : Pkt) : List Byte := leBytes 1 p.sendType ++ leBytes 7 0
def ackExt (p : Pkt) : List Byte :=
  leBytes 4 p.ackPsn ++ leBytes 4 p.ackMsn ++ leBytes 4 p.nakOffset ++ leBytes 1 p.status ++ leBytes 1 p.kind ++ leBytes 2 0
    ++ leBytes 8 p.echoTs

/-- The extension headers of an opcode. -/
def stoezExt (p : Pkt) : List Byte :=
  match p.opcode with
  | 0x01 => regionExt p
  | 0x02 => regionExt p ++ signalExt p
  | 0x03 => regionExt p
  | 0x05 => sendExt p
  | 0x06 => signalExt p
  | 0x10 => ackExt p
  | 0x11 => ackExt p
  | 0x20 => sendExt p
  | _ => []

/-- Stoez headers, payload and ICRC (R266). -/
def stoezBytes (p : Pkt) : List Byte :=
  let b := stoezBase p ++ stoezExt p ++ p.payload
  b ++ leBytes 4 (crc32c b).toNat

/-! ### The frame (R266, R267) -/

/-- Traffic class of a packet of a connection: control packets travel as class 2 (R267). -/
def State.pktClass (s : State) (c : Nat) (p : Pkt) : Nat := if p.opcode ≤ 6 then s.fld fXT_CONN_CFG_TC c 0 else 2

/-- PCP and DSCP of a traffic class (XT_TC_MAP). -/
def State.classPcp (s : State) (d tc : Nat) : Nat :=
  s.fld (if tc = 0 then fXT_TC_MAP_PCP0 else if tc = 1 then fXT_TC_MAP_PCP1 else fXT_TC_MAP_PCP2) d 0
def State.classDscp (s : State) (d tc : Nat) : Nat :=
  s.fld (if tc = 0 then fXT_TC_MAP_DSCP0 else if tc = 1 then fXT_TC_MAP_DSCP1 else fXT_TC_MAP_DSCP2) d 0

/-- Path of a packet of a message (chapter 13, Multipath messages). -/
def State.pktPath (s : State) (c : Nat) (p : Pkt) : Nat :=
  if p.mp then (p.msn + p.offset / (1024 * 2 ^ s.fld fXT_CFG_MTU p.die 0)) % (s.fld fXT_CONN_CFG_PATHS_M1 c 0 + 1) else 0

/-- The UDP header with a checksum. -/
def State.udp (s : State) (c : Nat) (p : Pkt) (len sum : Nat) : List Byte :=
  beBytes 2 (0xC000 + 16 * (c % 1024) + s.pktPath c p) ++ beBytes 2 (s.fld fXT_CFG_UDP_PORT p.die 0) ++ beBytes 2 (8 + len)
    ++ beBytes 2 sum

/-- The IPv4 header. Its identification and ECN bits, of which the spec says nothing, are free values (log entry 86). -/
def State.ip4 (s : State) (a : Nat) (p : Pkt) (dscp len : Nat) : List Byte :=
  let w := (Config.ipFree s.out.length).toNat
  let h := fun (sum : Nat) =>
    beBytes 1 0x45 ++ beBytes 1 (4 * dscp + w % 4) ++ beBytes 2 (28 + len) ++ beBytes 2 (w / 4 % 65536) ++ beBytes 2 0x4000
      ++ beBytes 1 64 ++ beBytes 1 17 ++ beBytes 2 sum ++ beBytes 4 (s.fld fXT_PORT_IP_LO_IP_LO p.die p.port)
      ++ beBytes 4 (s.fld fXT_ADDR_IP_LO_IP_LO a 0)
  h (inetChecksum (h 0))

/-- The addresses of the IPv6 header. -/
def State.ip6Addrs (s : State) (a : Nat) (p : Pkt) : List Byte :=
  beBytes 8 (s.fld fXT_PORT_IP_HI_IP_HI p.die p.port) ++ beBytes 8 (s.fld fXT_PORT_IP_LO_IP_LO p.die p.port)
    ++ beBytes 8 (s.fld fXT_ADDR_IP_HI_IP_HI a 0) ++ beBytes 8 (s.fld fXT_ADDR_IP_LO_IP_LO a 0)

/-- The IPv6 header; its ECN bits and flow label are free values (log entry 86). -/
def State.ip6 (s : State) (a : Nat) (p : Pkt) (dscp len : Nat) : List Byte :=
  let w := (Config.ipFree s.out.length).toNat
  beBytes 4 (6 * 2 ^ 28 + (4 * dscp + w % 4) * 2 ^ 20 + w / 4 % 2 ^ 20) ++ beBytes 2 (8 + len) ++ beBytes 1 17 ++ beBytes 1 64
    ++ s.ip6Addrs a p

/-- The UDP checksum under IPv6, over its pseudo-header, the UDP header and the data; one that comes out as zero is sent as
all ones. -/
def State.udpSum (s : State) (c a : Nat) (p : Pkt) (data : List Byte) : Nat :=
  let n := data.length
  let x := inetChecksum (s.ip6Addrs a p ++ beBytes 4 (8 + n) ++ beBytes 4 17 ++ s.udp c p n 0 ++ data)
  if x = 0 then 65535 else x

/-- The frame of a packet of connection `c`, from destination address to ICRC (R266). -/
def State.frame (s : State) (c : Nat) (p : Pkt) : List Byte :=
  let a := s.fld fXT_CONN_CFG_ADDR_IDX c 0
  let v6 := s.isOn fXT_ADDR_MAC_IPV6 a 0
  let tc := s.pktClass c p
  let data := stoezBytes p
  let tag := s.classPcp p.die tc * 2 ^ 13 + (if p.dei then 2 ^ 12 else 0) + s.fld fXT_PORT_VLAN_VID p.die p.port
  beBytes 6 (s.fld fXT_ADDR_MAC_MAC a 0) ++ beBytes 6 (s.fld fXT_PORT_MAC_MAC p.die p.port) ++ beBytes 2 0x8100 ++ beBytes 2 tag
    ++ (if v6 then beBytes 2 0x86DD ++ s.ip6 a p (s.classDscp p.die tc) data.length ++ s.udp c p data.length (s.udpSum c a p data)
        else beBytes 2 0x0800 ++ s.ip4 a p (s.classDscp p.die tc) data.length ++ s.udp c p data.length 0)
    ++ data

end Sys2Proof.Machine
end

