-- ==== Sys2Proof/Machine/Net.lean ====
section
/-! DEFINITION. Shared operations of the Stoez transport: sync objects and triggers, work requests, the packets of a
message, acknowledgements and the congestion controller (R266 to R280, R286 to R291). -/

namespace Sys2Proof.Machine

/-- A packet with every field zero. -/
def blankPkt : Pkt :=
  { die := 0, port := 0, frameBytes := 0, frameOk := true, dei := false, ver := 1, opcode := 0, rsvSet := false,
    mp := false, ackReq := false, dstConn := 0, srcConn := 0, inc := 0, psn := 0, msn := 0, offset := 0, msgLen := 0,
    txTs := 0, handle := 0, addr := 0, sync := 0, value := 0, sendType := 0, ackPsn := 0, ackMsn := 0, nakOffset := 0,
    status := 0, kind := 0, echoTs := 0, payload := [] }

/-- Bytes of the extension headers of an opcode (R268). -/
def extLen (op : Nat) : Nat :=
  match op with
  | 0x01 => 16 | 0x02 => 32 | 0x03 => 16 | 0x05 => 8 | 0x06 => 16 | 0x10 => 24 | 0x11 => 24 | 0x20 => 8 | _ => 0

def State.connDie (s : State) (c : Nat) : Nat := s.fld fXT_CONN_CFG_X_DIE c 0

/-- Largest payload of a packet, in bytes (R266). -/
def State.mtu (s : State) (c : Nat) : Nat := 1024 * 2 ^ s.fld fXT_CFG_MTU (s.connDie c) 0

/-- Port rate in Gb/s under the breakout (R280). -/
def State.portRate (s : State) (c : Nat) : Rat := if s.isOn fXT_CFG_BREAKOUT (s.connDie c) 0 then 200 else 400

/-- The physical lane that serves a logical lane. -/
def State.laneAt (s : State) (l : Nat) : Nat := s.ras.laneMap.getD l l

/-- A lane position works: the lane that serves it is in service. -/
def State.laneUp (s : State) (l : Nat) : Bool := s.fld fXT_LANE_SVC_STATE (s.laneAt l) 0 == 0

/-- The lanes of a port (R404). -/
def State.portLanes (s : State) (d port : Nat) : List Nat :=
  let n := if s.isOn fXT_CFG_BREAKOUT d 0 then 2 else 4
  (List.range n).map fun i => 9 * d + n * port + i

/-- A port is up when all its lanes are. -/
def State.portUp (s : State) (d port : Nat) : Bool := (s.portLanes d port).all s.laneUp

/-- Frame bytes of a packet of opcode `op` with `n` payload bytes, from destination address to FCS (R266). -/
def State.frameLen (s : State) (c op n : Nat) : Nat :=
  let ip := if s.isOn fXT_ADDR_MAC_IPV6 (s.fld fXT_CONN_CFG_ADDR_IDX c 0) 0 then 40 else 20
  14 + 4 + ip + 8 + 32 + extLen op + n + 4 + 4

/-- A packet of a connection, with the header fields that the connection fixes (R268). -/
def State.connPkt (s : State) (c op n : Nat) : Pkt :=
  { blankPkt with
    die := s.connDie c, port := s.fld fXT_CONN_CFG_PORT c 0, frameBytes := s.frameLen c op n, opcode := op,
    dstConn := s.fld fXT_CONN_CFG_PEER_CONN c 0, srcConn := c, inc := s.fld fXT_CONN_CFG_INC c 0, msgLen := n }

/-- A packet leaves: it is stamped with the device time (R268, R292); nothing leaves a port that is down (R336). -/
def State.sendOut (c : Nat) (p : Pkt) (s : State) : State :=
  if !s.portUp p.die p.port then s else
  let s := s.bump .XT_TX_PKTS p.die 0 1
  let p := { p with txTs := s.now }
  (s.emit (.packet p.die p.port p (s.frame c p))).setConn c { s.conn c with lastTx := s.now }

/-- ECHO_TS: the newest accepted TX_TS plus the time the receiver has held it (R272). -/
def State.echo (s : State) (c : Nat) : Nat := (s.conn c).newestTs + (s.now - (s.conn c).newestAt)

/-- Send an ACK or NAK packet (R268): control packets are neither paced, windowed, policed nor shaped. -/
def State.sendCtl (c kind ackMsn nakOff status : Nat) (s : State) : State :=
  let op := if kind ≤ 1 then 0x10 else 0x11
  s.sendOut c { s.connPkt c op 0 with
    kind := kind, ackPsn := (s.conn c).rxPsn, ackMsn := ackMsn, nakOffset := nakOff, status := status,
    echoTs := s.echo c, msgLen := 0 }

/-- Acknowledge path 0 cumulatively (R272). -/
def State.sendAck (c : Nat) (s : State) : State :=
  let s := s.sendCtl c 0 0 0 0
  s.setConn c { s.conn c with unacked := 0, firstUnacked := none }

/-! ### Sync objects, triggers and work requests -/

def State.syVal (s : State) (i : Nat) : W64 := s.reg .SY_VAL i 0

def State.wr? (s : State) (id : Nat) : Option WR := s.net.wrs.find? (·.id == id)

def State.setWR (w : WR) (s : State) : State :=
  { s with net := { s.net with wrs := s.net.wrs.map fun x => if x.id = w.id then w else x } }

def State.dropWR (id : Nat) (s : State) : State :=
  { s with net := { s.net with wrs := s.net.wrs.filter fun x => x.id != id } }

/-- The pieces of at most `n` bytes that `data` is cut into, with their offsets; a message without bytes has one. -/
def pieces (n : Nat) (data : List Byte) : List (Nat × List Byte) :=
  (List.range (max 1 ((data.length + n - 1) / n))).map fun i => (i * n, (data.drop (i * n)).take n)

/-- Queue the packets of one message under MSN `m` (R271, R275); `h` fills the extension headers. -/
def State.queueMsg (c op m : Nat) (mp : Bool) (h : Pkt → Pkt) (data : List Byte) (wr : Option Nat) (s : State) :
    State :=
  let ps := pieces (s.mtu c) data
  let one := fun (p : Nat × Nat × List Byte) =>
    let (i, off, d) := p
    let q := h { s.connPkt c op d.length with msn := m, offset := off, msgLen := data.length, mp := mp, payload := d }
    ({ pkt := if mp then q else { q with psn := ((s.conn c).txPsn + i) % 2 ^ 32 }, wr := wr } : TxPkt)
  let x := s.conn c
  s.setConn c { x with
    txq := x.txq ++ ((List.range ps.length).zip ps).map one
    txPsn := if mp then x.txPsn else (x.txPsn + ps.length) % 2 ^ 32 }

/-- Take the next message sequence number of a connection. -/
def State.takeMsn (c : Nat) (s : State) : State :=
  s.setConn c { s.conn c with txMsn := ((s.conn c).txMsn + 1) % 2 ^ 32 }

/-- Send one message of the device on path 0 (SEND, SIGNAL, READ_REQ, GAUNTLET). -/
def State.sendPath0 (c op : Nat) (h : Pkt → Pkt) (data : List Byte) (wr : Option Nat) (s : State) : State :=
  (s.queueMsg c op (s.conn c).txMsn false h data wr).takeMsn c

/-- Die and die-local address of a byte of a region (XT_RGN_BASE). -/
def State.rgnDie (s : State) (r : Nat) : Nat := s.fld fXT_RGN_BASE_DIE r 0
def State.rgnAddr (s : State) (r off : Nat) : Nat := s.fld fXT_RGN_BASE_ADDR r 0 * 4096 + off

/-- Cut a work request into messages and queue their packets (R275, R288). A long multipath WRITE_SIGNAL carries its
signal on its last message (log entry 21). -/
def State.transmit (w : WR) (s : State) : State :=
  let mpc := s.isOn fXT_CONN_CFG_MP w.conn 0
  let data := if w.data = [] then s.rdDram (s.rgnDie w.lRegion) (s.rgnAddr w.lRegion w.lAddr) w.len else w.data
  let big := 256 * s.mtu w.conn
  let yel := fun (p : Pkt) => { p with dei := w.yellow }
  let addMsg := fun (off : Nat) (t : State) => match t.wr? w.id with
    | some x => t.setWR { x with msgs := x.msgs ++ [((t.conn w.conn).txMsn, off)] }
    | none => t
  match w.op with
  | 0x01 | 0x02 =>
    let parts := if mpc then pieces big data else [(0, data)]
    forEach parts (fun (part : Nat × List Byte) t =>
      let last := part.1 + part.2.length == data.length
      let op := if w.op = 0x02 && last then 0x02 else 0x01
      let t := addMsg part.1 t
      (t.queueMsg w.conn op (t.conn w.conn).txMsn mpc
        (fun p => yel { p with handle := w.rHandle, addr := w.rAddr + part.1, sync := w.signalSync,
                               value := w.signalVal }) part.2 (some w.id)).takeMsn w.conn) s
  | 0x03 =>
    let n := if mpc then max 1 ((w.len + big - 1) / big) else 1
    forEach (List.range n) (fun i t =>
      let len := if mpc then min big (w.len - i * big) else w.len
      (addMsg (i * big) t).sendPath0 w.conn 0x03
        (fun p => yel { p with handle := w.rHandle, addr := w.rAddr + i * big, msgLen := len }) [] (some w.id)) s
  | 0x05 => (addMsg 0 s).sendPath0 w.conn 0x05 (fun p => yel { p with sendType := w.sendType }) data (some w.id)
  | _ => (addMsg 0 s).sendPath0 w.conn 0x06
      (fun p => yel { p with sync := w.signalSync, value := w.signalVal }) [] (some w.id)

/-- Outstanding-operation entries in use (R290). -/
def State.opsUsed (s : State) : Nat := (s.net.wrs.filter (·.hasOp)).length

/-- Give an issued request an outstanding-operation entry, or let it wait for one (R290). -/
def State.takeOp (id : Nat) (s : State) : State :=
  match s.wr? id with
  | none => s
  | some w =>
    if s.opsUsed < 65536 then
      let w := { w with hasOp := true, left := w.len }
      (s.setWR w).transmit w
    else s.setWR { w with waitSince := s.now }

/-- Issue a request (R290). -/
def State.issue (id : Nat) (s : State) : State :=
  match s.wr? id with
  | none => s
  | some w =>
    let s := (s.setWR { w with issued := true }).bump .XT_TWR_ISSUED 0 0 1
    let s := s.setFld fXT_CONN_STATUS_OUTSTANDING w.conn 0 (s.fld fXT_CONN_STATUS_OUTSTANDING w.conn 0 + 1)
    let s := if w.internal then s else s.setFld fXT_TWR_CTL_STATE w.slot 0 2
    let behind := s.net.wrs.any fun x => x.issued && !x.hasOp && x.id != id
    if behind then s.setWR { w with issued := true, waitSince := s.now } else s.takeOp id

/-- The trigger of a request is met by the sync objects as they stand (R290). -/
def State.trigMet (s : State) (w : WR) : Bool := !w.triggered || decide (w.trigVal.toNat ≤ (s.syVal w.trigSync).toNat)

/-- Issue, in the order in which they were armed, the requests that sync object `i` releases (R290). -/
def State.releaseTriggers (i : Nat) (s : State) : State :=
  forEach ((s.net.wrs.filter fun w => !w.issued && w.triggered && w.trigSync == i && s.trigMet w).map (·.id))
    State.issue s

/-- Signal a sync object: add modulo 2^64, then release its triggers (R286, R290). -/
def State.signal (i : Nat) (v : W64) (s : State) : State := (s.setReg .SY_VAL i 0 (s.syVal i + v)).releaseTriggers i

/-- Post a request through an internal slot and issue it. -/
def State.post (w : WR) (s : State) : State :=
  let id := s.net.twrOrder
  let s := { s with net := { s.net with wrs := s.net.wrs ++ [{ w with id := id, internal := true }],
                                        twrOrder := id + 1 } }
  s.issue id

/-- Send a device-made message as a SEND of a type on a connection (R268), for a job where it belongs to one. -/
def State.postSend (c ty : Nat) (yellow : Bool) (data : List Byte) (s : State) (job : Option Nat := none) : State :=
  s.post { id := 0, op := 0x05, conn := c, len := data.length, sendType := ty, data := data, job := job, yellow := yellow }

/-- A request leaves the outstanding set. -/
def State.retireWR (w : WR) (s : State) : State :=
  let s := s.setFld fXT_CONN_STATUS_OUTSTANDING w.conn 0 (s.fld fXT_CONN_STATUS_OUTSTANDING w.conn 0 - 1)
  let s := s.dropWR w.id
  if w.internal then s else s.setFld fXT_TWR_CTL_STATE w.slot 0 0

/-- Arm a request in its slot, and issue it if its trigger is already met (R290). -/
def State.armWR (w : WR) (s : State) : State :=
  let id := s.net.twrOrder
  let w := { w with id := id, issued := false, hasOp := false, msgs := [], left := 0 }
  let s := { s with net := { s.net with wrs := s.net.wrs ++ [w], twrOrder := id + 1 } }
  let s := s.setFld fXT_TWR_CTL_STATE w.slot 0 1
  if s.trigMet w then s.issue id else s

/-- A request completes: it signals COMP_SYNC, then its slot frees or re-arms (R291). -/
def State.completeWR (id : Nat) (s : State) : State :=
  match s.wr? id with
  | none => s
  | some w =>
    let s := s.retireWR w
    let s := if w.compEn then s.signal w.compSync w.compVal else s
    if w.internal || w.rearm == 0 then s
    else s.armWR { w with trigVal := w.trigVal + BitVec.ofNat 64 w.rearm }

/-- A request carries a block of a list to or from a grant. -/
def State.tierWR (s : State) (id : Nat) : Bool :=
  s.idx.versions.any fun e => e.2.lists.any fun l => l.2.wrs.any (·.2 == id)

/-- A request fails with a status (R291). -/
def State.failWR (id status : Nat) (s : State) : State :=
  match s.wr? id with
  | none => s
  | some w =>
    let s := (s.retireWR w).setFld fXT_CONN_STATUS_LAST_STATUS w.conn 0 status
    let m := ((w.msgs.map (·.1)).head?).getD 0
    let s := if s.tierWR id then { s with net := { s.net with failed := s.net.failed ++ [(id, status)] } } else s
    (s.log (mkErr 0x0301 5 (s.connDie w.conn) w.conn status m 0)).bump .XT_TWR_FAILED 0 0 1

/-- Complete the requests of a connection that have left and have nothing more to be acknowledged (R291); a READ
completes by its bytes. -/
def State.settleWRs (c : Nat) (s : State) : State :=
  let x := s.conn c
  let waiting := x.txq.filterMap (·.wr)
  let refused := fun (w : WR) => w.msgs.any fun m => (Tbl.get? x.busy m.1).isSome
  forEach ((s.net.wrs.filter fun w => w.conn == c && w.hasOp && w.op != 0x03 && !waiting.contains w.id
    && !refused w).map (·.id)) State.completeWR s

/-! ### Congestion control (R280) -/

/-- A round-trip sample, and at a period's end the move of RATE. -/
def State.rttSample (c echoTs : Nat) (s : State) : State :=
  let x := s.conn c
  let sample : Rat := ((s.now - echoTs : Nat) : Rat)
  let srtt : Rat := if x.srtt = 0 then sample else x.srtt + (sample - x.srtt) / 8
  let fresh := match x.base with
    | none => true
    | some b => decide (s.now - echoTs < b) || decide (100 * ms ≤ s.now - x.baseTime)
  let base := if fresh then s.now - echoTs else x.base.getD 0
  let x := { x with srtt := srtt, base := some base, baseTime := if fresh then s.now else x.baseTime,
                    acc := x.acc + (sample - base), accN := x.accN + 1 }
  let tq : Rat := (s.fld fXT_CONN_CC_TARGET_100NS c 0 * 100 : Nat)
  let x := if max srtt 2000 ≤ ((s.now - x.periodStart : Nat) : Rat) then
      let e : Rat := (tq - x.acc / x.accN) / tq
      let rate : Rat := if 0 ≤ e then min (x.rate * (1 + 1 / 8 * min e 1) + 1 / 20) (s.portRate c)
        else max (x.rate * max (1 + 1 / 4 * e) (6 / 10)) (1 / 10)
      { x with rate := rate, acc := 0, accN := 0, periodStart := s.now }
    else x
  let s := (s.setConn c x).setFld fXT_CONN_CC_RATE c 0 (min 4095 (x.rate * 10).floor.toNat)
  let s := s.setFld fXT_CONN_CC_SRTT_10NS c 0 (min 65535 (srtt / 10).floor.toNat)
  s.setFld fXT_CONN_CC_BASE_100NS c 0 (min 4095 (base / 100))

/-- The sample of an ACK or MSG_DONE, in delay mode. -/
def State.ccAck (c echoTs : Nat) (s : State) : State :=
  if s.isOn fXT_CONN_CFG_CC_MODE c 0 then s.rttSample c echoTs else s

/-- The cut of a loss event, in delay mode, at most once per smoothed round-trip time. -/
def State.ccLoss (c : Nat) (s : State) : State :=
  let x := s.conn c
  if s.isOn fXT_CONN_CFG_CC_MODE c 0 && x.lastCut.all (fun t => decide (x.srtt ≤ ((s.now - t : Nat) : Rat))) then
    let rate : Rat := max (x.rate * (6 / 10)) (1 / 10)
    (s.setConn c { x with rate := rate, lastCut := some s.now, acc := 0, accN := 0, periodStart := s.now }).setFld
      fXT_CONN_CC_RATE c 0 (min 4095 (rate * 10).floor.toNat)
  else s

/-- Mark packets for resending, in their order (R273, R277). -/
def resend (p : TxPkt → Bool) (q : List TxPkt) : List TxPkt :=
  q.map fun x => if x.sent && p x then { x with sent := false, again := true } else x

/-! ### Connection states -/

/-- Messages of a connection admitted to a region and not complete leave its admitted set by failure (R285). -/
def State.tearAdmitted (c : Nat) (s : State) : State :=
  forEach ((s.conn c).rx.filter fun m => m.refused.isNone && (m.opcode == 1 || m.opcode == 2)) (fun m t =>
    if t.fld fXT_RGN_CTL_STATE m.region 0 == 2 then
      (t.log (mkErr 0x0302 5 (t.connDie c) m.region c m.msn 0)).bump .XT_RGN_DRAIN_TORN 0 0 1
    else t) s

/-- Every outstanding request of a connection fails (R270, R274). The spec states no status for these: a free value. -/
def State.failConnWRs (c : Nat) (s : State) : State :=
  forEach ((s.net.wrs.filter fun w => w.conn == c && w.issued).map (·.id))
    (fun id t => t.draw.failWR id (someStatus (Config.free t.freeCount).toNat)) s

/-- Bytes of the receive pool that a connection's messages hold (R269). -/
def pooledBytes (x : Conn) : Nat :=
  ((x.rx ++ x.waiting ++ x.inbox).filter (·.pooled)).foldl (fun n m => n + m.len) 0

/-- The connection drops everything it holds of messages and packets. -/
def State.dropPartial (c : Nat) (s : State) : State :=
  let d := s.connDie c
  let s := { s with net := { s.net with
    poolBytes := s.net.poolBytes.put d (s.net.poolBytes.getD 0 d - pooledBytes (s.conn c)) } }
  s.setConn c { s.conn c with rx := [], waiting := [], inbox := [], txq := [], kept := [], hold := none, busy := [],
                              refusedSends := [], unacked := 0, firstUnacked := none, timeouts := 0 }

/-- Entry to ERROR with a cause (R274). -/
def State.connError (c cause : Nat) (s : State) : State :=
  if s.fld fXT_CONN_CFG_STATE c 0 = 1 then
    let s := (s.setFld fXT_CONN_CFG_STATE c 0 2).setFld fXT_CONN_STATUS_ERR_CAUSE c 0 cause
    let s := s.bump .XT_CONN_ERRORS (s.connDie c) 0 1
    ((s.tearAdmitted c).failConnWRs c).dropPartial c
  else s

end Sys2Proof.Machine
end

