-- ==== Sys2Proof/Machine/Operands.lean ====
section
/-! DEFINITION. The operand forms of the block's commands: the fields of a 64-byte descriptor (R246 to R249, R157),
update entries and slot references (R158), the filter specification (R95) and the container of R98. -/

namespace Sys2Proof.Machine

/-! ### The common header (R246) -/

def dOpcode (b : List Byte) : Nat := fieldAt b 0 1
def dGroup (b : List Byte) : Bool := bits (fieldAt b 1 1) 7 7 == 1
def dFence (b : List Byte) : Bool := bits (fieldAt b 1 1) 6 6 == 1
def dShard (b : List Byte) : Nat := bits (fieldAt b 1 1) 5 0
def dCommandId (b : List Byte) : Nat := fieldAt b 2 2
def dGeneration (b : List Byte) : Nat := fieldAt b 4 4
def dResultAddr (b : List Byte) : Nat := fieldAt b 8 8

/-! ### The general body (R248) -/

/-- The index slot in [3:0] or, for the opcodes of a table, the table slot in [4:0]. -/
def gTarget (b : List Byte) : Nat := bits (fieldAt b 0x10 1) (if 0x20 ≤ dOpcode b then 4 else 3) 0
def gNamed (b : List Byte) : Bool := bits (fieldAt b 0x11 1) 0 0 == 1
def gSyncEn (b : List Byte) : Bool := bits (fieldAt b 0x11 1) 1 1 == 1
def gOptA (b : List Byte) : Bool := bits (fieldAt b 0x11 1) 2 2 == 1
def gOptB (b : List Byte) : Bool := bits (fieldAt b 0x11 1) 3 3 == 1
def gVersion (b : List Byte) : Nat := fieldAt b 0x12 2
def gCount (b : List Byte) : Nat := fieldAt b 0x14 4
def gAddrA (b : List Byte) : Nat := fieldAt b 0x18 8
def gAddrB (b : List Byte) : Nat := fieldAt b 0x20 8
def gArg (b : List Byte) : Nat := fieldAt b 0x28 4
def gSync (b : List Byte) : Nat := bits (fieldAt b 0x2C 2) 13 0
def gSyncValue (b : List Byte) : W64 := BitVec.ofNat 64 (fieldAt b 0x30 8)

/-- What an opcode uses of the general body: the widest TARGET, whether VERSION, COUNT, ADDR_A, ADDR_B, OPT_A and OPT_B,
and the bits of ARG. -/
structure BodyUse where
  target : Nat := 0
  version : Bool := false
  count : Bool := false
  a : Bool := false
  b : Bool := false
  optA : Bool := false
  optB : Bool := false
  argMask : Nat := 0

/-- The fields that R247 gives each opcode of the general body. -/
def bodyUse (op : Nat) : BodyUse :=
  match op with
  | 0x02 => { count := true }
  | 0x03 => { count := true, argMask := 0xFFFFFFFF }
  | 0x18 => { target := 15, version := true, argMask := 0xF }
  | 0x19 => { target := 15, version := true, count := true, a := true, b := true, optA := true, optB := true,
              argMask := 0xFFFFC000 }
  | 0x1A => { target := 15, version := true }
  | 0x1B => { target := 15, version := true, count := true, a := true }
  | 0x1C => { target := 15, version := true, argMask := 0xFFFFF }
  | 0x1D => { target := 15, version := true, argMask := 0xFFFFFFF }
  | 0x20 => { target := 31, version := true, count := true, a := true, b := true, optA := true, optB := true,
              argMask := 0xFFFFFFFF }
  | 0x21 => { target := 31, version := true, count := true, a := true, b := true }
  | 0x22 => { target := 31, version := true, count := true, a := true, optA := true }
  | 0x23 => { target := 31, version := true, count := true, a := true, b := true, optA := true }
  | 0x24 => { target := 31, version := true, count := true, a := true }
  | 0x26 => { target := 31, version := true }
  | _ => {}

/-- Reserved fields and the fields the opcode does not use are zero (R248). The sync fields belong to every opcode. -/
def generalOk (b : List Byte) : Bool :=
  let u := bodyUse (dOpcode b)
  decide (fieldAt b 0x10 1 ≤ u.target) && bits (fieldAt b 0x11 1) 7 4 == 0
    && (u.version || (gVersion b == 0 && !gNamed b)) && (u.count || gCount b == 0) && (u.a || gAddrA b == 0)
    && (u.b || gAddrB b == 0) && (u.optA || !gOptA b) && (u.optB || !gOptB b) && (gArg b &&& u.argMask) == gArg b
    && bits (fieldAt b 0x2C 2) 15 14 == 0 && fieldAt b 0x2E 2 == 0 && fieldAt b 0x38 8 == 0

/-! ### The search body (R249) -/

def qIndex (b : List Byte) : Nat := bits (fieldAt b 0x10 1) 3 0
def qNamed (b : List Byte) : Bool := bits (fieldAt b 0x11 1) 0 0 == 1
def qFlashStage (b : List Byte) : Bool := bits (fieldAt b 0x11 1) 1 1 == 1
def qFp16Stage (b : List Byte) : Bool := bits (fieldAt b 0x11 1) 2 2 == 1
def qForm (b : List Byte) : Nat := bits (fieldAt b 0x11 1) 4 3
def qVersion (b : List Byte) : Nat := fieldAt b 0x12 2
def qNProbe (b : List Byte) : Nat := fieldAt b 0x14 2
def qK (b : List Byte) : Nat := fieldAt b 0x16 2 + 1
def qKs (b : List Byte) : Nat := fieldAt b 0x18 2 + 1
def qRr (b : List Byte) : Nat := fieldAt b 0x1A 2 + 1
def qF (b : List Byte) : Nat := fieldAt b 0x1C 2 + 1
def qTable (b : List Byte) : Nat := bits (fieldAt b 0x1E 1) 4 0
def qScanPct (b : List Byte) : Nat := fieldAt b 0x1F 1
def qBudgetUs (b : List Byte) : Nat := fieldAt b 0x20 4
def qWidenCtl (b : List Byte) : Nat := fieldAt b 0x24 4
def qFilter (b : List Byte) : BitVec 64 := BitVec.ofNat 64 (fieldAt b 0x28 8)
def qQueryAddr (b : List Byte) : Nat := fieldAt b 0x30 8
def qQbmLen (b : List Byte) : Nat := fieldAt b 0x38 4

/-- Reserved fields of a search descriptor are zero, and its address is aligned (R249). -/
def searchOk (b : List Byte) (inlined : Bool) : Bool :=
  bits (fieldAt b 0x10 1) 7 4 == 0 && bits (fieldAt b 0x11 1) 7 5 == 0 && bits (fieldAt b 0x1E 1) 7 5 == 0
    && fieldAt b 0x3C 4 == 0 && (inlined || qQueryAddr b % 64 == 0)

/-- Merge depth of a search (R249). -/
def qM (b : List Byte) : Nat := if qFlashStage b || qFp16Stage b then qRr b else qK b

/-- A length rounded up to a multiple of 64 (R250). -/
def end64 (n : Nat) : Nat := (n + 63) / 64 * 64

/-! ### The filter specification (R95) -/

def filterMode (f : BitVec 64) : Nat := bits f.toNat 63 62

/-! ### The update body and its entries (R157, R158) -/

def uIndex (b : List Byte) : Nat := bits (fieldAt b 0x10 1) 3 0
def uNamed (b : List Byte) : Bool := bits (fieldAt b 0x11 1) 0 0 == 1
def uSyncEn (b : List Byte) : Bool := bits (fieldAt b 0x11 1) 1 1 == 1
def uReassign (b : List Byte) : Bool := bits (fieldAt b 0x11 1) 2 2 == 1
def uVersion (b : List Byte) : Nat := fieldAt b 0x12 2
def uCount (b : List Byte) : Nat := fieldAt b 0x14 4
def uEntryAddr (b : List Byte) : Nat := fieldAt b 0x18 8
def uForm (b : List Byte) : Nat := fieldAt b 0x20 1
def uBitmap (b : List Byte) : Nat := fieldAt b 0x21 1
def uSync (b : List Byte) : Nat := bits (fieldAt b 0x22 2) 13 0
def uSyncValue (b : List Byte) : W64 := BitVec.ofNat 64 (fieldAt b 0x28 8)

/-- Reserved fields of an update command are zero and its values are in range (R157, R159). -/
def updateOk (b : List Byte) : Bool :=
  let op := dOpcode b
  let copy := op == 0x15
  let makes := op == 0x10 || op == 0x12
  let marks := op == 0x13 || op == 0x14
  bits (fieldAt b 0x10 1) 7 4 == 0 && bits (fieldAt b 0x11 1) 7 3 == 0 && (copy || !uReassign b)
    && (if copy then decide (uCount b < 2 ^ 20) && uEntryAddr b == 0
        else decide (1 ≤ uCount b) && decide (uCount b ≤ 65536))
    && (if makes then decide (uForm b ≤ 1) else uForm b == 0)
    && (if marks then decide (uBitmap b ≤ 15) else uBitmap b == 0)
    && bits (fieldAt b 0x22 2) 15 14 == 0 && fieldAt b 0x24 4 == 0 && fieldAt b 0x30 16 == 0

/-- Slot reference "none" (R158). -/
def refNone : Nat := 2 ^ 64 - 1

def refCluster (r : Nat) : Nat := bits r 63 44
def refOrd (r : Nat) : Nat := bits r 39 0
def mkRef (cluster ord : Nat) : Nat := cluster * 2 ^ 44 + ord

/-- Bits [43:40] are zero, and so are ordinal bits [39:33] (R30). -/
def refOk (r : Nat) : Bool := bits r 43 40 == 0 && bits r 39 33 == 0

/-- A cluster word (R158). -/
def cwV (w : Nat) : Bool := bits w 31 31 == 1
def cwAuto (w : Nat) : Bool := bits w 30 30 == 1
def cwCluster (w : Nat) : Nat := bits w 19 0

/-- A cluster word is well formed: [29:20] zero, and nothing set beside V 0. -/
def cwOk (w : Nat) : Bool := bits w 29 20 == 0 && (cwV w || w == 0)

/-- Bytes of one entry of an update command. -/
def entrySize (op : Nat) : Nat := if op = 0x10 ∨ op = 0x12 then 32 else 8

end Sys2Proof.Machine
end

