-- ==== Sys2Proof/Machine/Policing.lean ====
section
/-! DEFINITION. Policers, strict slots and shapers (14): the markers of R296, the strict bucket of R299, the shaper of
R301, and the commands that commit and refill them. -/

namespace Sys2Proof.Machine

/-- The colour of a unit (R296 to R298). -/
inductive Colour where
  | green | yellow | red
  deriving DecidableEq, Repr

def Colour.ofBit (yellow : Bool) : Colour := if yellow then .yellow else .green

/-- The markers of R296. Bucket `c` is C; bucket `p` is P in MODE 1 and E in MODE 0. -/
def Meter.colour (m : Meter) (pre : Colour) (cost : Nat) : Colour × Meter :=
  let need := cost * 10 ^ 6
  let pre := if m.aware then pre else .green
  if m.mode = 1 then
    if m.p < need then (.red, m)
    else if pre = .yellow ∨ m.c < need then (.yellow, { m with p := m.p - need })
    else (.green, { m with p := m.p - need, c := m.c - need })
  else if pre = .green ∧ need ≤ m.c then (.green, { m with c := m.c - need })
  else if need ≤ m.p then (.yellow, { m with p := m.p - need })
  else (.red, m)

/-- What `n` whole microseconds add to the buckets of a policer (R295, R296). -/
def Meter.refill (n : Nat) (m : Meter) : Meter :=
  if m.mode = 1 then
    { m with c := min (m.c + n * m.cir) (m.sizeA * 10 ^ 6), p := min (m.p + n * m.pir) (m.sizeB * 10 ^ 6) }
  else
    let room := m.sizeA * 10 ^ 6 - m.c
    if n * m.cir ≤ room then { m with c := m.c + n * m.cir }
    else { m with c := m.sizeA * 10 ^ 6, p := min (m.p + n * m.cir - room) (m.sizeB * 10 ^ 6) }

/-- What `n` whole microseconds add to the one bucket of a strict slot or a shaper (R295). -/
def Meter.refillOne (n : Nat) (m : Meter) : Meter := { m with c := min (m.c + n * m.cir) (m.sizeA * 10 ^ 6) }

/-- Set every bucket full, or to zero (R302). -/
def Meter.fill (full : Bool) (m : Meter) : Meter :=
  if full then { m with c := m.sizeA * 10 ^ 6, p := m.sizeB * 10 ^ 6 } else { m with c := 0, p := 0 }

/-- Take the cost from a single bucket, when it holds that much (R299, R301). -/
def Meter.take? (m : Meter) (cost : Nat) : Option Meter :=
  if 10 ^ 6 * cost ≤ m.c then some { m with c := m.c - 10 ^ 6 * cost } else none

def State.policer (s : State) (p t : Nat) : Meter := s.pol.policers.getD {} (Nat.pair p t)
def State.strict (s : State) (j p : Nat) : Meter := s.pol.stricts.getD {} (Nat.pair j p)
def State.shaper (s : State) (d t : Nat) : Meter := s.pol.shapers.getD {} (Nat.pair d t)

def State.setPolicer (p t : Nat) (m : Meter) (s : State) : State :=
  { s with pol := { s.pol with policers := s.pol.policers.put (Nat.pair p t) m } }
def State.setStrict (j p : Nat) (m : Meter) (s : State) : State :=
  { s with pol := { s.pol with stricts := s.pol.stricts.put (Nat.pair j p) m } }
def State.setShaper (d t : Nat) (m : Meter) (s : State) : State :=
  { s with pol := { s.pol with shapers := s.pol.shapers.put (Nat.pair d t) m } }

/-- Every whole microsecond of device time since the last refill adds to every bucket (R295). A decision or a commit sees the
buckets so, whether or not a refill of its own came before it. -/
def State.refillDue (s : State) : State :=
  let n := (s.now - s.pol.lastRefill) / us
  { s with pol := { s.pol with
    policers := s.pol.policers.map fun e => (e.1, e.2.refill n)
    stricts := s.pol.stricts.map fun e => (e.1, e.2.refillOne n)
    shapers := s.pol.shapers.map fun e => (e.1, e.2.refillOne n)
    lastRefill := s.pol.lastRefill + n * us } }

/-- The strict slot of a privileged tenant (R299). -/
def State.strictSlot (s : State) (t : Nat) : Option Nat :=
  firstFit (fun j => s.isOn fPL_STRICT_CTL_EN j 0 && s.fld fPL_STRICT_CTL_TENANT j 0 == t) 8

/-- Colour one unit of tenant `t` at point `p` (R296, R299), and count it. -/
def State.police (p t : Nat) (pre : Colour) (cost : Nat) (s : State) : Colour × State :=
  let s := s.refillDue
  match s.strictSlot t with
  | some j =>
    match (s.strict j p).take? cost with
    | some m => (.green, s.setStrict j p m)
    | none => (.red, s.bump .PL_STRICT_DROP j p 1)
  | none =>
    if (s.policer p t).en then
      let r := (s.policer p t).colour pre cost
      let s := s.setPolicer p t r.2
      match r.1 with
      | .green => (.green, s.bump .PL_GREEN p t 1)
      | .yellow => (.yellow, s.bump .PL_YELLOW p t 1)
      | .red => (.red, (s.bump .PL_RED p t 1).bump .PL_RED_BYTES p t (if p = 0 then 0 else cost))
    else (.green, s.bump .PL_GREEN p t 1)

/-- The overhead of a shaper as a signed number (R301). -/
def overheadOf (v : Nat) : Int := if v < 64 then v else (v : Int) - 128

/-- Pass a unit through a shaper if its bucket holds the cost; none: it is held (R301). -/
def State.shape? (s : State) (d t bytes : Nat) : Option State :=
  let s := s.refillDue
  let m := s.shaper d t
  if m.en then
    let cost := ((bytes : Int) + m.overhead).toNat
    match m.take? cost with
    | some m' =>
      let waited := (m.waitSince.map fun w => s.now - w).getD 0
      some (((s.setShaper d t { m' with waitSince := none }).bump .PL_SHP_BYTES d t cost).bump .PL_SHP_WAIT_NS d t waited)
    | none => none
  else some s

/-- Note since when the unit at the head of a shaper's queue has waited. -/
def State.shapeWait (d t : Nat) (s : State) : State :=
  let m := s.shaper d t
  s.setShaper d t { m with waitSince := some (m.waitSince.getD s.now) }

/-- A commit discarded under R302: COMMIT_REFUSED. The spec gives its cause no number: a free value. -/
def State.refuseCommit (loc : W64) (s : State) : State :=
  let f := (Config.free s.freeCount).toNat
  let s := { s.draw with ras := { s.ras with refused := s.ras.refused + 1 } }
  (s.log (mkErr 0x0003 4 0 loc.toNat f 0 0)).bump .PL_COMMIT_REFUSED 0 0 1

/-! ### Commands -/

/-- BUCKET_REFILL (R295): every whole microsecond of device time since the last refill, and at least the next one. -/
def execBucketRefill (s : State) : Out := .next (s.reach (s.pol.lastRefill + us)).refillDue

/-- The staged values of a policer are ones that may be committed (R302). -/
def policerOk (p mode cir pir a b : Nat) : Bool :=
  decide (mode < 2) && decide (0 < cir) && decide (0 < a) && (p == 0 || decide (8192 ≤ a))
    && (mode != 1 || (decide (cir ≤ pir) && decide (a ≤ b)))

/-- POLICER_COMMIT (R302). -/
def execPolicerCommit (p t : Nat) (value loc : W64) (s : State) : Out :=
  let mode := Fld.get fPL_POL_CTL_MODE value
  let cir := s.fld fPL_POL_CIR_CIR p t
  let pir := s.fld fPL_POL_PIR_PIR p t
  let a := s.fld fPL_POL_BURST_SIZE_A p t
  let b := s.fld fPL_POL_BURST_SIZE_B p t
  if policerOk p mode cir pir a b then
    let en := Fld.get fPL_POL_CTL_EN value
    let aware := Fld.get fPL_POL_CTL_AWARE value
    let m : Meter := { en := en == 1, mode := mode, aware := aware == 1, cir := cir, pir := pir, sizeA := a,
                       sizeB := b, tenant := t }
    .next ((((s.refillDue.setFld fPL_POL_CTL_EN p t en).setFld fPL_POL_CTL_MODE p t mode).setFld fPL_POL_CTL_AWARE p t
      aware).setPolicer p t (m.fill (Fld.get fPL_POL_CTL_TOK_FULL value == 1)))
  else .next (s.refuseCommit loc)

/-- STRICT_COMMIT (R299, R302). -/
def execStrictCommit (k : Nat) (value loc : W64) (s : State) : Out :=
  let en := Fld.get fPL_STRICT_CTL_EN value
  let t := Fld.get fPL_STRICT_CTL_TENANT value
  let clash := (List.range 8).any fun j => j != k && s.isOn fPL_STRICT_CTL_EN j 0 && s.fld fPL_STRICT_CTL_TENANT j 0 == t
  let rate := fun p => s.fld fPL_STRICT_RATE_RATE k p
  let size := fun p => s.fld fPL_STRICT_SIZE_SIZE k p
  if en == 1 && clash then .next (s.discard loc value)
  else if (List.range 3).all fun p => decide (0 < rate p) && decide (0 < size p) && (p == 0 || decide (8192 ≤ size p)) then
    let one := fun (p : Nat) (u : State) =>
      let m : Meter := { en := en == 1, cir := rate p, sizeA := size p, tenant := t }
      u.setStrict k p (m.fill (Fld.get fPL_STRICT_CTL_TOK_FULL value == 1))
    .next (forEach [0, 1, 2] one ((s.refillDue.setFld fPL_STRICT_CTL_EN k 0 en).setFld fPL_STRICT_CTL_TENANT k 0 t))
  else .next (s.refuseCommit loc)

/-- SHAPER_COMMIT (R302). -/
def execShaperCommit (sh t : Nat) (value loc : W64) (s : State) : Out :=
  let en := Fld.get fPL_SHP_CTL_EN value
  let ov := Fld.get fPL_SHP_CTL_OVERHEAD value
  let rate := s.fld fPL_SHP_RATE_RATE sh t
  let size := s.fld fPL_SHP_SIZE_SIZE sh t
  if !(decide (64 ≤ ov) && decide (ov ≤ 95)) && decide (1000 ≤ rate) && decide (rate ≤ 50000000000)
      && decide (8192 ≤ size) then
    let m : Meter := { en := en == 1, cir := rate, sizeA := size, overhead := overheadOf ov, tenant := t }
    .next (((s.refillDue.setFld fPL_SHP_CTL_EN sh t en).setFld fPL_SHP_CTL_OVERHEAD sh t ov).setShaper sh t
      (m.fill (Fld.get fPL_SHP_CTL_TOK_FULL value == 1)))
  else .next (s.refuseCommit loc)

end Sys2Proof.Machine
end

