-- ==== Sys2Proof/Machine/Completion.lean ====
section
/-! DEFINITION. Ending a command: the result writer and the completion ring (R243, R244, R252 to R255), answers of fabric
contexts (R261), and what every command passes at its admission (R245, R246, R293, R298). -/

namespace Sys2Proof.Machine

/-! ### Contexts and their rings -/

def State.ctxState (s : State) (c : Nat) : Nat := s.fld fHQ_CTX_STATUS_STATE c 0
def State.ctxPort (s : State) (c : Nat) : Nat := s.fld fHQ_CTX_BIND_PORT c 0
def State.ctxTenant (s : State) (c : Nat) : Nat := s.fld fHQ_CTX_BIND_TENANT c 0
def State.ctxPn (s : State) (c : Nat) : Nat := s.fld fHQ_CTX_BIND_PN c 0
def State.isFabric (s : State) (c : Nat) : Bool := s.isOn fHQ_CTX_BIND_FABRIC c 0

/-- Ring sizes (HQ_CTX_CTL). -/
def State.sqSize (s : State) (c : Nat) : Nat := 2 ^ (s.fld fHQ_CTX_CTL_SQ_SZ c 0 + 4)
def State.cqSize (s : State) (c : Nat) : Nat := 2 ^ (s.fld fHQ_CTX_CTL_CQ_SZ c 0 + 4)

/-- Commands fetched whose completion the host has not acknowledged (R243). -/
def inFlight (x : Ctx) : Nat := x.cmds.length + x.done.length

/-- Room in the completion ring for one command more (R243). -/
def State.ringRoom (s : State) (c : Nat) : Bool := decide (inFlight (s.ctx c) < s.cqSize c - 1)

/-- Change a context. -/
def State.modCtx (c : Nat) (f : Ctx → Ctx) (s : State) : State := s.setCtx c (f (s.ctx c))

/-- Count the time for which a full completion ring holds fetching (R264). -/
def State.noteHeld (c : Nat) (s : State) : State :=
  let x := s.ctx c
  if s.ctxState c = 1 ∧ x.sqHead ≠ x.sqTail ∧ s.ringRoom c = false then
    s.setCtx c { x with heldSince := some (x.heldSince.getD s.now) }
  else match x.heldSince with
    | some t => (s.setCtx c { x with heldSince := none }).bump .HQ_FETCH_HELD_NS 0 0 (s.now - t)
    | none => s

/-- The MSI-X message of a context (R244). -/
def State.sendIrq (c : Nat) (s : State) : State :=
  (s.emit (.msix (s.ctxPort c) (s.fld fHQ_CTX_BIND_FUNC c 0) (s.fld fHQ_CTX_CTL_VECTOR c 0))).modCtx c fun x =>
    { x with irqCount := 0 }

/-- A completion has been written: report it, or count it towards the next message (R244). -/
def State.noteIrq (c : Nat) (s : State) : State :=
  if s.isOn fHQ_CTX_CTL_IRQ_EN c 0 then
    let n := (s.ctx c).irqCount
    let s := s.modCtx c fun x => { x with irqCount := n + 1, irqFirst := if n = 0 then s.now else x.irqFirst }
    if max 1 (s.fld fHQ_CTX_CTL_COAL_COUNT c 0) ≤ n + 1 then s.sendIrq c else s
  else s

/-- The bytes of a completion entry before its PHASE word (R252). -/
def entryBytes (d : DoneCmd) (sqHead : Nat) : List Byte :=
  leBytes 2 d.commandId ++ leBytes 1 d.status ++ leBytes 1 d.opcode ++ leBytes 2 d.flags ++ leBytes 2 sqHead
    ++ leBytes 8 d.info ++ leBytes 8 d.admitTime ++ leBytes 4 d.errSeq

/-- A failed access to host memory: AER, and the HOST_DMA record (R238). -/
def State.dmaErr (port addr kind status : Nat) (s : State) : State × Nat :=
  ((s.emit (.aer port addr)).bump .HQ_DMA_ERR 0 0 1).logSeq { mkErr 0x0300 9 port port addr kind 0 with status := status }

/-- A failed read: the record names the status of the command that needed the data. -/
def State.hostDmaErr (port addr kind : Nat) (s : State) : State × Nat := s.dmaErr port addr kind stInvalid

/-- The host refuses a write of `n` bytes at an address (R238). -/
def State.hostRefuses (s : State) (port a n : Nat) : Bool :=
  s.pins.hostRefused.any fun r => decide (r.1 < hostKey port a + n) && decide (hostKey port a < r.2)

/-- Write bytes to host memory. A failed write is reported and logged, and nothing else follows from it (R238); the number
of the PCIe failure is a free value. -/
def State.putHost (port a : Nat) (bs : List Byte) (s : State) : State :=
  if s.hostRefuses port a bs.length then (s.draw.dmaErr port a (Config.free s.freeCount).toNat 0).1
  else s.wrHost port a bs

/-- Write one completion entry, in its two writes, and report it (R243, R244). -/
def State.writeEntry (c : Nat) (d : DoneCmd) (s : State) : State :=
  let x := s.ctx c
  let a := s.fld fHQ_CQ_BASE_BASE c 0 * 4096 + 32 * x.cqTail
  let s := s.putHost (s.ctxPort c) a (entryBytes d x.sqHead)
  let s := s.putHost (s.ctxPort c) (a + 0x1C) (leBytes 4 (if x.phase then 1 else 0))
  let last := x.cqTail + 1 == s.cqSize c
  let x := { x with cqTail := if last then 0 else x.cqTail + 1, phase := x.phase != last, done := x.done ++ [d] }
  ((s.setCtx c x).bump .HQ_CPL_WRITTEN 0 0 1).noteIrq c

/-- The fate completions and the marker still owed to a reopened context, while the ring has room (R257, R258). -/
def State.writeFates (c : Nat) : Nat → State → State
  | 0, s => s
  | n + 1, s =>
    let x := s.ctx c
    if s.ringRoom c then
      match x.fates, x.marker with
      | d :: ds, _ => State.writeFates c n ((s.setCtx c { x with fates := ds }).writeEntry c d)
      | [], some h =>
        let d : DoneCmd := { seq := 0, opcode := 0xFF, commandId := 0xFFFF, status := 0, info := h, admitTime := s.now }
        (s.setCtx c { x with marker := none }).writeEntry c d
      | [], none => s
    else s

/-- A CLOSING context with no command left becomes CLOSED (R241). -/
def State.settleClosing (c : Nat) (s : State) : State :=
  if s.ctxState c = 2 ∧ (s.ctx c).cmds = [] then s.setFld fHQ_CTX_STATUS_STATE c 0 0 else s

/-! ### Results -/

/-- What a command ends with. -/
structure Res where
  status : Nat := 0
  flags : Nat := 0
  info : Nat := 0
  /-- valid records, their number, and the sentinels that follow them in a result buffer (R88) -/
  records : List Byte := []
  count : Nat := 0
  filler : List Byte := []
  skipped : Nat := 0
  lists : Nat := 0
  notScanned : Nat := 0
  /-- group form of the header: MISSING and MEMBERS (R253) -/
  group : Option (Nat × Nat) := none
  errSeq : Nat := 0
  /-- nothing is written for it but its completion entry (R246) -/
  bare : Bool := false
  /-- slots it created, kept until it is acknowledged (R259) -/
  slots : List (Nat × Nat) := []
  /-- the queue wait of a search that launched pairs (R312) -/
  waited : Option Nat := none
  deriving DecidableEq, Repr

/-- A result that is only a status. -/
def Res.of (status : Nat) : Res := { status := status }

/-- With any status but SUCCESS the flags and the record count are zero (R14). -/
def Res.settle (r : Res) : Res :=
  if r.status = 0 then r else { r with flags := 0, records := [], count := 0, filler := [] }

/-- Bytes 0x00 to 0x0B of the result header (R253). -/
def Res.header (r : Res) : List Byte :=
  match r.group with
  | some (missing, members) =>
    leBytes 8 missing ++ leBytes 4 (2 ^ 31 + members % 128 * 2 ^ 17 + r.count % 2 ^ 17)
  | none =>
    leBytes 4 (min r.skipped 0xFFFFFFFF) ++ leBytes 2 (min r.lists 0xFFFF) ++ leBytes 2 (min r.notScanned 0xFFFF)
      ++ leBytes 4 (r.count % 2 ^ 25)

def State.cmd? (s : State) (c seq : Nat) : Option Cmd := (s.ctx c).cmds.find? (·.seq == seq)

/-- The completion of a command, as its entry carries it. -/
def doneOf (m : Cmd) (r : Res) : DoneCmd :=
  { seq := m.seq, opcode := dOpcode m.bytes, commandId := dCommandId m.bytes, status := r.status,
    flags := if m.replayed && r.status == 0 then r.flags ||| flReplayed else r.flags, info := r.info,
    admitTime := m.admitted.getD m.fetchTime, errSeq := if r.errSeq = 0 then m.errSeq else r.errSeq, slots := r.slots }

/-- The message with which a fabric context answers: the job key, the completion entry, the device-form header and the
valid records (R261, log entry 16). -/
def answerBytes (m : Cmd) (r : Res) : List Byte :=
  leBytes 8 (m.jobKey.getD 0).toNat ++ entryBytes (doneOf m r) 0 ++ leBytes 4 0 ++ r.header
    ++ leBytes 4 (dGeneration m.bytes) ++ r.records

/-! ### Gauntlets (R334) -/

def State.selfMember (s : State) : Nat := s.fld fHQ_GRP_CTL_SELF 0 0

/-- Send a gauntlet over a connection that is READY. -/
def State.sendGauntlet (key : W64) (kind origin status hops : Nat) (conn : Nat) (s : State) : State :=
  if s.fld fXT_CONN_CFG_STATE conn 0 = 1 then
    let data := leBytes 8 key.toNat ++ leBytes 1 kind ++ leBytes 1 origin ++ leBytes 1 status ++ leBytes 1 hops
      ++ leBytes 4 0 ++ leBytes 8 s.now ++ leBytes 8 0
    (s.sendPath0 conn 0x20 id data none).bump .HG_GAUNTLET_TX 0 0 1
  else s

/-- The part of a group update that fails on a member makes it send ABORT to the head (R334); one that an ABORT has ended
does not. -/
def State.partFailed (m : Cmd) (status : Nat) (s : State) : State :=
  match m.conn, m.jobKey with
  | some n, some key =>
    if status ≠ 0 ∧ status ≠ stAborted ∧ 0x10 ≤ dOpcode m.bytes ∧ dOpcode m.bytes ≤ 0x14 then
      s.sendGauntlet key 0 s.selfMember status 0 n
    else s
  | _, _ => s

/-- Bin of a queue wait (R312). -/
def waitBin (ns : Nat) : Nat := if ns < 16000 then 0 else min 15 (Nat.log2 (ns / 16000) + 1)

/-- Count a completed search for its tenant, whatever its status; one that launched no pair has waited until now (R312). -/
def State.countSearch (c : Nat) (m : Cmd) (r : Res) (s : State) : State :=
  if dOpcode m.bytes = 0x01 then
    let t := s.ctxTenant c
    let wait := r.waited.getD (s.now - m.fetchTime)
    ((s.bump .TN_ACC_QUERIES t 0 1).bump .TN_ACC_WAIT_NS t 0 wait).bump .TN_ACC_WAIT_HIST t (waitBin wait) 1
  else s

/-- Complete a command: records, header, GENERATION, entry, in that order; or its answer message (R255, R261). -/
def State.finish (c seq : Nat) (r : Res) (s : State) : State :=
  match s.cmd? c seq with
  | none => s
  | some m =>
    let r := r.settle
    let s := s.modCtx c fun x => { x with cmds := x.cmds.filter fun y => y.seq != seq }
    let s := if r.status = stPoliced then s.bump .HQ_CMD_POLICED 0 0 1 else s
    let s := if r.status = stInvalid then s.bump .HQ_CMD_INVALID 0 0 1 else s
    let s :=
      if (s.ctx c).silent then s
      else if s.isFabric c then
        let s := (s.countSearch c m r).partFailed m r.status
        match m.conn with
        | some n => if s.fld fXT_CONN_CFG_STATE n 0 = 1 then s.postSend n 1 m.yellow (answerBytes m r) else s
        | none => s
      else
        let s := s.countSearch c m r
        let a := dResultAddr m.bytes
        let p := s.ctxPort c
        let s := if a = 0 ∨ r.bare ∨ r.status = stDeviceReset then s
          else ((s.putHost p (a + 16) (r.records ++ r.filler)).putHost p a r.header).putHost p (a + 12)
            (leBytes 4 (dGeneration m.bytes))
        s.writeEntry c (doneOf m r)
    s.settleClosing c

/-! ### Admission -/

/-- The waiting command of context `c` whose turn it is: the earliest fetched and not admitted, with every command before
it completed when it is fenced (R245). -/
def State.front (s : State) (c : Nat) : Option Cmd :=
  match (s.ctx c).cmds.find? (·.admitted.isNone) with
  | some m => if dFence m.bytes && (s.ctx c).cmds.head?.any (·.seq != m.seq) then none else some m
  | none => none

/-- The front command, when it has one of these opcodes. -/
def State.frontOp (s : State) (c : Nat) (ops : List Nat) : Option Cmd :=
  (s.front c).filter fun m => ops.contains (dOpcode m.bytes)

/-- Change a fetched command. -/
def State.modCmd (c seq : Nat) (f : Cmd → Cmd) (s : State) : State :=
  s.modCtx c fun x => { x with cmds := x.cmds.map fun y => if y.seq = seq then f y else y }

/-- Pre-colour of a command (R297): that of its context, or the one its packet gave. -/
def State.preColour (s : State) (c : Nat) (m : Cmd) : Colour :=
  Colour.ofBit (if s.isFabric c then m.yellow else s.isOn fPL_CTX_COLOUR_YELLOW c 0)

/-- The opcodes of R247 that have result records, and those accepted by a group endpoint. -/
def hasResults (op : Nat) : Bool := [0x01, 0x03, 0x10, 0x12, 0x15, 0x21, 0x22].contains op
def groupOk (op : Nat) : Bool := [0x00, 0x01, 0x02, 0x10, 0x11, 0x12, 0x13, 0x14].contains op
def definedOp (op : Nat) : Bool :=
  [0x00, 0x01, 0x02, 0x03, 0x10, 0x11, 0x12, 0x13, 0x14, 0x15, 0x18, 0x19, 0x1A, 0x1B, 0x1C, 0x1D, 0x20, 0x21, 0x22,
    0x23, 0x24, 0x25, 0x26].contains op

/-- RESULT_ADDR is zero exactly for the opcodes without records; on a fabric context always (R246). -/
def State.resultAddrOk (s : State) (c : Nat) (m : Cmd) : Bool :=
  let a := dResultAddr m.bytes
  if s.isFabric c then a == 0
  else if hasResults (dOpcode m.bytes) then a != 0 && a % 16 == 0 else a == 0

/-- GROUP agrees with the context, whose group endpoint is enabled, and SHARD is given only to group updates (R246, R247). -/
def State.headerOk (s : State) (c : Nat) (m : Cmd) : Bool :=
  let op := dOpcode m.bytes
  let g := s.isOn fHQ_CTX_BIND_GROUP_EP c 0
  definedOp op && (g == dGroup m.bytes) && (!g || (groupOk op && s.isOn fHQ_GRP_CTL_EN 0 0))
    && (dShard m.bytes == 0 || (g && decide (0x10 ≤ op) && decide (op ≤ 0x14)))

/-- Admission of a command: the policer first (R251, R298), then the rules every opcode shares, then `k` with the
command as admitted. A command that breaks those rules ends with the highest status that applies (R13): `chk` gives that
of its opcode's own checks. -/
def State.admitCmd (c : Nat) (m : Cmd) (chk : Cmd → State → Nat) (k : Cmd → State → State) (s : State) : State :=
  let r := if m.policed then (Colour.ofBit m.yellow, s) else s.police 0 (s.ctxTenant c) (s.preColour c m) 1
  let m := { m with admitted := some s.now, yellow := r.1 == .yellow, policed := true }
  let t := r.2.modCmd c m.seq fun _ => m
  if r.1 = .red then t.finish c m.seq (Res.of stPoliced)
  else if !t.resultAddrOk c m then t.finish c m.seq { status := max stInvalid (chk m t), bare := true }
  else if !t.headerOk c m then t.finish c m.seq (Res.of (max stInvalid (chk m t)))
  else k m t

/-- An opcode whose own checks give no status above INVALID_DESCRIPTOR. -/
def noCheck (_ : Cmd) (_ : State) : Nat := stSuccess

/-- A command that cannot go on yet waits at admission, and those behind it with it (R22). -/
def State.waitAtAdmission (c : Nat) (m : Cmd) (s : State) : State :=
  s.modCmd c m.seq fun x => { x with admitted := none }

/-- Signal the sync object of a general-body command after its last write (R248). -/
def State.gSignal (m : Cmd) (s : State) : State :=
  if gSyncEn m.bytes then s.signal (gSync m.bytes) (gSyncValue m.bytes) else s

/-- Complete a general-body command that has succeeded. -/
def State.gFinish (c : Nat) (m : Cmd) (r : Res) (s : State) : State := (s.gSignal m).finish c m.seq r

/-- The command whose turn it is, when it has one of these opcodes, goes through admission; else nothing happens. -/
def State.admitFront (c : Nat) (ops : List Nat) (chk : Cmd → State → Nat) (k : Cmd → State → State) (s : State) :
    State :=
  match s.frontOp c ops with
  | some m => s.admitCmd c m chk k
  | none => s

end Sys2Proof.Machine
end

