-- ==== Sys2Proof/Machine/Select.lean ====
section
/-! DEFINITION. The selection datapath (04): score keys, buckets, passes, the duplicate filter, and the two ways a row
ends short of an exact-stable result. Also the Hamming distance of codes. -/

namespace Sys2Proof.Machine

/-! ### Codes -/

/-- The number of ones among the low `n` bits. -/
def popcount : Nat → Nat → Nat
  | 0, _ => 0
  | n + 1, v => v % 2 + popcount n (v / 2)

/-- Hamming distance of two codes over `b` bits (02, code words and planes). -/
def hamming (b : Nat) (q c : Code) : Nat := popcount b (q ^^^ c).toNat

/-! ### Sorting -/

/-- Put an element before the first one that it does not come after. -/
def insertBy {α : Type} (before : α → α → Bool) (x : α) : List α → List α
  | [] => [x]
  | y :: ys => if before y x then y :: insertBy before x ys else x :: y :: ys

/-- Sort; `before` is the strict order wanted. -/
def sortBy {α : Type} (before : α → α → Bool) (xs : List α) : List α := xs.foldr (insertBy before) []

/-! ### Score keys (R73, R74) -/

inductive Kind where
  | hamming | integer | float
  deriving DecidableEq, Repr

def isNan32 (v : BitVec 32) : Bool := decide (0x7F800000 < v.toNat % 2 ^ 31)

/-- The score key of a score of a kind. -/
def scoreKey (k : Kind) (v : BitVec 32) : Nat :=
  match k with
  | .hamming => v.toNat
  | .integer => (v ^^^ 0x80000000#32).toNat
  | .float =>
    if isNan32 v then 0
    else if v = 0x80000000#32 then 0x80000000
    else if v.toNat < 2 ^ 31 then (v ^^^ 0x80000000#32).toNat
    else (~~~v).toNat

/-! ### Selection (R77 to R80, R85) -/

/-- The least `w` with `range >> w` at most 2,047 (R77). -/
def bucketWidth : Nat → Nat → Nat
  | 0, _ => 0
  | n + 1, range => if range ≤ 2047 then 0 else bucketWidth n (range / 2) + 1

/-- An element offered to a selection: its score key and its duplicate key. -/
structure Offer where
  key : Nat
  dup : Nat
  elem : Elem
  deriving DecidableEq, Repr

/-- Rank order: higher key first, then lower ORDER_KEY (R78 step 5). -/
def Offer.ranks (a b : Offer) : Bool :=
  decide (b.key < a.key) || (a.key == b.key && decide (a.elem.order < b.elem.order))

/-- Bucket order: higher bucket first, then lower ORDER_KEY (R78, R80). -/
def Offer.bucketOrder (w lo : Nat) (a b : Offer) : Bool :=
  let x := (a.key - lo) / 2 ^ w
  let y := (b.key - lo) / 2 ^ w
  decide (y < x) || (x == y && decide (a.elem.order < b.elem.order))

/-- The duplicate filter (R85): keep a new element, let a better copy replace a kept one in its place, drop the rest.
The flag says whether it added an element. -/
def offer (kept : List Offer) (e : Offer) : List Offer :=
  if kept.any (·.dup == e.dup) then kept.map fun x => if x.dup = e.dup ∧ x.key < e.key then e else x else kept ++ [e]

/-- What a selection does beside its result: pieces, refill passes, passes beyond the first, boundary key passes, cycles
(R78, R80, R81, R85, R91). -/
structure Work where
  pieces : Nat := 0
  refills : Nat := 0
  repeats : Nat := 0
  keys : Nat := 0
  cycles : Nat := 0
  deriving DecidableEq, Repr

/-- Histogram passes over ORDER_KEYs, 11 bits each from bit 39 down, that part `x` from the next element `y`. -/
def keyPasses (x y : Nat) : Nat :=
  if x / 2 ^ 29 ≠ y / 2 ^ 29 then 1 else if x / 2 ^ 18 ≠ y / 2 ^ 18 then 2 else if x / 2 ^ 7 ≠ y / 2 ^ 7 then 3 else 4

/-- One pass over `row` for `need` elements added to the work (R78, R91). -/
def Work.pass (bucket : Offer → Nat) (need : Nat) (refill : Bool) (row : List Offer) (x : Work) : Work :=
  let base := 2 * ((row.length + 15) / 16) + 32 + (need + 15) / 16 + 24
  let x := { x with cycles := x.cycles + base, refills := x.refills + if refill then 1 else 0 }
  match row[need - 1]?, row[need]? with
  | some a, some b =>
    if bucket a = bucket b then
      let k := keyPasses a.elem.order b.elem.order
      let nb := (row.filter fun o => bucket o == bucket a).length
      { x with keys := x.keys + k, cycles := x.cycles + k * ((nb + 15) / 16 + 32) }
    else x
  | _, _ => x

/-- The work of two selections together. -/
def Work.and (x y : Work) : Work :=
  { pieces := x.pieces + y.pieces, refills := x.refills + y.refills, repeats := x.repeats + y.repeats, keys := x.keys + y.keys,
    cycles := x.cycles + y.cycles }

/-- Passes of a selection over a row in bucket order: `need` elements are still wanted in the pass under way, `more`
after it; every pass of R80 runs, though the row be exhausted. Returns the kept elements, the elements never taken, the number
dropped as duplicates, and the work. -/
def passes (bucket : Offer → Nat) : Nat → Nat → Nat → Bool → List Offer → List Offer → Nat → Work →
    List Offer × List Offer × Nat × Work
  | 0, _, _, _, row, kept, dropped, x => (kept, row, dropped, x)
  | n + 1, need, more, refill, row, kept, dropped, x =>
    if need = 0 ∨ row = [] then
      if more = 0 then (kept, row, dropped, x)
      else
        passes bucket n (min 1024 more) (more - min 1024 more) false row kept dropped { x with repeats := x.repeats + 1 }
    else
      let chunk := row.take need
      let kept' := (sortBy Offer.ranks chunk).foldl offer kept
      let added := kept'.length - kept.length
      passes bucket n (need - added) more true (row.drop need) kept' (dropped + (chunk.length - added))
        (x.pass bucket need refill row)

/-- What a selection gives. -/
structure Selected where
  kept : List Elem
  /-- the returned set differs from the exact-stable one: APPROX_BOUNDARY (R79) -/
  approx : Bool
  dropped : Nat
  work : Work
  deriving DecidableEq, Repr

/-- Elements that one pass can count (R78, R81). -/
def pieceMax : Nat := 2 ^ 20

/-- A row in pieces of at most 2^20 elements. -/
def piecesOf {α : Type} : Nat → List α → List (List α)
  | 0, _ => []
  | _ + 1, [] => []
  | n + 1, row => row.take pieceMax :: piecesOf n (row.drop pieceMax)

/-- Select the best `k` elements of a row; `key` gives the score key and `dup` the key of the duplicate filter. A row of more
than 2^20 elements is selected in pieces, with the row's own buckets, and then from the union of what they give (R81). -/
def selectBy (key dup : Elem → Nat) (k : Nat) (row : List Elem) : Selected :=
  let offers := row.map fun e => ({ key := key e, dup := dup e, elem := e } : Offer)
  let hi := offers.foldl (fun n o => max n o.key) 0
  let lo := offers.foldl (fun n o => min n o.key) hi
  let w := bucketWidth 32 (hi - lo)
  let bucket := fun (o : Offer) => (o.key - lo) / 2 ^ w
  let run := fun (os : List Offer) =>
    if os = [] then ([], [], 0, {}) else
    passes bucket (2 * os.length + k + 2) (min 1024 k) (k - min 1024 k) false (sortBy (Offer.bucketOrder w lo) os) [] 0 {}
  let parts := if row.length ≤ pieceMax then [] else (piecesOf row.length offers).map run
  let last := run (if parts = [] then offers else parts.flatMap (·.1))
  let kept := last.1
  let rest := parts.flatMap (·.2.1) ++ last.2.1
  let dropped := parts.foldl (fun n p => n + p.2.2.1) last.2.2.1
  let work := parts.foldl (fun x p => x.and { p.2.2.2 with pieces := 1 }) last.2.2.2
  let b := kept.foldl (fun n o => min n (bucket o)) 2047
  let lowest := (kept.filter fun o => bucket o == b).foldl (fun n o => min n o.key) hi
  let approx := rest.any fun o => bucket o == b && decide (lowest < o.key) && !kept.any (·.dup == o.dup)
  { kept := kept.map (·.elem), approx := approx, dropped := dropped, work := work }

/-- Select from a row of one score kind. -/
def select (kind : Kind) (dup : Elem → Nat) (k : Nat) (row : List Elem) : Selected :=
  selectBy (fun e => scoreKey kind e.score) dup k row

/-- Give the elements of an ordered list new ORDER_KEYs from a base and their position (R76). -/
def reorder (base : Nat) (es : List Elem) : List Elem :=
  ((List.range es.length).zip es).map fun p => { p.2 with order := base + p.1 }

end Sys2Proof.Machine
end

