-- ==== Sys2Proof/Machine/Index.lean ====
section
/-! DEFINITION. Index versions and what they are made of: quotas and charges (R216, R217), capture and references (R49,
R166), lists, blocks and slots (R31 to R48), and the single-slot writes of an update (R161, R162, R94). -/

namespace Sys2Proof.Machine

/-! ### Charges (R216 to R219) -/

/-- Bytes in units of 4 KiB, rounded up. -/
def kib4 (n : Nat) : Nat := (n + 4095) / 4096

def State.used (s : State) (t tier : Nat) : Nat := s.fld fTN_QUOTA_USED_USED t tier
def State.limit (s : State) (t tier : Nat) : Nat := s.fld fTN_QUOTA_LIMIT_LIMIT t tier

/-- The last start left a unit out (R348). -/
def State.isBad (s : State) (kind num : Nat) : Bool := s.start.bad.contains ⟨kind, num⟩

/-- A crown die is in service unless the last start left it out or its PLLs have stopped: its bands may all be out while
its other units serve (R388, log entry 17). -/
def State.dieUp (s : State) (d : Nat) : Bool := !s.isBad 1 d && !s.power.tripped.contains ⟨1, d⟩
def State.diesUp (s : State) : List Nat := (List.range 5).filter s.dieUp

/-- A stack is in service when its die is and the last start trained it (R17, R348). -/
def State.stackUp (s : State) (i : Nat) : Bool := !s.isBad 6 i && s.dieUp (i / 4)

/-- Usable DRAM of a crown die in units of 4 KiB: 30 GiB for each of its stacks in service (R17, R219). -/
def State.dieCapacity (s : State) (d : Nat) : Nat :=
  7864320 * ((List.range 4).filter fun i => s.stackUp (4 * d + i)).length

/-- Capacity of a tier in units of 4 KiB (R219): the usable DRAM of the crown dies in service; the data sectors of 32
channels; the valid remote grants. -/
def State.tierCapacity (s : State) (tier : Nat) : Nat :=
  match tier with
  | 0 => s.diesUp.foldl (fun n d => n + s.dieCapacity d) 0
  | 1 => 32 * s.fld fCF_CAP_DATA_SECTORS 0 0
  | _ => (List.range 64).foldl (fun n g => if s.isOn fTN_RG_V g 0 then n + 16384 * s.fld fTN_RG_SIZE g 0 else n) 0

def State.tierUsed (s : State) (tier : Nat) : Nat := (List.range 256).foldl (fun n t => n + s.used t tier) 0

/-- Charge without a check, and release. -/
def State.addCharge (t tier n : Nat) (s : State) : State := s.setFld fTN_QUOTA_USED_USED t tier (s.used t tier + n)
def State.dropCharge (t tier n : Nat) (s : State) : State := s.setFld fTN_QUOTA_USED_USED t tier (s.used t tier - n)

/-- The allocation would fit: under the tenant's quota and in the tier (R217, R219). -/
def State.fits (s : State) (t tier n : Nat) : Bool :=
  decide (s.used t tier + n ≤ s.limit t tier) && decide (s.tierUsed tier + n ≤ s.tierCapacity tier)

/-- Check and charge in one step (R217). -/
def State.charge (t tier n : Nat) (s : State) : Bool × State :=
  if s.fits t tier n then (true, s.addCharge t tier n) else (false, s.bump .TN_QUOTA_REFUSED t tier 1)

/-- The tenant that a charge is refused for in a tier: one that it takes past its limit, else, where it takes the tier past
its capacity, the first one charged. -/
def refusedIn (before after : State) (tier : Nat) : Option Nat :=
  let grew := (List.range 256).filter fun t => decide (before.used t tier < after.used t tier)
  match grew.find? fun t => decide (after.limit t tier < after.used t tier) with
  | some t => some t
  | none => if after.tierCapacity tier < after.tierUsed tier then grew.head? else none

/-- Two states compared: no charge has taken a tenant past its limit, nor a tier past its capacity. -/
def chargesFit (before after : State) : Bool := [0, 1].all fun tier => (refusedIn before after tier).isNone

/-- Count a charge that does not fit, what would make `s` into `after`, under each tier that would be exceeded (R235). -/
def State.noteRefused (s after : State) : State :=
  forEach [0, 1] (fun tier t => match refusedIn s after tier with
    | some x => t.bump .TN_QUOTA_REFUSED x tier 1
    | none => t) s

/-- The place of an object of `len` bytes in a space of `span` bytes, aligned to `al`, that the device chooses as its `i`-th
from now: the spec says no more of it (log entry 68). -/
def State.placeAt (s : State) (i span len al : Nat) : Nat :=
  (Config.free (s.freeCount + i)).toNat % ((span - len) / al + 1) * al

/-- Take `n` free values. -/
def State.draws (n : Nat) (s : State) : State := { s with freeCount := s.freeCount + n }

/-- A die-local address for a new object. -/
def State.freshAddr (len al : Nat) (s : State) : Nat × State := (s.placeAt 0 (2 ^ 40) len al, s.draw)

/-! ### Version slots (R47 to R50) -/

/-- B and C of an index, in bits. -/
def State.codeBits (s : State) (n : Nat) : Nat := 128 * 2 ^ s.fld fHQ_IDX_CTL_CODE_LEN n 0
def State.centBits (s : State) (n : Nat) : Nat := 128 * 2 ^ s.fld fHQ_IDX_CTL_CENT_LEN n 0

def State.idxValid (s : State) (n v : Nat) : Bool := (s.fld fHQ_IDX_CTL_VALID n 0).testBit v
def State.idxRetiring (s : State) (n v : Nat) : Bool := (s.fld fHQ_IDX_CTL_RETIRING n 0).testBit v

/-- A mask with one bit changed. -/
def setBit (m v : Nat) (b : Bool) : Nat := if m.testBit v = b then m else if b then m + 2 ^ v else m - 2 ^ v

/-- The version slot that a command captures: the VALID one of the number it names that is not RETIRING, or CURRENT when
that is VALID; none: BAD_VERSION (R49, R251). -/
def State.capture (s : State) (n : Nat) (named : Bool) (num : Nat) : Option Nat :=
  if named then
    firstFit (fun v => s.idxValid n v && !s.idxRetiring n v && s.fld fHQ_IDX_VER_VERSION n v == num) 4
  else (some (s.fld fHQ_IDX_CTL_CURRENT n 0)).filter (s.idxValid n)

/-- Add 1 to a version's REF_SYNC (R166). -/
def State.holdRef (k : Nat) (s : State) : State := s.signal (s.fld fHQ_IDX_VER_REF_SYNC (k / 4) (k % 4)) 1

/-- Take 1 from it; header arrays that no task can read any more are then freed (R166, R44). -/
def State.releaseRef (k : Nat) (s : State) : State :=
  let i := s.fld fHQ_IDX_VER_REF_SYNC (k / 4) (k % 4)
  let s := s.signal i (BitVec.allOnes 64)
  let x := s.version k
  let old := x.oldHdrs.vals.foldl (· + ·) 0
  if s.syVal i = 0 ∧ x.oldHdrs ≠ [] then
    (s.setVersion k { x with charged := x.charged - old, oldHdrs := [] }).dropCharge x.owner 0 old
  else s

/-! ### Lists and blocks -/

def Version.list (x : Version) (cl : Nat) : IList := x.lists.getD { die := x.place.getD cl 0, holder := x.owner } cl

/-- Clusters of the version. -/
def Version.count (x : Version) : Nat := x.cents.length

def State.modVersion (k : Nat) (f : Version → Version) (s : State) : State := s.setVersion k (f (s.version k))

def State.modList (k cl : Nat) (f : IList → IList) (s : State) : State :=
  s.modVersion k fun x => { x with lists := x.lists.put cl (f (x.list cl)) }

/-- Write a block header: HDR_GEN advances with every write (R38). -/
def bumpGen (f : Block → Block) (seq : Nat) (b : Block) : Block :=
  if b.seq = seq then { f b with hdrGen := (b.hdrGen + 1) % 256 } else b

def State.modBlock (k cl seq : Nat) (f : Block → Block) (s : State) : State :=
  s.modList k cl fun l => { l with blocks := l.blocks.map (bumpGen f seq) }

/-- The live slots of a block: LIVE_COUNT (R38). -/
def Version.liveIn (x : Version) (b : Block) : Nat :=
  ((List.range b.fill).filter fun j => !x.tomb.contains (b.ordBase + j)).length

/-- LIVE_COUNT and ENTRY_COUNT of a list (R44). -/
def Version.liveOf (x : Version) (l : IList) : Nat := l.blocks.foldl (fun n b => n + x.liveIn b) 0
def entriesOf (l : IList) : Nat := l.blocks.foldl (fun n b => n + b.fill) 0

/-- The block and slot of a slot reference; none where it names no filled slot (R159). -/
def Version.slotOf (x : Version) (ref : Nat) : Option (Block × Nat) :=
  match (x.lists.get? (refCluster ref)).bind fun l =>
      l.blocks.find? fun b => decide (b.ordBase ≤ refOrd ref) && decide (refOrd ref < b.ordBase + b.fill) with
  | some b => some (b, refOrd ref - b.ordBase)
  | none => none

/-- The canonical ordinal of a slot (R32). -/
def Version.canonOf (x : Version) (ord : Nat) : Nat :=
  if x.aliasOrds.contains ord then (x.idMap.getD 0 ord).toNat % 2 ^ 40 else ord

/-- DRAM of one code block, in 4 KiB units, and its alignment (R35, R36). -/
def blockUnits (b : Nat) : Nat := b / 128
def blockAlign (b : Nat) : Nat := if b = 128 then 4096 else 8192

/-- Where RESIDENCY 0 stands, the states of R224: 0 RESIDENT, 1 PROMOTING, 2 DEMOTING, 3 LOW. -/
def IList.isResident (l : IList) : Bool := l.rstate == 0 || l.rstate == 2

/-- A block of the version has taken the range of ordinals from `o` on. -/
def Version.takes (x : Version) (o : Nat) : Bool := x.lists.any fun e => e.2.blocks.any (·.ordBase == o)

/-- The lowest range of 256 ordinals from `o` on that no block has taken (R160). -/
def Version.untaken (x : Version) : Nat → Nat → Nat
  | 0, o => o
  | n + 1, o => if x.takes o then Version.untaken x n (o + 256) else o

/-- Blocks of a version. -/
def Version.blockCount (x : Version) : Nat := x.lists.foldl (fun n e => n + e.2.blocks.length) 0

/-- Allocate a block at the end of a list, with the header array it needs (R44, R160); the list die's range must hold an
untaken block. HDR_GEN starts at a free value (log entry 68). -/
def State.newBlock (k cl : Nat) (s : State) : Option State :=
  let x := s.version k
  let l := x.list cl
  let base := x.untaken x.blockCount (x.ordNext.getD l.die 0)
  if base + 256 ≤ x.ordHi.getD l.die 0 ∧ l.blocks.length < 65536 then
    let n := l.blocks.length
    let grows := n == 0 || n == 2 ^ l.hdrCapLog2
    let cap := if n = 0 then 0 else if grows then l.hdrCapLog2 + 1 else l.hdrCapLog2
    let bits := s.codeBits (k / 4)
    let a := s.freshAddr (4096 * blockUnits bits) (blockAlign bits)
    let h := a.2.freshAddr (32 * 2 ^ cap) 32
    let gen := (Config.free h.2.freeCount).toNat % 256
    let fresh := if grows then kib4 (32 * 2 ^ cap) else 0
    let old := if grows && n != 0 then kib4 (32 * 2 ^ l.hdrCapLog2) else 0
    let b : Block := { seq := n, ordBase := base, codeAddr := a.1, hdrGen := gen }
    let l' := { l with blocks := l.blocks ++ [b], hdrCapLog2 := cap, hdrAddr := if grows then h.1 else l.hdrAddr }
    let x' := { x with lists := x.lists.put cl l', ordNext := x.ordNext.set l.die (base + 256),
                       charged := x.charged + fresh, oldHdrs := x.oldHdrs.wr 0 l.die (x.oldHdrs.getD 0 l.die + old) }
    some (((h.2.draw.setVersion k x').addCharge x.owner 0 fresh).addCharge l.holder 0 (blockUnits bits))
  else none

/-- Take the next slot of a list: its ordinal, block and slot (R41, R160). None: the limits of R159. -/
def State.takeSlot (k cl : Nat) (s : State) : Option ((Nat × Nat × Nat) × State) :=
  let l := (s.version k).list cl
  let full := l.blocks.getLast?.all fun b => decide (256 ≤ b.taken)
  let taken := l.blocks.foldl (fun n b => n + b.taken) 0
  if l.appendClosed || decide (2 ^ 24 ≤ taken) then none
  else
    match (if full then s.newBlock k cl else some s) with
    | none => none
    | some s =>
      match ((s.version k).list cl).blocks.getLast? with
      | none => none
      | some b =>
        let take := fun (y : Block) =>
          if y.seq = b.seq then { y with taken := y.taken + 1, unwritten := y.unwritten ++ [b.taken] } else y
        some ((b.ordBase + b.taken, b.seq, b.taken),
          s.modList k cl fun l => { l with blocks := l.blocks.map take })

/-- A slot of a block has been written: FILL passes every slot that is (R41). HAS_ALIAS tells of the slots below FILL, given
the version's alias ordinals (R38). -/
def Block.written (j : Nat) (std : BitVec 16) (aliases : List Nat) (code : Code) (b : Block) : Block :=
  let un := b.unwritten.filter (· != j)
  let fill := un.foldl min b.taken
  { b with unwritten := un, fill := fill, codes := b.codes.put j code, stdSummary := b.stdSummary ||| std,
           hasAlias := aliases.any fun o => decide (b.ordBase ≤ o) && decide (o < b.ordBase + fill), sealed := fill == 256, lowFresh := false }

/-- Write a slot in the order of R41: code, then ID map, sidecar and bits, then the header. -/
def State.writeSlot (k cl seq j : Nat) (code : Code) (idEntry : W64) (isAl : Bool) (std : BitVec 16)
    (sidecar : W64) (s : State) : State :=
  let ord := (((s.version k).list cl).blocks.find? (·.seq == seq)).elim 0 (·.ordBase + j)
  let s := s.modVersion k fun x =>
    { x with idMap := x.idMap.wr 0 ord idEntry, sidecar := x.sidecar.wr 0 ord sidecar, std := x.std.wr 0 ord std,
             aliasOrds := if isAl then x.aliasOrds ++ [ord] else x.aliasOrds }
  s.modBlock k cl seq (Block.written j std (s.version k).aliasOrds code)

/-! ### Single-slot writes of updates -/

/-- Set the tombstone of a slot and write its header (R162); a slot that has one already is counted. -/
def State.tombstone (k ref : Nat) (s : State) : State :=
  let x := s.version k
  if x.tomb.contains (refOrd ref) then s.bump .HQ_UPD_REDUNDANT 0 0 1
  else
    let s := (s.setVersion k { x with tomb := x.tomb ++ [refOrd ref] }).bump .HQ_UPD_TOMBSTONES 0 0 1
    match x.slotOf ref with
    | some (b, _) => s.modBlock k (refCluster ref) b.seq id
    | none => s

/-- Set bit j of a slot: first the header's summary, then the bitmap word (R94). -/
def State.setStd (j k ref : Nat) (s : State) : State :=
  let bit : BitVec 16 := BitVec.ofNat 16 (2 ^ j)
  match (s.version k).slotOf ref with
  | some (b, _) =>
    (s.modBlock k (refCluster ref) b.seq fun y => { y with stdSummary := y.stdSummary ||| bit }).modVersion k
      fun x => { x with std := x.std.wr 0 (refOrd ref) (x.std.getD 0 (refOrd ref) ||| bit) }
  | none => s

/-- Clear bit j of a slot: the bitmap word only (R162). -/
def State.clearStd (j k ref : Nat) (s : State) : State :=
  s.modVersion k fun x =>
    { x with std := x.std.wr 0 (refOrd ref) (x.std.getD 0 (refOrd ref) &&& ~~~(BitVec.ofNat 16 (2 ^ j))) }

/-- Apply a slot write to a version, and to the forward slot of its successor when there is one (R169). -/
def State.withMirror (f : Nat → Nat → State → State) (k ref : Nat) (s : State) : State :=
  let x := s.version k
  let s := f k ref s
  match x.succ, x.fwdSlot.get? (refOrd ref) with
  | some v', some r' => (f (verKey (k / 4) v') r' s).bump .HQ_UPD_MIRRORED 0 0 1
  | _, _ => s

/-! ### Placement and footprint (R43, R48, R93) -/

/-- Ordinals of a die's range: units of 65,536 (R48). -/
def rangeUnits (u d : Nat) : Nat := u / 5 + (if d < u % 5 then 1 else 0)

/-- DRAM of a version's fixed objects on a die, in 4 KiB units: `r` ordinals, `n` clusters, `std` bitmaps, and the
forward map when a successor is built. -/
def fixedUnits (r n std : Nat) (fwd : Bool) : Nat :=
  kib4 256 + kib4 n + kib4 (32 * n) + 2 * kib4 (8 * r) + 2 * kib4 (r / 8) + std * kib4 (r / 8)
    + (if fwd then kib4 (16 * r) else 0)

def popcount16 (v : BitVec 16) : Nat := popcount 16 v.toNat

/-- DRAM that a version's objects hold on a die: fixed objects, header arrays and resident blocks. -/
def Version.unitsOn (x : Version) (b d : Nat) : Nat :=
  let r := x.ordHi.getD d 0 - x.ordLo.getD d 0
  let fixed := if x.holds then fixedUnits r x.count (popcount16 x.stdMask) x.succ.isSome else 0
  x.lists.vals.foldl (fun n l =>
    if l.die = d ∧ l.blocks ≠ [] then
      n + kib4 (32 * 2 ^ l.hdrCapLog2) + l.lowTabUnits + (if l.rstate = 3 then 0 else l.blocks.length * blockUnits b)
    else n) fixed

/-- DRAM that the hatpin set takes of a crown die: its slots are divided evenly (R144, log entry 17). -/
def State.hatpinOn (s : State) : Nat := (s.tbl.hatpin.charged + 4) / 5

/-- Free DRAM of a crown die in 4 KiB units: what no allocation and no partition grant holds, header arrays that a task may
still be reading among the allocations (R43, R44). -/
def State.freeOn (s : State) (d : Nat) : Nat :=
  let grants := (List.range 50).foldl
    (fun n p => if s.isOn fTN_PART_V p 0 then n + 256 * s.fld fTN_PART_GRANT_MIB p 0 else n) 0
  let held := s.idx.versions.foldl
    (fun n e => n + e.2.unitsOn (s.codeBits (e.1 / 4)) d + e.2.oldHdrs.getD 0 d) 0
  s.dieCapacity d - grants - held - s.hatpinOn

end Sys2Proof.Machine
end

