-- ==== Sys2Proof/Machine/Encode.lean ====
section
/-! DEFINITION. The re-rank format of a version and its record geometry (R115, R116), the projection unit (R126 to R131),
the rounding lanes (R125), and the re-rank score (R121). -/

namespace Sys2Proof.Machine

/-! ### The re-rank format -/

/-- CODE, BLOCK_SCALE and D of a version, as a die's copy holds them (R115). -/
structure RrFmt where
  code : Nat
  scaled : Bool
  d : Nat
  deriving DecidableEq, Repr

def State.pjFmt (s : State) (die k : Nat) : RrFmt :=
  ⟨s.fld fPJ_RR_FMT_CODE die k, s.isOn fPJ_RR_FMT_BLOCK_SCALE die k, s.fld fPJ_RR_FMT_DIMS die k⟩
def State.cfFmt (s : State) (ch k : Nat) : RrFmt :=
  ⟨s.fld fCF_RR_FMT_CODE ch k, s.isOn fCF_RR_FMT_BLOCK_SCALE ch k, s.fld fCF_RR_FMT_DIMS ch k⟩

/-- Code and scale bytes of a record. -/
def RrFmt.cb (f : RrFmt) : Nat := if f.code = 2 then f.d / 2 else f.d
def RrFmt.sb (f : RrFmt) : Nat := if f.scaled then f.d / 32 else 0

/-- G, GS and NG of R116. -/
def RrFmt.g (f : RrFmt) : Nat := min 8 (4048 / (f.cb + f.sb))
def RrFmt.gs (f : RrFmt) : Nat := f.g * f.cb + 8 * ((f.g * f.sb + 7) / 8)
def RrFmt.ng (f : RrFmt) : Nat := 4048 / f.gs

/-- Where the codes and the scales of record `i` start in its sector (R116). -/
def RrFmt.codeOff (f : RrFmt) (i : Nat) : Nat := 48 + i / f.g * f.gs + i % f.g * f.cb
def RrFmt.scaleOff (f : RrFmt) (i : Nat) : Nat := 48 + i / f.g * f.gs + f.g * f.cb + i % f.g * f.sb

/-- The record whose codes start at a byte. -/
def RrFmt.recordAt (f : RrFmt) (off : Nat) : Nat := (off - 48) / f.gs * f.g + (off - 48) % f.gs / f.cb

/-- DIMS is one that CODE allows (R115). -/
def RrFmt.dimsOk (f : RrFmt) : Bool :=
  match f.code with
  | 0 => f.d == 0
  | 1 => f.d % 64 == 0 && decide (64 ≤ f.d) && decide (f.d ≤ 2048)
  | 2 => f.d % 64 == 0 && decide (64 ≤ f.d) && decide (f.d ≤ 4096)
  | _ => false

/-- Replace the bytes from offset `o` on. -/
def patch (b : List Byte) (o : Nat) (x : List Byte) : List Byte := b.take o ++ x ++ b.drop (o + x.length)

/-- `n` zero bytes. -/
def zeros (n : Nat) : List Byte := List.replicate n 0

/-- Bytes 0x00 to 0x07 of a sector header (R117). -/
def RrFmt.headBytes (f : RrFmt) (index vslot : Nat) : List Byte :=
  leBytes 2 0xF1E6 ++ leBytes 1 (f.code + if f.scaled then 4 else 0) ++ leBytes 1 f.g ++ leBytes 2 f.d ++ leBytes 1 f.ng
    ++ leBytes 1 (index + 16 * vslot)

/-- An empty sector of records. -/
def RrFmt.blank (f : RrFmt) (index vslot : Nat) : List Byte := f.headBytes index vslot ++ zeros 4088

/-- Put record `i` into a sector and set its PRESENT bit. -/
def RrFmt.putRecord (f : RrFmt) (b : List Byte) (i : Nat) (rec : List Byte) : List Byte :=
  let b := patch b (f.codeOff i) (rec.take f.cb)
  let b := patch b (f.scaleOff i) (rec.drop f.cb)
  patch b 8 (leBytes 16 (fieldAt b 8 16 ||| 2 ^ i))

/-- Read record `i`: code bytes, then scale bytes. -/
def RrFmt.getRecord (f : RrFmt) (b : List Byte) (i : Nat) : List Byte :=
  (b.drop (f.codeOff i)).take f.cb ++ (b.drop (f.scaleOff i)).take f.sb

/-! ### FP16 data and the tables of the projection unit -/

/-- The FP16 elements of some bytes. -/
def halves : List Byte → List (BitVec 16)
  | a :: b :: t => (b ++ a) :: halves t
  | _ => []

def halfBytes (v : List (BitVec 16)) : List Byte := v.flatMap fun x => leBytes 2 x.toNat

/-- No NaN and no infinity (R130). -/
def allFinite (v : List (BitVec 16)) : Bool := v.all isFinite16

def State.pjScale (s : State) (die k d : Nat) : BitVec 16 :=
  BitVec.ofNat 16 (bits (s.reg .PJ_DSCALE die (k * 2048 + d / 2)).toNat (16 * (d % 2) + 15) (16 * (d % 2)))

/-- The zero point of a dimension in a die's table; int4 uses four bits of it. -/
def zpOf (w : W64) (code d : Nat) : Nat := bits w.toNat (8 * (d % 4) + 7) (8 * (d % 4)) % (if code = 2 then 16 else 256)

def State.pjZp (s : State) (die k d : Nat) : Nat :=
  zpOf (s.reg .PJ_ZP die (k * 1024 + d / 4)) (s.fld fPJ_RR_FMT_CODE die k) d
def State.cfZp (s : State) (ch k d : Nat) : Nat :=
  zpOf (s.reg .CF_ZP ch (k * 1024 + d / 4)) (s.fld fCF_RR_FMT_CODE ch k) d

/-! ### Rounding lanes (R125) -/

/-- A rounding lane: the projection unit of a die (16 lanes) or its gather and update engine (32). -/
def projLane (die pos : Nat) : Nat := Nat.pair (2 * die) (pos % 16)
def gatherLane (die pos : Nat) : Nat := Nat.pair (2 * die + 1) (pos % 32)

/-- A crown die's units are reset: the counters of their lanes are zero (R125), and the projection unit's buffer holds no
matrix (R126). -/
def State.resetLanes (die : Nat) (s : State) : State :=
  let mine := (List.range 16).map (projLane die) ++ (List.range 32).map (gatherLane die)
  { s with idx := { s.idx with lanes := s.idx.lanes.filter fun e => !mine.contains e.1 }
           qry := { s.qry with matrix := s.qry.matrix.del die, encTaken := s.qry.encTaken.del die } }

/-- Take one draw of a lane under a key. -/
def State.takeDraw (lane : Nat) (key : BitVec 32) (s : State) : BitVec 16 × State :=
  let n := s.idx.lanes.getD 0 lane
  (drawBits n key, { s with idx := { s.idx with lanes := s.idx.lanes.wr 0 lane (n + 1) } })

/-- Round each value with its draw: `f` gets the position, the value and the draw. -/
def State.roundAll {α β : Type} (lane : Nat → Nat) (key : BitVec 32) (f : Nat → α → BitVec 16 → β) (xs : List α)
    (s : State) : List β × State :=
  ((List.range xs.length).zip xs).foldl (fun acc p =>
    let r := acc.2.takeDraw (lane p.1) key
    (acc.1 ++ [f p.1 p.2 r.1], r.2)) ([], s)

/-- Stochastic rounding to an integer within limits; an infinity goes to its end (R124, R131). -/
def roundClamp (lo hi : Int) (off : Int) (y : BitVec 32) (r : BitVec 16) : Int × Bool :=
  match decode32 y with
  | .nan => (max lo (min hi Config.nanLevel), false)
  | .inf neg => (if neg then lo else hi, true)
  | .fin _ _ _ =>
    let z := srInt y r + off
    (max lo (min hi z), decide (z < lo) || decide (hi < z))

/-! ### Encoding (R126, R127, R129) -/

/-- Load a version's matrix into the projection unit, when another is there; encodes after a load are counted. -/
def State.loadMatrix (die k : Nat) (s : State) : State :=
  if s.qry.matrix.get? die = some k then
    { s with qry := { s.qry with encTaken := s.qry.encTaken.put die (s.qry.encTaken.getD 0 die + 1) } }
  else State.bump .PJ_MAT_LOADS die 0 1
    { s with qry := { s.qry with matrix := s.qry.matrix.put die k, encTaken := s.qry.encTaken.put die 0 } }

/-- y_j of R126. -/
def State.project (s : State) (die k b : Nat) (v : List (BitVec 16)) (j : Nat) : BitVec 32 :=
  let base := 64 * s.fld fPJ_MAT_MAT_ADDR die k
  fixedSum (((List.range v.length).zip v).map fun p =>
    fmul (widen p.2) (widen (BitVec.ofNat 16 (leNat (s.rdDram die (base + 2 * (p.1 * b + j)) 2)))))

def State.threshold (s : State) (die k b j : Nat) : BitVec 32 :=
  let base := 64 * s.fld fPJ_MAT_MAT_ADDR die k
  widen (BitVec.ofNat 16 (leNat (s.rdDram die (base + 2 * s.fld fPJ_MAT_D_IN die k * b + 2 * j) 2)))

/-- The binary code of an FP16 vector (R126), with the number of outputs that were NaN. -/
def State.encodeCode (s : State) (die k : Nat) (v : List (BitVec 16)) : Code × Nat :=
  let b := s.codeBits (k / 4)
  let ys := (List.range b).map fun j => (j, s.project die k b v j)
  (BitVec.ofNat 1024 (ys.foldl (fun n p => if fgt p.2 (s.threshold die k b p.1) then n + 2 ^ p.1 else n) 0),
    (ys.filter fun p => isNaN32 p.2).length)

/-- Cycles of the projection unit for a code and for a vector of `n` dimensions. -/
def codeCycles (d b : Nat) : Nat := (d * b + 1023) / 1024 + 40
def vecCycles (n : Nat) : Nat := (n + 15) / 16 + 40

/-- Encode to a binary code on a die, with its counters. PJ_BUSY_CYC counts encodes and quantisations; the time of a matrix
load, for which the spec gives no cycles, is not in it (R133, log entry 74). -/
def State.encCode (die k : Nat) (v : List (BitVec 16)) (s : State) : Code × State :=
  let s := s.loadMatrix die k
  let r := s.encodeCode die k v
  (r.1, (s.bump .PJ_SIGN_NAN die 0 r.2).bump .PJ_BUSY_CYC die 0 (codeCycles v.length (s.codeBits (k / 4))))

/-- One byte of a signed level. -/
def byteOfInt (z : Int) : Byte := BitVec.ofInt 8 z

/-- Quantise an FP16 query: u and x (R127). -/
def State.encQuery (die k : Nat) (key : BitVec 32) (v : List (BitVec 16)) (s : State) :
    (BitVec 16 × List Byte) × State :=
  let g := ((List.range v.length).zip v).map fun p => fmul (widen p.2) (widen (s.pjScale die k p.1))
  let top := g.foldl (fun m y => fmax m (fabs y)) 0
  let (u, lim) := if isZero32 top then ((0x3C00 : BitVec 16), false) else leastFp16 (fdiv top (ofInt32 127))
  let r := s.roundAll (projLane die) key (fun _ y r => roundClamp (-127) 127 0 (fdiv y (widen u)) r) g
  let s := r.2.bump .PJ_SR_DRAWS die 0 g.length
  let s := (s.bump .PJ_CLAMP_USCALE die 0 (if lim then 1 else 0)).bump .PJ_CLAMP_QUERY die 0
    (r.1.filter (·.2)).length
  ((u, r.1.map fun p => byteOfInt p.1), s.bump .PJ_BUSY_CYC die 0 (vecCycles v.length))

/-- h_b candidate of a dimension (R129 step 2). -/
def hCand (l z : Nat) (a : BitVec 32) : BitVec 32 :=
  if fgt a 0 && decide (z < l) then fdiv a (ofInt32 (l - z : Nat))
  else if fgt 0 a && decide (0 < z) then fdiv a (ofInt32 (-(z : Int)))
  else 0

/-- Levels packed as record bytes (R113). -/
def packLevels (code : Nat) : List Nat → List Byte
  | a :: b :: t => if code = 2 then BitVec.ofNat 8 (a + 16 * b) :: packLevels code t
      else BitVec.ofNat 8 a :: BitVec.ofNat 8 b :: packLevels code t
  | l => l.map (BitVec.ofNat 8)

/-- Quantise an FP16 insert vector into a record: code bytes, then scale bytes (R129). -/
def State.encRecord (die k : Nat) (key : BitVec 32) (v : List (BitVec 16)) (s : State) : List Byte × State :=
  let f := s.pjFmt die k
  let l := if f.code = 2 then 15 else 255
  let a := ((List.range v.length).zip v).map fun p => (p.1, fdiv (widen p.2) (widen (s.pjScale die k p.1)))
  let h := fun (b : Nat) => (a.filter fun p => p.1 / 64 == b).foldl (fun m p => fmax m (hCand l (s.pjZp die k p.1) p.2)) 0
  let ts := (List.range (f.d / 64)).map fun b =>
    if !f.scaled || isZero32 (h b) then ((0x3C00 : BitVec 16), false) else leastFp16 (h b)
  let t := fun (d : Nat) => (ts.getD (d / 64) (0x3C00, false)).1
  let r := s.roundAll (projLane die) key
    (fun d (p : Nat × BitVec 32) r => roundClamp 0 l (s.pjZp die k d) (fdiv p.2 (widen (t d))) r) a
  let s := r.2.bump .PJ_SR_DRAWS die 0 a.length
  let s := (s.bump .PJ_CLAMP_LEVEL die 0 (r.1.filter (·.2)).length).bump .PJ_CLAMP_TSCALE die 0 (ts.filter (·.2)).length
  (packLevels f.code (r.1.map fun p => p.1.toNat) ++ (if f.scaled then halfBytes (ts.map (·.1)) else []),
    s.bump .PJ_BUSY_CYC die 0 (vecCycles v.length))

/-! ### The re-rank score (R121) -/

/-- Level of dimension `d` in the code bytes of a record. -/
def levelAt (code : Nat) (rec : List Byte) (d : Nat) : Nat :=
  if code = 2 then (rec.getD (d / 2) 0).toNat / (if d % 2 = 1 then 16 else 1) % 16 else (rec.getD d 0).toNat

/-- P_b: the block sum of 64 dimensions (R118). -/
def blockSum (f : RrFmt) (zp : Nat → Nat) (rec : List Byte) (x : List Byte) (b : Nat) : Int :=
  (List.range 64).foldl (fun n i =>
    let d := 64 * b + i
    n + (x.getD d 0).toInt * ((levelAt f.code rec d : Int) - zp d)) 0

/-- Score of a record (code bytes, then scale bytes) for a query vector x with scale u (R121). -/
def rrScore (f : RrFmt) (zp : Nat → Nat) (rec : List Byte) (u : BitVec 16) (x : List Byte) : BitVec 32 :=
  let ps := (List.range (f.d / 64)).map (blockSum f zp rec x)
  if f.scaled then
    let ts := halves (rec.drop f.cb)
    let sum := ((List.range ps.length).zip ps).foldl
      (fun acc p => fadd acc (fmul (widen (ts.getD p.1 0)) (ofInt32 p.2))) 0
    plusZero (fmul (widen u) sum)
  else BitVec.ofInt 32 (ps.foldl (· + ·) 0)

/-- The kind of a format's scores (R121). -/
def RrFmt.kind (f : RrFmt) : Kind := if f.scaled then .float else .integer

/-- A scale is positive, finite and non-zero (R113). -/
def scaleOk (t : BitVec 16) : Bool := decide (0 < t.toNat) && decide (t.toNat ≤ 0x7BFF)

/-- A ready record is well formed: its length, and its block scales (R130). -/
def RrFmt.readyOk (f : RrFmt) (rec : List Byte) : Bool := rec.length == f.cb + f.sb && (halves (rec.drop f.cb)).all scaleOk

end Sys2Proof.Machine
end

