-- ==== Sys2Proof/Machine/Sectors.lean ====
section
/-! DEFINITION. Sector addresses: stripes and their engines (R184, R185), table areas (R138), sectors taken for re-rank
records and for lower copies (log entry 32), sidecars (R45), and the queue of sector writes. -/

namespace Sys2Proof.Machine

def stripeSet (lsn : Nat) : Nat := lsn / 31
def parityCh (c lsn : Nat) : Nat := (c + 1 + lsn % 31) % 32

/-- LSN of the member of stripe (e, k) on channel m. -/
def memberLsn (e k m : Nat) : Nat := 31 * e + (k + 63 - m) % 32

/-- Crown die to which a channel attaches: the stripe engine of the stripes whose parity it holds (R185). -/
def dieOfChannel (k : Nat) : Nat := if k < 7 then 0 else if k < 14 then 1 else if k < 20 then 2 else if k < 26 then 3 else 4

/-- W_max of R137. -/
def wMax (ty : Nat) (fp32 : Bool) : Nat :=
  match ty, fp32 with
  | 2, false => 960
  | 3, false => 960
  | 4, false => 640
  | 2, true => 640
  | 3, true => 640
  | 4, true => 384
  | _, _ => 1984

/-- The geometry of a table obeys R134 and R135. -/
def geomOk (g : W64) : Bool :=
  let cols := Fld.get fGE_TBL_GEOM_COLS g
  let w := Fld.get fGE_TBL_GEOM_W g
  let lo := Fld.get fGE_TBL_GEOM_COL_LO g
  let ty := Fld.get fGE_TBL_GEOM_TYPE g
  let bits := Fld.get fGE_TBL_GEOM_ROW_BITS g
  decide (64 ≤ cols) && decide (cols ≤ 4096) && cols % 64 == 0 && decide (64 ≤ w) && w % 64 == 0
    && decide (w ≤ wMax ty (Fld.get fGE_TBL_GEOM_MOM_FP32 g == 1)) && decide (ty ≤ 4) && lo % 64 == 0
    && decide (lo + w ≤ cols) && decide (1 ≤ Fld.get fGE_TBL_GEOM_G_M1 g)
    && decide (Fld.get fGE_TBL_GEOM_SLICE g ≤ Fld.get fGE_TBL_GEOM_G_M1 g)
    && decide (1 ≤ bits) && decide (bits ≤ 37)

def State.dataSectors (s : State) (n : Nat) : Nat := s.fld fCF_CAP_DATA_SECTORS n 0

/-- Key of the stripe lock of a data sector: (32E + k) mod 4,096 (R185). -/
def stripeLock (ch lsn : Nat) : Nat := (32 * stripeSet lsn + parityCh ch lsn) % 4096

/-- Queue a data-sector write at its stripe engine (R185); one behind another holder of its lock waits for it. -/
def State.queueWrite (w : SWrite) (s : State) : State :=
  let d := dieOfChannel (parityCh w.ch w.lsn)
  let held := (s.fl.swrites.getD [] d).any fun x => stripeLock x.ch x.lsn == stripeLock w.ch w.lsn
  let w := { w with behind := if held then some s.now else none }
  { s with fl := { s.fl with swrites := s.fl.swrites.upd [] d (· ++ [w]) } }

/-- Table sectors of a valid table version, as the LSNs that it takes on every channel (R138). -/
def State.tableSpan (s : State) (t v : Nat) : Nat × Nat :=
  let fp := s.isOn fGE_TBL_GEOM_MOM_FP32 t 0
  let c := match s.fld fGE_TBL_GEOM_TYPE t 0 with
    | 2 => if fp then 6 else 4
    | 3 => if fp then 6 else 4
    | 4 => if fp then 10 else 6
    | _ => 2
  let rps := 4048 / max 1 (s.fld fGE_TBL_GEOM_W t 0 * c)
  let sectors := (s.fld fGE_TBL_ROWS_ROWS t v + rps - 1) / max 1 rps
  let lo := 16 * s.fld fGE_TBL_VER_BG_BASE t v
  (lo, lo + (sectors + 31) / 32)

/-- End of the table area that an LSN lies in. -/
def State.tableEnd (s : State) (lsn : Nat) : Option Nat :=
  (List.range 128).findSome? fun i =>
    let p := s.tableSpan (i / 4) (i % 4)
    if (s.fld fGE_TBL_CTL_VALID (i / 4) 0).testBit (i % 4) ∧ p.1 ≤ lsn ∧ lsn < p.2 then some p.2 else none

/-- The first LSN from `lsn` on that lies in no table area. -/
def State.skipTables (s : State) : Nat → Nat → Nat
  | 0, lsn => lsn
  | n + 1, lsn => match s.tableEnd lsn with
    | some e => State.skipTables s n e
    | none => lsn

/-- Take a sector of a channel for records: a released one, or the lowest never used (log entry 32). -/
def State.takeLsn (n : Nat) (s : State) : Nat × State :=
  let c := s.chan n
  match c.released with
  | l :: ls => (l, s.setChan n { c with released := ls })
  | [] =>
    let l := s.skipTables 129 c.nextFree
    (l, s.setChan n { c with nextFree := l + 1 })

/-- The first LSN from `lsn` on where `n` sectors follow that lie in no table area. -/
def State.runFrom (s : State) (n : Nat) : Nat → Nat → Nat
  | 0, lsn => lsn
  | fuel + 1, lsn =>
    match (List.range n).findSome? fun i => s.tableEnd (lsn + i) with
    | some e => State.runFrom s n fuel e
    | none => lsn

/-- Take `n` consecutive sectors of a channel, never used before; none: the channel has not so many left. -/
def State.takeRun (ch n : Nat) (s : State) : Option (Nat × State) :=
  let c := s.chan ch
  let l := s.runFrom n 129 c.nextFree
  if l + n ≤ s.dataSectors ch then some (l, s.setChan ch { c with nextFree := l + n }) else none

/-! ### Planes (R182, R196) -/

/-- Where a sector lies in the data area, when its newest copy lies there. -/
def Chan.locOf (c : Chan) (i : Nat) : Option Nat := if (c.jIndex.get? i).isSome then none else c.map.get? (i / 16)

/-- The LUNs of a channel. -/
def Chan.lunList (c : Chan) : List Nat := (List.range c.targets).flatMap fun t => (List.range c.luns).map (4 * t + ·)

/-- Plane of a LUN (four of them) that serves a sector: that of its codeword, or of its journal record. -/
def Chan.planeOf (c : Chan) (i : Nat) : Nat :=
  match c.locOf i with
  | some loc => loc / 2 ^ 27 * 4 + i % 16 / 4
  | none => c.jIndex.getD 0 i % max 1 (4 * c.lunList.length)

/-- Put an operation at the end of a plane's queue. -/
def State.queueOp (n plane : Nat) (op : PlaneOp) (s : State) : State :=
  let c := s.chan n
  s.setChan n { c with planeQ := c.planeQ.upd [] plane (· ++ [op]) }

/-- Give sectors of a channel back. -/
def State.releaseLsns (ch : Nat) (ls : List Nat) (s : State) : State :=
  let c := s.chan ch
  s.setChan ch { c with released := c.released ++ ls }

/-- The sidecar of a record (R45). -/
def sidecarOf (ch lsn off : Nat) : W64 :=
  BitVec.ofNat 64 (2 ^ 63 + ch * 2 ^ 58 + lsn / 16 * 2 ^ 31 + lsn % 16 * 2 ^ 27 + off / 8 * 2 ^ 18)

def scV (w : W64) : Bool := w.msb
def scCh (w : W64) : Nat := bits w.toNat 62 58
def scLsn (w : W64) : Nat := 16 * bits w.toNat 57 31 + bits w.toNat 30 27
def scOff (w : W64) : Nat := 8 * bits w.toNat 26 18

/-! ### Messages of the request network (R178 to R180) -/

/-- A candidate request, bit for bit (R179). -/
def candWord (sidecar : W64) (die qslot index vslot tag : Nat) : BitVec 128 :=
  BitVec.ofNat 128 (sidecar.toNat * 2 ^ 64 + die * 2 ^ 61 + qslot * 2 ^ 48 + index * 2 ^ 44 + vslot * 2 ^ 42 + tag)

def CandReq.at (r : CandReq) (hi lo : Nat) : Nat := bits r.word.toNat hi lo
def CandReq.sidecar (r : CandReq) : W64 := BitVec.ofNat 64 (r.at 127 64)
def CandReq.lsn (r : CandReq) : Nat := scLsn r.sidecar
def CandReq.offset (r : CandReq) : Nat := scOff r.sidecar
def CandReq.die (r : CandReq) : Nat := r.at 63 61
def CandReq.qslot (r : CandReq) : Nat := r.at 60 48
def CandReq.index (r : CandReq) : Nat := r.at 47 44
def CandReq.vslot (r : CandReq) : Nat := r.at 43 42
def CandReq.tag (r : CandReq) : Nat := r.at 27 0

/-- A score record, bit for bit (R180): SCORE is 0 unless RSTATUS is 0. -/
def scoreWord (score : BitVec 32) (rstatus tag : Nat) : W64 :=
  BitVec.ofNat 64 ((if rstatus = 0 then score.toNat else 0) * 2 ^ 32 + rstatus * 2 ^ 28 + tag)

def ScoreRec.score (r : ScoreRec) : BitVec 32 := BitVec.ofNat 32 (bits r.word.toNat 63 32)
def ScoreRec.rstatus (r : ScoreRec) : Nat := bits r.word.toNat 31 28
def ScoreRec.tag (r : ScoreRec) : Nat := bits r.word.toNat 27 0

/-- The score record that answers a request. -/
def CandReq.record (r : CandReq) (ch : Nat) (score : BitVec 32) (rstatus : Nat) : ScoreRec :=
  { q := r.q, cand := r.cand, die := r.die, pn := r.pn, word := scoreWord score rstatus r.tag, ch := ch, lsn := r.lsn }

/-- A query-vector entry: a 64-byte header, then x (R178). -/
def vectorEntry (u : BitVec 16) (index vslot : Nat) (x : List Byte) : List Byte :=
  leBytes 2 u.toNat ++ leBytes 2 x.length ++ leBytes 1 index ++ leBytes 1 vslot ++ List.replicate 58 0 ++ x

/-- Granules of an entry (R178). -/
def granulesOf (bytes : Nat) : Nat := (bytes + 127) / 128

/-- Free the granules of a query in a channel once every request naming them has been answered (R178). -/
def State.freeGranules (q ch : Nat) (s : State) : State :=
  let c := s.chan ch
  let holds := fun (r : CandReq) => r.q == q
  let msg := fun (m : CuffMsg) => match m with
    | .req r => r.q == q
    | .load n _ _ => n == q
  let busy := c.reqQ.any holds || c.ctxs.any (fun e => e.2.joined.any holds) || c.inbox.any (fun e => e.2.any msg)
    || s.fl.scores.any fun e => e.2.any fun r => r.q == q && r.ch == ch
  if busy then s else s.setChan ch { c with qcache := c.qcache.filter fun e => e.2.q != q }

/-- Blocks of 65,536 tags that unanswered requests of other queries of a home die carry (R233). -/
def State.tagsHeld (s : State) (die q : Nat) : List Nat :=
  let mine := fun (r : CandReq) => if r.die = die ∧ r.q ≠ q then [r.tag / 65536] else []
  let msg := fun (m : CuffMsg) => match m with
    | .req r => mine r
    | .load _ _ _ => []
  (s.fl.chans.flatMap fun e => e.2.reqQ.flatMap mine ++ e.2.ctxs.flatMap (fun x => x.2.joined.flatMap mine)
    ++ e.2.inbox.flatMap fun x => x.2.flatMap msg)
  ++ s.fl.scores.flatMap fun e => e.2.flatMap fun r => if r.die = die ∧ r.q ≠ q then [r.tag / 65536] else []

/-- The block of tags of a query: that of its own number, or the next that no unanswered request carries (R233). -/
def State.tagBlock (s : State) (die q : Nat) : Nat :=
  let held := s.tagsHeld die q
  (((List.range (held.length + 1)).map fun i => (q + i) % 4096).find? fun b => !held.contains b).getD (q % 4096)

end Sys2Proof.Machine
end

