-- ==== Sys2Proof/Machine/Tier.lean ====
section
/-! DEFINITION. Residency of lists (11): lower copies, promotions, the promotion pool and its evictions, takeovers,
demotions (R222 to R230). -/

namespace Sys2Proof.Machine

/-- DRAM of a list's code blocks, in 4 KiB units. -/
def State.listUnits (s : State) (k : Nat) (l : IList) : Nat := l.blocks.length * blockUnits (s.codeBits (k / 4))

/-- Every list: version, cluster and list. -/
def State.allLists (s : State) : List (Nat × Nat × IList) :=
  s.idx.versions.flatMap fun e => e.2.lists.map fun l => (e.1, l.1, l.2)

/-- The pool of a tenant in use: lists with DEMAND = 1 charged to it that are not LOW (R229). -/
def State.promoUsed (s : State) (t : Nat) : Nat :=
  s.allLists.foldl (fun n e =>
    if e.2.2.demand ∧ e.2.2.holder = t ∧ e.2.2.rstate ≠ 3 then n + s.listUnits e.1 e.2.2 else n) 0

/-- Promotion pool of a tenant in 4 KiB units (TN_TIER_CFG). -/
def State.promoPool (s : State) (t : Nat) : Nat := 256 * s.fld fTN_TIER_CFG_POOL_MIB t 0

/-- A list that its tenant's pool may evict (R229). -/
def evictable (t : Nat) (l : IList) : Bool :=
  l.demand && !l.pinned && l.holds == 0 && l.holder == t && l.rstate == 0 && l.lowTier != 0

/-! ### Lower copies (R222, R223) -/

/-- Bytes that one slot takes of a plane: half a word at B = 128, else a whole one (R35, R36). -/
def slotBytes (b : Nat) : Nat := if b = 128 then 16 else 32

/-- What stands in the i-th place of a slot's width in a block's code area: slot i mod 256 in plane i / 256 (R35, R36). -/
def codeWord (x : Block) (i : Nat) : Nat := (x.codes.getD 0 (i % 256)).toNat / 2 ^ (256 * (i / 256))

/-- The bytes of a block's code area (R35, R36). -/
def codeArea (b : Nat) (x : Block) : List Byte :=
  (List.range (256 * (b / (8 * slotBytes b)))).flatMap fun i => leBytes (slotBytes b) (codeWord x i)

/-- The code of slot j in the bytes of a code area. -/
def areaCode (b : Nat) (area : List Byte) (j : Nat) : Code :=
  if b = 128 then BitVec.ofNat 1024 (fieldAt area (16 * j) 16)
  else BitVec.ofNat 1024 ((List.range (b / 256)).foldl (fun n p => n + fieldAt area (8192 * p + 32 * j) 32 * 2 ^ (256 * p)) 0)

def lowFlashAddr (ch lsn : Nat) : Nat := ch * 2 ^ 35 + lsn * 16
def lowCh (a : Nat) : Nat := bits a 39 35
def lowLsn (a : Nat) : Nat := bits a 34 4
def lowGrantOf (a : Nat) : Nat := bits a 39 34

/-- What a lower copy of `n` units is charged as, in units of 4 KiB: the remote tier is charged by 64 KiB (R216). -/
def lowCharge (tier n : Nat) : Nat := if tier = 2 then (n + 15) / 16 * 16 else n

/-- A grant that a tenant's lists may use (R230): the status that a write to it is refused with, or SUCCESS. -/
def State.grantStatus (s : State) (g t : Nat) : Nat :=
  if !s.isOn fTN_RG_V g 0 || s.fld fTN_RG_TENANT g 0 != t then stAccess
  else if s.fld fTN_RG_STATE g 0 ≠ 0 ∨ s.fld fXT_CONN_CFG_STATE (s.fld fTN_RG_CONN g 0) 0 ≠ 1 then stRevoked
  else stSuccess

/-- A work request on the bytes of a block's copy in a grant: WRITE with the area, or READ (R230, R282). -/
def State.grantWR (op : Nat) (k cl seq a n : Nat) (data : List Byte) (s : State) : State :=
  let g := lowGrantOf a
  let id := s.net.twrOrder
  let w : WR := { id := 0, op := op, conn := s.fld fTN_RG_CONN g 0, len := 4096 * n, data := data,
                  rHandle := s.fld fTN_RG_REGION g 0, rAddr := 4096 * (a % 2 ^ 34) }
  (s.modList k cl fun l => { l with wrs := l.wrs ++ [(seq, id)] }).post w

/-- Extents that lower copies take in a grant: offset and units. -/
def State.grantExtents (s : State) (g : Nat) : List (Nat × Nat) :=
  s.allLists.flatMap fun e =>
    if e.2.2.lowTier = 2 then
      e.2.2.blocks.filterMap fun b => match b.low with
        | some a => if lowGrantOf a = g then some (a % 2 ^ 34, blockUnits (s.codeBits (e.1 / 4))) else none
        | none => none
    else []

/-- The lowest free run of `n` units of a grant. -/
def State.grantFit (s : State) (g n : Nat) : Option Nat :=
  let ex := s.grantExtents g
  let ok := fun (o : Nat) => decide (o + n ≤ 16384 * s.fld fTN_RG_SIZE g 0)
    && ex.all fun e => decide (o + n ≤ e.1) || decide (e.1 + e.2 ≤ o)
  ((0 :: ex.map fun e => e.1 + e.2).filter ok).foldl (fun m o => match m with
    | none => some o
    | some x => some (min x o)) none

/-- Write one block's lower copy, at its place or at a new one; none: no space is left. -/
def State.writeLow (k cl : Nat) (l : IList) (b : Block) (s : State) : Option State :=
  let n := blockUnits (s.codeBits (k / 4))
  let ch := (cl + b.seq) % 32
  let got := match b.low with
    | some a => some (a, s)
    | none =>
      if l.lowTier = 1 then (s.takeRun ch n).map fun (r : Nat × State) => (lowFlashAddr ch r.1, r.2)
      else (s.grantFit l.lowGrant n).map fun o => (l.lowGrant * 2 ^ 34 + o, s)
  match got with
  | none => none
  | some (a, s) =>
    let owner := (s.version k).owner
    let area := codeArea (s.codeBits (k / 4)) b
    let put := fun (y : Block) => if y.seq = b.seq then { y with low := some a, lowFresh := true } else y
    let s := s.modList k cl fun l => { l with blocks := l.blocks.map put }
    let s := s.bump .GE_PF_BYTES_DOWN l.die 0 (4096 * n)
    some (if l.lowTier = 1 then
      forEach (List.range n) (fun i t =>
        t.queueWrite { ch := lowCh a, lsn := lowLsn a + i, data := (area.drop (4096 * i)).take 4096, old := none,
                       tenant := owner }) s
    else (s.grantWR 0x01 k cl b.seq a n area).bump .TN_ACC_REMOTE_BYTES owner 0 (4096 * n))

def State.writeLows (k cl : Nat) (l : IList) : List Block → State → Option State
  | [], s => some s
  | b :: bs, s => match s.writeLow k cl l b with
    | some t => State.writeLows k cl l bs t
    | none => none

/-- What has become of a list's writes to a grant: those still outstanding stay, and a block whose write failed has no lower
copy of its present codes (R223, R224). -/
def State.pruneWrs (k cl : Nat) (s : State) : State :=
  let l := (s.version k).list cl
  let done := l.wrs.filter fun w => (s.wr? w.2).isNone
  let gone := (done.filter fun w => s.net.failed.any (·.1 == w.2)).map (·.1)
  let ids := done.map (·.2)
  let s := { s with net := { s.net with staging := ids.foldl (fun t i => Tbl.del t i) s.net.staging
                                        failed := s.net.failed.filter fun e => !ids.contains e.1 } }
  s.modList k cl fun l =>
    { l with wrs := l.wrs.filter fun w => !ids.contains w.2
             blocks := l.blocks.map fun b => if gone.contains b.seq then { b with lowFresh := false } else b }

/-- DRAM of a list's lower-tier block table, in 4 KiB units. -/
def lowTableUnits (l : IList) : Nat := if l.blocks = [] then 0 else kib4 (8 * 2 ^ l.hdrCapLog2)

/-- Begin to demote a list: it stays scannable until the lower copies are durable (R223, R224). A list that has lower copies
goes to where they are; another to the tier and grant given. The status is SUCCESS, or that of a refused write. -/
def State.beginDemotion (k cl tier grant : Nat) (movers : List (Nat × Nat)) (s : State) : Nat × State :=
  let s := s.pruneWrs k cl
  let l := (s.version k).list cl
  let owner := (s.version k).owner
  let dead := l.lowTier == 2 && s.grantStatus l.lowGrant owner != stSuccess
  let had := l.blocks.filter (·.low.isSome)
  let n := blockUnits (s.codeBits (k / 4))
  let fresh := l.lowTier == 0 || dead
  let l := if fresh then { l with lowTier := tier, lowGrant := grant,
                                  blocks := l.blocks.map fun b => { b with low := none, lowFresh := false } } else l
  let st := if l.lowTier = 2 then s.grantStatus l.lowGrant owner else stSuccess
  let tab := lowTableUnits l
  let base := if dead then s.dropCharge owner 2 (lowCharge 2 n * had.length) else s
  let more := tab - l.lowTabUnits
  let need := lowCharge l.lowTier n * (l.blocks.filter (·.low.isNone)).length
  if st ≠ stSuccess then (st, s)
  else if !base.fits owner l.lowTier need || !base.fits owner 0 more then
    (stQuota, s.bump .TN_QUOTA_REFUSED owner (if base.fits owner l.lowTier need then 0 else l.lowTier) 1)
  else
    let a := base.freshAddr (4096 * tab) 8
    let l := { l with rstate := 2, movers := movers, lowTabUnits := tab,
                      lowTable := if l.lowTable = 0 && tab != 0 then a.1 else l.lowTable }
    let t := ((a.2.addCharge owner l.lowTier need).addCharge owner 0 more).modList k cl fun _ => l
    match t.writeLows k cl l (l.blocks.filter fun b => !b.lowFresh) with
    | some t => (stSuccess, t)
    | none => (stQuota, s.bump .TN_QUOTA_REFUSED owner l.lowTier 1)

/-! ### The promotion pool and its evictions (R229) -/

/-- Coldest first, then the lower cluster number (R229). -/
def colder (a b : Nat × Nat × IList) : Bool :=
  decide (a.2.2.heat < b.2.2.heat) || (a.2.2.heat == b.2.2.heat && decide (a.2.1 < b.2.1))

/-- Start evicting lists of a tenant's pool, coldest first, until `need` units will be free (R229). -/
def State.evict (t need : Nat) (s : State) : State :=
  let cands := sortBy colder (s.allLists.filter fun e => evictable t e.2.2)
  (cands.foldl (fun (acc : Nat × State) e =>
    if need ≤ acc.1 then acc
    else
      let r := acc.2.beginDemotion e.1 e.2.1 e.2.2.lowTier e.2.2.lowGrant []
      if r.1 = stSuccess then (acc.1 + acc.2.listUnits e.1 e.2.2, r.2.bump .TN_PF_POOL_EVICT t 0 1) else acc)
    (0, s)).2

/-- The part of the pool of `t` that evictions under way will free. -/
def State.promoLeaving (s : State) (t : Nat) : Nat :=
  s.allLists.foldl (fun n e =>
    if e.2.2.demand ∧ e.2.2.holder = t ∧ e.2.2.rstate = 2 then n + s.listUnits e.1 e.2.2 else n) 0

/-- The pool of `t` has room for `n` units more; if not, evictions begin, beyond those under way (R229). -/
def State.poolRoom (t n : Nat) (s : State) : Bool × State :=
  if s.promoPool t = 0 then (false, s)
  else if s.promoUsed t + n ≤ s.promoPool t then (true, s)
  else (false, s.evict t (s.promoUsed t + n - s.promoPool t - s.promoLeaving t))

/-- Write the headers of a list's blocks with new code addresses. -/
def State.rewriteHeaders (k cl : Nat) (addr : Block → Nat) (s : State) : State :=
  s.modList k cl fun l => { l with blocks := l.blocks.map fun b =>
    { b with codeAddr := addr b, hdrGen := (b.hdrGen + 1) % 256 } }

/-- DRAM is allocated for the blocks of a list that is being brought up, and their headers name it (R222, log entry 68). -/
def State.allocBlocks (k cl : Nat) (s : State) : State :=
  let l := (s.version k).list cl
  let bits := s.codeBits (k / 4)
  let at' := fun (b : Block) => s.placeAt b.seq (2 ^ 40) (4096 * blockUnits bits) (blockAlign bits)
  (forEach l.blocks (fun _ t => t.draw) s).rewriteHeaders k cl at'

/-- The sector reads of a block's lower copy are queued at their planes, in class `cls` of R182 (R226); `t` is the tenant
charged for the sectors. -/
def State.queuePromo (cls n a t : Nat) (s : State) : State :=
  let ch := lowCh a
  if s.fld fCF_SVC_STATE ch 0 = 0 then
    forEach (List.range n) (fun i u =>
      u.queueOp ch ((u.chan ch).planeOf (lowLsn a + i)) { cls := cls, kind := 3, num := lowLsn a + i, tenant := t }) s
  else s

/-- Start reading a block's lower copy: from its channel, in the second class for a demand and in the fourth for the
schedule, or from its grant (R226, R230). The spec names no class for a PROMOTE command's reads: the second (log entry 79). -/
def State.readLow (k cl cls : Nat) (b : Block) (s : State) : State :=
  let n := blockUnits (s.codeBits (k / 4))
  match b.low with
  | none => s
  | some a => if ((s.version k).list cl).lowTier = 2 then s.grantWR 0x03 k cl b.seq a n [] 
    else s.queuePromo cls n a (s.version k).owner

/-- Start a promotion of a LOW list for a tenant: charge it, and read the blocks, in class `cls` of R182 (R224, R226).
False: refused. -/
def State.startPromotion (k cl t cls : Nat) (demand pinned : Bool) (s : State) : Bool × State :=
  let l := (s.version k).list cl
  let n := s.listUnits k l
  let room := if demand then s.poolRoom t n else (true, s)
  if l.rstate = 3 ∧ !l.lost ∧ room.1 then
    let c := room.2.charge t 0 n
    if c.1 then
      let put := fun (l : IList) =>
        { l with rstate := 1, residency := 3, holder := t, demand := demand, pinned := pinned, holds := l.holds + 1,
                 wrs := [] }
      (true, forEach l.blocks (State.readLow k cl cls) ((c.2.modList k cl put).allocBlocks k cl))
    else (false, c.2)
  else (false, room.2)

/-- The commands that waited for a list's transition complete. -/
def State.endMovers (k cl status : Nat) (s : State) : State :=
  let l := (s.version k).list cl
  let one := fun (e : Nat × Nat) (t : State) =>
    match t.cmd? e.1 e.2 with
    | some m => if status = 0 then t.gFinish e.1 m {} else t.finish e.1 e.2 (Res.of status)
    | none => t
  forEach l.movers one (s.modList k cl fun l => { l with movers := [] })

/-- A demand or PROMOTE by `p` meets a DEMOTING list (R225). -/
def State.takeover (k cl p : Nat) (demand : Bool) (s : State) : State :=
  let l := (s.version k).list cl
  let stop := fun (l : IList) => { l with rstate := 0, residency := 0 }
  let done := fun (t : State) => t.endMovers k cl 0
  if p = l.holder then done (s.modList k cl stop)
  else
    let n := s.listUnits k l
    let room := if demand then s.poolRoom p n else (true, s)
    let fits := (room.2.dropCharge l.holder 0 n).fits p 0 n
    if room.1 && fits then
      let s := ((room.2.dropCharge l.holder 0 n).addCharge p 0 n).bump .TN_RES_CREDITED l.holder 0 1
      done ((s.modList k cl fun l => { stop l with holder := p, demand := demand }).bump .TN_RES_TAKEN p 0 1)
    else room.2.bump .TN_RES_TAKE_REFUSED p 0 1

/-- Demand promotion for a tenant as a pair is selected (R226). -/
def State.demand (k cl t : Nat) (s : State) : State :=
  let l := (s.version k).list cl
  if l.rstate = 3 then
    let r := s.startPromotion k cl t 2 true false
    if r.1 then r.2.bump .TN_PF_DEMAND t 0 1 else r.2
  else if l.rstate = 2 then s.takeover k cl t true
  else s

end Sys2Proof.Machine
end

