-- ==== Sys2Proof/Machine/Gather.lean ====
section
/-! DEFINITION. The gathering engines (03) and the progress of a query's scan stage: posting and holding pairs, triggers,
reports, widening, the flush and the cut (R63 to R66, R69, R84, R105, R106, R110, R231). -/

namespace Sys2Proof.Machine

def State.modQuery (q : Nat) (f : Query → Query) (s : State) : State :=
  match s.query q with
  | some x => s.setQuery q (f x)
  | none => s

/-- The version a query captured. -/
def Query.ver (x : Query) : Nat := verKey x.index x.vslot

/-- Add completion flags (R15). -/
def Query.flag (x : Query) (f : Nat) : Query := { x with flags := x.flags ||| BitVec.ofNat 16 f }

/-- Entries skipped: PARTIAL follows (R62, R180). -/
def Query.skip (x : Query) (n : Nat) : Query := { x.flag flPartial with skipped := x.skipped + n }

/-- The band of a task that waits in its queue as resumable: none. -/
def noBand : Nat := 50

/-! ### Pools (R66) -/

/-- Bands a partition owns in the composition in force, in service or not. -/
def State.bandsOwned (s : State) (pn : Nat) : Nat :=
  ((List.range 50).filter fun g => s.isOn fTN_BAND_V g 0 && s.fld fTN_BAND_PN g 0 == pn).length

def State.poolSize (s : State) (pn : Nat) : Nat := 262144 * s.bandsOwned pn / 50

def State.pairPool (s : State) (die pn : Nat) : List Pair :=
  (s.qry.gqueues.filter fun g => g.die == die && g.key.pn == pn).flatMap (·.pairs)

/-! ### Gathering queues -/

def State.gq (s : State) (die : Nat) (key : GKey) : GQueue :=
  (s.qry.gqueues.find? fun g => g.die == die && g.key == key).getD { die := die, key := key }

/-- Replace a queue; an IDLE queue holds nothing and is not listed. -/
def State.setGq (g : GQueue) (s : State) : State :=
  let rest := s.qry.gqueues.filter fun h => !(h.die == g.die && h.key == g.key)
  let keep := if g.pairs = [] ∧ g.resumable = [] then rest else rest ++ [g]
  { s with qry := { s.qry with gqueues := keep } }

/-- Trigger a queue; the first trigger stays (R64). -/
def State.trigger (die : Nat) (key : GKey) (t : Trig) (s : State) : State :=
  let g := s.gq die key
  if g.trig.isSome then s else s.setGq { g with trig := some t, trigTime := s.now }

/-- The pair holding the lowest LB; between equal ones the earlier T_post. -/
def lowestLb (ps : List Pair) : Option Pair :=
  ps.foldl (fun o p => match o with
    | none => some p
    | some b => if p.lb < b.lb ∨ (p.lb = b.lb ∧ p.tPost < b.tPost) then some p else some b) none

/-- FILL, then DEADLINE or WINDOW, on one queue (R64). -/
def State.checkQueue (die : Nat) (key : GKey) (s : State) : State :=
  let g := s.gq die key
  let s := if s.fld fBD_GQ_CFG_FILL_TARGET die key.pn ≤ g.pairs.length then s.trigger die key .fill else s
  match lowestLb g.pairs with
  | some p => if p.lb ≤ s.now then s.trigger die key (if p.byDeadline then .deadline else .window) else s
  | none => s

/-- PRESSURE: the pool is more than 7/8 full, and the queue with its oldest pair is triggered (R64). -/
def State.checkPressure (die pn : Nat) (s : State) : State :=
  let pool := s.pairPool die pn
  if 7 * s.poolSize pn < 8 * pool.length then
    let oldest := pool.foldl (fun n p => min n p.tPost) s.now
    match s.qry.gqueues.find? fun g => g.die == die && g.key.pn == pn && g.pairs.any (·.tPost == oldest) with
    | some g => s.trigger die g.key .pressure
    | none => s
  else s

/-- L_est in ns: the list's blocks clocked once, and the margin (R64). -/
def State.lEst (s : State) (die k cl pn : Nat) : Nat :=
  let b := s.codeBits (k / 4)
  let cycles := ((s.version k).list cl).blocks.length * (if b = 128 then 128 else b)
  cycles * 5 / 4 + 100 * s.fld fBD_GQ_CFG_LAUNCH_MARGIN die pn

/-- A pair joins the queue of its key (R63, R64). -/
def State.joinQueue (q rank die : Nat) (key : GKey) (s : State) : State :=
  match s.query q with
  | none => s
  | some x =>
    let w := us * s.fld fBD_GQ_CFG_WINDOW_US die key.pn
    let late := s.now + (if x.isShadow then 16 * w else w)
    let early := x.tSd.map (· - s.lEst die x.ver key.cluster key.pn)
    let byDl := early.any fun e => decide (e ≤ late)
    let p : Pair := { q := q, rank := rank, tPost := s.now, lb := min late (early.getD late), byDeadline := byDl,
                      filter := x.filter, shadow := x.isShadow }
    let g := s.gq die key
    let s := (s.setGq { g with pairs := g.pairs ++ [p] }).bump .BD_GQ_POSTED die key.pn 1
    let s := s.raise .BD_GQ_POOL_MAX die key.pn (s.pairPool die key.pn).length
    (s.checkQueue die key).checkPressure die key.pn

/-- A pair is marked as reported, with its allowed count (R105, R106). -/
def State.markReport (q rank allowed : Nat) (s : State) : State :=
  s.modQuery q fun x =>
    if x.outstanding.contains rank then
      { x with outstanding := x.outstanding.filter (· != rank), reported := x.reported + 1,
               allowed := x.allowed + allowed }
    else x

/-- A pair ends without a task: its list counts as not scanned, and no entry as skipped (R106, R227, R230, R253). -/
def State.pairGone (q rank : Nat) (s : State) : State :=
  match s.query q with
  | none => s
  | some x =>
    (s.setQuery q { x.flag flPartial with notScanned := x.notScanned + 1 }).markReport q rank 0

/-- Post the pair of a rank: promote its list if need be, then queue it on its list die, or hold it (R63, R66, R226). -/
def State.postPair (rank q : Nat) (s : State) : State :=
  match s.query q with
  | none => s
  | some x =>
    let cl := x.ranks.getD rank 0
    let key : GKey := { pn := x.pn, index := x.index, vslot := x.vslot, cluster := cl }
    let heat := fun (l : IList) => { l with heat := min 65535 (l.heat + 1) }
    let s := (s.modList x.ver cl heat).setQuery q { x with outstanding := x.outstanding ++ [rank] }
    let l := (s.version x.ver).list cl
    if l.lost ∧ l.rstate = 3 then s.pairGone q rank
    else
      let s := s.demand x.ver cl x.tenant
      if (s.pairPool l.die x.pn).length < s.poolSize x.pn then s.joinQueue q rank l.die key
      else
        let h : Held := { q := q, rank := rank, die := l.die, key := key }
        let s := s.bump .BD_GQ_POOL_HOLD l.die x.pn 1
        { s with qry := { s.qry with held := s.qry.held.put x.home ((s.qry.held.getD [] x.home) ++ [h]) } }

/-! ### Merge rows and the flush (R84) -/

/-- QUERIES_OPEN of a die: the queries that hold a merge row there. -/
def State.noteMerge (die : Nat) (s : State) : State :=
  s.setFld fSE_MG_STATUS_QUERIES_OPEN die 0
    (s.qry.queries.filter fun e => (e.2.dieRows.get? die).isSome).length

/-- The dies that hold a merge row for a query, or a partial list about to join one. -/
def State.rowDies (s : State) (q : Nat) (x : Query) : List Nat :=
  (List.range 5).filter fun d => (x.dieRows.get? d).isSome || ((s.qry.partials.getD [] d).any (·.q == q))

/-- Count a selection of a die's merge unit (R92). -/
def State.noteSelect (die : Nat) (sel : Selected) (s : State) : State :=
  let s := (s.bump .SE_DUP_DROPPED_DIE die 0 sel.dropped).bump .SE_REFILL_PASSES_DIE die 0 sel.work.refills
  let s := (s.bump .SE_MG_REPEAT_PASSES die 0 sel.work.repeats).bump .SE_MG_KEY_PASSES die 0 sel.work.keys
  let s := s.bump .SE_MG_PIECES die 0 sel.work.pieces
  ((s.bump .SE_MG_APPROX die 0 (if sel.approx then 1 else 0)).bump .SE_MG_BUSY_CYC die 0 sel.work.cycles).progressed 2 die 1

/-- The NaNs among the scores of a row that a die's merge unit selects from (R74). -/
def State.noteNans (die : Nat) (kind : Kind) (row : List Elem) (s : State) : State :=
  s.bump .SE_NAN die 0 (row.filter fun e => kind == .float && isNan32 e.score).length

/-- Every posted pair has reported: the home die sends the flush (R84). -/
def State.flush (q : Nat) (s : State) : State :=
  match s.query q with
  | none => s
  | some x =>
    let ds := s.rowDies q x
    s.setQuery q { x with flushing := ds, stage := if ds = [] then .homeReady else .flush }

/-- A shadow posts its next pairs: at most 64 posted and not launched, and only into pools at most half full (R110). -/
def State.postShadow (q : Nat) : Nat → State → State
  | 0, s => s
  | n + 1, s =>
    match s.query q with
    | none => s
    | some x =>
      let waiting := ((s.qry.gqueues.flatMap (·.pairs)).filter (·.q == q)).length
      let cl := x.ranks.getD x.nextPost 0
      let die := ((s.version x.ver).list cl).die
      if x.nextPost < x.ranks.length ∧ waiting < 64 ∧ 2 * (s.pairPool die x.pn).length ≤ s.poolSize x.pn then
        State.postShadow q n ((s.setQuery q { x with nextPost := x.nextPost + 1, pCur := x.nextPost + 1 }).postPair
          x.nextPost q)
      else s

/-- Shadows of a partition post again where its pools have room for them (R110). -/
def State.resumeShadows (pn : Nat) (s : State) : State :=
  forEach ((s.qry.queries.filter fun e => e.2.isShadow && e.2.pn == pn && e.2.stage == .scan).map (·.1))
    (fun q t => t.postShadow q 64) s

/-- Once every posted pair has reported: widen, or flush (R106). A shadow goes on posting until it has posted all. -/
def State.settleScan (q : Nat) : Nat → State → State
  | 0, s => s
  | n + 1, s =>
    match s.query q with
    | none => s
    | some x =>
      if x.stage = .scan ∧ x.outstanding = [] then
        if x.isShadow ∧ x.nextPost < x.ranks.length then
          let t := s.postShadow q 64
          if ((t.query q).map (·.nextPost)) = some x.nextPost then s else State.settleScan q n t
        else
          let short := decide (x.allowed < x.k)
          let open_ := x.tSd.all fun t => decide (s.now < t)
          if short && decide (x.pCur < x.ceil) && open_ then
            let hi := min (x.pCur + x.wstep) x.ceil
            let s := s.setQuery q { x.flag flWidened with pCur := hi, widened := true }
            let s := (s.bump .BD_WD_QUERIES x.home 0 (if x.widened then 0 else 1)).bump .BD_WD_STEPS x.home 0 1
            let s := s.bump .BD_WD_PAIRS x.home 0 (hi - x.pCur)
            State.settleScan q n
              (forEach ((List.range (hi - x.pCur)).map (x.pCur + ·)) (fun r t => t.postPair r q) s)
          else
            let s := s.bump .BD_WD_CEIL_STOP x.home 0 (if short && x.ceil != 0 && decide (x.ceil ≤ x.pCur) then 1 else 0)
            let s := s.bump .BD_WD_DEADLINE_STOP x.home 0 (if short && decide (x.pCur < x.ceil) then 1 else 0)
            s.flush q
      else s

/-- A pair reports, and the query goes on if it was the last one awaited. -/
def State.report (q rank allowed : Nat) (s : State) : State := (s.markReport q rank allowed).settleScan q 4097

/-- Post a query's first pairs, in probe-rank order (R71). -/
def State.postFirst (q : Nat) (s : State) : State :=
  match s.query q with
  | none => s
  | some x =>
    if x.isShadow then (s.postShadow q 64).settleScan q 4097
    else (forEach (List.range x.pCur) (fun r t => t.postPair r q) s).settleScan q 4097

/-! ### Leaving the scan (R69, R231) -/

/-- Take pairs out of the gathering queues. A triggered queue that is left with none is IDLE, and the time it spent without a
context is counted (R72); among the others of its pool, the one that now holds the oldest pair may be pressed (R64). -/
def State.takeOut (gone : GKey → Pair → Bool) (s : State) : State :=
  let thin := fun (g : GQueue) => { g with pairs := g.pairs.filter fun p => !gone g.key p }
  let hit := s.qry.gqueues.filter fun g => g.pairs.any (gone g.key)
  let keep := s.qry.gqueues.filterMap fun g =>
    let h := thin g
    if h.pairs ≠ [] then some h else if h.resumable = [] then none else some { h with trig := none }
  let s := { s with qry := { s.qry with gqueues := keep } }
  let idle := hit.filter fun g => g.trig.isSome && (thin g).pairs == []
  let s := forEach idle (fun g t => t.bump .BD_GQ_NOCTX_NS g.die g.key.pn (t.now - g.trigTime)) s
  forEach ((hit.map fun g => (g.die, g.key.pn)).eraseDups) (fun p t => t.checkPressure p.1 p.2) s

/-- Remove a query's pairs from every queue and hold; those removed, as (rank, cluster). -/
def State.removePairs (q : Nat) (s : State) : List (Nat × Nat) × State :=
  let gone := (s.qry.gqueues.flatMap fun g => (g.pairs.filter (·.q == q)).map fun p => (p.rank, g.key.cluster))
    ++ s.qry.held.flatMap fun e => (e.2.filter (·.q == q)).map fun h => (h.rank, h.key.cluster)
  let held := s.qry.held.map fun e => (e.1, e.2.filter (·.q != q))
  (gone, { s with qry := { s.qry with held := held } }.takeOut fun _ p => p.q == q)

/-- A query's lanes become inactive at once and their rows are discarded (R69); the tasks and ranks they were of. -/
def State.dropLanes (q : Nat) (s : State) : List (Task × Nat) × State :=
  let hit := s.qry.tasks.flatMap fun t => (t.lanes.filter fun l => l.q == q && l.active).map fun l => (t, l.rank)
  let off := fun (l : Lane) => if l.q = q then { l with active := false, row := [], queued := false } else l
  (hit, { s with qry := { s.qry with tasks := s.qry.tasks.map fun t => { t with lanes := t.lanes.map off } } })

/-- LIVE_COUNT of the blocks of its list that a task has not completed (R231). -/
def State.notDone (s : State) (t : Task) : Nat :=
  let v := s.version (verKey t.key.index t.key.vslot)
  ((v.list t.key.cluster).blocks.filter fun b => decide (t.nextSeq ≤ b.seq)).foldl (fun n b => n + v.liveIn b) 0

/-- The cut of the scan stage: pairs removed, lanes inactive, what was not scanned counted (R231). -/
def State.cutScan (q : Nat) (s : State) : State :=
  match s.query q with
  | none => s
  | some x =>
    let v := s.version x.ver
    let gone := s.removePairs q
    let lanes := gone.2.dropLanes q
    let live := gone.1.foldl (fun n p => n + v.liveOf (v.list p.2)) 0
      + lanes.1.foldl (fun n t => n + s.notDone t.1) 0
    let lists := gone.1.length + lanes.1.length
    let x := if lists = 0 then x else { x.skip live with notScanned := x.notScanned + lists }
    (lanes.2.setQuery q { x with outstanding := [] }).resumeShadows x.pn

end Sys2Proof.Machine
end

