-- ==== Sys2Proof/Machine/Group.lean ====
section
/-! DEFINITION. Group commands on a head device: shards and replicas (R171, R172), the merge of member answers (R87, R262),
gauntlet messages (R334) and leases on request state (R313 to R315). -/

namespace Sys2Proof.Machine

/-! ### Shards and members -/

/-- State and member of replica slot r of shard sh (HQ_GRP_SHARD). -/
def State.replica (s : State) (sh r : Nat) : Nat × Nat :=
  match r with
  | 0 => (s.fld fHQ_GRP_SHARD_R0_STATE sh 0, s.fld fHQ_GRP_SHARD_R0_MEMBER sh 0)
  | 1 => (s.fld fHQ_GRP_SHARD_R1_STATE sh 0, s.fld fHQ_GRP_SHARD_R1_MEMBER sh 0)
  | 2 => (s.fld fHQ_GRP_SHARD_R2_STATE sh 0, s.fld fHQ_GRP_SHARD_R2_MEMBER sh 0)
  | _ => (0, 0)

def State.setReplica (sh r st : Nat) (s : State) : State :=
  match r with
  | 0 => s.setFld fHQ_GRP_SHARD_R0_STATE sh 0 st
  | 1 => s.setFld fHQ_GRP_SHARD_R1_STATE sh 0 st
  | _ => s.setFld fHQ_GRP_SHARD_R2_STATE sh 0 st

/-- Live replica slots of a shard, in order. -/
def State.liveReplicas (s : State) (sh : Nat) : List Nat := (List.range 3).filter fun r => (s.replica sh r).1 == 1

/-- The member that serves a shard, when its serving replica is live (R172, R260). -/
def State.server (s : State) (sh : Nat) : Option Nat :=
  let r := s.replica sh (s.fld fHQ_GRP_SHARD_SERVE sh 0)
  if s.isOn fHQ_GRP_SHARD_V sh 0 ∧ r.1 = 1 then some r.2 else none

def State.memberConn (s : State) (m : Nat) : Nat := s.fld fHQ_GRP_MEMBER_CONN m 0

/-- The member reached over a connection. -/
def State.memberOf (s : State) (conn : Nat) : Option Nat :=
  firstFit (fun m => s.isOn fHQ_GRP_MEMBER_V m 0 && m != s.selfMember && s.memberConn m == conn) 64

/-- A mask of shard numbers. -/
def shardMask (shards : List Nat) : Nat := shards.foldl (fun n sh => n ||| 2 ^ sh) 0

/-! ### Group jobs -/

def State.group? (s : State) (seq : Nat) : Option GroupJob := s.hq.groups.find? (·.seq == seq)

def State.setGroup (g : GroupJob) (s : State) : State :=
  { s with hq := { s.hq with groups := s.hq.groups.map fun x => if x.seq = g.seq then g else x } }

def State.dropGroup (seq : Nat) (s : State) : State :=
  { s with hq := { s.hq with groups := s.hq.groups.filter (·.seq != seq) } }

/-! ### Undoing updates (R168) -/

def State.job? (s : State) (seq : Nat) : Option UpdJob := s.idx.updates.find? (·.seq == seq)

def State.setJob (j : UpdJob) (s : State) : State :=
  { s with idx := { s.idx with updates := s.idx.updates.map fun x => if x.seq = j.seq then j else x } }

def State.dropJob (seq : Nat) (s : State) : State :=
  { s with idx := { s.idx with updates := s.idx.updates.filter (·.seq != seq) } }

/-- A refused SEND-borne or torn update leaves its entries as R168 says: those of its new slots that have no tombstone yet get
one, and are counted. -/
def State.rollback (slots : List (Nat × Nat)) (s : State) : State :=
  let live := slots.filter fun p => !(s.version p.1).tomb.contains (refOrd p.2)
  let s := forEach live (fun p t => t.tombstone p.1 p.2) s
  let n := live.length
  if n = 0 then s
  else (s.bump .HQ_UPD_ROLLBACK 0 0 n).log (mkErr 0x0411 4 0 ((live.headD (0, 0)).1 / 4) n 0 0)

/-- Close the gap that a slot never written leaves: it counts as filled, and tombstoned (R168). -/
def State.fillGap (n : NewSlot) (s : State) : State :=
  if n.written then s
  else s.modBlock n.ver n.cluster n.seq (Block.written n.slot 0 (s.version n.ver).aliasOrds 0)

/-- The flash units that an update has reserved and no sector has taken are given back (R159). -/
def State.dropReserved (j : UpdJob) (s : State) : State :=
  forEach j.reserved (fun e t => t.dropCharge e.1 1 e.2) s

/-- Break off an update in progress: the failure rule of R168, its reference and its reserve. -/
def State.undoJob (j : UpdJob) (s : State) : State :=
  let s := forEach j.slots State.fillGap (s.dropReserved j)
  let s := s.rollback (j.slots.map fun n => (n.ver, mkRef n.cluster n.ord))
  let drop := fun (r : AppendReq) => r.seq != j.seq
  let s := { s with fl := { s.fl with appendQ := s.fl.appendQ.map fun (e : Nat × List AppendReq) => (e.1, e.2.filter drop) } }
  (s.dropJob j.seq).releaseRef j.ver

/-- Roll back what the update log keeps of a job: its slots are tombstoned, and the slots it retired leave the retire
queue (R168, R335). -/
def State.undoKept (key : W64) (s : State) : State :=
  forEach (s.idx.updateLog.filter (·.key == key)) (fun k t =>
    let t := t.rollback k.slots
    let gone := fun (r : Retired) => k.retired.contains (r.ver, r.ref)
    let held := t.idx.retireQ.filter gone
    let t := { t with idx := { t.idx with retireQ := t.idx.retireQ.filter fun r => !gone r } }
    let t := forEach held (fun r t => t.releaseRef r.ver) t
    { t with idx := { t.idx with updateLog := t.idx.updateLog.filter (·.key != key) } }) s

/-- What the update log keeps of a job is no longer needed (R333). -/
def State.dropKept (key : W64) (s : State) : State :=
  { s with idx := { s.idx with updateLog := s.idx.updateLog.filter (·.key != key) } }

/-! ### What a job has been sent to -/

/-- Members that hold a live or copying replica of a shard (R171). -/
def State.replicaMembers (s : State) (sh : Nat) : List Nat :=
  ((List.range 3).filter fun r => (s.replica sh r).1 == 1 || (s.replica sh r).1 == 2).map fun r => (s.replica sh r).2

/-- Connections of the members a command was fanned out to. -/
def State.fannedConns (s : State) (g : GroupJob) : List Nat :=
  let ms := if g.opcode = 0x01 then g.awaited.map (·.1) else s.replicaMembers g.shard
  (ms.filter (· != s.selfMember)).map s.memberConn

/-! ### Leases (R313, R314) -/

/-- A lease message (R313); one that refers to no state has offset and length 0. -/
def leaseBytes (lop status holder epoch : Nat) (key : W64) (off len : Nat := 0) : List Byte :=
  leBytes 1 lop ++ leBytes 1 status ++ leBytes 1 holder ++ leBytes 1 0 ++ leBytes 4 epoch ++ leBytes 8 key.toNat
    ++ leBytes 4 off ++ leBytes 4 len ++ zeros 8

def State.leased (s : State) : Bool := s.isOn fTN_LEASE_CFG_EN 0 0 && s.isOn fTN_LEASE_CFG_REMOTE 0 0

def State.lease? (s : State) (key : W64) : Option HeadLease := s.ten.headLeases.find? (·.key == key)

def State.setLease (l : HeadLease) (s : State) : State :=
  { s with ten := { s.ten with headLeases := s.ten.headLeases.map fun x => if x.key = l.key then l else x } }

def State.dropLease (key : W64) (s : State) : State :=
  { s with ten := { s.ten with headLeases := s.ten.headLeases.filter (·.key != key) } }

/-- The head sends a lease message of its own; the time is kept until the pool confirms it. -/
def State.sendLease (lop epoch : Nat) (key : W64) (s : State) (off len : Nat := 0) : State :=
  let holder := if lop = 3 then s.fld fTN_LEASE_CFG_POOL_MEMBER 0 0 else s.selfMember
  let s := s.postSend (s.fld fTN_LEASE_CFG_POOL_CONN 0 0) 4 false (leaseBytes lop 0 holder epoch key off len)
  match s.lease? key with
  | some l => s.setLease { l with lastSent := s.now, pendingEpoch := epoch }
  | none => s

/-- Release the lease of a command that completes. -/
def State.releaseLease (key : W64) (s : State) : State :=
  match s.lease? key with
  | some l => (s.sendLease 5 l.epoch key).dropLease key
  | none => s

/-- Where the states of the head's leases lie in the pool region: places of 256 bytes, the lowest that no other lease has
(log entry 30). -/
def State.statePlace (s : State) : Nat :=
  let taken := s.ten.headLeases.map (·.off)
  4 * (firstFit (fun i => !taken.contains (4 * i)) (taken.length + 1)).getD 0

/-- A phase has ended: the state goes to the pool, which becomes its holder. The state bytes are the job's descriptor
(log entry 30). -/
def State.park (g : GroupJob) (s : State) : State :=
  match s.lease? g.key with
  | some l =>
    if l.st = 1 then
      let c := s.fld fTN_LEASE_CFG_POOL_CONN 0 0
      let w : WR := { id := 0, op := 0x01, conn := c, len := g.bytes.length, data := g.bytes,
                      rAddr := 64 * l.off, job := some g.seq, rHandle := s.fld fTN_LEASE_CFG_POOL_REGION 0 0 }
      let s := (s.post w).sendLease 3 (l.epoch + 1) g.key l.off g.bytes.length
      s.setLease { l with st := 2, epoch := l.epoch + 1, pendingEpoch := l.epoch + 1, lastSent := s.now }
    else s
  | none => s

/-- The head may act on a job's state: it holds the lease, or needs none. -/
def State.mayAct (s : State) (g : GroupJob) : Bool := (s.lease? g.key).all (·.st == 1)

/-- The head wants to act on parked state. -/
def State.claim (g : GroupJob) (s : State) : State :=
  match s.lease? g.key with
  | some l => if l.st = 2 then (s.sendLease 4 (l.epoch + 1) g.key).setLease
      { l with st := 0, pendingEpoch := l.epoch + 1, lastSent := s.now } else s
  | none => s

/-! ### Answers and their merge (R16, R87, R262) -/

/-- Shards named missing: without a contributing member (R262). -/
def GroupJob.missingShards (g : GroupJob) : List Nat :=
  g.shards.filter fun sh => !g.answers.any fun a => a.status == 0 &&
    g.awaited.any fun w => w.1 == a.member && w.2.contains sh

/-- A record of an answer. -/
structure GRec where
  member : Nat
  pos : Nat
  extId : W64
  score : BitVec 32
  rflags : Nat
  stage : Nat
  deriving DecidableEq, Repr

/-- The records of an answer; a sentinel is discarded (R88). -/
def GroupAns.recs (a : GroupAns) : List GRec :=
  let one := fun (i : Nat) =>
    let b := (a.records.drop (16 * i)).take 16
    ({ member := a.member, pos := i, extId := BitVec.ofNat 64 (fieldAt b 0 8), score := BitVec.ofNat 32 (fieldAt b 8 4),
       rflags := fieldAt b 12 2, stage := fieldAt b 14 2 } : GRec)
  ((List.range (a.records.length / 16)).map one).filter fun r => r.extId != BitVec.allOnes 64

/-- Score kind of a stage, given the index's block scaling. -/
def stageKind (stage : Nat) (scaled : Bool) : Kind :=
  match stage with
  | 0 => .hamming
  | 1 => if scaled then .float else .integer
  | _ => .float

/-- One 16-byte result record (R254). -/
def recordBytes (extId : W64) (score : BitVec 32) (rflags stage : Nat) : List Byte :=
  leBytes 8 extId.toNat ++ leBytes 4 score.toNat ++ leBytes 2 rflags ++ leBytes 2 stage

/-- `n` sentinels (R88). -/
def sentinels (n : Nat) : List Byte :=
  (List.range n).flatMap fun _ => recordBytes (BitVec.allOnes 64) 0x80000000 0 0xFFFF

/-- An element of the group merge row (R76, R87). -/
def GRec.elem (r : GRec) : Elem :=
  { score := r.score, canon := r.extId.toNat, order := r.member * 2 ^ 16 + r.pos, rank := r.stage }

/-- The group merge: k from the elements of the final stage, then the rest from the others (R87), and the two selections.
Where the others come from two stages, their raw score keys share one row: the spec does not say how keys of different kinds
compare (DESIGN CHOICE, log entry 71). -/
def groupMerge (k want : Nat) (scaled : Bool) (recs : List GRec) : List (GRec × Bool) × Selected × Selected :=
  let back := fun (filled : Bool) (e : Elem) =>
    (recs.find? fun r => r.member * 2 ^ 16 + r.pos == e.order).map fun r => (r, filled)
  let key := fun (e : Elem) => scoreKey (stageKind e.rank scaled) e.score
  let one := selectBy key (·.canon) k ((recs.filter (·.stage == want)).map GRec.elem)
  let rest := (recs.filter fun r => r.stage != want && !one.kept.any (·.canon == r.extId.toNat)).map GRec.elem
  let two := selectBy key (·.canon) (k - one.kept.length) rest
  (one.kept.filterMap (back false) ++ two.kept.filterMap (back true), one, two)

/-- The job ends: RELEASE or ABORT to its members, its lease, and the completion (R262, R334). -/
def State.endGroup (g : GroupJob) (r : Res) (s : State) : State :=
  let update := g.opcode != 0x01
  let s := if !g.fanned || g.relayed then s
    else if r.status ≠ 0 then forEach (s.fannedConns g) (s.selfMember |> fun me => State.sendGauntlet g.key 0 me r.status 0) s
    else if update then forEach (s.fannedConns g) (s.selfMember |> fun me => State.sendGauntlet g.key 1 me 0 0) s
    else s
  let s := if update then (match s.job? g.seq with
    | some j => s.undoJob j
    | none => s) else s
  let s := if r.status = 0 then s.dropKept g.key else s.undoKept g.key
  let s := (s.releaseLease g.key).dropGroup g.seq
  let s := if r.status = 0 then (match g.sync with | some p => s.signal p.1 p.2 | none => s) else s
  let own := g.answers.find? (·.member == s.selfMember)
  s.finish g.ctx g.seq { r with waited := own.bind (·.waited) }

/-- Complete a group search (R262). -/
def State.endGroupSearch (g : GroupJob) (s : State) : State :=
  let good := g.answers.filter (·.status == 0)
  let missing := g.missingShards
  let scaled := (s.pjFmt 0 g.ver).scaled
  if g.abort then s.endGroup g (Res.of stAborted)
  else if good = [] then
    s.endGroup g (Res.of (if g.answers = [] then stDeadline else g.answers.foldl (fun n a => max n a.status) 0))
  else
    let rows := good.flatMap GroupAns.recs
    let (kept, one, two) := groupMerge g.k g.wantStage scaled rows
    let approx := one.approx || two.approx
    let nans := (rows.filter fun r => stageKind r.stage scaled == .float).map GRec.elem
    let s := s.noteNans g.home .float nans
    let s := (s.noteSelect g.home one).noteSelect g.home two
    let recs := kept.flatMap fun p =>
      recordBytes p.1.extId p.1.score (p.1.member * 2 ^ 10 + (if p.2 then 2 else 0) + p.1.rflags % 2) p.1.stage
    let fl := good.foldl (fun n a => n ||| a.flags) 0
    let fl := fl ||| flag (missing != []) flPartial ||| flag approx flApprox ||| flag (decide (kept.length < g.k)) flShort
    let skipped := min 0xFFFFFFFF (good.foldl (fun n a => n + a.skipped) 0)
    let unscanned := min 0xFFFF (good.foldl (fun n a => n + a.lists) 0)
    let s := s.bump .HQ_GRP_MISSING 0 0 missing.length
    s.endGroup g { flags := fl, info := skipped * 2 ^ 32 + unscanned * 2 ^ 16, records := recs, count := kept.length,
                   filler := sentinels (g.k - kept.length), group := some (shardMask missing, good.length) }

/-- Replica slot of a shard that a member holds. -/
def State.slotOfMember (s : State) (sh m : Nat) : Option Nat :=
  firstFit (fun r => let x := s.replica sh r; decide (x.1 = 1 ∨ x.1 = 2) && x.2 == m) 3

/-- Replicas whose answers differ from the ordinal records of a group update are failed (R171). -/
def State.failDiverged (sh : Nat) (records : List Byte) (answers : List GroupAns) (s : State) : State :=
  forEach (answers.filter fun x => x.records != records) (fun x t =>
    match t.slotOfMember sh x.member with
    | some r => ((t.setReplica sh r 3).log (mkErr 0x0422 0 0 sh r 0 0)).bump .HQ_GRP_DIVERGED 0 0 1
    | none => t) s

/-- Members that hold a copying replica of a shard. -/
def State.copyMembers (s : State) (sh : Nat) : List Nat :=
  ((List.range 3).filter fun r => (s.replica sh r).1 == 2).map fun r => (s.replica sh r).2

/-- A group update is over: the answers of its copying replicas are compared, those to come as they come (R171). -/
def State.compareCopies (g : GroupJob) (records : List Byte) (s : State) : State :=
  let s := s.failDiverged g.shard records g.copied
  let left := (s.copyMembers g.shard).filter fun m => !g.copied.any (·.member == m)
  let w : CopyWait := { key := g.key, shard := g.shard, records := records, members := left }
  let waits := s.hq.copyWaits.filter fun x => x.members.any (s.copyMembers x.shard).contains
  { s with hq := { s.hq with copyWaits := if left = [] then waits else waits ++ [w] } }

/-- Complete a group update: the ordinal records of the lowest live replica; those that differ are failed (R171, R263). A
head without a part of its own counts the command itself (R174). -/
def State.endGroupUpdate (g : GroupJob) (s : State) : State :=
  if g.abort ∨ g.answers.any (·.status ≠ 0) then s.endGroup g (Res.of stAborted)
  else
    let live := (s.liveReplicas g.shard).filterMap fun r =>
      g.answers.find? fun a => a.member == (s.replica g.shard r).2
    match live with
    | [] => s.endGroup g (Res.of stAborted)
    | a :: _ =>
      let s := (s.failDiverged g.shard a.records g.answers).compareCopies g a.records
      let s := if g.answers.any (·.member == s.selfMember) then s else s.bump .HQ_UPD_CMDS 0 0 1
      s.endGroup g { flags := g.answers.foldl (fun n x => n ||| x.flags) 0, info := a.skipped, records := a.records,
                     count := a.records.length / 16, group := some (0, 0) }

/-- Every awaited member has answered, of those whose answer counts; or the wait is over. -/
def GroupJob.ready (g : GroupJob) : Bool :=
  g.expired || g.abort || g.awaited.all fun w => g.answers.any (·.member == w.1)

/-- Complete a job that is ready, when the head may act on its state; otherwise claim it (R314). -/
def State.settleGroup (seq : Nat) (s : State) : State :=
  match s.group? seq with
  | none => s
  | some g =>
    if g.fanned ∧ g.ready then
      if s.mayAct g then (if g.opcode = 0x01 then s.endGroupSearch g else s.endGroupUpdate g) else s.claim g
    else s

/-- Take in one answer (R262). -/
def State.takeAnswer (seq : Nat) (a : GroupAns) (s : State) : State :=
  match s.group? seq with
  | none => s
  | some g =>
    let g := { g with answers := if g.answers.any (·.member == a.member) then g.answers else g.answers ++ [a],
                      abort := g.abort || a.status == stAborted }
    let s := (s.setGroup g).settleGroup seq
    if (s.group? seq).isSome && g.fanned then s.claim g else s

end Sys2Proof.Machine
end

