-- ==== Sys2Proof/Machine/Finish.lean ====
section
/-! DEFINITION. The end of a query: final selection, its records and completion, accounting, and its shadow
(R84 to R89, R108 to R111, R166, R167, R312). -/

namespace Sys2Proof.Machine

/-- The queue wait of a query that has launched pairs (R312). -/
def Query.waited (x : Query) : Option Nat := x.lastLaunch.map (· - x.tFetch)

/-- The captured version slot of the index, or of the table whose FP16 stage ran, is no longer CURRENT (R167). -/
def State.isStale (s : State) (x : Query) : Bool :=
  s.fld fHQ_IDX_CTL_CURRENT x.index 0 != x.vslot
    || (x.stage == .fp16 && s.fld fGE_TBL_CTL_CURRENT x.tbl 0 != x.tblVslot)

/-- Release the FP16 table version a query holds (R143). -/
def State.releaseTable (t v : Nat) (s : State) : State :=
  s.signal (s.fld fGE_TBL_VER_REF_SYNC t v) (BitVec.allOnes 64)
def State.holdTable (t v : Nat) (s : State) : State := s.signal (s.fld fGE_TBL_VER_REF_SYNC t v) 1

/-- The reduction region of a query is revoked before it is used again (R149). -/
def State.closeRegion (x : Query) (s : State) : State :=
  match x.region with
  | some r => if s.fld fXT_RGN_CTL_STATE r 0 = 1 then s.setFld fXT_RGN_CTL_STATE r 0 2 else s
  | none => s

/-- Leave every unit: pairs, lanes, merge rows, cells of queues (R69, R311 steps 1 to 3). -/
def State.clearWork (q : Nat) (s : State) : State :=
  let s := ((s.removePairs q).2.dropLanes q).2
  let drop := fun (u : ProbeUnit) =>
    { u with waiting := u.waiting.filter (·.1 != q), pass := u.pass.filter (· != q) }
  { s with qry := { s.qry with
      probe := s.qry.probe.map fun e => (e.1, drop e.2)
      encodeQ := s.qry.encodeQ.map fun e => (e.1, e.2.filter (· != q))
      partials := s.qry.partials.map fun e => (e.1, e.2.filter (·.q != q)) } }

/-- Remove a query and what it holds (R166, R143, R100). -/
def State.dropQuery (q : Nat) (s : State) : State :=
  match s.query q with
  | none => s
  | some x =>
    let s := (s.clearWork q).delQuery q
    let s := forEach x.dieRows.keys State.noteMerge s
    let s := (s.closeRegion x).releaseRef x.ver
    (if x.fp16Stage then s.releaseTable x.tbl x.tblVslot else s).resumeShadows x.pn

/-! ### Shadows (R109 to R111) -/

def State.shadow (s : State) (pn : Nat) : Shadow := s.qry.shadows.getD {} pn

def State.setShadow (pn : Nat) (x : Shadow) (s : State) : State :=
  { s with qry := { s.qry with shadows := s.qry.shadows.put pn x } }

/-- External IDs of some 16-byte records, sentinels left out. -/
def extIds (recs : List Byte) : List Nat :=
  ((List.range (recs.length / 16)).map fun i => fieldAt recs (16 * i) 8).filter (· != 2 ^ 64 - 1)

/-- A shadow has ended: one entry in the log, and the counters (R111). -/
def State.logShadow (x : Query) (status : Nat) (recs : List Byte) (count : Nat) (s : State) : State :=
  let sh := s.shadow x.pn
  let ok := status == 0
  let n := if ok then count else 0
  let overlap := if ok then ((extIds x.live).filter (extIds recs).contains).length else 0
  let e : ShadowEntry := {
    seq := sh.nextSeq, tAdmit := x.liveAdmit, tDone := s.now, ctx := x.ctx, commandId := x.commandId,
    index := x.index, status := status, version := x.version, k := x.k, liveCount := x.liveCount,
    shadowCount := n, overlap := overlap, liveFlags := x.liveFlags, listsLive := x.liveLists, listsShadow := x.pCur,
    liveRecs := x.live, shadowRecs := if ok then recs ++ sentinels (x.k - count) else sentinels x.k }
  let full := decide (64 ≤ sh.log.length)
  let lost := full && sh.log.head?.any fun o => decide (sh.readUpTo ≤ o.seq)
  let s := s.setShadow x.pn { sh with log := (if full then sh.log.drop 1 else sh.log) ++ [e], nextSeq := sh.nextSeq + 1 }
  let s := if lost then s.bump .TN_SHADOW_LOST x.pn 0 1 else s
  if ok then ((s.bump .TN_SHADOW_DONE x.pn 0 1).bump .TN_SHADOW_K_SUM x.pn 0 n).bump .TN_SHADOW_OVERLAP_SUM x.pn 0 overlap
  else s.bump .TN_SHADOW_DROPPED x.pn 0 1

/-- A running shadow has ended, and is gone. -/
def State.endShadow (q status : Nat) (recs : List Byte) (count : Nat) (s : State) : State :=
  match s.query q with
  | none => s
  | some x => (s.logShadow x status recs count).dropQuery q

/-- Clusters of a version by distance of their centroids, ties to the lower number (R71). -/
def rankClusters (b : Nat) (cents : List Code) (q : Code) : List Nat :=
  (sortBy (fun (a b : Nat × Nat) => decide (a.1 < b.1) || (a.1 == b.1 && decide (a.2 < b.2)))
    ((cents.zip (List.range cents.length)).map fun p => (hamming b q p.1, p.2))).map (·.2)

/-- The shadow of a live query that has returned `recs`. -/
def State.shadowOf (s : State) (x : Query) (recs : List Byte) (count flags : Nat) : Query :=
  { x with
    isShadow := true, sampled := false, conn := none, jobKey := none, group := none, flags := 0, skipped := 0,
    notScanned := 0, ceil := 0, tSd := none, tRr := none, stage := .scan, inProbe := false, outstanding := [],
    reported := 0, allowed := 0, dieRows := [], dieReduced := [], flushing := [], dieLists := [], homeList := [], cands := [],
    badIds := [], region := none, lastLaunch := none, widened := false, nextPost := 0, pCur := 0,
    ranks := rankClusters (s.centBits x.index) (s.version x.ver).cents x.code,
    live := recs ++ sentinels (x.k - count), liveCount := count, liveAdmit := x.tAdmit,
    liveFlags := BitVec.ofNat 16 flags, liveLists := x.pCur }

/-- The shadow of a sampled query begins as the live one completes, with what it returned or on its deadline. Where the live
one ends otherwise, or before its code is known, its pending shadow is dropped (R109, R111, log entry 70). -/
def State.startShadow (x : Query) (r : Res) (s : State) : State :=
  let q := s.hq.nextSeq
  let y := s.shadowOf x r.records r.count r.flags
  if (r.status ≠ 0 ∧ r.status ≠ stDeadline) ∨ x.stage = .encode ∨ x.stage = .lease then
    s.logShadow y (if r.status = stDeadline then stDeadline else stTornDown) [] 0
  else
  let s := ({ s with hq := { s.hq with nextSeq := q + 1 } }).holdRef x.ver
  let s := if x.fp16Stage then s.holdTable x.tbl x.tblVslot else s
  ((s.bump .TN_SHADOW_SAMPLED x.pn 0 1).setQuery q y).postFirst q

/-! ### Completion -/

/-- Complete a query: its flags as they stand (R14, R15, R167), its answer or completion, its shadow. -/
def State.endQuery (q : Nat) (r : Res) (s : State) : State :=
  match s.query q with
  | none => s
  | some x =>
    if x.isShadow then s.endShadow q r.status r.records r.count
    else
      let fl := r.flags ||| x.flags.toNat ||| flag (s.isStale x) flStale
      let r := { r with flags := if r.status = 0 then fl else 0, skipped := x.skipped, lists := x.pCur,
                        notScanned := x.notScanned, errSeq := x.errSeq, waited := x.waited }
      let s := s.dropQuery q
      let s := match x.group with
        | some g =>
          let a : GroupAns := { shard := 0, member := s.selfMember, status := r.status, flags := r.flags,
                                skipped := r.skipped, lists := r.notScanned, records := r.records, waited := x.waited }
          s.takeAnswer g a
        | none => s.finish x.ctx q r
      if x.sampled then s.startShadow x r else s

/-- End a query with a status and no result. -/
def State.failQuery (q status : Nat) (s : State) : State := s.endQuery q (Res.of status)

/-- DEADLINE_EXPIRED, counted unless a CANCEL caused it (R235). -/
def State.expireQuery (q : Nat) (s : State) : State :=
  match s.query q with
  | none => s
  | some x => (if x.cancelCut then s else s.bump .TN_DL_EXPIRED x.pn 0 1).failQuery q stDeadline

/-- Stage number of a record (R254). -/
def QStage.num : QStage → Nat
  | .flash => 1
  | .fp16 => 2
  | _ => 0

/-- Final selection from a row, and the completion (R84 to R89). Records whose ID-map entries are uncorrectable are left
out, whatever stage selected them (R221). -/
def State.finalSelect (q : Nat) (kind : Kind) (row : List Elem) (s : State) : State :=
  match s.query q with
  | none => s
  | some x =>
    let v := s.version x.ver
    let bad := x.badIds
    let ext := fun (e : Elem) =>
      if bad.contains e.canon then 2 ^ 64 + e.canon else (v.idMap.getD 0 e.canon).toNat
    let sel := select kind ext x.k row
    let good := sel.kept.filter fun e => !bad.contains e.canon
    let lost := sel.kept.length - good.length
    let s := (s.noteNans x.home kind row).noteSelect x.home sel
    let s := s.bump .SE_MG_SHORT x.home 0 (if good.length < x.k then 1 else 0)
    let s := forEach (sel.kept.filter fun e => bad.contains e.canon) (fun _ t =>
      t.dramUncorrFree 1 x.home 3 fun e =>
        { e with ctx := x.ctx, commandId := x.commandId, tenant := x.tenant }) s
    let x := if lost = 0 then x else x.skip lost
    let x := if sel.approx then x.flag flApprox else x
    let x := if good.length < x.k then x.flag flShort else x
    let rec1 := fun (e : Elem) =>
      let rebuilt := x.stage == .flash && x.rebuilt.contains e.order
      recordBytes (v.idMap.getD 0 e.canon) e.score (if rebuilt then 1 else 0) x.stage.num
    (s.setQuery q x).endQuery q
      { records := good.flatMap rec1, count := good.length, filler := sentinels (x.k - good.length) }

/-- Complete on the binary scores of the home merge (R232): no later stage. -/
def State.finalBinary (q : Nat) (s : State) : State :=
  match s.query q with
  | none => s
  | some x => (s.setQuery q { x with stage := .done }).finalSelect q .hamming x.homeList

end Sys2Proof.Machine
end

