-- ==== Sys2Proof/Machine/FlashStore.lean ====
section
/-! DEFINITION. Flash sectors and their media: the translation layer's map, journal, folds and superblocks (R194 to R214),
stripes, degraded reads and front writes (R183 to R192), and open sectors (R187). -/

namespace Sys2Proof.Machine

/-! ### Channels and stripes (R184, R185, R191) -/

def State.chState (s : State) (n : Nat) : Nat := s.fld fCF_SVC_STATE n 0

/-- IN_SERVICE: in the channel masks captured now. -/
def State.chIn (s : State) (n : Nat) : Bool := s.chState n == 0

/-- The channel mask that a stage captures now (R191). -/
def State.chMask (s : State) : BitVec 32 :=
  BitVec.ofNat 32 (((List.range 32).filter s.chIn).foldl (fun n c => n + 2 ^ c) 0)

/-- Reads are served by the channel itself: IN_SERVICE, or DETACHING without a fault until its drain ends (R191). -/
def State.chServes (s : State) (n : Nat) : Bool :=
  (s.chState n == 0 || (s.chState n == 1 && s.fld fCF_SVC_CAUSE n 0 != 2)) && !s.cuffReset n

/-- Writes of a sector reach the channel itself, and are not parity only: while it is rebuilt, those below the cursor, and
those of the parity sectors recomputed. -/
def State.chTakes (s : State) (n i : Nat) : Bool :=
  let st := s.chState n
  st == 0 || st == 5 || st == 6
    || (st == 4 && (if i < s.dataSectors n then decide (i < s.fld fCF_REBUILD_POS_CURSOR n 0)
          else decide (i - s.dataSectors n < (s.chan n).parityPos)))

/-- Index of a parity sector in its channel's map: it follows the data sectors (chapter 10, Physical organisation). -/
def State.parityIx (s : State) (k e : Nat) : Nat := s.dataSectors k + e

/-! ### Translation (R195, R196) -/

/-- What a logical sector reads as. -/
inductive SectRead where
  | data (b : List Byte) (wseqX : BitVec 32)
  | never
  | lost
  deriving DecidableEq, Repr

def Chan.jrec (c : Chan) (j : Nat) : Option JRec := c.journal.find? (·.jseq == j)

/-- A sector as a unit slot holds it. -/
def Chan.atLoc (c : Chan) (loc i : Nat) : SectRead :=
  match ((c.sbs.getD {} (loc / 4096)).slots.get? (loc % 4096)).bind fun p => p.2.get? (i % 16) with
  | some x => .data x.data (x.wseqX.getD 0)
  | none => .never

/-- Sector metadata, 32 bytes (R176): KIND, CHANNEL, LSN or stripe set, WSEQ, WTIME and CRC. -/
def sectMeta (kind ch lsn : Nat) (wseq : W64) (wtime : Nat) (data : List Byte) : List Byte :=
  let m := leBytes 1 kind ++ leBytes 1 ch ++ leBytes 2 0 ++ leBytes 4 lsn ++ leBytes 8 wseq.toNat ++ leBytes 8 wtime
    ++ leBytes 4 0
  m ++ leBytes 4 (crc32c (data ++ m)).toNat

/-- The metadata of a sector held in a superblock of channel `n`: that of a parity sector from `d` on, of a data sector
below; WTIME is the superblock's open time (R176, R189, R209). -/
def SBlock.metaBytes (b : SBlock) (n d i : Nat) (x : Sect) : List Byte :=
  let p := decide (d ≤ i)
  let w : W64 := match x.wseqX, p with
    | some v, true => v.zeroExtend 64
    | _, _ => BitVec.ofNat 64 x.wseq
  sectMeta (if p then 1 else 0) n (if p then i - d else i) w b.openTime x.data

/-- The newest copy of a sector: journal, lost table, map. -/
def Chan.look (c : Chan) (i : Nat) : SectRead :=
  match c.jIndex.get? i with
  | some j =>
    match c.jrec j with
    | some r => match r.pay with
      | .sector _ d x => .data d (x.getD 0)
      | _ => .never
    | none => .never
  | none =>
    if c.lost.contains i then .lost
    else match c.map.get? (i / 16) with
      | some loc => c.atLoc loc i
      | none => .never

def State.modSb (n sb : Nat) (f : SBlock → SBlock) (s : State) : State :=
  s.setChan n { s.chan n with sbs := (s.chan n).sbs.upd {} sb f }

/-- A translation goes through the map cache of 8,192 map sectors, least recently used out first (R195, R196). -/
def State.translate (n i : Nat) (s : State) : State :=
  let c := s.chan n
  if (c.jIndex.get? i).isSome || c.lost.contains i then s
  else
    let m := i / 16 / 1024
    let hit := c.mapCached.contains m
    let c := { c with mapCached := (m :: c.mapCached.filter (· != m)).take 8192 }
    (s.setChan n c).bump .CF_TL_MAP_MISS n 0 (if hit then 0 else 1)

/-- A channel serves a read of a sector by itself: the translation, and `k` reads of the superblock it lies in since its
erase (R196, R212). -/
def State.countRead (n loc k : Nat) (s : State) : State :=
  s.modSb n (loc / 4096) fun b => { b with reads := b.reads + k }

/-! ### The journal (R197, R198) -/

/-- TYPE of a journal record (R198). -/
def JPay.type (p : JPay) : Nat :=
  match p with
  | .sector _ _ _ => 1
  | .mirror _ _ _ _ => 2
  | .intent _ _ => 3
  | .close _ _ => 4
  | .fold _ _ _ => 5
  | .gcMove _ _ _ => 6
  | .blockOpen _ _ _ => 7
  | .erase _ _ => 8
  | .retire _ _ => 9
  | .lost _ => 10
  | .checkpoint _ _ => 11
  | .time _ => 12
  | .clean _ => 13

/-- Bytes of a journal record, header included. -/
def JPay.size (p : JPay) : Nat :=
  match p with
  | .sector _ _ _ => 4160
  | .mirror _ _ _ d => 32 + (d.length + 15) / 16 * 16
  | _ => 32

/-- Program staged records into one journal unit slot: those that end within its 64 KiB (R197). -/
def programSlot : Nat → List JRec → List JRec
  | _, [] => []
  | room, r :: rs =>
    if r.staged then
      if r.pay.size ≤ room then { r with staged := false } :: programSlot (room - r.pay.size) rs else r :: rs
    else r :: programSlot room rs

def stagedBytes (js : List JRec) : Nat := (js.filter (·.staged)).foldl (fun n r => n + r.pay.size) 0

/-- Program one unit slot from the staging buffer. -/
def State.programStaging (n : Nat) (s : State) : State :=
  let c := s.chan n
  (s.setChan n { c with journal := programSlot 65536 c.journal }).bump .CF_TL_NAND_BYTES n 0 65536

/-- Superblocks of a channel with those retired, and the superblocks of the journal ring. -/
def Chan.goodSbs (c : Chan) : Nat := c.health.goodUnits / max 1 c.pages + (c.sbs.filter fun e => e.2.st == 4).length
def Chan.journalSbs (c : Chan) : Nat := max 16 ((c.goodSbs + 127) / 128)

/-- Ring occupancy in 1/128ths. -/
def Chan.fill128 (c : Chan) : Nat :=
  128 * c.journal.foldl (fun n r => n + r.pay.size) 0 / max 1 (c.journalSbs * c.pages * 65536)

/-- Append a journal record: durable once it is complete in the staging buffer, which is programmed as it fills a slot. -/
def State.journal (n : Nat) (p : JPay) (s : State) : State :=
  let c := s.chan n
  let r : JRec := { jseq := c.jNext, pay := p, atTime := s.now }
  let c := { c with journal := c.journal ++ [r], jNext := c.jNext + 1, sinceCkpt := c.sinceCkpt + 1 }
  let s := (s.setChan n c).setFld fCF_TL_STATUS_JOURNAL_FILL n 0 (min 127 c.fill128)
  if 65536 ≤ stagedBytes c.journal then s.programStaging n else s

/-- Program every staged record, slot by slot. -/
def State.drainStaging (n : Nat) : Nat → State → State
  | 0, s => s
  | k + 1, s => if (s.chan n).journal.any (·.staged) then State.drainStaging n k (s.programStaging n) else s

/-- Program the whole staging buffer. -/
def State.flushStaging (n : Nat) (s : State) : State := s.drainStaging n (s.chan n).journal.length

/-- Set the staging capacity at a format or a start (R197): tPROG is measured, a free value of 1 to 5,000 µs. -/
def State.setStage (n : Nat) (s : State) : State :=
  let tProg := 1 + (Config.free s.freeCount).toNat % 5000
  s.draw.setFld fCF_TL_STATUS_STAGE_KIB n 0 (min 1024 (64 * (s.chan n).targets * (5000 / tProg)))

/-- Write one logical sector: a SECTOR record whose JSEQ the journal index takes (R196, R198). -/
def State.writeSect (n i : Nat) (data : List Byte) (wseqX : Option (BitVec 32)) (s : State) : State :=
  let j := (s.chan n).jNext
  let s := s.journal n (.sector i data wseqX)
  let c := s.chan n
  s.setChan n { c with jIndex := c.jIndex.put i j, lost := c.lost.filter (· != i) }

/-! ### Flash time and block records (R209, R210) -/

/-- Flash time of a channel in seconds. -/
def State.flashTime (s : State) (n : Nat) : Nat := ((s.now / sec : Nat) + (s.chan n).timeOffset).toNat

/-- The flash time that the device reads and sets (object 0x6012): the latest of its channels' (R209, log entry 80). -/
def State.deviceTime (s : State) : Nat := (List.range 32).foldl (fun m n => max m (s.flashTime n)) 0

/-- Unit slots of a superblock that the map names. -/
def Chan.validPages (c : Chan) (sb : Nat) : List (Nat × Nat) :=
  (c.sbs.getD {} sb).slots.filterMap fun p => if c.map.get? p.2.1 = some (sb * 4096 + p.1) then some (p.1, p.2.1) else none

def Chan.valid (c : Chan) (sb : Nat) : Nat := (c.validPages sb).length

def lunOf (sb : Nat) : Nat := sb / 2 ^ 15

/-- The superblocks of a LUN that the data area may use: the others of the LUN hold journal and map (log entry 31). -/
def Chan.dataSbs (c : Chan) (lun : Nat) : List Nat :=
  let k := max 1 c.lunList.length
  let first := (c.journalSbs + k - 1) / k + 1
  ((List.range (c.goodSbs / k - first)).map fun b => lun * 2 ^ 15 + first + b)

def Chan.freeSbs (c : Chan) (lun : Nat) : List Nat :=
  (c.dataSbs lun).filter fun sb => (c.sbs.getD {} sb).st == 0

/-- Free superblock with the lowest erase count, or with the highest (R208). -/
def Chan.pickFree (c : Chan) (lun : Nat) (worn : Bool) : Option Nat :=
  (c.freeSbs lun).foldl (fun o sb => match o with
    | none => some sb
    | some b =>
      let x := (c.sbs.getD {} sb).erases
      let y := (c.sbs.getD {} b).erases
      if (if worn then decide (y < x) else decide (x < y)) then some sb else some b) none

/-- Fewest free superblocks of any LUN. -/
def State.noteFree (n : Nat) (s : State) : State :=
  let c := s.chan n
  let m := c.lunList.foldl (fun m l => min m (c.freeSbs l).length) 63
  (s.setFld fCF_TL_STATUS_FREE_MIN n 0 m).setFld fCF_TL_STATUS_LUN_COLLECTING n 0
    (min 32 (c.collect.filter (·.kind == 0)).length)

/-- Open a free superblock as a target (state 1 or 2), with its BLOCK_OPEN record. -/
def State.openSb (n sb st : Nat) (s : State) : State :=
  let t := s.flashTime n
  let temp := (s.chan n).temp
  let s := s.modSb n sb fun b => { b with st := st, nextPage := 0, openTime := t, openTemp := temp, thisStart := true }
  (s.journal n (.blockOpen sb t temp)).noteFree n

/-- The target of a LUN with a free unit slot, opened if there is none. -/
def State.target (n lun st : Nat) (s : State) : Option (Nat × State) :=
  let c := s.chan n
  match (c.dataSbs lun).find? fun sb => (c.sbs.getD {} sb).st == st && decide ((c.sbs.getD {} sb).nextPage < c.pages) with
  | some sb => some (sb, s)
  | none => (c.pickFree lun false).map fun sb => (sb, s.openSb n sb st)

/-- The same, from another LUN of the channel when the LUN has none left (R206). -/
def State.anyTarget (n lun st : Nat) (s : State) : Option (Nat × State) :=
  match s.target n lun st with
  | some r => some r
  | none => (s.chan n).lunList.findSome? fun l => s.target n l st

/-- Program one unit into the next slot of a superblock; the location. -/
def State.programUnit (n sb unit : Nat) (sects : Tbl Sect) (s : State) : Nat × State :=
  let b := (s.chan n).sbs.getD {} sb
  let s := s.modSb n sb fun b => { b with slots := b.slots.put b.nextPage (unit, sects), nextPage := b.nextPage + 1 }
  (sb * 4096 + b.nextPage, s.bump .CF_TL_NAND_BYTES n 0 65536)

/-- Programs on a superblock whose status is awaited. -/
def Chan.programming (c : Chan) (sb : Nat) : Bool :=
  c.foldPending.any (fun e => e.2.1 / 4096 == sb) || c.collect.any fun g => g.pend.any fun p => p.2.2 / 4096 == sb

/-- A target without a free unit slot closes once its last program has succeeded (chapter 10, Garbage collection). -/
def State.closeFull (n sb : Nat) (s : State) : State :=
  let c := s.chan n
  let b := c.sbs.getD {} sb
  if (b.st = 1 ∨ b.st = 2) ∧ c.pages ≤ b.nextPage ∧ !c.programming sb then s.modSb n sb fun b => { b with st := 3 } else s

/-- The sixteen sectors of a unit from the newest copy of each (R199); the WSEQ of a data sector is the JSEQ of the record
that wrote it (log entry 76). -/
def Chan.unitSects (c : Chan) (unit : Nat) : Tbl Sect :=
  (List.range 16).filterMap fun x =>
    let i := 16 * unit + x
    let old := match (c.map.get? unit).bind fun loc => (c.sbs.getD {} (loc / 4096)).slots.get? (loc % 4096) with
      | some p => ((p.2.get? x).map (·.wseq)).getD 0
      | none => 0
    match c.look i with
    | .data d w => some (x, { data := d, wseqX := some w, wseq := (c.jIndex.get? i).getD old })
    | _ => none

/-- Point the cached map at a new location of a unit. -/
def State.setMap (n unit loc : Nat) (s : State) : State :=
  let c := s.chan n
  let m := unit / 1024
  s.setChan n { c with map := c.map.put unit loc, dirtyMap := if c.dirtyMap.contains m then c.dirtyMap else c.dirtyMap ++ [m] }

/-! ### Leaving service (R190, R214) -/

/-- A channel leaves service: it is taken out of new masks and its drain begins. -/
def State.departCh (n cause : Nat) (s : State) : State :=
  let s := (s.setFld fCF_SVC_STATE n 0 1).setFld fCF_SVC_CAUSE n 0 cause
  s.setChan n { s.chan n with drainSince := s.now }

/-- CTX_BUSY and REQ_QUEUED, and the time for which the request queue was full. -/
def State.noteChan (n : Nat) (s : State) : State :=
  let c := s.chan n
  let s := (s.setFld fCF_STATUS_CTX_BUSY n 0 c.ctxs.length).setFld fCF_STATUS_REQ_QUEUED n 0 c.reqQ.length
  match c.fullSince, decide (4096 ≤ c.reqQ.length) with
  | none, true => s.setChan n { c with fullSince := some s.now }
  | some t, false => (s.setChan n { c with fullSince := none }).bump .CF_QUEUE_FULL_NS n 0 (s.now - t)
  | _, _ => s

/-- Answer a request CHANNEL_DOWN; a copy sent as shadow traffic is dropped (R180). -/
def State.answerDown (n : Nat) (r : CandReq) (s : State) : State :=
  if r.shadow then s.freeGranules r.q n
  else
    let s := s.bump .CF_CHANNEL_DOWN n 0 1
    { s with fl := { s.fl with scores := s.fl.scores.upd [] r.die (· ++ [r.record n 0 4]) } }

/-- Every request that a channel holds is answered CHANNEL_DOWN, and its contexts are freed (R191). -/
def State.downAll (n : Nat) (s : State) : State :=
  let c := s.chan n
  let held := c.reqQ ++ c.ctxs.flatMap fun e => e.2.joined
  let c := { c with
    reqQ := [], ctxs := []
    planeQ := c.planeQ.map fun (e : Nat × List PlaneOp) => (e.1, e.2.filter fun o => o.kind != 0 && o.kind != 3)
    planeBusy := c.planeBusy.filter fun e => e.2.kind != 0 }
  (forEach held (State.answerDown n) (s.setChan n c)).noteChan n

/-- A fault takes the channel out of service whatever the others do, and its pending requests are answered CHANNEL_DOWN
(R190, R191). -/
def State.chFault (n : Nat) (s : State) : State :=
  if s.chIn n then ((s.departCh n 2).log (mkErr 0x0403 3 n 2 6 0 0)).downAll n else s

/-- The carrier interface is powered down: DETACHED, its power enable low (R191, R402). -/
def State.powerDownCh (n : Nat) (s : State) : State :=
  let c := s.chan n
  let c := { c with pwrEn := false, onfiUp := false, planeQ := [], planeBusy := [], foldPending := [], collect := [],
                    refreshQ := [], shadowWant := [], shadowGot := [] }
  (s.setChan n c).setFld fCF_SVC_STATE n 0 2

/-- A fault of a cuff die in any service state: it leaves service, or its return is broken off (R190, R403). -/
def State.cuffFault (n : Nat) (s : State) : State :=
  match s.chState n with
  | 0 => s.chFault n
  | 1 => (s.setFld fCF_SVC_CAUSE n 0 2).downAll n
  | 2 => s
  | _ => (((s.setFld fCF_SVC_CAUSE n 0 2).log (mkErr 0x0403 3 n 2 6 0 0)).downAll n).powerDownCh n

/-- Value of a dictionary object, or its default. -/
def State.objNat (s : State) (index sub dflt : Nat) : Nat := ((s.dict.objs.get? (256 * index + sub)).map leNat).getD dflt

def Chan.wearMax (c : Chan) : Nat := c.sbs.foldl (fun m e => max m e.2.erases) 0

/-- Units that data and parity need on a channel. -/
def State.neededUnits (s : State) (n : Nat) : Nat :=
  s.dataSectors n / 16 + (s.fld fCF_CAP_PARITY_SECTORS n 0 + 15) / 16

/-- SPARE_PCT (Health). -/
def State.sparePct (s : State) (n : Nat) : Nat :=
  let h := (s.chan n).health
  100 * (h.goodUnits - s.neededUnits n) / max 1 h.s0

/-- Check the health limits of a channel (R214). -/
def State.checkHealth (n : Nat) (s : State) : State :=
  let c := s.chan n
  let spare := s.sparePct n
  let low := decide (spare < s.objNat 0x6010 9 10)
  let worn := decide (c.health.ratedPe * s.objNat 0x6010 10 110 ≤ 100 * c.wearMax)
  let figure := if low then spare else c.wearMax
  if !s.chIn n then s
  else if spare = 0 then s.chFault n
  else if low || worn then
    if (List.range 32).all fun m => m == n || s.chIn m then
      (s.departCh n 3).log (mkErr 0x0209 3 n n figure 0 0)
    else
      let h := { c.health with held := c.health.held + 1, heldNow := true }
      (s.setChan n { c with health := h, lastHealth := s.now }).log { mkErr 0x0209 3 n n figure 0 0 with cls := 0 }
  else s.setChan n { c with health := { c.health with heldNow := false } }

/-- The lost-sector table of a channel is full (R195). -/
def Chan.lostFull (c : Chan) : Bool := decide (65536 ≤ c.lost.length)

/-- A logical sector becomes lost: LOST record and table; when the table is full the cuff die reports a fault (R195). -/
def State.loseSect (n i : Nat) (s : State) : State :=
  if (s.chan n).lostFull then s.cuffFault n
  else
    let s := s.journal n (.lost i)
    let c := s.chan n
    let s := s.setChan n { c with lost := c.lost ++ [i], jIndex := c.jIndex.del i }
    s.log (mkErr 0x0203 3 n n i 0 0)

/-! ### Retiring a superblock (R206) -/

/-- DETAIL word of a superblock: target, LUN and superblock, as in the map entry of R195. -/
def sbWord (sb : Nat) : Nat := sb * 4096

/-- A superblock has received a unit of another. -/
def SBlock.gave (dst : Nat) (b : SBlock) : SBlock :=
  { b with movedTo := if b.movedTo.contains dst then b.movedTo else b.movedTo ++ [dst] }

/-- Commit a moved unit: GC_MOVE, then the cached map (R203). -/
def State.commitMove (n unit src dst : Nat) (s : State) : State :=
  let s := ((s.journal n (.gcMove unit src dst)).setMap n unit dst).bump .CF_TL_GC_MOVES n 0 1
  s.modSb n (src / 4096) (SBlock.gave (dst / 4096))

/-- Every superblock that gave a unit to `sb` has given it to `dst` in its place (R203, R206). -/
def State.regive (n sb dst : Nat) (s : State) : State :=
  let c := s.chan n
  s.setChan n { c with sbs := c.sbs.map fun (e : Nat × SBlock) =>
    (e.1, if e.2.movedTo.contains sb then SBlock.gave dst e.2 else e.2) }

/-- Retire a superblock: RETIRE record; the spec gives its cause no number, a free value. -/
def State.retireSb (n sb : Nat) (s : State) : State :=
  let cause := (Config.free s.freeCount).toNat % 256
  let s := (s.draw.journal n (.retire sb cause)).modSb n sb fun b => { b with st := 4 }
  let c := s.chan n
  let h := { c.health with retired := c.health.retired + 1, goodUnits := c.health.goodUnits - c.pages }
  let s := (s.setChan n { c with health := h }).bump .CF_TL_RETIRED n 0 1
  (s.log (mkErr 0x0207 3 n n (sbWord sb) cause 0)).checkHealth n

/-- Move every valid unit of a failed target to a fresh superblock (R206). The status of these programs is no operand of any
command: they succeed (log entry 77). -/
def State.moveOut (n sb st : Nat) (s : State) : State :=
  forEach ((s.chan n).validPages sb) (fun (p : Nat × Nat) t =>
    match t.anyTarget n (lunOf sb) st with
    | some (dst, t) =>
      let src := sb * 4096 + p.1
      let sects := (((t.chan n).sbs.getD {} sb).slots.getD (0, []) p.1).2
      let r := (t.countRead n src 1).programUnit n dst p.2 sects
      ((r.2.commitMove n p.2 src r.1).regive n sb dst).closeFull n dst
    | none => t.cuffFault n) s

/-- A program on a target has failed. -/
def State.programFailed (n sb st : Nat) (s : State) : State :=
  let c := s.chan n
  let s := s.setChan n { c with health := { c.health with progFail := c.health.progFail + 1 } }
  ((s.log (mkErr 0x0205 3 n n (sbWord sb) 0 0)).retireSb n sb).moveOut n sb st

/-! ### Folds (R199) -/

def Chan.records (c : Chan) (unit : Nat) : List JRec :=
  c.journal.filter fun r => match r.pay with
    | .sector i _ _ => i / 16 == unit
    | _ => false

/-- A record with at least three quarters of the ring's capacity written after it lies in the ring's oldest quarter. -/
def Chan.oldQuarter (c : Chan) (j : Nat) : Bool :=
  let after := (c.journal.filter fun r => decide (j < r.jseq)).foldl (fun n r => n + r.pay.size) 0
  decide (3 * (c.journalSbs * c.pages * 65536) ≤ 4 * after)

/-- A unit meets a fold condition. -/
def Chan.foldable (c : Chan) (unit : Nat) : Bool :=
  let live := (List.range 16).filterMap fun x => c.jIndex.get? (16 * unit + x)
  live != [] && (live.length == 16 || live.any c.oldQuarter || decide (64 ≤ (c.records unit).length))

/-! ### Garbage collection, levelling and refresh (R203, R208, R212) -/

/-- Closed superblock of a LUN with the fewest valid units; ties to the earlier open time. -/
def Chan.victim (c : Chan) (lun : Nat) : Option Nat :=
  let cands := (c.dataSbs lun).filter fun sb =>
    (c.sbs.getD {} sb).st == 3 && decide (c.valid sb < c.pages) && !c.collect.any (·.victim == sb)
  cands.foldl (fun o sb => match o with
    | none => some sb
    | some b =>
      if c.valid sb < c.valid b ∨ (c.valid sb = c.valid b ∧ (c.sbs.getD {} sb).openTime < (c.sbs.getD {} b).openTime)
      then some sb else some b) none

/-- A move goes on: its victim still holds a valid unit, and a collection stops when the free superblocks of its LUN reach
GC_START + 4 (chapter 10, Garbage collection). -/
def State.moveGoes (s : State) (n : Nat) (g : Collect) : Bool :=
  (s.chan n).validPages g.victim != []
    && !(g.kind == 0 && decide (s.fld fCF_TL_CFG_GC_START n 0 + 4 ≤ ((s.chan n).freeSbs g.lun).length))

/-- Issue the copy of the next valid unit of the move in front; a move that does not go on ends. A channel without a target
on any LUN reports a fault (R214). -/
def State.issueCopy (n : Nat) : Nat → State → State
  | 0, s => s
  | k + 1, s =>
    let c := s.chan n
    match c.collect with
    | [] => s
    | g :: gs =>
      if g.pend.isSome || c.flushing then s
      else match (c.validPages g.victim).head?.filter fun _ => s.moveGoes n g with
        | none =>
          let s := s.setChan n { c with collect := gs }
          let s := if g.kind = 1 then s.bump .CF_TL_WL_MOVES n 0 1 else if g.kind = 2 then s.bump .CF_TL_REFRESH n 0 1 else s
          State.issueCopy n k (s.noteFree n)
        | some (page, unit) =>
          let own := g.target.filter fun sb => decide ((c.sbs.getD {} sb).nextPage < c.pages) && (c.sbs.getD {} sb).st == 2
          let dst := match own with
            | some sb => some (sb, s)
            | none => s.anyTarget n g.lun 2
          match dst with
          | none => s.cuffFault n
          | some (sb, s) =>
            let sects := (((s.chan n).sbs.getD {} g.victim).slots.getD (0, []) page).2
            let r := (s.countRead n (g.victim * 4096 + page) 1).programUnit n sb unit sects
            let c := r.2.chan n
            let g := { g with target := some sb, pend := some (unit, g.victim * 4096 + page, r.1) }
            let op : PlaneOp := { cls := 3, kind := 2, num := unit }
            r.2.setChan n { c with collect := g :: gs, planeQ := c.planeQ.upd [] (4 * lunOf sb) (· ++ [op]) }

/-- Start a move of a superblock's units. -/
def State.beginMove (n kind victim : Nat) (target : Option Nat) (s : State) : State :=
  let c := s.chan n
  let g : Collect := { kind := kind, lun := lunOf victim, victim := victim, target := target }
  ((s.setChan n { c with collect := c.collect ++ [g] }).noteFree n).issueCopy n 64

/-- Collection of a LUN starts below GC_START free superblocks. -/
def State.checkGc (n lun : Nat) (s : State) : State :=
  let c := s.chan n
  if c.flushing || c.collect.any (fun g => g.lun == lun && g.kind == 0) then s
  else if (c.freeSbs lun).length < s.fld fCF_TL_CFG_GC_START n 0 then
    match c.victim lun with
    | some v => s.beginMove n 0 v none
    | none => s
  else s

/-- A refresh starts in queue order, once the one before it has ended and no LUN below GC_URGENT is being collected (R212). A
superblock that has been erased since it was queued is passed over; one not yet closed waits. -/
def State.nextRefresh (n : Nat) (s : State) : State :=
  let c := s.chan n
  let urgent := fun (g : Collect) =>
    g.kind == 0 && decide ((c.freeSbs g.lun).length < s.fld fCF_TL_CFG_GC_URGENT n 0)
  match c.refreshQ.dropWhile fun sb => (c.sbs.getD {} sb).st == 0 || (c.sbs.getD {} sb).st == 4 with
  | [] => s.setChan n { c with refreshQ := [] }
  | sb :: rest =>
    if c.flushing || c.collect.any (fun g => g.kind == 2 || urgent g) || (c.sbs.getD {} sb).st != 3 then
      s.setChan n { c with refreshQ := sb :: rest }
    else (s.setChan n { c with refreshQ := rest }).beginMove n 2 sb none

/-- Queue a superblock for refresh. -/
def State.queueRefresh (n sb : Nat) (s : State) : State :=
  let c := s.chan n
  if c.refreshQ.contains sb || c.collect.any (·.victim == sb) then s
  else (s.setChan n { c with refreshQ := c.refreshQ ++ [sb] }).nextRefresh n

/-- Read a superblock `k` times; the 2^20th read since its erase queues it for refresh (R212). -/
def State.readSb (n loc k : Nat) (s : State) : State :=
  let s := s.countRead n loc k
  if 2 ^ 20 ≤ ((s.chan n).sbs.getD {} (loc / 4096)).reads then s.queueRefresh n (loc / 4096) else s

/-- A sector is read from the channel itself: its LSN is translated, and the superblock it lies in is read (R196, R210). -/
def State.touch (n i : Nat) (s : State) : State :=
  let s := s.translate n i
  match (s.chan n).locOf i with
  | some l => s.readSb n l 1
  | none => s

/-- The members of a stripe and its parity are read, but for the one on `c`. -/
def State.touchStripe (c e k : Nat) (s : State) : State :=
  forEach (((List.range 32).filter (· != c)).map fun m => if m = k then (m, s.parityIx k e) else (m, memberLsn e k m))
    (fun (p : Nat × Nat) t => t.touch p.1 p.2) s

/-- Wear levelling after an erase (R208). -/
def State.checkWear (n : Nat) (s : State) : State :=
  let c := s.chan n
  let all := c.lunList.flatMap c.dataSbs |>.filter fun sb => (c.sbs.getD {} sb).st != 4
  let count := fun (sb : Nat) => (c.sbs.getD {} sb).erases
  let hi := all.foldl (fun m sb => max m (count sb)) 0
  let lo := all.foldl (fun m sb => min m (count sb)) hi
  let lim := s.fld fCF_TL_CFG_WL_LIMIT n 0
  let go := decide (lim < hi - lo) || (c.levelling && decide (lim - lim / 4 < hi - lo))
  let s := s.setChan n { c with levelling := go }
  if s.isOn fCF_TL_CFG_WL_EN n 0 && go && !c.collect.any (·.kind == 1) then
    let closed := all.filter fun sb => (c.sbs.getD {} sb).st == 3
    let young := closed.foldl (fun o sb => match o with
      | none => some sb
      | some b => if count sb < count b then some sb else some b) none
    let worn := (c.lunList.filterMap fun l => c.pickFree l true).foldl (fun o sb => match o with
      | none => some sb
      | some b => if count b < count sb then some sb else some b) none
    match young, worn with
    | some v, some t => (s.openSb n t 2).beginMove n 1 v (some t)
    | _, _ => s
  else s

/-! ### Formatting and replay (R194, R200, R202) -/

/-- Block records as a checkpoint keeps them (R200, R210). -/
def Chan.blockRecs (c : Chan) : Tbl BlockRec :=
  c.sbs.map fun e => (e.1, ⟨e.2.st, e.2.erases, e.2.openTime, e.2.openTemp⟩)

/-- Set up an empty map and journal for the device's DATA_SECTORS; the journal never reuses a JSEQ. -/
def State.formatCh (n goodUnits : Nat) (newCarrier : Bool) (s : State) : State :=
  let c := s.chan n
  let rated := if newCarrier || c.health.ratedPe == 0 then (Config.free s.freeCount).toNat % 2 ^ 32 else c.health.ratedPe
  let h : Health := if newCarrier then {} else { c.health with retired := 0 }
  let h := { h with goodUnits := goodUnits, s0 := goodUnits - s.neededUnits n, ratedPe := rated }
  let wipe := fun (b : SBlock) => { b with st := if b.st = 4 then 4 else 0, slots := [], nextPage := 0, hint := 0, reads := 0 }
  let fresh : Chan := {
    jNext := c.jNext, present := c.present, pwrEn := c.pwrEn, pwrRise := c.pwrRise, onfiUp := c.onfiUp,
    isolated := c.isolated, temp := c.temp, openS := if newCarrier then c.openS else [],
    acks := if newCarrier then c.acks else [], nextFree := if newCarrier then c.nextFree else 0,
    released := if newCarrier then c.released else [], inbox := c.inbox, targets := c.targets, luns := c.luns,
    pages := c.pages, levels := c.levels, timeOffset := c.timeOffset, timeAt := s.now, health := h, ckptHealth := h,
    sbs := if newCarrier then [] else c.sbs.map fun e => (e.1, wipe e.2) }
  (((s.draw.setChan n { fresh with ckptSbs := fresh.blockRecs }).setStage n).noteFree n).setFld fCF_TL_STATUS_JOURNAL_FILL n 0 0

/-- A superblock's block record as the journal gives it. -/
def Chan.setRec (c : Chan) (sb : Nat) (f : SBlock → SBlock) : Chan := { c with sbs := c.sbs.upd {} sb f }

/-- Apply one journal record on replay. A superblock that was open is closed by reading back its pages. A FOLD drops from the
index the records of its unit that its slot holds. -/
def Chan.apply (c : Chan) (r : JRec) : Chan :=
  match r.pay with
  | .sector i _ _ => { c with jIndex := c.jIndex.put i r.jseq, lost := c.lost.filter (· != i) }
  | .fold u _ new =>
    let same := fun (e : Nat × Nat) => match (c.jrec e.2).map (·.pay), c.atLoc new e.1 with
      | some (.sector _ d _), .data d' _ => d == d'
      | _, _ => false
    let keep := fun (e : Nat × Nat) => e.1 / 16 != u || !same e
    { c with map := c.map.put u new, jIndex := c.jIndex.filter keep }
  | .gcMove u old new => if c.map.get? u = some old then { c with map := c.map.put u new } else c
  | .lost i => { c with lost := if c.lost.contains i then c.lost else c.lost ++ [i], jIndex := c.jIndex.del i }
  | .blockOpen sb t temp => c.setRec sb fun b => { b with st := 3, openTime := t, openTemp := temp }
  | .erase sb n => c.setRec sb fun b => { b with st := 0, erases := n }
  | .retire sb _ => c.setRec sb fun b => { b with st := 4 }
  | _ => c

/-- A superblock as it stands on the media, with the block record of the newest checkpoint; nothing of it is open. -/
def Chan.restored (c : Chan) (sb : Nat) (b : SBlock) : SBlock :=
  let r := c.ckptSbs.getD {} sb
  { b with st := if r.st = 1 ∨ r.st = 2 then 3 else r.st, erases := r.erases, openTime := r.openTime,
           openTemp := r.openTemp, hint := 0, reads := 0, thisStart := false, movedTo := [] }

/-- A superblock that replay finds free and that holds programmed slots was open: it is closed. -/
def SBlock.readBack (b : SBlock) : SBlock := if b.st = 0 ∧ b.nextPage ≠ 0 then { b with st := 3 } else b

/-- The last TIME, CHECKPOINT or CLEAN time among some records. -/
def lastTime (js : List JRec) : Nat :=
  js.foldl (fun m r => match r.pay with
    | .checkpoint t _ => max m t
    | .time t => max m t
    | .clean t => max m t
    | _ => m) 0

/-- Replay of a channel's journal at a start. After a loss of power the records that were only staged are lost; a reset
keeps the staging buffer (R202). -/
def State.replayCh (n : Nat) (powerLost : Bool) (s : State) : State :=
  let c := s.chan n
  let kept := if powerLost then c.journal.takeWhile (!·.staged) else c.journal
  let torn := (c.journal.drop kept.length).head?
  let kept := kept.map fun r => { r with staged := false }
  let base : Chan := { c with
    reqQ := [], qcache := [], ctxs := [], planeQ := [], planeBusy := [], inbox := [], shadowWant := [], acks := [],
    map := c.ckptMap, lost := c.ckptLost, jIndex := [], journal := kept, dirtyMap := [], mapCached := [],
    foldPending := [], collect := [], refreshQ := [], flushing := false, sinceCkpt := 0, ckptAt := s.now, timeAt := s.now,
    planeUse := [], fgReads := 0, rbReads := 0, health := if torn.isSome then c.ckptHealth else c.health,
    timeOffset := ((lastTime kept + 1 : Nat) : Int) - ((s.now / sec : Nat) : Int),
    sbs := c.sbs.map fun e => (e.1, c.restored e.1 e.2) }
  let x := kept.foldl Chan.apply base
  let staged := if powerLost then 0 else stagedBytes c.journal
  let s := (s.setChan n { x with sbs := x.sbs.map fun e => (e.1, SBlock.readBack e.2) }).bump .CF_TL_NAND_BYTES n 0
    ((staged + 65535) / 65536 * 65536)
  let s := ((s.setStage n).noteFree n).setFld fCF_TL_STATUS_JOURNAL_FILL n 0 (min 127 x.fill128)
  let s := (s.setFld fCF_TL_STATUS_FLUSH_DONE n 0 0).setFld fCF_TL_STATUS_TIME_CERTAIN n 0 0
  match torn with
  | some r => (s.bump .CF_TL_HOLDUP_SHORT n 0 1).log (mkErr 0x0208 3 n n r.jseq 0 0)
  | none => s

/-! ### Stripes: sums, degraded reads, writes (R186, R188, R189) -/

def xorBytes (a b : List Byte) : List Byte := List.zipWith (· ^^^ ·) a b

def emptySect : List Byte := zeros 4096

/-- A sector of a channel can be read for its stripe: the channel is in service, nothing spoils it (R188). -/
def State.readable (s : State) (bad : List Nat) (m i : Nat) : Bool :=
  s.chIn m && s.chServes m && !bad.contains m && (s.chan m).look i != .lost

/-- Data bytes and data CRC that a sector contributes to its stripe: zeros and 0 when it was never written. -/
def SectRead.part (r : SectRead) : List Byte × BitVec 32 :=
  match r with
  | .data d _ => (d, crc32c d)
  | _ => (emptySect, 0)

/-- The members of a stripe but the one on `c` (all of them when `c` is no channel): channel and LSN. -/
def others (c e k : Nat) : List (Nat × Nat) :=
  ((List.range 32).filter fun m => m != c && m != k).map fun m => (m, memberLsn e k m)

/-- An open sector of a channel, not yet committed. -/
def State.openAt (s : State) (c lsn : Nat) : Option OpenSect := (s.chan c).openS.find? (·.lsn == lsn)

/-- What a sector contributes to its stripe's parity: an open one what it held before it was opened (R187). -/
def State.parityPart (s : State) (c lsn : Nat) : List Byte × BitVec 32 :=
  match s.openAt c lsn with
  | some o => match o.old with
    | some d => (d, crc32c d)
    | none => (emptySect, 0)
  | none => ((s.chan c).look lsn).part

/-- XOR of data and of data CRCs over some members that can be read. -/
def State.sumOf (s : State) (bad : List Nat) (ms : List (Nat × Nat)) : List Byte × BitVec 32 :=
  ms.foldl (fun acc m =>
    if s.readable bad m.1 m.2 then
      let p := s.parityPart m.1 m.2
      (xorBytes acc.1 p.1, acc.2 ^^^ p.2)
    else acc) (emptySect, 0)

/-- Rebuild the data of sector (c, lsn) from its stripe, with its data CRC (0 for a sector never written): a lost sector
fails (R195), the checks of R189 and, when an owner is named, those of R188. `owner` holds the magic number, the offset of the
owner byte and its value. -/
def State.rebuild (s : State) (c lsn : Nat) (owner : Option (Nat × Nat × Nat)) (bad : List Nat) :
    Option (List Byte × BitVec 32) :=
  let e := stripeSet lsn
  let k := parityCh c lsn
  let ms := others c e k
  if !(s.chan c).lost.contains lsn && (ms.all fun m => s.readable bad m.1 m.2) && s.readable bad k (s.parityIx k e) then
    let (sum, crc) := s.sumOf bad ms
    let (acc, x) := match (s.chan k).look (s.parityIx k e) with
      | .data d w => (xorBytes sum d, crc ^^^ w)
      | _ => (sum, crc)
    let blank := acc == emptySect
    let agree := x == crc32c acc || (blank && x == 0)
    let owned := blank || owner.all fun o => fieldAt acc 0 2 == o.1 && fieldAt acc o.2.1 1 == o.2.2
    if agree && owned then some (acc, if blank && x == 0 then 0 else crc32c acc) else none
  else none

/-- A degraded read of a sector: from its mirror copies while it is open, all of them, else from its stripe; the data CRC
beside it, 0 for a sector never written (R187, R188). -/
def State.degraded (s : State) (c lsn : Nat) (owner : Option (Nat × Nat × Nat)) (bad : List Nat) :
    Option (List Byte × BitVec 32) :=
  match s.openAt c lsn with
  | some o => if o.mirrors.all fun m => s.chServes m && !bad.contains m then some (o.data, crc32c o.data) else none
  | none => s.rebuild c lsn owner bad

/-- The write that follows a degraded read of an in-service channel's sector (R189). -/
def State.repairWrite (c lsn tenant : Nat) (d : List Byte × BitVec 32) (s : State) : State :=
  if s.chIn c then
    s.queueWrite { ch := c, lsn := lsn, data := d.1, old := some d.1, never := d.2 == 0, tenant := tenant, repair := true }
  else s

/-- What a stripe engine's degraded read of a sector for a job does besides its result: it is counted and charged, its
members are read, and its repair or its record follows (R188, R189, R193, R312). -/
def State.noteDegraded (ch lsn : Nat) (j : JobRef) (got : Option (List Byte × BitVec 32)) (s : State) : State :=
  let k := parityCh ch lsn
  let die := dieOfChannel k
  let s := ((s.bump .GE_DEG_READS die 0 1).bump .TN_ACC_FLASH_READS j.tenant 0 31).touchStripe ch (stripeSet lsn) k
  match got with
  | some d => s.repairWrite ch lsn j.tenant d
  | none => (s.bump .GE_DEG_FAIL die 0 1).log ((mkErr 0x0202 1 die ch lsn 0 0).of j)

/-- Old data of a sector to be written, with its CRC. -/
def State.oldData (s : State) (w : SWrite) (bad : List Nat) : Option (List Byte × BitVec 32) :=
  match w.old with
  | some d => some (d, if w.never then 0 else crc32c d)
  | none =>
    if s.chTakes w.ch w.lsn && !bad.contains w.ch then
      match (s.chan w.ch).look w.lsn with
      | .lost => s.rebuild w.ch w.lsn none bad
      | r => some r.part
    else s.rebuild w.ch w.lsn none bad

/-- The parity of a stripe formed afresh from the members that can be read, with `new` for the member on `c` (R186). -/
def State.freshParity (s : State) (c e k : Nat) (new : List Byte) (newCrc : BitVec 32) (bad : List Nat) :
    List Byte × BitVec 32 :=
  let p := s.sumOf bad (others c e k)
  (xorBytes p.1 new, p.2 ^^^ newCrc)

/-- The whole front write of R186, steps 1 to 7; parity only where the channel keeps nothing (R191). -/
def State.frontWrite (w : SWrite) (bad : List Nat) (s : State) : State :=
  let e := stripeSet w.lsn
  let k := parityCh w.ch w.lsn
  let die := dieOfChannel k
  let pix := s.parityIx k e
  let normal := s.chTakes w.ch w.lsn
  let parityIn := s.chTakes k pix
  let newCrc := crc32c w.data
  let (par, wx) := match s.oldData w bad, (s.chan k).look pix with
    | some (old, oldCrc), r =>
      let (p, x) := match r with
        | .data d x => (d, x)
        | _ => (emptySect, 0)
      if bad.contains k || r == .lost then s.freshParity w.ch e k w.data newCrc bad
      else (xorBytes (xorBytes p old) w.data, x ^^^ oldCrc ^^^ newCrc)
    | none, _ => s.freshParity w.ch e k w.data newCrc bad
  let s := match w.old with
    | some _ => s
    | none => if normal then s.touch w.ch w.lsn else s.touchStripe w.ch e k
  let s := if parityIn then s.journal k (.intent e w.ch) else s
  let s := if normal then (s.writeSect w.ch w.lsn w.data none).bump .CF_TL_HOST_BYTES w.ch 0 4096 else s
  let s := if parityIn then ((s.writeSect k pix par (some wx)).bump .CF_TL_HOST_BYTES k 0 4096).journal k (.close e w.ch) else s
  let s := s.bump (if normal then .GE_PAR_WRITES else .GE_PAR_ONLY) die 0 1
  let s := s.bump .TN_ACC_FLASH_WRITES w.tenant 0 1
  let s := if w.repair then s.bump .GE_DEG_REPAIRED die 0 1 else s
  let c := s.chan w.ch
  if w.fromOpen then s.setChan w.ch { c with openS := c.openS.filter (·.lsn != w.lsn) } else s

/-- No more records fit a channel's journal ring (R198). -/
def Chan.ringFull (c : Chan) : Bool := decide (0 < c.health.goodUnits) && decide (128 ≤ c.fill128)

/-- A cuff die accepts sector writes: it is not flushing, and its ring has room (R198, R201). -/
def State.chAccepts (s : State) (n : Nat) : Bool := !(s.chan n).flushing && !(s.chan n).ringFull

/-- A write is done: the times it waited for its stripe lock and for journal space are counted (R193, R215). -/
def State.runWrite (w : SWrite) (bad : List Nat) (s : State) : State :=
  let s := match w.behind with
    | some t => s.bump .GE_STRIPE_WAIT_NS (dieOfChannel (parityCh w.ch w.lsn)) 0 (s.now - t)
    | none => s
  let s := match w.starved with
    | some t => s.bump .CF_TL_WRITE_WAIT_NS w.ch 0 (s.now - t)
    | none => s
  (s.progressed 5 (dieOfChannel (parityCh w.ch w.lsn)) 1).frontWrite w bad

/-- The writes that a stripe engine holds of one sector are done now, in order. -/
def State.serveSector (ch lsn : Nat) (s : State) : State :=
  let d := dieOfChannel (parityCh ch lsn)
  let ws := s.fl.swrites.getD [] d
  let mine := fun (w : SWrite) => w.ch == ch && w.lsn == lsn
  forEach (ws.filter mine) (fun w t => ((t.shape? (2 + ch) w.tenant 4096).getD t).runWrite w [])
    { s with fl := { s.fl with swrites := s.fl.swrites.put d (ws.filter fun w => !mine w) } }

/-! ### Open sectors (R187) -/

/-- Commit an open sector: a front write with zero as its old data, or what a released sector still held. -/
def State.commitOpen (n : Nat) (o : OpenSect) (s : State) : State :=
  let c := s.chan n
  let mark := fun (x : OpenSect) => if x.lsn = o.lsn then { x with closing := true } else x
  (s.setChan n { c with openS := c.openS.map mark }).queueWrite 
    { ch := n, lsn := o.lsn, data := o.data, old := some (o.old.getD emptySect), never := o.old.isNone,
      tenant := o.tenant, fromOpen := true }

/-- Channel for a new open sector: in service, fewest open sectors, lower number (R187). -/
def State.pickChannel (s : State) : Option Nat :=
  ((List.range 32).filter s.chIn).foldl (fun o n => match o with
    | none => some n
    | some b => if (s.chan n).openS.length < (s.chan b).openS.length then some n else some b) none

/-- Channel to which a mirror copy goes now: that of the parity, or the next above it in service (R187). -/
def State.mirrorOf (s : State) (c lsn : Nat) : Nat :=
  let k := parityCh c lsn
  (((List.range 32).map fun i => (k + i) % 32).find? fun m => s.chIn m && m != c).getD k

/-- A sector is opened on a unit that its update reserved for a tenant (R159). -/
def State.useReserved (seq t : Nat) (s : State) : State :=
  let take := fun (j : UpdJob) => if j.seq = seq then { j with reserved := j.reserved.upd 0 t (· - 1) } else j
  { s with idx := { s.idx with updates := s.idx.updates.map take } }

/-- The list's open sector, opened if it has none: channel and sector. A sector that no update has reserved is charged. -/
def State.openFor (r : AppendReq) (s : State) : Option (Nat × OpenSect × State) :=
  let found := (List.range 32).findSome? fun n =>
    ((s.chan n).openS.find? fun o => o.ver == r.ver && o.cluster == r.cluster && !o.closing).map fun o => (n, o)
  match found with
  | some (n, o) => some (n, o, s)
  | none => s.pickChannel.map fun n =>
    let l := s.takeLsn n
    let f := s.cfFmt n r.ver
    let o : OpenSect := { lsn := l.1, ver := r.ver, cluster := r.cluster, data := f.blank (r.ver / 4) (r.ver % 4),
                          records := 0, first := s.now, tenant := r.tenant,
                          old := match (l.2.chan n).look l.1 with
                            | .data d _ => some d
                            | _ => none }
    let c := l.2.chan n
    let t := l.2.setChan n { c with openS := c.openS ++ [o] }
    let t := t.modVersion r.ver fun x => { x with sectors := x.sectors ++ [(n, l.1)] }
    (n, o, if (t.idx.updates.find? (·.seq == r.seq)).any fun j => decide (0 < j.reserved.getD 0 r.tenant) then
        t.useReserved r.seq r.tenant
      else t.addCharge r.tenant 1 1)

/-- Records that a sector of the format holds. -/
def RrFmt.perSector (f : RrFmt) : Nat := f.g * f.ng

/-- Append a record to its list's open sector: journal of the data channel, mirror copy, acknowledgement (R187, R46). -/
def State.appendRecord (r : AppendReq) (s : State) : State :=
  match s.openFor r with
  | none => s
  | some (n, o, s) =>
    let f := s.cfFmt n r.ver
    let i := o.records
    let data := f.putRecord o.data i r.record
    let m := s.mirrorOf n o.lsn
    let o' := { o with data := data, records := i + 1, mirrors := o.mirrors ++ [m] }
    let put := fun (x : OpenSect) => if x.lsn = o.lsn then o' else x
    let ack := (r.seq, r.slotIx, sidecarOf n o.lsn (f.codeOff i))
    let s := s.writeSect n o.lsn data none
    let s := s.journal m (.mirror n o.lsn (f.codeOff i) r.record)
    let c := s.chan n
    let s := s.setChan n { c with openS := c.openS.map put, acks := c.acks ++ [ack] }
    if f.perSector ≤ i + 1 then s.commitOpen n o' else s

end Sys2Proof.Machine
end

