-- ==== Sys2Proof/Machine/TableStore.lean ====
section
/-! DEFINITION. FP16 tables (07): geometry, rows on flash and in the hatpin set, row reads and writes on the authoritative
copy, optimiser steps, partial sums (R134 to R153). -/

namespace Sys2Proof.Machine

/-! ### Geometry (R135 to R138) -/

def State.tblW (s : State) (t : Nat) : Nat := s.fld fGE_TBL_GEOM_W t 0
def State.tblType (s : State) (t : Nat) : Nat := s.fld fGE_TBL_GEOM_TYPE t 0
def State.momFp32 (s : State) (t : Nat) : Bool := s.isOn fGE_TBL_GEOM_MOM_FP32 t 0

/-- Moments of a table type (R137). -/
def momentsOf (ty : Nat) : Nat := match ty with
  | 2 => 1
  | 3 => 1
  | 4 => 2
  | _ => 0

/-- c of R137: bytes of a record for each column. -/
def State.tblC (s : State) (t : Nat) : Nat := 2 + momentsOf (s.tblType t) * (if s.momFp32 t then 4 else 2)

def State.rowBytes (s : State) (t : Nat) : Nat := s.tblW t * s.tblC t
def State.rps (s : State) (t : Nat) : Nat := 4048 / max 1 (s.rowBytes t)

/-- Channel and LSN of table sector n (R138). -/
def State.tblSector (s : State) (t v n : Nat) : Nat × Nat := (n % 32, 16 * s.fld fGE_TBL_VER_BG_BASE t v + n / 32)

/-- Owner of a table sector for a degraded read: magic, offset and value of OWNER (R139, R188). -/
def tblOwnerByte (t v : Nat) : Nat × Nat × Nat := (0xF1E7, 6, t + 32 * v)

/-- Header of a table sector with no record written (R139). -/
def State.tblHeader (s : State) (t v n : Nat) : List Byte :=
  leBytes 2 0xF1E7 ++ leBytes 1 (s.tblType t + if s.momFp32 t then 8 else 0) ++ leBytes 1 (s.rps t)
    ++ leBytes 2 (s.tblW t) ++ leBytes 1 (t + 32 * v) ++ leBytes 1 (s.fld fGE_TBL_GEOM_SLICE t 0) ++ zeros 16
    ++ leBytes 8 n ++ zeros 16

/-- A sector's header agrees with the table registers: PRESENT and the last 16 bytes are not compared. -/
def State.tblAgrees (s : State) (t v n : Nat) (d : List Byte) : Bool :=
  let h := s.tblHeader t v n
  d.take 8 == h.take 8 && (d.drop 24).take 8 == (h.drop 24).take 8

/-! ### Versions of tables (R142, R143) -/

def State.tblValid (s : State) (t v : Nat) : Bool := (s.fld fGE_TBL_CTL_VALID t 0).testBit v
def State.tblRetiring (s : State) (t v : Nat) : Bool := (s.fld fGE_TBL_CTL_RETIRING t 0).testBit v

/-- The version slot a command captures. -/
def State.captureTbl (s : State) (t : Nat) (named : Bool) (num : Nat) : Option Nat :=
  if named then
    firstFit (fun v => s.tblValid t v && !s.tblRetiring t v && s.fld fGE_TBL_VER_VERSION t v == num) 4
  else (some (s.fld fGE_TBL_CTL_CURRENT t 0)).filter (s.tblValid t)

/-! ### Rows (R139 to R141) -/

/-- What a row slice reads as. -/
inductive RowRead where
  | row (bytes : List Byte)
  | absent
  | unreadable
  deriving DecidableEq, Repr

/-- The row is pinned: its authoritative copy is its hatpin slot, also while it is leaving the set. -/
def State.pinned (s : State) (t v r : Nat) : Option RowRec :=
  let h := s.tbl.hatpin
  let old := h.swap.bind fun w => if w.oldTbl = t ∧ w.oldVslot = v then w.leaving.get? r else none
  if h.table = t ∧ h.vslot = v then (match h.rows.get? r with
    | some x => some x
    | none => old)
  else old

/-- Give a pinned row slice a new content. -/
def Hatpin.putRow (h : Hatpin) (t v r : Nat) (x : RowRec) : Hatpin :=
  if h.table = t ∧ h.vslot = v ∧ (h.rows.get? r).isSome then { h with rows := h.rows.put r x }
  else match h.swap with
    | some w => { h with swap := some { w with leaving := w.leaving.put r x } }
    | none => h

/-- A table sector as its own channel gives it, when the channel mask that routes the read has it; none: the channel is out,
the sector is lost, or its header does not agree (R139, R191). -/
def State.tblDirect (s : State) (t v n : Nat) (mask : BitVec 32) : Option (Option (List Byte)) :=
  let p := s.tblSector t v n
  if mask.getLsbD p.1 && s.chServes p.1 then (match (s.chan p.1).look p.2 with
    | .data d _ => if d = emptySect then some none else if s.tblAgrees t v n d then some (some d) else none
    | .never => some none
    | .lost => none) else none

/-- A table sector rebuilt by its stripe engine, with its data CRC; none: the degraded read fails (R188, R189). -/
def State.tblRebuilt (s : State) (t v n : Nat) : Option (List Byte × BitVec 32) :=
  let p := s.tblSector t v n
  (s.rebuild p.1 p.2 (some (tblOwnerByte t v)) []).filter fun d => d.1 == emptySect || s.tblAgrees t v n d.1

/-- A table sector's data, by a degraded read where its channel does not give it. -/
def State.tblData (s : State) (t v n : Nat) (mask : BitVec 32) : Option (Option (List Byte)) :=
  match s.tblDirect t v n mask with
  | some d => some d
  | none => (s.tblRebuilt t v n).map fun d => if d.1 = emptySect then none else some d.1

/-- Read one row slice on its authoritative copy; `bad` names rows whose read fails, from flash or from the hatpin set (R139
to R141, R221). -/
def State.readRow (s : State) (t v r : Nat) (mask : BitVec 32) (bad : List Nat) : RowRead :=
  if bad.contains r then .unreadable
  else match s.pinned t v r with
  | some x => if x.present then .row x.bytes else .absent
  | none =>
    match s.tblData t v (r / s.rps t) mask with
      | some (some d) =>
        let i := r % s.rps t
        if (fieldAt d 8 16).testBit i then .row ((d.drop (48 + i * s.rowBytes t)).take (s.rowBytes t)) else .absent
      | some none => .absent
      | none => .unreadable

/-- What the read of an unpinned row slice does: its channel reads the sector, or the stripe engine's degraded read is
counted, charged to the job's tenant and followed by its repair (R188, R189, R193, R312). A row that `bad` names is one
whose degraded read fails too; the record of a failure names the job. -/
def State.fetchRow (t v : Nat) (j : JobRef) (mask : BitVec 32) (bad : List Nat) (r : Nat) (s : State) : State :=
  let n := r / s.rps t
  let p := s.tblSector t v n
  if (s.tblDirect t v n mask).isSome && !bad.contains r then s.touch p.1 p.2
  else s.noteDegraded p.1 p.2 j ((s.tblRebuilt t v n).filter fun _ => !bad.contains r)

/-- A row slice is read on its authoritative copy: what that does. A hatpin slot that cannot be read is consumer 5 of R221. -/
def State.noteRead (t v : Nat) (j : JobRef) (mask : BitVec 32) (bad : List Nat) (r : Nat) (s : State) : State :=
  if (s.pinned t v r).isNone then s.fetchRow t v j mask bad r
  else if bad.contains r then s.dramUncorrFree 1 (r % 5) 5 (ErrRec.of · j)
  else s

/-- Write a row's record into its flash sector and set its PRESENT bit, under the stripe engine's lock (R185); false: the
sector cannot be read. -/
def State.writeRowFlash (t v r tenant : Nat) (bytes : List Byte) (s : State) : Bool × State :=
  let n := r / s.rps t
  let i := r % s.rps t
  let p := s.tblSector t v n
  let was := s.tblData t v n s.chMask
  let s := s.fetchRow t v { tenant := tenant } s.chMask [] r
  match was with
  | none => (false, s)
  | some o =>
    let d := o.getD (s.tblHeader t v n ++ zeros 4048)
    let d := patch d (48 + i * s.rowBytes t) bytes
    let d := patch d 8 (leBytes 16 (fieldAt d 8 16 ||| 2 ^ i))
    let w : SWrite :=
      { ch := p.1, lsn := p.2, data := d, old := some (o.getD emptySect), never := o.isNone, tenant := tenant }
    (true, (s.queueWrite w).serveSector p.1 p.2)

/-- Rows of the hatpin set that are dirty. -/
def Hatpin.dirty (h : Hatpin) : List (Nat × RowRec) :=
  h.rows.filter (·.2.dirty) ++ (h.swap.elim [] (·.leaving)).filter (·.2.dirty)

def State.setHatpin (h : Hatpin) (s : State) : State := { s with tbl := { s.tbl with hatpin := h } }

/-- Keep the highest count of dirty rows. -/
def State.noteDirty (s : State) : State :=
  forEach (List.range 5) (fun d t =>
    t.raise .GE_HP_DIRTY_MAX d 0 (t.tbl.hatpin.dirty.filter fun e => e.1 % 5 == d).length) s

/-- Write a row slice on its authoritative copy (R141, R146). -/
def State.writeRow (t v r tenant : Nat) (bytes : List Byte) (s : State) : State :=
  match s.pinned t v r with
  | some _ =>
    let through := s.isOn fGE_TBL_CTL_WRITE_THROUGH t 0
    let s := s.setHatpin (s.tbl.hatpin.putRow t v r { bytes := bytes, dirty := !through })
    if through then (s.writeRowFlash t v r tenant bytes).2 else s.noteDirty
  | none => (s.writeRowFlash t v r tenant bytes).2

/-! ### Row accesses (R140, R153, R185) -/

/-- Entry of a row's lock on its owning die. -/
def lockOf (r : Nat) : Nat := r / 5 % 4096

def State.rowsOf (s : State) (die : Nat) : List RowAccess := s.tbl.rowQ.getD [] die

/-- Detector entries in use on a die. -/
def State.noteHeavy (die : Nat) (s : State) : State :=
  s.setFld fGE_STATUS_HH_USED die 0 ((s.rowsOf die).filter (·.heavy)).length

/-- The engines that own some rows run. -/
def State.rowsUp (s : State) (rows : List Nat) : Bool := rows.all fun r => !s.dieReset (r % 5)

/-- An access that waits has the lock entry of a row. -/
def State.rowWaits (s : State) (r : Nat) : Bool := (s.rowsOf (r % 5)).any fun a => lockOf a.row == lockOf r

/-- A write of a row slice to flash goes ahead: the stripe engine runs, both channels accept writes, and the channel's shaper
passes it (R185, R198, R201, R301). -/
def State.flashGoes (s : State) (t v r tenant : Nat) : Bool :=
  let p := s.tblSector t v (r / s.rps t)
  let k := parityCh p.1 p.2
  !s.dieReset (dieOfChannel k) && s.chAccepts p.1 && s.chAccepts k && (s.shape? (2 + p.1) tenant 4096).isSome

/-- A write of a row slice goes ahead: its engine runs, and where it reaches flash, so does that write. -/
def State.writeGoes (s : State) (t v r tenant : Nat) : Bool :=
  s.rowsUp [r] && (((s.pinned t v r).isSome && !s.isOn fGE_TBL_CTL_WRITE_THROUGH t 0) || s.flashGoes t v r tenant)

/-! ### Optimiser steps (R151) -/

/-- FP32 words of some bytes. -/
def words32 : List Byte → List (BitVec 32)
  | a :: b :: c :: d :: t => (d ++ c ++ b ++ a) :: words32 t
  | _ => []

/-- The moment arrays of a record, as FP32. -/
def State.moments (s : State) (t : Nat) (rec : List Byte) : List (List (BitVec 32)) :=
  let w := s.tblW t
  (List.range (momentsOf (s.tblType t))).map fun j =>
    if s.momFp32 t then words32 ((rec.drop (2 * w + 4 * w * j)).take (4 * w))
    else (halves ((rec.drop (2 * w + 2 * w * j)).take (2 * w))).map widen

/-- Parameters of a step, read at the batch's admission: β1, β2, ε. -/
structure StepPar where
  b1 : BitVec 32
  b2 : BitVec 32
  eps : BitVec 32
  deriving DecidableEq, Repr

def State.stepPar (s : State) (t : Nat) : StepPar :=
  ⟨BitVec.ofNat 32 (s.fld fGE_TBL_OPT_BETA1 t 0), BitVec.ofNat 32 (s.fld fGE_TBL_OPT_BETA2 t 0),
   BitVec.ofNat 32 (s.fld fGE_TBL_EPS_EPS t 0)⟩

/-- One element of an optimiser step: w' and the new moments. -/
def stepElem (ty : Nat) (p : StepPar) (eta w m v g : BitVec 32) : BitVec 32 × List (BitVec 32) :=
  let one := ofInt32 1
  match ty with
  | 1 => (fsub w (fmul eta g), [])
  | 2 => let m' := fadd (fmul p.b1 m) g
    (fsub w (fmul eta m'), [m'])
  | 3 => let v' := fadd m (fmul g g)
    (fsub w (fdiv (fmul eta g) (fadd (fsqrt v') p.eps)), [v'])
  | 4 =>
    let m' := fadd (fmul p.b1 m) (fmul (fsub one p.b1) g)
    let v' := fadd (fmul p.b2 v) (fmul (fmul (fsub one p.b2) g) g)
    (fsub w (fdiv (fmul eta m') (fadd (fsqrt v') p.eps)), [m', v'])
  | _ => (w, [])

/-- Narrow the elements of an array with the lanes of a gather engine, with its counters (R131). -/
def State.narrowAll (die : Nat) (key : BitVec 32) (xs : List (BitVec 32)) (s : State) : List (BitVec 16) × State :=
  let r := s.roundAll (gatherLane die) key (fun _ x d => srFp16 x d) xs
  let n := fun (k : Narrow) => (r.1.filter fun p => p.2 == k).length
  (r.1.map (·.1), ((r.2.bump .GE_SR_DRAWS die 0 xs.length).bump .GE_SR_SAT die 0 (n .saturated)).bump .GE_SR_NAN die 0
    (n .nan))

/-- The optimiser step of one row slice, with its write-back (log entry 38: the row first, then each moment). A row that is
absent or cannot be read takes no step and is not counted as stepped: the model's choice (log entry 82). -/
def State.stepRow (t v r tenant : Nat) (key : BitVec 32) (p : StepPar) (eta : BitVec 32) (g : List (BitVec 32))
    (s : State) : Bool × State :=
  match s.readRow t v r s.chMask [] with
  | .row rec =>
    let w := (halves (rec.take (2 * s.tblW t))).map widen
    let ms := s.moments t rec
    let el := fun (i : Nat) => stepElem (s.tblType t) p eta (w.getD i 0) ((ms.getD 0 []).getD i 0)
      ((ms.getD 1 []).getD i 0) (g.getD i 0)
    let out := (List.range (s.tblW t)).map el
    let a := s.narrowAll (r % 5) key (out.map (·.1))
    let b := (List.range ms.length).foldl (fun (acc : List Byte × State) j =>
      let col := out.map fun o => o.2.getD j 0
      if s.momFp32 t then (acc.1 ++ col.flatMap (fun x => leBytes 4 x.toNat), acc.2)
      else
        let n := acc.2.narrowAll (r % 5) key col
        (acc.1 ++ halfBytes n.1, n.2)) (halfBytes a.1, a.2)
    (true, (b.2.bump .GE_UPD_STEPS (r % 5) 0 1).writeRow t v r tenant b.1)
  | _ => (false, s.noteRead t v { tenant := tenant } s.chMask [] r)

/-! ### Partial sums (R123, R147, R148) -/

/-- The marker for a row that cannot be read. -/
def marker : BitVec 32 := 0x7FA00001

/-- Partial dot product of a row slice with a query slice, and what the row read gave. -/
def State.partialSum (s : State) (t v r : Nat) (q : List (BitVec 16)) (mask : BitVec 32) (bad : List Nat) :
    RowRead × BitVec 32 :=
  let x := s.readRow t v r mask bad
  match x with
  | .row rec => (x, dot16 q (halves (rec.take (2 * s.tblW t))))
  | _ => (x, marker)

/-- The row slices are read for partial sums: the reads, and their counters (R156). -/
def State.noteDots (t v : Nat) (j : JobRef) (mask : BitVec 32) (bad rows : List Nat) (s : State) : State :=
  forEach rows (fun r u =>
    let hit := (u.pinned t v r).isSome
    let u := (u.bump .GE_DOT_ROWS (r % 5) 0 1).bump .GE_DOT_PINNED (r % 5) 0 (if hit then 1 else 0)
    let u := if hit then u.bump .TN_ACC_DRAM_BYTES j.tenant 0 (2 * u.tblW t) else u
    u.noteRead t v j mask bad r) s

/-- Bands in service that a partition owns, on any die. -/
def State.partBands (s : State) (pn : Nat) : List Nat := (List.range 5).flatMap (s.bandsOf pn)

/-- Tasks on a band that hold lanes. -/
def State.laneTasks (s : State) (b : Nat) : Nat := (s.qry.tasks.filter fun t => t.band == b && t.lanes != []).length

/-- The band that R148 chooses: fewest tasks holding lanes, ties to the lowest number. -/
def State.pickBand (s : State) (pn : Nat) : Option Nat :=
  (s.partBands pn).foldl (fun o b => match o with
    | none => some b
    | some a => if s.laneTasks b < s.laneTasks a then some b else some a) none

/-! ### Steps in arrival order (R140, R151) -/

/-- A batch whose last row access is done completes. -/
def State.settleBatch (seq : Nat) (s : State) : State :=
  match s.tbl.tblJobs.find? (·.seq == seq) with
  | none => s
  | some j =>
    if j.remaining = 0 then
      let s := ({ s with tbl := { s.tbl with tblJobs := s.tbl.tblJobs.filter (·.seq != seq) } }).releaseTable j.tbl j.vslot
      match s.cmd? j.ctx seq with
      | some m => s.gFinish j.ctx m { info := j.stepped }
      | none => s
    else s

/-- Tenant that a row access is charged to: the owner of the version's flash. -/
def State.rowOwner (s : State) (a : RowAccess) : Nat := s.tbl.tblOwner.getD (s.ctxTenant a.ctx) (4 * a.tbl + a.vslot)

/-- The first waiting access of a die takes its lock and steps its row on the authoritative copy, once its write can go ahead
(R140, R141, R151). -/
def State.grantRow (die : Nat) (s : State) : State :=
  match s.rowsOf die with
  | [] => s
  | a :: rest =>
    if !s.writeGoes a.tbl a.vslot a.row (s.rowOwner a) then s
    else
      let s := { s with tbl := { s.tbl with rowQ := s.tbl.rowQ.put die rest } }.progressed 5 die 1
      let s := if a.waited then s.bump .GE_LOCK_WAIT_NS die 0 (s.now - a.since) else s
      let r := s.stepRow a.tbl a.vslot a.row (s.rowOwner a) (s.ctx a.ctx).key ⟨a.b1, a.b2, a.eps⟩ a.eta a.grad
      let done := fun (j : TblJob) =>
        if j.seq = a.cmd then { j with remaining := j.remaining - 1, stepped := j.stepped + if r.1 then 1 else 0 } else j
      let s := { r.2 with tbl := { r.2.tbl with tblJobs := r.2.tbl.tblJobs.map done } }
      (s.noteHeavy die).settleBatch a.cmd

/-- Grant every access that waits before a new access to some rows: locks are granted in arrival order (R140). -/
def State.drainDie (rows : List Nat) (die : Nat) : Nat → State → State
  | 0, s => s
  | n + 1, s =>
    let mine := (rows.filter fun r => r % 5 == die).map lockOf
    if (s.rowsOf die).any fun a => mine.contains (lockOf a.row) then State.drainDie rows die n (s.grantRow die) else s

/-- The accesses that wait ahead of a new access to some rows are granted first, as far as they can go. Rows that no longer
wait have waited for their lock, no time on the device's clock. -/
def State.drainRows (rows : List Nat) (s : State) : State :=
  let behind := rows.filter s.rowWaits
  let s := forEach (List.range 5) (fun d t => t.drainDie rows d (t.rowsOf d).length) s
  forEach behind (fun r t => if t.rowWaits r then t else t.bump .GE_LOCK_WAIT (r % 5) 0 1) s

/-- Some rows can be read now: their engines run, and no access waits ahead. -/
def State.rowsFree (s : State) (rows : List Nat) : Bool := s.rowsUp rows && !rows.any s.rowWaits

end Sys2Proof.Machine
end

