-- ==== Sys2Proof/Machine/Stage.lean ====
section
/-! DEFINITION. The re-rank stages of a query: the start and end of the flash stage (R178 to R180, R191, R232), the FP16
stage (R147 to R149), their degraded ends, and late records (R233). -/

namespace Sys2Proof.Machine

def State.atTrr (s : State) (x : Query) : Bool := x.tRr.any fun t => decide (t ≤ s.now)

/-- A record or partial sum that no stage awaits (R233). -/
def State.late (pn : Nat) (s : State) : State := s.bump .TN_DL_LATE_RECORDS pn 0 1

/-- The job of a query, with a tag, as an error record names it. -/
def Query.jobRef (x : Query) (tag : Nat) : JobRef :=
  { ctx := x.ctx, commandId := x.commandId, tenant := x.tenant, tag := tag }

/-- The error record of a DRAM word that a home die could not read; the spec leaves its stack and address open here. -/
def State.dramUncorr (die consumer : Nat) (x : Query) (s : State) : State :=
  s.dramUncorrFree 1 die consumer (ErrRec.of · (x.jobRef 0))

/-- A FLASH_ABSENT record (R46, R180). -/
def State.flashAbsent (ch lsn rstatus : Nat) (x : Query) (s : State) : State :=
  s.log ((mkErr 0x0201 1 x.home ch lsn rstatus 0).of (x.jobRef 0))

/-! ### The FP16 stage (R147 to R149) -/

/-- A query's row after the flash stage, of its scored candidates. -/
def Query.scored (x : Query) : List Elem := (x.cands.filter (·.st == 1)).map fun c => { c.elem with score := c.score }

/-- The FP16 stage cannot go on: DEGRADED, and the scores of the previous stage stand (R149). -/
def State.fp16Degraded (q : Nat) (s : State) : State :=
  match s.query q with
  | none => s
  | some x =>
    let s := s.closeRegion x
    let x := { x.flag flDegraded with region := none }
    if x.flashStage then
      let kind := (s.pjFmt x.home x.ver).kind
      (s.setQuery q { x with stage := .flash }).finalSelect q kind x.homeList
    else (s.setQuery q { x with stage := .done }).finalSelect q .hamming x.homeList

/-- An unreachable slice holder (R149). The record's fourth word names the slice (log entry 39). -/
def State.unreachable (q slice conn : Nat) (s : State) : State :=
  match s.query q with
  | none => s
  | some x =>
    let st := someStatus (Config.free s.freeCount).toNat
    let s := (s.draw.bump .GE_REQ_UNREACHABLE x.home 0 1).log { mkErr 0x0301 5 (s.connDie conn) conn st 0 slice with
      ctx := x.ctx, commandId := x.commandId, tenant := x.tenant }
    s.fp16Degraded q

/-- Columns of slice j, as the requester knows them from its own geometry (log entry 37). -/
def State.sliceCols (s : State) (t j : Nat) : Nat × Nat :=
  let d := s.fld fGE_TBL_GEOM_COLS t 0
  let lo := s.fld fGE_TBL_GEOM_COL_LO t 0
  let w := s.tblW t
  let me := s.fld fGE_TBL_GEOM_SLICE t 0
  let g := s.fld fGE_TBL_GEOM_G_M1 t 0 + 1
  if j = me then (lo, w)
  else if j < me then (lo / me * j, lo / me)
  else
    let rest := (d - lo - w) / (g - 1 - me)
    (lo + w + rest * (j - me - 1), rest)

/-- The first reduction region that is free (R281). -/
def State.freeRegion (s : State) : Option Nat :=
  ((List.range (s.fld fXT_RR_POOL_COUNT 0 0)).map (s.fld fXT_RR_POOL_BASE 0 0 + ·)).find? fun r =>
    s.fld fXT_RGN_CTL_STATE r 0 == 0

/-- Validate a reduction region for a protection domain: writable, its memory on the home die. -/
def State.openRegion (r die pd bytes : Nat) (s : State) : State :=
  let a := s.freshAddr (4096 * kib4 bytes) 4096
  let s := (a.2.setFld fXT_RGN_BASE_DIE r 0 die).setFld fXT_RGN_BASE_ADDR r 0 (a.1 / 4096)
  let s := ((s.setFld fXT_RGN_CTL_PD r 0 pd).setFld fXT_RGN_CTL_RD r 0 0).setFld fXT_RGN_CTL_WR r 0 1
  let s := (s.setFld fXT_RGN_CTL_KEY_REQ r 0 1).setFld fXT_RGN_CTL_SIZE_4K r 0 (kib4 bytes)
  s.setFld fXT_RGN_CTL_STATE r 0 1

/-- A partial-sum request (R148). -/
def State.partialReq (s : State) (x : Query) (q slice region n : Nat) (rows : List Nat) : List Byte :=
  let c := s.sliceCols x.tbl slice
  leBytes 1 x.tbl ++ leBytes 1 slice ++ leBytes 2 x.tblVersion ++ leBytes 4 n ++ leBytes 8 q
    ++ leBytes 4 (s.fld fXT_RGN_CTL_KEY region 0 * 2 ^ 24 + region) ++ leBytes 4 (slice * 4 * n)
    ++ leBytes 2 x.sync ++ zeros 6 ++ halfBytes ((x.fp16.drop c.1).take c.2) ++ rows.flatMap (leBytes 8)

/-- Final selection of the FP16 stage: reduce each candidate's sums in slice order (R123). -/
def State.reduceFp16 (q : Nat) (s : State) : State :=
  match s.query q with
  | none => s
  | some x =>
    let n := (x.cands.filter (·.st == 0)).length
    let r := x.region.getD 0
    let live := x.cands.filter (·.st == 0)
    let peer := fun (pos j : Nat) =>
      BitVec.ofNat 32 (leNat (s.rdDram (s.rgnDie r) (s.rgnAddr r (j * 4 * n + 4 * pos)) 4))
    let sums := fun (p : Nat × Cand) =>
      (List.range (s.fld fGE_TBL_GEOM_G_M1 x.tbl 0 + 1)).map fun j =>
        if x.reqSlices.contains j then peer p.1 j else p.2.parts.getD marker j
    let scored := ((List.range n).zip live).map fun p => (p.2, sums p)
    let good := scored.filter fun p => !p.2.contains marker
    let lost := scored.length - good.length
    let row := good.map fun p => { p.1.elem with score := plusZero (p.2.foldl fadd 0) }
    let s := (s.closeRegion x).bump .GE_ABSENT x.home 0 lost
    let x := if lost = 0 then x else x.skip lost
    (s.setQuery q { x with region := none, cands := good.map (·.1) }).finalSelect q .float row

/-- All the partial sums of a stage are present: the requester's wait on its sync object is satisfied (R147, R149). -/
def State.fp16Ready (s : State) (x : Query) : Bool :=
  x.stage == .fp16 && x.region.isSome
    && decide (x.reqSlices.length ≤ (s.syVal x.sync - x.syncBase).toNat)

/-- Send the requests of the stage and form this device's own partial sums (R147 steps 3 and 4). It waits for a free reduction
region, and for the row accesses ahead of its own. -/
def State.launchFp16 (q : Nat) (bad : List Nat) (s : State) : State :=
  match s.query q with
  | none => s
  | some x =>
    let me := s.fld fGE_TBL_GEOM_SLICE x.tbl 0
    let g := s.fld fGE_TBL_GEOM_G_M1 x.tbl 0 + 1
    let slices := (List.range g).filter (· != me)
    let conn := fun (j : Nat) => s.fld fGE_TBL_PEER_CONN x.tbl j
    let reach := fun (j : Nat) => s.isOn fGE_TBL_PEER_V x.tbl j && s.fld fXT_CONN_CFG_STATE (conn j) 0 == 1
    match slices.find? fun j => !reach j with
    | some j => s.unreachable q j (conn j)
    | none =>
      let rows := (x.cands.filter (·.st == 0)).map (·.row)
      let s := s.drainRows rows
      match s.freeRegion.filter fun _ => s.rowsFree rows with
      | none => s
      | some r =>
        let n := rows.length
        let pd := s.fld fXT_CONN_CFG_PD (conn (slices.headD 0)) 0
        let sy := (Config.free s.freeCount).toNat % 16384
        let s := (s.draw.openRegion r x.home pd (4 * n * g)).noteDots x.tbl x.tblVslot (x.jobRef q) x.mask bad rows
        let s := (s.setFld fSY_CFG_REMOTE sy 0 1).setFld fSY_CFG_PD sy 0 pd
        let s := { s with net := { s.net with regionPn := s.net.regionPn.put r x.pn } }
        let c := s.sliceCols x.tbl me
        let mine := (x.fp16.drop c.1).take c.2
        let own := fun (cd : Cand) =>
          if cd.st = 0 then { cd with parts := [(me, (s.partialSum x.tbl x.tblVslot cd.row mine x.mask bad).2)] } else cd
        let x := { x with cands := x.cands.map own, region := some r, reqSlices := slices, sync := sy,
                          syncBase := s.syVal sy, reqWrs := [] }
        let s := s.setQuery q x
        forEach slices (fun j t =>
          let id := t.net.twrOrder
          let t := t.postSend (conn j) 2 false (t.partialReq x q j r n rows)
          t.modQuery q fun y => { y with reqWrs := y.reqWrs ++ [id] }) s

/-- Start the FP16 stage on the first F candidates of the re-rank row (R147). Past T_rr, or with no band of the table's
partition in service, the query ends on the row's own scores, DEGRADED; the latter is the model's choice for the requester's
own slice (R149, R232, log entry 73). -/
def State.startFp16 (q : Nat) (kind : Kind) (row : List Elem) (bad : List Nat) (s : State) : State :=
  match s.query q with
  | none => s
  | some x =>
    if s.atTrr x || (s.partBands (s.fld fGE_TBL_CTL_PN x.tbl 0)) == [] then
      (s.setQuery q { x with homeList := row }).fp16Degraded q
    else
      let v := s.version x.ver
      let sel := select kind (·.canon) x.f row
      let first := sel.kept
      let s := (s.noteNans x.home kind row).noteSelect x.home sel
      let x := if sel.approx then x.flag flApprox else x
      let shift := s.fld fGE_TBL_GEOM_ROW_SHIFT x.tbl 0
      let nbits := s.fld fGE_TBL_GEOM_ROW_BITS x.tbl 0
      let rowOf := fun (e : Elem) => (v.idMap.getD 0 e.canon).toNat / 2 ^ shift % 2 ^ nbits
      let gone := fun (e : Elem) =>
        decide (s.fld fGE_TBL_ROWS_ROWS x.tbl x.tblVslot ≤ rowOf e)
          || s.readRow x.tbl x.tblVslot (rowOf e) s.chMask bad == .absent
      let cands := first.map fun e => ({ elem := e, row := rowOf e, st := if gone e then 2 else 0 } : Cand)
      let lost := (cands.filter (·.st == 2)).length
      let mask := s.chMask
      let rows := s.fld fGE_TBL_ROWS_ROWS x.tbl x.tblVslot
      let s := forEach (cands.filter (·.st == 2)) (fun c t =>
        let t := t.bump .GE_ABSENT (c.row % 5) 0 1
        if c.row < rows then t.noteRead x.tbl x.tblVslot (x.jobRef q) mask bad c.row else t) s
      let x := if lost = 0 then x else x.skip lost
      let s := s.setQuery q { x with stage := .fp16, cands := cands, homeList := row, region := none, reqSlices := [],
                                     mask := mask }
      if lost = cands.length then (s.setQuery q { x with stage := .fp16, cands := [] }).finalSelect q .float []
      else s.launchFp16 q bad

/-- Stages that found no free reduction region, or the engine of a row in reset, try again. -/
def State.retryFp16 (s : State) : State :=
  forEach ((s.qry.queries.filter fun e => e.2.stage == .fp16 && e.2.region.isNone).map (·.1)) (fun q t => t.launchFp16 q []) s

/-- Why a member refuses a partial-sum request (R149): the version is not there, or it cannot serve; the status of the latter is
a free one. None: it serves. -/
def State.psumRefusal (s : State) (b : List Byte) : Option Nat :=
  let t := fieldAt b 0 1 % 32
  if (s.captureTbl t true (fieldAt b 2 2)).isNone then some stBadVersion
  else if s.fld fGE_TBL_GEOM_SLICE t 0 ≠ fieldAt b 1 1 ∨ s.partBands (s.fld fGE_TBL_CTL_PN t 0) = []
      ∨ !s.isOn fGE_TBL_CTL_ENABLE t 0 then some (otherStatus (Config.free s.freeCount).toNat)
  else none

/-- Refuse a partial-sum request with NAK_STATUS. -/
def State.refusePsum (c msn st : Nat) (s : State) : State := (s.draw.bump .GE_REQ_REFUSED 0 0 1).sendCtl c 4 msn 0 st

/-- A request's SEND has failed: refused for want of the version, refused otherwise, or not delivered (R149, R274). -/
def State.fp16Refused (wr status : Nat) (s : State) : State :=
  match s.qry.queries.find? fun e => e.2.reqWrs.contains wr && e.2.stage == .fp16 with
  | some (q, x) => if status = stBadVersion then (s.closeRegion x).failQuery q stBadVersion else s.fp16Degraded q
  | none => s

/-- The connection of a request's SEND is lost (R149, R274). -/
def State.fp16Lost (wrs : List Nat) (conn : Nat) (s : State) : State :=
  forEach wrs (fun w t =>
    match t.qry.queries.find? fun e => e.2.reqWrs.contains w && e.2.stage == .fp16 with
    | some (q, x) => t.unreachable q (x.reqSlices.getD (x.reqWrs.idxOf w) 0) conn
    | none => t) s

/-! ### The flash stage (R178 to R180, R191, R232) -/

/-- End of the flash stage: the FP16 stage, or the final selection. -/
def State.endFlash (q : Nat) (s : State) : State :=
  match s.query q with
  | none => s
  | some x =>
    if x.stage = .flash ∧ x.cands.all fun c => c.st == 1 || c.st == 2 then
      let kind := (s.pjFmt x.home x.ver).kind
      let row := x.scored
      let s := s.setQuery q { x with rebuilt := (x.cands.filter (·.rebuilt)).map (·.elem.order) }
      if x.fp16Stage then s.startFp16 q kind row []
      else s.finalSelect q kind row
    else s

/-- Exclude a candidate (R180). -/
def State.excludeCand (q cand : Nat) (s : State) : State :=
  (s.modQuery q fun x =>
    let c := (x.cands[cand]?).map fun c => { c with st := 2 }
    { x.skip 1 with cands := match c with
      | some c => x.cands.set cand c
      | none => x.cands }).endFlash q

/-- A candidate of a stage that still awaits an answer. -/
def Query.awaits (x : Query) (cand : Nat) : Bool := x.stage == .flash && (x.cands[cand]?).any fun c => c.st == 0 || c.st == 3

/-- Give a candidate its score. -/
def State.scoreCand (q cand : Nat) (score : BitVec 32) (rebuilt : Bool) (s : State) : State :=
  (s.modQuery q fun x => match x.cands[cand]? with
    | some c => { x with cands := x.cands.set cand { c with st := 1, score := score, rebuilt := rebuilt } }
    | none => x).endFlash q

/-- Send a candidate to its stripe engine (R188). -/
def State.sendDegraded (q cand : Nat) (s : State) : State :=
  match s.query q with
  | none => s
  | some x =>
    match x.cands[cand]? with
    | none => s
    | some c =>
      let ch := scCh c.sidecar
      let lsn := scLsn c.sidecar
      let d := dieOfChannel (parityCh ch lsn)
      let r : DegRead := { q := q, cand := cand, die := x.home, ch := ch, lsn := lsn, owner := x.index + 16 * x.vslot,
                           offset := scOff c.sidecar, index := x.index, vslot := x.vslot, pn := x.pn, tenant := x.tenant }
      { s.setQuery q { x with cands := x.cands.set cand { c with st := 3 } } with
        fl := { s.fl with degQ := s.fl.degQ.upd [] d (· ++ [r]) } }

/-- Granule runs that a home die has in use in a channel's query cache. -/
def Chan.cacheUse (c : Chan) (die : Nat) : List (Nat × Nat) :=
  (c.qcache.filter fun e => e.1 / 6400 == die).map (fun e => (e.1 % 6400, e.2.granules))
    ++ (c.inbox.getD [] die).filterMap fun m => match m with
      | .load _ qs e => some (qs, granulesOf e.length)
      | .req _ => none

/-- Granules of a query's entry (R178). -/
def Query.granules (x : Query) : Nat := granulesOf (64 + x.x.length)

/-- First fit for a run of `n` granules. -/
def Chan.findGranules (c : Chan) (die n : Nat) : Option Nat :=
  let used := c.cacheUse die
  let free := fun (a : Nat) => decide (a + n ≤ 6400) && used.all fun u => decide (u.1 + u.2 ≤ a) || decide (a + n ≤ u.1)
  (0 :: used.map fun u => u.1 + u.2).find? free

/-- TAG of a candidate's request (R179, R233). -/
def Query.tagOf (x : Query) (cand : Nat) : Nat := x.tagBlock * 65536 + cand % 65536

/-- Send a query-vector load and the candidate requests of one channel (R178, R179). -/
def State.sendRequests (q ch : Nat) (shadow : Bool) (s : State) : State :=
  match s.query q with
  | none => s
  | some x =>
    let c := s.chan ch
    match c.findGranules x.home x.granules with
    | none => s
    | some slot =>
      let mine := ((List.range x.cands.length).zip x.cands).filter fun p => p.2.st != 2 && scCh p.2.sidecar == ch
      let load : CuffMsg := .load q slot (vectorEntry x.u x.index x.vslot x.x)
      let reqs := mine.map fun p =>
        let w := candWord p.2.sidecar x.home slot x.index x.vslot (x.tagOf p.1)
        CuffMsg.req { q := q, cand := p.1, tenant := x.tenant, pn := x.pn, word := w, shadow := shadow }
      s.setChan ch { c with inbox := c.inbox.upd [] x.home (· ++ load :: reqs) }

/-- The stage was abandoned or never started: binary scores, DEGRADED (R232). -/
def State.flashDegraded (q : Nat) (s : State) : State :=
  match s.query q with
  | none => s
  | some x =>
    let s := if x.cancelCut then s else s.bump .TN_DL_FLASH_DROP x.pn 0 1
    (s.setQuery q { x.flag flDegraded with cands := [] }).finalBinary q

/-- Read the sidecars, route each candidate by the channel mask, and send (R178, R191). A channel whose granules are
exhausted holds the stage. -/
def State.startFlash (q : Nat) (sidecarErr : List Nat) (s : State) : State :=
  match s.query q with
  | none => s
  | some x =>
    if s.atTrr x then s.flashDegraded q
    else
      let v := s.version x.ver
      let cand := fun (e : Elem) =>
        let sc := v.sidecar.getD 0 e.canon
        ({ elem := e, sidecar := sc, st := if scV sc && !sidecarErr.contains e.canon then 0 else 2 } : Cand)
      let cands := x.homeList.map cand
      let chans := (List.range 32).filter fun n => cands.any fun c => c.st == 0 && scCh c.sidecar == n
      let mask := s.chMask
      let up := chans.filter fun n => mask.getLsbD n
      let fit := up.all fun n => ((s.chan n).findGranules x.home x.granules).isSome
      if !fit then s
      else
        let lost := (cands.filter (·.st == 2)).length
        let s := forEach (cands.filter (·.st == 2)) (fun c t =>
          if sidecarErr.contains c.elem.canon then t.dramUncorr x.home 4 x
          else t.flashAbsent (2 ^ 64 - 1) (2 ^ 64 - 1) 2 x) s
        let x := if lost = 0 then x else x.skip lost
        let s := s.setQuery q { x with stage := .flash, cands := cands, mask := mask, tagBlock := s.tagBlock x.home q }
        let s := forEach up (fun n t => t.sendRequests q n false) s
        let s := forEach (chans.filter fun n => !mask.getLsbD n) (fun n t =>
          if t.chState n = 5 then t.sendRequests q n true else t) s
        let deg := ((List.range cands.length).zip cands).filter fun p => p.2.st == 0 && !mask.getLsbD (scCh p.2.sidecar)
        (forEach deg (fun p t => t.sendDegraded q p.1) s).endFlash q

/-- After the home merge: the flash stage, the FP16 stage or the final selection (R84). -/
def State.afterMerge (q : Nat) (sidecarErr bad : List Nat) (s : State) : State :=
  match s.query q with
  | none => s
  | some x =>
    let s := s.setQuery q { x with badIds := bad }
    if x.flashStage then s.startFlash q sidecarErr
    else if x.fp16Stage then s.startFp16 q .hamming x.homeList []
    else s.finalSelect q .hamming x.homeList

end Sys2Proof.Machine
end

