-- ==== Sys2Proof/Machine/Update.lean ====
section
/-! DEFINITION. What the update commands share (08): their entries and checks (R157 to R159), the placing of new slots
(R160, R161, R163), the visibility point (R164), retired slots (R163, R165) and the failure rule (R168). -/

namespace Sys2Proof.Machine

/-- The home die that R27 chooses for a partition. -/
def State.pickHome (s : State) (pn : Nat) : Nat :=
  let homed := fun (d : Nat) => (s.qry.queries.filter fun e => e.2.home == d && e.2.inProbe).length
  let own := (List.range 5).filter fun d => s.bandsOf pn d != []
  let best := fun (lt : Nat → Nat → Bool) (ds : List Nat) => ds.foldl (fun o d => match o with
    | none => some d
    | some b => if lt d b then some d else some b) none
  let ratio := fun (a b : Nat) =>
    decide (homed a * (s.bandsOf pn b).length < homed b * (s.bandsOf pn a).length)
  match best ratio own with
  | some d => d
  | none => (best (fun a b => decide (homed a < homed b)) s.diesUp).getD 0

/-! ### Entries (R158) -/

structure UEntry where
  oldA : Nat := 0
  oldB : Nat := refNone
  ext : Nat := 0
  ca : Nat := 0
  cb : Nat := 0
  std : Nat := 0
  rsvOk : Bool := true
  addr : Nat := 0
  data : List Byte := []
  deriving DecidableEq, Repr

def parseEntry (op : Nat) (b : List Byte) : UEntry :=
  if op = 0x10 then
    { ext := fieldAt b 0 8, ca := fieldAt b 8 4, cb := fieldAt b 12 4, std := fieldAt b 16 2,
      rsvOk := fieldAt b 18 6 == 0, addr := fieldAt b 24 8 }
  else if op = 0x12 then
    { oldA := fieldAt b 0 8, oldB := fieldAt b 8 8, ca := fieldAt b 16 4, cb := fieldAt b 20 4, addr := fieldAt b 24 8 }
  else { oldA := fieldAt b 0 8 }

/-- Bytes of an entry's vector data. -/
def State.dataLen (s : State) (k die form : Nat) : Nat :=
  let f := s.pjFmt die k
  if form = 0 then 2 * s.fld fPJ_MAT_D_IN die k
  else s.codeBits (k / 4) / 8 + if f.code = 0 then 0 else f.cb + f.sb

/-- The entries of a command with their data: from host memory, or inline after the descriptor on a fabric context. -/
def State.entries (s : State) (c k die : Nat) (m : Cmd) : List UEntry :=
  let op := dOpcode m.bytes
  let n := uCount m.bytes
  let sz := entrySize op
  let len := if op = 0x10 ∨ op = 0x12 then s.dataLen k die (uForm m.bytes) else 0
  (List.range n).map fun i =>
    if s.isFabric c || m.inlined != [] then
      let e := parseEntry op ((m.inlined.drop (sz * i)).take sz)
      { e with data := (m.inlined.drop (sz * n + len * i)).take len }
    else
      let e := parseEntry op (s.rdN (s.ctxPort c) (uEntryAddr m.bytes + sz * i) sz)
      { e with data := s.rdN (s.ctxPort c) e.addr len }

/-! ### Checks of single entries (R159) -/

def Version.refIn (x : Version) (r : Nat) : Bool := refOk r && (x.slotOf r).isSome

/-- A cluster word of an entry names a cluster of the version, or leaves the choice to the device. -/
def Version.cwIn (x : Version) (w : Nat) : Bool := cwOk w && (!cwV w || cwAuto w || decide (cwCluster w < x.count))

def State.makeOk (s : State) (k die op form : Nat) (e : UEntry) : Bool :=
  let x := s.version k
  let f := s.pjFmt die k
  let cb := s.codeBits (k / 4) / 8
  let data := if form = 0 then allFinite (halves e.data) else f.code == 0 || f.readyOk (e.data.drop cb)
  let std := BitVec.ofNat 16 e.std &&& ~~~x.stdMask
  let old := op == 0x10 || (x.refIn e.oldA
    && (e.oldB == refNone || (x.refIn e.oldB && e.oldB != e.oldA
      && x.canonOf (refOrd e.oldB) == x.canonOf (refOrd e.oldA))))
  e.rsvOk && x.cwIn e.ca && cwV e.ca && x.cwIn e.cb && std == 0 && data && old
    && (op != 0x10 || e.ext != 2 ^ 64 - 1)

/-- Retired slots that a REWRITE names. -/
def retiredNamed (es : List UEntry) : Nat := es.foldl (fun n e => n + (if e.oldB = refNone then 1 else 2)) 0

/-! ### New slots -/

/-- Code and record of an entry's vector for a version (R126, R129, R161). -/
def State.encodeEntry (k die form : Nat) (key : BitVec 32) (e : UEntry) (s : State) : (Code × List Byte) × State :=
  let f := s.pjFmt die k
  let b := s.codeBits (k / 4)
  if form = 0 then
    let v := halves e.data
    let c := (s.encCode die k v)
    let s := c.2.bump .PJ_ENC_INSERT die 0 1
    if f.code = 0 then ((c.1, []), s)
    else
      let r := s.encRecord die k key v
      ((c.1, r.1), r.2)
  else ((BitVec.ofNat 1024 (leNat (e.data.take (b / 8))), if f.code = 0 then [] else e.data.drop (b / 8)), s)

/-- The clusters of an entry's new slots; AUTO takes the probe rank of its position (R158). Of a version with one cluster the
spec names no rank 1: the model takes cluster 0 (DESIGN CHOICE, log entry 75). -/
def State.clustersOf (s : State) (k : Nat) (code : Code) (e : UEntry) : List Nat :=
  let ranks := rankClusters (s.centBits (k / 4)) (s.version k).cents code
  let one := fun (w rank : Nat) => if cwAuto w then ranks.getD rank 0 else cwCluster w
  one e.ca 0 :: if cwV e.cb then [one e.cb 1] else []

/-- Take one new slot. `canon` is the canonical ordinal it is an alias of; none: it becomes canonical itself. -/
def State.placeSlot (k i cl : Nat) (canon : Option Nat) (e : UEntry) (std : BitVec 16) (code : Code)
    (record : List Byte) (s : State) : Option (NewSlot × State) :=
  (s.takeSlot k cl).map fun r =>
    let (ord, seq, slot) := r.1
    ({ ver := k, entry := i, cluster := cl, ord := ord, seq := seq, slot := slot, canon := canon.getD ord,
       isAlias := canon.isSome, extId := BitVec.ofNat 64 e.ext, std := std, code := code, record := record,
       durable := record == [], sidecar := 0, written := false }, r.2)

/-- The new slots of an entry in one version, in order. -/
def State.placeAll (k i : Nat) (e : UEntry) (std : BitVec 16) (code : Code) (record : List Byte) :
    List Nat → Option Nat → State → Option (List NewSlot × State)
  | [], _, s => some ([], s)
  | cl :: cls, canon, s =>
    match s.placeSlot k i cl canon e std code record with
    | none => none
    | some (n, s) => (State.placeAll k i e std code record cls (some n.canon) s).map fun r => (n :: r.1, r.2)

/-- The mirror of an entry's new slots in the successor (R169). -/
def State.placeMirror (k i die form : Nat) (key : BitVec 32) (e : UEntry) (std : BitVec 16) (made : List NewSlot)
    (s : State) : Option (List NewSlot × State) :=
  let x := s.version k
  match x.succ, made with
  | some v', n :: _ =>
    let k' := verKey (k / 4) v'
    let enc := s.encodeEntry k' die form key e
    let (code, rec) := enc.1
    let cl0 := (rankClusters (s.centBits (k / 4)) (enc.2.version k').cents code).getD 0 0
    let cls := made.map fun m => if (enc.2.version k').reassign then cl0 else m.cluster
    let canon := x.fwdCanon.get? n.canon
    match enc.2.placeAll k' i e std code rec cls canon with
    | none => none
    | some (ms, s) =>
      let pairs := made.zip ms
      let link := fun (t : Tbl Nat) => pairs.foldl (fun t p => t.put p.1.ord (mkRef p.2.cluster p.2.ord)) t
      let c' := (ms.head?.map (·.canon)).getD 0
      some (ms, (s.modVersion k fun x =>
        { x with fwdSlot := link x.fwdSlot, fwdCanon := x.fwdCanon.put n.canon c' }).bump .HQ_UPD_MIRRORED 0 0 1)
  | _, _ => some ([], s)

/-- Ordinal record of an entry (R161). -/
def ordRecord (ns : List NewSlot) : Nat × Nat :=
  let r := fun (n : NewSlot) => mkRef n.cluster n.ord
  (((ns[0]?).map r).getD refNone, ((ns[1]?).map r).getD refNone)

/-- What placing the entries of an INSERT or REWRITE gives. -/
structure Placed where
  slots : List NewSlot := []
  records : List (Nat × Nat) := []

/-- Place the new slots of every entry, in order, mirrors beside them; none: a limit of R159 is met. -/
def State.placeEntries (k die op form : Nat) (key : BitVec 32) : List (Nat × UEntry) → Placed → State →
    Option (Placed × State)
  | [], acc, s => some (acc, s)
  | (i, e) :: es, acc, s =>
    let x := s.version k
    let enc := s.encodeEntry k die form key e
    let canon := if op = 0x10 then none else some (x.canonOf (refOrd e.oldA))
    let std := if op = 0x10 then BitVec.ofNat 16 e.std else x.std.getD 0 (refOrd e.oldA)
    let e := if op = 0x10 then e else { e with ext := (x.idMap.getD 0 (x.canonOf (refOrd e.oldA))).toNat }
    let cls := enc.2.clustersOf k enc.1.1 e
    match enc.2.placeAll k i e std enc.1.1 enc.1.2 cls canon with
    | none => none
    | some (ns, s) =>
      match s.placeMirror k i die form key e std ns with
      | none => none
      | some (ms, s) =>
        let recs := ordRecord ns :: if ms = [] then [] else [ordRecord ms]
        State.placeEntries k die op form key es
          { slots := acc.slots ++ ns ++ ms, records := acc.records ++ recs } s

/-- Write a new slot (R41, R161). -/
def State.writeNew (n : NewSlot) (s : State) : State :=
  s.writeSlot n.ver n.cluster n.seq n.slot n.code (if n.isAlias then BitVec.ofNat 64 n.canon else n.extId) n.isAlias
    n.std n.sidecar

/-- Write the slots of a job whose records are durable, each after those before it of its entry (R46, R161). Those of an update
are counted, and those that a shard copy lands are not (R174). -/
def State.writeReady (j : UpdJob) (s : State) : State :=
  let n := if j.opcode = 0x15 then 0 else 1
  let r := j.slots.foldl (fun (acc : List NewSlot × State) x =>
    let before := acc.1.filter fun y => y.ver == x.ver && y.entry == x.entry
    if x.durable && !x.written && before.all (·.written) then
      (acc.1 ++ [{ x with written := true }], (acc.2.writeNew x).bump .HQ_UPD_SLOTS_NEW 0 0 n)
    else (acc.1 ++ [x], acc.2)) ([], s)
  r.2.setJob { j with slots := r.1 }

/-! ### The visibility point (R164) and retired slots (R163, R165) -/

/-- Slots to retire that take an entry of the retire queue: not tombstoned and not queued already (R163). -/
def State.retireNeeds (s : State) (k : Nat) (refs : List Nat) : Nat :=
  (refs.eraseDups.filter fun r =>
    !(s.version k).tomb.contains (refOrd r) && !s.idx.retireQ.any fun q => q.ver == k && q.ref == r).length

/-- Entries left in the retire queue, less those that rewrites admitted before their visibility point will take. -/
def retireRoom (s : State) : Nat :=
  65536 - s.idx.retireQ.length - s.idx.updates.foldl (fun n j => n + s.retireNeeds j.ver j.retire) 0

/-- Queue a retired slot; one tombstoned or queued already is left as it is (R163). -/
def State.queueRetired (k ref : Nat) (s : State) : State :=
  if (s.version k).tomb.contains (refOrd ref) || s.idx.retireQ.any fun r => r.ver == k && r.ref == ref then
    s.bump .HQ_UPD_REDUNDANT 0 0 1
  else
    let mine := (s.qry.queries.filter fun e => e.2.ver == k && !e.2.isShadow).map (·.1)
    let r : Retired := { ver := k, ref := ref, vis := s.now, waits := mine }
    ({ s with idx := { s.idx with retireQ := s.idx.retireQ ++ [r] } }).holdRef k

/-- Ordinal and map records as bytes. -/
def pairBytes (ps : List (Nat × Nat)) : List Byte := ps.flatMap fun p => leBytes 8 p.1 ++ leBytes 8 p.2

/-- An update ends where its answer is wanted: at the head's own job, or in its completion (R171). -/
def State.endPart (c : Nat) (m : Cmd) (r : Res) (s : State) : State :=
  match s.group? m.seq with
  | some g =>
    s.takeAnswer m.seq { shard := g.shard, member := s.selfMember, status := r.status, flags := 0, skipped := r.info,
                         lists := 0, records := r.records }
  | none => s.finish c m.seq r

/-- The update log keeps what a part of a group update has done (R168, R333). -/
def State.keepLog (k : Nat) (m : Cmd) (retire : List Nat) (r : Res) (s : State) : State :=
  let key := match s.group? m.seq with
    | some g => some g.key
    | none => m.jobKey
  match key with
  | some key =>
    let e : KeptLog := { key := key, conn := m.conn, slots := r.slots, retired := retire.map fun x => (k, x) }
    { s with idx := { s.idx with updateLog := s.idx.updateLog ++ [e] } }
  | none => s

/-- The visibility point of an update: retired slots queued, SYNC signalled, the reference released, and then the
completion (R164, R166, R174). On a head the job signals. -/
def State.visible (c k : Nat) (m : Cmd) (retire : List Nat) (r : Res) (s : State) : State :=
  let s := (s.keepLog k m retire r)
  let s := forEach retire (fun ref t => t.queueRetired k ref) s
  let s := s.bump .HQ_UPD_CMDS 0 0 1
  let s := if uSyncEn m.bytes && (s.group? m.seq).isNone then s.signal (uSync m.bytes) (uSyncValue m.bytes) else s
  (s.releaseRef k).endPart c m r

/-! ### A shard copy at its source (R173) -/

/-- The record that a sidecar names, read from its sector or by a degraded read. -/
def State.recordOf (s : State) (k : Nat) (sc : W64) : Option (List Byte) :=
  let f := s.cfFmt (scCh sc) k
  if !scV sc then none
  else
    let d := if s.chServes (scCh sc) then (match (s.chan (scCh sc)).look (scLsn sc) with
      | .data d _ => some d
      | _ => none) else none
    let d := match d with
      | some d => some d
      | none => (s.degraded (scCh sc) (scLsn sc) none []).map Prod.fst
    d.map fun d => f.getRecord d (f.recordAt (scOff sc))

/-- A slot in list data (log entry 40): 32 bytes, its code and its record. One that will be tombstoned at the source goes as
tombstoned; byte 20 tells of a record that is not there. -/
def State.slotData (s : State) (k : Nat) (tombs : List Nat) (ord : Nat) (code : Code) : List Byte :=
  let x := s.version k
  let f := s.pjFmt 0 k
  let len := if f.code = 0 then 0 else f.cb + f.sb
  let rec_ := if len = 0 then some [] else s.recordOf k (x.sidecar.getD 0 ord)
  let yes := fun (b : Bool) => leBytes 1 (if b then 1 else 0)
  leBytes 8 ord ++ leBytes 8 (x.idMap.getD 0 ord).toNat ++ leBytes 2 (x.std.getD 0 ord).toNat
    ++ yes (x.aliasOrds.contains ord) ++ yes (x.tomb.contains ord || tombs.contains ord) ++ yes rec_.isNone ++ zeros 11
    ++ leBytes (s.codeBits (k / 4) / 8) code.toNat ++ rec_.getD (zeros len)

/-- One message of list data: the descriptor of a LIST_COPY, then its slots. -/
def State.postList (conn sh k cl : Nat) (slots : List Byte) (s : State) : State :=
  let b := patch (zeros 64) 0 (leBytes 1 0x15 ++ leBytes 1 sh)
  let b := patch b 0x10 (leBytes 1 (k / 4) ++ leBytes 1 1 ++ leBytes 2 (s.fld fHQ_IDX_VER_VERSION (k / 4) (k % 4))
    ++ leBytes 4 cl)
  s.postSend conn 3 false (zeros 8 ++ b ++ slots)

/-- The slots of an update that was in progress when its lists were sent follow, with those it retires. -/
def State.sendLate (j : UpdJob) (s : State) : State :=
  forEach (s.ten.shardSends.filter fun x => x.jobs.contains j.seq) (fun x t =>
    let mine := j.slots.filter (·.ver == x.ver)
    let old := if x.ver = j.ver then j.retire.filterMap fun r =>
        ((t.version x.ver).slotOf r).map fun p => (refCluster r, refOrd r, p.1.codes.getD 0 p.2) else []
    let t := forEach (mine.map fun n => (n.cluster, n.ord, n.code)) (fun n t =>
      t.postList x.conn x.shard x.ver n.1 (t.slotData x.ver [] n.2.1 n.2.2)) t
    forEach old (fun n t => t.postList x.conn x.shard x.ver n.1 (t.slotData x.ver [n.2.1] n.2.1 n.2.2)) t) s

/-! ### Slots carried over to a successor (R169, R170) -/

/-- Copy one slot of a list into the successor, as it stands, unless R170 skips it; none: the successor cannot take it. -/
def State.copySlot (k k' cl : Nat) (reassign : Bool) (ord : Nat) (code : Code) (s : State) :
    Option (List (Nat × Nat) × State) :=
  let x := s.version k
  let canon := x.canonOf ord
  let done := x.fwdCanon.get? canon
  let ref := mkRef cl ord
  let queued := s.idx.retireQ.any fun q => q.ver == k && q.ref == ref
  if x.tomb.contains ord || queued || (x.fwdSlot.get? ord).isSome || (reassign && done.isSome) then some ([], s)
  else
    let cl' := if reassign then (rankClusters (s.centBits (k / 4)) (s.version k').cents code).getD 0 0 else cl
    match s.takeSlot k' cl' with
    | none => none
    | some ((ord', seq, slot), t) =>
      let entry := match done with
        | some c => BitVec.ofNat 64 c
        | none => x.idMap.getD 0 canon
      let t := (t.writeSlot k' cl' seq slot code entry done.isSome (x.std.getD 0 ord) (x.sidecar.getD 0 ord)).bump
        .HQ_UPD_SLOTS_NEW 0 0 1
      let t := t.modVersion k fun y =>
        { y with fwdSlot := y.fwdSlot.put ord (mkRef cl' ord'), fwdCanon := y.fwdCanon.put canon (done.getD ord') }
      some ([(ref, mkRef cl' ord')], t)

/-- The new slots of an update that was in progress when its version got a successor are carried over at its visibility point,
unless a LIST_COPY has done so (R169, R170, log entry 83): the new references; none: the successor cannot take one. -/
def State.mirrorLate (j : UpdJob) (s : State) : Option (List (Nat × Nat) × State) :=
  let x := s.version j.ver
  match x.succ with
  | none => some ([], s)
  | some v' =>
    let k' := verKey (j.ver / 4) v'
    let mirrored := j.slots.any (·.ver != j.ver)
    let mine := if mirrored then [] else j.slots.filter fun n => n.ver == j.ver && (x.fwdSlot.get? n.ord).isNone
    let go := mine.foldl (fun (acc : Option (List (Nat × Nat) × State)) n =>
      acc.bind fun a => (a.2.copySlot j.ver k' n.cluster x.reassign n.ord n.code).map fun r =>
        (a.1 ++ r.1.map fun (p : Nat × Nat) => (k', p.2), r.2)) (some ([], s))
    go.map fun a => (a.1, a.2.bump .HQ_UPD_MIRRORED 0 0 (mine.map (·.entry)).eraseDups.length)

/-- An update job whose new slots are all written reaches its visibility point; what it reserved and did not use goes back
(R159). The slots that a shard copy lands have none. -/
def State.settleJob (seq : Nat) (s : State) : State :=
  match s.job? seq with
  | none => s
  | some j =>
    if j.slots.all (·.written) then
      match s.cmd? j.ctx seq with
      | none => (s.dropReserved j).dropJob seq
      | some m =>
        match s.mirrorLate j with
        | none => (s.undoJob j).endPart j.ctx m (Res.of stInvalid)
        | some (late, t) =>
          let own := (j.slots.filter (·.ver == j.ver)).map fun n => (n.ver, mkRef n.cluster n.ord)
          let mirrors := (j.slots.filter (·.ver != j.ver)).map fun n => (n.ver, mkRef n.cluster n.ord)
          let t := ((t.dropReserved j).sendLate j).dropJob seq
          t.visible j.ctx j.ver m j.retire
            { info := j.count, records := pairBytes j.records, count := j.records.length, slots := own ++ mirrors ++ late }
    else s

/-- Tear down an update in progress, and complete it with `status` (R168). -/
def State.tearUpdate (j : UpdJob) (status : Nat) (s : State) : State :=
  (s.undoJob j).finish j.ctx j.seq (Res.of status)

end Sys2Proof.Machine
end

