-- ==== Sys2Proof/Machine/Teardown.lean ====
section
/-! DEFINITION. Ending a job before its time (R155, R168, R241, R258, R311): whatever a command is doing, it stops, and it
completes with the status given. -/

namespace Sys2Proof.Machine

/-- Row accesses of a table command that have not happened are withdrawn, and give their detector entries back. -/
def State.dropRows (seq : Nat) (s : State) : State :=
  let s := { s with tbl := { s.tbl with
    rowQ := s.tbl.rowQ.map fun (e : Nat × List RowAccess) => (e.1, e.2.filter (·.cmd != seq))
    tblJobs := s.tbl.tblJobs.filter (·.seq != seq) } }
  forEach (List.range 5) State.noteHeavy s

/-- A table batch is torn down: the rows stepped stand, and BATCH_PARTIAL says how many (R155). -/
def State.tearBatch (j : TblJob) (status : Nat) (s : State) : State :=
  let s := (s.dropRows j.seq).log { mkErr 0x0410 4 0 j.tbl j.stepped 0 0 with ctx := j.ctx, commandId := j.commandId }
  (s.releaseTable j.tbl j.vslot).finish j.ctx j.seq { status := status, info := j.stepped }

/-- A query is torn down (R69, R311): one that runs as a head's own part ends with its group. -/
def State.tearQuery (q status : Nat) (s : State) : State :=
  match s.query q with
  | none => s
  | some x => if x.isShadow then s.endShadow q stTornDown [] 0 else s.failQuery q status

/-- Shadows of a context's queries go on: only its commands end. A group command ends with an ABORT to its members. -/
def State.tearGroup (g : GroupJob) (status : Nat) (s : State) : State :=
  let t := s.dropQuery g.seq
  let t := match s.query g.seq with
    | some x => if x.sampled then t.startShadow x (Res.of status) else t
    | none => t
  t.endGroup g (Res.of status)

/-- End one fetched command with a status, whatever it is doing. -/
def State.tearCmd (c seq status : Nat) (s : State) : State :=
  match s.group? seq with
  | some g => s.tearGroup g status
  | none =>
    match s.job? seq with
    | some j => s.tearUpdate j status
    | none =>
      match s.tbl.tblJobs.find? (·.seq == seq) with
      | some j => s.tearBatch j status
      | none => if (s.query seq).isSome then s.tearQuery seq status else s.finish c seq (Res.of status)

/-- Tear down one job that a fault is attributed to: it completes with CONTEXT_TORN_DOWN, and is counted (R311, R312). -/
def State.tearJob (c seq : Nat) (s : State) : State :=
  (s.bump .TN_ACC_TORN (s.ctxTenant c) 0 1).tearCmd c seq stTornDown

/-- The same, with the record that explains it in the completion's ERR_SEQ. -/
def State.tearJobFor (c seq err : Nat) (s : State) : State :=
  ((s.modCmd c seq fun m => { m with errSeq := err }).modQuery seq fun x => { x with errSeq := err }).tearJob c seq

/-- Tear down every fetched command of a context (R241). -/
def State.tearAll (c status : Nat) (s : State) : State :=
  forEach ((s.ctx c).cmds.map (·.seq)) (fun q t => t.tearCmd c q status) s

/-- Close a context: STATE CLOSING, every command torn down, CLOSED with the last completion (R241). -/
def State.closeCtx (c : Nat) (s : State) : State :=
  if s.ctxState c = 1 then
    let s := (s.setFld fHQ_CTX_STATUS_STATE c 0 2).setFld fHQ_CTX_CTL_OPEN c 0 0
    (s.tearAll c stTornDown).settleClosing c
  else s

end Sys2Proof.Machine
end

