-- ==== Sys2Proof/Machine/Gauntlet.lean ====
section
/-! DEFINITION. Received gauntlets (R333 to R335): an ABORT at the head and at a member, a RELEASE, and the table of
aborted keys. -/

namespace Sys2Proof.Machine

/-- A GAUNTLET record (R319). -/
def State.logGauntlet (key : W64) (origin status : Nat) (s : State) : State :=
  s.log { mkErr 0x0420 4 0 key.toNat origin status 0 with status := status }

/-- Enter a job key in the table of aborted keys, which holds 4,096; the oldest stands first (R335). -/
def State.enterAborted (key : W64) (s : State) : State :=
  let old := if s.ras.abortedKeys.length < 4096 then s.ras.abortedKeys else s.ras.abortedKeys.drop 1
  { s with ras := { s.ras with abortedKeys := old ++ [(key, s.now)] } }

/-- The commands that carry a job key: context and fetch number. -/
def State.cmdsOf (s : State) (key : W64) : List (Nat × Nat) :=
  s.hq.ctxs.flatMap fun e => (e.2.cmds.filter fun m => m.conn.isSome && m.jobKey == some key).map fun m => (e.1, m.seq)

/-- Updates held for a shard that is being copied lose those of an aborted job. -/
def State.dropHeld (key : W64) (s : State) : State :=
  let keep := fun (h : Bool × List Byte) => fieldAt h.2 0 8 != key.toNat
  { s with ten := { s.ten with
    shardCopies := s.ten.shardCopies.map fun x => { x with held := x.held.filter keep } } }

/-- ABORT at a member (R335): its part ends with ABORTED_BY_GROUP, what it kept of an update is rolled back, and the key is
entered in the table. A second gauntlet for the key is ignored. -/
def State.abortPart (key : W64) (origin status : Nat) (s : State) : State :=
  if s.ras.abortedKeys.any (·.1 == key) then s
  else
    let s := (s.enterAborted key).logGauntlet key origin status
    let s := forEach (s.cmdsOf key) (fun e t => t.tearCmd e.1 e.2 stAborted) s
    (s.undoKept key).dropHeld key

/-- ABORT at the head (R334): it is relayed to every other replica, and the host's command ends. -/
def State.abortGroup (conn : Nat) (g : GroupJob) (origin status : Nat) (s : State) : State :=
  let s := s.logGauntlet g.key origin status
  let s := forEach ((s.fannedConns g).filter (· != conn)) (fun c t => t.sendGauntlet g.key 0 origin status 1 c) s
  let g := { g with relayed := true, abort := true }
  (s.setGroup g).tearGroup g stAborted

/-- A received gauntlet (R333 to R335). A kind that is reserved is ignored. -/
def State.gauntletIn (conn : Nat) (data : List Byte) (s : State) : State :=
  let s := s.bump .HG_GAUNTLET_RX 0 0 1
  let key := BitVec.ofNat 64 (fieldAt data 0 8)
  let kind := fieldAt data 8 1
  let origin := fieldAt data 9 1
  let status := fieldAt data 10 1
  if kind = 1 then s.dropKept key
  else if kind = 0 then
    match s.hq.groups.find? (·.key == key) with
    | some g => s.abortGroup conn g origin status
    | none =>
      if s.isOn fHQ_GRP_CTL_EN 0 0 ∧ key.toNat / 2 ^ 58 = s.selfMember then s.logGauntlet key origin status
      else s.abortPart key origin status
  else s

/-- ABORTED_KEY_EXPIRY (R335): the oldest key leaves the table 1 s after it was entered. -/
def execAbortedKeyExpiry (s : State) : Out :=
  match s.ras.abortedKeys with
  | [] => .next s
  | e :: es =>
    let s := s.reach (e.2 + sec)
    .next { s with ras := { s.ras with abortedKeys := es } }

end Sys2Proof.Machine
end

