-- ==== Sys2Proof/Machine/Deadline.lean ====
section
/-! DEFINITION. The deadlines of a query (R231, R232), as its budget or a CANCEL brings them about (R256). -/

namespace Sys2Proof.Machine

/-- T_sd: the scan stage is cut, or the query expires when none of its pairs has reported (R231). -/
def State.scanCut (q : Nat) (s : State) : State :=
  match s.query q with
  | none => s
  | some x =>
    match x.stage with
    | .encode | .probe => s.expireQuery q
    | .scan =>
      let stop := decide (x.allowed < x.k) && decide (x.pCur < x.ceil)
      let t := (s.cutScan q).bump .BD_WD_DEADLINE_STOP x.home 0 (if stop then 1 else 0)
      let cut := ((t.query q).map (·.notScanned)) != some x.notScanned
      let t := if cut && !x.cancelCut then t.bump .TN_DL_SCAN_CUT x.pn 0 1 else t
      if x.reported = 0 then t.expireQuery q else t.flush q
    | _ => s

/-- T_rr: a stage with work outstanding is abandoned (R232, R149). -/
def State.budgetEnd (q : Nat) (s : State) : State :=
  match s.query q with
  | none => s
  | some x =>
    match x.stage with
    | .homeReady => if x.homeList = [] then s else s.flashDegraded q
    | .flash => s.flashDegraded q
    | .fp16 => s.fp16Degraded q
    | _ => s

/-- A CANCEL brings both deadlines of an admitted search forward (R256). -/
def State.cutNow (q : Nat) (s : State) : State :=
  let s := s.modQuery q fun x => { x with tSd := some s.now, tRr := some s.now, cancelCut := true }
  (s.scanCut q).budgetEnd q

end Sys2Proof.Machine
end

