-- ==== Sys2Proof/Machine/RegWrite.lean ====
section
/-! DEFINITION. What a write does to a register's fields by their access codes (R8, R10). -/

namespace Sys2Proof.Machine

/-- A value is one of those that a field's row defines (R10). -/
def FieldRow.defined (f : FieldRow) (x : Nat) : Bool := f.ok == [] || f.ok.any fun r => decide (r.1 ≤ x) && decide (x ≤ r.2)

/-- One field of a register after a write of `v` (R8, R10). A WO field stores nothing: it triggers. -/
def writeField (r : RegName) (v : W64) (acc : W64) (f : FieldRow) : W64 :=
  let d : Fld := ⟨r, f.hi, f.lo⟩
  let x := Fld.get d v
  match f.acc with
  | .RW => if FieldRow.defined f x then Fld.put d acc x else acc
  | .W1C => Fld.put d acc (Fld.get d acc - (Fld.get d acc &&& x))
  | .W1S => Fld.put d acc (Fld.get d acc ||| x)
  | _ => acc

/-- A register's value after a write (R8). -/
def writeValue (r : RegName) (old v : W64) : W64 := (RegName.fields r).foldl (writeField r v) old

/-- Write a register by its access codes. -/
def State.writeReg (r : RegName) (i j : Nat) (v : W64) (s : State) : State :=
  s.setReg r i j (writeValue r (s.reg r i j) v)

end Sys2Proof.Machine
end

