-- ==== Sys2Proof/Machine/HostIf.lean ====
section
/-! DEFINITION. Commands of the host interface (12): doorbells, opening and closing, fetching, NOP, CANCEL, LOG_READ,
interrupts, handover, and the resets of a port (R236 to R259, R398). -/

namespace Sys2Proof.Machine

/-! ### Base address registers (R236, R237, R319) -/

/-- The location word was made by an access through a BAR; its port, function, BAR and byte offset (R319). -/
def locBar (loc : W64) : Bool := bits loc.toNat 63 62 == 0
def locPort (loc : W64) : Nat := bits loc.toNat 61 61
def locFunc (loc : W64) : Nat := bits loc.toNat 60 54
def locNum (loc : W64) : Nat := bits loc.toNat 53 51
def locOffset (loc : W64) : Nat := bits loc.toNat 31 0

/-- The offset of a register in the doorbell page of a context (R239). -/
def pageOffset : RegName → Option Nat
  | .HQ_SQ_DB => some 0x000
  | .HQ_CQ_DB => some 0x004
  | .HQ_CTX_CTL => some 0x008
  | .HQ_CTX_STATUS => some 0x00C
  | .HQ_SQ_BASE => some 0x010
  | .HQ_CQ_BASE => some 0x018
  | _ => none

/-- The context of a doorbell page: a function's pages stand in increasing context number (R237). -/
def State.pageCtx (s : State) (port func page : Nat) : Option Nat :=
  ((List.range 256).filter fun c =>
    s.isOn fHQ_CTX_BIND_V c 0 && s.ctxPort c == port && s.fld fHQ_CTX_BIND_FUNC c 0 == func)[page]?

/-- An access reaches a register copy: a doorbell page through BAR2 of PF0 or BAR0 of a virtual function to which its
context is bound, every other register through BAR0 of PF0 (R237). The dictionary reaches every register. -/
def State.reaches (s : State) (r : RegName) (i : Nat) (loc : W64) : Bool :=
  !locBar loc ||
    match pageOffset r with
    | some o =>
      locNum loc == (if locFunc loc = 0 then 2 else 0)
        && s.pageCtx (locPort loc) (locFunc loc) (locOffset loc / 4096) == some i
        && decide (o ≤ locOffset loc % 4096) && decide (locOffset loc % 4096 < o + RegName.width r / 8)
    | none => locNum loc == 0 && locFunc loc == 0

/-! ### Doorbells (R242, R243) -/

/-- A doorbell comes through the function to which the context is bound (R237, R257). -/
def State.fromOwner (s : State) (c port func : Nat) : Bool :=
  s.isOn fHQ_CTX_BIND_V c 0 && s.ctxPort c == port && s.fld fHQ_CTX_BIND_FUNC c 0 == func

/-- DOORBELL_DISCARDED, counted. -/
def State.refuseDoorbell (c value : Nat) (s : State) : State :=
  (s.bump .HQ_DB_DISCARDED 0 0 1).log { mkErr 0x0004 4 0 c value 0 0 with ctx := c }

/-- SQ_DOORBELL (R242). -/
def execSqDoorbell (c tail port func : Nat) (_loc : W64) (s : State) : Out :=
  if s.fromOwner c port func && s.ctxState c == 1 && decide (tail < s.sqSize c) then
    .next ((s.modCtx c fun x => { x with sqTail := tail }).noteHeld c)
  else .next (s.refuseDoorbell c tail)

/-- Entries from the completion head up to a HEAD, modulo the ring. -/
def ringDist (size a b : Nat) : Nat := (b + size - a) % size

/-- CQ_DOORBELL (R243): acknowledged completions leave, and what waited for room in the ring goes on. -/
def execCqDoorbell (c head port func : Nat) (_loc : W64) (s : State) : Out :=
  let x := s.ctx c
  let size := s.cqSize c
  let n := ringDist size x.cqHead head
  let open_ := s.ctxState c == 1 || s.ctxState c == 2
  if s.fromOwner c port func && open_ && decide (head < size) && decide (n ≤ ringDist size x.cqHead x.cqTail) then
    .next (((s.setCtx c { x with cqHead := head, done := x.done.drop n }).writeFates c 65537).noteHeld c)
  else .next (s.refuseDoorbell c head)

/-! ### Opening and closing (R240, R241) -/

/-- The ring fields of HQ_CTX_CTL are valid: reserved sizes never reach them (R10), and CQ_SZ is not below SQ_SZ. -/
def ringsOk (v : W64) : Bool :=
  decide (Fld.get fHQ_CTX_CTL_SQ_SZ v ≤ 12) && decide (Fld.get fHQ_CTX_CTL_CQ_SZ v ≤ 12)
    && decide (Fld.get fHQ_CTX_CTL_SQ_SZ v ≤ Fld.get fHQ_CTX_CTL_CQ_SZ v)

/-- What HQ_CTX_CTL would hold after a write: a size of 13 to 15 leaves its own field as it was (R10). -/
def State.nextCtl (s : State) (c : Nat) (v : W64) : W64 := writeValue .HQ_CTX_CTL (s.reg .HQ_CTX_CTL c 0) v

/-- Write the interrupt fields of HQ_CTX_CTL, and its ring sizes while the context holds no open rings; a change of them
otherwise is discarded and logged (R240). -/
def State.writeCtxCtl (c : Nat) (v loc : W64) (s : State) : State :=
  let new := s.nextCtl c v
  let put := fun (f : Fld) (t : State) => t.setFld f c 0 (Fld.get f new)
  let idle := s.ctxState c == 0 || s.ctxState c == 3
  let same := Fld.get fHQ_CTX_CTL_SQ_SZ new == s.fld fHQ_CTX_CTL_SQ_SZ c 0
    && Fld.get fHQ_CTX_CTL_CQ_SZ new == s.fld fHQ_CTX_CTL_CQ_SZ c 0
  let s := if idle then put fHQ_CTX_CTL_SQ_SZ (put fHQ_CTX_CTL_CQ_SZ s)
    else if same then s else s.discard loc v
  put fHQ_CTX_CTL_IRQ_EN (put fHQ_CTX_CTL_VECTOR (put fHQ_CTX_CTL_COAL_COUNT (put fHQ_CTX_CTL_COAL_US8 s)))

/-- A context group whose moved contexts are all OPEN is ACTIVE again, on its new port (R257). -/
def State.settleTake (g : Nat) (s : State) : State :=
  let mine := (List.range 256).filter fun c =>
        s.isOn fHQ_CTX_BIND_V c 0 && s.fld fHQ_CTX_BIND_CG c 0 == g && !s.isFabric c
  if s.fld fHQ_CG_CTL_STATE g 0 = 2 ∧ mine.all fun c => s.ctxState c != 3 then
    (s.setFld fHQ_CG_CTL_STATE g 0 0).setFld fHQ_CG_CTL_ACTIVE_PORT g 0 (1 - s.fld fHQ_CG_CTL_ACTIVE_PORT g 0)
  else s

/-- CONTEXT_OPEN (R240, R257, R258, R348): on a CLOSED context the other fields of the write take effect, and OPEN too when
the context may open; else OPEN stays 0 and a record is logged, as before SERVING. -/
def execContextOpen (c : Nat) (value loc : W64) (s : State) : Out :=
  let st := s.ctxState c
  if !s.reaches .HQ_CTX_CTL c loc then .next s
  else if st = 0 ∨ st = 3 then
    let ok := s.fld fHQ_START_STATUS_MODE 0 0 == 1 && s.isOn fHQ_CTX_BIND_V c 0 && ringsOk (s.nextCtl c value)
    let s := s.writeCtxCtl c value loc
    if ok then
      let s := s.setFld fHQ_CTX_CTL_OPEN c 0 1
      let x := s.ctx c
      let s := s.setCtx c { x with
        sqHead := 0, sqTail := 0, cqHead := 0, cqTail := 0, phase := true, key := Config.contextKey s.freeCount,
        cmds := [], done := [], irqCount := 0, silent := false, heldSince := none,
        fates := if st = 3 then x.fates else [], marker := if st = 3 then x.marker else none }
      .next ((((s.draw).setFld fHQ_CTX_STATUS_STATE c 0 1).writeFates c 65537).settleTake (s.fld fHQ_CTX_BIND_CG c 0))
    else .next (s.discard loc value)
  else .next (s.writeCtxCtl c value loc)

/-- CONTEXT_CLOSE (R241). -/
def execContextClose (c : Nat) (value loc : W64) (s : State) : Out :=
  if s.reaches .HQ_CTX_CTL c loc then .next ((s.writeCtxCtl c value loc).closeCtx c) else .next s

/-- Close the contexts bound to a port, and to one function of it, without another write through the port (R241). -/
def State.closePort (port : Nat) (func : Option Nat) (s : State) : State :=
  forEach ((List.range 256).filter fun c =>
      s.isOn fHQ_CTX_BIND_V c 0 && s.ctxPort c == port && func.all (· == s.fld fHQ_CTX_BIND_FUNC c 0))
    (fun c t => if t.ctxState c = 1 ∨ t.ctxState c = 2 then (t.modCtx c fun x => { x with silent := true }).closeCtx c
      else t) s

/-- FUNCTION_LEVEL_RESET (R241, R376): one of PF0 clears GO, BUSY and DONE of the port's mailbox. -/
def execFunctionLevelReset (port func : Nat) (s : State) : Out :=
  let s := s.closePort port (some func)
  if func = 0 then
    .next (((s.setFld fHQ_MB_CTL_GO port 0 0).setFld fHQ_MB_CTL_BUSY port 0 0).setFld fHQ_MB_CTL_DONE port 0 0)
  else .next s

/-- PERST_ASSERT (R398). -/
def execPerstAssert (port : Nat) (s : State) : Out :=
  let s := s.closePort port none
  let p := if port = 0 then { s.pins with perst0N := false } else { s.pins with perst1N := false }
  .next { s with pins := p }

/-- PERST_DEASSERT (R398): the link trains. -/
def execPerstDeassert (port : Nat) (s : State) : Out :=
  let p := if port = 0 then { s.pins with perst0N := true } else { s.pins with perst1N := true }
  .next { s with pins := p }

/-! ### Fetching (R242, R243, R238) -/

/-- Commands at the front of a context whose opcode is not defined complete at their turn (R247). -/
def State.admitBad (c : Nat) : Nat → State → State
  | 0, s => s
  | n + 1, s =>
    match s.front c with
    | some m => if definedOp (dOpcode m.bytes) then s
      else State.admitBad c n (s.admitCmd c m noCheck fun m t => t.finish c m.seq (Res.of stInvalid))
    | none => s

/-- The device may fetch the next entry of a context. -/
def State.mayFetch (s : State) (c : Nat) : Bool :=
  let x := s.ctx c
  s.ctxState c == 1 && !s.isFabric c && x.sqHead != x.sqTail && s.ringRoom c && x.fates == [] && x.marker == none

/-- DESCRIPTOR_FETCH (R243, R238). -/
def execDescriptorFetch (c : Nat) (readOk : Bool) (pcieErr : Nat) (s : State) : Out :=
  if s.mayFetch c then
    let x := s.ctx c
    let port := s.ctxPort c
    let a := s.fld fHQ_SQ_BASE_BASE c 0 * 4096 + 64 * x.sqHead
    let seq := s.hq.nextSeq
    let x' := { x with sqHead := (x.sqHead + 1) % s.sqSize c }
    let s := { s with hq := { s.hq with nextSeq := seq + 1 } }
    if readOk then
      let m : Cmd := { seq := seq, bytes := s.rdN port a 64, fetchTime := s.now }
      let s := ((s.setCtx c { x' with cmds := x'.cmds ++ [m] }).bump .HQ_CMD_FETCHED 0 0 1).noteHeld c
      .next (s.admitBad c 1)
    else
      let r := (s.setCtx c x').hostDmaErr port a pcieErr
      let d : DoneCmd := { seq := seq, opcode := 0xFF, commandId := 0xFFFF, status := stInvalid, info := x.sqHead,
                           admitTime := s.now, errSeq := r.2 }
      .next ((r.1.bump .HQ_CMD_INVALID 0 0 1).writeEntry c d)
  else .next s

/-- COMPLETION_TIMEOUT (R238): a read for a fetched command got no completion; the number of that PCIe failure is a free value. -/
def execCompletionTimeout (c seq : Nat) (addr : W64) (s : State) : Out :=
  match s.cmd? c seq with
  | some _ =>
    if (s.query seq).isSome || (s.group? seq).isSome || (s.job? seq).isSome then .next s
    else
      let f := (Config.free s.freeCount).toNat
      let r := s.draw.hostDmaErr (s.ctxPort c) addr.toNat f
      .next (r.1.finish c seq { status := stInvalid, errSeq := r.2 })
  | none => .next s

/-! ### NOP, CANCEL, LOG_READ -/

/-- NOP (R247). -/
def execNop (c : Nat) (s : State) : Out :=
  let s := s.admitFront c [0x00] noCheck fun m t =>
    t.finish c m.seq (if (m.bytes.drop 16).all (· == 0) then {} else Res.of stInvalid)
  .next (s.admitBad c 65536)

/-- A CANCEL may pass what is held at admission, and nothing else (R256). -/
def State.cancelTurn (s : State) (c seq : Nat) : Bool :=
  match s.front c with
  | none => true
  | some f => f.seq == seq || f.policed

/-- The command that a CANCEL finds: the earliest fetched of its context with the identifier. -/
def State.cancelTarget (s : State) (c own id : Nat) : Option Cmd :=
  (s.ctx c).cmds.find? fun y => dCommandId y.bytes == id && y.seq != own

/-- CANCEL's effect on its target. -/
def State.cancelCmd (c : Nat) (y : Cmd) (s : State) : State :=
  if dOpcode y.bytes = 0x01 then
    if y.admitted.isNone then s.modCmd c y.seq fun z => { z with cancelled := true }
    else match s.group? y.seq with
      | some g =>
        if g.fanned then ((s.cutNow y.seq).setGroup { g with tRr := some s.now, expired := true }).settleGroup y.seq
        else s.tearGroup g stDeadline
      | none => s.cutNow y.seq
  else s

/-- CANCEL (R256). -/
def execCancel (c seq : Nat) (s : State) : Out :=
  match (s.ctx c).cmds.find? fun y => y.seq == seq && dOpcode y.bytes == 0x02 && y.admitted.isNone with
  | none => .next s
  | some m =>
    if s.cancelTurn c seq then
      let t := s.admitCmd c m noCheck fun m t =>
        if !generalOk m.bytes || decide (65536 ≤ gCount m.bytes) then t.finish c m.seq (Res.of stInvalid)
        else match t.cancelTarget c m.seq (gCount m.bytes) with
          | some y => ((t.cancelCmd c y).bump .HQ_CANCELS 0 0 1).gFinish c m { info := 1 }
          | none => t.gFinish c m {}
      .next (t.admitBad c 65536)
    else .next s

/-- One shadow-log entry as the ring holds it, 32,832 bytes (R111). -/
def ShadowEntry.bytes (e : ShadowEntry) : List Byte :=
  let b := leBytes 8 e.seq ++ leBytes 8 e.tAdmit ++ leBytes 8 e.tDone ++ leBytes 2 e.ctx ++ leBytes 2 e.commandId
    ++ leBytes 1 e.index ++ leBytes 1 e.status ++ leBytes 2 e.version ++ leBytes 2 e.k ++ leBytes 2 e.liveCount
    ++ leBytes 2 e.shadowCount ++ leBytes 2 e.overlap ++ leBytes 2 e.liveFlags.toNat ++ leBytes 2 e.listsLive
    ++ leBytes 4 e.listsShadow ++ zeros 16 ++ e.liveRecs ++ e.shadowRecs
  b ++ zeros (32832 - b.length)

/-- LOG_READ (R111). -/
def execLogRead (c : Nat) (s : State) : Out :=
  let s := s.admitFront c [0x03] noCheck fun m t =>
    let n := gCount m.bytes
    if !generalOk m.bytes || n = 0 || decide (64 < n) then t.finish c m.seq (Res.of stInvalid)
    else
      let pn := t.ctxPn c
      let sh := t.shadow pn
      let es := (sh.log.filter fun e => decide (gArg m.bytes ≤ e.seq)).take n
      let next := (es.getLast?.map (·.seq + 1)).getD (max (gArg m.bytes) ((sh.log.head?.map (·.seq)).getD sh.nextSeq))
      let t := t.setShadow pn { sh with readUpTo := max sh.readUpTo ((es.getLast?.map (·.seq + 1)).getD 0) }
      t.gFinish c m { info := next, records := es.flatMap ShadowEntry.bytes, count := es.length }
  .next (s.admitBad c 65536)

/-! ### Interrupts (R244) -/

/-- MSIX_COALESCE_TIMEOUT (R244). -/
def execMsixCoalesceTimeout (c : Nat) (s : State) : Out :=
  let x := s.ctx c
  let n := s.fld fHQ_CTX_CTL_COAL_US8 c 0
  if 0 < x.irqCount ∧ 0 < n ∧ !x.silent then .next ((s.reach (x.irqFirst + 8 * us * n)).sendIrq c) else .next s

/-! ### Handover (R257 to R259) -/

/-- Handover class T of an opcode (R247). -/
def classT (op : Nat) : Bool := decide (op ≤ 0x15) || op == 0x21 || op == 0x22

/-- What a completed and unacknowledged command becomes (R258). -/
def fateOf (d : DoneCmd) : DoneCmd :=
  if classT d.opcode then
    { d with status := stTornDown, flags := 0, errSeq := 0,
             info := if [0x11, 0x12, 0x13, 0x14].contains d.opcode ∧ d.status = 0 then d.info else 0 }
  else d

/-- Undo a completed update that is torn: an INSERT's slots are tombstoned; a LIST_COPY's too, and its forward entries
cleared. -/
def State.undoDone (d : DoneCmd) (s : State) : State :=
  if d.opcode = 0x10 then s.rollback d.slots
  else if d.opcode = 0x15 then
    let refs := d.slots.map (·.2)
    let clear := fun (x : Version) =>
      { x with fwdSlot := x.fwdSlot.filter fun e => !refs.contains e.2,
               fwdCanon := x.fwdCanon.filter fun e => !refs.any fun r => refOrd r == e.2 }
    let ks := s.idx.versions.map (·.1)
    forEach ks (fun k t => t.modVersion k clear) (s.rollback d.slots)
  else s

/-- The fate of a command fetched and not completed. -/
def State.tornFate (s : State) (m : Cmd) : DoneCmd :=
  let rows := ((s.tbl.tblJobs.find? (·.seq == m.seq)).map (·.stepped)).getD 0
  doneOf m { status := stTornDown, info := rows }

/-- Take one context from its old port: steps 1 and 2 of R257. -/
def State.takeCtx (c : Nat) (s : State) : State :=
  let x := s.ctx c
  let fates := sortBy (fun (a b : DoneCmd) => decide (a.seq < b.seq))
    ((x.done.filter fun d => d.opcode != 0xFF || d.status != 0).map fateOf ++ x.cmds.map s.tornFate)
  let torn := x.done.filter fun d => classT d.opcode
  let s := (s.setCtx c { x with silent := true }).tearAll c stTornDown
  let s := forEach torn State.undoDone s
  (s.setCtx c { x with silent := true, cmds := [], done := [], fates := x.fates ++ fates, marker := some x.sqHead,
                       heldSince := none }).bump .HQ_HO_TORN 0 0 (torn.length + x.cmds.length)

/-- Rebind a context to the taking port, or leave it closed when its new function is full (R257 step 3, R239). -/
def State.rebind (c port func : Nat) (loc value : W64) (s : State) : State :=
  let there := (List.range 256).filter fun d =>
    d != c && s.isOn fHQ_CTX_BIND_V d 0 && s.ctxPort d == port && s.fld fHQ_CTX_BIND_FUNC d 0 == func
  let s := s.setFld fHQ_CTX_CTL_OPEN c 0 0
  if func ≠ 0 ∧ 16 ≤ there.length then
    ((s.setFld fHQ_CTX_STATUS_STATE c 0 0).modCtx c fun x => { x with fates := [], marker := none }).discard loc value
  else ((s.setFld fHQ_CTX_BIND_PORT c 0 port).setFld fHQ_CTX_BIND_FUNC c 0 func).setFld fHQ_CTX_STATUS_STATE c 0 3

/-- TAKE (R257). A write through the group's active port, or while the group may not be taken, is discarded. -/
def execTake (g port : Nat) (value loc : W64) (s : State) : Out :=
  let cmd := Fld.get fHQ_CG_CTL_CMD value
  if port == s.fld fHQ_CG_CTL_ACTIVE_PORT g 0 then .next (s.discard loc value)
  else if cmd == 1 && (!s.isOn fHQ_CG_CTL_HANDOVER_EN g 0 || s.fld fHQ_CG_CTL_STATE g 0 != 0) then
    .next (s.discard loc value)
  else
    let s := (s.setFld fHQ_CG_CTL_HANDOVER_EN g 0 (Fld.get fHQ_CG_CTL_HANDOVER_EN value)).setFld fHQ_CG_CTL_NEW_FUNC g 0
      (Fld.get fHQ_CG_CTL_NEW_FUNC value)
    if cmd = 1 then
      let mine := (List.range 256).filter fun c =>
        s.isOn fHQ_CTX_BIND_V c 0 && s.fld fHQ_CTX_BIND_CG c 0 == g && !s.isFabric c
      let func := s.fld fHQ_CG_CTL_NEW_FUNC g 0
      let s := s.setFld fHQ_CG_CTL_STATE g 0 1
      let s := forEach mine State.takeCtx s
      let s := forEach mine (fun c t => t.rebind c port func loc value) s
      .next (((s.setFld fHQ_CG_CTL_STATE g 0 2).bump .HQ_HANDOVERS 0 0 1).settleTake g)
    else .next s

end Sys2Proof.Machine
end

