-- ==== Sys2Proof/Machine/Search.lean ====
section
/-! DEFINITION. Admission of searches: the query block and container, the checks, the capture, and the fan-out of a group
search (R95 to R100, R104, R108, R231, R249 to R251, R260, R261); then the encode and probe stages (R70, R71, R127). -/

namespace Sys2Proof.Machine

/-! ### The per-query bitmap (R98, R99) -/

/-- Ordinals that a literal word allows. -/
def literalRuns (base w : Nat) : List (Nat × Nat) :=
  ((List.range 64).filter fun i => w.testBit i).map fun i => (base + i, base + i + 1)

/-- Decode the elements of a container: the ordinals allowed, as runs, and the units of 64 ordinals covered; none where an
element is malformed. -/
def qbmRuns : Nat → List Nat → Nat → List (Nat × Nat) → Option (List (Nat × Nat) × Nat)
  | _, [], pos, acc => some (acc, pos)
  | 0, _ :: _, _, _ => none
  | n + 1, w :: ws, pos, acc =>
    let c := bits w 26 0
    if bits w 61 27 ≠ 0 ∨ c = 0 then none
    else match bits w 63 62 with
      | 0 => qbmRuns n ws (pos + c) acc
      | 1 => qbmRuns n ws (pos + c) (acc ++ [(64 * pos, 64 * (pos + c))])
      | 2 =>
        if 131069 < c ∨ ws.length < c then none
        else qbmRuns n (ws.drop c) (pos + c)
          (acc ++ ((List.range c).zip (ws.take c)).flatMap fun p => literalRuns (64 * (pos + p.1)) p.2)
      | _ => none

/-- The 64-bit words of some bytes. -/
def words64 (b : List Byte) : List Nat := (List.range (b.length / 8)).map fun i => fieldAt b (8 * i) 8

/-- The elements of a container that is well formed: word index, first unit of 64 ordinals, units, and TYPE (R98). -/
def qbmElems : Nat → List Nat → Nat → Nat → List (Nat × Nat × Nat × Nat)
  | 0, _, _, _ => []
  | _ + 1, [], _, _ => []
  | n + 1, w :: ws, ix, pos =>
    let c := bits w 26 0
    let lits := if bits w 63 62 = 2 then c else 0
    (ix, pos, c, bits w 63 62) :: qbmElems n (ws.drop lits) (ix + 1 + lits) (pos + c)

/-- The number of the element that holds a unit. -/
def elemAt (es : List (Nat × Nat × Nat × Nat)) (u : Nat) : Nat :=
  (es.findIdx? fun e => decide (e.2.1 ≤ u) && decide (u < e.2.1 + e.2.2.1)).getD es.length

/-- Units that the elements cover. -/
def elemSpan (es : List (Nat × Nat × Nat × Nat)) : Nat := es.foldl (fun n e => max n (e.2.1 + e.2.2.1)) 0

/-- The position index: one entry for each 65,536 ordinals, 1,024 units (R100). -/
def posIndex (es : List (Nat × Nat × Nat × Nat)) : List Nat :=
  (List.range ((elemSpan es + 1023) / 1024)).map fun r =>
    let e := es.getD (elemAt es (1024 * r)) (0, 0, 0, 0)
    e.1 * 2 ^ 32 + (1024 * r - e.2.1)

/-- The walker decodes the four units of a block from unit `u` on: the bytes it reads, and its new position. It starts from the
position index entry of the range, or goes on from the element it had reached in that range; it reads each further element's
word, and the literal words of the block (R100, log entry 69). -/
def qbmRead (es : List (Nat × Nat × Nat × Nat)) (at_ : Option (Nat × Nat)) (u : Nat) : Nat × Nat × Nat :=
  let r := u / 1024
  let span := elemSpan es
  if span ≤ u then (0, at_.getD (r, 0))
  else
    let p := match at_ with
      | some (r', i) => if r' = r then (i, 0) else (elemAt es (1024 * r), 16)
      | none => (elemAt es (1024 * r), 16)
    let last := elemAt es (min (u + 3) (span - 1))
    let lits := ((List.range 4).filter fun i => decide (u + i < span)
      && (es.getD (elemAt es (u + i)) (0, 0, 0, 0)).2.2.2 == 2).length
    (p.2 + 8 * (last - p.1) + 8 * lits, r, last)

/-- A container that passes the checks of R99, VERSION apart: its runs and ORD_SPAN. -/
def containerOf (b : List Byte) (ordLimit : Nat) : Option (List (Nat × Nat) × Nat) :=
  let n := fieldAt b 4 4
  let span := fieldAt b 8 8
  if 2 ^ 20 < b.length ∨ b.length ≠ 16 + 8 * n ∨ n = 0 ∨ 131070 < n ∨ fieldAt b 0 2 ≠ 1 ∨ span % 64 ≠ 0 ∨ ordLimit < span
  then none
  else match qbmRuns n (words64 (b.drop 16)) 0 [] with
    | some (runs, units) => if 64 * units = span then some (runs, span) else none
    | none => none

/-- DRAM of one copy of a container with its position index, in 4 KiB units (R100). -/
def qbmUnitsOf (len span : Nat) : Nat := kib4 (len + 8 * ((span + 65535) / 65536))

/-! ### The query block (R250) -/

structure QBlock where
  code : Code := 0
  u : BitVec 16 := 0
  x : List Byte := []
  fp16 : List (BitVec 16) := []
  box : List Byte := []
  deriving DecidableEq, Repr

/-- Offsets of the FP16 query and of the container. -/
def fp16Off (form dims : Nat) : Nat := if form = 2 then 0x80 else end64 (0xC0 + dims)
def boxOff (form dims cols dIn : Nat) : Nat :=
  match form with
  | 0 => 0x80
  | 1 => end64 (0xC0 + dims)
  | 2 => end64 (0x80 + 2 * dIn)
  | _ => end64 (end64 (0xC0 + dims) + 2 * cols)

/-- The query block of a command: in host memory, or inline on a fabric context. -/
def State.qblock (s : State) (c die k : Nat) (m : Cmd) : QBlock :=
  let b := m.bytes
  let form := qForm b
  let dims := (s.pjFmt die k).d
  let dIn := s.fld fPJ_MAT_D_IN die k
  let cols := s.fld fGE_TBL_GEOM_COLS (qTable b) 0
  let part := fun (o n : Nat) =>
    if s.isFabric c then (m.inlined.drop o).take n else s.rdN (s.ctxPort c) (qQueryAddr b + o) n
  { code := if form = 2 then 0 else BitVec.ofNat 1024 (leNat (part 0 (s.codeBits (qIndex b) / 8)))
    u := if form = 1 ∨ form = 3 then BitVec.ofNat 16 (leNat (part 0x80 2)) else 0
    x := if form = 1 ∨ form = 3 then part 0xC0 dims else []
    fp16 := if form = 2 then halves (part 0x80 (2 * dIn)) else if form = 3 then halves (part (fp16Off 3 dims) (2 * cols)) else []
    box := if 2 ≤ filterMode (qFilter b) then part (boxOff form dims cols dIn) (qQbmLen b) else [] }

/-! ### Checks of a SEARCH (R251) -/

/-- One operand byte names a standing bitmap that the version defines, or TRUE or FALSE (R95, R96). -/
def operandOk (mask : BitVec 16) (o : Nat) : Bool :=
  bits o 6 5 == 0 && (decide (0x1E ≤ bits o 4 0) || (decide (bits o 4 0 ≤ 15) && mask.toNat.testBit (bits o 4 0)))

def filterOk (mask : BitVec 16) (f : BitVec 64) : Bool :=
  bits f.toNat 58 56 == 0 && bits f.toNat 23 0 == 0
    && (filterMode f % 2 == 0 || (List.range 4).all fun i => operandOk mask (bits f.toNat (31 + 8 * i) (24 + 8 * i)))

/-- Widening ceiling and step (R104). -/
def wCeil (b : List Byte) : Nat := bits (qWidenCtl b) 31 19
def wStep (b : List Byte) : Nat := bits (qWidenCtl b) 18 6

/-- Ranges of N_PROBE, K_S, the depths and WIDEN_CTL, for a version of `count` clusters (R29, R51, R82, R104, R134). -/
def depthsOk (b : List Byte) (count : Nat) : Bool :=
  let most := min 4096 count
  let np := qNProbe b
  let ceil := wCeil b
  decide (1 ≤ np) && decide (np ≤ most) && decide (qK b ≤ qKs b) && decide (max np ceil * qKs b ≤ 2 ^ 24)
    && (!(qFlashStage b || qFp16Stage b) || decide (qK b ≤ qRr b)) && bits (qWidenCtl b) 5 0 == 0
    && (ceil == 0 || (decide (np < ceil) && decide (ceil ≤ most) && decide (1 ≤ wStep b) && decide (wStep b ≤ 4096)))
    && (!qFp16Stage b || (decide (qK b ≤ qF b) && decide (qF b ≤ min (qM b) 4096)))

/-- The deadlines of a budget admitted at `t`: T_sd and T_rr (R231). -/
def deadlines (b : List Byte) (budget margin t : Nat) : Option Nat × Option Nat :=
  if budget = 0 then (none, none)
  else (some (t + us * (budget * qScanPct b / 100)), some (t + us * budget - us * margin))

def budgetOk (b : List Byte) (budget margin : Nat) : Bool :=
  if budget = 0 then qScanPct b == 0
  else decide (100 ≤ budget) && decide (budget ≤ 1000000) && decide (1 ≤ qScanPct b) && decide (qScanPct b ≤ 90)
    && decide (budget * qScanPct b / 100 + margin < budget)

/-- Budget that the members of a group are given (R260). -/
def State.memberBudget (s : State) (b : List Byte) : Nat := qBudgetUs b - s.fld fHQ_GRP_CTL_GROUP_MARGIN_US 0 0

/-- The stages asked for can run on what the block carries (R251): the geometry of an FP16 stage's table obeys R134, FP16
data are finite, and a scale the host supplies is one (R113, R130). -/
def State.stagesOk (s : State) (b : List Byte) (die k : Nat) (q : QBlock) : Bool :=
  let form := qForm b
  let t := qTable b
  let dIn := s.fld fPJ_MAT_D_IN die k
  (!qFlashStage b || (form != 0 && (s.pjFmt die k).code != 0))
    && (!qFp16Stage b || (decide (2 ≤ form) && s.isOn fGE_TBL_CTL_ENABLE t 0 && geomOk (s.reg .GE_TBL_GEOM t 0)
      && (form != 2 || s.fld fGE_TBL_GEOM_COLS t 0 == dIn)))
    && (form != 2 || s.isOn fPJ_MAT_SIGN_EN die k) && allFinite q.fp16
    && (form % 2 == 0 || scaleOk q.u)

/-- DRAM of a row of a candidate region, in 4 KiB units: 16 bytes for each element (R73). -/
def rowUnits (row : List Elem) : Nat := kib4 (16 * row.length)

/-- What a query holds of a die's working memory: its container copy, its merge rows, its reduction region (R216). -/
def State.queryWork (s : State) (d : Nat) (x : Query) : Nat :=
  let home := if x.home = d then
      rowUnits x.homeList + x.dieLists.foldl (fun n e => n + rowUnits e.2) 0
        + x.region.elim 0 (fun r => s.fld fXT_RGN_CTL_SIZE_4K r 0)
    else 0
  x.qbmUnits + rowUnits (x.dieRows.getD [] d) + home

/-- What a task holds of a die's working memory: its lanes' rows where it runs, or its checkpoint on the list die (R68). -/
def taskWork (d : Nat) (t : Task) : Nat :=
  if (if t.band = noBand then t.die else dieOf t.band) = d then t.lanes.foldl (fun n l => n + rowUnits l.row) 0 else 0

/-- Working memory that a partition has drawn from its grant on a die, in 4 KiB units (R216, log entry 69). -/
def State.workOn (s : State) (pn d : Nat) : Nat :=
  (s.qry.queries.filter fun e => e.2.pn == pn).foldl (fun n e => n + s.queryWork d e.2) 0
    + (s.qry.tasks.filter fun t => t.key.pn == pn).foldl (fun n t => n + taskWork d t) 0

/-- `units` more of working memory fit the partition's grant on every crown die (R100, R216). -/
def State.grantFits (s : State) (pn units : Nat) : Bool :=
  (List.range 5).all fun d => decide (s.workOn pn d + units ≤ 256 * s.fld fTN_PART_GRANT_MIB pn 0)

/-- What the admission of a search captures. -/
structure Captured where
  v : Nat
  tv : Nat
  die : Nat
  blk : QBlock
  runs : List (Nat × Nat)
  units : Nat
  deriving DecidableEq, Repr

/-- The status of a search's checks, the versions it would capture, and its home die (R27, R251). -/
def State.checkSearch (s : State) (c : Nat) (m : Cmd) : Nat × Captured :=
  let b := m.bytes
  let n := qIndex b
  let pn := s.ctxPn c
  let v := s.capture n (qNamed b) (qVersion b)
  let k := verKey n (v.getD 0)
  let x := s.version k
  let die := s.pickHome pn
  let q := s.qblock c die k m
  let mode := filterMode (qFilter b)
  let tv := s.captureTbl (qTable b) false 0
  let box := containerOf q.box (x.ordHi.foldl max 0)
  let units := box.elim 0 fun e => qbmUnitsOf q.box.length e.2
  let margin := s.fld fTN_DL_CFG_RETURN_MARGIN_US pn 0
  let bad := !searchOk b (s.isFabric c) || pn == 0x3F || !depthsOk b x.count || !filterOk x.stdMask (qFilter b)
    || !budgetOk b (qBudgetUs b) margin || !s.stagesOk b die k q || (dGroup b && decide (2 ≤ mode))
    || (decide (mode < 2) && qQbmLen b != 0) || (decide (2 ≤ mode) && box.isNone)
    || (dGroup b && qBudgetUs b != 0 && decide (s.memberBudget b < 100)) || !s.isOn fHQ_IDX_CTL_ENABLE n 0
  let old := v.isNone || (qFp16Stage b && (tv.all fun w => s.tblRetiring (qTable b) w))
    || (decide (2 ≤ mode) && v.any fun w => fieldAt q.box 2 2 != s.fld fHQ_IDX_VER_VERSION n w)
  let full := units != 0 && !s.grantFits pn units
  (worst [(bad, stInvalid), (old, stBadVersion), (full, stQuota)],
    { v := v.getD 0, tv := tv.getD 0, die := die, blk := q, runs := (box.map (·.1)).getD [], units := units })

/-! ### The query (R251, R231, R27) -/

/-- A query as its admission leaves it. -/
def State.makeQuery (s : State) (c : Nat) (m : Cmd) (p : Captured) (budget : Nat) : Query :=
  let b := m.bytes
  let n := qIndex b
  let pn := s.ctxPn c
  let dl := deadlines b budget (s.fld fTN_DL_CFG_RETURN_MARGIN_US pn 0) s.now
  { ctx := c, commandId := dCommandId b,
    tenant := s.ctxTenant c, pn := pn, index := n, vslot := p.v, version := s.fld fHQ_IDX_VER_VERSION n p.v,
    bits := s.codeBits n, k := qK b, ks := qKs b, rr := qM b, nProbe := qNProbe b, ceil := wCeil b, wstep := wStep b,
    filter := qFilter b, qbm := p.runs, qbmWords := words64 (p.blk.box.drop 16),
    qbmIndex := posIndex (qbmElems p.blk.box.length (words64 (p.blk.box.drop 16)) 0 0), qbmUnits := p.units, flashStage := qFlashStage b,
    fp16Stage := qFp16Stage b, f := qF b, tbl := qTable b, tblVslot := p.tv,
    tblVersion := s.fld fGE_TBL_VER_VERSION (qTable b) p.tv, tAdmit := s.now, tFetch := m.fetchTime, tSd := dl.1,
    tRr := dl.2, home := p.die, stage := if qForm b = 2 then .encode else .probe, code := p.blk.code, x := p.blk.x,
    u := p.blk.u, fp16 := p.blk.fp16, pCur := qNProbe b, conn := m.conn, jobKey := m.jobKey, yellow := m.yellow,
    key := (s.ctx c).key, bytes := b, flags := if m.replayed then 32 else 0 }

/-- Number an eligible query, and decide whether it will be shadowed (R108). -/
def State.sample (x : Query) (s : State) : Bool × State :=
  if x.k ≤ 1024 ∧ filterMode x.filter ≤ 1 then
    let sh := s.shadow x.pn
    let s' := s.setShadow x.pn { sh with eligible := sh.eligible + 1 }
    let busy := (s.qry.queries.filter fun e => e.2.pn == x.pn && (e.2.isShadow || e.2.sampled)).length
    if s.isOn fTN_SHADOW_CFG_EN x.pn 0 ∧ sh.eligible % 2 ^ s.fld fTN_SHADOW_CFG_PERIOD_LOG2 x.pn 0 = 0 then
      if busy < s.fld fTN_SHADOW_CFG_SHADOW_DEPTH x.pn 0 then (true, s') else (false, s'.bump .TN_SHADOW_SKIPPED x.pn 0 1)
    else (false, s')
  else (false, s)

/-- A query joins the probe unit of its home die (R70). -/
def State.joinProbe (q : Nat) (s : State) : State :=
  match s.query q with
  | none => s
  | some x =>
    let s := s.setQuery q { x with stage := .probe }
    { s with qry := { s.qry with probe := s.qry.probe.upd {} x.home fun u => { u with waiting := u.waiting ++ [(q, s.now)] } } }

/-- A query is admitted: it holds the versions it has captured (R49, R166). -/
def State.holdQuery (q : Nat) (x : Query) (s : State) : State :=
  let s := (s.setQuery q x).holdRef x.ver
  if x.fp16Stage then s.holdTable x.tbl x.tblVslot else s

/-- It begins its cascade with its encode or its probe (R27). -/
def State.begin_ (q : Nat) (s : State) : State :=
  match s.query q with
  | none => s
  | some x =>
    if x.stage = .encode then
      { s with qry := { s.qry with encodeQ := s.qry.encodeQ.upd [] x.home (· ++ [q]) } }
    else s.joinProbe q

/-- Enter a query into its cascade (R27, R100, R166). -/
def State.enter (q : Nat) (x : Query) (s : State) : State := (s.holdQuery q x).begin_ q

/-! ### The head of a group (R260, R314) -/

/-- Members that serve the shards of the device, with the shards each serves. -/
def State.fanPlan (s : State) : List (Nat × List Nat) :=
  let shards := (List.range 64).filter fun sh => s.isOn fHQ_GRP_SHARD_V sh 0
  (List.range 64).filterMap fun m =>
    let mine := shards.filter fun sh => s.server sh == some m
    if mine = [] then none else some (m, mine)

/-- The query block that goes inline with a sub-query: the encoded form (R128, R260). -/
def inlineBlock (form bits : Nat) (x : Query) : List Byte :=
  let code := leBytes (bits / 8) x.code.toNat
  let code := code ++ zeros (128 - code.length)
  if form = 0 then code
  else
    let vec := code ++ leBytes 2 x.u.toNat ++ zeros 62 ++ x.x
    if x.fp16 = [] then vec else vec ++ zeros (end64 vec.length - vec.length) ++ halfBytes x.fp16

/-- The descriptor of a sub-query. -/
def subDescriptor (b : List Byte) (form budget : Nat) : List Byte :=
  let b := patch b 1 (leBytes 1 (fieldAt b 1 1 % 128))
  let b := patch b 2 (leBytes 2 0)
  let b := patch b 8 (leBytes 8 0)
  let b := patch b 0x11 (leBytes 1 (fieldAt b 0x11 1 % 8 + 8 * form))
  patch b 0x20 (leBytes 4 budget)

/-- QFORM of the encoded form of a query. -/
def encodedForm (form : Nat) (fp16 : Bool) : Nat := if form = 2 then (if fp16 then 3 else 1) else form

/-- Send the sub-queries of a group search to the members that serve its shards; the head's own part stays as the query
`seq` when it serves a shard itself (R260). -/
def State.fanOutSearch (seq : Nat) (s : State) : State :=
  match s.group? seq, s.query seq with
  | some g, some x =>
    let plan := s.fanPlan
    let form := encodedForm (qForm g.bytes) x.fp16Stage
    let budget := if qBudgetUs g.bytes = 0 then 0 else s.memberBudget g.bytes
    let msg := leBytes 8 g.key.toNat ++ subDescriptor g.bytes form budget ++ inlineBlock form x.bits x
    let others := plan.filter fun p => p.1 != s.selfMember
    let all := (List.range 64).filter fun sh => s.isOn fHQ_GRP_SHARD_V sh 0
    let s := s.setGroup { g with awaited := plan, fanned := true, shards := all }
    let s := forEach others (fun p t => (t.postSend (t.memberConn p.1) 0 g.yellow msg (some seq)).bump .HQ_GRP_SUBQ 0 0 1) s
    let mine := plan.any (·.1 == s.selfMember)
    let late := mine && !budgetOk g.bytes budget (s.fld fTN_DL_CFG_RETURN_MARGIN_US x.pn 0)
    let r := s.sample x
    let s := if mine && !late then r.2.modQuery seq fun y => { y with sampled := r.1 } else s.dropQuery seq
    let s := match s.group? seq with
      | some g => s.park g
      | none => s
    if late then s.takeAnswer seq { shard := 0, member := s.selfMember, status := stInvalid, flags := 0, skipped := 0,
                                    lists := 0, records := [] }
    else s.settleGroup seq
  | _, _ => s

/-- Phase 1 of a group search: the head's own query, as its admission captured it, whose encode comes before the fan-out
(R49, R128, R260). -/
def State.phaseSearch (g : GroupJob) (s : State) : State :=
  let stage := if qForm g.bytes = 2 then QStage.encode else .probe
  let s := (s.modQuery g.seq fun x => { x with stage := stage }).begin_ g.seq
  if stage = .encode then s else s.fanOutSearch g.seq

/-- The lease of a new group command, or its first phase at once (R314). -/
def State.openGroup (g : GroupJob) (phase : GroupJob → State → State) (s : State) : State :=
  let s := { s with hq := { s.hq with groups := s.hq.groups ++ [g], nextReqSeq := (s.hq.nextReqSeq + 1) % 2 ^ 48 } }
  if s.leased then
    let l : HeadLease := { key := g.key, st := 0, epoch := 0, pendingEpoch := 1, lastSent := s.now, confirmed := s.now,
                           seq := g.seq, off := s.statePlace }
    ({ s with ten := { s.ten with headLeases := s.ten.headLeases ++ [l] } }).sendLease 1 1 g.key
  else phase g (if s.isOn fTN_LEASE_CFG_EN 0 0 then s.bump .TN_LEASE_ACQUIRED 0 0 1 else s)

/-- The job key of the next group command (R313, R333). -/
def State.nextKey (s : State) : W64 := BitVec.ofNat 64 (s.selfMember * 2 ^ 58 + s.hq.nextReqSeq)

/-- Admit a group search (R260, R262). -/
def State.admitGroupSearch (c : Nat) (m : Cmd) (p : Captured) (s : State) : State :=
  let b := m.bytes
  let g : GroupJob := {
    seq := m.seq, ctx := c, commandId := dCommandId b, opcode := 0x01,
    k := qK b, wantStage := if qFp16Stage b then 2 else if qFlashStage b then 1 else 0,
    tenant := s.ctxTenant c, home := p.die, admitTime := s.now,
    tRr := (deadlines b (qBudgetUs b) (s.fld fTN_DL_CFG_RETURN_MARGIN_US (s.ctxPn c) 0) s.now).2,
    key := s.nextKey, bytes := b, ver := verKey (qIndex b) p.v, yellow := m.yellow }
  let budget := if qBudgetUs b = 0 then 0 else s.memberBudget b
  let x := { s.makeQuery c m p budget with group := some m.seq, stage := .lease }
  (s.holdQuery m.seq x).openGroup g State.phaseSearch

/-- Admission of a search whose checks are to be made (R251); a read of the block that failed is R238's. -/
def State.admitSearch (readOk : Bool) (c : Nat) (m : Cmd) (s : State) : State :=
  let mode := filterMode (qFilter m.bytes)
  let inFlight := s.qry.queries.any fun e => e.2.ctx == c && !e.2.isShadow && decide (2 ≤ filterMode e.2.filter)
  if mode ≥ 2 ∧ inFlight then s.waitAtAdmission c m
  else if !readOk && !s.isFabric c then
    let f := (Config.free s.freeCount).toNat
    let r := s.draw.hostDmaErr (s.ctxPort c) (qQueryAddr m.bytes) f
    r.1.finish c m.seq { status := stInvalid, errSeq := r.2 }
  else
    let p := s.checkSearch c m
    if p.1 ≠ 0 then
      let s := if p.1 = stQuota then s.bump .TN_QUOTA_REFUSED (s.ctxTenant c) 0 1 else s
      s.finish c m.seq (Res.of p.1)
    else if m.cancelled then s.finish c m.seq (Res.of stDeadline)
    else if dGroup m.bytes then s.admitGroupSearch c m p.2
    else
      let x := s.makeQuery c m p.2 (qBudgetUs m.bytes)
      let r := s.sample x
      r.2.enter m.seq { x with sampled := r.1 }

/-- SEARCH (R251). -/
def execSearch (c : Nat) (readOk : Bool) (s : State) : Out :=
  .next ((s.admitFront c [0x01] (fun m t => (t.checkSearch c m).1) (State.admitSearch readOk c)).admitBad c 65536)

/-! ### Sub-queries on a member (R261) -/

/-- The fabric context bound to a connection. -/
def State.fabricCtx (s : State) (conn : Nat) : Option Nat :=
  firstFit (fun c => s.isOn fHQ_CTX_BIND_V c 0 && s.isFabric c && s.fld fHQ_CTX_BIND_CONN c 0 == conn) 256

/-- Take the first waiting SEND of a type from a connection's inbox; its room in the receive pool is given back (R269). -/
def State.takeSend (conn ty : Nat) (s : State) : Option (RxMsg × State) :=
  let x := s.conn conn
  match x.inbox.find? (·.sendType == ty) with
  | none => none
  | some m =>
    let d := s.connDie conn
    let pool := s.net.poolBytes.getD 0 d - (if m.pooled then m.len else 0)
    some (m, ({ s with net := { s.net with poolBytes := s.net.poolBytes.put d pool } }).setConn conn
      { x with inbox := x.inbox.filter (·.msn != m.msn) })

/-- The job key is one that was aborted (R335). -/
def State.keyAborted (s : State) (key : W64) : Bool := s.ras.abortedKeys.any (·.1 == key)

/-- A part of a group command arrives on a connection: it becomes a fetched command of the fabric context, or is answered
at once (R261, R333, R335). -/
def State.receiveCmd (conn : Nat) (r : RxMsg) (s : State) : Option Nat × State :=
  let key := BitVec.ofNat 64 (fieldAt r.data 0 8)
  let seq := s.hq.nextSeq
  let m : Cmd := { seq := seq, bytes := (r.data.drop 8).take 64, fetchTime := s.now, inlined := r.data.drop 72,
                   conn := some conn, jobKey := some key, yellow := r.dei }
  let s := { s with hq := { s.hq with nextSeq := seq + 1 } }
  match s.fabricCtx conn with
  | none => (none, s.postSend conn 1 r.dei (answerBytes m (Res.of stInvalid)))
  | some c =>
    let s := (s.modCtx c fun x => { x with cmds := x.cmds ++ [m] }).bump .HQ_CMD_FETCHED 0 0 1
    if s.keyAborted key then (none, s.finish c seq (Res.of stAborted)) else (some c, s)

/-- SUB_QUERY (R261). -/
def execSubQuery (conn : Nat) (s : State) : Out :=
  match s.takeSend conn 0 with
  | none => .next s
  | some (r, s) =>
    let p := s.receiveCmd conn r
    match p.1 with
    | some c => .next ((p.2.admitFront c [0x01] (fun m t => (t.checkSearch c m).1) (State.admitSearch true c)).admitBad c 65536)
    | none => .next p.2

/-! ### Encode (R126 to R128) -/

/-- The encode that a die's projection unit takes next: up to 64 further ones of the version whose matrix is loaded, else
the one at the head of its queue. -/
def State.nextEncode (s : State) (die : Nat) : Option Nat :=
  let q := s.qry.encodeQ.getD [] die
  let same := q.find? fun n => ((s.query n).map (·.ver)).isSome && (s.query n).map (·.ver) == s.qry.matrix.get? die
  if s.qry.encTaken.getD 0 die < 64 then (match same with
    | some n => some n
    | none => q.head?)
  else q.head?

/-- Give a query its encoded form. -/
def State.encodeFor (die q : Nat) (x : Query) (s : State) : State :=
  let c := s.encCode die x.ver x.fp16
  let s := c.2.bump .PJ_ENC_QUERY die 0 1
  if (s.pjFmt die x.ver).code = 0 then s.setQuery q { x with code := c.1 }
  else
    let v := s.encQuery die x.ver x.key x.fp16
    v.2.setQuery q { x with code := c.1, u := v.1.1, x := v.1.2 }

/-- The projection unit of a die serves the next waiting encode. -/
def State.takeEncode (die : Nat) (s : State) : State :=
  match s.nextEncode die with
  | none => s
  | some q =>
    let s := { s with qry := { s.qry with encodeQ := s.qry.encodeQ.upd [] die (·.filter (· != q)) } }
    match s.query q with
    | none => s
    | some x =>
      let s := (s.encodeFor die q x).joinProbe q
      match x.group with
      | some g => s.fanOutSearch g
      | none => s

/-- Serve the encodes that wait at a die: those of an insert admitted later come after them (R130). -/
def State.serveEncodes (die : Nat) : Nat → State → State
  | 0, s => s
  | n + 1, s => State.serveEncodes die n (s.takeEncode die)

/-- QUERY_ENCODE (R127). -/
def execQueryEncode (die : Nat) (s : State) : Out := .next (if s.dieReset die then s else s.takeEncode die)

/-! ### Probe (R70, R71) -/

/-- Length of a probe pass in cycles. -/
def probeCycles (bits n : Nat) : Nat := if bits = 256 then (n + 3) / 4 else (n + 7) / 8

/-- Waiting queries of each version: version, and (query, since) in order. -/
def State.probeBatches (s : State) (die : Nat) : List (Nat × List (Nat × Nat)) :=
  let w := (s.qry.probe.getD {} die).waiting
  (List.range 64).filterMap fun k =>
    let mine := w.filter fun e => (s.query e.1).map (·.ver) == some k
    if mine = [] then none else some (k, mine)

def oldestOf (l : List (Nat × Nat)) : Nat := l.foldl (fun n e => min n e.2) (l.headD (0, 0)).2

/-- The batch whose pass runs first: the longest wait, then the lower index slot, then the lower version slot. -/
def firstBatch (bs : List (Nat × List (Nat × Nat))) : Option (Nat × List (Nat × Nat)) :=
  bs.foldl (fun o b => match o with
    | none => some b
    | some a => if oldestOf b.2 < oldestOf a.2 then some b else some a) none

/-- PROBE_PASS_LAUNCH (R70): a batch is ready when it is full, or past its probe window. -/
def execProbePassLaunch (die : Nat) (s : State) : Out :=
  if s.dieReset die then .next s else
  let u := s.qry.probe.getD {} die
  let w := us * s.fld fBD_PR_CFG_PROBE_WINDOW_US die 0
  if u.pass ≠ [] then .next s
  else
    let ready := fun (t : Nat) (b : Nat × List (Nat × Nat)) => decide (128 ≤ b.2.length) || decide (oldestOf b.2 + w ≤ t)
    let bs := s.probeBatches die
    let r := if bs.any (ready s.now) then s else s.reach ((bs.map fun b => oldestOf b.2 + w).foldl min (s.now + w))
    match firstBatch (bs.filter (ready r.now)) with
    | none => .next s
    | some (k, qs) =>
      let go := (qs.take 128).map (·.1)
      let u' : ProbeUnit := { waiting := u.waiting.filter fun e => !go.contains e.1, pass := go, started := r.now }
      let s := { r with qry := { r.qry with probe := r.qry.probe.put die u' } }
      let cyc := probeCycles (s.centBits (k / 4)) (s.version k).count
      .next (((s.bump .BD_PR_PASSES die 0 1).bump .BD_PR_QUERIES die 0 go.length).bump .BD_PR_CYC die 0 (4 * cyc))

/-- A query's pass has ended: its ranks are known, and its first pairs are posted (R71). -/
def State.probed (q : Nat) (s : State) : State :=
  match s.query q with
  | none => s
  | some x =>
    let all := rankClusters (s.centBits x.index) (s.version x.ver).cents x.code
    (s.setQuery q { x with ranks := all.take (max x.nProbe x.ceil), inProbe := false, stage := .scan }).postFirst q

/-- PROBE_PASS_COMPLETE (R71). -/
def execProbePassComplete (die : Nat) (s : State) : Out :=
  if s.dieReset die then .next s else
  let u := s.qry.probe.getD {} die
  match u.pass with
  | [] => .next s
  | q :: _ =>
    let k := ((s.query q).map (·.ver)).getD 0
    let cyc := probeCycles (s.centBits (k / 4)) (s.version k).count
    let s := s.reach (u.started + cyc * 5 / 4)
    let s := { s with qry := { s.qry with probe := s.qry.probe.put die { u with pass := [] } } }
    .next (forEach u.pass State.probed s)

end Sys2Proof.Machine
end

