-- ==== Sys2Proof/Machine/Invoke.lean ====
section
/-! DEFINITION. Command objects of the dictionary as the units that carry them out see them (R361, R363): the end of an
invocation. -/

namespace Sys2Proof.Machine

/-- DETAIL REFUSED (R361). -/
def dtRefused : Nat := 0x0D

/-- The command object (index, sub) ends with a status, a detail and a result, which is held for POLL (R363). -/
def State.endInvoke (index sub status detail : Nat) (result : List Byte) (s : State) : State :=
  let stop := fun (r : Running) =>
    if r.index = index ∧ r.sub = sub ∧ r.ended.isNone then
      { r with ended := some s.now, status := status, detail := detail, result := result }
    else r
  { s with dict := { s.dict with running := s.dict.running.map stop } }

/-- It ends with SUCCESS. -/
def State.invokeOk (index sub : Nat) (result : List Byte) (s : State) : State := s.endInvoke index sub 0 0 result

/-- It is refused by its own rule: INVALID_DESCRIPTOR with DETAIL REFUSED. -/
def State.invokeRefused (index sub : Nat) (s : State) : State := s.endInvoke index sub 0x10 dtRefused []

end Sys2Proof.Machine
end

