-- ==== Sys2Proof/Machine/Scan.lean ====
section
/-! DEFINITION. Gathering, list tasks, and selection in the bands and merge units: holds, triggers and launches (R64 to
R66), tiles and blocks (R52 to R62, R408), reductions (R83), checkpoints (R68), die and home merges (R84). -/

namespace Sys2Proof.Machine

/-! ### Walker contexts -/

def State.task? (s : State) (id : Nat) : Option Task := s.qry.tasks.find? (·.id == id)

def State.setTask (t : Task) (s : State) : State :=
  { s with qry := { s.qry with tasks := s.qry.tasks.map fun x => if x.id = t.id then t else x } }

def State.dropTask (id : Nat) (s : State) : State :=
  { s with qry := { s.qry with
    tasks := s.qry.tasks.filter (·.id != id)
    redQ := s.qry.redQ.map fun (e : Nat × List (Nat × Nat)) => (e.1, e.2.filter (·.1 != id)) } }

/-- Tasks in the walker contexts of a band. -/
def State.onBand (s : State) (b : Nat) : List Task := s.qry.tasks.filter (·.band == b)

/-- Tiles bound on a band. -/
def State.tilesBound (s : State) (b : Nat) : Nat := (s.onBand b).foldl (fun n t => n + t.bound) 0

/-- CTX_BUSY, TILES_BOUND and DRAINED of BD_STATUS. -/
def State.noteBand (b : Nat) (s : State) : State :=
  let n := (s.onBand b).length
  ((s.setFld fBD_STATUS_CTX_BUSY b 0 n).setFld fBD_STATUS_TILES_BOUND b 0 (s.tilesBound b)).setFld fBD_STATUS_DRAINED b 0
    (if n = 0 then 1 else 0)

/-- An engine is replaying: it takes no other work (R324). -/
def State.replaying (s : State) (e i : Nat) : Bool := (s.ras.engines.getD {} (Nat.pair e i)).replaySets != []

/-- A band takes launches: awake, in service, not draining, with a free context (R65, R339, R385). -/
def State.bandFree (s : State) (b : Nat) : Bool :=
  decide ((s.onBand b).length < 64) && !s.isOn fBD_CTL_DRAIN b 0 && s.fld fBD_SVC_STATE b 0 == 0
    && (s.power.waking.get? b).isNone && !s.isOn fBD_THR_GATED b 0 && !s.bandReset b
    && !s.replaying 0 b && !s.replaying 1 b

/-- The band a launch takes: on the list die when it can, fewest tasks holding lanes, then the lowest number (R65). -/
def State.launchBand (s : State) (pn die : Nat) : Option Nat :=
  let near := (s.bandsOf pn die).filter s.bandFree
  let all := if near = [] then (s.partBands pn).filter s.bandFree else near
  all.foldl (fun o b => match o with
    | none => some b
    | some a => if s.laneTasks b < s.laneTasks a then some b else some a) none

/-- Change how many tasks and promotions hold the DRAM copy of a list. -/
def State.holdList (k cl : Nat) (s : State) : State := s.modList k cl fun l => { l with holds := l.holds + 1 }
def State.dropHold (k cl : Nat) (s : State) : State := s.modList k cl fun l => { l with holds := l.holds - 1 }

def keyVer (k : GKey) : Nat := verKey k.index k.vslot

/-- Tenant of a partition. -/
def State.partTenant (s : State) (pn : Nat) : Nat := s.fld fTN_PART_TENANT pn 0

/-! ### Gathering commands (R64 to R66) -/

/-- HELD_PAIR_POST (R66). -/
def execHeldPairPost (die : Nat) (s : State) : Out :=
  let hs := s.qry.held.getD [] die
  match hs.find? fun h => decide ((s.pairPool h.die h.key.pn).length < s.poolSize h.key.pn) with
  | none => .next s
  | some h =>
    let s := { s with qry := { s.qry with held := s.qry.held.put die (hs.erase h) } }
    .next (s.joinQueue h.q h.rank h.die h.key)

/-- LAUNCH_BY_EXPIRY (R64). -/
def execLaunchByExpiry (die : Nat) (k : GKey) (s : State) : Out :=
  match lowestLb (s.gq die k).pairs with
  | some p => .next ((s.reach p.lb).checkQueue die k)
  | none => .next s

/-- Launch order of waiting pairs: live before shadow, then LB, then T_post (R65, R110). -/
def pairBefore (a b : Pair) : Bool :=
  if a.shadow ≠ b.shadow then b.shadow
  else decide (a.lb < b.lb) || (a.lb == b.lb && decide (a.tPost < b.tPost))

/-- The filter class of a pair: its expression, and whether it stands alone (R97). -/
def classOf (p : Pair) : BitVec 64 × Nat :=
  match filterMode p.filter with
  | 0 => (0, 0)
  | 1 => (p.filter, 0)
  | _ => (p.filter, p.q + 1)

/-- Take pairs in launch order into at most four classes and 2,048 lanes: the taken ones with their class, and the
classes. -/
def takePairs : List Pair → List (Pair × Nat) → List (BitVec 64 × Nat) → List (Pair × Nat) × List (BitVec 64 × Nat)
  | [], got, cs => (got, cs)
  | p :: ps, got, cs =>
    if 2048 ≤ got.length then (got, cs)
    else if cs.contains (classOf p) then takePairs ps (got ++ [(p, cs.idxOf (classOf p))]) cs
    else if cs.length < 4 then takePairs ps (got ++ [(p, cs.length)]) (cs ++ [classOf p])
    else takePairs ps got cs

/-- Counter of launches under a trigger. -/
def Trig.counter : Trig → RegName
  | .fill => .BD_GQ_LAUNCH_FILL
  | .deadline => .BD_GQ_LAUNCH_DEADLINE
  | .window => .BD_GQ_LAUNCH_WINDOW
  | .pressure => .BD_GQ_LAUNCH_PRESSURE

/-- A task enters a walker context in LOADING (R59, R65). -/
def State.loadTask (t : Task) (band : Nat) (s : State) : State :=
  let t := { t with band := band, st := .loading, bound := 0, order := s.qry.nextTask, decode := [] }
  let rest := s.qry.tasks.filter (·.id != t.id)
  let s := { s with qry := { s.qry with tasks := rest ++ [t], nextTask := s.qry.nextTask + 1 } }
  let s := (s.bump .BD_TASKS band 0 1).bump .BD_REMOTE_TASKS band 0 (if dieOf band = t.die then 0 else 1)
  s.noteBand band

/-- Count the pairs that a launch takes (R72, R312). -/
def State.countPair (die : Nat) (p : Pair) (s : State) : State :=
  match s.query p.q with
  | none => s
  | some x =>
    let s := (s.bump .BD_GQ_PAIRS_LAUNCHED die x.pn 1).bump .BD_GQ_WAIT_NS die x.pn (s.now - p.tPost)
    (s.bump .BD_GQ_LATE die x.pn (if p.lb < s.now then 1 else 0)).setQuery p.q { x with lastLaunch := some s.now }

/-- Bytes that a band's walker has read from DRAM for a partition (R72, R312). -/
def State.countScanRead (band pn n : Nat) (s : State) : State :=
  (s.bump .BD_BYTES_READ band 0 n).bump .TN_ACC_DRAM_BYTES (s.partTenant pn) 0 n

/-- Launch new pairs of a triggered queue on a band; the list directory entry is read. -/
def State.launchPairs (g : GQueue) (tr : Trig) (band : Nat) (dirErr : Option (Nat × Nat)) (s : State) : State :=
  let r := takePairs (sortBy pairBefore g.pairs) [] []
  let taken := r.1.map (·.1)
  let key := g.key
  let s := (s.bump tr.counter g.die key.pn 1).bump .BD_GQ_NOCTX_NS g.die key.pn (s.now - g.trigTime)
  let s := forEach taken (State.countPair g.die) s
  let s := (s.setGq { g with pairs := g.pairs.filter fun p => !taken.contains p, trig := none }).checkQueue g.die key
  let s := (s.checkPressure g.die key.pn).resumeShadows key.pn
  match dirErr with
  | some (stack, addr) =>
    let s := s.dramUncorrAt 2 band stack addr 2 id
    forEach taken (fun p t => (t.pairGone p.q p.rank).settleScan p.q 4097) s
  | none =>
    let b := s.codeBits key.index
    let lane := fun (e : Pair × Nat) => ({ q := e.1.q, rank := e.1.rank, cls := e.2, tau := b } : Lane)
    let t : Task := { id := s.qry.nextTask, band := band, die := g.die, key := key, classes := r.2,
                      blockCount := ((s.version (keyVer key)).list key.cluster).blocks.length, lanes := r.1.map lane }
    ((s.loadTask t band).countScanRead band key.pn 16).holdList (keyVer key) key.cluster

/-- QUEUE_LAUNCH (R65, R227): a resumable task first, then the waiting pairs of a triggered queue whose list is resident. -/
def execQueueLaunch (die : Nat) (k : GKey) (dirErr : Option (Nat × Nat)) (s : State) : Out :=
  let g := s.gq die k
  match s.launchBand k.pn die with
  | none => .next s
  | some band =>
    match g.resumable with
    | id :: rest =>
      match s.task? id with
      | some t =>
        let s := s.setGq { g with resumable := rest }
        .next ((s.loadTask t band).bump .BD_GQ_RESUMED die k.pn 1)
      | none => .next (s.setGq { g with resumable := rest })
    | [] =>
      match g.trig with
      | some tr =>
        if g.pairs ≠ [] ∧ ((s.version (keyVer k)).list k.cluster).isResident then .next (s.launchPairs g tr band dirErr)
        else .next s
      | none => .next s

/-! ### Tiles (R408) -/

/-- A task whose blocks are done releases its tiles and asks for its final reductions (R83). -/
def State.drainTask (t : Task) (s : State) : State :=
  let ix := (List.range t.lanes.length).filter fun i => (t.lanes[i]?).any fun l => l.active && !l.queued
  let lanes := t.lanes.map fun l => if l.active && !l.queued then { l with queued := true, queuedAt := s.now } else l
  let s := s.setTask { t with st := .draining, bound := 0, lanes := lanes }
  let s := { s with qry := { s.qry with redQ := s.qry.redQ.upd [] t.band (· ++ ix.map fun i => (t.id, i)) } }
  s.noteBand t.band

/-- Tiles that a task needs. -/
def Task.need (t : Task) : Nat := (t.lanes.length + 127) / 128

/-- Bind waiting tasks in launch order while the tiles suffice (R408). -/
def State.bindAll (b : Nat) : List Task → State → State
  | [], s => s
  | t :: ts, s =>
    if s.tilesBound b + t.need ≤ 16 then
      let t := { t with st := .running, bound := t.need }
      let s := (s.setTask t).noteBand b
      State.bindAll b ts (if t.blockCount ≤ t.nextSeq then s.drainTask t else s)
    else s

/-- TILE_BIND (R408). -/
def execTileBind (band : Nat) (s : State) : Out :=
  let wait := sortBy (fun (a b : Task) => decide (a.order < b.order)) ((s.onBand band).filter (·.st == .loading))
  .next (s.bindAll band wait)

/-! ### Filters on a block (R59, R95, R103) -/

/-- The expression of a filter over operand values. -/
def filterExpr (f : BitVec 64) (val : Nat → Bool) : Bool :=
  let o := fun (i : Nat) => val (bits f.toNat (31 + 8 * i) (24 + 8 * i))
  let join := fun (b : Nat) (x y : Bool) => if f.toNat.testBit b then x || y else x && y
  join 61 (join 59 (o 0) (o 1)) (join 60 (o 2) (o 3))

/-- Source of an operand: TRUE, FALSE, or a bit of a set of standing bitmaps. -/
def operandBit (std : BitVec 16) (o : Nat) : Bool :=
  let sel := bits o 4 0
  if sel = 0x1E then true else if sel = 0x1F then false else std.toNat.testBit sel

/-- Step 2 of R59: some slot of the block may be allowed (R103). -/
def summaryPass (f : BitVec 64) (summary : BitVec 16) : Bool :=
  filterMode f % 2 == 0 || filterExpr f fun o => bits o 7 7 == 1 || operandBit summary o

/-- The filter result of a slot (R95). -/
def filterPass (f : BitVec 64) (qbm : List (Nat × Nat)) (std : BitVec 16) (ord : Nat) : Bool :=
  let expr := filterMode f % 2 == 0 || filterExpr f fun o => (bits o 7 7 == 1) != operandBit std o
  let own := filterMode f < 2 || qbm.any fun r => decide (r.1 ≤ ord) && decide (ord < r.2)
  expr && own

/-- Standing bitmaps that an expression reads. -/
def bitmapsOf (f : BitVec 64) : List Nat :=
  if filterMode f % 2 = 0 then []
  else (((List.range 4).map fun i => bits f.toNat (28 + 8 * i) (24 + 8 * i)).filter (· < 16)).eraseDups

/-- Slots of a block that a class allows (R59 step 3). -/
def State.allowedSlots (s : State) (x : Version) (b : Block) (c : BitVec 64 × Nat) : List Nat :=
  let qbm := ((s.query (c.2 - 1)).map (·.qbm)).getD []
  (List.range b.fill).filter fun j =>
    let ord := b.ordBase + j
    !x.tomb.contains ord && filterPass c.1 qbm (x.std.getD 0 ord) ord

/-! ### Blocks (R52 to R62) -/

/-- Distance of a slot over its first `n` bits. -/
def partialDist (n : Nat) (q c : Code) : Nat := popcount n ((q ^^^ c).toNat % 2 ^ n)

/-- The code of a lane's query. -/
def State.laneCode (s : State) (l : Lane) : Code := ((s.query l.q).map (·.code)).getD 0
def State.laneKs (s : State) (l : Lane) : Nat := ((s.query l.q).map (·.ks)).getD 1

/-- What scanning one block is done with. -/
structure Pass where
  bits : Nat
  abort : Bool
  skip : Bool
  /-- allowed slots by class -/
  allow : List (List Nat)
  /-- distance of lane `i` and slot `j` over the first planes, as a table of lanes -/
  lanes : List (Lane × Code)
  block : Block

def Pass.planes (p : Pass) : Nat := max 1 (p.bits / 256)
def Pass.words (p : Pass) : Nat := if p.bits = 128 then 128 else 256

def Pass.may (p : Pass) (l : Lane) (j : Nat) : Bool := l.active && (p.allow.getD l.cls []).contains j

/-- A lane does not reject slot `j` after `n` planes (R55). -/
def Pass.keeps (p : Pass) (n : Nat) (e : Lane × Code) (j : Nat) : Bool :=
  p.may e.1 j && (!p.abort || decide (partialDist (min p.bits (256 * n)) e.2 (p.block.codes.getD 0 j) ≤ e.1.tau))

/-- Some lane does not reject slot `j` after `n` planes; after none, some class allows it. -/
def Pass.alive (p : Pass) (n j : Nat) : Bool :=
  if n = 0 then p.allow.any (·.contains j) else p.lanes.any fun e => p.keeps n e j

/-- Segments of a plane, and the slots of one. -/
def Pass.segs (p : Pass) : Nat := p.words / 64
def Pass.inSeg (p : Pass) (k j : Nat) : Bool := (if p.bits = 128 then j / 2 else j) / 64 == k

/-- Segment `k` of plane `n` is fetched (R57, R59 steps 5 and 6). One whose slots the filter has all left out at plane 0 is not
fetched at a later plane either, whatever SEG_SKIP_EN (DESIGN CHOICE, log entry 72). -/
def Pass.fetches (p : Pass) (n k : Nat) : Bool :=
  let any := fun (m : Nat) => (List.range p.block.fill).any fun j => p.inSeg k j && p.alive m j
  any 0 && (n == 0 || !p.skip || any n)

/-- Planes clocked. -/
def Pass.clocked (p : Pass) : List Nat := (List.range p.planes).filter fun n => (List.range p.segs).any (p.fetches n)

/-- A candidate of a lane (R33, R56). A shadow's probe ranks may pass the 4,095 of R73 and R76 (log entry 70). -/
def candidate (x : Version) (bits : Nat) (b : Block) (e : Lane × Code) (j : Nat) : Elem :=
  let pos := 256 * b.seq + j
  { score := BitVec.ofNat 32 (bits - hamming bits e.2 (b.codes.getD 0 j)), canon := x.canonOf (b.ordBase + j),
    order := e.1.rank * 2 ^ 24 + pos, rank := e.1.rank }

/-- Slots that a lane emits (R56). -/
def Pass.emits (p : Pass) (e : Lane × Code) : List Nat :=
  (List.range p.block.fill).filter fun j =>
    p.may e.1 j && decide (hamming p.bits e.2 (p.block.codes.getD 0 j) ≤ e.1.tau)

/-- Cycles on which a band at level `l` is disabled while it runs `n` enabled cycles from a window boundary on: 8 − l in each
window of 8 but the last (R383). -/
def disabledCycles (l n : Nat) : Nat := (n - 1) / l * (8 - l)

/-- A block has taken `n` more enabled cycles of its task: the cycles on which the band was disabled are counted, as if the
blocks of a band's tasks ran one after another (R383, R394, log entry 90). -/
def State.countDisabled (t : Task) (n : Nat) (s : State) : State :=
  let l := s.fld fBD_THR_LEVEL t.band 0
  s.bump .BD_THR_CYC t.band 0 (disabledCycles l (t.ran + n) - disabledCycles l t.ran)

/-- Count the work of a block that is fetched (R72, R312). -/
def State.countPass (t : Task) (p : Pass) (aliases : Bool) (idReads : Nat) (s : State) : State :=
  let g := t.band
  let all := List.range p.block.fill
  let fetched := (List.range p.planes).foldl (fun n k => n + ((List.range p.segs).filter (p.fetches k)).length) 0
  let later := (List.range (p.planes - 1)).map (· + 1)
  let segSkip := later.foldl (fun n k => n + ((List.range p.segs).filter fun m => !p.fetches k m).length) 0
  let cyc := p.words * p.clocked.length
  let done := p.clocked.foldl (fun n k => n + (all.filter (p.alive (k + 1))).length) 0
  let gone := if p.planes = 1 then 0 else (all.filter fun j => !p.alive (p.planes - 1) j).length
  let tn := s.partTenant t.key.pn
  let s := s.countScanRead g t.key.pn ((if aliases then 32 else 0) + 2048 * fetched + 8 * idReads)
  let s := s.bump .BD_SEG_SKIP g 0 segSkip
  let s := (s.bump .BD_PLANES_SKIP g 0 (p.planes - p.clocked.length)).bump .BD_SLOTS_DONE g 0 done
  let s := (s.bump .BD_SLOTS_ABANDONED g 0 gone).bump .BD_CAND_EMIT g 0
    (p.lanes.foldl (fun n e => n + (p.emits e).length) 0)
  let s := (s.bump .BD_TILE_CYC g 0 (t.bound * cyc)).bump .TN_ACC_TILE_CYC tn 0 (t.bound * cyc)
  s.bump .BD_LANE_CYC g 0 ((t.lanes.filter (·.active)).length * cyc)

/-- Lanes whose rows have grown past K_S are queued for reduction, each once (R83). -/
def State.queueReductions (id : Nat) (s : State) : State :=
  match s.task? id with
  | none => s
  | some t =>
    let due := fun (l : Lane) => l.active && !l.queued && decide (s.laneKs l < l.row.length)
    let ix := (List.range t.lanes.length).filter fun i => (t.lanes[i]?).any due
    let s := { s with qry := { s.qry with redQ := s.qry.redQ.upd [] t.band (· ++ ix.map fun i => (id, i)) } }
    s.setTask { t with lanes := t.lanes.map fun l => if due l then { l with queued := true, queuedAt := s.now } else l }

/-- Step 3 of R59: the tombstone word, the bitmap words that the classes need, and each class's part of its container, whose
decode position the task keeps (R100). -/
def State.readWords (t : Task) (b : Block) (s : State) : Task × State :=
  let maps := (t.classes.flatMap fun c => bitmapsOf c.1).eraseDups.length
  let s := s.countScanRead t.band t.key.pn (32 + 32 * maps)
  (List.range t.classes.length).foldl (fun (acc : Task × State) i =>
    let c := t.classes.getD i (0, 0)
    match s.query (c.2 - 1) with
    | some x =>
      if 2 ≤ filterMode c.1 then
        let r := qbmRead (qbmElems x.qbmWords.length x.qbmWords 0 0) (acc.1.decode.get? i) (b.ordBase / 64)
        ({ acc.1 with decode := acc.1.decode.put i r.2 },
          (acc.2.bump .BD_FLT_QBM_BYTES t.band 0 r.1).countScanRead t.band t.key.pn r.1)
      else acc
    | none => acc) (t, s)

/-- Scan a block that is not skipped: the lanes' allowed counts and candidates (R56, R61, R105). -/
def State.scanBlock (t : Task) (x : Version) (b : Block) (idBad : List Nat) (s : State) : State :=
  let bits := s.codeBits t.key.index
  let lanes := t.lanes.map fun l => (l, s.laneCode l)
  let p : Pass := { bits := bits, abort := s.isOn fBD_CTL_ABORT_EN t.band 0, skip := s.isOn fBD_CTL_SEG_SKIP_EN t.band 0,
                    allow := t.classes.map (s.allowedSlots x b), lanes := lanes, block := b }
  let isAl := fun (j : Nat) => x.aliasOrds.contains (b.ordBase + j)
  let lost := fun (j : Nat) => isAl j && idBad.contains j
  let scan := fun (e : Lane × Code) =>
    let got := (p.emits e).filter fun j => !lost j
    { e.1 with row := e.1.row ++ got.map (candidate x bits b e),
               allowed := e.1.allowed + (if e.1.active then (p.allow.getD e.1.cls []).length else 0) }
  let idReads := lanes.foldl (fun n e => n + ((p.emits e).filter isAl).length) 0
  let none_ := p.allow.all (· == [])
  let cyc := if none_ then 0 else p.words * p.clocked.length
  let s := if none_ then s.bump .BD_SKIP_WORD t.band 0 1 else (s.countPass t p b.hasAlias idReads).countDisabled t cyc
  let s := forEach lanes (fun e u =>
    let n := ((p.emits e).filter lost).length
    if n = 0 then u else u.modQuery e.1.q fun y => y.skip n) s
  let bad := (idBad.filter fun j => lanes.any fun e => (p.emits e).contains j && isAl j)
  let s := forEach bad (fun _ u => u.dramUncorrFree 2 t.band 7 id) s
  (s.setTask { t with lanes := lanes.map scan, ran := t.ran + cyc }).queueReductions t.id

/-- A block is skipped for every lane of a task after an error (R62). -/
def State.skipBlock (t : Task) (n : Nat) (s : State) : State :=
  forEach (t.lanes.filter (·.active)) (fun l u => u.modQuery l.q fun y => y.skip n) (s.bump .BD_SKIP_ERROR t.band 0 1)

/-- A lane row has room for what a block may emit (R83). -/
def State.rowsRoom (s : State) (t : Task) : Bool :=
  t.lanes.all fun l => !l.active || decide (l.row.length + 256 ≤ max (2 * s.laneKs l) (s.laneKs l + 1024))

/-- The walker goes on to the next block, or the task drains (walker context states). -/
def State.advance (id : Nat) (s : State) : State :=
  match s.task? id with
  | none => s
  | some t =>
    let t := { t with nextSeq := t.nextSeq + 1 }
    if t.blockCount ≤ t.nextSeq then s.drainTask t else s.setTask t

/-- BLOCK_SCAN (R59 to R62). -/
def execBlockScan (task : Nat) (err : ScanErr) (s : State) : Out :=
  match s.task? task with
  | none => .next s
  | some t =>
    let x := s.version (keyVer t.key)
    let l := x.list t.key.cluster
    match l.blocks.find? (·.seq == t.nextSeq) with
    | none => .next s
    | some b =>
      if t.st ≠ .running ∨ s.bandLeaving t.band ∨ s.bandReset t.band ∨ !s.rowsRoom t then .next s
      else
        let s := (s.bump .BD_BLOCKS t.band 0 1).countScanRead t.band t.key.pn 32
        let n := if err.hdrBad then 256 else x.liveIn b
        match err.dram with
        | some (stack, addr) =>
          .next (((s.dramUncorrAt 2 t.band stack addr 1 id).skipBlock t n).advance task)
        | none =>
          if err.hdrBad then
            .next (((s.log (mkErr 0x0102 2 t.band t.die (l.hdrAddr + 32 * b.seq) 0 0)).skipBlock t n).advance task)
          else if s.isOn fBD_CTL_SUMMARY_SKIP_EN t.band 0 && t.classes.all fun c => !summaryPass c.1 b.stdSummary then
            .next ((s.bump .BD_SKIP_SUMMARY t.band 0 1).advance task)
          else
            let u := s.readWords t b
            .next ((u.2.scanBlock u.1 x b err.idMap).advance task)

/-! ### Reductions (R54, R83) -/

/-- τ after a reduction to K_S (R54). -/
def newTau (bits ks tau : Nat) (kept : List Elem) : Nat :=
  if kept.length = ks then min tau (bits - ((kept.getLast?.map (·.score.toNat)).getD 0)) else tau

/-- Reduce one lane's row to K_S. -/
def State.reduceLane (t : Task) (i : Nat) (s : State) : State :=
  match t.lanes[i]? with
  | none => s
  | some l =>
    let ks := s.laneKs l
    let sel := select .hamming (·.canon) ks l.row
    let bits := s.codeBits t.key.index
    let l' := { l with row := sel.kept, tau := newTau bits ks l.tau sel.kept, queued := false }
    let s := (s.bump .BD_REDUCE t.band 0 1).bump .SE_REDUCE_ELEMS t.band 0 l.row.length
    let s := (s.bump .SE_DUP_DROPPED t.band 0 sel.dropped).bump .SE_REFILL_PASSES t.band 0 sel.work.refills
    let s := s.bump .SE_REDUCE_QWAIT_CYC t.band 0 (if l.queued then (s.now - l.queuedAt) * 4 / 5 else 0)
    s.setTask { t with lanes := t.lanes.set i l' }

/-- LANE_REDUCTION (R83). -/
def execLaneReduction (band : Nat) (s : State) : Out :=
  match s.qry.redQ.getD [] band with
  | [] => .next s
  | (id, i) :: rest =>
    let s := { s with qry := { s.qry with redQ := s.qry.redQ.put band rest } }
    match s.task? id with
    | some t => .next (s.reduceLane t i)
    | none => .next s

/-- TASK_COMPLETE (R83, R84, R105): partial lists go to the die merge unit, then each lane's pair reports. -/
def execTaskComplete (task : Nat) (s : State) : Out :=
  match s.task? task with
  | none => .next s
  | some t =>
    if t.st ≠ .draining ∨ (s.qry.redQ.getD [] t.band).any (·.1 == task) then .next s
    else
      let live := t.lanes.filter (·.active)
      let die := dieOf t.band
      let ps := live.map fun l => ({ die := die, band := t.band, q := l.q, rank := l.rank, elems := l.row } : Partial)
      let s := (s.dropTask task).dropHold (keyVer t.key) t.key.cluster
      let s := { s with qry := { s.qry with partials := s.qry.partials.upd [] die (· ++ ps) } }
      let s := s.bump .BD_FLT_ALLOWED t.band 0 (live.foldl (fun n l => n + l.allowed) 0)
      .next ((forEach live (fun l u => u.report l.q l.rank l.allowed) s).noteBand t.band)

/-! ### Checkpoints (R68) -/

/-- A task begins anew at SEQ 0: empty rows, τ = B (R54, R68). -/
def State.rewound (s : State) (t : Task) : Task :=
  let lane := fun (l : Lane) => { l with tau := s.codeBits t.key.index, row := [], allowed := 0, queued := false }
  { t with nextSeq := 0, lanes := t.lanes.map lane }

/-- Put a task back into its gathering queue as resumable, on no band. -/
def State.giveBack (t : Task) (s : State) : State :=
  let s := s.setTask { t with band := noBand, bound := 0, st := .checkpointed }
  let g := s.gq t.die t.key
  (s.setGq { g with resumable := g.resumable ++ [t.id] }).noteBand t.band

/-- TASK_CHECKPOINT (R68): the rows of a running task's active lanes are reduced; one in LOADING goes back to its queue, to
restart from SEQ 0. -/
def execTaskCheckpoint (task : Nat) (s : State) : Out :=
  match s.task? task with
  | none => .next s
  | some t =>
    if !s.bandLeaving t.band then .next s
    else match t.st with
      | .loading => .next (s.giveBack (s.rewound t))
      | .running =>
        let live := (List.range t.lanes.length).filter fun i => (t.lanes[i]?).any (·.active)
        let s := forEach live (fun i u => match u.task? task with
          | some y => u.reduceLane y i
          | none => u) s
        let s := { s with qry := { s.qry with redQ := s.qry.redQ.upd [] t.band (·.filter (·.1 != task)) } }
        let y := (s.task? task).getD t
        let s := (s.setTask { y with st := .checkpointed, bound := 0 }).noteBand t.band
        let n := (t.lanes.filter (·.active)).length
        .next ((s.bump .BD_CHECKPOINTS t.band 0 1).bump .TN_ACC_PREEMPT (s.partTenant t.key.pn) 0 n)
      | _ => .next s

/-- CHECKPOINT_DURABLE (R68). -/
def execCheckpointDurable (task : Nat) (s : State) : Out :=
  match s.task? task with
  | some t => if t.st = .checkpointed ∧ t.band ≠ noBand then .next (s.giveBack t) else .next s
  | none => .next s

/-! ### Merges (R76, R81, R84) -/

/-- DIE_MERGE_PARTIAL (R81, R84): the unreduced part of the row is reduced as a piece when it reaches 2^20 elements. A
shadow's probe ranks may pass the 4,095 of R76; the model's ORDER_KEY then takes them as they are (log entry 70). -/
def execDieMergePartial (die : Nat) (s : State) : Out :=
  if s.dieReset die then .next s else
  match s.qry.partials.getD [] die with
  | [] => .next s
  | p :: rest =>
    let s := { s with qry := { s.qry with partials := s.qry.partials.put die rest } }
    match s.query p.q with
    | none => .next s
    | some x =>
      let opened := (x.dieRows.get? die).isSome
      let row := x.dieRows.getD [] die ++ reorder (p.band * 2 ^ 28 + p.rank * 2 ^ 16) p.elems
      let s := (s.bump .SE_MG_ROWS die 0 (if opened then 0 else 1)).progressed 2 die p.elems.length
      let old := x.dieReduced.getD 0 die
      let new := row.drop old
      let s := if new.length < pieceMax then s.setQuery p.q { x with dieRows := x.dieRows.put die row }
        else
          let sel := select .hamming (·.canon) x.rr (new.take pieceMax)
          let done := row.take old ++ sel.kept
          ((s.bump .SE_MG_PIECES die 0 1).noteSelect die sel).setQuery p.q
            { x with dieRows := x.dieRows.put die (done ++ new.drop pieceMax), dieReduced := x.dieReduced.put die done.length }
      .next (s.noteMerge die)

/-- DIE_MERGE_FLUSH (R84). -/
def execDieMergeFlush (die q : Nat) (s : State) : Out :=
  if s.dieReset die then .next s else
  match s.query q with
  | none => .next s
  | some x =>
    if x.flushing.contains die && !(s.qry.partials.getD [] die).any (·.q == q) then
      let sel := select .hamming (·.canon) x.rr (x.dieRows.getD [] die)
      let left := x.flushing.filter (· != die)
      let s := (s.bump .SE_MG_FLUSHES die 0 1).noteSelect die sel
      .next ((s.setQuery q { x with dieRows := x.dieRows.del die, dieReduced := x.dieReduced.del die, dieLists := x.dieLists.put die sel.kept,
                                    flushing := left, stage := if left = [] then .homeReady else .flush }).noteMerge die)
    else .next s

/-- HOME_MERGE (R84): with a re-rank stage its output is the re-rank row; without one, it is the final selection. -/
def execHomeMerge (q : Nat) (sidecarErr idErr : List Nat) (s : State) : Out :=
  match s.query q with
  | none => .next s
  | some x =>
    if x.stage ≠ .homeReady then .next s
    else if x.homeList ≠ [] then .next (s.afterMerge q sidecarErr idErr)
    else
      let row := x.dieLists.flatMap fun e => reorder (e.1 * 2 ^ 16) e.2
      if x.flashStage || x.fp16Stage then
        let sel := select .hamming (·.canon) x.rr row
        .next (((s.noteSelect x.home sel).setQuery q { x with homeList := reorder 0 sel.kept }).afterMerge q sidecarErr idErr)
      else .next ((s.setQuery q { x with homeList := row }).afterMerge q sidecarErr idErr)

end Sys2Proof.Machine
end

