-- ==== Sys2Proof/Machine/Score.lean ====
section
/-! DEFINITION. Near-data scoring and the re-rank stages: the query cache and scorer contexts of a cuff die (R176 to R182,
R211), score records, degraded reads and rebuilt sectors on the crown (R180, R188, R122), the deadlines (R231, R232), and
the FP16 stage's requests (R148, R149, R123). -/

namespace Sys2Proof.Machine

/-! ### Contexts of a cuff die -/

def Chan.ctx? (c : Chan) (i : Nat) : Option ScCtx := c.ctxs.get? i

/-- Age bin and temperature bin of a superblock (R211). -/
def ageBin (days : Nat) : Nat := ([1, 7, 30, 90, 180, 365, 730].filter fun d => decide (d ≤ days)).length
def tempBin (t : Int) : Nat := ([25, 45, 65].filter fun (x : Int) => decide (x ≤ t)).length

/-- Read level at which the ladder of a superblock starts (R211). -/
def State.startLevel (s : State) (n sb : Nat) : Nat :=
  let b := (s.chan n).sbs.getD {} sb
  if b.hint ≠ 0 then b.hint
  else
    let bin := 4 * ageBin ((s.flashTime n - b.openTime) / 86400) + tempBin b.openTemp
    s.objNat 0x6011 bin (Config.readStart bin).toNat

/-- Levels that a ladder tries after `l`, of a carrier with `n` read-retry levels. -/
def ladder (n l : Nat) : List Nat :=
  ((List.range 15).flatMap fun d =>
    (if l + d + 1 ≤ 15 then [l + d + 1] else []) ++ (if d + 1 ≤ l then [l - (d + 1)] else [])).filter fun x => decide (x < n)

/-- Score one request from its sector's bytes: score and RSTATUS (R117, R121, R180). -/
def State.scoreReq (s : State) (n : Nat) (d : List Byte) (r : CandReq) : BitVec 32 × Nat :=
  let k := verKey r.index r.vslot
  let f := s.cfFmt n k
  match (s.chan n).qcache.get? (6400 * r.die + r.qslot) with
  | none => (0, 3)
  | some e =>
    if e.index ≠ r.index ∨ e.vslot ≠ r.vslot ∨ e.dims ≠ f.d then (0, 3)
    else
      let i := f.recordAt r.offset
      if r.offset < 48 ∨ f.perSector ≤ i ∨ f.codeOff i ≠ r.offset ∨ !(fieldAt d 8 16).testBit i then (0, 2)
      else (rrScore f (s.cfZp n k) (f.getRecord d i) e.u e.x, 0)

/-- Answer a request; a copy sent as shadow traffic is only kept for comparison, whatever its status (R180, R192). The
records of different channels reach their home die in the order in which they are answered: R20 gives no order between
source engines, and this one queue for each home die is the model's choice (log entry 78). -/
def State.answer (n : Nat) (r : CandReq) (score : BitVec 32) (st : Nat) (s : State) : State :=
  let c := s.chan n
  if r.shadow then
    (s.setChan n { c with shadowGot := c.shadowGot.put r.tag (scoreWord score st r.tag) }).freeGranules r.q n
  else
    let s := match st with
      | 1 => s.bump .CF_UNREADABLE n 0 1
      | 2 => s.bump .CF_ABSENT n 0 1
      | 3 => s.bump .CF_NO_QUERY n 0 1
      | 4 => s.bump .CF_CHANNEL_DOWN n 0 1
      | _ => s
    { s with fl := { s.fl with scores := s.fl.scores.upd [] r.die (· ++ [r.record n score st]) } }

/-- A sector's header agrees with the die's copy of the format, for the owner that a request names (R117). -/
def State.agrees (s : State) (n : Nat) (d : List Byte) (r : CandReq) : Bool :=
  d.take 8 == (s.cfFmt n (verKey r.index r.vslot)).headBytes r.index r.vslot

/-- A sector's header disagrees: counted and logged once for the sector (R117, R133). -/
def State.mismatch (n lsn : Nat) (s : State) : State :=
  (s.bump .CF_HDR_MISMATCH n 0 1).log (mkErr 0x0200 3 n n lsn 0 0)

/-- Score and answer one request from held data; one whose header disagrees is UNREADABLE. -/
def State.serve (n : Nat) (d : List Byte) (r : CandReq) (s : State) : State :=
  let f := s.cfFmt n (verKey r.index r.vslot)
  if s.agrees n d r then
    let x := s.scoreReq n d r
    let nan := f.kind == .float && isNan32 x.1
    let s := if x.2 = 0 then ((s.bump .CF_SCORED n 0 1).bump .CF_SCORE_NAN n 0 (if nan then 1 else 0)).bump
      .TN_ACC_RR_RECORDS r.tenant 0 1 else s
    s.answer n r x.1 x.2
  else s.answer n r 0 1

/-- A context whose sector cannot be given answers every joined request UNREADABLE and frees (R181). -/
def State.ctxUnreadable (n i : Nat) (x : ScCtx) (s : State) : State :=
  let c := s.chan n
  let s := ((s.setChan n { c with ctxs := c.ctxs.del i }).progressed 6 n 1).log (mkErr 0x0200 3 n n x.lsn 0 0)
  forEach x.joined (fun r t => t.answer n r 0 1) s

/-- Open context `i` for the requests of one sector (R181): lost and never-written sectors need no read. -/
def State.openCtx (n i : Nat) (rs : List CandReq) (s : State) : State :=
  match rs with
  | [] => s
  | r :: _ =>
    let s := s.translate n r.lsn
    let c := s.chan n
    match c.look r.lsn with
    | .never => forEach rs (fun r t => t.answer n r 0 2) s
    | .lost => s.ctxUnreadable n i { lsn := r.lsn, joined := rs }
    | .data d _ =>
      let loc := c.locOf r.lsn
      let lvl := loc.elim 0 fun l => s.startLevel n (l / 4096)
      let x : ScCtx := { lsn := r.lsn, joined := rs, opened := s.now, loc := loc, data := d, level := lvl, level0 := lvl }
      (s.setChan n { c with ctxs := c.ctxs.put i x }).queueOp n (c.planeOf r.lsn) { cls := 1, kind := 0, num := i }

/-- A free context of a cuff die, of its 256. -/
def Chan.freeCtx (c : Chan) : Option Nat := firstFit (fun i => (c.ctxs.get? i).isNone) 256

/-- Waiting requests take free contexts in arrival order; those of the same sector join (R181). -/
def State.drainReqQ (n : Nat) : Nat → State → State
  | 0, s => s
  | k + 1, s =>
    let c := s.chan n
    match c.reqQ, c.freeCtx with
    | r :: _, some i =>
      let mine := (c.reqQ.filter (·.lsn == r.lsn)).take 128
      let s := s.setChan n { c with reqQ := c.reqQ.filter fun x => !mine.contains x }
      let s := (s.bump .CF_JOINED n 0 (mine.length - 1)).openCtx n i mine
      State.drainReqQ n k (forEach (mine.drop 1) (fun x t => t.bump .TN_ACC_JOINED x.tenant 0 1) s)
    | _, _ => s

/-- Place an accepted request: join, open, or wait (R181). -/
def State.placeReq (n : Nat) (r : CandReq) (s : State) : State :=
  let c := s.chan n
  if s.dataSectors n ≤ r.lsn then s.answer n r 0 2
  else match c.ctxs.find? fun e => e.2.lsn == r.lsn && decide (e.2.joined.length < 128) with
    | some (i, x) =>
      let s := (s.bump .CF_JOINED n 0 1).bump .TN_ACC_JOINED r.tenant 0 1
      if x.st = .linger then
        let s := s.bump .CF_LINGER_HITS n 0 1
        (if s.agrees n x.data r then s else s.mismatch n r.lsn).serve n x.data r
      else s.setChan n { s.chan n with ctxs := c.ctxs.put i { x with joined := x.joined ++ [r] } }
    | none => match c.freeCtx with
      | some i => s.openCtx n i [r]
      | none => s.setChan n { c with reqQ := c.reqQ ++ [r] }

/-- The first message that a channel has from a die. -/
def State.popInbox (n die : Nat) (s : State) : State :=
  let c := s.chan n
  s.setChan n { c with inbox := c.inbox.upd [] die (·.drop 1) }

/-! ### Commands of a cuff die -/

/-- QUERY_VECTOR_LOAD (R178). -/
def execQueryVectorLoad (ch die : Nat) (s : State) : Out :=
  match ((s.chan ch).inbox.getD [] die).head? with
  | some (.load q qslot b) =>
    let s := s.popInbox ch die
    let c := s.chan ch
    let e : QvEntry := { q := q, dims := fieldAt b 2 2, index := fieldAt b 4 1, vslot := fieldAt b 5 1,
                         u := BitVec.ofNat 16 (fieldAt b 0 2), x := b.drop 64, granules := granulesOf b.length }
    .next ((s.setChan ch { c with qcache := c.qcache.put (6400 * die + qslot) e }).bump .CF_QV_LOADS ch 0 1)
  | _ => .next s

/-- CANDIDATE_REQUEST (R180, R181): a full request queue holds the message. -/
def execCandidateRequest (ch die : Nat) (s : State) : Out :=
  let c := s.chan ch
  match (c.inbox.getD [] die).head? with
  | some (.req r) =>
    if 4096 ≤ c.reqQ.length then .next s
    else
      let s := (s.popInbox ch die).bump .CF_REQ ch 0 1
      let up := s.chServes ch || (r.shadow && s.chState ch == 5)
      .next ((if up then s.placeReq ch r else s.answer ch r 0 4).noteChan ch)
  | _ => .next s

/-- The read of a scorer context is issued. -/
def State.issueRead (n i : Nat) (s : State) : State :=
  let c := s.chan n
  match c.ctx? i with
  | none => s
  | some x =>
    let s := s.setChan n { c with ctxs := c.ctxs.put i { x with st := .reading } }
    let first := x.retries == 0 && !x.soft
    let t := (x.joined.head?.map (·.tenant)).getD 0
    let s := if first then (s.bump .CF_READS n 0 1).bump .TN_ACC_FLASH_READS t 0 1 else s
    match x.loc with
    | some l => s.readSb n l (if x.soft then 3 else 1)
    | none => s

/-- The oldest of the operations that rank lowest. -/
def firstBy (rank : PlaneOp → Nat) (ops : List PlaneOp) : Option PlaneOp :=
  ops.foldl (fun o p => match o with
    | none => some p
    | some b => if rank p < rank b then some p else some b) none

/-- Order of service on a plane (R182): by class; folds come before collection while the journal ring is more than 3/4 full
(R198). -/
def Chan.rank (c : Chan) (p : PlaneOp) : Nat := 2 * p.cls + (if p.kind = 2 ∧ 96 < c.fill128 then 1 else 0)

/-- Percent of a plane's time that operations of class 3 may take while reads of class 1 wait (R207). -/
def State.bgShare (s : State) (n plane : Nat) : Nat :=
  if ((s.chan n).freeSbs (plane / 4)).length ≤ s.fld fCF_TL_CFG_GC_URGENT n 0 then 50 else s.fld fCF_TL_CFG_GC_SHARE n 0

/-- The flash shaper holds the operation: the sector read of a schedule promotion whose tenant's bucket is short (R293, R301). -/
def State.shaperHolds (s : State) (n : Nat) (op : PlaneOp) : Bool :=
  decide (op.kind = 3 ∧ op.cls = 4) && (s.shape? (2 + n) op.tenant 4096).isNone

/-- The queued operation that a plane serves next, of those no shaper holds: the first by rank; while reads of class 1 wait,
an operation of class 3 comes before them as long as its class has had less than its share (R182, R207, log entry 79). -/
def State.nextOp (s : State) (n plane : Nat) : Option PlaneOp :=
  let c := s.chan n
  let ops := (c.planeQ.getD [] plane).filter fun o => !s.shaperHolds n o
  let u := c.planeUse.getD {} plane
  match firstBy c.rank (ops.filter (·.cls == 3)), ops.any (·.cls == 1), decide (100 * u.bg < s.bgShare n plane * (u.fg + u.bg)) with
  | some p, true, true => some p
  | _, _, _ => firstBy c.rank ops

/-- Issue an operation on an idle plane. -/
def State.issueOp (n plane : Nat) (op : PlaneOp) (s : State) : State :=
  let c := s.chan n
  let q := (c.planeQ.getD [] plane).erase op
  let busy := { op with since := s.now, contended := op.cls == 1 || q.any (·.cls == 1) }
  let c := { c with planeQ := c.planeQ.put plane q, planeBusy := c.planeBusy.put plane busy }
  let c := if op.cls = 1 ∧ c.planeQ.any (fun e => e.2.any (·.cls == 1)) then { c with fgReads := c.fgReads + 1 } else c
  let s := s.setChan n c
  if op.kind = 0 then s.issueRead n op.num else s

/-- Issue a sector read of a promotion (R226): it takes effect in its event, and the plane is idle after it (log entry 79). A
schedule promotion's has passed the flash shaper (R293). -/
def State.issuePromo (n plane : Nat) (op : PlaneOp) (s : State) : State :=
  let s := if op.cls = 4 then (s.shape? (2 + n) op.tenant 4096).getD s else s
  let c := s.chan n
  (s.setChan n { c with planeQ := c.planeQ.put plane ((c.planeQ.getD [] plane).erase op) }).touch n op.num

/-- The location that the read of a plane operation addresses. -/
def Chan.opLoc (c : Chan) (op : PlaneOp) : Option Nat := if op.kind = 0 then (c.ctx? op.num).bind (·.loc) else none

/-- PLANE_OP_ISSUE (R182); reads of one page address on the other planes of the LUN are combined with it (R181). -/
def execPlaneOpIssue (ch plane : Nat) (s : State) : Out :=
  if ((s.chan ch).planeBusy.get? plane).isSome then .next s
  else match s.nextOp ch plane with
    | none => .next (forEach (((s.chan ch).planeQ.getD [] plane).filter (s.shaperHolds ch)) (fun o t =>
        t.shapeWait (2 + ch) o.tenant) s)
    | some op =>
      if op.kind = 3 then .next (s.issuePromo ch plane op)
      else
      let loc := (s.chan ch).opLoc op
      let along := fun (p : Nat) (t : State) =>
        if ((t.chan ch).planeBusy.get? p).isSome then t
        else match t.nextOp ch p with
          | some o => if loc.isSome ∧ (t.chan ch).opLoc o = loc then t.issueOp ch p o else t
          | none => t
      .next (forEach ((List.range 4).map (plane / 4 * 4 + ·)) along (s.issueOp ch plane op))

/-- The plane on which an operation is under way is idle again; its time counts for its class where reads waited. -/
def State.freePlane (n kind num : Nat) (s : State) : State :=
  let c := s.chan n
  let mine := fun (e : Nat × PlaneOp) => e.2.kind == kind && e.2.num == num
  let use := (c.planeBusy.filter fun e => mine e && e.2.contended).foldl (fun (t : Tbl PlaneUse) e =>
    let d := s.now - e.2.since
    t.upd {} e.1 fun u => if e.2.cls = 1 then { u with fg := u.fg + d } else { u with bg := u.bg + d }) c.planeUse
  s.setChan n { c with planeBusy := c.planeBusy.filter (fun e => !mine e), planeUse := use }

/-- Reissue a context's read after a failed decode. -/
def State.reread (n i : Nat) (x : ScCtx) (s : State) : State :=
  let c := s.chan n
  let x := { x with st := .queued }
  (s.setChan n { c with ctxs := c.ctxs.put i x }).queueOp n (c.planeOf x.lsn) { cls := 1, kind := 0, num := i }

/-- A hard decode has failed: the next ladder level, or the soft decode (R176, R211, R212). -/
def State.ladderStep (n i : Nat) (x : ScCtx) (s : State) : State :=
  let c := s.chan n
  match (ladder c.levels x.level0)[x.retries]?, decide (x.retries < s.fld fCF_RD_CFG_RETRY_MAX n 0) with
  | some l, true =>
    let s := s.setChan n { c with health := { c.health with readRetries := c.health.readRetries + 1 } }
    let s := s.bump .CF_TL_RETRY_READS n 0 (if x.retries = 0 then 1 else 0)
    let s := s.reread n i { x with retries := x.retries + 1, level := l }
    match x.loc with
    | some loc => if x.retries + 1 = s.fld fCF_RD_CFG_REFRESH_RETRIES n 0 then s.queueRefresh n (loc / 4096) else s
    | none => s
  | _, _ =>
    let s := s.setChan n { c with health := { c.health with softDecodes := c.health.softDecodes + 1 } }
    (s.bump .CF_SOFT_DECODES n 0 1).reread n i { x with soft := true }

/-- A decode has succeeded: hint, corrected bits (their number is not an operand: a free value), and the scores of the
joined requests; then the context lingers (R181, R211, R213). A sector whose header agrees for none of them is as one that
cannot be read: its context frees (R117). -/
def State.decoded (n i : Nat) (x : ScCtx) (s : State) : State :=
  let s := match x.loc with
    | some l => if x.level ≠ x.level0 ∧ !x.soft then s.modSb n (l / 4096) fun b => { b with hint := x.level } else s
    | none => s
  let c := s.chan n
  let s := s.draw.setChan n { c with health := { c.health with
    corrBits := c.health.corrBits + (Config.free s.freeCount).toNat % 36736 } }
  let bad := x.joined.filter fun r => !s.agrees n x.data r
  let s := if bad = [] then s else s.mismatch n x.lsn
  let s := forEach x.joined (fun r t => t.serve n x.data r) s
  let c := s.chan n
  if bad ≠ [] ∧ bad.length = x.joined.length then (s.setChan n { c with ctxs := c.ctxs.del i }).progressed 6 n 1
  else
    let x := { x with st := .linger, joined := [], lingerAt := s.now + us * s.fld fCF_CTL_LINGER_US n 0 }
    s.setChan n { c with ctxs := c.ctxs.put i x }

/-- PAGE_DECODE (R176, R181, R211). -/
def execPageDecode (ch ctx : Nat) (e : DecodeEnd) (s : State) : Out :=
  match (s.chan ch).ctx? ctx with
  | none => .next s
  | some x =>
    if x.st ≠ .reading then .next s
    else
      let s := s.freePlane ch 0 ctx
      let good := e == .hard || e == .soft
      let s := if good then s.decoded ch ctx x
        else if x.soft then
          let c := s.chan ch
          (s.setChan ch { c with health := { c.health with uncorr := c.health.uncorr + 1 } }).ctxUnreadable ch ctx x
        else s.ladderStep ch ctx x
      .next ((s.drainReqQ ch 256).noteChan ch)

/-- LINGER_EXPIRY (R181). -/
def execLingerExpiry (ch ctx : Nat) (s : State) : Out :=
  let c := s.chan ch
  match c.ctx? ctx with
  | some x =>
    if x.st = .linger then
      let s := ((s.reach x.lingerAt).setChan ch { c with ctxs := c.ctxs.del ctx }).progressed 6 ch 1
      .next ((s.drainReqQ ch 256).noteChan ch)
    else .next s
  | none => .next s

/-! ### The home die (R180, R188, R122) -/

/-- SCORE_RECORD (R180, R233). -/
def execScoreRecord (die : Nat) (s : State) : Out :=
  if s.dieReset die then .next s else
  match s.fl.scores.getD [] die with
  | [] => .next s
  | r :: rest =>
    let s := { s with fl := { s.fl with scores := s.fl.scores.put die rest } }
    let t := match s.query r.q with
      | some x =>
        if x.awaits r.cand then
          match r.rstatus with
          | 0 => s.scoreCand r.q r.cand r.score false
          | 2 => (s.flashAbsent r.ch r.lsn 2 x).excludeCand r.q r.cand
          | 3 => (s.flashAbsent r.ch r.lsn 3 x).excludeCand r.q r.cand
          | _ => s.sendDegraded r.q r.cand
        else s.late r.pn
      | none => s.late r.pn
    .next (t.freeGranules r.q r.ch)

/-- The job that a degraded read is for: that of its query, as long as it runs. -/
def State.degJob (s : State) (r : DegRead) : JobRef := (s.query r.q).elim { tenant := r.tenant } (·.jobRef 0)

/-- The header of a rebuilt sector agrees with the home die's copy of the format (R117, R188). -/
def State.headAgrees (s : State) (r : DegRead) (d : List Byte) : Bool :=
  d.take 8 == (s.pjFmt r.die (verKey r.index r.vslot)).headBytes r.index r.vslot

/-- DEGRADED_READ (R188, R189, R193, R312): a read that the header check of its home die will fail does not succeed, and no
repair follows it. -/
def execDegradedRead (die : Nat) (bad : List Nat) (s : State) : Out :=
  if s.dieReset die then .next s else
  match s.fl.degQ.getD [] die with
  | [] => .next s
  | r :: rest =>
    let s := { s with fl := { s.fl with degQ := s.fl.degQ.put die rest } }
    let isOpen := (s.openAt r.ch r.lsn).isSome
    let got := s.degraded r.ch r.lsn (some (0xF1E6, 7, r.owner)) bad
    let s := (s.bump .GE_DEG_READS die 0 1).bump .TN_ACC_FLASH_READS r.tenant 0 (if isOpen then 1 else 31)
    let s := if isOpen then s else s.touchStripe r.ch (stripeSet r.lsn) (parityCh r.ch r.lsn)
    let s := if got.isSome then s
      else (s.bump .GE_DEG_FAIL die 0 1).log ((mkErr 0x0202 1 die r.ch r.lsn 0 0).of (s.degJob r))
    let s := match got with
      | some d => if !isOpen && s.headAgrees r d.1 then s.repairWrite r.ch r.lsn r.tenant d else s
      | none => s
    let r := { r with result := got.map (·.1), failed := got.isNone }
    .next { s with fl := { s.fl with degDone := s.fl.degDone.upd [] r.die (· ++ [r]) } }

/-- Score of a record of a rebuilt sector, with the crown's copies of format and zero points (R117, R122). -/
def State.rebuiltScore (s : State) (x : Query) (r : DegRead) (d : List Byte) : Option (BitVec 32) :=
  let f := s.pjFmt x.home x.ver
  let i := f.recordAt r.offset
  if s.headAgrees r d && decide (48 ≤ r.offset) && decide (i < f.perSector)
      && f.codeOff i == r.offset && (fieldAt d 8 16).testBit i then
    some (rrScore f (s.pjZp x.home x.ver) (f.getRecord d i) x.u x.x)
  else none

/-- REBUILT_SECTOR (R122, R188, R192). -/
def execRebuiltSector (die : Nat) (s : State) : Out :=
  if s.dieReset die then .next s else
  match s.fl.degDone.getD [] die with
  | [] => .next s
  | r :: rest =>
    let s := { s with fl := { s.fl with degDone := s.fl.degDone.put die rest } }
    match s.query r.q with
    | none => .next (s.late r.pn)
    | some x =>
      if !x.awaits r.cand then .next (s.late r.pn)
      else match r.result.bind (s.rebuiltScore x r) with
        | none =>
          let s := if r.failed then s
            else (s.bump .GE_DEG_FAIL (dieOfChannel (parityCh r.ch r.lsn)) 0 1).log
              ((mkErr 0x0202 1 die r.ch r.lsn 0 0).of (x.jobRef 0))
          .next (s.excludeCand r.q r.cand)
        | some v =>
          let b := (s.pickBand x.pn).getD noBand
          let s := (s.bump .BD_RR_REBUILT b 0 1).bump .TN_ACC_RR_RECORDS x.tenant 0 1
          let tag := x.tagOf r.cand
          let c := s.chan r.ch
          let s := if s.chState r.ch = 5 then
            s.setChan r.ch { c with shadowWant := c.shadowWant.put tag (scoreWord v 0 tag) } else s
          .next (s.scoreCand r.q r.cand v true)

/-! ### Deadlines (R231, R232, R110) -/

/-- SCAN_DEADLINE (R231). -/
def execScanDeadline (q : Nat) (s : State) : Out :=
  match (s.query q).bind (·.tSd) with
  | some t => .next ((s.reach t).scanCut q)
  | none => .next s

/-- RERANK_BUDGET_END (R232). -/
def execRerankBudgetEnd (q : Nat) (s : State) : Out :=
  match (s.query q).bind (·.tRr) with
  | some t => .next ((s.reach t).budgetEnd q)
  | none => .next s

/-- SHADOW_TIMEOUT (R110). -/
def execShadowTimeout (q : Nat) (s : State) : Out :=
  match s.query q with
  | some x =>
    if x.isShadow then
      .next ((s.reach (x.liveAdmit + sec * s.fld fTN_SHADOW_CFG_TIMEOUT_S x.pn 0)).endShadow q stDeadline [] 0)
    else .next s
  | none => .next s

/-! ### The FP16 stage (R123, R148, R149) -/

/-- A partial-sum request's rows (R148). -/
def reqRows (w n : Nat) (b : List Byte) : List Nat := (List.range n).map fun i => bits (fieldAt b (0x20 + 2 * w + 8 * i) 8) 36 0

/-- Serve a partial-sum request: the sums of its rows, the write and the signal (R148). -/
def State.servePsum (conn : Nat) (r : RxMsg) (v : Nat) (rows badRows : List Nat) (s : State) : State :=
  let b := r.data
  let t := fieldAt b 0 1 % 32
  let pn := s.fld fGE_TBL_CTL_PN t 0
  let q := halves ((b.drop 0x20).take (2 * s.tblW t))
  let sums := rows.map fun row => (s.partialSum t v row q s.chMask badRows).2
  let die := (s.pickBand pn).elim 0 dieOf
  let s := ((s.holdTable t v).noteDots t v { tenant := s.fld fTN_PART_TENANT pn 0, tag := fieldAt b 8 8 } s.chMask badRows
    rows).bump .GE_REQ_SERVED die 0 1
  let s := s.bump .GE_MARKERS die 0 (sums.filter (· == marker)).length
  let data := sums.flatMap fun x => leBytes 4 x.toNat
  let w : WR := { id := 0, op := 0x02, conn := conn, len := data.length, data := data, rHandle := fieldAt b 0x10 4,
                  rAddr := fieldAt b 0x14 4, signalSync := fieldAt b 0x18 2, signalVal := 1, yellow := r.dei }
  (s.post w).releaseTable t v

/-- PARTIAL_SUM_REQUEST (R148): the sums are written to the requester's region, and its sync object is signalled after. A
request that has become one to refuse since it came is refused now; one whose rows wait waits. -/
def execPartialSumRequest (conn : Nat) (badRows : List Nat) (s : State) : Out :=
  match s.takeSend conn 2 with
  | none => .next s
  | some (r, u) =>
    let b := r.data
    let t := fieldAt b 0 1 % 32
    let rows := reqRows (s.tblW t) (fieldAt b 4 4) b
    let z := u.drainRows rows
    match u.psumRefusal b, u.captureTbl t true (fieldAt b 2 2) with
    | none, some v => .next (if z.rowsFree rows then z.servePsum conn r v rows badRows else s)
    | st, _ => .next (u.refusePsum conn r.msn (st.getD stBadVersion))

/-- FP16_REDUCTION (R123). -/
def execFp16Reduction (q : Nat) (s : State) : Out :=
  match s.query q with
  | some x => .next (if s.fp16Ready x then s.reduceFp16 q else s)
  | none => .next s

end Sys2Proof.Machine
end

