-- ==== Sys2Proof/Machine/FlashChannel.lean ====
section
/-! DEFINITION. The commands of the flash channels: writes and appends (R186, R187), service states (R190 to R192), the
journal, folds and checkpoints (R197 to R200), collection and erasure (R203, R206), health (R212 to R214), formatting and
flash time (R194, R209), and the flush at a loss of power (R201). -/

namespace Sys2Proof.Machine

/-! ### Writes and appends (R186, R187) -/

/-- The first waiting write of a stripe engine that its shaper passes, after those that are held; a held tenant's later
writes to the channel wait behind, and the time that a held write waits for tokens is noted (R301, R303). -/
def State.passWrite (s : State) : List (Nat × Nat) → List SWrite → Option SWrite × State
  | _, [] => (none, s)
  | heldBy, w :: ws =>
    let key := (w.ch, w.tenant)
    if heldBy.contains key then State.passWrite s heldBy ws
    else if !(s.chAccepts w.ch && s.chAccepts (parityCh w.ch w.lsn)) then State.passWrite s (key :: heldBy) ws
    else match s.shape? (2 + w.ch) w.tenant 4096 with
      | some t => (some w, t)
      | none => State.passWrite (s.shapeWait (2 + w.ch) w.tenant) (key :: heldBy) ws

/-- Writes that find no journal space begin to wait for it (R198). -/
def State.noteStarved (die : Nat) (s : State) : State :=
  let full := fun (w : SWrite) => (s.chan w.ch).ringFull || (s.chan (parityCh w.ch w.lsn)).ringFull
  let mark := fun (w : SWrite) => if w.starved.isNone && full w then { w with starved := some s.now } else w
  { s with fl := { s.fl with swrites := s.fl.swrites.upd [] die (·.map mark) } }

/-- STRIPE_WRITE (R185, R186, R191, R293). -/
def execStripeWrite (die : Nat) (bad : List Nat) (s : State) : Out :=
  if s.dieReset die then .next s else
  let ws := s.fl.swrites.getD [] die
  match s.passWrite [] ws with
  | (some w, t) => .next (State.runWrite w bad { t with fl := { t.fl with swrites := t.fl.swrites.put die (ws.erase w) } })
  | (none, t) => .next (t.noteStarved die)

/-- RECORD_APPEND (R46, R187). -/
def execRecordAppend (die : Nat) (s : State) : Out :=
  if s.dieReset die then .next s else
  match s.fl.appendQ.getD [] die with
  | [] => .next s
  | r :: rest =>
    if s.pickChannel.isNone || !((List.range 32).all s.chAccepts) then .next s
    else .next (State.appendRecord r { s with fl := { s.fl with appendQ := s.fl.appendQ.put die rest } })

/-- OPEN_SECTOR_TIMEOUT (R187). -/
def execOpenSectorTimeout (ch lsn : Nat) (s : State) : Out :=
  match s.openAt ch lsn with
  | some o =>
    if o.closing then .next s
    else .next ((s.reach (o.first + ms * s.fld fCF_CTL_OPEN_TIMEOUT_MS ch 0)).commitOpen ch o)
  | none => .next s

/-! ### Service states (R190 to R192, R402, R403) -/

/-- The value written to CF_SVC for a CMD. -/
def svcWord (cmd : Nat) : W64 := BitVec.ofNat 64 (cmd * 2 ^ 24)

/-- DETACH (R190). -/
def State.detachBy (ch : Nat) (loc value : W64) (s : State) : Out :=
  if s.chIn ch && (List.range 32).all (fun m => m == ch || s.chIn m) && !s.testing ⟨3, ch⟩ then .next (s.departCh ch 1)
  else .next (s.discard loc value)

/-- The command itself: `value` is the value written. -/
def execDetach (ch : Nat) (loc : W64) (s : State) : Out := s.detachBy ch loc (svcWord 1)

/-- CHANNEL_FAULT (R190, R214): cause 3 is a passed health limit, whose conditions are checked; any other is a fault. -/
def execChannelFault (ch cause : Nat) (s : State) : Out :=
  .next (if cause = 3 then s.checkHealth ch else s.cuffFault ch)

/-- DETACH_DRAIN_END (R191). -/
def execDetachDrainEnd (ch : Nat) (s : State) : Out :=
  let c := s.chan ch
  if s.chState ch = 1 then
    let s := if c.reqQ = [] && c.ctxs.isEmpty then s else s.reach (c.drainSince + ms * s.fld fCF_CTL_DRAIN_MS ch 0)
    let s := s.downAll ch
    let s := forEach ((s.chan ch).openS.filter fun o => !o.closing) (fun o t => t.commitOpen ch o) s
    .next (s.powerDownCh ch)
  else .next s

/-- Registers that the reset domain of a cuff die holds (R11); its copies of the formats are loaded again (R322). -/
def cuffRegs : List RegName :=
  [.CF_CTL, .CF_STATUS, .CF_TL_CFG, .CF_RD_CFG, .CF_TL_STATUS, .CF_SNAP, .CF_REQ, .CF_READS, .CF_JOINED, .CF_LINGER_HITS,
   .CF_QV_LOADS, .CF_SOFT_DECODES, .CF_UNREADABLE, .CF_ABSENT, .CF_NO_QUERY, .CF_CHANNEL_DOWN, .CF_QUEUE_FULL_NS,
   .CF_REBUILD_READS, .CF_SCORED, .CF_SCORE_NAN, .CF_HDR_MISMATCH, .CF_TL_HOST_BYTES, .CF_TL_NAND_BYTES, .CF_TL_FOLDS,
   .CF_TL_GC_MOVES, .CF_TL_GC_ORPHANS, .CF_TL_ERASES, .CF_TL_RETIRED, .CF_TL_WL_MOVES, .CF_TL_REFRESH, .CF_TL_MAP_MISS,
   .CF_TL_CKPT, .CF_TL_RETRY_READS, .CF_TL_WRITE_WAIT_NS, .CF_TL_HOLDUP_SHORT, .CF_TL_TIME_REFUSED]

def shaperRegs : List RegName := [.PL_SHP_CTL, .PL_SHP_RATE, .PL_SHP_SIZE, .PL_SHP_BYTES, .PL_SHP_WAIT_NS]

/-- A register copy, given by its key, is one of a list of registers and of those that `f` picks. -/
def keyIn (rs : List RegName) (f : Nat → Nat → Bool) (key : Nat) : Bool :=
  let a := Nat.unpair key
  let b := Nat.unpair a.2
  (rs.map RegName.ctorIdx).contains a.1 && f b.1 b.2

/-- The copies that `f` picks of every register of a list take their reset values (R11). -/
def State.resetRegs (rs : List RegName) (f : Nat → Nat → Bool) (s : State) : State :=
  { s with regs := s.regs.filter fun (e : Nat × W64) => !keyIn rs f e.1
           shadowRegs := s.shadowRegs.filter fun (e : Nat × W64) => !keyIn rs f e.1 }

/-- The shapers of a cuff or fabric die reset with it (R11). -/
def State.resetShaper (n : Nat) (s : State) : State :=
  let s := s.resetRegs shaperRegs fun i _ => i == n
  { s with pol := { s.pol with shapers := s.pol.shapers.filter fun (e : Nat × Meter) => (Nat.unpair e.1).1 != n } }

/-- Reset of a cuff die's own domain: requests answered CHANNEL_DOWN, registers at reset, then replay (R202, R327). -/
def State.resetCuff (n : Nat) (powerLost : Bool) (s : State) : State :=
  let s := s.downAll n
  let time := (s.chan n).flushing && !s.pins.pwrLossN
  let s := ((s.resetRegs cuffRegs fun i _ => i == n).replayCh n powerLost).resetShaper (2 + n)
  s.setChan n { s.chan n with flushing := time }

/-- ATTACH (R191, R402, R403). -/
def State.attachBy (ch : Nat) (loc value : W64) (s : State) : Out :=
  if s.chState ch = 2 && (s.chan ch).present && !s.testing ⟨3, ch⟩ then
    let s := s.resetCuff ch false
    let c := s.chan ch
    .next ((s.setChan ch { c with pwrEn := true, pwrRise := s.now, onfiUp := false, isolated := false }).setFld
      fCF_SVC_STATE ch 0 3)
  else .next (s.discard loc value)

/-- The command itself: `value` is the value written. -/
def execAttach (ch : Nat) (loc : W64) (s : State) : Out := s.attachBy ch loc (svcWord 2)

/-- CARRIER_POWER_SETTLED (R402). -/
def execCarrierPowerSettled (ch : Nat) (s : State) : Out :=
  let c := s.chan ch
  if c.pwrEn && s.chState ch == 3 && !c.onfiUp then
    .next ((s.reach (c.pwrRise + 5 * ms)).setChan ch { c with onfiUp := true })
  else .next s

/-- ABORT_ATTACH (R191). -/
def State.abortAttachBy (ch : Nat) (loc value : W64) (s : State) : Out :=
  if 2 ≤ s.chState ch && s.chState ch ≤ 5 && !s.testing ⟨3, ch⟩ then .next ((s.downAll ch).powerDownCh ch)
  else .next (s.discard loc value)

/-- The command itself: `value` is the value written. -/
def execAbortAttach (ch : Nat) (loc : W64) (s : State) : Out := s.abortAttachBy ch loc (svcWord 3)

/-- A return has failed: CAUSE 4, DETACHED. -/
def State.returnFailed (n : Nat) (s : State) : State := (s.setFld fCF_SVC_CAUSE n 0 4).powerDownCh n

/-- The parameter page of a carrier that passed its check: geometry within the ONFI table, and read-retry levels, each a free
value (R175, R211, log entry 31). -/
def State.readPage (n : Nat) (s : State) : State :=
  let f := fun (i : Nat) => (Config.free (s.freeCount + i)).toNat
  let c := s.chan n
  s.draw.draw.draw.draw.setChan n { c with targets := 1 + f 0 % 8, luns := 1 + f 1 % 4, pages := 1 + f 2 % 4096,
                                           levels := 1 + f 3 % 16 }

/-- CHANNEL_SELF_TEST_DONE (R175, R191, R194, R197): `pass` is the outcome of the logic and memory test and of the
parameter-page check. The signatures are not operands: free values in the record. -/
def execChannelSelfTestDone (ch : Nat) (pass : Bool) (goodUnits : Nat) (s : State) : Out :=
  if s.chState ch = 3 && (s.chan ch).onfiUp then
    if !pass then
      let a := (Config.free s.freeCount).toNat
      let b := (Config.free (s.freeCount + 1)).toNat
      .next ((s.draw.draw.log (mkErr 0x0430 3 ch ch a b 0)).returnFailed ch)
    else if 72 * goodUnits < 100 * s.neededUnits ch then .next (s.returnFailed ch)
    else
      let s := (s.readPage ch).formatCh ch goodUnits true
      .next ((((s.setFld fCF_SVC_STATE ch 0 4).setFld fCF_SVC_REBUILD_PCT ch 0 0).setFld fCF_REBUILD_POS_CURSOR ch 0
        0).setChan ch { s.chan ch with parityPos := 0 })
  else .next s

/-- Reads of class 1 wait on a channel, and rebuilding has had its share of the channel's reads: REBUILD_SHARE percent of
those since reads of class 1 waited (R182, log entry 79). -/
def State.rebuildHeld (s : State) (m : Nat) : Bool :=
  let c := s.chan m
  c.planeQ.any (fun e => e.2.any (·.cls == 1)) && decide (s.fld fCF_CTL_REBUILD_SHARE m 0 * (c.fgReads + c.rbReads) ≤ 100 * c.rbReads)

/-- The other channels serve the member reads of a rebuild of a stripe's member on `n` (R192, R193). -/
def State.servedRebuild (n e k : Nat) (s : State) : State :=
  let one := fun (m : Nat) (t : State) =>
    let c := t.chan m
    let t := if c.planeQ.any fun x => x.2.any (·.cls == 1) then t.setChan m { c with rbReads := c.rbReads + 1 } else t
    t.bump .CF_REBUILD_READS m 0 1
  (forEach ((List.range 32).filter (· != n)) one s).touchStripe n e k

/-- One data sector of the rebuild (R192). A sector that no write has touched stays unwritten, as R189 counts it. -/
def State.rebuildData (n c : Nat) (bad : List Nat) (s : State) : State :=
  let k := parityCh n c
  let die := dieOfChannel k
  let s := s.servedRebuild n (stripeSet c) k
  match s.rebuild n c none bad, (s.chan n).lostFull with
  | none, true => s.cuffFault n
  | r, _ =>
    let s := match r with
      | some (d, crc) =>
        let s := s.bump .GE_REBUILD_SECTORS die 0 1
        if d == emptySect && crc == 0 then s else (s.writeSect n c d none).bump .CF_TL_HOST_BYTES n 0 4096
      | none => (s.loseSect n c).bump .GE_REBUILD_LOST die 0 1
    let s := s.setFld fCF_REBUILD_POS_CURSOR n 0 (c + 1)
    s.setFld fCF_SVC_REBUILD_PCT n 0 (100 * (c + 1) / max 1 (s.dataSectors n))

/-- Recompute the parity of stripe (e, n) from its members; a member that cannot be read counts as zero, and the stripe is
unprotected (R186, R192). A parity sector never written that would be zero stays so. -/
def State.recompute (e k : Nat) (bad : List Nat) (s : State) : State :=
  let ms := others 32 e k
  let whole := ms.all fun m => s.readable bad m.1 m.2
  let p := s.sumOf bad ms
  let die := dieOfChannel k
  let ix := s.parityIx k e
  let s := if whole then s else (s.bump .GE_PAR_UNPROTECTED die 0 1).log (mkErr 0x0204 1 die e k 0 0)
  if p.1 == emptySect && p.2 == 0 && (s.chan k).look ix == .never then s
  else (s.writeSect k ix p.1 (some p.2)).bump .CF_TL_HOST_BYTES k 0 4096

/-- REBUILD_SECTOR (R192): data sectors in increasing LSN, then the channel's parity sectors, then shadow traffic. It waits
while the channel flushes (R201), and while rebuilding has had its share of another channel (R182). -/
def execRebuildSector (ch : Nat) (bad : List Nat) (s : State) : Out :=
  if s.chState ch = 4 && s.chAccepts ch && !((List.range 32).any fun m => m != ch && s.rebuildHeld m) then
    let c := s.fld fCF_REBUILD_POS_CURSOR ch 0
    if c < s.dataSectors ch then .next (s.rebuildData ch c bad)
    else
      let e := (s.chan ch).parityPos
      let s := if e < s.fld fCF_CAP_PARITY_SECTORS ch 0 then (s.servedRebuild ch e ch).recompute e ch bad else s
      let x := s.chan ch
      let s := s.setChan ch { x with parityPos := e + 1, shadowDone := 0, shadowWant := [], shadowGot := [] }
      if s.fld fCF_CAP_PARITY_SECTORS ch 0 ≤ e + 1 then .next (s.setFld fCF_SVC_STATE ch 0 5) else .next s
  else .next s

/-- CHANNEL_SHADOW_RECORD (R191, R192): the scores under one tag are compared. -/
def execChannelShadowRecord (ch tag : Nat) (s : State) : Out :=
  let c := s.chan ch
  match s.chState ch, c.shadowWant.get? tag, c.shadowGot.get? tag with
  | 5, some a, some b =>
    if a = b then
      let s := s.setChan ch { c with shadowDone := c.shadowDone + 1, shadowWant := c.shadowWant.del tag,
                                     shadowGot := c.shadowGot.del tag }
      if 65536 ≤ c.shadowDone + 1 then
        let s := s.setFld fCF_SVC_STATE ch 0 6
        .next { s with ras := { s.ras with unitPending := s.ras.unitPending.put (Nat.pair 3 ch) s.now } }
      else .next s
    else .next (((s.log (mkErr 0x0431 3 ch ch tag 0 0)).downAll ch).returnFailed ch)
  | _, _, _ => .next s

/-- CARRIER_PRESENCE_CHANGE (R403). -/
def execCarrierPresenceChange (ch : Nat) (present : Bool) (s : State) : Out :=
  let c := s.chan ch
  if present || s.chState ch = 2 then .next (s.setChan ch { c with present := present })
  else .next ((s.setChan ch { c with present := present, isolated := true }).cuffFault ch)

/-! ### Journal, folds, checkpoints (R197 to R200) -/

/-- The translation layer of a channel is at work on its carrier. -/
def State.tlUp (s : State) (n : Nat) : Bool := s.chState n != 2 && s.chState n != 3

/-- STAGING_TIMEOUT (R197). -/
def execStagingTimeout (ch : Nat) (s : State) : Out :=
  match (s.chan ch).journal.find? (·.staged) with
  | some r => .next ((s.reach (r.atTime + 50 * us)).programStaging ch)
  | none => .next s

/-- The LUNs of a channel in round-robin order, those that a fold may use (R199). -/
def State.foldLuns (s : State) (n : Nat) : List Nat :=
  let c := s.chan n
  let l := c.lunList
  let i := c.nextLun % max 1 l.length
  (l.drop i ++ l.take i).filter fun x => decide (s.fld fCF_TL_CFG_GC_URGENT n 0 < (c.freeSbs x).length)

/-- FOLD (R199): the unit is built and its program begins; its record is written when the status succeeds. -/
def execFold (ch unit : Nat) (s : State) : Out :=
  let c := s.chan ch
  if !s.tlUp ch || c.flushing || !c.foldable unit || (c.foldPending.get? unit).isSome then .next s
  else
    match (s.foldLuns ch).findSome? fun l => (s.target ch l 1).map fun r => (l, r) with
    | none => .next s
    | some (l, sb, t) =>
      let t := match c.map.get? unit with
        | some loc => t.readSb ch loc 1
        | none => t
      let r := t.programUnit ch sb unit (c.unitSects unit)
      let x := r.2.chan ch
      let next := ((c.lunList.findIdx (· == l)) + 1) % max 1 c.lunList.length
      let t := r.2.setChan ch { x with foldPending := x.foldPending.put unit (r.1, x.jNext), nextLun := next }
      .next ((t.queueOp ch (4 * l) { cls := 3, kind := 1, num := unit }).checkGc ch l)

/-- FOLD_PROGRAM_STATUS (R199, R206). Records of the unit written after the fold was built stay in the index. -/
def execFoldProgramStatus (ch unit : Nat) (ok : Bool) (s : State) : Out :=
  let c := s.chan ch
  match c.foldPending.get? unit with
  | none => .next s
  | some (loc, j) =>
    if !(c.planeBusy.any fun e => e.2.kind == 1 && e.2.num == unit) then .next s
    else
      let s := (s.setChan ch { c with foldPending := c.foldPending.del unit }).freePlane ch 1 unit
      if ok then
        let s := ((s.journal ch (.fold unit ((c.map.get? unit).getD 0xFFFFFFFF) loc)).setMap ch unit loc).bump .CF_TL_FOLDS ch 0 1
        let x := s.chan ch
        let keep := fun (e : Nat × Nat) => e.1 / 16 != unit || decide (j ≤ e.2)
        .next ((s.setChan ch { x with jIndex := x.jIndex.filter keep }).closeFull ch (loc / 4096))
      else .next (s.programFailed ch (loc / 4096) 1)

/-- A journal record is live (R198): those that the next checkpoint ends are not. -/
def State.liveRec (s : State) (n : Nat) (r : JRec) : Bool :=
  let c := s.chan n
  match r.pay with
  | .sector i _ _ => c.jIndex.get? i == some r.jseq
  | .mirror ch lsn _ _ => (s.openAt ch lsn).isSome
  | .intent e k => !(c.journal.any fun x => x.pay == .close e k && decide (r.jseq < x.jseq))
  | .blockOpen sb _ _ =>
    let newer := fun (x : JRec) => match x.pay with
      | .blockOpen b _ _ => b == sb && decide (r.jseq < x.jseq)
      | .erase b _ => b == sb && decide (r.jseq < x.jseq)
      | _ => false
    (c.sbs.getD {} sb).st != 0 && !c.journal.any newer
  | .lost i => c.lost.contains i
  | _ => false

/-- Bytes of the map directory: one 4-byte location for each map sector of 1,024 entries (R195). -/
def Chan.dirBytes (c : Chan) : Nat := 4 * ((c.health.goodUnits + 1023) / 1024)

/-- TL_CHECKPOINT (R200): after 2^18 records, or when the interval has passed. Every dirty map sector of 4 KiB and the
directory are written, then the CHECKPOINT record, which is programmed before what it replaces is given up. -/
def execTlCheckpoint (ch : Nat) (s : State) : Out :=
  if !s.tlUp ch || (s.chan ch).flushing then .next s
  else
    let c := s.chan ch
    let s := if 2 ^ 18 ≤ c.sinceCkpt then s else s.reach (c.ckptAt + sec * s.fld fCF_RD_CFG_CKPT_INTERVAL_S ch 0)
    let live := c.journal.filter (s.liveRec ch)
    let from_ := (live.head?.map (·.jseq)).getD c.jNext
    let s := (s.journal ch (.checkpoint (s.flashTime ch) from_)).flushStaging ch
    let x := s.chan ch
    let x := { x with journal := x.journal.filter fun r => decide (from_ ≤ r.jseq), dirtyMap := [], ckptMap := x.map,
                      ckptLost := x.lost, ckptSbs := x.blockRecs, ckptHealth := x.health, sinceCkpt := 0, ckptAt := s.now }
    let s := (s.setChan ch x).bump .CF_TL_NAND_BYTES ch 0 (4096 * c.dirtyMap.length + c.dirBytes)
    .next ((s.bump .CF_TL_CKPT ch 0 1).setFld fCF_TL_STATUS_JOURNAL_FILL ch 0 (min 127 x.fill128))

/-! ### Collection and erasure (R203 to R206) -/

/-- Sector `i` of a collected unit could not be read: the copy at `dst` holds what a degraded read gives, or it is lost (R203).
A newer copy in the journal stands. -/
def State.salvage (n dst : Nat) (bad : List Nat) (i : Nat) (s : State) : State :=
  let c := s.chan n
  let held := ((((c.sbs.getD {} (dst / 4096)).slots.getD (0, []) (dst % 4096)).2).get? (i % 16)).isSome
  if !held || (c.jIndex.get? i).isSome then s
  else
    let isData := decide (i < s.dataSectors n)
    let e := if isData then stripeSet i else i - s.dataSectors n
    let k := if isData then parityCh n i else n
    let ms := others 32 e n
    let got := if isData then s.degraded n i none bad
      else if ms.all fun m => s.readable bad m.1 m.2 then some (s.sumOf bad ms) else none
    let die := dieOfChannel k
    let s := (s.bump .GE_DEG_READS die 0 1).touchStripe n e k
    match got with
    | some d =>
      let sect := fun (x : Sect) => { x with data := d.1, wseqX := if isData then x.wseqX else some d.2 }
      s.modSb n (dst / 4096) fun b =>
        { b with slots := b.slots.upd (0, []) (dst % 4096) fun u => (u.1, u.2.upd { data := d.1 } (i % 16) sect) }
    | none => ((s.bump .GE_DEG_FAIL die 0 1).log (mkErr 0x0202 1 die n i 0 0)).loseSect n i

/-- GC_UNIT_COPY (R203, R205, R206). -/
def execGcUnitCopy (ch : Nat) (r : UnitCopy) (s : State) : Out :=
  let c := s.chan ch
  match c.collect with
  | g :: gs =>
    match g.pend with
    | some (unit, src, dst) =>
      if !(c.planeBusy.any fun e => e.2.kind == 2 && e.2.num == unit) then .next s
      else
        let s := (s.setChan ch { c with collect := { g with pend := none } :: gs }).freePlane ch 2 unit
        let s := if !r.ok then s.programFailed ch (dst / 4096) 2
          else if c.map.get? unit = some src then
            forEach (r.uncorr.eraseDups.filter (· / 16 == unit)) (State.salvage ch dst r.bad) (s.commitMove ch unit src dst)
          else s.bump .CF_TL_GC_ORPHANS ch 0 1
        .next ((((s.closeFull ch (dst / 4096)).issueCopy ch 64).checkGc ch g.lun).nextRefresh ch)
    | none => .next ((s.issueCopy ch 64).nextRefresh ch)
  | [] => .next s

/-- An emptied superblock meets the conditions for its erase (R203). -/
def Chan.erasable (c : Chan) (sb : Nat) : Bool :=
  let b := c.sbs.getD {} sb
  b.st == 3 && c.valid sb == 0 && (b.movedTo.all fun d => (c.sbs.getD {} d).st != 1 && (c.sbs.getD {} d).st != 2)
    && !(c.ctxs.any fun e => e.2.st != .linger && e.2.loc.any fun l => l / 4096 == sb)
    && !(c.collect.any fun g => g.victim == sb)

/-- GC_ERASE (R203, R206, R208). -/
def execGcErase (ch sb : Nat) (ok : Bool) (s : State) : Out :=
  let c := s.chan ch
  if !s.tlUp ch || c.flushing || !c.erasable sb then .next s
  else if ok then
    let n := (c.sbs.getD {} sb).erases + 1
    let s := s.modSb ch sb fun b => { b with st := 0, erases := n, slots := [], nextPage := 0, hint := 0, reads := 0,
                                             movedTo := [] }
    let s := ((s.journal ch (.erase sb n)).bump .CF_TL_ERASES ch 0 1).noteFree ch
    .next ((s.checkWear ch).checkHealth ch)
  else
    let s := s.setChan ch { c with health := { c.health with eraseFail := c.health.eraseFail + 1 } }
    .next ((s.log (mkErr 0x0206 3 ch ch (sbWord sb) 0 0)).retireSb ch sb)

/-! ### Health and time (R209, R212 to R214) -/

/-- HEALTH_RECHECK (R214). -/
def execHealthRecheck (ch : Nat) (s : State) : Out :=
  let c := s.chan ch
  if c.health.heldNow then
    let s := s.reach (c.lastHealth + 60 * sec)
    .next ((s.setChan ch { c with lastHealth := s.now }).checkHealth ch)
  else .next s

/-- REFRESH_AGE_REACHED (R212). -/
def execRefreshAgeReached (ch sb : Nat) (s : State) : Out :=
  let c := s.chan ch
  let b := c.sbs.getD {} sb
  if s.tlUp ch && b.st == 3 then
    let due := ((b.openTime + 86400 * s.fld fCF_RD_CFG_REFRESH_DAYS ch 0 : Nat) - c.timeOffset : Int).toNat
    .next ((s.reach (due * sec)).queueRefresh ch sb)
  else .next s

/-- Bin of the temperature history: 0 below 10 °C, i from 5i + 5 °C up to 5i + 10 °C, 15 from 80 °C (chapter 10, Health). -/
def hoursBin (t : Int) : Nat := if t < 10 then 0 else min 15 ((t.toNat - 5) / 5)

/-- HEALTH_TEMPERATURE_SAMPLE (R213). -/
def execHealthTemperatureSample (ch : Nat) (temp : Int) (s : State) : Out :=
  let c := s.chan ch
  let h := c.health
  let bin := hoursBin temp
  let top := if h.tempSecs = [] then temp else max h.tempMax temp
  let h := { h with tempMax := top, tempSecs := h.tempSecs.upd 0 bin (· + 1) }
  .next (s.setChan ch { c with temp := temp, health := h })

/-- FLASH_TIME_RECORD (R209): 60 s after the last. -/
def execFlashTimeRecord (ch : Nat) (s : State) : Out :=
  if s.tlUp ch && !(s.chan ch).flushing then
    let s := s.reach ((s.chan ch).timeAt + 60 * sec)
    let s := s.setChan ch { s.chan ch with timeAt := s.now }
    .next (s.journal ch (.time (s.flashTime ch)))
  else .next s

/-- An index version with records, or a table version, is valid. -/
def State.flashInUse (s : State) : Bool :=
  ((List.range 16).any fun n => (List.range 4).any fun v =>
    (s.fld fHQ_IDX_CTL_VALID n 0).testBit v && (s.pjFmt 0 (verKey n v)).code != 0)
  || (List.range 32).any fun t => s.fld fGE_TBL_CTL_VALID t 0 != 0

/-- DATA_SECTORS that a format sets, in units of 496 (R194), at most 2^31. -/
def formatUnits (uMin : Nat) : Nat := min 4329604 (72 * uMin / 100 / 32)

/-- FLASH_FORMAT (R194). -/
def execFlashFormat (goodUnits : List Nat) (s : State) : Out :=
  if s.flashInUse then .next (s.invokeRefused 0x6010 0)
  else
    let good := (List.range 32).map fun n => goodUnits.getD n 0
    let n := formatUnits (good.foldl min (good.headD 0))
    let one := fun (c : Nat) (t : State) =>
      ((t.setFld fCF_CAP_DATA_SECTORS c 0 (496 * n)).setFld fCF_CAP_PARITY_SECTORS c 0 (16 * n)).formatCh c
        (good.getD c 0) false
    .next ((forEach (List.range 32) one s).invokeOk 0x6010 0 [])

/-- FLASH_TIME_SET (R209): one step Δ from the device's flash time, for every channel. The jump is logged as a TIME record in
every journal: R319 lists no error code for it. -/
def execFlashTimeSet (time : Nat) (s : State) : Out :=
  let old := s.deviceTime
  let one := fun (n : Nat) (t : State) =>
    if old < time then
      let d := time - old
      let c := t.chan n
      let later := fun (e : Nat × SBlock) =>
        (e.1, if e.2.thisStart then { e.2 with openTime := e.2.openTime + d } else e.2)
      let t := t.setChan n { c with timeOffset := c.timeOffset + (d : Int), sbs := c.sbs.map later }
      (t.journal n (.time (t.flashTime n))).setFld fCF_TL_STATUS_TIME_CERTAIN n 0 1
    else (t.bump .CF_TL_TIME_REFUSED n 0 1).setFld fCF_TL_STATUS_TIME_CERTAIN n 0 1
  .next ((forEach (List.range 32) one s).invokeOk 0x6012 1 [])

/-! ### The power-loss flush (R201) -/

/-- A cuff die stops writes and background work; a copy or fold whose program has not finished is never committed. Moves in
progress and queued refreshes stand, for the case that service resumes. -/
def State.startFlush (n : Nat) (s : State) : State :=
  let c := s.chan n
  let work := fun (e : Nat × List PlaneOp) => (e.1, e.2.filter (·.cls != 3))
  let c := { c with flushing := true, foldPending := [], collect := c.collect.map fun g => { g with pend := none }
                    planeQ := c.planeQ.map work, planeBusy := c.planeBusy.filter fun e => e.2.cls != 3 }
  (s.setChan n c).noteFree n

/-- Service resumes after a flush whose power did not fall. -/
def State.endFlush (n : Nat) (s : State) : State :=
  let s := (s.setChan n { s.chan n with flushing := false }).setFld fCF_TL_STATUS_FLUSH_DONE n 0 0
  (s.issueCopy n 64).nextRefresh n

/-- FLUSH_COMPLETE (R201). -/
def execFlushComplete (ch : Nat) (s : State) : Out :=
  let c := s.chan ch
  if c.flushing && !s.isOn fCF_TL_STATUS_FLUSH_DONE ch 0 then
    let s := s.flushStaging ch
    let s := s.setChan ch { s.chan ch with ckptHealth := (s.chan ch).health }
    let s := ((s.journal ch (.clean (s.flashTime ch))).programStaging ch).setFld fCF_TL_STATUS_FLUSH_DONE ch 0 1
    .next (if s.pins.pwrLossN then s.endFlush ch else s)
  else .next s

end Sys2Proof.Machine
end

