-- ==== Sys2Proof/Machine/Updates.lean ====
section
/-! DEFINITION. The update commands (08): INSERT, DELETE, REWRITE, BITS_SET, BITS_CLEAR and LIST_COPY, their group forms
(R171, R263), the durability of records (R46), and the retire queue (R163, R165). -/

namespace Sys2Proof.Machine

/-! ### Checks shared by every update (R159) -/

/-- The checks made before any entry is read: the status, and the captured version. -/
def State.updStatus (s : State) (c : Nat) (m : Cmd) : Nat × Nat :=
  let b := m.bytes
  let op := dOpcode b
  let n := uIndex b
  let v := s.capture n (uNamed b) (uVersion b)
  let k := verKey n (v.getD 0)
  let x := s.version k
  let makes := op == 0x10 || op == 0x12
  let bad := !updateOk b || !s.isOn fHQ_IDX_CTL_ENABLE n 0
    || ((op == 0x13 || op == 0x14) && !x.stdMask.getLsbD (uBitmap b))
    || (op == 0x15 && (x.succ.isNone || decide (x.count ≤ uCount b)))
    || (makes && uForm b == 0 && !s.isOn fPJ_MAT_SIGN_EN (s.pickHome (s.ctxPn c)) k)
  (worst [(bad, stInvalid), (v.isNone, stBadVersion)], k)

/-- A read of the entries from host memory has failed (R238). -/
def State.updReadErr (c : Nat) (m : Cmd) (s : State) : State :=
  let f := (Config.free s.freeCount).toNat
  let r := s.draw.hostDmaErr (s.ctxPort c) (uEntryAddr m.bytes) f
  r.1.endPart c m { status := stInvalid, errSeq := r.2 }

/-! ### Lists that take new slots must be resident (R224) -/

/-- Bring one list to RESIDENT for a tenant: 0 it is, 1 it is being promoted, 2 refused. -/
def State.wantList (t k cl : Nat) (s : State) : Nat × State :=
  match ((s.version k).list cl).rstate with
  | 0 => (0, s)
  | 1 => (1, s)
  | 2 =>
    let s := s.takeover k cl t false
    if ((s.version k).list cl).rstate = 0 then (0, s) else (2, s.bump .TN_QUOTA_REFUSED t 0 1)
  | _ =>
    let r := s.startPromotion k cl t 2 false false
    (if r.1 then 1 else 2, r.2)

/-- The same for several lists: the worst of the answers. -/
def State.wantLists (t : Nat) (ls : List (Nat × Nat)) (s : State) : Nat × State :=
  ls.foldl (fun acc l => let r := acc.2.wantList t l.1 l.2; (max acc.1 r.1, r.2)) (0, s)

/-- Count a refusal of what would make `s` into `after`, and complete. -/
def State.quotaRefused (c : Nat) (m : Cmd) (s after : State) : State :=
  (s.noteRefused after).endPart c m (Res.of stQuota)

/-! ### INSERT and REWRITE (R161, R163) -/

/-- Slots that a REWRITE's entries retire. -/
def retiredOf (op : Nat) (es : List UEntry) : List Nat :=
  if op = 0x12 then es.flatMap fun e => e.oldA :: (if e.oldB = refNone then [] else [e.oldB]) else []

/-- Flash units that placed slots may take, by tenant: one for each record (R159). -/
def State.flashNeeds (s : State) (p : Placed) : Tbl Nat :=
  (p.slots.filter fun n => !n.durable).foldl (fun t n => t.upd 0 (s.version n.ver).owner (· + 1)) []

/-- Reserve them. -/
def State.reserve (p : Placed) (s : State) : State := forEach (s.flashNeeds p) (fun e t => t.addCharge e.1 1 e.2) s

/-- Start writing placed slots, their flash units reserved: those without a flash record are written at once, the others when
their record is durable (R46, R159, R161). -/
def State.startJob (c k : Nat) (m : Cmd) (count : Nat) (retire : List Nat) (p : Placed) (s : State) : State :=
  let j : UpdJob := { seq := m.seq, ctx := c, ver := k, opcode := dOpcode m.bytes, count := count,
                      slots := p.slots, retire := retire, records := p.records, reserved := s.flashNeeds p }
  let s := s.reserve p
  let s := (({ s with idx := { s.idx with updates := s.idx.updates ++ [j] } }).holdRef k).writeReady j
  let s := forEach ((List.range p.slots.length).zip p.slots |>.filter fun e => !e.2.durable) (fun e t =>
    let n := e.2
    let die := ((t.version n.ver).list n.cluster).die
    let r : AppendReq := { seq := m.seq, slotIx := e.1, ver := n.ver, cluster := n.cluster, die := die,
                           tenant := (t.version n.ver).owner, record := n.record }
    { t with fl := { t.fl with appendQ := t.fl.appendQ.upd [] die (· ++ [r]) } }) s
  s.settleJob m.seq

/-- INSERT or REWRITE with its version captured and its body checked: of an invalid entry and a quota that the others exceed,
the higher status (R13, R159). Encodes that wait at the die come first (R130). -/
def State.runMake (c k : Nat) (m : Cmd) (s : State) : State :=
  let op := dOpcode m.bytes
  let form := uForm m.bytes
  let die := s.pickHome (s.ctxPn c)
  let s := if form = 0 then s.serveEncodes die (s.qry.encodeQ.getD [] die).length else s
  let es := s.entries c k die m
  let retire := retiredOf op es
  let good := ((List.range es.length).zip es).filter fun e => s.makeOk k die op form e.2
  let place := fun (t : State) => t.placeEntries k die op form (t.ctx c).key good {}
  let placed := place s
  let after := (placed.map fun r => r.2.reserve r.1).getD s
  let bad := decide (good.length < es.length) || decide (65536 < retire.length) || placed.isNone
  let st := worst [(bad, stInvalid), (!chargesFit s after, stQuota)]
  if st = stQuota then s.quotaRefused c m after
  else if st ≠ 0 then s.endPart c m (Res.of st)
  else if retireRoom s < s.retireNeeds k retire then
    let s := if m.waited then s else s.bump .HQ_UPD_RETIRE_WAIT 0 0 1
    s.modCmd c m.seq fun x => { x with admitted := none, waited := true }
  else
    let lists := placed.elim [] fun r => (r.1.slots.map fun n => (n.ver, n.cluster)).eraseDups
    let r := s.wantLists (s.ctxTenant c) lists
    match r.1 with
    | 0 => match place r.2 with
      | some (p, t) => t.startJob c k m es.length retire p
      | none => r.2.endPart c m (Res.of stInvalid)
    | 1 => r.2.waitAtAdmission c m
    | _ => r.2.endPart c m (Res.of stQuota)

/-! ### DELETE and the bitmap writes (R162, R94) -/

/-- Set the tombstone of a slot that has none. -/
def State.tombOnce (k ref : Nat) (s : State) : State :=
  if (s.version k).tomb.contains (refOrd ref) then s else s.tombstone k ref

/-- One DELETE entry, with its mirror (R162, R169). -/
def State.deleteOne (k ref : Nat) (s : State) : State :=
  if (s.version k).tomb.contains (refOrd ref) then s.bump .HQ_UPD_REDUNDANT 0 0 1 else s.withMirror State.tombOnce k ref

/-- DELETE, BITS_SET or BITS_CLEAR: each entry in order, then the visibility point. -/
def State.runMarks (c k : Nat) (m : Cmd) (s : State) : State :=
  let op := dOpcode m.bytes
  let j := uBitmap m.bytes
  let refs := (s.entries c k 0 m).map (·.oldA)
  if !(refs.all (s.version k).refIn) then s.endPart c m (Res.of stInvalid)
  else
    let one := fun (ref : Nat) (t : State) =>
      if op = 0x11 then t.deleteOne k ref
      else if op = 0x13 then t.withMirror (State.setStd j) k ref
      else t.withMirror (State.clearStd j) k ref
    (forEach refs one (s.holdRef k)).visible c k m [] { info := refs.length }

/-! ### LIST_COPY (R170) -/

/-- Copy the slots of a list in order. -/
def State.copyList (k k' cl : Nat) (reassign : Bool) : List (Nat × Code) → List (Nat × Nat) → State →
    Option (List (Nat × Nat) × State)
  | [], acc, s => some (acc, s)
  | (ord, code) :: rest, acc, s =>
    match s.copySlot k k' cl reassign ord code with
    | none => none
    | some (r, t) => State.copyList k k' cl reassign rest (acc ++ r) (t.bump .HQ_UPD_COPIED 0 0 r.length)

/-- Filled slots of a list in increasing SEQ: ordinal and code. -/
def slotsOfList (l : IList) : List (Nat × Code) :=
  l.blocks.flatMap fun b => (List.range b.fill).map fun i => (b.ordBase + i, b.codes.getD 0 i)

/-- LIST_COPY with its checks made. -/
def State.runCopy (c k : Nat) (m : Cmd) (s : State) : State :=
  let cl := uCount m.bytes
  let k' := verKey (k / 4) (((s.version k).succ).getD 0)
  let slots := slotsOfList ((s.version k).list cl)
  let copy := fun (t : State) => t.copyList k k' cl (uReassign m.bytes) slots []
  match copy s with
  | none => s.endPart c m (Res.of stInvalid)
  | some (ps, t) =>
    if !chargesFit s t then s.quotaRefused c m t
    else
      let r := s.wantLists (s.ctxTenant c) (ps.map fun p => (k', refCluster p.2)).eraseDups
      match r.1 with
      | 0 => match copy ((r.2.holdRef k).holdRef k') with
        | some (ps, t) =>
          (t.releaseRef k').visible c k m []
            { info := ps.length, records := pairBytes ps, count := ps.length, slots := ps.map fun p => (k', p.2) }
        | none => r.2.endPart c m (Res.of stInvalid)
      | 1 => r.2.waitAtAdmission c m
      | _ => r.2.endPart c m (Res.of stQuota)

/-! ### Group updates (R171, R263) -/

/-- An update with its entries at hand. -/
def State.runUpdate (c : Nat) (readOk : Bool) (m : Cmd) (s : State) : State :=
  let p := s.updStatus c m
  let op := dOpcode m.bytes
  if p.1 ≠ 0 then s.endPart c m (Res.of p.1)
  else if op = 0x15 then s.runCopy c p.2 m
  else if !readOk && m.inlined == [] then s.updReadErr c m
  else if op = 0x10 ∨ op = 0x12 then s.runMake c p.2 m
  else s.runMarks c p.2 m

/-- The descriptor of a replica's part: no GROUP, no shard, no signal, FORM 1. -/
def subUpdate (b : List Byte) : List Byte :=
  let makes := dOpcode b == 0x10 || dOpcode b == 0x12
  let b := patch b 1 (leBytes 1 (fieldAt b 1 1 / 64 % 2 * 64))
  let b := patch b 2 (leBytes 2 0)
  let b := patch b 8 (leBytes 8 0)
  let b := patch b 0x11 (leBytes 1 (fieldAt b 0x11 1 % 2))
  let b := patch b 0x18 (leBytes 8 0)
  let b := patch b 0x20 (leBytes 1 (if makes then 1 else 0))
  let b := patch b 0x22 (leBytes 2 0)
  patch b 0x28 (leBytes 8 0)

/-- Entries and vector data as the head sends them: FORM 0 vectors encoded once (R128, R171). -/
def State.groupBlock (c k : Nat) (m : Cmd) (s : State) : List Byte × State :=
  let op := dOpcode m.bytes
  let die := s.pickHome (s.ctxPn c)
  let s := if uForm m.bytes = 0 then s.serveEncodes die (s.qry.encodeQ.getD [] die).length else s
  let raw := s.rdN (s.ctxPort c) (uEntryAddr m.bytes) (entrySize op * uCount m.bytes)
  if op = 0x10 ∨ op = 0x12 then
    let es := s.entries c k die m
    let key := (s.ctx c).key
    let b := s.codeBits (k / 4) / 8
    es.foldl (fun acc e =>
      if uForm m.bytes = 0 then
        let r := acc.2.encodeEntry k die 0 key e
        (acc.1 ++ leBytes b r.1.1.toNat ++ r.1.2, r.2)
      else (acc.1 ++ e.data, acc.2)) (raw, s)
  else (raw, s)

/-- Fan an update out to every live and copying replica; the head's own replica takes its part here (R171). -/
def State.phaseUpdate (g : GroupJob) (s : State) : State :=
  let live := (s.liveReplicas g.shard).map fun r => ((s.replica g.shard r).2, [g.shard])
  let all := s.replicaMembers g.shard
  let sub := subUpdate g.bytes
  let msg := leBytes 8 g.key.toNat ++ sub ++ g.block
  let s := s.setGroup { g with awaited := live, fanned := true, shards := [g.shard] }
  let s := forEach (all.filter (· != s.selfMember)) (fun mb t => t.postSend (t.memberConn mb) 3 g.yellow msg (some g.seq)) s
  let s := match s.group? g.seq with
    | some g => s.park g
    | none => s
  let s := match s.cmd? g.ctx g.seq, all.contains s.selfMember with
    | some m, true => s.runUpdate g.ctx true { m with bytes := sub, inlined := g.block }
    | _, _ => s
  s.settleGroup g.seq

/-- The vectors that the head of a group update encodes have no NaN and no infinity (R130). -/
def State.vectorsOk (s : State) (c k : Nat) (m : Cmd) : Bool :=
  let op := dOpcode m.bytes
  !(op == 0x10 || op == 0x12) || uForm m.bytes != 0
    || (s.entries c k (s.pickHome (s.ctxPn c)) m).all fun e => allFinite (halves e.data)

/-- Admit a group update: its shard must have a live replica (R263). -/
def State.admitGroupUpdate (c : Nat) (readOk : Bool) (m : Cmd) (s : State) : State :=
  let b := m.bytes
  let sh := dShard b
  let p := s.updStatus c m
  let none_ := !s.isOn fHQ_GRP_SHARD_V sh 0 || s.liveReplicas sh == []
  let st := max p.1 (if none_ then stInvalid else 0)
  if st ≠ 0 then s.finish c m.seq (Res.of st)
  else if !readOk then s.updReadErr c m
  else if !s.vectorsOk c p.2 m then s.finish c m.seq (Res.of stInvalid)
  else
    let r := s.groupBlock c p.2 m
    let g : GroupJob := {
      seq := m.seq, ctx := c, commandId := dCommandId b, opcode := dOpcode b,
      tenant := s.ctxTenant c, admitTime := s.now, shard := sh, key := s.nextKey,
      sync := if uSyncEn b then some (uSync b, uSyncValue b) else none, bytes := b, block := r.1, ver := p.2,
      yellow := m.yellow }
    r.2.openGroup g State.phaseUpdate

/-- Admission of an update; a head's own part that waited comes back with its entries. -/
def State.admitUpdate (readOk : Bool) (c : Nat) (m : Cmd) (s : State) : State :=
  match s.group? m.seq with
  | some g => s.runUpdate c true { m with bytes := subUpdate m.bytes, inlined := g.block }
  | none => if dGroup m.bytes then s.admitGroupUpdate c readOk m else s.runUpdate c readOk m

/-- The waiting update of a context with one of these opcodes. -/
def State.updateFront (c : Nat) (op : Nat) (readOk : Bool) (s : State) : State :=
  (s.admitFront c [op] (fun m t => (t.updStatus c m).1) (State.admitUpdate readOk c)).admitBad c 65536

/-! ### Commands -/

/-- INSERT (R161). -/
def execInsert (c : Nat) (readOk : Bool) (s : State) : Out := .next (s.updateFront c 0x10 readOk)

/-- DELETE (R162). -/
def execDelete (c : Nat) (readOk : Bool) (s : State) : Out := .next (s.updateFront c 0x11 readOk)

/-- REWRITE (R163). -/
def execRewrite (c : Nat) (readOk : Bool) (s : State) : Out := .next (s.updateFront c 0x12 readOk)

/-- BITS_SET (R94). -/
def execBitsSet (c : Nat) (readOk : Bool) (s : State) : Out := .next (s.updateFront c 0x13 readOk)

/-- BITS_CLEAR (R162). -/
def execBitsClear (c : Nat) (readOk : Bool) (s : State) : Out := .next (s.updateFront c 0x14 readOk)

/-- LIST_COPY (R170). -/
def execListCopy (c : Nat) (s : State) : Out := .next (s.updateFront c 0x15 true)

/-- FLASH_RECORD_DURABLE (R46): the slot's sidecar is written with V = 1, and the slot with it (R41), once those before it of
its entry are (R161). -/
def execFlashRecordDurable (ch : Nat) (s : State) : Out :=
  let c := s.chan ch
  match c.acks with
  | [] => .next s
  | (seq, i, sc) :: rest =>
    let s := s.setChan ch { c with acks := rest }
    match s.job? seq with
    | none => .next s
    | some j => match j.slots[i]? with
      | none => .next s
      | some n =>
        let j := { j with slots := j.slots.set i { n with durable := true, sidecar := sc } }
        .next ((s.writeReady j).settleJob seq)

/-- RETIRED_SLOT_TOMBSTONE (R165, R169): the first of the queue, once no query that captured its version before its
visibility point is left. -/
def execRetiredSlotTombstone (s : State) : Out :=
  match s.idx.retireQ with
  | [] => .next s
  | r :: rest =>
    if r.waits.any fun q => (s.query q).isSome then .next s
    else
      let s := { s with idx := { s.idx with retireQ := rest } }
      .next ((s.withMirror State.tombOnce r.ver r.ref).releaseRef r.ver)

/-- RETIRE_LATE_EXPIRY (R165): 1 s after the visibility point of the first slot not yet counted. -/
def execRetireLateExpiry (s : State) : Out :=
  match s.idx.retireQ.find? fun r => !r.late with
  | none => .next s
  | some r =>
    let s := s.reach (r.vis + sec)
    let due := fun (r : Retired) => !r.late && decide (r.vis + sec ≤ s.now)
    let n := (s.idx.retireQ.filter due).length
    let q := s.idx.retireQ.map fun r => if due r then { r with late := true } else r
    .next (State.bump .HQ_UPD_RETIRE_LATE 0 0 n { s with idx := { s.idx with retireQ := q } })

end Sys2Proof.Machine
end

