-- ==== Sys2Proof/Machine/Builds.lean ====
section
/-! DEFINITION. Index versions made, switched and freed: DEFINE_BITMAP, INDEX_BUILD, INDEX_RETIRE, the freeing of a retired
version, and the switch (R29, R43, R48 to R50, R93, R169, R407, R409, R410). -/

namespace Sys2Proof.Machine

/-! ### DEFINE_BITMAP (R93) -/

/-- DRAM of one standing bitmap of a version, over all dies, in 4 KiB units. -/
def Version.bitmapUnits (x : Version) : Nat :=
  (List.range 5).foldl (fun n d => n + kib4 ((x.ordHi.getD d 0 - x.ordLo.getD d 0) / 8)) 0

/-- Ordinals of a version on a die. -/
def Version.rangeOf (x : Version) (d : Nat) : Nat := x.ordHi.getD d 0 - x.ordLo.getD d 0

/-- The i-th place from now for a bitmap over a die's range, whose words are aligned (R47). -/
def State.bitmapAt (s : State) (x : Version) (d i : Nat) : Nat := s.placeAt i (2 ^ 40) (x.rangeOf d / 8) 32

/-- Change the version record of every die. -/
def Version.mapRecs (x : Version) (f : Nat → DieRec → DieRec) : Tbl DieRec :=
  (List.range 5).map fun d => (d, f d (x.recs.getD {} d))

/-- Define a bitmap on a version, unless it is there. -/
def State.defineStd (j k : Nat) (s : State) : State :=
  let x := s.version k
  if x.stdMask.getLsbD j then s
  else
    let n := x.bitmapUnits
    let at_ := fun (d : Nat) (r : DieRec) => { r with stdBase := r.stdBase.put j (s.bitmapAt x d d) }
    ((s.addCharge x.owner 0 n).setVersion k
      { x with stdMask := x.stdMask ||| BitVec.ofNat 16 (2 ^ j), charged := x.charged + n, recs := x.mapRecs at_ }).draws 5

/-- A charge made by a whole command passes, or the command is refused (R217). -/
def State.orQuota (c : Nat) (m : Cmd) (r : Res) (s after : State) : State :=
  if chargesFit s after then after.gFinish c m r else (s.noteRefused after).finish c m.seq (Res.of stQuota)

/-- Define a bitmap on a version and on its successor (R93, R169). -/
def State.withBitmap (j k : Nat) (s : State) : State :=
  match (s.version k).succ with
  | some v => (s.defineStd j k).defineStd j (verKey (k / 4) v)
  | none => s.defineStd j k

/-- The version that DEFINE_BITMAP names, and the status of its checks (R93, R13). -/
def State.defineStatus (s : State) (m : Cmd) : Nat × Nat :=
  let b := m.bytes
  let v := s.capture (gTarget b) (gNamed b) (gVersion b)
  let k := verKey (gTarget b) (v.getD 0)
  (k, worst [(!generalOk b || (v.isSome && (s.version k).stdMask.getLsbD (gArg b)), stInvalid), (v.isNone, stBadVersion),
    (v.isSome && !chargesFit s (s.withBitmap (gArg b) k), stQuota)])

def State.admitDefine (c : Nat) (m : Cmd) (s : State) : State :=
  let p := s.defineStatus m
  if p.2 ≠ 0 ∧ p.2 ≠ stQuota then s.finish c m.seq (Res.of p.2)
  else s.orQuota c m {} (s.withBitmap (gArg m.bytes) p.1)

/-- DEFINE_BITMAP (R93). -/
def execDefineBitmap (c : Nat) (s : State) : Out :=
  .next ((s.admitFront c [0x18] (fun m t => (t.defineStatus m).2) (State.admitDefine c)).admitBad c 65536)

/-! ### INDEX_BUILD (R409) -/

/-- Place the clusters that the host left to the device, in increasing number, each on the die in service with the most
free DRAM less what this build has placed there (R43). The host's own placements are counted from the start. -/
def placeRest (free : List Nat) (e : Nat) (dies : List Nat) : List (Option Nat) → List Nat → List Nat
  | [], _ => []
  | some d :: ps, on => d :: placeRest free e dies ps on
  | none :: ps, on =>
    let left := fun (d : Nat) => (free.getD d 0 : Int) - (e * on.getD d 0 : Nat)
    let d := (dies.foldl (fun o d => match o with
      | none => some d
      | some b => if left b < left d then some d else some b) none).getD 0
    d :: placeRest free e dies ps (on.set d (on.getD d 0 + 1))

/-- Ordinal ranges of the five dies: first ordinals and ends (R48). -/
def dieRanges (u : Nat) : List Nat × List Nat :=
  let ends := (List.range 5).map fun d => ((List.range (d + 1)).map fun i => 65536 * rangeUnits u i).foldl (· + ·) 0
  (0 :: ends.take 4, ends)

/-- DRAM that INDEX_BUILD charges for a version, over all dies. -/
def buildUnits (u n std : Nat) : Nat :=
  (List.range 5).foldl (fun m d => m + fixedUnits (65536 * rangeUnits u d) n std false) 0

/-- DRAM of the forward map of a version (R169). -/
def Version.fwdUnits (x : Version) : Nat :=
  (List.range 5).foldl (fun m d => m + kib4 (16 * (x.ordHi.getD d 0 - x.ordLo.getD d 0))) 0

/-- The limits of R29 on a new version: clusters, ordinals, the device's sum of ordinals, and the centroid store. -/
def State.buildFits (s : State) (n u count : Nat) : Bool :=
  let sum := (List.range 16).foldl (fun a i => (List.range 4).foldl (fun a v =>
    if s.idxValid i v then a + s.fld fHQ_IDX_LIM_ORD_LIMIT_64K i v else a) a) 0
  let cents := s.idx.versions.foldl (fun a e => a + e.2.count * (s.centBits (e.1 / 4) / 8)) 0
  decide (1 ≤ count) && decide (count ≤ 2 ^ 20) && decide (1 ≤ u) && decide (u ≤ 131072)
    && decide (sum + u ≤ 131072) && decide (cents + count * (s.centBits n / 8) ≤ 2 ^ 25)

/-- Bytes of a placement: every one names a die or leaves the choice to the device. -/
def placement (bs : List Byte) : Option (List (Option Nat)) :=
  if bs.all fun b => decide (b.toNat ≤ 4) || b == 0xFF then
    some (bs.map fun b => if b = 0xFF then none else some b.toNat)
  else none

/-- Place the objects that INDEX_BUILD allocates on a die, the first with the free value at index `i` (R48). -/
def State.dieRec (s : State) (x : Version) (i d : Nat) : DieRec :=
  let r := x.rangeOf d
  let n := x.count
  { placeBase := s.placeAt i (2 ^ 40) n 1, dirBase := s.placeAt (i + 1) (2 ^ 40) (32 * n) 16,
    idmapBase := s.placeAt (i + 2) (2 ^ 40) (8 * r) 8, sidecarBase := s.placeAt (i + 3) (2 ^ 40) (8 * r) 8,
    tombBase := s.bitmapAt x d (i + 4), aliasBase := s.bitmapAt x d (i + 5),
    stdBase := ((List.range 16).filter x.stdMask.getLsbD).map fun j => (j, s.bitmapAt x d (i + 6 + j)) }

/-- Create the version in slot `v` (R409 steps 1 to 4). -/
def State.buildVersion (n v u num tenant : Nat) (cents : List Code) (place : List Nat) (std : BitVec 16) (s : State) :
    State :=
  let r := dieRanges u
  let units := buildUnits u cents.length (popcount16 std)
  let cb := s.centBits n / 8
  let x : Version := {
    holds := true, owner := tenant, centBase := s.placeAt 1 (2 ^ 25) (cb * cents.length) cb, cents := cents,
    place := place, ordLo := r.1, ordHi := r.2, ordNext := r.1, stdMask := std, charged := units }
  let x := { x with recs := (List.range 5).map fun d => (d, s.dieRec x (2 + 22 * d) d) }
  let rec_ := s.placeAt 0 (2 ^ 40) 256 64 / 64
  let s := ((s.draws 112).addCharge tenant 0 units).setVersion (verKey n v) x
  let s := (s.setFld fHQ_IDX_VER_VERSION n v num).setFld fHQ_IDX_VER_REC_ADDR n v rec_
  let s := s.setFld fHQ_IDX_LIM_ORD_LIMIT_64K n v u
  s.setFld fHQ_IDX_CTL_VALID n 0 (setBit (s.fld fHQ_IDX_CTL_VALID n 0) v true)

/-- Make `v'` the successor of `v`, with its forward map (R169). -/
def State.makeSuccessor (n v v' : Nat) (reassign : Bool) (s : State) : State :=
  let x := s.version (verKey n v)
  let units := if x.succ.isSome then 0 else x.fwdUnits
  let at_ := fun (d : Nat) (r : DieRec) => { r with fwdBase := s.placeAt d (2 ^ 40) (16 * x.rangeOf d) 16 }
  ((s.addCharge x.owner 0 units).setVersion (verKey n v)
    { x with succ := some v', reassign := reassign, fwdSlot := [], fwdCanon := [], charged := x.charged + units,
             recs := x.mapRecs at_ }).draws 5

/-- The version slots of an index that hold a version, and the first that is free for a build. -/
def State.heldSlots (s : State) (n : Nat) : List Nat := (List.range 4).filter fun v => (s.version (verKey n v)).holds
def State.freeSlot (s : State) (n : Nat) : Option Nat := firstFit (fun v => !(s.heldSlots n).contains v) 4

/-- The status of the checks of INDEX_BUILD that need no array (R409, R13). -/
def State.buildStatus (s : State) (m : Cmd) : Nat :=
  let b := m.bytes
  let n := gTarget b
  let bad := !generalOk b || !s.isOn fHQ_IDX_CTL_ENABLE n 0 || decide (s.codeBits n < s.centBits n)
    || (gOptB b && !gOptA b) || (s.heldSlots n).any (fun v => s.fld fHQ_IDX_VER_VERSION n v == gVersion b)
    || (s.freeSlot n).isNone || !s.buildFits n (gArg b / 2 ^ 14) (gCount b)
  worst [(bad, stInvalid), (gOptA b && !s.idxValid n (s.fld fHQ_IDX_CTL_CURRENT n 0), stBadVersion)]

def State.admitBuild (readOk : Bool) (c : Nat) (m : Cmd) (s : State) : State :=
  let b := m.bytes
  let n := gTarget b
  let u := gArg b / 2 ^ 14
  let count := gCount b
  let num := gVersion b
  let slot := s.freeSlot n
  let cur := s.fld fHQ_IDX_CTL_CURRENT n 0
  let std := if gOptA b then (s.version (verKey n cur)).stdMask else 0
  let st := s.buildStatus m
  if st ≠ 0 then s.finish c m.seq (Res.of st)
  else if !readOk then
    let f := (Config.free s.freeCount).toNat
    let r := s.draw.hostDmaErr (s.ctxPort c) (gAddrA b) f
    r.1.finish c m.seq { status := stInvalid, errSeq := r.2 }
  else
    let cb := s.centBits n / 8
    let p := s.ctxPort c
    let cents := (List.range count).map fun i => (BitVec.ofNat 1024 (leNat (s.rdN p (gAddrA b + cb * i) cb)) : Code)
    let given := if gAddrB b = 0 then some (List.replicate count none) else placement (s.rdN p (gAddrB b) count)
    match given with
    | none => s.finish c m.seq (Res.of stInvalid)
    | some given =>
      let v := slot.getD 0
      let tenant := s.ctxTenant c
      let own := fun (d : Nat) => fixedUnits (65536 * rangeUnits u d) count (popcount16 std) false
      let free := (List.range 5).map fun d => 4096 * (s.freeOn d - own d)
      let e := (65536 * u + count - 1) / count * (s.codeBits n / 8)
      let on := (List.range 5).map fun d => (given.filter (· == some d)).length
      let t := s.buildVersion n v u num tenant cents (placeRest free e s.diesUp given on) std
      let t := if gOptA b then t.makeSuccessor n cur v (gOptB b) else t
      s.orQuota c m { info := v } t

/-- INDEX_BUILD (R409). -/
def execIndexBuild (c : Nat) (readOk : Bool) (s : State) : Out :=
  .next ((s.admitFront c [0x19] (fun m t => t.buildStatus m) (State.admitBuild readOk c)).admitBad c 65536)

/-! ### INDEX_RETIRE and the freeing of a version (R410) -/

/-- Open sectors of a version are committed when it is being retired (R187). -/
def State.commitVersion (k : Nat) (s : State) : State :=
  forEach (List.range 32) (fun n t =>
    forEach ((t.chan n).openS.filter fun o => o.ver == k && !o.closing) (fun o u => u.commitOpen n o) t) s

/-- The version slot that INDEX_RETIRE names, and the status of its checks (R410, R13). -/
def State.retireStatus (s : State) (m : Cmd) : Option Nat × Nat :=
  let b := m.bytes
  let n := gTarget b
  let v := firstFit (fun v => (s.version (verKey n v)).holds && s.fld fHQ_IDX_VER_VERSION n v == gVersion b
    && !s.idxRetiring n v) 4
  let current := v.any fun v => s.idxValid n v && s.fld fHQ_IDX_CTL_CURRENT n 0 == v
  (v, worst [(!generalOk b || current, stInvalid), (v.isNone, stBadVersion)])

def State.admitRetire (c : Nat) (m : Cmd) (s : State) : State :=
  let n := gTarget m.bytes
  let st := (s.retireStatus m).2
  match (s.retireStatus m).1 with
  | some v =>
    if st ≠ 0 then s.finish c m.seq (Res.of st)
    else
      let s := s.setFld fHQ_IDX_CTL_RETIRING n 0 (setBit (s.fld fHQ_IDX_CTL_RETIRING n 0) v true)
      (s.modVersion (verKey n v) fun x => { x with retireCmd := some m.seq }).commitVersion (verKey n v)
  | none => s.finish c m.seq (Res.of st)

/-- INDEX_RETIRE (R410). -/
def execIndexRetire (c : Nat) (s : State) : Out :=
  .next ((s.admitFront c [0x1A] (fun m t => (t.retireStatus m).2) (State.admitRetire c)).admitBad c 65536)

/-- The context and command of a sequence number. -/
def State.ownerOf (s : State) (seq : Nat) : Option (Nat × Cmd) :=
  s.hq.ctxs.findSome? fun e => (e.2.cmds.find? (·.seq == seq)).map fun m => (e.1, m)

/-- Free what one list of a version holds: DRAM blocks, lower copies; its waiting commands find no version. -/
def State.freeList (k : Nat) (l : IList) (s : State) : State :=
  let owner := (s.version k).owner
  let n := blockUnits (s.codeBits (k / 4))
  let s := if l.rstate = 3 then s else s.dropCharge l.holder 0 (s.listUnits k l)
  let low := l.blocks.filterMap (·.low)
  let s := (s.dropCharge owner l.lowTier (lowCharge l.lowTier n * low.length)).dropCharge owner 0 l.lowTabUnits
  let s := if l.lowTier = 1 then
      forEach low (fun a t => t.releaseLsns (lowCh a) ((List.range n).map (lowLsn a + ·))) s
    else s
  forEach l.movers (fun m t => t.finish m.1 m.2 (Res.of stBadVersion)) s

/-- Sidecars of a version name a record in a sector. -/
def Version.names (x : Version) (sec : Nat × Nat) : Bool :=
  x.holds && x.sidecar.any fun e => scV e.2 && scCh e.2 == sec.1 && scLsn e.2 == sec.2

/-- Release a sector of records, or leave it charged to a version of the index that still names it (R407). -/
def State.freeSector (k : Nat) (sec : Nat × Nat) (s : State) : State :=
  let owner := (s.version k).owner
  let heir := (List.range 4).find? fun v =>
    verKey (k / 4) v != k && (s.version (verKey (k / 4) v)).names sec
  let s := s.dropCharge owner 1 1
  match heir with
  | some v =>
    let k' := verKey (k / 4) v
    (s.addCharge (s.version k').owner 1 1).modVersion k' fun x => { x with sectors := x.sectors ++ [sec] }
  | none => s.releaseLsns sec.1 [sec.2]

/-- End the successor relation of a version whose successor is slot `v`. -/
def State.dropSuccessor (k v : Nat) (s : State) : State :=
  let x := s.version k
  if x.succ = some v then
    (s.dropCharge x.owner 0 x.fwdUnits).setVersion k
      { x with succ := none, reassign := false, fwdSlot := [], fwdCanon := [], charged := x.charged - x.fwdUnits }
  else s

/-- Free a version's objects, its forward map and its successor relations, with their charges. -/
def State.freeVersion (n v : Nat) (s : State) : State :=
  let k := verKey n v
  let x := s.version k
  let s := forEach x.lists.vals (State.freeList k) s
  let s := forEach x.sectors (State.freeSector k) s
  let s := s.dropCharge x.owner 0 x.charged
  let s := forEach (List.range 4) (fun w t => t.dropSuccessor (verKey n w) v) s
  let keep := fun (e : KeptLog) =>
    { e with slots := e.slots.filter (·.1 != k), retired := e.retired.filter (·.1 != k) }
  let s := { s with idx := { s.idx with versions := s.idx.versions.del k, updateLog := s.idx.updateLog.map keep } }
  let s := s.setReg .HQ_IDX_CTL n 0 (Fld.put fHQ_IDX_CTL_RETIRING
    (Fld.put fHQ_IDX_CTL_VALID (s.reg .HQ_IDX_CTL n 0) (setBit (s.fld fHQ_IDX_CTL_VALID n 0) v false))
    (setBit (s.fld fHQ_IDX_CTL_RETIRING n 0) v false))
  match x.retireCmd.bind s.ownerOf with
  | some (c, m) => s.gFinish c m {}
  | none => s

/-- VERSION_FREE (R410). -/
def execVersionFree (n v : Nat) (s : State) : Out :=
  if s.idxRetiring n v && s.syVal (s.fld fHQ_IDX_VER_REF_SYNC n v) == 0 then .next (s.freeVersion n v) else .next s

/-! ### The switch (R49, R50) -/

/-- A write of HQ_IDX_CTL that would change it from `old` to `new` breaks R50. -/
def State.switchBad (s : State) (n : Nat) (old new : W64) : Bool :=
  let valid := fun (w : W64) (v : Nat) => (Fld.get fHQ_IDX_CTL_VALID w).testBit v
  let cur := Fld.get fHQ_IDX_CTL_CURRENT old
  let cur' := Fld.get fHQ_IDX_CTL_CURRENT new
  let holds := fun (v : Nat) => (s.version (verKey n v)).holds
  let num := fun (v : Nat) => s.fld fHQ_IDX_VER_VERSION n v
  let sets := (List.range 4).filter fun v => valid new v && !valid old v
  let clears := (List.range 4).filter fun v => valid old v && !valid new v
  (valid old cur && !valid new cur')
    || sets.any (fun v => !holds v)
    || (s.idxRetiring n cur' && (cur' != cur || valid new cur'))
    || sets.any (fun v => (List.range 4).any fun w => w != v && valid new w && num w == num v)
    || ((Fld.get fHQ_IDX_CTL_CODE_LEN old != Fld.get fHQ_IDX_CTL_CODE_LEN new
        || Fld.get fHQ_IDX_CTL_CENT_LEN old != Fld.get fHQ_IDX_CTL_CENT_LEN new) && (List.range 4).any holds)
    || clears.any (fun v => v == cur || s.syVal (s.fld fHQ_IDX_VER_REF_SYNC n v) != 0)

/-- INDEX_VERSION_SWITCH (R49, R50): one write of HQ_IDX_CTL, taken whole or discarded and logged. -/
def execIndexVersionSwitch (n : Nat) (value loc : W64) (s : State) : Out :=
  let old := s.reg .HQ_IDX_CTL n 0
  let new := writeValue .HQ_IDX_CTL old value
  if s.switchBad n old new then .next (s.discard loc value)
  else
    let moved := Fld.get fHQ_IDX_CTL_CURRENT old != Fld.get fHQ_IDX_CTL_CURRENT new
    let count := Fld.get fHQ_IDX_CTL_SWITCH_COUNT old + if moved then 1 else 0
    .next (s.setReg .HQ_IDX_CTL n 0 (Fld.put fHQ_IDX_CTL_SWITCH_COUNT new count))

end Sys2Proof.Machine
end

