-- ==== Sys2Proof/Machine/Tiers.lean ====
section
/-! DEFINITION. Memory tiers, quotas and prefetch (11): SCHEDULE_LOAD, PROMOTE and DEMOTE, the ends of promotions and
demotions, the schedule, heat, quota limits, failed grants and the patrol scrubber (R218 to R230). -/

namespace Sys2Proof.Machine

/-! ### The commands (R224, R225, R228) -/

/-- A command that names a version, with its checks: the version key and the status. -/
def State.namedVersion (s : State) (m : Cmd) : Nat × Nat :=
  let n := gTarget m.bytes
  let v := s.capture n (gNamed m.bytes) (gVersion m.bytes)
  (verKey n (v.getD 0), worst [(!generalOk m.bytes, stInvalid), (v.isNone, stBadVersion)])

/-- The status of SCHEDULE_LOAD's checks of its descriptor. -/
def State.scheduleStatus (s : State) (m : Cmd) : Nat :=
  worst [((s.namedVersion m).2 ≠ 0, (s.namedVersion m).2), (decide (65536 < gCount m.bytes), stInvalid)]

def State.admitSchedule (readOk : Bool) (c : Nat) (m : Cmd) (s : State) : State :=
  let b := m.bytes
  let p := s.namedVersion m
  let st := s.scheduleStatus m
  if st ≠ 0 then s.finish c m.seq (Res.of st)
  else if !readOk && gCount b != 0 then
    let f := (Config.free s.freeCount).toNat
    let r := s.draw.hostDmaErr (s.ctxPort c) (gAddrA b) f
    r.1.finish c m.seq { status := stInvalid, errSeq := r.2 }
  else
    let words := (List.range (gCount b)).map fun i => leNat (s.rdN (s.ctxPort c) (gAddrA b + 4 * i) 4)
    let ok := words.all fun w => bits w 30 20 == 0 && decide (bits w 19 0 < (s.version p.1).count)
    if ok then
      (s.modVersion p.1 fun x =>
        { x with schedule := words.map fun w => (bits w 19 0, w.testBit 31), schedPos := 0 }).gFinish c m {}
    else s.finish c m.seq (Res.of stInvalid)

/-- SCHEDULE_LOAD (R228): the schedule is replaced whole. -/
def execScheduleLoad (c : Nat) (readOk : Bool) (s : State) : Out :=
  .next ((s.admitFront c [0x1B] (fun m t => t.scheduleStatus m) (State.admitSchedule readOk c)).admitBad c 65536)

/-- A command waits for the end of a list's transition. -/
def State.joinMove (c k cl : Nat) (m : Cmd) (s : State) : State :=
  s.modList k cl fun l => { l with movers := l.movers ++ [(c, m.seq)] }

/-- The status of PROMOTE's checks of its descriptor. -/
def State.promoteStatus (s : State) (m : Cmd) : Nat :=
  let p := s.namedVersion m
  worst [(p.2 ≠ 0, p.2), (decide ((s.version p.1).count ≤ gArg m.bytes), stInvalid)]

/-- A promotion that fails because the grant of its list has: the record of R230, whose cause is a free value. -/
def State.logGrant (g : Nat) (s : State) : State :=
  s.draw.log (mkErr 0x0304 4 0 g ((Config.free s.freeCount).toNat % 2 ^ 64) 0 0)

/-- PROMOTE of a lost list fails (R230): counted, logged, and a status that the spec does not name. -/
def State.promoteLost (c seq t : Nat) (l : IList) (s : State) : State :=
  let f := (Config.free s.freeCount).toNat
  ((s.draw.bump .TN_PF_FAILED t 0 1).logGrant l.lowGrant).finish c seq (Res.of (someStatus f))

def State.admitPromote (c : Nat) (m : Cmd) (s : State) : State :=
  let k := (s.namedVersion m).1
  let cl := gArg m.bytes
  let st := s.promoteStatus m
  let t := s.ctxTenant c
  if st ≠ 0 then s.finish c m.seq (Res.of st)
  else match ((s.version k).list cl).rstate with
    | 0 => s.gFinish c m {}
    | 1 => s.joinMove c k cl m
    | 2 =>
      let s := s.takeover k cl t false
      if ((s.version k).list cl).rstate = 0 then s.gFinish c m {}
      else (s.bump .TN_QUOTA_REFUSED t 0 1).finish c m.seq (Res.of stQuota)
    | _ =>
      if ((s.version k).list cl).lost then s.promoteLost c m.seq t ((s.version k).list cl)
      else
      let r := s.startPromotion k cl t 2 false false
      if r.1 then r.2.joinMove c k cl m else r.2.finish c m.seq (Res.of stQuota)

/-- PROMOTE (R224, R225). -/
def execPromote (c : Nat) (s : State) : Out :=
  .next ((s.admitFront c [0x1C] (fun m t => t.promoteStatus m) (State.admitPromote c)).admitBad c 65536)

/-- The status of DEMOTE's checks of its descriptor (R227). -/
def State.demoteStatus (s : State) (c : Nat) (m : Cmd) : Nat :=
  let a := gArg m.bytes
  let p := s.namedVersion m
  let cl := bits a 19 0
  let x := s.version p.1
  let t := s.ctxTenant c
  worst [(p.2 ≠ 0, p.2), (decide (x.count ≤ cl) || bits a 21 20 == 0 || bits a 21 20 == 3, stInvalid),
    (p.2 != stBadVersion && t != x.owner && t != (x.list cl).holder, stAccess)]

def State.admitDemote (c : Nat) (m : Cmd) (s : State) : State :=
  let a := gArg m.bytes
  let k := (s.namedVersion m).1
  let cl := bits a 19 0
  let tier := bits a 21 20
  let l := (s.version k).list cl
  let t := s.ctxTenant c
  let st := s.demoteStatus c m
  if st ≠ 0 then s.finish c m.seq (Res.of st)
  else match l.rstate with
    | 0 =>
      let r := s.beginDemotion k cl tier (bits a 27 22) [(c, m.seq)]
      if r.1 = stSuccess then r.2 else r.2.finish c m.seq (Res.of r.1)
    | 1 => (s.bump .TN_RES_OVERRIDDEN t 0 1).gFinish c m {}
    | 2 => s.joinMove c k cl m
    | _ => s.gFinish c m {}

/-- DEMOTE (R224, R225). -/
def execDemote (c : Nat) (s : State) : Out :=
  .next ((s.admitFront c [0x1D] (fun m t => t.demoteStatus c m) (State.admitDemote c)).admitBad c 65536)

/-! ### The end of a transition (R224, R227) -/

/-- A pair waits for a list. -/
def waitsFor (k cl : Nat) (key : GKey) : Bool := verKey key.index key.vslot == k && key.cluster == cl

/-- Remove every pair that waits for a list; each counts its list as not scanned and reports (R227). -/
def State.removeListPairs (k cl : Nat) (s : State) : State :=
  let gone := (s.qry.gqueues.flatMap fun g => if waitsFor k cl g.key then g.pairs.map fun p => (p.q, p.rank) else [])
    ++ s.qry.held.flatMap fun e => (e.2.filter fun h => waitsFor k cl h.key).map fun h => (h.q, h.rank)
  let held := s.qry.held.map fun e => (e.1, e.2.filter fun h => !waitsFor k cl h.key)
  let pns := ((s.qry.gqueues.filter fun g => waitsFor k cl g.key).map (·.key.pn)).eraseDups
  let s := { s with qry := { s.qry with held := held } }.takeOut fun key _ => waitsFor k cl key
  forEach pns State.resumeShadows (forEach gone (fun (p : Nat × Nat) t => (t.pairGone p.1 p.2).settleScan p.1 4097) s)

/-- Time that the pairs of a list have waited for its residency. -/
def State.residencyWait (s : State) (k cl : Nat) : Nat :=
  s.qry.gqueues.foldl (fun n g =>
    if waitsFor k cl g.key then g.pairs.foldl (fun n p => n + (s.now - p.tPost)) n else n) 0

/-- A list whose lower copies lie in a grant that is not usable. -/
def State.grantGone (s : State) (k : Nat) (l : IList) : Bool :=
  l.lowTier == 2 && s.grantStatus l.lowGrant (s.version k).owner != stSuccess

/-- The work requests of a transition: the status of one that failed, and whether one is still outstanding. -/
def State.wrFailed (s : State) (l : IList) : Option Nat :=
  (l.wrs.findSome? fun w => (s.net.failed.find? (·.1 == w.2)).map (·.2))
def State.wrPending (s : State) (l : IList) : Bool := l.wrs.any fun w => (s.wr? w.2).isSome

/-- The requests of a transition that has ended are forgotten. -/
def State.clearWrs (k cl : Nat) (s : State) : State :=
  let ids := ((s.version k).list cl).wrs.map (·.2)
  let s := { s with net := { s.net with staging := ids.foldl (fun t i => Tbl.del t i) s.net.staging
                                        failed := s.net.failed.filter fun e => !ids.contains e.1 } }
  s.modList k cl fun l => { l with wrs := [] }

/-- A sector of a lower copy from its own channel. -/
def State.lowDirect (s : State) (ch lsn : Nat) : Option (List Byte) :=
  if s.chServes ch then
    match (s.chan ch).look lsn with
    | .data d _ => some d
    | .never => some emptySect
    | .lost => none
  else none

/-- A sector of a lower copy as a promotion reads it: from its channel, or by a degraded read (R188, R223). -/
def State.lowSect (s : State) (ch lsn : Nat) : Option (List Byte) :=
  (s.lowDirect ch lsn).orElse fun _ => (s.rebuild ch lsn none []).map (·.1)

/-- The bytes read for a block of a list: the sectors of its code area, or what its grant has answered (R223). -/
def State.lowArea (s : State) (b : Nat) (l : IList) (x : Block) : Option (List Byte) :=
  if l.lowTier = 2 then (l.wrs.find? (·.1 == x.seq)).bind fun w => s.net.staging.get? w.2
  else x.low.bind fun a =>
    (List.range (blockUnits b)).foldl (fun acc i =>
      acc.bind fun d => (s.lowSect (lowCh a) (lowLsn a + i)).map (d ++ ·)) (some [])

/-- A block with the codes that its lower copy gives; none: it cannot be read. -/
def State.readBack (s : State) (b : Nat) (l : IList) (x : Block) : Option Block :=
  (s.lowArea b l x).map fun area => { x with codes := x.codes.map fun (e : Nat × Code) => (e.1, areaCode b area e.1) }

/-- A promotion has read one sector: the reads not yet issued are, and a degraded read is counted (R193, R226). -/
def State.noteLow (tenant ch lsn : Nat) (s : State) : State :=
  let c := s.chan ch
  let mine := fun (o : PlaneOp) => o.kind == 3 && o.num == lsn
  let s := if c.planeQ.any fun e => e.2.any mine then
      (s.setChan ch { c with planeQ := c.planeQ.map fun (e : Nat × List PlaneOp) => (e.1, e.2.filter fun o => !mine o) }).touch ch lsn
    else s
  if (s.lowDirect ch lsn).isSome then s else s.noteDegraded ch lsn { tenant := tenant } (s.rebuild ch lsn none [])

/-- The reads of a promotion from flash are over: what they did. -/
def State.noteLows (k : Nat) (l : IList) (s : State) : State :=
  let n := blockUnits (s.codeBits (k / 4))
  forEach (if l.lowTier = 1 then l.blocks.filterMap (·.low) else []) (fun a t =>
    forEach (List.range n) (fun i u => u.noteLow l.holder (lowCh a) (lowLsn a + i)) t) s

/-- A promotion has succeeded: `blocks` are the list's blocks as read. -/
def State.becomeResident (k cl : Nat) (blocks : List Block) (s : State) : State :=
  let l := (s.version k).list cl
  let n := blockUnits (s.codeBits (k / 4))
  let bytes := 4096 * n * l.blocks.length
  let s := (s.modList k cl fun l => { l with blocks := blocks }).clearWrs k cl
  let s := s.rewriteHeaders k cl (·.codeAddr)
  let s := s.modList k cl fun l => { l with rstate := 0, residency := 0, holds := l.holds - 1 }
  let s := (s.bump .GE_PF_BYTES_UP l.die 0 bytes).bump .GE_PF_WAIT_NS l.die 0 (s.residencyWait k cl)
  let s := s.bump .TN_ACC_DRAM_BYTES l.holder 0 bytes
  let s := if l.lowTier = 1 then s.bump .TN_ACC_FLASH_READS l.holder 0 (n * l.blocks.length)
    else s.bump .TN_ACC_REMOTE_BYTES l.holder 0 bytes
  s.endMovers k cl 0

/-- The record of a failed promotion whose cause is known from nothing but its operand: a word of promotion staging
(consumer 6 of R221), or a read of the lower copy, as a free value has it. -/
def State.logPromo (l : IList) (f : Nat) (s : State) : State :=
  let a := ((l.blocks[f % max 1 l.blocks.length]?).bind (·.low)).getD 0
  if f / 65536 % 2 = 0 then s.dramUncorrFree 1 l.die 6 fun e => { e with tenant := l.holder }
  else if l.lowTier = 1 then s.log (mkErr 0x0202 1 l.die (lowCh a) (lowLsn a) 0 0)
  else s.log (mkErr 0x0301 1 l.die (s.fld fTN_RG_CONN l.lowGrant 0) (someStatus f) (f / 2 ^ 24 % 2 ^ 32) 0)

/-- A promotion has failed: the list is LOW again, its pairs are gone, and its commands end with a status that the spec
does not name. A read that is known to have failed has its own record. -/
def State.promotionFailed (k cl : Nat) (known : Bool) (s : State) : State :=
  let l := (s.version k).list cl
  let f := (Config.free s.freeCount).toNat
  let lost := s.grantGone k l
  let s := s.draw
  let s := if lost then s.logGrant l.lowGrant else if known then s else s.logPromo l f
  let s := (s.dropCharge l.holder 0 (s.listUnits k l)).bump .TN_PF_FAILED l.holder 0 1
  let s := if lost && !l.lost then s.bump .TN_RG_LISTS_LOST 0 0 1 else s
  let s := (s.clearWrs k cl).modList k cl fun l =>
    { l with rstate := 3, residency := l.lowTier, holds := l.holds - 1, demand := false, pinned := false,
             lost := l.lost || lost }
  (s.rewriteHeaders k cl fun b => b.low.getD 0).removeListPairs k cl |>.endMovers k cl (someStatus f)

/-- PROMOTION_COMPLETE (R224). -/
def execPromotionComplete (n v cluster : Nat) (ok : Bool) (s : State) : Out :=
  let k := verKey n v
  let l := (s.version k).list cluster
  if l.rstate ≠ 1 then .next s
  else if ok && !s.grantGone k l && (s.wrFailed l).isNone then
    if s.wrPending l then .next s
    else match l.blocks.mapM (s.readBack (s.codeBits (k / 4)) l) with
      | some blocks => .next ((s.noteLows k l).becomeResident k cluster blocks)
      | none => .next ((s.noteLows k l).promotionFailed k cluster true)
  else .next (s.promotionFailed k cluster (s.wrFailed l).isSome)

/-- Writes of a list's lower copies wait at a stripe engine. -/
def State.lowPending (s : State) (k : Nat) (l : IList) : Bool :=
  let n := blockUnits (s.codeBits (k / 4))
  l.lowTier == 1 && l.blocks.any fun b => match b.low with
    | some a => s.fl.swrites.any fun e => e.2.any fun w =>
        w.ch == lowCh a && decide (lowLsn a ≤ w.lsn) && decide (w.lsn < lowLsn a + n)
    | none => false

/-- A demotion stops: the list stays RESIDENT. A write to its grant that is known to have been refused, but not which one,
leaves no block of those written a lower copy to keep (R223). -/
def State.stopDemotion (k cl status : Nat) (some' : Bool) (s : State) : State :=
  let seqs := ((s.version k).list cl).wrs.map (·.1)
  let drop := fun (b : Block) => if some' ∧ seqs.contains b.seq then { b with lowFresh := false } else b
  ((s.pruneWrs k cl).modList k cl fun l =>
    { l with rstate := 0, residency := 0, blocks := l.blocks.map drop }).endMovers k cl status

/-- DEMOTION_COMPLETE (R224): the lower copies are durable and nothing holds the list, or a write of them was refused. -/
def execDemotionComplete (n v cluster : Nat) (refused : Option Nat) (s : State) : Out :=
  let k := verKey n v
  let l := (s.version k).list cluster
  if l.rstate ≠ 2 then .next s
  else match refused.orElse fun _ => s.wrFailed l with
    | some st => .next (s.stopDemotion k cluster st refused.isSome)
    | none =>
      if s.grantGone k l then .next (s.stopDemotion k cluster (s.grantStatus l.lowGrant (s.version k).owner) false)
      else if l.holds ≠ 0 ∨ s.lowPending k l ∨ s.wrPending l then .next s
      else
        let s := s.rewriteHeaders k cluster fun b => b.low.getD 0
        let s := s.dropCharge l.holder 0 (s.listUnits k l)
        let s := s.modList k cluster fun l =>
          { l with rstate := 3, residency := l.lowTier, demand := false, pinned := false }
        let s := s.clearWrs k cluster
        .next (s.endMovers k cluster 0)

/-! ### The schedule, retries and heat (R227 to R229) -/

/-- SCHEDULE_PROMOTION (R228): the next list of the schedule, while the owner's pool has room. A list that is not LOW, or
that is lost, is passed over. -/
def execSchedulePromotion (n v : Nat) (s : State) : Out :=
  let k := verKey n v
  let x := s.version k
  match x.schedule[x.schedPos]? with
  | none => .next s
  | some (cl, pin) =>
    let l := x.list cl
    let next := fun (t : State) => t.modVersion k fun y => { y with schedPos := y.schedPos + 1 }
    if l.rstate ≠ 3 then .next (next s)
    else if l.lost then .next (next (s.bump .TN_PF_FAILED x.owner 0 1))
    else if s.promoPool x.owner < s.promoUsed x.owner + s.listUnits k l then .next s
    else
      let r := s.startPromotion k cl x.owner 4 true pin
      if r.1 then .next (next (r.2.bump .TN_PF_SCHEDULE x.owner 0 1)) else .next r.2

/-- PROMOTION_RETRY (R227): a tenant's pair still waits for a list that is LOW. -/
def execPromotionRetry (n v cluster tenant : Nat) (s : State) : Out :=
  let k := verKey n v
  let l := (s.version k).list cluster
  let waits := s.qry.gqueues.any fun g =>
    waitsFor k cluster g.key && g.pairs.any fun p => (s.query p.q).any fun x => x.tenant == tenant
  if l.rstate = 3 ∧ !l.lost ∧ waits then .next (s.demand k cluster tenant) else .next s

/-- HEAT_HALVING (R229): the lists that a tenant holds, HEAT_HALF_S after the last halving. -/
def execHeatHalving (tenant : Nat) (s : State) : Out :=
  let s := s.reach (s.idx.heatAt.getD 0 tenant + sec * s.fld fTN_TIER_CFG_HEAT_HALF_S tenant 0)
  let halve := fun (l : IList) => if l.holder = tenant then { l with heat := l.heat / 2 } else l
  let one := fun (x : Version) => { x with lists := x.lists.map fun (e : Nat × IList) => (e.1, halve e.2) }
  .next { s with idx := { s.idx with
    versions := s.idx.versions.map fun (e : Nat × Version) => (e.1, one e.2)
    heatAt := s.idx.heatAt.put tenant s.now } }

/-! ### Limits, grants and the scrubber (R218 to R220, R230) -/

/-- QUOTA_LIMIT_WRITE (R218, R219): discarded where the write would bring the sum of the limits above the capacity. -/
def execQuotaLimitWrite (tenant tier : Nat) (value loc : W64) (s : State) : Out :=
  let t := s.writeReg .TN_QUOTA_LIMIT tenant tier value
  let sum := (List.range 256).foldl (fun n i => n + t.limit i tier) 0
  if s.limit tenant tier < t.limit tenant tier ∧ s.tierCapacity tier < sum then .next (s.discard loc value) else .next t

/-- Lists whose lower copies lie in grant `g` and that are LOW are lost (R230). -/
def State.loseLists (g : Nat) (s : State) : State :=
  let hit := s.allLists.filter fun e => e.2.2.rstate == 3 && e.2.2.lowTier == 2 && e.2.2.lowGrant == g
    && e.2.2.blocks != [] && !e.2.2.lost
  forEach hit (fun (e : Nat × Nat × IList) t =>
    ((t.modList e.1 e.2.1 fun l => { l with lost := true }).bump .TN_RG_LISTS_LOST 0 0 1).removeListPairs e.1 e.2.1) s

/-- A grant becomes failed: logged, counted, and the lists whose only lower copy lies in it are lost (R230). -/
def State.failGrant (g cause : Nat) (s : State) : State :=
  if s.isOn fTN_RG_V g 0 ∧ s.fld fTN_RG_STATE g 0 ≠ 2 then
    let s := (s.setFld fTN_RG_STATE g 0 2).log (mkErr 0x0304 4 0 g cause 0 0)
    (s.bump .TN_RG_FAILED 0 0 1).loseLists g
  else s

/-- Grants in use that match fail; the spec gives the causes no numbers: free values (R230). -/
def State.failGrants (p : Nat → Bool) (s : State) : State :=
  forEach ((List.range 64).filter fun g => s.isOn fTN_RG_V g 0 && s.fld fTN_RG_STATE g 0 != 2 && p g)
    (fun g t => t.draw.failGrant g ((Config.free t.freeCount).toNat % 2 ^ 64)) s

/-- GRANT_FAILED (R230): as its lender begins to revoke it a grant is revoking, and not used from then on; then it is
failed. -/
def execGrantFailed (g : Nat) (how : GrantEnd) (s : State) : Out :=
  match how with
  | .revoking => .next (if s.isOn fTN_RG_V g 0 ∧ s.fld fTN_RG_STATE g 0 = 0 then s.setFld fTN_RG_STATE g 0 1 else s)
  | .failed cause => .next (s.failGrant g cause)

/-- PATROL_SCRUB (R220): one address read, corrected data written back, what was found counted and logged. -/
def execPatrolScrub (stack addr corrected : Nat) (uncorrectable : Bool) (s : State) : Out :=
  let s := if corrected = 0 then s
    else (s.bump .EL_ECC_CORR stack 0 corrected).log (mkErr 0x0100 1 (stack / 4) stack addr 0 0)
  let f := (Config.free s.freeCount).toNat
  if uncorrectable then .next (s.draw.dramUncorrAt 1 (stack / 4) stack addr (f % 8) id) else .next s

end Sys2Proof.Machine
end

