-- ==== Sys2Proof/Machine/Transport.lean ====
section
/-! DEFINITION. The Stoez transport (13): what each received packet does, what the timers of a connection do, connections,
regions, sync objects and the trigger table. -/

namespace Sys2Proof.Machine

/-! ### Connections lost or reset (R270, R274, R333) -/

/-- What the update log keeps for the jobs of a connection is dropped, each with a GAUNTLET record: the updates stand
(R333). -/
def State.dropConnLog (c : Nat) (s : State) : State :=
  let mine := s.idx.updateLog.filter (·.conn == some c)
  let s := forEach mine (fun k t => t.logGauntlet k.key (k.key.toNat / 2 ^ 58) 0) s
  { s with idx := { s.idx with updateLog := s.idx.updateLog.filter (·.conn != some c) } }

/-- The work requests that the device itself has issued on a connection. -/
def State.ownWrs (s : State) (c : Nat) : List Nat :=
  (s.net.wrs.filter fun w => w.conn == c && w.internal && w.issued).map (·.id)

/-- Connection loss: entry to ERROR with a cause, and what the device draws from it (R149, R230, R274, R333). -/
def State.loseConn (c cause : Nat) (s : State) : State :=
  if s.fld fXT_CONN_CFG_STATE c 0 = 1 then
    let ids := s.ownWrs c
    (((s.connError c cause).fp16Lost ids c).dropConnLog c).failGrants fun g => s.fld fTN_RG_CONN g 0 == c
  else s

/-! ### Admission of messages (R283, R287) -/

/-- The protection domain of a connection. -/
def State.connPd (s : State) (c : Nat) : Nat := s.fld fXT_CONN_CFG_PD c 0

/-- A sync object that a peer on connection `c` may signal (R287). -/
def State.syncOpen (s : State) (c i : Nat) : Bool :=
  s.isOn fSY_CFG_REMOTE i 0 && s.fld fSY_CFG_PD i 0 == s.connPd c

def handleRegion (h : Nat) : Nat := h % 2 ^ 16
def handleKey (h : Nat) : Nat := bits h 31 24

/-- The checks of R283, in the order of its rows: SUCCESS, or the status that refuses the message. -/
def State.admitStatus (s : State) (c : Nat) (p : Pkt) : Nat :=
  let r := handleRegion p.handle
  if s.fld fXT_RGN_CTL_STATE r 0 ≠ 1 then stRevoked
  else if s.isOn fXT_RGN_CTL_KEY_REQ r 0 && handleKey p.handle != s.fld fXT_RGN_CTL_KEY r 0 then stRevoked
  else if s.fld fXT_RGN_CTL_PD r 0 ≠ s.connPd c then stAccess
  else if (if p.opcode = 3 then !s.isOn fXT_RGN_CTL_RD r 0 else !s.isOn fXT_RGN_CTL_WR r 0) then stAccess
  else if 4096 * s.fld fXT_RGN_CTL_SIZE_4K r 0 < p.addr + p.msgLen then stAccess
  else if p.opcode = 2 && !s.syncOpen c p.sync then stAccess
  else stSuccess

/-- A partial sum that comes after its stage was abandoned is counted (R233). -/
def State.lateSum (r : Nat) (s : State) : State :=
  match s.net.regionPn.get? r with
  | some pn => s.bump .TN_DL_LATE_RECORDS pn 0 1
  | none => s

/-- Refuse a message: one NAK_STATUS, counted by its status (R283, R287). -/
def State.refuseMsg (c msn st : Nat) (s : State) : State :=
  let d := s.connDie c
  let s := if st = stRevoked then s.bump .XT_REFUSED_REVOKED d 0 1 else s.bump .XT_REFUSED_ACCESS d 0 1
  s.sendCtl c 4 msn 0 st

/-! ### Messages as they come in (R269, R275 to R278) -/

/-- `a` comes before `b` among 32-bit sequence numbers. -/
def seqLt (a b : Nat) : Bool := decide ((b + 2 ^ 32 - a) % 2 ^ 32 ≠ 0) && decide ((b + 2 ^ 32 - a) % 2 ^ 32 < 2 ^ 31)

/-- Take the numbers done that follow on the lowest one not done. -/
def advanceMsn : Nat → Conn → Conn
  | 0, x => x
  | n + 1, x =>
    if x.rxAbove.contains x.rxMsn then
      advanceMsn n { x with rxMsn := (x.rxMsn + 1) % 2 ^ 32, rxAbove := x.rxAbove.filter (· != x.rxMsn) }
    else x

/-- A message of a connection is done: completed, refused, or whole. -/
def Conn.done (m : Nat) (x : Conn) : Conn :=
  if seqLt m x.rxMsn || x.rxAbove.contains m then x
  else advanceMsn (x.rxAbove.length + 1) { x with rxAbove := x.rxAbove ++ [m] }

/-- The message is done already. -/
def Conn.isDone (x : Conn) (m : Nat) : Bool := seqLt m x.rxMsn || x.rxAbove.contains m

/-- A whole message of path 0 waits among the others, in MSN order (R269). -/
def Conn.enqueue (m : RxMsg) (x : Conn) : Conn :=
  let before := fun (e : RxMsg) => seqLt e.msn m.msn
  { x with waiting := x.waiting.takeWhile before ++ m :: x.waiting.dropWhile before }

/-- The message being received, by MSN; READ_RSP messages carry the numbers of this device's own requests. -/
def Conn.rx? (x : Conn) (m : Nat) (rsp : Bool) : Option RxMsg := x.rx.find? fun e => e.msn == m && (e.opcode == 4) == rsp

def Conn.putRx (e : RxMsg) (x : Conn) : Conn :=
  { x with rx := x.rx.map fun y => if y.msn = e.msn ∧ (y.opcode = 4) = (e.opcode = 4) then e else y }

def Conn.dropRx (m : Nat) (rsp : Bool) (x : Conn) : Conn :=
  { x with rx := x.rx.filter fun e => !(e.msn == m && (e.opcode == 4) == rsp) }

/-- Bytes received of a message. -/
def RxMsg.count (e : RxMsg) : Nat := e.got.foldl (fun n g => n + g.2) 0

/-- The lowest offset of a message that is missing (R277). -/
def RxMsg.lowest (e : RxMsg) : Nat :=
  (List.range e.got.length).foldl (fun n _ => match e.got.find? fun g => g.1 == n && g.2 != 0 with
    | some g => n + g.2
    | none => n) 0

/-- Some packet received lies above the lowest missing offset. -/
def RxMsg.gap (e : RxMsg) : Bool := e.got.any fun g => decide (e.lowest < g.1)

/-- Use the value of a connection's own record. -/
def State.modConn (c : Nat) (f : Conn → Conn) (s : State) : State := s.setConn c (f (s.conn c))

/-- A message carries an update command of a group, and is taken up as it comes (R171); on a connection over which a shard
is being copied the stream has its own command. -/
def State.isUpdate (s : State) (c : Nat) (m : RxMsg) : Bool :=
  let op := fieldAt m.data 8 1
  m.sendType == 3 && decide (0x10 ≤ op) && decide (op ≤ 0x14) && !s.ten.shardCopies.any (·.conn == c)

/-- Give the room of a SEND in the receive pool back. -/
def State.freePool (c : Nat) (m : RxMsg) (s : State) : State :=
  let d := s.connDie c
  if m.pooled then { s with net := { s.net with poolBytes := s.net.poolBytes.put d (s.net.poolBytes.getD 0 d - m.len) } }
  else s

/-- A path-0 message takes effect (R269, R278, R287, R291). -/
def State.takeEffect (c : Nat) (m : RxMsg) (s : State) : State :=
  match m.opcode with
  | 0x05 =>
    if s.isUpdate c m then ((s.freePool c m).receiveCmd c m).2
    else match (if m.sendType = 2 then s.psumRefusal m.data else none) with
    | some st => (s.freePool c m).refusePsum c m.msn st
    | none => s.modConn c fun x => { x with inbox := x.inbox ++ [m] }
  | 0x06 => if s.syncOpen c m.sync then s.signal m.sync m.value else s.refuseMsg c m.msn stAccess
  | _ =>
    let data := s.rdDram (s.rgnDie m.region) (s.rgnAddr m.region m.addr) m.len
    s.queueMsg c 0x04 m.msn (s.isOn fXT_CONN_CFG_MP c 0) (fun p => { p with dei := m.dei }) data none

/-- A waiting message may take effect: every message with a lower MSN is done, and a SEND follows no refused one (R269,
R278). -/
def Conn.mayTake (x : Conn) (m : RxMsg) : Bool :=
  let earlier := fun (e : RxMsg) => e.opcode == 0x05 && seqLt e.msn m.msn
  !seqLt x.rxMsn m.msn && (m.opcode != 0x05
    || (!(x.refusedSends.any fun n => seqLt n m.msn) && !x.rx.any earlier && !x.waiting.any earlier))

/-- Let the waiting messages that now may take effect do so, in order. -/
def State.settleWaiting (c : Nat) (s : State) : State :=
  forEach (s.conn c).waiting (fun m t =>
    if (t.conn c).mayTake m then
      (t.modConn c fun x => { x with waiting := x.waiting.filter (·.msn != m.msn) }).takeEffect c m
    else t) s

/-- A message is done; what waited for it goes on. -/
def State.msgIsDone (c m : Nat) (s : State) : State := (s.modConn c (Conn.done m)).settleWaiting c

/-- A WRITE or WRITE_SIGNAL is complete: its signal, MSG_DONE on a multipath message, its entry freed (R276, R287). -/
def State.completeWrite (c : Nat) (e : RxMsg) (s : State) : State :=
  let s := if e.opcode = 2 then
      let s := s.signal e.sync e.value
      if s.fld fXT_RGN_CTL_STATE e.region 0 = 2 then s.lateSum e.region else s
    else s
  let s := if e.mp then s.sendCtl c 1 e.msn 0 0 else s
  (s.modConn c (Conn.dropRx e.msn false)).msgIsDone c e.msn

/-- A packet's bytes are placed at its offset of its region (R276). -/
def State.place (e : RxMsg) (p : Pkt) (s : State) : State :=
  s.wrDram (s.rgnDie e.region) (s.rgnAddr e.region (e.addr + p.offset)) p.payload

/-- The first packet of a WRITE or WRITE_SIGNAL admits it, or has it refused (R275, R283). -/
def State.admitWrite (c : Nat) (mp : Bool) (p : Pkt) (s : State) : State :=
  let st := s.admitStatus c p
  let r := handleRegion p.handle
  let e : RxMsg := { msn := p.msn, opcode := p.opcode, len := p.msgLen, region := r, addr := p.addr, sync := p.sync,
                     value := p.value, mp := mp, dei := p.dei, refused := if st = 0 then none else some st }
  let s := s.modConn c fun x => { x with rx := x.rx ++ [e] }
  if st = 0 then s
  else
    let s := if st = stRevoked then s.lateSum r else s
    (s.refuseMsg c p.msn st).msgIsDone c p.msn

/-- One packet of an admitted or refused WRITE or WRITE_SIGNAL (R276, R283). -/
def State.writePkt (c : Nat) (p : Pkt) (s : State) : State :=
  match (s.conn c).rx? p.msn false with
  | none => s
  | some e =>
    let e := { e with got := e.got ++ [(p.offset, p.payload.length)] }
    let whole := decide (e.len ≤ e.count)
    let e := { e with hold := if !e.mp || whole || !e.gap then none else some (e.hold.getD (s.now + 4 * us)) }
    if e.refused.isSome then
      s.modConn c fun x => if whole then x.dropRx p.msn false else x.putRx e
    else
      let s := (s.place e p).modConn c (Conn.putRx e)
      if whole then s.completeWrite c e else s

/-! ### Path 0 (R269, R271, R278, R283, R287) -/

/-- A SEND packet on path 0: room in the pool, or BUSY; whole, it waits for the lower MSNs (R269). -/
def State.sendPkt (c : Nat) (p : Pkt) (s : State) : State :=
  let d := s.connDie c
  let x := s.conn c
  let used := s.net.poolBytes.getD 0 d
  let fresh := (x.rx? p.msn false).isNone
  let s :=
    if !fresh || p.offset != 0 then s
    else if 2 ^ 24 < used + p.msgLen then
      let s := (s.modConn c fun x => { x with refusedSends := (x.refusedSends.filter (· != p.msn)) ++ [p.msn] }).bump
        .XT_BUSY d 0 1
      (s.sendCtl c 5 p.msn 0 0).msgIsDone c p.msn
    else
      let e : RxMsg := { msn := p.msn, opcode := 5, len := p.msgLen, sendType := p.sendType, pooled := true }
      let s := s.modConn c fun x => { x with rx := x.rx ++ [e], refusedSends := x.refusedSends.filter (· != p.msn) }
      { s with net := { s.net with poolBytes := s.net.poolBytes.put d (used + p.msgLen) } }
  match (s.conn c).rx? p.msn false with
  | none => s
  | some e =>
    let e := { e with got := e.got ++ [(p.offset, p.payload.length)], data := e.data ++ p.payload, dei := p.dei }
    if e.len ≤ e.count then
      (s.modConn c fun x => (x.dropRx p.msn false).enqueue e).msgIsDone c p.msn
    else s.modConn c (Conn.putRx e)

/-- A SIGNAL or READ_REQ waits for the messages before it; a READ_REQ is checked as it is admitted (R278, R283). -/
def State.waitPkt (c : Nat) (p : Pkt) (s : State) : State :=
  let st := if p.opcode = 3 then s.admitStatus c p else stSuccess
  let e : RxMsg := { msn := p.msn, opcode := p.opcode, len := p.msgLen, region := handleRegion p.handle, addr := p.addr,
                     sync := p.sync, value := p.value, dei := p.dei }
  if st ≠ 0 then (s.refuseMsg c p.msn st).msgIsDone c p.msn
  else (s.modConn c (Conn.enqueue e)).msgIsDone c p.msn

/-- READ_RSP bytes are placed in the local region of the request, or held for the device's own use; the READ completes when
they are whole (R291). -/
def State.rspPkt (c : Nat) (p : Pkt) (s : State) : State :=
  match s.net.wrs.find? fun w => w.conn == c && w.op == 3 && w.hasOp && w.msgs.any (·.1 == p.msn) with
  | none => s
  | some w =>
    let off := (((w.msgs.find? (·.1 == p.msn)).map (·.2)).getD 0) + p.offset
    let s :=
      if w.internal then
        let old := s.net.staging.getD [] w.id
        let data := old.take off ++ List.replicate (off - old.length) 0 ++ p.payload ++ old.drop (off + p.payload.length)
        { s with net := { s.net with staging := s.net.staging.put w.id data } }
      else s.wrDram (s.rgnDie w.lRegion) (s.rgnAddr w.lRegion (w.lAddr + off)) p.payload
    let left := w.left - p.payload.length
    let s := s.setWR { w with left := left }
    if left = 0 then s.completeWR w.id else s

/-- What an accepted path-0 packet does. -/
def State.deliver (c : Nat) (p : Pkt) (s : State) : State :=
  match p.opcode with
  | 0x01 | 0x02 =>
    let s := if ((s.conn c).rx? p.msn false).isNone then s.admitWrite c false p else s
    s.writePkt c p
  | 0x03 | 0x06 => s.waitPkt c p
  | 0x04 => s.rspPkt c p
  | 0x05 => s.sendPkt c p
  | 0x20 => (s.gauntletIn c p.payload).msgIsDone c p.msn
  | _ => s

/-- Accept the path-0 packet with the next PSN, and acknowledge when it is due (R271, R272). -/
def State.acceptPkt (c : Nat) (p : Pkt) (s : State) : State :=
  let s := (s.bump .XT_RX_PKTS (s.connDie c) 0 1).modConn c fun x =>
    { x with rxPsn := (x.rxPsn + 1) % 2 ^ 32, newestTs := p.txTs, newestAt := s.now, unacked := x.unacked + 1,
             firstUnacked := some (x.firstUnacked.getD s.now) }
  let s := s.deliver c p
  let x := s.conn c
  if x.unacked ≠ 0 ∧ (p.ackReq ∨ p.opcode = 0x12 ∨ s.fld fXT_REL_CFG_ACK_EVERY (s.connDie c) 0 ≤ x.unacked) then s.sendAck c
  else s

/-- Accept the kept packets that now follow (R271). -/
def State.drainKept (c : Nat) : Nat → State → State
  | 0, s => s
  | n + 1, s =>
    let x := s.conn c
    match x.kept.find? (·.psn == x.rxPsn) with
    | none => s
    | some p =>
      State.drainKept c n ((s.modConn c fun y => { y with kept := y.kept.filter (·.psn != p.psn) }).acceptPkt c p)

/-- Packet slots of a die's reorder store in use. -/
def State.reorderUsed (s : State) (d : Nat) : Nat :=
  s.net.conns.foldl (fun n e => if s.connDie e.1 = d then n + e.2.kept.length else n) 0

/-- A packet of path 0: accepted, a duplicate, or beyond a gap (R271). -/
def State.path0 (c : Nat) (p : Pkt) (s : State) : State :=
  let x := s.conn c
  if p.psn = x.rxPsn then
    let had := x.kept.length
    let s := (s.acceptPkt c p).drainKept c had
    let y := s.conn c
    if x.hold.isSome ∧ y.kept.length < had then
      let hold := if y.kept = [] then none else some (s.now + 4 * us)
      (s.bump .XT_HOLD_FILLED (s.connDie c) 0 1).modConn c fun y => { y with hold := hold }
    else s
  else if seqLt p.psn x.rxPsn then s.sendAck c
  else
    let d := s.connDie c
    let s := s.modConn c fun y => { y with hold := some (y.hold.getD (s.now + 4 * us)) }
    if x.kept.any (·.psn == p.psn) then s
    else if s.reorderUsed d < 512 then s.modConn c fun y => { y with kept := y.kept ++ [p] }
    else s.bump .XT_REORDER_FULL d 0 1

/-! ### Multipath messages (R275 to R277) -/

/-- Entries of a die's message table in use. -/
def State.mpUsed (s : State) (d : Nat) : Nat :=
  s.net.conns.foldl (fun n e =>
    if s.connDie e.1 = d then n + (e.2.rx.filter fun m => m.mp && m.refused.isNone).length else n) 0

/-- Note the packet whose acknowledgement will echo its time stamp. -/
def State.noteMp (c : Nat) (p : Pkt) (s : State) : State :=
  (s.bump .XT_RX_PKTS (s.connDie c) 0 1).modConn c fun x => { x with newestTs := p.txTs, newestAt := s.now }

/-- A READ_RSP packet of an open multipath message (R276, R291). -/
def State.rspMp (c : Nat) (p : Pkt) (s : State) : State :=
  match (s.conn c).rx? p.msn true with
  | none => s
  | some e =>
    let e := { e with got := e.got ++ [(p.offset, p.payload.length)] }
    let whole := decide (e.len ≤ e.count)
    let e := { e with hold := if whole || !e.gap then none else some (e.hold.getD (s.now + 4 * us)) }
    let s := (s.modConn c (Conn.putRx e)).rspPkt c p
    if whole then (s.sendCtl c 1 p.msn 0 0).modConn c (Conn.dropRx p.msn true) else s

/-- A packet of a multipath message (R275, R276). -/
def State.multipath (c : Nat) (p : Pkt) (s : State) : State :=
  let d := s.connDie c
  let rsp := p.opcode == 4
  let x := s.conn c
  let held := (x.rx? p.msn rsp).any fun e => e.hold.isSome
  let after := fun (t : State) =>
    if held && !((t.conn c).rx? p.msn rsp).any (·.hold.isSome) then t.bump .XT_HOLD_FILLED d 0 1 else t
  let go := fun (t : State) => if rsp then t.rspMp c p else t.writePkt c p
  match x.rx? p.msn rsp with
  | some e =>
    if e.got.any (·.1 == p.offset) then s.bump .XT_MP_DUP d 0 1 else after (go (s.noteMp c p))
  | none =>
    let gone := if rsp then !s.net.wrs.any fun w => w.conn == c && w.op == 3 && w.hasOp && w.msgs.any (·.1 == p.msn)
      else x.isDone p.msn
    if gone then s.bump .XT_MP_DUP d 0 1
    else if 4096 ≤ s.mpUsed d then s.bump .XT_MP_TABLE_FULL d 0 1
    else
      let s := s.noteMp c p
      if rsp then
        let e : RxMsg := { msn := p.msn, opcode := 4, len := p.msgLen, mp := true }
        go (s.modConn c fun x => { x with rx := x.rx ++ [e] })
      else go (s.admitWrite c true p)

/-! ### Validation and policing (R265, R268, R293, R294) -/

/-- A received packet is a good one for its connection (R265, R268). -/
def State.pktOk (s : State) (p : Pkt) : Bool :=
  let c := p.dstConn
  p.frameOk && p.ver == 1 && !p.rsvSet && decide (c < 8192) && s.fld fXT_CONN_CFG_STATE c 0 == 1
    && p.inc == s.fld fXT_CONN_CFG_INC c 0 && p.srcConn == s.fld fXT_CONN_CFG_PEER_CONN c 0
    && (p.opcode != 0x05 || decide (p.sendType ≤ 4))

/-- Police a packet of class 0 or 1 at its ingress (R293, R294, R298). False: red. -/
def State.policeIn (p : Pkt) (s : State) : Bool × State :=
  let d := s.connDie p.dstConn
  let pd := s.connPd p.dstConn
  if s.isOn fPL_PD_TENANT_V d pd then
    let r := s.police (1 + d) (s.fld fPL_PD_TENANT_TENANT d pd) (Colour.ofBit p.dei) p.frameBytes
    (r.1 != .red, r.2)
  else (true, s.bump .PL_UNMAPPED d 0 1)

/-- Take in a packet: validated, then policed if it is of class 0 or 1, then handled by `f` (R268, R293). -/
def State.receive (p : Pkt) (policed : Bool) (f : State → State) (s : State) : State :=
  if s.pktOk p then
    let s := s.modConn p.dstConn fun x => { x with lastRx := s.now }
    if policed then
      let r := s.policeIn p
      if r.1 then f r.2 else r.2
    else f s
  else s.bump .XT_RX_BAD p.die 0 1

/-- A data packet, on path 0 or of a multipath message. -/
def State.rxData (p : Pkt) (s : State) : State :=
  s.receive p true (fun t =>
    if p.mp && (p.opcode == 1 || p.opcode == 2 || p.opcode == 4) then t.multipath p.dstConn p else t.path0 p.dstConn p)

/-- WRITE (R275, R276, R283). -/
def execWrite (p : Pkt) (s : State) : Out := .next (s.rxData { p with opcode := 0x01 })

/-- WRITE_SIGNAL (R276, R283, R287). -/
def execWriteSignal (p : Pkt) (s : State) : Out := .next (s.rxData { p with opcode := 0x02 })

/-- READ_REQ (R278, R283). -/
def execReadReq (p : Pkt) (s : State) : Out := .next (s.rxData { p with opcode := 0x03, mp := false })

/-- READ_RSP (R291). -/
def execReadRsp (p : Pkt) (s : State) : Out := .next (s.rxData { p with opcode := 0x04 })

/-- SEND (R269). -/
def execSend (p : Pkt) (s : State) : Out := .next (s.rxData { p with opcode := 0x05, mp := false })

/-- SIGNAL (R287). -/
def execSignal (p : Pkt) (s : State) : Out := .next (s.rxData { p with opcode := 0x06, mp := false })

/-- A class-2 packet that takes a place on path 0. -/
def State.rxControl (p : Pkt) (s : State) : State := s.receive p false fun t => t.path0 p.dstConn p

/-- GAUNTLET of kind ABORT (R335). -/
def execGauntletAbort (p : Pkt) (s : State) : Out := .next (s.rxControl { p with opcode := 0x20, mp := false })

/-- GAUNTLET of kind RELEASE (R333). -/
def execGauntletRelease (p : Pkt) (s : State) : Out := .next (s.rxControl { p with opcode := 0x20, mp := false })

/-- KEEPALIVE: answered with an ACK (R273). -/
def execKeepalive (p : Pkt) (s : State) : Out := .next (s.rxControl { p with opcode := 0x12, mp := false })

/-! ### Acknowledgements at the sender (R272, R273, R276, R277, R283) -/

/-- An ACK or NAK packet, handled by `f` on its connection. -/
def State.rxAck (p : Pkt) (f : Nat → State → State) (s : State) : State :=
  s.receive p false fun t => f p.dstConn (t.bump .XT_RX_PKTS (t.connDie p.dstConn) 0 1)

/-- Packets that match leave the queue as acknowledged; any of them is progress (R273). -/
def State.cover (c : Nat) (f : TxPkt → Bool) (s : State) : State :=
  let x := s.conn c
  if x.txq.any f then
    s.setConn c { x with txq := x.txq.filter fun t => !f t, timeouts := 0, lastProgress := s.now }
  else s

/-- A path-0 packet that has left, below a PSN. -/
def belowPsn (psn : Nat) (t : TxPkt) : Bool := !t.pkt.mp && (t.sent || t.again) && seqLt t.pkt.psn psn

/-- ACK (R272, R280, R291). -/
def execAck (p : Pkt) (s : State) : Out :=
  .next (s.rxAck { p with opcode := 0x10, kind := 0 } fun c t =>
    ((t.cover c (belowPsn p.ackPsn)).ccAck c p.echoTs).settleWRs c)

/-- MSG_DONE (R276, R280, R291). -/
def execMsgDone (p : Pkt) (s : State) : Out :=
  .next (s.rxAck { p with opcode := 0x10, kind := 1 } fun c t =>
    ((t.cover c fun x => x.pkt.mp && x.pkt.msn == p.ackMsn).ccAck c p.echoTs).settleWRs c)

/-- NAK_SEQ: every path-0 packet from ACK_PSN onward is resent (R273). -/
def execNakSeq (p : Pkt) (s : State) : Out :=
  .next (s.rxAck { p with opcode := 0x11, kind := 2 } fun c t =>
    let t := (t.cover c (belowPsn p.ackPsn)).settleWRs c
    (t.modConn c fun x => { x with txq := resend (fun q => !q.pkt.mp) x.txq }).ccLoss c)

/-- NAK_MSG: the message is resent from NAK_OFFSET to its end (R277). -/
def execNakMsg (p : Pkt) (s : State) : Out :=
  .next (s.rxAck { p with opcode := 0x11, kind := 3 } fun c t =>
    let from' := fun (q : TxPkt) => q.pkt.mp && q.pkt.msn == p.ackMsn && decide (p.nakOffset ≤ q.pkt.offset)
    (t.modConn c fun x => { x with txq := resend from' x.txq }).ccLoss c)

/-- The work request of a connection that a message belongs to. -/
def State.wrOfMsn (s : State) (c m : Nat) : Option WR := s.net.wrs.find? fun w => w.conn == c && w.hasOp && w.msgs.any (·.1 == m)

/-- The packets of a refused message: the multipath ones go, those of path 0 keep their PSN and carry no request. -/
def refusedPkts (m id : Nat) (q : List TxPkt) : List TxPkt :=
  (q.filter fun t => !(t.pkt.mp && t.pkt.msn == m && t.wr == some id)).map fun t =>
    if t.wr = some id then { t with wr := none } else t

/-- A read or write of a grant has completed with REGION_REVOKED or ACCESS_VIOLATION: the grant fails (R230). -/
def State.grantRefused (w : WR) (st : Nat) (s : State) : State :=
  if s.tierWR w.id ∧ (st = stRevoked ∨ st = stAccess) then
    s.failGrants fun g => s.fld fTN_RG_CONN g 0 == w.conn && s.fld fTN_RG_REGION g 0 == w.rHandle
  else s

/-- NAK_STATUS: the request fails with the status (R230, R283, R291). -/
def execNakStatus (p : Pkt) (s : State) : Out :=
  .next (s.rxAck { p with opcode := 0x11, kind := 4 } fun c t =>
    match t.wrOfMsn c p.ackMsn with
    | none => t
    | some w =>
      let t := t.modConn c fun x => { x with txq := refusedPkts p.ackMsn w.id x.txq }
      ((t.failWR w.id p.status).fp16Refused w.id p.status).grantRefused w p.status)

/-- BUSY: the SEND will be resent after BUSY_US (R269). -/
def execBusy (p : Pkt) (s : State) : Out :=
  .next (s.rxAck { p with opcode := 0x11, kind := 5 } fun c t =>
    match t.wrOfMsn c p.ackMsn with
    | none => t
    | some w =>
      let due := t.now + us * t.fld fXT_REL_CFG_BUSY_US (t.connDie c) 0
      t.modConn c fun x => { x with txq := refusedPkts p.ackMsn w.id x.txq, busy := x.busy.put p.ackMsn due })

/-- BUSY_RESEND: the SEND is sent again from its first packet, under its MSN (R269). -/
def execBusyResend (conn msn : Nat) (s : State) : Out :=
  match (s.conn conn).busy.get? msn, s.wrOfMsn conn msn with
  | some due, some w =>
    let s := (s.reach due).modConn conn fun x => { x with busy := x.busy.del msn }
    let data := if w.data = [] then s.rdDram (s.rgnDie w.lRegion) (s.rgnAddr w.lRegion w.lAddr) w.len else w.data
    .next (s.queueMsg conn 0x05 msn false (fun p => { p with dei := w.yellow, sendType := w.sendType }) data (some w.id))
  | _, _ => .next s

/-! ### Timers of a connection (R271 to R273, R277) -/

/-- A connection is READY. -/
def State.ready (s : State) (c : Nat) : Bool := s.fld fXT_CONN_CFG_STATE c 0 == 1

/-- Keepalive period of a connection's die, in ns; 0: off. -/
def State.kaNs (s : State) (c : Nat) : Nat := ms * s.fld fXT_CFG_KA_MS (s.connDie c) 0

/-- KEEPALIVE_SEND (R273): an idle READY connection, one period after it last sent. -/
def execKeepaliveSend (conn : Nat) (s : State) : Out :=
  let x := s.conn conn
  if s.ready conn && s.kaNs conn != 0 && x.txq == [] then
    let s := s.reach (x.lastTx + s.kaNs conn)
    let p := { s.connPkt conn 0x12 0 with psn := x.txPsn, msgLen := 0 }
    let s := s.modConn conn fun x =>
      { x with txPsn := (x.txPsn + 1) % 2 ^ 32, txq := [{ pkt := p, sent := true, sentAt := s.now }] }
    .next (s.sendOut conn p)
  else .next s

/-- KEEPALIVE_LOSS (R273): nothing received for four periods. -/
def execKeepaliveLoss (conn : Nat) (s : State) : Out :=
  if s.ready conn && s.kaNs conn != 0 then
    .next ((s.reach ((s.conn conn).lastRx + 4 * s.kaNs conn)).loseConn conn 2)
  else .next s

/-- PACKET_HOLD_EXPIRY (R271). -/
def execPacketHoldExpiry (conn : Nat) (s : State) : Out :=
  match (s.conn conn).hold with
  | none => .next s
  | some t =>
    let s := (s.reach t).modConn conn fun x => { x with kept := [], hold := none }
    .next ((s.sendCtl conn 2 0 0 0).bump .XT_NAK_SEQ (s.connDie conn) 0 1)

/-- MESSAGE_HOLD_EXPIRY (R277). -/
def execMessageHoldExpiry (conn msn : Nat) (s : State) : Out :=
  match (s.conn conn).rx.find? fun e => e.msn == msn && e.hold.isSome with
  | none => .next s
  | some e =>
    let s := (s.reach (e.hold.getD 0)).modConn conn (Conn.putRx { e with hold := none })
    .next ((s.sendCtl conn 3 msn e.lowest 0).bump .XT_NAK_MSG (s.connDie conn) 0 1)

/-- ACK_DELAY_EXPIRY (R272): 2 µs after the first packet not yet acknowledged. -/
def execAckDelayExpiry (conn : Nat) (s : State) : Out :=
  match (s.conn conn).firstUnacked with
  | none => .next s
  | some t => .next ((s.reach (t + 2 * us)).sendAck conn)

/-- Since when a connection has packets unacknowledged without progress; none: nothing is outstanding. -/
def Conn.stalledSince (x : Conn) : Option Nat :=
  let sent := (x.txq.filter (·.sent)).map (·.sentAt)
  match sent with
  | [] => none
  | a :: as => some (max x.lastProgress (as.foldl min a))

/-- RETRANSMIT_TIMEOUT (R273, R277, R280). -/
def execRetransmitTimeout (conn : Nat) (s : State) : Out :=
  match (s.conn conn).stalledSince with
  | none => .next s
  | some t =>
    if s.ready conn then
      let d := s.connDie conn
      let n := (s.conn conn).timeouts
      let s := (s.reach (t + us * s.fld fXT_REL_CFG_RTO_US d 0 * 2 ^ min n 6)).bump .XT_RTO d 0 1
      if s.fld fXT_REL_CFG_RETRY_MAX d 0 ≤ n + 1 then .next (s.loseConn conn 1)
      else
        let now := s.now
        .next ((s.modConn conn fun x =>
          { x with txq := resend (fun _ => true) x.txq, timeouts := n + 1, lastProgress := now }).ccLoss conn)
    else .next s

/-! ### Departure (R267, R279, R280, R293, R301) -/

/-- A packet of class 0 or 1, by its opcode. -/
def isData (op : Nat) : Bool := decide (op ≤ 6)

/-- Data packets of a connection in flight (R279). -/
def Conn.inFlight (x : Conn) : Nat := (x.txq.filter fun t => t.sent && isData t.pkt.opcode).length

def pfcKey (die port cls : Nat) : Nat := 64 * die + 8 * port + cls

/-- The class of a connection is paused (R267). -/
def State.paused (s : State) (c : Nat) : Bool :=
  (s.net.pfc.get? (pfcKey (s.connDie c) (s.fld fXT_CONN_CFG_PORT c 0) (s.fld fXT_CONN_CFG_TC c 0))).isSome

/-- Pass a data packet through its tenant's shaper; none: it is held (R294, R301). -/
def State.shapeOut (c : Nat) (p : Pkt) (s : State) : Option State :=
  let d := s.connDie c
  let pd := s.connPd c
  if s.isOn fPL_PD_TENANT_V d pd then s.shape? d (s.fld fPL_PD_TENANT_TENANT d pd) p.frameBytes
  else some (s.bump .PL_UNMAPPED d 0 1)

/-- Mark the first packet that waits as sent at `now`. -/
def markSent (now : Nat) : List TxPkt → List TxPkt
  | [] => []
  | t :: ts => if t.sent then t :: markSent now ts else { t with sent := true, sentAt := now } :: ts

/-- A packet leaves. -/
def State.depart (c : Nat) (t : TxPkt) (s : State) : State :=
  let now := s.now
  let s := if t.again then s.bump .XT_RESEND_PKTS (s.connDie c) 0 1 else s
  (s.modConn c fun x => { x with txq := markSent now x.txq }).sendOut c t.pkt

/-- PACKET_DEPART (R279, R280, R301): the packet at the head of a connection's queue leaves once its shaper, pacing and
window allow it, and its class is not paused. -/
def execPacketDepart (conn : Nat) (s : State) : Out :=
  let x := s.conn conn
  match x.txq.find? fun t => !t.sent with
  | none => .next s
  | some t =>
    if !s.ready conn || !s.portUp t.pkt.die t.pkt.port then .next s
    else if !isData t.pkt.opcode then .next (s.depart conn t)
    else if s.fld fXT_CONN_CC_WINDOW conn 0 ≤ x.inFlight || s.paused conn then .next s
    else
      let delay := s.isOn fXT_CONN_CFG_CC_MODE conn 0
      let s := if delay then s.reach x.nextDepart.ceil.toNat else s
      let d := s.connDie conn
      match s.shapeOut conn t.pkt with
      | none => .next (s.shapeWait d (s.fld fPL_PD_TENANT_TENANT d (s.connPd conn)))
      | some s =>
        let start : Rat := max (s.now : Rat) x.nextDepart
        let next : Rat := start + 8 * ((t.pkt.frameBytes + 20 : Nat) : Rat) / x.rate
        .next ((s.depart conn t).modConn conn fun y => { y with nextDepart := if delay then next else y.nextDepart })

/-- PFC_PAUSE (R267): a received PFC frame pauses class 0 or 1 of a port; a pause time of zero ends a pause. -/
def execPfcPause (die port cls durationNs : Nat) (s : State) : Out :=
  let k := pfcKey die port cls
  let old := (s.net.pfc.get? k).map (·.1)
  if 2 ≤ cls then .next s
  else if durationNs = 0 then
    let s := s.bump .XT_PFC_RX_NS die 0 (s.now - old.getD s.now)
    .next { s with net := { s.net with pfc := s.net.pfc.del k } }
  else .next { s with net := { s.net with pfc := s.net.pfc.put k (old.getD s.now, s.now + durationNs) } }

/-- PFC_PAUSE_EXPIRY (R267, R292). -/
def execPfcPauseExpiry (die port cls : Nat) (s : State) : Out :=
  match s.net.pfc.get? (pfcKey die port cls) with
  | none => .next s
  | some e =>
    let s := (s.reach e.2).bump .XT_PFC_RX_NS die 0 (e.2 - e.1)
    .next { s with net := { s.net with pfc := s.net.pfc.del (pfcKey die port cls) } }

/-! ### Connections (R270) -/

/-- CONNECT may take a connection to READY: the peer address is valid, the port exists, every field is defined (R270). -/
def State.mayConnect (s : State) (c : Nat) : Bool :=
  let ports := if s.isOn fXT_CFG_BREAKOUT (s.connDie c) 0 then 4 else 2
  s.isOn fXT_ADDR_MAC_V (s.fld fXT_CONN_CFG_ADDR_IDX c 0) 0 && decide (s.fld fXT_CONN_CFG_PORT c 0 < ports)
    && decide (s.fld fXT_CONN_CFG_TC c 0 < 2) && decide (0 < s.fld fXT_CONN_CC_WINDOW c 0)
    && decide (s.fld fXT_CONN_CC_WINDOW c 0 ≤ 1024) && decide (20 ≤ s.fld fXT_CONN_CC_TARGET_100NS c 0)

/-- CONNECT (R270, R280). -/
def State.connectBy (conn : Nat) (loc value : W64) (s : State) : Out :=
  if s.fld fXT_CONN_CFG_STATE conn 0 = 0 ∧ s.mayConnect conn then
    let rate : Rat := s.portRate conn / 16
    let x : Conn := { rate := rate, periodStart := s.now, lastTx := s.now, lastRx := s.now, lastProgress := s.now,
                      nextDepart := (s.now : Rat) }
    let s := (s.setConn conn x).setFld fXT_CONN_CFG_STATE conn 0 1
    .next (if s.isOn fXT_CONN_CFG_CC_MODE conn 0 then s.setFld fXT_CONN_CC_RATE conn 0 (rate * 10).floor.toNat else s)
  else .next (s.discard loc value)

/-- The command itself: `value` is the value written. -/
def execConnect (conn : Nat) (loc : W64) (s : State) : Out := s.connectBy conn loc (2 ^ 60)

/-- CONNECTION_RESET (R270). -/
def execConnectionReset (conn : Nat) (s : State) : Out :=
  let ids := s.ownWrs conn
  let s := if s.ready conn then s.setFld fXT_CONN_STATUS_ERR_CAUSE conn 0 3 else s
  let s := ((s.tearAdmitted conn).failConnWRs conn).dropPartial conn
  .next ((s.setFld fXT_CONN_CFG_STATE conn 0 0).fp16Lost ids conn)

/-! ### Regions (R281, R284, R285) -/

/-- VALIDATE (R284). -/
def State.validateBy (r : Nat) (loc value : W64) (s : State) : Out :=
  if s.fld fXT_RGN_CTL_STATE r 0 = 0 then .next (s.setFld fXT_RGN_CTL_STATE r 0 1) else .next (s.discard loc value)

/-- The command itself: `value` is the value written. -/
def execValidate (r : Nat) (loc : W64) (s : State) : Out := s.validateBy r loc (2 ^ 60)

/-- REVOKE (R284). -/
def State.revokeBy (r : Nat) (loc value : W64) (s : State) : Out :=
  match s.fld fXT_RGN_CTL_STATE r 0 with
  | 0 => .next (s.signal (s.fld fXT_RGN_CTL_REVOKE_SYNC r 0) 1)
  | 1 => .next (s.setFld fXT_RGN_CTL_STATE r 0 2)
  | _ => .next (s.discard loc value)

/-- The command itself: `value` is the value written. -/
def execRevoke (r : Nat) (loc : W64) (s : State) : Out := s.revokeBy r loc (2 ^ 61)

/-- A region's admitted set: messages admitted to it and not complete, and this device's own requests on it (R284). -/
def State.admitted (s : State) (r : Nat) : Bool :=
  s.net.conns.any (fun e =>
    e.2.rx.any (fun m => m.refused.isNone && (m.opcode == 1 || m.opcode == 2) && m.region == r)
      || e.2.waiting.any fun m => m.opcode == 3 && m.region == r)
    || s.net.wrs.any fun w => w.issued && !w.internal && w.op != 6 && w.lRegion == r

/-- REVOCATION_COMPLETE (R284, R285). -/
def execRevocationComplete (r : Nat) (s : State) : Out :=
  if s.fld fXT_RGN_CTL_STATE r 0 = 2 ∧ !s.admitted r then
    let s := s.setFld fXT_RGN_CTL_KEY r 0 ((s.fld fXT_RGN_CTL_KEY r 0 + 1) % 256)
    let s := (s.setFld fXT_RGN_CTL_STATE r 0 0).bump .XT_RGN_REVOKES 0 0 1
    .next (s.signal (s.fld fXT_RGN_CTL_REVOKE_SYNC r 0) 1).retryFp16
  else .next s

/-! ### Sync objects and the trigger table (R286, R288 to R291) -/

/-- SY_VAL_WRITE (R286): it counts as a signal for the triggers. -/
def execSyValWrite (i : Nat) (value : W64) (s : State) : Out := .next ((s.setReg .SY_VAL i 0 value).releaseTriggers i)

/-- SY_ADD (R286). -/
def execSyAdd (i : Nat) (value : W64) (s : State) : Out := .next (s.signal i value)

/-- The 64 bytes of a slot of the trigger-table window (R288). -/
def State.slotBytes (s : State) (slot : Nat) : List Byte :=
  (List.range 8).flatMap fun i => leBytes 8 (s.reg .XT_TWR_WIN slot i).toNat

/-- The work request that a slot's bytes spell (R288). -/
def parseWR (slot : Nat) (b : List Byte) : WR :=
  let op := fieldAt b 0 1
  let fl := fieldAt b 1 1
  let len := fieldAt b 0x18 4
  { id := 0, slot := slot, op := op, triggered := fl.testBit 0, compEn := fl.testBit 1, conn := fieldAt b 2 2 % 2 ^ 13,
    trigSync := fieldAt b 4 2 % 2 ^ 14, compSync := fieldAt b 6 2 % 2 ^ 14, trigVal := BitVec.ofNat 64 (fieldAt b 8 8),
    compVal := BitVec.ofNat 64 (fieldAt b 0x10 8), len := if op = 5 then len % 2 ^ 24 else len,
    sendType := if op = 5 then len / 2 ^ 24 else 0, rHandle := fieldAt b 0x1C 4, rAddr := fieldAt b 0x20 8,
    lRegion := fieldAt b 0x28 2, signalSync := fieldAt b 0x2A 2 % 2 ^ 14, rearm := fieldAt b 0x2E 2,
    lAddr := fieldAt b 0x30 8, signalVal := BitVec.ofNat 64 (fieldAt b 0x38 8) }

/-- No reserved value or bit is set in a slot's bytes (R288, R289). -/
def slotOk (b : List Byte) : Bool :=
  let op := fieldAt b 0 1
  let len := fieldAt b 0x18 4
  [1, 2, 3, 5, 6].contains op && decide (fieldAt b 1 1 < 4) && decide (fieldAt b 2 2 < 2 ^ 13)
    && decide (fieldAt b 4 2 < 2 ^ 14) && decide (fieldAt b 6 2 < 2 ^ 14) && decide (fieldAt b 0x2A 2 < 2 ^ 14)
    && fieldAt b 0x2C 2 == 0
    && (if op = 5 then decide (len / 2 ^ 24 ≤ 4) else if op = 6 then len == 0 else decide (len ≤ 2 ^ 24))
    && (op == 5 || op == 6 || bits (fieldAt b 0x1C 4) 23 16 == 0)

/-- The request may be armed (R289). -/
def State.armOk (s : State) (b : List Byte) : Bool :=
  let w := parseWR 0 b
  let pd := s.connPd w.conn
  let r := w.lRegion
  slotOk b && s.ready w.conn
    && (w.op == 6 || (s.fld fXT_RGN_CTL_STATE r 0 == 1 && s.fld fXT_RGN_CTL_PD r 0 == pd
      && decide (w.lAddr + w.len ≤ 4096 * s.fld fXT_RGN_CTL_SIZE_4K r 0)))
    && (!w.triggered || s.fld fSY_CFG_PD w.trigSync 0 == pd) && (!w.compEn || s.fld fSY_CFG_PD w.compSync 0 == pd)

/-- ARM (R289, R290). -/
def State.armBy (slot : Nat) (loc value : W64) (s : State) : Out :=
  let b := s.slotBytes slot
  if s.fld fXT_TWR_CTL_STATE slot 0 = 0 ∧ s.armOk b then .next (s.armWR (parseWR slot b)) else .next (s.discard loc value)

/-- The command itself: `value` is the value written. -/
def execArm (slot : Nat) (loc : W64) (s : State) : Out := s.armBy slot loc (2 ^ 28)

/-- DISARM (R289). -/
def State.disarmBy (slot : Nat) (loc value : W64) (s : State) : Out :=
  match s.fld fXT_TWR_CTL_STATE slot 0 with
  | 1 =>
    let gone := fun (w : WR) => !w.internal && !w.issued && w.slot == slot
    let s := { s with net := { s.net with wrs := s.net.wrs.filter fun w => !gone w } }
    .next (s.setFld fXT_TWR_CTL_STATE slot 0 0)
  | 2 => .next (s.discard loc value)
  | _ => .next s

/-- The command itself: `value` is the value written. -/
def execDisarm (slot : Nat) (loc : W64) (s : State) : Out := s.disarmBy slot loc (2 ^ 29)

/-- OPS_ENTRY_GRANT (R290): the request that has waited longest takes an outstanding-operation entry. -/
def execOpsEntryGrant (s : State) : Out :=
  let wait := s.net.wrs.filter fun w => w.issued && !w.hasOp
  let first := wait.foldl (fun o w => match o with
    | some (x : WR) => if w.waitSince < x.waitSince then some w else o
    | none => some w) none
  match first with
  | none => .next s
  | some w =>
    if s.opsUsed < 65536 then .next ((s.bump .XT_OPS_FULL_NS 0 0 (s.now - w.waitSince)).takeOp w.id) else .next s

end Sys2Proof.Machine
end

