-- ==== Sys2Proof/Machine/Groups.lean ====
section
/-! DEFINITION. The events of a group: answers and their wait (R262), the loss of a member (R172), and the copying of a shard
onto this device (R173). -/

namespace Sys2Proof.Machine

/-! ### Answers at the head (R262) -/

/-- The fields of an answer message (log entry 16). -/
def parseAnswer (opcode member : Nat) (b : List Byte) : GroupAns :=
  { shard := 0, member := member, status := fieldAt b 10 1, flags := fieldAt b 12 2,
    skipped := if opcode = 0x01 then fieldAt b 40 4 else fieldAt b 16 8, lists := fieldAt b 46 2,
    records := (b.drop 56).take (16 * bits (fieldAt b 48 4) 24 0) }

/-- A copying replica has answered for a group update that is over. -/
def State.answered (key : W64) (m : Nat) (s : State) : State :=
  let left := fun (w : CopyWait) => if w.key = key then { w with members := w.members.filter (· != m) } else w
  { s with hq := { s.hq with copyWaits := (s.hq.copyWaits.map left).filter fun w => w.members != [] } }

/-- GROUP_ANSWER (R171, R262): the next answer received on a connection is merged, compared where a copying replica sends it,
or discarded as late. -/
def execGroupAnswer (conn : Nat) (s : State) : Out :=
  match s.takeSend conn 1 with
  | none => .next s
  | some (r, s) =>
    let key := BitVec.ofNat 64 (fieldAt r.data 0 8)
    match s.hq.groups.find? (·.key == key), s.memberOf conn with
    | some g, some m =>
      let a := parseAnswer g.opcode m r.data
      if g.awaited.any (·.1 == m) then .next (s.takeAnswer g.seq a)
      else if g.opcode != 0x01 && (s.copyMembers g.shard).contains m then
        .next (s.setGroup { g with copied := g.copied.filter (·.member != m) ++ [a] })
      else .next s
    | _, some m =>
      match s.hq.copyWaits.find? fun w => w.key == key && w.members.contains m with
      | some w => .next ((s.answered key m).failDiverged w.shard w.records [parseAnswer 0x10 m r.data])
      | none => .next (s.bump .HQ_GRP_LATE 0 0 1)
    | _, _ => .next (s.bump .HQ_GRP_LATE 0 0 1)

/-- GROUP_ANSWER_TIMEOUT (R262): the head's wait ends at its T_rr. -/
def execGroupAnswerTimeout (gq : Nat) (s : State) : Out :=
  match s.group? gq with
  | none => .next s
  | some g =>
    match g.tRr with
    | none => .next s
    | some t =>
      let s := s.reach t
      .next ((s.setGroup { g with expired := true }).settleGroup gq)

/-! ### Loss of a member (R172) -/

/-- A member's replica slots of one shard are failed, and SERVE moves when the serving one is among them. -/
def State.failReplicas (m sh : Nat) (s : State) : State :=
  let mine := (List.range 3).filter fun r => let x := s.replica sh r; decide (x.1 = 1 ∨ x.1 = 2) && x.2 == m
  let serving := mine.contains (s.fld fHQ_GRP_SHARD_SERVE sh 0)
  let s := forEach mine (fun r t => t.setReplica sh r 3) s
  match serving, (s.liveReplicas sh).head? with
  | true, some r => (s.setFld fHQ_GRP_SHARD_SERVE sh 0 r).bump .HQ_GRP_PROMOTIONS 0 0 1
  | _, _ => s

/-- MEMBER_LOST (R172). -/
def execMemberLost (m : Nat) (s : State) : Out :=
  let shards := (List.range 64).filter fun sh => s.isOn fHQ_GRP_SHARD_V sh 0
  let s := forEach shards (State.failReplicas m) s
  let hit := s.hq.groups.filter fun g => g.awaited.any (·.1 == m) && !g.answers.any (·.member == m)
  let drop := fun (g : GroupJob) => { g with awaited := g.awaited.filter fun w => w.1 != m }
  .next (forEach hit (fun g t => match t.group? g.seq with
    | some y => (t.setGroup (drop y)).settleGroup g.seq
    | none => t) s)

/-! ### A shard copy at its target (R173) -/

/-- The copy that runs on a connection for a version. -/
def State.shardCopy? (s : State) (conn k : Nat) : Option ShardCopy :=
  s.ten.shardCopies.find? fun x => x.conn == conn && x.ver == k

def State.setShardCopy (x : ShardCopy) (s : State) : State :=
  { s with ten := { s.ten with shardCopies :=
      (s.ten.shardCopies.map fun y => if y.conn = x.conn ∧ y.ver = x.ver then x else y) } }

/-- The version that an update's descriptor names. -/
def State.updVersion (s : State) (b : List Byte) : Option Nat :=
  (s.capture (uIndex b) (uNamed b) (uVersion b)).map (verKey (uIndex b))

/-- The lists that an update message touches: those of the slots it names, and those its new slots go to. -/
def State.updLists (s : State) (k : Nat) (msg : List Byte) : List Nat :=
  let b := (msg.drop 8).take 64
  let op := dOpcode b
  let data := msg.drop 72
  let n := uCount b
  let sz := entrySize op
  let len := if op = 0x10 ∨ op = 0x12 then s.dataLen k 0 (uForm b) else 0
  ((List.range n).flatMap fun i =>
    let e := parseEntry op ((data.drop (sz * i)).take sz)
    let code := BitVec.ofNat 1024 (leNat (((data.drop (sz * n + len * i)).take len).take (s.codeBits (k / 4) / 8)))
    let new := if op = 0x10 ∨ op = 0x12 then s.clustersOf k code e else []
    let old := if op = 0x10 then [] else refCluster e.oldA :: if e.oldB = refNone then [] else [refCluster e.oldB]
    old ++ new).eraseDups

/-- A message handed to the fabric context as it came. -/
def copyMsg (m : Bool × List Byte) : RxMsg :=
  { msn := 0, opcode := 0x05, len := m.2.length, sendType := 3, data := m.2, dei := m.1 }

/-- Apply the held updates of a version whose lists have all landed, in arrival order: one that shares a list with an earlier
one still held stays too. -/
def State.applyHeld (conn k : Nat) (landed : List Nat) : List (Bool × List Byte) → List Nat → State → State
  | [], _, s => s
  | m :: ms, behind, s =>
    let ls := s.updLists k m.2
    if ls.any fun l => !landed.contains l || behind.contains l then
      let keep := fun (x : ShardCopy) => { x with held := x.held ++ [m] }
      let s := match s.shardCopy? conn k with
        | some x => s.setShardCopy (keep x)
        | none => s
      State.applyHeld conn k landed ms (behind ++ ls) s
    else State.applyHeld conn k landed ms behind (s.receiveCmd conn (copyMsg m)).2

/-- Go through the updates held for a shard copy. -/
def State.drainHeld (conn k : Nat) (s : State) : State :=
  match s.shardCopy? conn k with
  | none => s
  | some x => (s.setShardCopy { x with held := [] }).applyHeld conn x.ver x.landed x.held []

/-- SHARD_COPY_STREAM (R173): the next message of the stream on a connection is list data, which waits until its list has
landed, or an update. The form of list data is the model's (log entry 40). -/
def execShardCopyStream (conn : Nat) (s : State) : Out :=
  match s.takeSend conn 3 with
  | none => .next s
  | some (r, s) =>
    let b := (r.data.drop 8).take 64
    if dOpcode b = 0x15 then
      match s.updVersion b with
      | none => .next s
      | some k =>
        let x : ShardCopy := { conn := conn, ver := k, shard := dShard b, total := (s.version k).count }
        let s := if (s.shardCopy? conn k).isSome then s
          else { s with ten := { s.ten with shardCopies := s.ten.shardCopies ++ [x] } }
        let x := (s.shardCopy? conn k).getD x
        .next (s.setShardCopy { x with incoming := x.incoming ++ [(uCount b, r.data.drop 72)] })
    else
      match (s.updVersion b).bind (s.shardCopy? conn) with
      | some x => .next ((s.setShardCopy { x with held := x.held ++ [(r.dei, r.data)] }).drainHeld conn x.ver)
      | none => .next (s.receiveCmd conn r).2

/-- One slot of list data. -/
structure CopiedSlot where
  ord : Nat
  entry : W64
  std : BitVec 16
  isAlias : Bool
  tomb : Bool
  /-- its record could not be read at the source -/
  bare : Bool
  code : Code
  record : List Byte
  deriving DecidableEq, Repr

/-- Slots in the data of one message: 32 bytes, the code and the record of each (log entry 40). -/
def State.copiedSlots (s : State) (k : Nat) (data : List Byte) : List CopiedSlot :=
  let len := s.dataLen k 0 1
  let cb := s.codeBits (k / 4) / 8
  (List.range (data.length / (32 + len))).map fun i =>
    let b := (data.drop ((32 + len) * i)).take (32 + len)
    { ord := fieldAt b 0 8, entry := BitVec.ofNat 64 (fieldAt b 8 8), std := BitVec.ofNat 16 (fieldAt b 16 2),
      isAlias := fieldAt b 18 1 == 1, tomb := fieldAt b 19 1 == 1,
      bare := fieldAt b 20 1 == 1, code := BitVec.ofNat 1024 (fieldAt b 32 cb),
      record := b.drop (32 + cb) }

/-- The block of a copied ordinal, which keeps the ordinals of the source; none is made where another list has taken them. -/
def State.copyBlock (k cl ord : Nat) (s : State) : State :=
  let x := s.version k
  let base := ord / 256 * 256
  if x.takes base then s
  else
    let d := (x.list cl).die
    match (s.setVersion k { x with ordNext := x.ordNext.set d base }).newBlock k cl with
    | none => s
    | some t => t.modVersion k fun y => { y with ordNext := y.ordNext.set d (x.ordNext.getD d 0) }

/-- Place a copied slot; one with a re-rank record waits for its flash sector. A slot that is there already can only have got
its tombstone since. -/
def State.landSlot (k cl : Nat) (c : CopiedSlot) (s : State) : State :=
  let s := s.copyBlock k cl c.ord
  let tomb := fun (x : Version) => if c.tomb && !x.tomb.contains c.ord then { x with tomb := x.tomb ++ [c.ord] } else x
  match ((s.version k).list cl).blocks.find? fun b => b.ordBase == c.ord / 256 * 256 with
  | none => s
  | some b =>
    let j := c.ord % 256
    let s := s.modVersion k tomb
    if decide (j < b.taken) && !b.unwritten.contains j then s
    else
    let grow := fun (y : Block) => if y.seq = b.seq then
        { y with taken := max y.taken (j + 1),
                 unwritten := y.unwritten ++ (List.range (j + 1)).filter fun i => decide (y.taken ≤ i) } else y
    let s := s.modList k cl fun l => { l with blocks := l.blocks.map grow }
    let whole := c.bare || c.record == []
    let n : NewSlot := { ver := k, entry := 0, cluster := cl, ord := c.ord, seq := b.seq, slot := j,
                         canon := if c.isAlias then c.entry.toNat % 2 ^ 40 else c.ord, isAlias := c.isAlias,
                         extId := c.entry, std := c.std, code := c.code, record := c.record,
                         durable := whole, sidecar := 0, written := whole }
    if n.durable then s.writeNew n
    else
      let seq := s.hq.nextSeq
      let s := { s with hq := { s.hq with nextSeq := seq + 1 } }
      let job : UpdJob := { seq := seq, ctx := 0, ver := k, opcode := 0x15, count := 1, slots := [n] }
      let die := ((s.version k).list cl).die
      let req : AppendReq := { seq := seq, slotIx := 0, ver := k, cluster := cl, die := die,
                               tenant := (s.version k).owner, record := c.record }
      { s with idx := { s.idx with updates := s.idx.updates ++ [job] }
               fl := { s.fl with appendQ := s.fl.appendQ.upd [] die (· ++ [req]) } }

/-- SHARD_LIST_LANDED (R173): of the copies that run on the connection, the first that has data of the list, or has not
landed it. -/
def execShardListLanded (conn cluster : Nat) (s : State) : Out :=
  let due := fun (x : ShardCopy) => x.conn == conn && (x.incoming.any (·.1 == cluster) || !x.landed.contains cluster)
  match s.ten.shardCopies.find? due with
  | none => .next s
  | some x =>
    let mine := (x.incoming.filter (·.1 == cluster)).flatMap fun (e : Nat × List Byte) => s.copiedSlots x.ver e.2
    let s := forEach mine (State.landSlot x.ver cluster) s
    let rest := x.incoming.filter fun (e : Nat × List Byte) => e.1 != cluster
    let landed := if x.landed.contains cluster then x.landed else x.landed ++ [cluster]
    .next ((s.setShardCopy { x with incoming := rest, landed := landed }).drainHeld conn x.ver)

/-- A shard copy is complete: every list has landed, its records are durable, and no update is held (R173). -/
def State.copyDone (s : State) (x : ShardCopy) : Bool :=
  decide (x.total ≤ x.landed.length) && x.held == [] && x.incoming == []
    && !s.idx.updates.any fun j => j.opcode == 0x15 && j.ver == x.ver

/-- At an epoch, the replicas of this device whose copies are all complete become live, and the copies end (R173). -/
def State.joinReplicas (s : State) : State :=
  let shards := (s.ten.shardCopies.map (·.shard)).eraseDups.filter fun sh =>
    s.ten.shardCopies.all fun x => x.shard != sh || s.copyDone x
  forEach shards (fun sh t =>
    let mine := (List.range 3).filter fun r => t.replica sh r == (2, t.selfMember)
    let t := forEach mine (fun r u => u.setReplica sh r 1) t
    { t with ten := { t.ten with shardCopies := t.ten.shardCopies.filter (·.shard != sh) } }) s

/-! ### A shard copy at its source (R173) -/

/-- Send every list of a version as it stands, a block to a message; the updates in progress are noted, whose slots follow. -/
def State.sendVersion (conn sh k : Nat) (s : State) : State :=
  let x := s.version k
  let tombs := (s.idx.retireQ.filter (·.ver == k)).map fun r => refOrd r.ref
  let list := fun (cl : Nat) (t : State) =>
    let blocks := (x.list cl).blocks.filter fun b => b.fill != 0
    let data := fun (b : Block) =>
      (List.range b.fill).flatMap fun i => t.slotData k tombs (b.ordBase + i) (b.codes.getD 0 i)
    if blocks = [] then t.postList conn sh k cl [] else forEach blocks (fun b u => u.postList conn sh k cl (data b)) t
  let s := forEach (List.range x.count) list s
  let jobs := (s.idx.updates.filter fun j => j.slots.any (·.ver == k)).map (·.seq)
  { s with ten := { s.ten with shardSends := s.ten.shardSends ++ [{ conn := conn, ver := k, shard := sh, jobs := jobs }] } }

/-- The replicas of a shard that have become copying: the device that holds its lowest live replica is the source of each. A
shard is every VALID index version of the device (log entry 40). -/
def State.sendShard (sh : Nat) (before : List Nat) (s : State) : State :=
  let new := (s.copyMembers sh).filter fun m => !before.contains m && m != s.selfMember
  let source := (s.liveReplicas sh).head?.any fun r => (s.replica sh r).2 == s.selfMember
  let vers := (List.range 64).filter fun k => s.idxValid (k / 4) (k % 4)
  if s.isOn fHQ_GRP_SHARD_V sh 0 && source then
    forEach new (fun m t => forEach vers (fun k u => u.sendVersion (u.memberConn m) sh k) t) s
  else s

/-- A write of HQ_GRP_SHARD (R171, R173). -/
def State.writeShard (sh : Nat) (value : W64) (s : State) : State :=
  (s.writeReg .HQ_GRP_SHARD sh 0 value).sendShard sh (s.copyMembers sh)

end Sys2Proof.Machine
end

