-- ==== Sys2Proof/Machine/Leases.lean ====
section
/-! DEFINITION. Leases on the state of group commands: the pool's records and the head's side (R313 to R315). -/

namespace Sys2Proof.Machine

/-- A lease message as its 32 bytes give it. -/
def parseLease (b : List Byte) : LeaseMsg :=
  { lop := fieldAt b 0 1, lstatus := fieldAt b 1 1, holder := fieldAt b 2 1, epoch := fieldAt b 4 4,
    key := BitVec.ofNat 64 (fieldAt b 8 8) }

/-- Take the next lease message of a connection when it has this LOP; messages of reserved LOP are passed over. -/
def State.takeLease (conn lop : Nat) (s : State) : Option (LeaseMsg × State) :=
  let x := s.conn conn
  let known := fun (m : RxMsg) => m.sendType == 4 && decide (1 ≤ fieldAt m.data 0 1) && decide (fieldAt m.data 0 1 ≤ 6)
  match x.inbox.find? known with
  | some m =>
    if fieldAt m.data 0 1 = lop then
      let s := s.freePool conn m
      some (parseLease m.data, s.setConn conn { x with inbox := x.inbox.filter (·.msn != m.msn) })
    else none
  | none => none

/-! ### The pool -/

def State.poolLease? (s : State) (key : W64) : Option PoolLease := s.ten.poolLeases.find? (·.key == key)

def State.setPoolLease (l : PoolLease) (s : State) : State :=
  let rest := s.ten.poolLeases.filter (·.key != l.key)
  let s := { s with ten := { s.ten with poolLeases := rest ++ [l] } }
  s.raise .TN_POOL_RECORDS_MAX 0 0 s.ten.poolLeases.length

def State.dropPoolLease (key : W64) (s : State) : State :=
  { s with ten := { s.ten with poolLeases := s.ten.poolLeases.filter (·.key != key) } }

/-- REPLY with what the record says, or LEASE_LOST. -/
def State.replyLease (conn : Nat) (m : LeaseMsg) (ok : Bool) (s : State) : State :=
  match s.poolLease? m.key, ok with
  | some r, true => s.postSend conn 4 false (leaseBytes 6 0 r.holder r.epoch m.key)
  | _, _ => s.postSend conn 4 false (leaseBytes 6 stLeaseLost m.holder m.epoch m.key)

/-- A LEASE record: the key, and the epochs held and met. A conflict is of class 0, a lost lease of class 4 (R319). -/
def leaseErr (key : W64) (held met cls : Nat) : ErrRec :=
  { mkErr 0x0421 4 0 key.toNat (held * 2 ^ 32 + met) 0 0 with cls := cls }

/-- A message carries a higher epoch than the record: the pool's copy is the lower one, and the pool takes the role that the
message gives it (R315). -/
def State.poolYields (r : PoolLease) (m : LeaseMsg) (s : State) : State :=
  ((s.setPoolLease { r with epoch := m.epoch, holder := m.holder }).bump .TN_LEASE_CONFLICT 0 0 1).log
    (leaseErr m.key r.epoch m.epoch 0)

/-- A record's expiry is 4 ms after the message that extends it. -/
def State.extendLease (key : W64) (s : State) : State :=
  match s.poolLease? key with
  | some r => s.setPoolLease { r with expiry := s.now + 4 * ms }
  | none => s

/-- A pool meets a message for a record it has. -/
def State.poolAct (conn : Nat) (m : LeaseMsg) (r : PoolLease) (s : State) : State :=
  match m.lop with
  | 2 =>
    if m.epoch = r.epoch ∧ m.holder = r.holder then (s.extendLease m.key).replyLease conn m true
    else if r.epoch < m.epoch then ((s.poolYields r m).extendLease m.key).replyLease conn m true
    else s.replyLease conn m true
  | 3 =>
    if m.epoch = r.epoch + 1 then (s.setPoolLease { r with epoch := m.epoch, holder := m.holder }).replyLease conn m true
    else if r.epoch < m.epoch then (s.poolYields r m).replyLease conn m true
    else s.replyLease conn m true
  | 4 =>
    if m.epoch = r.epoch + 1 then
      ((s.setPoolLease { r with epoch := m.epoch, holder := m.holder }).extendLease m.key).replyLease conn m true
    else s.replyLease conn m false
  | 5 => s.dropPoolLease m.key
  | _ => s

/-- A message of the head at the pool, which serves while TN_POOL_CTL.EN is 1. -/
def State.poolMsg (conn lop : Nat) (s : State) : State :=
  match s.takeLease conn lop with
  | none => s
  | some (m, s) =>
    match s.poolLease? m.key with
    | some r => s.poolAct conn m r
    | none => s.replyLease conn m false

/-- ACQUIRE (R314): the record is created with epoch 1, holder the head. -/
def execAcquire (conn : Nat) (s : State) : Out :=
  match s.takeLease conn 1 with
  | none => .next s
  | some (m, s) =>
    match s.poolLease? m.key with
    | some r =>
      if r.epoch = 1 ∧ r.holder = m.holder then .next ((s.extendLease m.key).replyLease conn m true)
      else .next (s.replyLease conn m false)
    | none =>
      if s.isOn fTN_POOL_CTL_EN 0 0 ∧ s.ten.poolLeases.length < 65536 then
        .next ((s.setPoolLease { key := m.key, epoch := 1, holder := m.holder, expiry := s.now + 4 * ms }).replyLease conn m
          true)
      else .next (s.replyLease conn m false)

/-- RENEW (R314). -/
def execRenew (conn : Nat) (s : State) : Out := .next (s.poolMsg conn 2)
/-- PARK (R314). -/
def execPark (conn : Nat) (s : State) : Out := .next (s.poolMsg conn 3)
/-- CLAIM (R315). -/
def execClaim (conn : Nat) (s : State) : Out := .next (s.poolMsg conn 4)
/-- RELEASE (R314). -/
def execRelease (conn : Nat) (s : State) : Out := .next (s.poolMsg conn 5)

/-- POOL_LEASE_EXPIRY (R314). -/
def execPoolLeaseExpiry (key : W64) (s : State) : Out :=
  match s.poolLease? key with
  | some r => .next ((s.reach r.expiry).dropPoolLease key)
  | none => .next s

/-! ### The head -/

/-- The head stops acting on the state, and its command ends with LEASE_LOST. -/
def State.loseLease (l : HeadLease) (met : Nat) (s : State) : State :=
  let s := s.dropLease l.key
  match s.group? l.seq with
  | none => s
  | some g =>
    let e := leaseErr l.key l.epoch met 4
    let e := { e with ctx := g.ctx, commandId := g.commandId, tenant := g.tenant, status := stLeaseLost }
    ((s.bump .TN_LEASE_LOST 0 0 1).log e).tearGroup g stLeaseLost

/-- The first phase of a group command that now holds its lease. -/
def State.firstPhase (g : GroupJob) (s : State) : State :=
  if g.opcode = 0x01 then s.phaseSearch g else s.phaseUpdate g

/-- The pool has confirmed the last message (R314). -/
def State.leaseConfirmed (l : HeadLease) (s : State) : State :=
  let l' := { l with confirmed := l.lastSent }
  if l.st = 0 then
    let s := s.setLease { l' with st := 1, epoch := l.pendingEpoch }
    let s := if l.epoch = 0 then s.bump .TN_LEASE_ACQUIRED 0 0 1 else s
    match s.group? l.seq with
    | some g =>
      if g.fanned then
        let s := s.settleGroup l.seq
        if (s.group? l.seq).isSome then s.park g else s
      else s.firstPhase g
    | none => s
  else s.setLease l'

/-- REPLY (R315): the head's last message is confirmed, its lease is lost, or its copy carries the lower epoch. -/
def execReply (conn : Nat) (s : State) : Out :=
  match s.takeLease conn 6 with
  | none => .next s
  | some (m, s) =>
    match s.lease? m.key with
    | none => .next s
    | some l =>
      let holder := if l.st = 2 then s.fld fTN_LEASE_CFG_POOL_MEMBER 0 0 else s.selfMember
      if m.lstatus ≠ 0 then .next (s.loseLease l m.epoch)
      else if m.epoch = l.pendingEpoch ∧ m.holder = holder then .next (s.leaseConfirmed l)
      else if l.pendingEpoch ≤ m.epoch then
        .next (((s.setLease { l with st := 2, epoch := m.epoch, pendingEpoch := m.epoch, confirmed := l.lastSent }).bump
          .TN_LEASE_CONFLICT 0 0 1).log (leaseErr m.key l.epoch m.epoch 0))
      else .next s

/-- LEASE_RENEW_TIMER (R314): 1 ms after the last confirmed send, a held lease is renewed. -/
def execLeaseRenewTimer (key : W64) (s : State) : Out :=
  match s.lease? key with
  | some l =>
    if l.st = 1 ∧ l.lastSent = l.confirmed then .next ((s.reach (l.confirmed + ms)).sendLease 2 l.epoch key) else .next s
  | none => .next s

/-- LEASE_EXPIRY (R314): 4 ms after the send of the last message that the pool confirmed. -/
def execLeaseExpiry (key : W64) (s : State) : Out :=
  match s.lease? key with
  | some l => .next ((s.reach (l.confirmed + 4 * ms)).loseLease l 0)
  | none => .next s

end Sys2Proof.Machine
end

