-- ==== Sys2Proof/Machine/Service.lean ====
section
/-! DEFINITION. Bands, fabric lanes and control cores going out of service and coming back (R337 to R340), power gating (R385)
and the stack conditions of a crown die (R387, R388). -/

namespace Sys2Proof.Machine

/-! ### Service registers (R338) -/

/-- Unit kinds of R317 that have a service register of this layout: 2 band, 7 fabric lane, 8 control core. -/
def svcReg (kind : Nat) : RegName :=
  match kind with
  | 7 => .XT_LANE_SVC
  | 8 => .HG_CORE_SVC
  | _ => .BD_SVC

def fState (kind : Nat) : Fld := ⟨svcReg kind, 31, 29⟩
def fCause (kind : Nat) : Fld := ⟨svcReg kind, 28, 26⟩
def fShadow (kind : Nat) : Fld := ⟨svcReg kind, 23, 12⟩

/-- The unit exists and has a service register. -/
def svcUnit (u : UnitId) : Bool :=
  (u.kind == 2 && decide (u.num < 50)) || (u.kind == 7 && decide (u.num < 18)) || (u.kind == 8 && decide (u.num < 4))

def State.svc (s : State) (u : UnitId) : Nat := s.fld (fState u.kind) u.num 0
def State.setSvc (u : UnitId) (st : Nat) (s : State) : State := s.setFld (fState u.kind) u.num 0 st
def State.setCause (u : UnitId) (c : Nat) (s : State) : State := s.setFld (fCause u.kind) u.num 0 c

/-- A unit as one DETAIL word: its number (log entry 41). -/
def unitErr (code : Nat) (u : UnitId) (d1 d2 : Nat) : ErrRec := mkErr code u.kind u.num u.num d1 d2 0

/-! ### Spares (R337) -/

def laneDie (l : Nat) : Nat := l / 9

/-- The logical lanes of a die: L0 to L7, L9 to L16. -/
def dieLanes (d : Nat) : List Nat := (List.range 8).map (9 * d + ·)

/-- The spare of a unit: a lane of its die, or a core, in state SPARE. -/
def State.spareOf (s : State) (u : UnitId) : Option Nat :=
  if u.kind = 7 then ((List.range 9).map (9 * laneDie u.num + ·)).find? fun l => s.svc ⟨7, l⟩ == 6
  else if u.kind = 8 then firstFit (fun k => s.svc ⟨8, k⟩ == 6) 4
  else none

/-- The spare takes a unit's place at once: the lane position, or the core's work (R337). -/
def State.takePlace (u : UnitId) (s : State) : State :=
  match s.spareOf u with
  | none => s
  | some p =>
    let s := s.setSvc ⟨u.kind, p⟩ 0
    if u.kind = 7 then
      match (dieLanes (laneDie u.num)).find? fun l => s.laneAt l == u.num with
      | some l => { s with ras := { s.ras with laneMap := s.ras.laneMap.put l p } }
      | none => s
    else s.bump .HG_CORE_FAILOVERS 0 0 1

/-- The copy of a record in use: the one that verifies, and of two the one with the higher SEQUENCE (R343, R346). -/
def RecCopies.usesB (r : RecCopies) : Bool := r.okB && (!r.okA || decide (r.seqA < r.seqB))
def RecCopies.valid (r : RecCopies) : Bool := r.okA || r.okB
def RecCopies.sequence (r : RecCopies) : Nat := if r.usesB then r.seqB else if r.okA then r.seqA else 0

/-- A record is written to the copy not in use, with the next SEQUENCE (R346). -/
def RecCopies.write (r : RecCopies) : RecCopies :=
  if r.usesB then { r with seqA := r.sequence + 1, okA := true } else { r with seqB := r.sequence + 1, okB := true }

/-- A repair enters the repair record, which gets a new copy (R337, R346). -/
def State.writeRepair (e : Repair) (s : State) : State :=
  if s.boot.repairs.contains e then s
  else { s with boot := { s.boot with repairs := s.boot.repairs ++ [e], repair := RecCopies.write s.boot.repair } }

/-! ### Power gating (R385) -/

/-- A band is gated while nobody owns it and it holds no work, or while it is OUT. -/
def State.gateCond (s : State) (g : Nat) : Bool :=
  (!s.isOn fTN_BAND_V g 0 && s.onBand g == []) || s.svc ⟨2, g⟩ == 2

def State.gate (g : Nat) (s : State) : State :=
  if s.gateCond g && !s.isOn fBD_THR_GATED g 0 then
    let s := s.setFld fBD_THR_GATED g 0 1
    { s with power := { s.power with gatedSince := s.power.gatedSince.put g s.now, waking := s.power.waking.del g } }
  else s

def State.ungate (g : Nat) (s : State) : State :=
  if s.isOn fBD_THR_GATED g 0 then
    let s := (s.setFld fBD_THR_GATED g 0 0).bump .BD_GATED_NS g 0 (s.now - s.power.gatedSince.getD 0 g)
    { s with power := { s.power with gatedSince := s.power.gatedSince.del g, waking := s.power.waking.del g } }
  else { s with power := { s.power with waking := s.power.waking.del g } }

/-- A gated band that a commit has given an owner starts to wake. -/
def State.wake (g : Nat) (s : State) : State :=
  if s.isOn fBD_THR_GATED g 0 && !s.gateCond g && (s.power.waking.get? g).isNone then
    { s with power := { s.power with waking := s.power.waking.put g (s.now + 40 * us) } }
  else s

/-- BAND_WAKE (R385). -/
def execBandWake (band : Nat) (s : State) : Out :=
  match s.power.waking.get? band with
  | none => .next s
  | some t => .next ((s.reach t).ungate band)

/-! ### Temperature (R386, R387) -/

/-- A stack's MR4 reports above the nominal refresh rate; it reports its highest code (log entry 42). -/
def mr4Hot (code : Nat) : Bool := decide (9 < code)
def mr4Top (code : Nat) : Bool := decide (31 ≤ code)

def State.throttleC (s : State) : Nat := s.objNat 0xC010 0 95

/-- The temperature of a crown die in quarters of a degree, its stacks' conditions counted. -/
def State.crownTemp (s : State) (d : Nat) : Int :=
  let codes := (List.range 4).map fun i => s.power.mr4.getD 0 (4 * d + i)
  let t := s.power.temps.getD d 0
  let t := if codes.any mr4Hot then max t (4 * (s.throttleC : Int)) else t
  if codes.any mr4Top then max t 440 else t

/-! ### Leaving service (R337, R339) -/

/-- A unit in service, or a spare, starts to drain: no launch on a band; the spare takes the place of a lane or core. -/
def State.leaveService (u : UnitId) (cause : Nat) (s : State) : State :=
  let st := s.svc u
  if st = 0 ∨ st = 6 then
    let s := (s.setSvc u 1).setCause u cause
    let s := if u.kind = 2 then s.setFld fBD_STATUS_IN_SERVICE u.num 0 0 else s
    if st = 0 then s.takePlace u else s
  else if 3 ≤ st ∧ st ≤ 5 then
    let s := { s with ras := { s.ras with unitPending := s.ras.unitPending.del (Nat.pair u.kind u.num) } }
    let s := (s.setSvc u 2).setCause u cause
    if u.kind = 2 then s.gate u.num else s
  else s

/-- REMOVE (R338, R339); discarded where no spare could take the unit's place, and while a self-test runs on it. -/
def State.removeBy (u : UnitId) (loc value : W64) (s : State) : Out :=
  let st := s.svc u
  let bare := decide (u.kind ≠ 2) && st == 0 && (s.spareOf u).isNone
  if !svcUnit u ∨ (st ≠ 0 ∧ st ≠ 6) ∨ bare ∨ s.testing u then .next (s.discard loc value)
  else .next (s.leaveService u 1)

/-- The command itself: `value` is the value written. -/
def execRemove (u : UnitId) (loc : W64) (s : State) : Out := s.removeBy u loc (svcWord 1)

/-- UNIT_DRAINED (R339): a unit that holds no work is powered down. -/
def execUnitDrained (u : UnitId) (s : State) : Out :=
  if !svcUnit u ∨ s.svc u ≠ 1 then .next s
  else if u.kind = 2 then
    if s.onBand u.num ≠ [] then .next s else .next ((s.setSvc u 2).gate u.num)
  else .next (s.setSvc u 2)

/-- RETURN (R339): an OUT unit is reset and tested; a band not while its die is at or above CROWN_THROTTLE_C (R388). -/
def State.returnUnitBy (u : UnitId) (loc value : W64) (s : State) : Out :=
  let hot := u.kind == 2 && decide (4 * (s.throttleC : Int) ≤ s.crownTemp (dieOf u.num))
  if !svcUnit u ∨ s.svc u ≠ 2 ∨ hot ∨ s.testing u then .next (s.discard loc value)
  else
    let s := (s.setSvc u 3).setFld (fShadow u.kind) u.num 0 0
    if u.kind = 2 ∧ !s.gateCond u.num then .next (s.ungate u.num) else .next s

/-- The command itself: `value` is the value written. -/
def execReturnUnit (u : UnitId) (loc : W64) (s : State) : Out := s.returnUnitBy u loc (svcWord 2)

/-- A returning unit fails its test or its shadow traffic: OUT with CAUSE 4. -/
def State.returnUnitFailed (u : UnitId) (s : State) : State :=
  let s := ((s.setSvc u 2).setCause u 4).bump .HG_RTS_FAILED 0 0 1
  if u.kind = 2 then s.gate u.num else s

/-- UNIT_SELF_TEST_DONE (R337, R339): repairs are applied, or the unit is OUT again; a band has two liners. -/
def execUnitSelfTestDone (u : UnitId) (signature expected : W64) (tileFaults : Nat) (s : State) : Out :=
  if !svcUnit u ∨ s.svc u ≠ 3 then .next s
  else
    let faults := popcount 18 tileFaults
    if signature ≠ expected ∨ (u.kind = 2 ∧ 3 ≤ faults) then
      .next ((s.returnUnitFailed u).log (unitErr 0x0430 u signature.toNat expected.toNat))
    else
      let s := if u.kind = 2 then
          let t := s.ras.tiles.getD {} u.num
          let t := { t with linersFree := min t.linersFree (2 - faults), failed := tileFaults, resets := [] }
          { s with ras := { s.ras with tiles := s.ras.tiles.put u.num t } }
        else s
      .next (s.setSvc u 4)

/-- Agreements that shadow traffic needs (R340). -/
def shadowNeed (kind : Nat) : Nat := if kind = 2 then 256 else 1

/-- UNIT_SHADOW_ITEM (R340). -/
def execUnitShadowItem (u : UnitId) (agree compared : Bool) (s : State) : Out :=
  if !svcUnit u ∨ s.svc u ≠ 4 ∨ !compared then .next s
  else
    let n := s.fld (fShadow u.kind) u.num 0
    if agree then
      let s := s.setFld (fShadow u.kind) u.num 0 (min 4095 (n + 1))
      if shadowNeed u.kind ≤ n + 1 then
        let s := (s.setSvc u 5).bump .HG_RTS_PASSED 0 0 1
        .next { s with ras := { s.ras with unitPending := s.ras.unitPending.put (Nat.pair u.kind u.num) s.now } }
      else .next s
    else .next ((s.returnUnitFailed u).log (unitErr 0x0431 u n 0))

/-- ABORT_RETURN (R339). -/
def State.abortReturnBy (u : UnitId) (loc value : W64) (s : State) : Out :=
  if !svcUnit u ∨ (s.svc u ≠ 3 ∧ s.svc u ≠ 4) ∨ s.testing u then .next (s.discard loc value)
  else
    let s := s.setSvc u 2
    if u.kind = 2 then .next (s.gate u.num) else .next s

/-- The command itself: `value` is the value written. -/
def execAbortReturn (u : UnitId) (loc : W64) (s : State) : Out := s.abortReturnBy u loc (svcWord 3)

/-- CORE_WATCHDOG (R337): a core that misses its watchdog fails, and the spare resumes its work. -/
def execCoreWatchdog (k : Nat) (s : State) : Out :=
  if 4 ≤ k then .next s else .next (s.leaveService ⟨8, k⟩ 2)

/-- LANE_FAILED (R337). -/
def execLaneFailed (l cause : Nat) (s : State) : Out :=
  if 18 ≤ l then .next s else .next ((s.log (mkErr 0x0303 7 l l cause 0 0)).leaveService ⟨7, l⟩ 2)

/-- A unit in JOIN_PENDING joins at a composition epoch: a lane or core whose replacement stays in use becomes the new
spare; its repair enters the repair record (R337, R339, R340). -/
def State.joinUnit (u : UnitId) (epoch : Nat) (s : State) : State :=
  let lane := (dieLanes (laneDie u.num)).find? fun l => s.laneAt l == u.num
  let others := ((List.range 4).filter fun k => s.svc ⟨8, k⟩ == 0).length
  let spare := if u.kind = 7 then lane.isNone else u.kind == 8 && decide (3 ≤ others)
  let s := s.setSvc u (if spare then 6 else 0)
  let s := { s with ras := { s.ras with unitPending := s.ras.unitPending.del (Nat.pair u.kind u.num) } }
  let s := if u.kind = 2 then
      let bad := (List.range 18).filter fun i => (s.ras.tiles.getD {} u.num).failed.testBit i
      forEach ((List.range bad.length).zip bad) (fun e t => t.writeRepair ⟨2, u.num, 0, 16 + e.1, e.2⟩)
        (s.setFld fBD_STATUS_IN_SERVICE u.num 0 1)
    else if u.kind = 7 then
      forEach ((dieLanes (laneDie u.num)).filter fun l => s.laneAt l != l) (fun l t => t.writeRepair ⟨7, l, 1, t.laneAt l, l⟩) s
    else s
  s.log (unitErr 0x0432 u epoch 0)

/-- The units that wait to join. -/
def State.pendingUnits (s : State) : List UnitId :=
  ((List.range 50).map (UnitId.mk 2) ++ (List.range 18).map (UnitId.mk 7) ++ (List.range 4).map (UnitId.mk 8)).filter
    fun u => s.svc u == 5

/-- CRITICAL_TEMPERATURE (R388): the bands of the die leave service as by a fault. -/
def execCriticalTemperature (die : Nat) (s : State) : Out :=
  let s := { s with power := { s.power with critEvents := s.power.critEvents + 1 } }
  let mine := ((List.range 10).map (10 * die + ·)).filter fun g => s.svc ⟨2, g⟩ == 0
  .next (forEach mine (fun g t => t.leaveService ⟨2, g⟩ 2) s)

end Sys2Proof.Machine
end

