-- ==== Sys2Proof/Machine/Composition.lean ====
section
/-! DEFINITION. The composition of the device and its epochs: commits, departing bands, units that join (R304 to R310). -/

namespace Sys2Proof.Machine

/-! ### The checks of a commit (R306) -/

/-- A staged field holds a reserved value: a band of no partition, a grant no die could hold. -/
def State.stagedBad (s : State) : Bool :=
  ((List.range 50).any fun g => s.isOn fTN_CMP_BAND_V g 0 && decide (50 ≤ s.fld fTN_CMP_BAND_PN g 0))
    || (List.range 50).any fun p => s.isOn fTN_CMP_PART_V p 0 && decide (122880 < s.fld fTN_CMP_PART_GRANT_MIB p 0)

/-- Bands that the staged map gives a partition. -/
def State.stagedBands (s : State) (p : Nat) : List Nat :=
  (List.range 50).filter fun g => s.isOn fTN_CMP_BAND_V g 0 && s.fld fTN_CMP_BAND_PN g 0 == p

def State.stagedUnserved (s : State) : Bool :=
  ((List.range 50).any fun g => s.isOn fTN_CMP_BAND_V g 0 && !s.bandUp g)
    || (List.range 50).any fun p => s.isOn fTN_CMP_PART_V p 0 && s.stagedBands p == []

/-- A context bound to a partition is not CLOSED. -/
def State.partInUse (s : State) (p : Nat) : Bool :=
  (List.range 256).any fun c => s.isOn fHQ_CTX_BIND_V c 0 && s.ctxPn c == p && s.ctxState c != 0

def State.stagedTakesUsed (s : State) : Bool :=
  (List.range 50).any fun p => s.isOn fTN_PART_V p 0 && s.partInUse p
    && (!s.isOn fTN_CMP_PART_V p 0 || s.fld fTN_CMP_PART_TENANT p 0 != s.fld fTN_PART_TENANT p 0)

/-- Charge of the grants of a tenant, on its five dies, in 4 KiB units (R307). -/
def State.grantsInForce (s : State) (t : Nat) : Nat :=
  (List.range 50).foldl (fun n p =>
    if s.isOn fTN_PART_V p 0 ∧ s.fld fTN_PART_TENANT p 0 = t then n + 1280 * s.fld fTN_PART_GRANT_MIB p 0 else n) 0

def State.grantsStaged (s : State) (t : Nat) : Nat :=
  (List.range 50).foldl (fun n p =>
    if s.isOn fTN_CMP_PART_V p 0 ∧ s.fld fTN_CMP_PART_TENANT p 0 = t then n + 1280 * s.fld fTN_CMP_PART_GRANT_MIB p 0
    else n) 0

def State.stagedTooLarge (s : State) : Bool :=
  let all := (List.range 50).foldl (fun n p =>
    if s.isOn fTN_CMP_PART_V p 0 then n + s.fld fTN_CMP_PART_GRANT_MIB p 0 else n) 0
  decide (122880 < all) || s.diesUp.any (fun d => decide (s.dieCapacity d < 256 * all)) || (List.range 256).any fun t =>
    let old := s.grantsInForce t
    let new := s.grantsStaged t
    decide (old < new) && decide (s.limit t 0 < s.used t 0 - old + new)

/-- A commit is being applied: a band still departs. -/
def State.applying (s : State) : Bool := s.ten.departing != []

/-- The first cause that refuses a commit, or none. -/
def State.commitCause (s : State) : Option Nat :=
  if s.stagedBad then some 1
  else if s.stagedUnserved then some 2
  else if s.stagedTakesUsed then some 3
  else if s.stagedTooLarge then some 4
  else if s.applying then some 5
  else none

/-! ### An accepted commit (R307) -/

/-- Owner of a band in a map register, when it has one. -/
def bandPn (v : W64) : Option Nat := if Fld.get fTN_BAND_V v = 1 then some (Fld.get fTN_BAND_PN v) else none

/-- Take a band's new owner: BD_STATUS.PN names it. -/
def State.takeOwner (g : Nat) (s : State) : State :=
  s.setFld fBD_STATUS_PN g 0 ((bandPn (s.reg .TN_BAND g 0)).getD 0x3F)

/-- One band passes to the staged map: a band that loses its owner departs until it is drained. -/
def State.commitBand (g : Nat) (s : State) : State :=
  let old := bandPn (s.reg .TN_BAND g 0)
  let v := s.reg .TN_CMP_BAND g 0
  let new := bandPn v
  let s := s.setReg .TN_BAND g 0 v
  if old = new then s
  else if old.isSome && s.onBand g != [] then
    let s := s.setFld fBD_STATUS_PN g 0 0x3F
    { s with ten := { s.ten with departing := s.ten.departing.put g new } }
  else ((s.takeOwner g).gate g).wake g

/-- Charge every tenant the change of its grants. -/
def State.commitCharges (s : State) : State :=
  forEach (List.range 256) (fun t u =>
    let old := s.grantsInForce t
    let new := s.grantsStaged t
    if old ≤ new then u.addCharge t 0 (new - old) else u.dropCharge t 0 (old - new)) s

/-- Units and channels that wait for an epoch join at it (R191, R307, R339), and so do replicas that are wholly copied (R173). -/
def State.joinAll (epoch : Nat) (s : State) : State :=
  let s := forEach s.pendingUnits (fun u t => t.joinUnit u epoch) s
  let s := forEach ((List.range 32).filter fun n => s.chState n == 6) (fun n t => t.setFld fCF_SVC_STATE n 0 0) s
  s.joinReplicas

/-- APPLYING ends once no band departs any more. -/
def State.settleCommit (s : State) : State :=
  if !s.applying && s.fld fTN_CMP_CTL_STATE 0 0 == 1 then
    (s.setFld fTN_CMP_CTL_STATE 0 0 0).setFld fTN_CMP_EPOCH_APPLY_NS 0 0 (min 0xFFFFFFFF (s.now - s.ten.commitAt))
  else s

/-- A departing band without work takes its new owner (R307). -/
def State.drainedBand (g : Nat) (s : State) : State :=
  if (s.ten.departing.get? g).isSome && s.onBand g == [] then
    let s := { s with ten := { s.ten with departing := s.ten.departing.del g } }
    (((s.takeOwner g).gate g).wake g).settleCommit
  else s

/-- The epoch number goes up. -/
def State.nextEpoch (s : State) : State :=
  let e := s.fld fTN_CMP_EPOCH_EPOCH 0 0 + 1
  s.setFld fTN_CMP_EPOCH_EPOCH 0 0 e

def State.acceptCommit (s : State) : State :=
  let s := (s.nextEpoch.bump .TN_CMP_COMMITS 0 0 1).commitCharges
  let s := (s.setFld fTN_CMP_CTL_STATE 0 0 1).setFld fTN_CMP_CTL_REFUSE_CAUSE 0 0 0
  let s := { s with ten := { s.ten with commitAt := s.now } }
  let s := forEach (List.range 50) (fun p t => t.setReg .TN_PART p 0 (t.reg .TN_CMP_PART p 0)) s
  let s := forEach (List.range 50) State.commitBand s
  let s := forEach (List.range 50) (fun p t => (forEach (List.range 5) (fun d u => u.checkPressure d p) t).resumeShadows p) s
  (s.joinAll (s.fld fTN_CMP_EPOCH_EPOCH 0 0)).settleCommit

/-- COMMIT (R306, R307): the other fields of TN_CMP_CTL are written by their access codes; the commit is refused whole or
accepted. While one is being applied STATE stays APPLYING, as R308 says (log entry 87). -/
def execCommit (value loc : W64) (s : State) : Out :=
  let s := s.writeReg .TN_CMP_CTL 0 0 value
  match s.commitCause with
  | some c =>
    let s := s.setFld fTN_CMP_CTL_REFUSE_CAUSE 0 0 c
    let s := { s with ras := { s.ras with refused := s.ras.refused + 1 } }
    let s := if s.applying then s else s.setFld fTN_CMP_CTL_STATE 0 0 2
    .next ((s.bump .TN_CMP_REFUSED 0 0 1).log (mkErr 0x0003 4 0 loc.toNat c 0 0))
  | none => .next s.acceptCommit

/-- BAND_DRAINED (R307). -/
def execBandDrained (band : Nat) (s : State) : Out := .next (s.drainedBand band)

/-- When the next pending unit or channel has waited for AUTO_EPOCH_MS. -/
def State.autoAt (s : State) : Option Nat :=
  let w := s.fld fTN_CMP_CTL_AUTO_EPOCH_MS 0 0
  let waits := fun (e : Nat × Nat) =>
    let u := Nat.unpair e.1
    if u.1 = 3 then s.chState u.2 == 6 else s.svc ⟨u.1, u.2⟩ == 5
  let ts := (s.ras.unitPending.filter waits).map Prod.snd
  if w = 0 then none
  else match ts with
    | [] => none
    | t :: rest => some (rest.foldl min t + w * ms)

/-- AUTO_EPOCH (R310): the composition in force is committed again: no owner and no charge changes. -/
def execAutoEpoch (s : State) : Out :=
  match s.autoAt with
  | none => .next s
  | some t =>
    if s.applying then .next s
    else
      let s := ((s.reach t).nextEpoch.bump .TN_CMP_COMMITS 0 0 1).bump .TN_CMP_AUTO 0 0 1
      let s := s.setFld fTN_CMP_EPOCH_APPLY_NS 0 0 0
      .next (s.joinAll (s.fld fTN_CMP_EPOCH_EPOCH 0 0))

end Sys2Proof.Machine
end

