-- ==== Sys2Proof/Machine/Layout.lean ====
section
/-! DEFINITION. What a crown die's DRAM holds of the indexes, byte by byte: version records, placement tables, directories,
residency records, block headers, code areas, per-slot arrays, forward maps and lower-tier block tables (02, R35 to R47, R169,
R222). The structures themselves are fields of `Version`; this is the view of them that a reader of the DRAM has. -/

namespace Sys2Proof.Machine

/-- An object in DRAM: its address, its length, and its entries of `width` bytes, each as the number it spells. -/
structure DObj where
  base : Nat
  len : Nat
  width : Nat
  entry : Nat → Nat

def DObj.covers (o : DObj) (a : Nat) : Bool := decide (o.base ≤ a) && decide (a < o.base + o.len)

/-- The byte at an address of the object, little-endian in its entry (R6). -/
def DObj.byte (o : DObj) (a : Nat) : Byte :=
  let i := a - o.base
  BitVec.ofNat 8 (o.entry (i / o.width) / 2 ^ (8 * (i % o.width)))

/-- A table of whole entries. -/
def tableObj (base n width : Nat) (entry : Nat → Nat) : DObj := ⟨base, width * n, width, entry⟩

/-- A bitmap over `n` ordinals from `lo` on, eight to a byte (R47). -/
def bitmapObj (base lo n : Nat) (bit : Nat → Bool) : DObj :=
  tableObj base (n / 8) 1 fun i => (List.range 8).foldl (fun v j => if bit (lo + 8 * i + j) then v + 2 ^ j else v) 0

def ofBool (b : Bool) : Nat := if b then 1 else 0

/-! ### Headers, directories, records -/

/-- A block header without HDR_CHECK, of cluster `cl` of version `k` (R38). -/
def Version.headerWord (x : Version) (b k cl : Nat) (y : Block) : Nat :=
  y.stdSummary.toNat * 2 ^ 240 + y.ordBase * 2 ^ 200 + x.liveIn y * 2 ^ 191 + y.fill * 2 ^ 182 + Nat.log2 (b / 128) * 2 ^ 180
    + cl * 2 ^ 160 + y.seq * 2 ^ 144 + y.hdrGen * 2 ^ 136 + k / 4 * 2 ^ 132 + k % 4 * 2 ^ 130 + ofBool y.sealed * 2 ^ 129
    + ofBool y.hasAlias * 2 ^ 128 + y.codeAddr * 2 ^ 88

/-- HDR_CHECK: over the bytes that hold bits [255:88], from the lowest address on (R38, log entry 68). -/
def headerCheck (w : Nat) : Nat := (crc16 (leBytes 21 (w / 2 ^ 88))).toNat

/-- The header as it stands in DRAM. -/
def Version.header (x : Version) (b k cl : Nat) (y : Block) : Nat :=
  let w := x.headerWord b k cl y
  w + headerCheck w * 2 ^ 72

/-- The directory entry of a cluster on a die: of a cluster placed elsewhere it names the list die alone (R44). -/
def Version.dirEntry (x : Version) (d cl : Nat) : Nat :=
  let l := x.list cl
  if l.die = d then
    l.hdrAddr * 2 ^ 88 + l.hdrCapLog2 * 2 ^ 83 + l.blocks.length * 2 ^ 66 + entriesOf l * 2 ^ 41 + x.liveOf l * 2 ^ 16
      + l.die * 2 ^ 13 + l.residency * 2 ^ 11 + ofBool l.appendClosed * 2 ^ 10
  else l.die * 2 ^ 13

/-- The residency record of a cluster, on its list die (R222). -/
def Version.residencyRec (x : Version) (d cl : Nat) : Nat :=
  let l := x.list cl
  if l.die = d then
    l.holder * 2 ^ 120 + l.holds % 2 ^ 16 * 2 ^ 104 + l.heat % 2 ^ 16 * 2 ^ 88 + ofBool l.demand * 2 ^ 87
      + ofBool l.pinned * 2 ^ 86 + l.lowTier * 2 ^ 84 + l.rstate * 2 ^ 80 + l.lowTable * 2 ^ 40
  else 0

/-- An entry of the lower-tier block table (R222). -/
def lowEntry (y : Block) : Nat := y.low.elim 0 (2 ^ 63 + ·)

/-- The version record of a die, as 32 words of 8 bytes (02). -/
def Version.recordWord (x : Version) (d i : Nat) : Nat :=
  let r := x.recs.getD {} d
  if i < 10 then
    [x.centBase, x.count, r.placeBase, r.dirBase, x.ordLo.getD d 0, x.ordHi.getD d 0, r.idmapBase, r.sidecarBase,
     r.tombBase, r.aliasBase].getD i 0
  else if i < 26 then r.stdBase.getD 0 (i - 10)
  else if i = 26 then x.stdMask.toNat
  else 0

/-- A word of the forward map: the slot reference in the successor, or the canonical ordinal there (R169). -/
def Version.fwdWord (x : Version) (i : Nat) : Nat :=
  ((if i % 2 = 0 then x.fwdSlot else x.fwdCanon).get? (i / 2)).getD (2 ^ 64 - 1)

/-! ### The objects of a die -/

/-- The objects of one list on its die: header array, code areas of the blocks in DRAM, lower-tier block table. -/
def Version.listObjs (x : Version) (b k cl : Nat) (l : IList) : List DObj :=
  let blockAt := fun (f : Block → Nat) (i : Nat) => (l.blocks[i]?).elim 0 f
  tableObj l.hdrAddr (if l.blocks = [] then 0 else 2 ^ l.hdrCapLog2) 32 (blockAt (x.header b k cl))
    :: tableObj l.lowTable (512 * l.lowTabUnits) 8 (blockAt lowEntry)
    :: if l.residency = 0 then
        l.blocks.map fun y => tableObj y.codeAddr (4096 * blockUnits b / slotBytes b) (slotBytes b) (codeWord y)
      else []

/-- The objects of version `k` on a die; `recAddr` is the address of its version record. -/
def Version.objsOn (x : Version) (b k recAddr d : Nat) : List DObj :=
  let r := x.recs.getD {} d
  let lo := x.ordLo.getD d 0
  let n := x.ordHi.getD d 0 - lo
  let lists := x.lists.filter fun e => e.2.die == d
  tableObj recAddr 32 8 (x.recordWord d)
    :: tableObj r.placeBase x.count 1 (fun cl => x.place.getD cl 0)
    :: tableObj r.dirBase x.count 16 (x.dirEntry d)
    :: tableObj (r.dirBase + 16 * x.count) x.count 16 (x.residencyRec d)
    :: tableObj r.idmapBase n 8 (fun i => (x.idMap.getD 0 (lo + i)).toNat)
    :: tableObj r.sidecarBase n 8 (fun i => (x.sidecar.getD 0 (lo + i)).toNat)
    :: bitmapObj r.tombBase lo n x.tomb.contains
    :: bitmapObj r.aliasBase lo n x.aliasOrds.contains
    :: tableObj r.fwdBase (if x.succ.isSome then 2 * n else 0) 8 (fun i => x.fwdWord (2 * lo + i))
    :: r.stdBase.map (fun e => bitmapObj e.2 lo n fun o => (x.std.getD 0 o).getLsbD e.1)
    ++ lists.flatMap fun e => x.listObjs b k e.1 e.2

/-- Every object of an index on a die. -/
def State.dieObjs (s : State) (d : Nat) : List DObj :=
  s.idx.versions.flatMap fun e =>
    if e.2.holds then
      e.2.objsOn (s.codeBits (e.1 / 4)) e.1 (64 * s.fld fHQ_IDX_VER_REC_ADDR (e.1 / 4) (e.1 % 4)) d
    else []

/-- A byte of a crown die's DRAM: of the object of an index that lies there, else of what has been written there. -/
def State.dramByte (s : State) (d a : Nat) : Byte :=
  match (s.dieObjs d).find? (·.covers a) with
  | some o => o.byte a
  | none => Tbl.getD s.dram 0 (dramKey d a)

/-- `n` bytes of a crown die's DRAM. -/
def State.dramBytes (s : State) (d a n : Nat) : List Byte := (List.range n).map fun i => s.dramByte d (a + i)

end Sys2Proof.Machine
end

