-- ==== Sys2Proof/Machine/Dump.lean ====
section
/-! DEFINITION. The dump engine (R331, R332): its list, one read at a time, the records it writes, and the end of a dump. -/

namespace Sys2Proof.Machine

/-! ### The list -/

def DumpEntry.ok (e : DumpEntry) : Bool :=
  decide (e.space < 4) && decide (e.unitKind < 10) && decide (8 ≤ e.length) && decide (e.length ≤ 2 ^ 24)
    && e.length % 8 == 0 && e.addr % 8 == 0

/-- One entry of 16 bytes. -/
def dumpEntry (b : List Byte) : DumpEntry :=
  { space := fieldAt b 15 1, unitKind := fieldAt b 14 1, unitNum := fieldAt b 13 1, length := fieldAt b 8 4,
    addr := fieldAt b 0 8 }

/-- A list of at most 4,096 entries from its bytes. -/
def dumpEntries (b : List Byte) : List DumpEntry :=
  (List.range (min 4096 (b.length / 16))).map fun i => dumpEntry ((b.drop (16 * i)).take 16)

def DumpEntry.bytes (e : DumpEntry) : List Byte :=
  leBytes 8 e.addr ++ leBytes 4 e.length ++ leBytes 1 0 ++ leBytes 1 e.unitNum ++ leBytes 1 e.unitKind ++ leBytes 1 e.space

/-- The list that the image set which runs gives (R331). -/
def State.loadDumpList (s : State) : State :=
  let l := dumpEntries (Config.dumpList s.start.setDigest)
  { s with ras := { s.ras with dumpEng := { s.ras.dumpEng with list := l } } }

/-! ### Records -/

def DumpRec.bytes (r : DumpRec) : List Byte :=
  leBytes 2 r.entry ++ leBytes 1 r.dstatus ++ leBytes 5 0 ++ leBytes 8 r.addr ++ leBytes 4 r.length ++ leBytes 4 0
    ++ leBytes 8 r.time ++ r.data

def recsBytes (rs : List DumpRec) : Nat := rs.foldl (fun n r => n + 32 + r.length) 0
def recsMarkers (rs : List DumpRec) : Nat := (rs.filter (·.dstatus != 0)).length

def State.dumpState (s : State) : Nat := s.fld fDM_CTL_STATE 0 0

/-- A unit's domain is in reset. -/
def State.unitInReset (s : State) (u : UnitId) : Bool :=
  let dev := s.ras.resets.any (·.domain == 5)
  match u.kind with
  | 1 => s.dieReset u.num
  | 2 => s.bandReset u.num
  | 3 => dev || s.inReset 2 u.num
  | 5 => dev || s.inReset 4 u.num
  | 6 => s.dieReset (u.num / 4)
  | 7 => dev || s.inReset 4 (u.num / 9)
  | _ => dev

/-- What a read of `n` bytes finds: DRAM as it stands (R35 to R47); the contents of registers and SRAM arrays at the addresses of their
spaces, which the spec does not give, are free values. -/
def State.dumpBytes (e : DumpEntry) (a n : Nat) (s : State) : List Byte × State :=
  if e.space = 2 then (s.dramBytes (if e.unitKind = 6 then e.unitNum / 4 else e.unitNum) a n, s)
  else ((List.range n).map fun i => (Config.free (s.freeCount + i)).setWidth 8, { s with freeCount := s.freeCount + n })

/-- The entry under way ends with a record. -/
def State.dumpRecord (dstatus addr : Nat) (data : List Byte) (s : State) : State :=
  let d := s.ras.dumpEng
  let r : DumpRec := { entry := d.pos, dstatus := dstatus, addr := addr, length := data.length, time := s.now, data := data }
  let d := { d with recs := d.recs ++ [r], pos := d.pos + 1, got := [] }
  let s := { s with ras := { s.ras with dumpEng := d } }
  if dstatus = 0 then s else s.bump .DM_MARKERS 0 0 1

/-- A dump is HELD when its list has been walked. -/
def State.dumpDone (s : State) : State :=
  let rs := s.ras.dumpEng.recs
  let n := recsBytes rs
  let m := recsMarkers rs
  let s := ((s.setFld fDM_CTL_STATE 0 0 2).setFld fDM_INFO_BYTES 0 0 n).setFld fDM_INFO_ENTRIES 0 0 s.ras.dumpEng.pos
  ((s.setFld fDM_INFO_MARKERS 0 0 (min 65535 m)).bump .DM_DUMPS 0 0 1).log (mkErr 0x0501 4 0 n m 0 0)

/-- The dump ends here: the entry under way and every later one get a record of DSTATUS LIMIT. -/
def State.dumpLimit : Nat → State → State
  | 0, s => s.dumpDone
  | n + 1, s =>
    let d := s.ras.dumpEng
    match d.list[d.pos]? with
    | none => s.dumpDone
    | some e => State.dumpLimit n (s.dumpRecord 4 e.addr d.got)

/-- One read of the dump engine, of at most 256 bytes; the buffer is full when what follows leaves no room for a record of
every entry that remains. -/
def State.dumpRead (s : State) : State :=
  let d := s.ras.dumpEng
  match d.list[d.pos]? with
  | none => s.dumpDone
  | some e =>
    let u : UnitId := ⟨e.unitKind, e.unitNum⟩
    let n := min 256 (e.length - d.got.length)
    if 2 ^ 23 < recsBytes d.recs + d.got.length + n + 32 * (d.list.length - d.pos) then s.dumpLimit d.list.length
    else if d.unreadable.contains u then s.dumpRecord 3 e.addr []
    else if s.unitInReset u then s.dumpRecord 2 e.addr d.got
    else
      let r := s.dumpBytes e (e.addr + d.got.length) n
      let got := d.got ++ r.1
      let s := r.2
      let s := { s with ras := { s.ras with dumpEng := { d with got := got, readAt := s.now } } }
      if e.length ≤ got.length then s.dumpRecord 0 e.addr got else s

/-- Begin a dump, for a domain reset or by the DUMP bit; a request that is not taken is counted (R331, R332). -/
def State.startDump (forDomain : Option (Nat × Nat)) (s : State) : State :=
  let st := s.dumpState
  if st = 1 ∨ (st = 2 ∧ !s.isOn fDM_CTL_OVERWRITE 0 0) then s.bump .DM_REFUSED 0 0 1
  else
    let d : Dump := { list := s.ras.dumpEng.list, started := s.now, readAt := s.now, forDomain := forDomain }
    { s with ras := { s.ras with dumpEng := d } }.setFld fDM_CTL_STATE 0 0 1

/-- Discard the dump that is held (R332). -/
def State.clearDump (s : State) : State :=
  if s.dumpState = 1 then s
  else
    let s := { s with ras := { s.ras with dumpEng := { s.ras.dumpEng with recs := [], pos := 0, got := [] } } }
    (s.setFld fDM_CTL_STATE 0 0 0).setReg .DM_INFO 0 0 0

/-- An uncorrectable word ends the entry that reads the unit (R332). -/
def State.dumpUncorr (u : UnitId) (s : State) : State :=
  let d := s.ras.dumpEng
  match d.list[d.pos]? with
  | some e => if s.dumpState = 1 ∧ e.unitKind = u.kind ∧ e.unitNum = u.num then s.dumpRecord 5 e.addr d.got else s
  | none => s

/-- A read has not come back: its entry ends, and the unit is unreadable for the rest of the dump. -/
def State.dumpTimeout (s : State) : State :=
  let d := s.ras.dumpEng
  match d.list[d.pos]? with
  | some e =>
    if s.dumpState = 1 then
      let s := (s.reach (d.readAt + 64 * us)).dumpRecord 1 (e.addr + d.got.length) d.got
      let d := s.ras.dumpEng
      { s with ras := { s.ras with dumpEng := { d with unreadable := d.unreadable ++ [⟨e.unitKind, e.unitNum⟩] } } }
    else s
  | none => s

end Sys2Proof.Machine
end

