-- ==== Sys2Proof/Machine/Objects.lean ====
section
/-! DEFINITION. The objects of the Nirrex dictionary as data: index, type, access, range, default, and where the value of
each lies (R213, R352, R355 to R359, R364, R377, R393). -/

namespace Sys2Proof.Machine

/-- Where an object's value lies. -/
inductive OSrc where
  /-- a value of its own -/
  | val
  /-- computed from the state -/
  | calc
  /-- a command -/
  | cmd
  /-- a register mirror: element e is copies (a + d, e), d < n -/
  | dies (r : RegName) (a n : Nat)
  /-- a register mirror: element e is the copy (e, j) -/
  | elem (r : RegName) (j : Nat)
  /-- a register mirror: copies (d, 0), d < n, whatever the element -/
  | all (r : RegName) (n : Nat)
  /-- one field of a register, with copies (d, 0), d < n -/
  | field (f : Fld) (n : Nat)
  deriving DecidableEq, Repr

/-- Types of R357. -/
inductive OTy where
  | u8 | u16 | u32 | u64 | i32 | f32 | str | blob | cmd
  deriving DecidableEq, Repr

/-- Access of R358. -/
inductive OAcc where
  | ro | rw | wo | const | cmd
  deriving DecidableEq, Repr

/-- One row of an object table: it stands for `span` indices from `index` on, and in each for `subs` subindices from `sub0`
on (R356). -/
structure ObjRow where
  index : Nat
  name : String
  ty : OTy
  acc : OAcc
  src : OSrc
  sub0 : Nat := 0
  subs : Nat := 1
  span : Nat := 1
  dflt : Nat := 0
  lo : Nat := 0
  hi : Nat := 0
  /-- 0 no, 1 yes, 2 anchor -/
  persist : Nat := 0
  /-- greatest length of a STRING or BLOB -/
  maxLen : Nat := 0
  deriving DecidableEq, Repr

def OTy.code : OTy → Nat
  | .u8 => 1 | .u16 => 2 | .u32 => 3 | .u64 => 4 | .i32 => 5 | .f32 => 6 | .str => 7 | .blob => 8 | .cmd => 9

def OAcc.code : OAcc → Nat
  | .ro => 1 | .rw => 2 | .wo => 3 | .const => 4 | .cmd => 5

/-- Length of a value of a type; none: it varies. -/
def OTy.size : OTy → Option Nat
  | .u8 => some 1
  | .u16 => some 2
  | .u32 => some 4
  | .u64 => some 8
  | .i32 => some 4
  | .f32 => some 4
  | _ => none

/-! ### The tables -/

/-- Identity, boot and dictionary objects (R352, R377). -/
def bootObjs : List ObjRow := [
  { index := 0x1000, name := "DEVICE_PUBKEY", ty := .blob, acc := .ro, src := .calc, maxLen := 57 },
  { index := 0x1000, sub0 := 1, name := "DEVICE_CERT", ty := .blob, acc := .ro, src := .calc, maxLen := 4096 },
  { index := 0x1000, sub0 := 2, name := "SERIAL", ty := .str, acc := .ro, src := .calc, maxLen := 64 },
  { index := 0x1001, name := "ATTEST", ty := .cmd, acc := .cmd, src := .cmd },
  { index := 0x2000, name := "START_STATUS", ty := .u64, acc := .ro, src := .elem .HQ_START_STATUS 0 },
  { index := 0x2001, name := "PREFERRED_SET", ty := .u8, acc := .rw, src := .calc, hi := 1, persist := 2 },
  { index := 0x2002, name := "IMAGE_WRITE", ty := .cmd, acc := .cmd, src := .cmd },
  { index := 0x2002, sub0 := 1, name := "IMAGE_VERIFY", ty := .cmd, acc := .cmd, src := .cmd },
  { index := 0x2003, name := "SECVER_COMMIT", ty := .cmd, acc := .cmd, src := .cmd },
  { index := 0x2004, name := "START_RETRY", ty := .cmd, acc := .cmd, src := .cmd },
  { index := 0x2005, name := "CONFIG_RESET", ty := .cmd, acc := .cmd, src := .cmd },
  { index := 0x2010, name := "START_HISTORY", ty := .blob, acc := .ro, src := .calc, subs := 64, maxLen := 32 },
  { index := 0x2020, name := "DIRECTORY", ty := .blob, acc := .ro, src := .calc, maxLen := 65536 },
  { index := 0x2021, name := "SAVE", ty := .cmd, acc := .cmd, src := .cmd },
  { index := 0x2022, name := "SAVE_STATE", ty := .u32, acc := .ro, src := .calc },
  { index := 0x2022, sub0 := 1, name := "LAST_SAVE", ty := .u64, acc := .ro, src := .calc }]

/-- Unit and service objects (R377). -/
def unitObjs : List ObjRow := [
  { index := 0x3010, name := "PROBE_CFG", ty := .u32, acc := .rw, src := .elem .BD_PR_CFG 0, subs := 5, persist := 1 },
  { index := 0x3011, name := "HH_CFG", ty := .u32, acc := .rw, src := .elem .GE_HH_CFG 0, subs := 5, persist := 1 },
  { index := 0x3020, name := "RR_FORMAT", ty := .blob, acc := .rw, src := .calc, subs := 64, maxLen := 12292 },
  { index := 0x3021, name := "PROJ_MAT", ty := .u64, acc := .rw, src := .dies .PJ_MAT 0 5, subs := 64 },
  { index := 0x4000, name := "BAND_SVC", ty := .u32, acc := .rw, src := .elem .BD_SVC 0, subs := 50 },
  { index := 0x4001, name := "BAND_CTL", ty := .u32, acc := .rw, src := .elem .BD_CTL 0, subs := 50, persist := 1 },
  { index := 0x4002, name := "BAND_STATUS", ty := .u32, acc := .ro, src := .elem .BD_STATUS 0, subs := 50 },
  { index := 0x4010, name := "GQ_CFG", ty := .u32, acc := .rw, src := .dies .BD_GQ_CFG 0 5, subs := 50 },
  { index := 0x5010, name := "SCRUB_HOURS", ty := .u8, acc := .rw, src := .val, dflt := 24, lo := 1, hi := 168,
    persist := 1 },
  { index := 0x5020, name := "ECC_COUNTS", ty := .blob, acc := .ro, src := .calc, subs := 20, maxLen := 24 },
  { index := 0x6000, name := "CHANNEL_SVC", ty := .u32, acc := .rw, src := .elem .CF_SVC 0, subs := 32 },
  { index := 0x6001, name := "CHANNEL_CTL", ty := .u32, acc := .rw, src := .elem .CF_CTL 0, subs := 32, persist := 1 },
  { index := 0x7000, name := "FABRIC_CFG", ty := .u32, acc := .rw, src := .all .XT_CFG 2, persist := 1 },
  { index := 0x7000, sub0 := 1, name := "FABRIC_CFG", ty := .u32, acc := .rw, src := .all .XT_REL_CFG 2, persist := 1 },
  { index := 0x7000, sub0 := 2, name := "FABRIC_CFG", ty := .u32, acc := .rw, src := .all .XT_TC_MAP 2, persist := 1 },
  { index := 0x7010, name := "LANE_SVC", ty := .u32, acc := .rw, src := .elem .XT_LANE_SVC 0, subs := 18 },
  { index := 0x7100, name := "CONN_CFG", ty := .u64, acc := .rw, src := .elem .XT_CONN_CFG 0, subs := 256, span := 32 },
  { index := 0x7120, name := "CONN_CC", ty := .u64, acc := .rw, src := .elem .XT_CONN_CC 0, subs := 256, span := 32 },
  { index := 0x7200, name := "RGN_CTL", ty := .u64, acc := .rw, src := .elem .XT_RGN_CTL 0, subs := 256, span := 256 }]

/-- Policing, tenant, health and RAS objects (R330, R331, R377). -/
def serviceObjs : List ObjRow := [
  { index := 0x8000, name := "CMD_POL_CTL", ty := .u32, acc := .rw, src := .dies .PL_POL_CTL 0 1, subs := 256 },
  { index := 0x8001, name := "CMD_POL_CIR", ty := .u64, acc := .rw, src := .dies .PL_POL_CIR 0 1, subs := 256 },
  { index := 0x8002, name := "CMD_POL_PIR", ty := .u64, acc := .rw, src := .dies .PL_POL_PIR 0 1, subs := 256 },
  { index := 0x8003, name := "CMD_POL_BURST", ty := .u64, acc := .rw, src := .dies .PL_POL_BURST 0 1, subs := 256 },
  { index := 0x8010, name := "FAB_POL_CTL", ty := .u32, acc := .rw, src := .dies .PL_POL_CTL 1 2, subs := 256 },
  { index := 0x8011, name := "FAB_POL_CIR", ty := .u64, acc := .rw, src := .dies .PL_POL_CIR 1 2, subs := 256 },
  { index := 0x8012, name := "FAB_POL_PIR", ty := .u64, acc := .rw, src := .dies .PL_POL_PIR 1 2, subs := 256 },
  { index := 0x8013, name := "FAB_POL_BURST", ty := .u64, acc := .rw, src := .dies .PL_POL_BURST 1 2, subs := 256 },
  { index := 0x8020, name := "STRICT_CTL", ty := .u32, acc := .rw, src := .elem .PL_STRICT_CTL 0, subs := 8 },
  { index := 0x8030, name := "FAB_SHP_CTL", ty := .u32, acc := .rw, src := .dies .PL_SHP_CTL 0 2, subs := 256 },
  { index := 0x8031, name := "FAB_SHP_RATE", ty := .u64, acc := .rw, src := .dies .PL_SHP_RATE 0 2, subs := 256 },
  { index := 0x8032, name := "FAB_SHP_SIZE", ty := .u32, acc := .rw, src := .dies .PL_SHP_SIZE 0 2, subs := 256 },
  { index := 0x8040, name := "FLASH_SHP_CTL", ty := .u32, acc := .rw, src := .dies .PL_SHP_CTL 2 32, subs := 256 },
  { index := 0x8041, name := "FLASH_SHP_RATE", ty := .u64, acc := .rw, src := .dies .PL_SHP_RATE 2 32, subs := 256 },
  { index := 0x8042, name := "FLASH_SHP_SIZE", ty := .u32, acc := .rw, src := .dies .PL_SHP_SIZE 2 32, subs := 256 },
  { index := 0x9000, name := "PART", ty := .u64, acc := .rw, src := .elem .TN_CMP_PART 0, subs := 50 },
  { index := 0x9001, name := "BAND_OWNER", ty := .u32, acc := .rw, src := .elem .TN_CMP_BAND 0, subs := 50 },
  { index := 0x9002, name := "CMP_CTL", ty := .u32, acc := .rw, src := .elem .TN_CMP_CTL 0 },
  { index := 0x9010, name := "QUOTA_LIMIT", ty := .u64, acc := .rw, src := .elem .TN_QUOTA_LIMIT 0, subs := 256 },
  { index := 0x9011, name := "QUOTA_LIMIT", ty := .u64, acc := .rw, src := .elem .TN_QUOTA_LIMIT 1, subs := 256 },
  { index := 0x9012, name := "QUOTA_LIMIT", ty := .u64, acc := .rw, src := .elem .TN_QUOTA_LIMIT 2, subs := 256 },
  { index := 0x9030, name := "CTX_BIND", ty := .u64, acc := .rw, src := .elem .HQ_CTX_BIND 0, subs := 256 },
  { index := 0xA000, name := "ADVERTISED", ty := .u16, acc := .ro, src := .calc, subs := 5 },
  { index := 0xA010, name := "OUT_LIST", ty := .blob, acc := .ro, src := .calc, maxLen := 416 },
  { index := 0xB000, name := "EL_SEQ", ty := .u64, acc := .ro, src := .elem .EL_SEQ 0 },
  { index := 0xB001, name := "EL_LOG", ty := .blob, acc := .ro, src := .calc, maxLen := 524288 },
  { index := 0xB002, name := "EL_CTL", ty := .u32, acc := .rw, src := .elem .EL_CTL 0, persist := 1 },
  { index := 0xB003, name := "HG_WIN", ty := .u32, acc := .rw, src := .elem .HG_WIN 0, subs := 10, persist := 1 },
  { index := 0xB010, name := "RESET", ty := .cmd, acc := .cmd, src := .cmd },
  { index := 0xB010, sub0 := 1, name := "DM_SURVIVE", ty := .u32, acc := .rw, src := .elem .DM_SURVIVE 0, persist := 1 },
  { index := 0xB011, name := "DM_CTL", ty := .u32, acc := .rw, src := .elem .DM_CTL 0, persist := 1 },
  { index := 0xB013, name := "DM_BUF", ty := .blob, acc := .ro, src := .calc, maxLen := 8388608 },
  { index := 0xB020, name := "DUMP_LIST", ty := .blob, acc := .rw, src := .calc, maxLen := 65536 },
  { index := 0xB030, name := "CORE_SVC", ty := .u32, acc := .rw, src := .elem .HG_CORE_SVC 0, subs := 4 }]

/-- Flash objects (R213). -/
def flashObjs : List ObjRow := [
  { index := 0x6010, name := "FLASH_FORMAT", ty := .cmd, acc := .cmd, src := .cmd },
  { index := 0x6010, sub0 := 1, name := "GC_SHARE", ty := .u8, acc := .rw, src := .field fCF_TL_CFG_GC_SHARE 32,
    dflt := 20, lo := 5, hi := 50, persist := 1 },
  { index := 0x6010, sub0 := 2, name := "GC_START", ty := .u8, acc := .rw, src := .field fCF_TL_CFG_GC_START 32,
    dflt := 8, lo := 3, hi := 63, persist := 1 },
  { index := 0x6010, sub0 := 3, name := "GC_URGENT", ty := .u8, acc := .rw, src := .field fCF_TL_CFG_GC_URGENT 32,
    dflt := 2, lo := 1, hi := 15, persist := 1 },
  { index := 0x6010, sub0 := 4, name := "WL_LIMIT", ty := .u16, acc := .rw, src := .field fCF_TL_CFG_WL_LIMIT 32,
    dflt := 500, lo := 50, hi := 5000, persist := 1 },
  { index := 0x6010, sub0 := 5, name := "WL_EN", ty := .u8, acc := .rw, src := .field fCF_TL_CFG_WL_EN 32,
    dflt := 1, hi := 1, persist := 1 },
  { index := 0x6010, sub0 := 6, name := "RETRY_MAX", ty := .u8, acc := .rw, src := .field fCF_RD_CFG_RETRY_MAX 32,
    dflt := 8, lo := 1, hi := 15, persist := 1 },
  { index := 0x6010, sub0 := 7, name := "REFRESH_RETRIES", ty := .u8, acc := .rw,
    src := .field fCF_RD_CFG_REFRESH_RETRIES 32, dflt := 4, lo := 1, hi := 15, persist := 1 },
  { index := 0x6010, sub0 := 8, name := "REFRESH_DAYS", ty := .u16, acc := .rw,
    src := .field fCF_RD_CFG_REFRESH_DAYS 32, dflt := 365, lo := 1, hi := 1023, persist := 1 },
  { index := 0x6010, sub0 := 9, name := "SPARE_LIMIT_PCT", ty := .u8, acc := .rw, src := .val, dflt := 10, lo := 1,
    hi := 50, persist := 1 },
  { index := 0x6010, sub0 := 10, name := "WEAR_LIMIT_PCT", ty := .u16, acc := .rw, src := .val, dflt := 110, lo := 50,
    hi := 200, persist := 1 },
  { index := 0x6010, sub0 := 11, name := "CKPT_INTERVAL_S", ty := .u8, acc := .rw,
    src := .field fCF_RD_CFG_CKPT_INTERVAL_S 32, dflt := 10, lo := 1, hi := 60, persist := 1 },
  { index := 0x6011, name := "READ_START", ty := .u8, acc := .rw, src := .calc, subs := 32, hi := 15, persist := 1 },
  { index := 0x6012, name := "FLASH_TIME", ty := .u64, acc := .ro, src := .calc },
  { index := 0x6012, sub0 := 1, name := "FLASH_TIME_SET", ty := .cmd, acc := .cmd, src := .cmd },
  { index := 0x6012, sub0 := 2, name := "TIME_CERTAIN", ty := .u8, acc := .ro, src := .calc },
  { index := 0x6200, name := "SPARE_PCT", ty := .u8, acc := .ro, src := .calc, span := 32 },
  { index := 0x6200, sub0 := 1, name := "WEAR_AVG", ty := .u32, acc := .ro, src := .calc, span := 32 },
  { index := 0x6200, sub0 := 2, name := "WEAR_MAX", ty := .u32, acc := .ro, src := .calc, span := 32 },
  { index := 0x6200, sub0 := 3, name := "RATED_PE", ty := .u32, acc := .rw, src := .calc, span := 32, hi := 2 ^ 32 - 1 },
  { index := 0x6200, sub0 := 4, name := "WEAR_PCT", ty := .u16, acc := .ro, src := .calc, span := 32 },
  { index := 0x6200, sub0 := 5, name := "CORR_BITS", ty := .u64, acc := .ro, src := .calc, subs := 4, span := 32 },
  { index := 0x6200, sub0 := 9, name := "PROG_FAIL", ty := .u32, acc := .ro, src := .calc, subs := 3, span := 32 },
  { index := 0x6200, sub0 := 12, name := "TEMP_MAX", ty := .i32, acc := .ro, src := .calc, span := 32 },
  { index := 0x6200, sub0 := 13, name := "HEALTH_HELD", ty := .u32, acc := .ro, src := .calc, span := 32 },
  { index := 0x6200, sub0 := 16, name := "TEMP_HOURS", ty := .u32, acc := .ro, src := .calc, subs := 16, span := 32 },
  { index := 0x6240, name := "SPARE_MIN_PCT", ty := .u8, acc := .ro, src := .calc },
  { index := 0x6240, sub0 := 1, name := "WEAR_MAX_PCT", ty := .u16, acc := .ro, src := .calc },
  { index := 0x6240, sub0 := 2, name := "WORST_CHANNEL", ty := .u8, acc := .ro, src := .calc },
  { index := 0x6240, sub0 := 3, name := "UNCORR_TOTAL", ty := .u64, acc := .ro, src := .calc }]

/-- Power, thermal and test objects (R377, R393). -/
def powerObjs : List ObjRow := [
  { index := 0xC000, name := "PACKAGE_POWER", ty := .u32, acc := .ro, src := .calc },
  { index := 0xC000, sub0 := 1, name := "PKG_LIMIT_W", ty := .u16, acc := .rw, src := .val, dflt := 640, lo := 400,
    hi := 640, persist := 1 },
  { index := 0xC000, sub0 := 2, name := "POWER_LEVEL", ty := .u8, acc := .ro, src := .calc, dflt := 8 },
  { index := 0xC001, name := "RAIL_MV", ty := .u16, acc := .ro, src := .calc, subs := 6 },
  { index := 0xC002, name := "RAIL_MA", ty := .u32, acc := .ro, src := .calc, subs := 6 },
  { index := 0xC003, name := "RAIL_MW", ty := .u32, acc := .ro, src := .calc, subs := 6 },
  { index := 0xC010, name := "CROWN_THROTTLE_C", ty := .u8, acc := .rw, src := .val, dflt := 95, lo := 70, hi := 100,
    persist := 1 },
  { index := 0xC010, sub0 := 1, name := "CROWN_CRIT_C", ty := .u8, acc := .const, src := .val, dflt := 110 },
  { index := 0xC010, sub0 := 2, name := "TRIP_C", ty := .u8, acc := .const, src := .val, dflt := 125 },
  { index := 0xC011, name := "DIE_TEMP", ty := .i32, acc := .ro, src := .calc, subs := 40 },
  { index := 0xC012, name := "DIE_TEMP_MAX", ty := .i32, acc := .ro, src := .calc, subs := 40 },
  { index := 0xC013, name := "STACK_RATE", ty := .u8, acc := .ro, src := .calc, subs := 20 },
  { index := 0xC014, name := "CROWN_CAP", ty := .u8, acc := .ro, src := .calc, subs := 5, dflt := 8 },
  { index := 0xC020, name := "BAND_THR", ty := .u32, acc := .rw, src := .elem .BD_THR 0, subs := 50, persist := 1 },
  { index := 0xC030, name := "PWR_STEPS_DOWN", ty := .u64, acc := .ro, src := .calc },
  { index := 0xC030, sub0 := 1, name := "PWR_STEPS_UP", ty := .u64, acc := .ro, src := .calc },
  { index := 0xC030, sub0 := 2, name := "THERM_STEPS_DOWN", ty := .u64, acc := .ro, src := .calc },
  { index := 0xC030, sub0 := 3, name := "CRIT_EVENTS", ty := .u64, acc := .ro, src := .calc },
  { index := 0xE000, name := "SELF_TEST", ty := .cmd, acc := .cmd, src := .cmd },
  { index := 0xE001, name := "SELF_TEST_LAST", ty := .blob, acc := .ro, src := .calc, maxLen := 32 }]

/-- Security and management access objects (R377, R393). -/
def accessObjs : List ObjRow := [
  { index := 0xD000, name := "MGMT_KEY", ty := .blob, acc := .wo, src := .val, persist := 1, maxLen := 32 },
  { index := 0xD000, sub0 := 1, name := "KEY_SET", ty := .u8, acc := .ro, src := .calc },
  { index := 0xD001, name := "WRITE_PATHS", ty := .u8, acc := .rw, src := .val, dflt := 15, hi := 15, persist := 1 },
  { index := 0xD001, sub0 := 1, name := "AUTH_WRITES", ty := .u8, acc := .rw, src := .val, dflt := 8, hi := 15,
    persist := 1 },
  { index := 0xD001, sub0 := 2, name := "AUTH_READS", ty := .u8, acc := .rw, src := .val, hi := 15, persist := 1 },
  { index := 0xD010, name := "MP_ENABLE", ty := .u8, acc := .rw, src := .val, dflt := 1, hi := 1, persist := 1 },
  { index := 0xD010, sub0 := 1, name := "PLCA_EN", ty := .u8, acc := .rw, src := .val, dflt := 1, hi := 1, persist := 1 },
  { index := 0xD010, sub0 := 2, name := "PLCA_NODE", ty := .u8, acc := .rw, src := .val, dflt := 64, lo := 1, hi := 64,
    persist := 1 },
  { index := 0xD010, sub0 := 3, name := "PLCA_TO", ty := .u8, acc := .rw, src := .val, dflt := 32, lo := 1, hi := 255,
    persist := 1 },
  { index := 0xD010, sub0 := 4, name := "PLCA_BURST_COUNT", ty := .u8, acc := .rw, src := .val, hi := 255, persist := 1 },
  { index := 0xD010, sub0 := 5, name := "PLCA_BURST_TIMER", ty := .u8, acc := .rw, src := .val, dflt := 128, lo := 1,
    hi := 255, persist := 1 },
  { index := 0xD010, sub0 := 6, name := "MP_MAC", ty := .blob, acc := .rw, src := .calc, persist := 1, maxLen := 6 },
  { index := 0xD010, sub0 := 7, name := "MP_IPV4", ty := .u32, acc := .rw, src := .val, hi := 2 ^ 32 - 1, persist := 1 },
  { index := 0xD010, sub0 := 8, name := "MP_UDP_PORT", ty := .u16, acc := .rw, src := .val, dflt := 0xC3A6, lo := 1,
    hi := 65535, persist := 1 },
  { index := 0xD010, sub0 := 9, name := "MP_LINK", ty := .u8, acc := .ro, src := .val },
  { index := 0xD020, name := "MCTP_EID", ty := .u8, acc := .ro, src := .val, subs := 2 },
  { index := 0xD021, name := "MCTP_EN", ty := .u8, acc := .rw, src := .val, dflt := 3, hi := 3, persist := 1 },
  { index := 0xD030, name := "DICT_REQUESTS", ty := .u64, acc := .ro, src := .calc, subs := 4 },
  { index := 0xD031, name := "DICT_REFUSED", ty := .u64, acc := .ro, src := .calc, subs := 4 },
  { index := 0xD032, name := "DICT_AUTH_FAILED", ty := .u64, acc := .ro, src := .calc, subs := 4 },
  { index := 0xD033, name := "DICT_DROPPED", ty := .u64, acc := .ro, src := .calc, subs := 4 },
  { index := 0xD040, name := "BSCAN_EN", ty := .u8, acc := .rw, src := .val, hi := 1 }]

/-- Every object, in increasing index. -/
def objects : List ObjRow := bootObjs ++ unitObjs ++ flashObjs ++ serviceObjs ++ powerObjs ++ accessObjs

/-! ### Looking an object up (R355, R356) -/

def ObjRow.hasIndex (r : ObjRow) (index : Nat) : Bool := decide (r.index ≤ index) && decide (index < r.index + r.span)

def objIndex (index : Nat) : Bool := objects.any (·.hasIndex index)

def objRow (index sub : Nat) : Option ObjRow :=
  objects.find? fun r => r.hasIndex index && decide (r.sub0 ≤ sub) && decide (sub < r.sub0 + r.subs)

/-- Element of an array object. -/
def ObjRow.element (r : ObjRow) (index sub : Nat) : Nat := 256 * (index - r.index) + (sub - r.sub0)

def highestSub (index : Nat) : Nat :=
  (objects.filter (·.hasIndex index)).foldl (fun n r => max n (r.sub0 + r.subs - 1)) 0

/-- Indices that are defined, in order. -/
def objIndices : List Nat :=
  ((objects.flatMap fun r => (List.range r.span).map (r.index + ·)).eraseDups)

/-- The register copies an object writes, in order; the first is the one it reads (R359). -/
def OSrc.copies (src : OSrc) (e : Nat) : List (RegName × Nat × Nat) :=
  match src with
  | .dies r a n => (List.range n).map fun d => (r, a + d, e)
  | .elem r j => [(r, e, j)]
  | .all r n => (List.range n).map fun d => (r, d, 0)
  | .field f n => (List.range n).map fun d => (f.reg, d, 0)
  | _ => []

/-- A value as bytes of a fixed-length type. -/
def OTy.bytes (t : OTy) (v : Nat) : List Byte := leBytes (t.size.getD 0) v

/-- A signed number as the bytes of an I32. -/
def i32Bytes (v : Int) : List Byte := leBytes 4 (BitVec.ofInt 32 v).toNat

/-! ### Objects with a value of their own -/

def objKey (index sub : Nat) : Nat := 256 * index + sub

/-- Default of an object that is not a register mirror; a few are not given by the object tables. -/
def ObjRow.default (r : ObjRow) (index sub : Nat) : List Byte :=
  if index = 0x6011 then leBytes 1 (Config.readStart sub).toNat
  else if index = 0xD010 ∧ sub = 6 then (Config.identity 2 ++ leBytes 6 0).take 6
  else r.ty.bytes r.dflt

/-- A value of its own, or the default. -/
def State.objVal (s : State) (r : ObjRow) (index sub : Nat) : List Byte :=
  (s.dict.objs.get? (objKey index sub)).getD (r.default index sub)

def State.setObj (index sub : Nat) (v : List Byte) (s : State) : State :=
  { s with dict := { s.dict with objs := s.dict.objs.put (objKey index sub) v } }

/-! ### Checks of a written value (R357, R359) -/

/-- The register that an object mirrors whole. -/
def OSrc.mirror : OSrc → Option RegName
  | .dies r _ _ | .elem r _ | .all r _ => some r
  | _ => none

/-- A register value with the fields that are not RW cleared. -/
def rwPart (r : RegName) (v : W64) : W64 :=
  (RegName.fields r).foldl (fun (w : W64) f => if f.acc = .RW then w else Fld.put ⟨r, f.hi, f.lo⟩ w 0) v

/-- A value names a reserved value of some field of a register (R10). -/
def regReserved (r : RegName) (v : W64) : Bool :=
  (RegName.fields r).any fun f => f.acc == .RW && !FieldRow.defined f (Fld.get ⟨r, f.hi, f.lo⟩ v)

/-- Words of the per-dimension tables in a value of RR_FORMAT: D / 2 of DSCALE, then D / 4 of ZP. -/
def fmtDims (b : List Byte) : Nat := bits (fieldAt b 0 4) 28 16
def dscaleWord (b : List Byte) (i : Nat) : Nat := fieldAt b (4 + 4 * i) 4
def zpWord (b : List Byte) (i : Nat) : Nat := fieldAt b (4 + 4 * (fmtDims b / 2) + 4 * i) 4

/-- The length of a value is not that of its object (R357). -/
def ObjRow.lengthBad (r : ObjRow) (index sub : Nat) (b : List Byte) : Bool :=
  match r.ty.size with
  | some n => b.length != n
  | none =>
    decide (r.maxLen < b.length)
      || (index == 0x3020 && b.length != 4 + 4 * (fmtDims b / 2) + 4 * (fmtDims b / 4))
      || (index == 0xB020 && b.length % 16 != 0)
      || ((index == 0xD000 || (index == 0xD010 && sub == 6)) && b.length != r.maxLen)

/-- A value lies outside the range of its object, or is reserved (R359). -/
def State.rangeBad (s : State) (r : ObjRow) (index sub : Nat) (b : List Byte) : Bool :=
  let v := leNat b
  match r.src.mirror with
  | some reg =>
    let f := s.pjFmt 0 sub
    regReserved reg (BitVec.ofNat 64 v)
      || (reg == .PJ_MAT && f.code != 0 && Fld.get fPJ_MAT_D_IN (BitVec.ofNat 64 v) != f.d)
  | none =>
    if r.ty.size.isSome then
      decide (v < r.lo) || decide (r.hi < v)
        || (index == 0x6010 && sub == 2 && decide (v ≤ s.fld fCF_TL_CFG_GC_URGENT 0 0))
    else if index = 0x3020 then
      bits (fieldAt b 0 4) 31 30 == 3 || (List.range (fmtDims b / 2)).any fun i => regReserved .PJ_DSCALE (BitVec.ofNat 64 (dscaleWord b i))
    else if index = 0xB020 then (dumpEntries b).any fun e => !e.ok
    else index == 0xD010 && sub == 6 && fieldAt b 0 1 % 2 == 1

/-- Location word of a dictionary write (R319). -/
def dictLoc (index sub : Nat) : W64 := BitVec.ofNat 64 (2 ^ 62 + index * 2 ^ 16 + sub * 2 ^ 8)

/-- Put a stored value in place at a start: into the object, or by a plain write of every register copy; one that the image
does not define, or that fails its checks, is logged (R371). -/
def State.applyStored (index sub : Nat) (v : List Byte) (s : State) : State :=
  match objRow index sub with
  | none => s.discard (dictLoc index sub) (BitVec.ofNat 64 (leNat v))
  | some r =>
    if r.lengthBad index sub v || s.rangeBad r index sub v then s.discard (dictLoc index sub) (BitVec.ofNat 64 (leNat v))
    else match r.src with
    | .field f n => forEach (List.range n) (fun d t => t.setFld f d 0 (leNat v)) s
    | .dies _ _ _ | .elem _ _ | .all _ _ =>
      forEach (r.src.copies (r.element index sub)) (fun c t => t.writeReg c.1 c.2.1 c.2.2 (BitVec.ofNat 64 (leNat v))) s
    | _ => s.setObj index sub v

end Sys2Proof.Machine
end

