-- ==== Sys2Proof/Machine/TableCmds.lean ====
section
/-! DEFINITION. The table commands (07): TABLE_UPDATE and its row accesses, GATHER_DOT, ROW_READ, ROW_WRITE, the hatpin set,
and the versions of a table (R134 to R156). -/

namespace Sys2Proof.Machine

/-! ### Checks (R134, R135, R142) -/

/-- Checks shared by the commands that name a table: the version slot they capture and the status. -/
def State.tblStatus (s : State) (m : Cmd) (maxCount : Nat) : Nat × Nat :=
  let b := m.bytes
  let t := gTarget b
  let v := s.captureTbl t (gNamed b) (gVersion b)
  let bad := !generalOk b || !s.isOn fGE_TBL_CTL_ENABLE t 0 || !geomOk (s.reg .GE_TBL_GEOM t 0)
    || decide (maxCount < gCount b)
  (v.getD 0, worst [(bad, stInvalid), (v.isNone, stBadVersion)])

/-- The row list of a command (R145); none: an entry with a reserved bit, or a row that the version does not have. -/
def State.rowList (s : State) (c t v : Nat) (m : Cmd) : Option (List Nat) :=
  let rows := (List.range (gCount m.bytes)).map fun i => leNat (s.rdN (s.ctxPort c) (gAddrA m.bytes + 8 * i) 8)
  if rows.all fun r => decide (r < s.fld fGE_TBL_ROWS_ROWS t v) then some rows else none

/-- A host read of a command failed (R238). -/
def State.readFailed (c : Nat) (m : Cmd) (s : State) : State :=
  let f := (Config.free s.freeCount).toNat
  let r := s.draw.hostDmaErr (s.ctxPort c) (gAddrA m.bytes) f
  r.1.finish c m.seq { status := stInvalid, errSeq := r.2 }

/-! ### Row locks (R140) -/

/-- ROW_LOCK_GRANT (R140). -/
def execRowLockGrant (die : Nat) (s : State) : Out := .next (s.grantRow die)

/-- A row access arrives at its owning die. -/
def State.postRow (a : RowAccess) (s : State) : State :=
  let die := a.row % 5
  let q := s.rowsOf die
  let wait := s.rowWaits a.row
  let s := if wait then s.bump .GE_LOCK_WAIT die 0 1 else s
  { s with tbl := { s.tbl with rowQ := s.tbl.rowQ.put die (q ++ [{ a with waited := wait }]) } }

/-! ### TABLE_UPDATE (R152, R153) -/

/-- What the coalescing pass keeps of a row: its sum and the additions made to it so far, and whether it has moved into
the detector. -/
structure SumRow where
  row : Nat
  sum : List (BitVec 32)
  adds : Nat := 0
  heavy : Bool := false

/-- Coalesce one entry of a batch (R152, R153). -/
def State.coalesce (w : Nat) (acc : List SumRow × State) (e : Nat × List (BitVec 32)) : List SumRow × State :=
  let (rows, s) := acc
  let die := e.1 % 5
  let x := (rows.find? (·.row == e.1)).getD { row := e.1, sum := List.replicate w 0 }
  let used := s.fld fGE_STATUS_HH_USED die 0
  let adds := x.adds + 1
  let move := !x.heavy && s.isOn fGE_HH_CFG_EN die 0 && adds == s.fld fGE_HH_CFG_PROMOTE die 0 && decide (used < 256)
  let y : SumRow := { x with sum := List.zipWith fadd x.sum e.2, adds := adds, heavy := x.heavy || move }
  let s := if x.heavy then s.bump .GE_HH_ADDS die 0 1 else s
  let s := if move then (s.bump .GE_HH_PROMOTIONS die 0 1).setFld fGE_STATUS_HH_USED die 0 (used + 1) else s
  (if rows.any (·.row == e.1) then rows.map fun r => if r.row = e.1 then y else r else rows ++ [y], s)

/-- The gradient of entry `i` as FP32. -/
def State.gradient (s : State) (c t i : Nat) (m : Cmd) : List (BitVec 32) :=
  let w := s.tblW t
  if gOptB m.bytes then words32 (s.rdN (s.ctxPort c) (gAddrB m.bytes + 4 * w * i) (4 * w))
  else (halves (s.rdN (s.ctxPort c) (gAddrB m.bytes + 2 * w * i) (2 * w))).map widen

/-- A batch with its rows checked: the row accesses are posted in batch order. -/
def State.runBatch (c t v : Nat) (m : Cmd) (rows : List Nat) (s : State) : State :=
  let es := (List.range rows.length).zip rows |>.map fun p => (p.2, s.gradient c t p.1 m)
  let s := forEach rows (fun r u => u.bump .GE_UPD_ENTRIES (r % 5) 0 1) s
  let seqMode := gOptA m.bytes
  let (sums, s) := if seqMode then (es.map fun e => ({ row := e.1, sum := e.2 } : SumRow), s)
    else es.foldl (State.coalesce (s.tblW t)) ([], s)
  let p := s.stepPar t
  let one := fun (x : SumRow) (u : State) =>
    u.postRow { cmd := m.seq, ctx := c, tbl := t, vslot := v, row := x.row, eta := BitVec.ofNat 32 (gArg m.bytes),
                b1 := p.b1, b2 := p.b2, eps := p.eps, grad := x.sum, since := u.now, heavy := x.heavy }
  let j : TblJob := { seq := m.seq, ctx := c, tbl := t, vslot := v, remaining := sums.length,
                      commandId := dCommandId m.bytes }
  let s := ({ s with tbl := { s.tbl with tblJobs := s.tbl.tblJobs ++ [j] } }).holdTable t v
  (forEach sums one s).settleBatch m.seq

/-- The status of TABLE_UPDATE's checks of its descriptor. -/
def State.batchStatus (s : State) (m : Cmd) : Nat :=
  let p := s.tblStatus m (2 ^ 20)
  worst [(p.2 ≠ 0, p.2), (gCount m.bytes == 0 || s.tblType (gTarget m.bytes) == 0, stInvalid)]

def State.admitBatch (readOk : Bool) (c : Nat) (m : Cmd) (s : State) : State :=
  let t := gTarget m.bytes
  let p := s.tblStatus m (2 ^ 20)
  let st := s.batchStatus m
  if st ≠ 0 then s.finish c m.seq (Res.of st)
  else if !readOk then s.readFailed c m
  else match s.rowList c t p.1 m with
    | none => s.finish c m.seq (Res.of stInvalid)
    | some rows =>
      if !gOptA m.bytes && decide (65536 < rows.eraseDups.length) then s.finish c m.seq (Res.of stInvalid)
      else s.runBatch c t p.1 m rows

/-- TABLE_UPDATE (R152). -/
def execTableUpdate (c : Nat) (readOk : Bool) (s : State) : Out :=
  .next ((s.admitFront c [0x20] (fun m t => t.batchStatus m) (State.admitBatch readOk c)).admitBad c 65536)

/-! ### Reading rows (R150) -/

/-- Rows of a read, whose access is whole and follows what arrived before it. -/
def State.admitRows (k : Nat → List Nat → State → Res × State) (readOk : Bool) (c : Nat) (m : Cmd) (s : State) : State :=
  let t := gTarget m.bytes
  let p := s.tblStatus m 4096
  if p.2 ≠ 0 then s.finish c m.seq (Res.of p.2)
  else if !readOk then s.readFailed c m
  else match s.rowList c t p.1 m with
    | none => s.finish c m.seq (Res.of stInvalid)
    | some rows =>
      let s := s.drainRows rows
      if !s.rowsFree rows then s.waitAtAdmission c m
      else
        let r := k p.1 rows (s.holdTable t p.1)
        (r.2.releaseTable t p.1).gFinish c m r.1

/-- The result of a read of some rows: their records, and what was absent or unreadable (R247). -/
def rowsRes (recs : List (List Byte)) (lost : Nat) : Res :=
  { records := recs.flatten, count := recs.length, skipped := lost, flags := flag (lost != 0) flPartial }

/-- The job of a command, as an error record names it. -/
def State.cmdRef (s : State) (c : Nat) (m : Cmd) : JobRef :=
  { ctx := c, commandId := dCommandId m.bytes, tenant := s.ctxTenant c }

/-- GATHER_DOT with its rows (R123, R150). -/
def gatherRows (c : Nat) (m : Cmd) (badRows : List Nat) (v : Nat) (rows : List Nat) (s : State) : Res × State :=
  let t := gTarget m.bytes
  let q := halves (s.rdN (s.ctxPort c) (gAddrB m.bytes) (2 * s.tblW t))
  let out := rows.map fun r => s.partialSum t v r q s.chMask badRows
  let lost := out.filter fun o => match o.1 with
    | .row _ => false
    | _ => true
  let s := (s.noteDots t v (s.cmdRef c m) s.chMask badRows rows).bump .GE_MARKERS
    ((s.pickBand (s.fld fGE_TBL_CTL_PN t 0)).elim 0 dieOf) 0 lost.length
  (rowsRes (out.map fun o => leBytes 4 o.2.toNat) lost.length, s)

/-- GATHER_DOT (R150). -/
def execGatherDot (c : Nat) (readOk : Bool) (badRows : List Nat) (s : State) : Out :=
  .next ((s.admitFront c [0x21] (fun m t => (t.tblStatus m 4096).2) fun m => State.admitRows (gatherRows c m badRows) readOk c m).admitBad c 65536)

/-- ROW_READ with its rows. -/
def readRows (c : Nat) (m : Cmd) (badRows : List Nat) (v : Nat) (rows : List Nat) (s : State) : Res × State :=
  let t := gTarget m.bytes
  let n := if gOptA m.bytes then s.rowBytes t else 2 * s.tblW t
  let out := rows.map fun r => s.readRow t v r s.chMask badRows
  let lost := (out.filter fun o => match o with
    | .row _ => false
    | _ => true).length
  let rec_ := fun (o : RowRead) => match o with
    | .row d => d.take n
    | _ => zeros n
  (rowsRes (out.map rec_) lost, forEach rows (State.noteRead t v (s.cmdRef c m) s.chMask badRows) s)

/-- ROW_READ (R150). -/
def execRowRead (c : Nat) (readOk : Bool) (badRows : List Nat) (s : State) : Out :=
  .next ((s.admitFront c [0x22] (fun m t => (t.tblStatus m 4096).2) fun m => State.admitRows (readRows c m badRows) readOk c m).admitBad c 65536)

/-! ### ROW_WRITE (R150) -/

/-- A pinned row of a table sector has a record that no write has charged to flash yet but its own: the sector is taken. -/
def State.sectorDue (s : State) (t v n : Nat) : Bool :=
  let h := s.tbl.hatpin
  let has := fun (e : Nat × RowRec) => e.1 / s.rps t == n && e.2.present
  (h.table == t && h.vslot == v && h.rows.any has)
    || h.swap.any fun w => w.oldTbl == t && w.oldVslot == v && w.leaving.any has

/-- Sectors that a write of some rows is the first to take: those never written, now or when a pinned row is written back,
that no earlier write to a pinned row has taken (R134, R146). -/
def State.newSectors (s : State) (t v : Nat) (rows : List Nat) : Nat :=
  ((rows.map fun r => r / s.rps t).eraseDups.filter fun n => s.tblData t v n s.chMask == some none && !s.sectorDue t v n).length

def State.admitRowWrite (readOk : Bool) (c : Nat) (m : Cmd) (s : State) : State :=
  let t := gTarget m.bytes
  let p := s.tblStatus m (2 ^ 32)
  let v := p.1
  let k := 4 * t + v
  if p.2 ≠ 0 then s.finish c m.seq (Res.of p.2)
  else if !readOk then s.readFailed c m
  else match s.rowList c t v m with
    | none => s.finish c m.seq (Res.of stInvalid)
    | some rows =>
      let s := s.drainRows rows
      let owner := s.tbl.tblOwner.getD (s.ctxTenant c) k
      let n := s.newSectors t v rows
      let r := s.charge owner 1 n
      if rows.any s.rowWaits || !rows.all fun x => s.writeGoes t v x owner then s.waitAtAdmission c m
      else if !r.1 then r.2.finish c m.seq (Res.of stQuota)
      else
        let len := if gOptA m.bytes then s.rowBytes t else 2 * s.tblW t
        let rec_ := fun (i : Nat) => s.rdN (s.ctxPort c) (gAddrB m.bytes + len * i) len ++ zeros (s.rowBytes t - len)
        let s := { r.2 with tbl := { r.2.tbl with
          tblOwner := r.2.tbl.tblOwner.put k owner, tblUnits := r.2.tbl.tblUnits.upd 0 k (· + n) } }
        let ok := fun (u : State) (row : Nat) => (u.pinned t v row).isSome || (u.tblData t v (row / u.rps t) u.chMask).isSome
        let w := ((List.range rows.length).zip rows).foldl (fun (acc : Nat × State) e =>
          (acc.1 + (if ok acc.2 e.2 then 1 else 0), acc.2.writeRow t v e.2 owner (rec_ e.1)))
          (0, s.holdTable t v)
        (w.2.releaseTable t v).gFinish c m { info := w.1 }

/-- ROW_WRITE (R150). -/
def execRowWrite (c : Nat) (readOk : Bool) (s : State) : Out :=
  .next ((s.admitFront c [0x23] (fun m t => (t.tblStatus m (2 ^ 32)).2) (State.admitRowWrite readOk c)).admitBad c 65536)

/-! ### The hatpin set (R144 to R146) -/

/-- DRAM of the hatpin set for a table, in 4 KiB units (R144). -/
def State.hatpinUnits (s : State) (t : Nat) : Nat :=
  let cap := s.fld fGE_HP_CTL_CAP_SLOTS 0 0
  kib4 (cap * s.rowBytes t) + 2 * kib4 (16 * cap)

/-- Load one entering row; none: its sector cannot be read, and the row stays on flash. -/
def State.loadRow (s : State) (t v r : Nat) : Option RowRec :=
  match s.readRow t v r s.chMask [] with
  | .row d => some { bytes := d }
  | .absent => some { bytes := zeros (s.rowBytes t), present := false }
  | .unreadable => none

/-- Steps 2 to 4 of R145. An entering row whose sector cannot be read is logged and stays on flash, and the swap goes on with
the others: the model's choice (log entry 82). -/
def State.beginSwap (c t v : Nat) (m : Cmd) (rows : List Nat) (s : State) : State :=
  let h := s.tbl.hatpin
  let same := h.table == t && h.vslot == v
  let stay := if same then h.rows.filter fun e => rows.contains e.1 else []
  let leave := if same then h.rows.filter fun e => !rows.contains e.1 else h.rows
  let enter := rows.filter fun r => !(stay.map (·.1)).contains r
  let got := enter.filterMap fun r => (s.loadRow t v r).map fun x => (r, x)
  let job := { s.cmdRef c m with tenant := s.tbl.tblOwner.getD h.chargedTo (4 * t + v) }
  let s := forEach enter (State.noteRead t v job s.chMask []) s
  let s := forEach got (fun (e : Nat × RowRec) u => u.bump .GE_HP_LOADS (e.1 % 5) 0 1) s
  let active := got.foldl (fun (x : Tbl RowRec) e => x.put e.1 e.2) stay
  let w : Swap := { seq := m.seq, ctx := c, tbl := t, vslot := v, oldTbl := h.table, oldVslot := h.vslot, leaving := leave,
                    loaded := got.length }
  let s := s.setHatpin { h with rows := active, table := t, vslot := v, buffer := 1 - h.buffer, swap := some w }
  let s := (s.setFld fGE_HP_CTL_SWAP_BUSY 0 0 1).setFld fGE_HP_CTL_TABLE 0 0 t
  (s.setFld fGE_HP_CTL_VER_SLOT 0 0 v).setFld fGE_HP_CTL_PINNED 0 0 active.length

/-- The status of HATPIN_SWAP's checks of its descriptor. -/
def State.swapStatus (s : State) (m : Cmd) : Nat :=
  let p := s.tblStatus m (2 ^ 32)
  let bad := !s.isOn fGE_HP_CTL_ENABLE 0 0
    || decide (2 ^ 36 < s.fld fGE_HP_CTL_CAP_SLOTS 0 0 * s.rowBytes (gTarget m.bytes))
  worst [(p.2 ≠ 0, p.2), (bad, stInvalid)]

def State.admitSwap (readOk : Bool) (c : Nat) (m : Cmd) (s : State) : State :=
  let t := gTarget m.bytes
  let v := (s.tblStatus m (2 ^ 32)).1
  let h := s.tbl.hatpin
  let cap := s.fld fGE_HP_CTL_CAP_SLOTS 0 0
  let st := s.swapStatus m
  if h.swap.isSome then s.waitAtAdmission c m
  else if st ≠ 0 then s.finish c m.seq (Res.of st)
  else if !readOk then s.readFailed c m
  else match s.rowList c t v m with
    | none => s.finish c m.seq (Res.of stInvalid)
    | some rows =>
      let same := h.table == t && h.vslot == v
      let enter := if same then rows.filter fun r => (h.rows.get? r).isNone else rows
      if rows.eraseDups.length ≠ rows.length ∨ cap < rows.length ∨ cap < enter.length + h.rows.length then
        s.finish c m.seq (Res.of stInvalid)
      else
        let tenant := s.fld fTN_PART_TENANT (s.fld fGE_TBL_CTL_PN t 0) 0
        let need := s.hatpinUnits t
        let s := s.drainRows enter
        let h := s.tbl.hatpin
        let r := (s.dropCharge h.chargedTo 0 h.charged).charge tenant 0 need
        if !s.rowsFree enter then s.waitAtAdmission c m
        else if r.1 then
          ((r.2.setHatpin { h with charged := need, chargedTo := tenant }).holdTable t v).beginSwap c t v m rows
        else (s.bump .TN_QUOTA_REFUSED tenant 0 1).finish c m.seq (Res.of stQuota)

/-- HATPIN_SWAP (R145). -/
def execHatpinSwap (c : Nat) (readOk : Bool) (s : State) : Out :=
  .next ((s.admitFront c [0x24] (fun m t => t.swapStatus m) (State.admitSwap readOk c)).admitBad c 65536)

/-- Write back some pinned rows, those that are dirty: the rows as they stand after. One whose sector cannot be read stays
dirty: the model's choice (log entry 81). -/
def State.writeBack (t v : Nat) (rows : Tbl RowRec) (s : State) : Tbl RowRec × State :=
  rows.foldl (fun (acc : Tbl RowRec × State) e =>
    if e.2.dirty then
      let owner := acc.2.tbl.tblOwner.getD acc.2.tbl.hatpin.chargedTo (4 * t + v)
      let r := acc.2.writeRowFlash t v e.1 owner e.2.bytes
      (acc.1 ++ [(e.1, { e.2 with dirty := !r.1 })], if r.1 then r.2.bump .GE_HP_WRITEBACKS (e.1 % 5) 0 1 else r.2)
    else (acc.1 ++ [e], acc.2)) ([], s)

/-- The dirty rows among some pinned rows can be written back now. -/
def State.backGoes (s : State) (t v : Nat) (rows : Tbl RowRec) : Bool :=
  let owner := s.tbl.tblOwner.getD s.tbl.hatpin.chargedTo (4 * t + v)
  rows.all fun e => !e.2.dirty || (s.rowsUp [e.1] && s.flashGoes t v e.1 owner && !s.rowWaits e.1)

/-- HATPIN_DRAIN_END (R145 steps 5 to 7). No lookup outlives the event that makes it, so none holds the old index. A swap that
a reset has broken off ends with the start that follows. -/
def execHatpinDrainEnd (s : State) : Out :=
  match s.tbl.hatpin.swap with
  | none => .next s
  | some w =>
    let s := s.drainRows ((w.leaving.filter (·.2.dirty)).map (·.1))
    let leaving := ((s.tbl.hatpin.swap.map (·.leaving)).getD [])
    if !s.isOn fGE_HP_CTL_SWAP_BUSY 0 0 || !s.backGoes w.oldTbl w.oldVslot leaving then .next s
    else
      let s := (s.writeBack w.oldTbl w.oldVslot leaving).2
      let s := (s.setHatpin { s.tbl.hatpin with swap := none }).setFld fGE_HP_CTL_SWAP_BUSY 0 0 0
      let s := s.releaseTable w.tbl w.vslot
      match s.cmd? w.ctx w.seq with
      | some m => .next (s.gFinish w.ctx m { info := w.loaded })
      | none => .next s

/-- Write every dirty pinned row back; the rows are clean after (R146). -/
def State.flushHatpin (s : State) : State :=
  let h := s.tbl.hatpin
  let a := s.writeBack h.table h.vslot h.rows
  match h.swap with
  | some w =>
    let b := a.2.writeBack w.oldTbl w.oldVslot w.leaving
    b.2.setHatpin { h with rows := a.1, swap := some { w with leaving := b.1 } }
  | none => a.2.setHatpin { h with rows := a.1 }

def State.admitFlush (c : Nat) (m : Cmd) (s : State) : State :=
  let s := s.drainRows (s.tbl.hatpin.dirty.map (·.1))
  let h := s.tbl.hatpin
  let goes := s.backGoes h.table h.vslot h.rows && h.swap.all fun w => s.backGoes w.oldTbl w.oldVslot w.leaving
  let n := h.dirty.length
  if !generalOk m.bytes then s.finish c m.seq (Res.of stInvalid)
  else if !goes then s.waitAtAdmission c m
  else
    let s := s.flushHatpin
    s.gFinish c m { info := n - s.tbl.hatpin.dirty.length }

/-- HATPIN_FLUSH (R146). -/
def execHatpinFlush (c : Nat) (s : State) : Out :=
  .next ((s.admitFront c [0x25] noCheck (State.admitFlush c)).admitBad c 65536)

/-! ### Versions of a table (R142, R143) -/

/-- The version slot that TABLE_RETIRE names, and the status of its checks (R143, R13). -/
def State.tblRetireStatus (s : State) (m : Cmd) : Option Nat × Nat :=
  let b := m.bytes
  let t := gTarget b
  let v := firstFit (fun v => s.tblValid t v && !s.tblRetiring t v && s.fld fGE_TBL_VER_VERSION t v == gVersion b) 4
  let current := v.any fun v => s.fld fGE_TBL_CTL_CURRENT t 0 == v
  (v, worst [(!generalOk b || current, stInvalid), (v.isNone, stBadVersion)])

def State.admitTblRetire (c : Nat) (m : Cmd) (s : State) : State :=
  let t := gTarget m.bytes
  let st := (s.tblRetireStatus m).2
  match (s.tblRetireStatus m).1 with
  | some v =>
    if st ≠ 0 then s.finish c m.seq (Res.of st)
    else
      let s := s.setFld fGE_TBL_CTL_RETIRING t 0 (setBit (s.fld fGE_TBL_CTL_RETIRING t 0) v true)
      { s with tbl := { s.tbl with tblRetire := s.tbl.tblRetire.put (4 * t + v) m.seq } }
  | none => s.finish c m.seq (Res.of st)

/-- TABLE_RETIRE (R143). -/
def execTableRetire (c : Nat) (s : State) : Out :=
  .next ((s.admitFront c [0x26] (fun m t => (t.tblRetireStatus m).2) (State.admitTblRetire c)).admitBad c 65536)

/-- The written sectors of a table version, as channel and LSN. -/
def State.tblSectors (s : State) (t v : Nat) : List (Nat × Nat) :=
  let p := s.tableSpan t v
  (List.range 32).flatMap fun ch => ((List.range (p.2 - p.1)).map (p.1 + ·)).filterMap fun l =>
    match (s.chan ch).look l with
    | .data d _ => if d = emptySect then none else some (ch, l)
    | _ => none

/-- Free a retired version's flash: its sectors are written with zeros, as sectors that were never written read, and its
charge ends. Rows of it that are pinned go with it. -/
def State.freeTable (t v : Nat) (s : State) : State :=
  let k := 4 * t + v
  let owner := s.tbl.tblOwner.getD 0 k
  let s := forEach (s.tblSectors t v) (fun (e : Nat × Nat) u =>
    u.queueWrite { ch := e.1, lsn := e.2, data := emptySect, old := none, tenant := owner }) s
  let s := s.dropCharge owner 1 (s.tbl.tblUnits.getD 0 k)
  let h := s.tbl.hatpin
  let swap := h.swap.map fun w => if w.oldTbl = t ∧ w.oldVslot = v then { w with leaving := [] } else w
  let s := if h.table = t ∧ h.vslot = v then
      (s.setHatpin { h with rows := [], swap := swap }).setFld fGE_HP_CTL_PINNED 0 0 0
    else s.setHatpin { h with swap := swap }
  let cmd := s.tbl.tblRetire.get? k
  let s := { s with tbl := { s.tbl with
    tblOwner := s.tbl.tblOwner.del k, tblUnits := s.tbl.tblUnits.del k, tblRetire := s.tbl.tblRetire.del k } }
  let s := s.setReg .GE_TBL_CTL t 0 (Fld.put fGE_TBL_CTL_RETIRING
    (Fld.put fGE_TBL_CTL_VALID (s.reg .GE_TBL_CTL t 0) (setBit (s.fld fGE_TBL_CTL_VALID t 0) v false))
    (setBit (s.fld fGE_TBL_CTL_RETIRING t 0) v false))
  match cmd.bind s.ownerOf with
  | some (c, m) => s.gFinish c m {}
  | none => s

/-- TABLE_VERSION_FREE (R143). -/
def execTableVersionFree (t v : Nat) (s : State) : Out :=
  if s.tblRetiring t v && s.syVal (s.fld fGE_TBL_VER_REF_SYNC t v) == 0 then .next (s.freeTable t v) else .next s

/-- A write of GE_TBL_CTL that breaks R143. One that moves CURRENT and clears VALID of the slot that was CURRENT is among them:
the model's choice (log entry 25). -/
def State.tblSwitchBad (s : State) (t : Nat) (old new : W64) : Bool :=
  let valid := fun (w : W64) (v : Nat) => (Fld.get fGE_TBL_CTL_VALID w).testBit v
  let cur := Fld.get fGE_TBL_CTL_CURRENT old
  let cur' := Fld.get fGE_TBL_CTL_CURRENT new
  let num := fun (v : Nat) => s.fld fGE_TBL_VER_VERSION t v
  (cur' != cur && (!valid new cur' || s.tblRetiring t cur'))
    || (valid old cur && !valid new cur)
    || (List.range 4).any fun v => valid new v && !valid old v
        && (List.range 4).any fun w => w != v && valid new w && num w == num v

/-- TABLE_VERSION_SWITCH (R142, R143): one write of GE_TBL_CTL, taken whole or discarded and logged. -/
def execTableVersionSwitch (t : Nat) (value loc : W64) (s : State) : Out :=
  let old := s.reg .GE_TBL_CTL t 0
  let new := writeValue .GE_TBL_CTL old value
  if s.tblSwitchBad t old new then .next (s.discard loc value)
  else
    let moved := Fld.get fGE_TBL_CTL_CURRENT old != Fld.get fGE_TBL_CTL_CURRENT new
    let count := Fld.get fGE_TBL_CTL_SWITCH_COUNT old + if moved then 1 else 0
    .next (s.setReg .GE_TBL_CTL t 0 (Fld.put fGE_TBL_CTL_SWITCH_COUNT new count))

end Sys2Proof.Machine
end

