-- ==== Sys2Proof/Machine/Boot.lean ====
section
/-! DEFINITION. Start-up, identity and attestation (17): the boot flash and its records, the steps of a start, mitten mode,
and what a reset of every domain keeps (R329, R330, R342 to R354). -/

namespace Sys2Proof.Machine

/-! ### HQ_START_STATUS and the start history (R348, R351) -/

def State.mode (s : State) : Nat := s.fld fHQ_START_STATUS_MODE 0 0
def State.startStep (s : State) : Nat := s.fld fHQ_START_STATUS_STEP 0 0

/-- The set run: meaningful from S4, and not in mitten mode. -/
def State.runSet (s : State) : Option Nat :=
  if s.mode = 2 ∨ s.startStep < 4 then none else some (s.fld fHQ_START_STATUS_SET_RUN 0 0)

/-- Change the newest history entry. -/
def State.modEntry (f : HistEntry → HistEntry) (s : State) : State :=
  match s.boot.history with
  | [] => s
  | e :: es => { s with boot := { s.boot with history := f e :: es } }

/-- A new entry in the ring of 2,048, the newest first. -/
def State.pushEntry (e : HistEntry) (s : State) : State :=
  { s with boot := { s.boot with history := (e :: s.boot.history).take 2048 } }

def State.newestOutcome (s : State) : Nat := (s.boot.history.head?.map (·.outcome)).getD 1

/-- Close the entry of the start (R351). -/
def State.closeStart (outcome reason detail : Nat) (s : State) : State :=
  let sv := if s.runSet.isNone then 0 else s.fld fHQ_START_STATUS_SEC_VERSION 0 0
  s.modEntry fun e =>
    { e with outcome := outcome, step := s.startStep, reason := reason, detail := detail, sets := s.start.sets,
             fails := s.boot.fails, durationMs := (s.now - s.start.began) / ms, secVersion := sv }

/-- REASON of the last start that failed. -/
def State.lastReason (s : State) : Nat := ((s.boot.history.find? (·.outcome == 2)).map (·.reason)).getD 0

/-- FAILS, LAST_REASON and SEC_FLOOR as the boot flash has them. -/
def State.bootStatus (s : State) : State :=
  let s := (s.setFld fHQ_START_STATUS_FAILS 0 0 s.boot.fails).setFld fHQ_START_STATUS_LAST_REASON 0 0 s.lastReason
  s.setFld fHQ_START_STATUS_SEC_FLOOR 0 0 (if s.boot.config.valid then s.boot.secFloor else 0)

/-- XSPI_RST_N is high: it is held low until S3 of the start (R405). -/
def State.xspiRstN (s : State) : Bool := s.mode != 0 || decide (3 ≤ s.startStep)

/-! ### What a reset of every domain keeps (R329, R330) -/

/-- Registers whose contents KEEP_ERRORS keeps. -/
def errorRegs : List RegName :=
  [.EL_SEQ, .EL_RECORDS, .EL_COALESCED, .EL_OVERWRITTEN, .EL_ECC_CORR, .EL_ECC_UNCORR, .DM_DUMPS, .DM_REFUSED, .DM_MARKERS,
   .DM_INFO]

/-- Descriptor registers of which KEEP_DRAM keeps a copy. TN_QUOTA_USED and TN_CMP_EPOCH stand for what the restart
recomputes: the charges of what survives, and the epoch in force. -/
def copiedRegs : List RegName :=
  [.HQ_IDX_CTL, .HQ_IDX_VER, .HQ_IDX_LIM, .GE_TBL_CTL, .GE_TBL_GEOM, .GE_TBL_VER, .GE_TBL_ROWS, .GE_TBL_OPT, .GE_TBL_EPS,
   .GE_TBL_PEER, .GE_HP_CTL, .TN_QUOTA_LIMIT, .TN_PART, .TN_BAND, .TN_RG, .TN_QUOTA_USED, .TN_CMP_EPOCH]

def State.copyRegs (s : State) (rs : List RegName) : Tbl W64 :=
  s.regs.filter fun (e : Nat × W64) => keyIn rs (fun _ _ => true) e.1

/-- A channel after a reset of every domain: journal, map and media stay, and nothing else. -/
def Chan.atReset (keepDram : Bool) (c : Chan) : Chan :=
  { c with reqQ := [], fullSince := none, qcache := [], ctxs := [], planeQ := [], planeBusy := [], inbox := [],
           shadowWant := [], shadowGot := [], acks := [], foldPending := [], collect := [], refreshQ := [],
           pwrEn := false, onfiUp := false, isolated := false, flushing := false,
           openS := if keepDram then c.openS else [], nextFree := if keepDram then c.nextFree else 0,
           released := if keepDram then c.released else [] }

/-- Every domain at reset: what the options do not keep is as after power-on (R327, R330). The outside world, the boot flash,
the media and the device time stay. -/
def State.resetAll (keepErr keepDram : Bool) (s : State) : State :=
  let r := State.reset
  let kept := (if keepErr then s.copyRegs errorRegs else []) ++ s.copyRegs [.CF_CAP]
  let chans := s.fl.chans.map fun (e : Nat × Chan) => (e.1, Chan.atReset keepDram e.2)
  let t : State := { r with
    pending := s.pending, now := s.now, freeCount := s.freeCount, hostMem := s.hostMem, out := s.out, pins := s.pins,
    readData := s.readData, boot := s.boot, regs := kept.foldl (fun (t : Tbl W64) e => t.put e.1 e.2) []
    hq := { r.hq with nextSeq := s.hq.nextSeq }
    fl := { r.fl with chans := chans }
    power := { r.power with temps := s.power.temps, mr4 := s.power.mr4, tripped := s.power.tripped, tap := s.power.tap }
    ras := if keepErr then { r.ras with errLog := s.ras.errLog, dumpEng := s.ras.dumpEng } else r.ras
    idx := if keepDram then { s.idx with updates := [], lanes := [], heatAt := [] } else r.idx
    tbl := if keepDram then { s.tbl with rowQ := [], tblJobs := [], tblRetire := [] } else r.tbl
    dram := if keepDram then s.dram else []
    start := { r.start with restoreDram := keepDram, copy := if keepDram then s.start.copy else [],
                            powerLost := s.start.powerLost } }
  let held := if s.fld fDM_CTL_STATE 0 0 = 1 then 2 else s.fld fDM_CTL_STATE 0 0
  if keepErr then t.setFld fDM_CTL_STATE 0 0 held else t

/-! ### Beginning, failing, mitten mode (R348, R349, R351, R352) -/

/-- Mitten mode: the newest entry carries OUTCOME MITTEN; it is an entry of its own (log entry 43). -/
def State.enterMitten (s : State) : State :=
  let s := (s.setFld fHQ_START_STATUS_MODE 0 0 2).bootStatus
  let old := s.boot.history.head?.getD { startNo := 0 }
  let s := s.setFld fHQ_START_STATUS_STEP 0 0 old.step
  s.pushEntry { startNo := s.boot.startNo, outcome := 4, step := old.step, reason := s.lastReason, fails := s.boot.fails }

/-- S0: the previous entry is settled, and this start's is opened, unless FAILS is 3 (R348, R351, R352). -/
def State.beginStart (s : State) : State :=
  let s := if s.newestOutcome = 0 then s.modEntry fun e => { e with outcome := 2, reason := 0x0A } else s
  let fails := if s.newestOutcome = 3 then s.boot.fails - 1 else s.boot.fails
  let s := { s with boot := { s.boot with fails := fails, startNo := s.boot.startNo + 1 }
                    start := { s.start with began := s.now, stepAt := s.now } }
  if 3 ≤ fails then s.enterMitten
  else
    let s := { s with boot := { s.boot with fails := fails + 1 }, start := { s.start with running := true } }
    (s.bootStatus).pushEntry { startNo := s.boot.startNo, fails := fails + 1 }

/-- The pins and the clock let a start begin (R382, R397). -/
def State.mayStart (s : State) : Bool := s.pins.resetN && s.pins.sysclk && s.pins.faultN

/-- Begin a start now, or hold every domain in reset until the pins and the clock let it begin. -/
def State.tryStart (s : State) : State :=
  if s.mayStart then s.beginStart
  else { s with ras := { s.ras with resets := [{ domain := 5, num := 0, since := s.now, phase := 4 }] } }

/-- A start has failed: its entry is closed, and the device restarts or enters mitten mode (R349). An entry closed
POWER_LOST stands, and its start does not count (R351). -/
def State.failStart (reason detail : Nat) (s : State) : State :=
  let lost := s.newestOutcome == 3
  let s := if lost then s else s.closeStart 2 reason detail
  let key := s.fld fHQ_START_STATUS_KEY_OK 0 0
  let st : Start :=
    { began := s.now, powerLost := s.start.powerLost, restoreDram := s.start.restoreDram, copy := s.start.copy }
  let t : State := { s.resetAll true s.start.restoreDram with start := st }
  if 3 ≤ t.boot.fails ∧ !lost then (t.setFld fHQ_START_STATUS_KEY_OK 0 0 key).enterMitten else t.tryStart

/-- POWER_ON (R26, R348): nothing volatile is left, and device time starts at zero. -/
def execPowerOn (s : State) : Out :=
  let pins := { s.pins with faultN := true, thermtripN := true }
  let t := { s.resetAll false false with now := 0, pins := pins, power := {} }
  .next { t with start := { powerLost := true } }.tryStart

/-! ### Image sets (R344, R345, R351) -/

/-- A field of entry `n` of the directory (R344): TYPE at 0, OFFSET at 8, LENGTH at 16. -/
def dirField (i : ImageInfo) (n at_ len : Nat) : Nat := fieldAt i.header (0xD0 + 96 * n + at_) len

/-- The entries that the directory uses: those whose TYPE is not zero. -/
def dirUsed (i : ImageInfo) : List Nat := (List.range 32).filter fun n => dirField i n 0 2 != 0

/-- MAGIC and FORMAT are as given, every component of types 1 to 7 appears exactly once and lies within the 48 MiB region, and
no entry names a reserved TYPE (R345). -/
def imageComplete (i : ImageInfo) : Bool :=
  let used := dirUsed i
  fieldAt i.header 0 2 == 0xF1E8 && fieldAt i.header 2 2 == 1
    && ((List.range 7).all fun t => (used.filter fun n => dirField i n 0 2 == t + 1).length == 1)
    && used.all fun n => decide (dirField i n 0 2 ≤ 7) && decide (dirField i n 8 8 + dirField i n 16 8 ≤ 48 * 2 ^ 20)

def imageSecVersion (i : ImageInfo) : Nat := fieldAt i.header 8 4

/-- The set digest: that of header bytes 0x000 to 0xF8D (R345). -/
def imageDigest (i : ImageInfo) : List Byte := Config.shake256 (i.header.take 0xF8E) 64

/-- DETAIL bits of a set as it is read: signature, digest, incomplete, below the floor (R345, R351; log entry 88). -/
def ImageInfo.bits (i : ImageInfo) (floor : Nat) : Nat :=
  (if i.certOk && i.sigOk then 0 else 1) + (if (dirUsed i).all fun n => i.same.getD n false then 0 else 2)
    + (if imageComplete i then 0 else 4) + (if imageSecVersion i < floor then 8 else 0)

/-- The same for a region that may be unprogrammed: its header has no signature, and it holds no component. -/
def imageBits (i : Option ImageInfo) (floor : Nat) : Nat :=
  match i with
  | some i => ImageInfo.bits i floor
  | none => 5

def State.image (s : State) (set : Nat) : Option ImageInfo := if set = 0 then s.boot.setA else s.boot.setB

def State.verifies (s : State) (set : Nat) : Bool := imageBits (s.image set) s.boot.secFloor == 0

/-- PREFERRED of the anchor copy in use (R343). -/
def State.preferred (s : State) : Nat :=
  if !s.boot.anchor.valid then 0 else if s.boot.anchor.usesB then s.boot.prefB else s.boot.prefA

/-- The previous start failed at S4 or later: the set it ran. Entries of mitten mode are no starts. -/
def State.lateFail (s : State) : Option Nat :=
  match (s.boot.history.drop 1).find? (·.outcome != 4) with
  | some e => if e.outcome = 2 ∧ 4 ≤ e.step then some (e.sets % 2) else none
  | none => none

/-- The set tried first at S3 (R348). -/
def State.firstSet (s : State) : Nat :=
  match s.start.firstChoice, s.lateFail with
  | some c, _ => c
  | none, some c => 1 - c
  | none, none => s.preferred

/-! ### The steps (R348, R350) -/

def stepLimitMs (n : Nat) : Nat := [50, 50, 100, 1000, 500, 3000, 10000, 60000, 2000, 4000].getD n 0

/-- The next step. -/
def State.nextStep (s : State) : State :=
  let n := s.startStep + 1
  let s := (s.setFld fHQ_START_STATUS_STEP 0 0 n).modEntry fun e => { e with step := n }
  { s with start := { s.start with stepAt := s.now } }

/-- Units that a start leaves out. -/
def State.markBad (us : List UnitId) (s : State) : State := { s with start := { s.start with bad := s.start.bad ++ us } }

/-- Units out after a failed step, each logged with signatures that are free values. -/
def State.noteBad (us : List UnitId) (s : State) : State :=
  let one := fun (u : UnitId) (t : State) =>
    let a := (Config.free t.freeCount).toNat
    let b := (Config.free (t.freeCount + 1)).toNat
    t.draw.draw.log (unitErr 0x0430 u a b)
  (forEach us one s).markBad us

def State.setSets (bit : Nat) (s : State) : State := { s with start := { s.start with sets := s.start.sets ||| bit } }

/-- Objects that the ROM needs are put in place at S2, the others as the units come into service. -/
def romObject (index : Nat) : Bool :=
  (decide (0x1000 ≤ index) && decide (index < 0x3000)) || (decide (0xD000 ≤ index) && decide (index < 0xE000))

def State.applyConfig (rom : Bool) (s : State) : State :=
  forEach (s.boot.stored.filter fun e => romObject e.1 == rom) (fun e t => t.applyStored e.1 e.2.1 e.2.2) s

/-- S3: the first choice, or the other set if it fails (R345, R348). -/
def State.chooseSet (a b : ImageInfo) (s : State) : State :=
  let s := { s with boot := { s.boot with setA := some a, setB := some b } }
  let c := s.firstSet
  let run := fun (set other : Nat) =>
    let i := (s.image set).getD a
    let s := (s.setFld fHQ_START_STATUS_SET_RUN 0 0 set).setFld fHQ_START_STATUS_SEC_VERSION 0 0 (imageSecVersion i)
    { s with start := { s.start with sets := s.start.sets ||| set ||| 2 * other, setDigest := imageDigest i } }.nextStep
  if s.verifies c then run c 0
  else if s.verifies (1 - c) then run (1 - c) 1
  else (s.setSets 2).failStart 4 (imageBits s.boot.setA s.boot.secFloor + 16 * imageBits s.boot.setB s.boot.secFloor)

/-- Tile faults of a band that no repair in the record covers take its free liners, and the new repairs are written to the
record; a band with more than its two liners can replace stays OUT (R337, R350). -/
def State.repairTiles (g mask : Nat) (s : State) : State :=
  let mine := s.boot.repairs.filter fun r => r.kind == 2 && r.num == g
  let new := (List.range 18).filter fun i => mask.testBit i && !mine.any (·.logical == i)
  if 2 < mine.length + new.length then (if s.isBad 2 g then s else s.noteBad [⟨2, g⟩])
  else forEach ((List.range new.length).zip new) (fun e t => t.writeRepair ⟨2, g, 0, 16 + mine.length + e.1, e.2⟩) s

/-- S5: units that fail their self-test stay OUT; the repairs of the record are applied, or they are rebuilt from the faults
found when none verifies (R350). `faults` are the tile faults found, by band. -/
def State.selfTested (faults : List (Nat × Nat)) (ok bad : List UnitId) (s : State) : State :=
  if bad.contains ⟨4, 0⟩ ∨ !(ok.any fun u => u.kind == 1) then s.failStart 6 0
  else
    let s := s.noteBad bad
    let s := if s.boot.repair.valid then s
      else { s with boot := { s.boot with repairs := [], repair := RecCopies.write s.boot.repair } }.setSets 4
    let s := forEach faults (fun f t => t.repairTiles f.1 f.2) s
    let liner := fun (g : Nat) (t : State) =>
      let mine := t.boot.repairs.filter fun r => r.kind == 2 && r.num == g
      let failed := mine.foldl (fun n r => n ||| 2 ^ r.logical) 0
      if mine = [] then t
      else { t with ras := { t.ras with
        tiles := t.ras.tiles.put g { linersFree := 2 - mine.length, failed := failed } } }
    (forEach (List.range 50) liner s).nextStep

/-- What a list is after the reset: a transition under way is undone, nothing holds it (R224, R330). -/
def settleList (l : IList) : IList :=
  let l := { l with holds := 0, movers := [], wrs := [] }
  let low := fun (b : Block) => { b with codeAddr := b.low.getD 0, hdrGen := (b.hdrGen + 1) % 256 }
  if l.rstate = 1 then
    { l with rstate := 3, residency := l.lowTier, demand := false, pinned := false, blocks := l.blocks.map low }
  else if l.rstate = 2 then { l with rstate := 0, residency := 0, blocks := l.blocks.map fun b => { b with lowFresh := false } }
  else l

/-- The check pass of R330: registers restored but for the RETIRING bits, transitions undone, the retire queue applied. -/
def State.restoreDram (s : State) : State :=
  let s := { s with regs := s.start.copy.foldl (fun (t : Tbl W64) e => t.put e.1 e.2) s.regs }
  let s := forEach (List.range 16) (fun n t => t.setFld fHQ_IDX_CTL_RETIRING n 0 0) s
  let s := forEach (List.range 32) (fun n t => t.setFld fGE_TBL_CTL_RETIRING n 0 0) s
  let s := (s.setFld fGE_HP_CTL_SWAP_BUSY 0 0 0).setFld fTN_CMP_EPOCH_APPLY_NS 0 0 0
  let s := s.nextEpoch
  let s := forEach (s.allLists.filter fun e => e.2.2.rstate == 1)
    (fun (e : Nat × Nat × IList) t => t.dropCharge e.2.2.holder 0 (t.listUnits e.1 e.2.2)) s
  let one := fun (x : Version) =>
    { x with retireCmd := none, lists := x.lists.map fun (l : Nat × IList) => (l.1, settleList l.2) }
  let q := s.idx.retireQ
  let s := { s with idx := { s.idx with retireQ := []
                                        versions := s.idx.versions.map fun (e : Nat × Version) => (e.1, one e.2) } }
  let s := forEach q (fun r t => t.withMirror State.tombOnce r.ver r.ref) s
  s.settleCommit

/-- S6: DRAM restored or cleared (R330, R348). The copy of the registers lies in the DRAM of C0; `failed`: the check pass
cannot read it. -/
def State.dramStarted (failed : Bool) (ok bad : List UnitId) (s : State) : State :=
  let trained := (List.range 5).any fun d => !s.isBad 1 d && (List.range 4).any fun i => ok.contains ⟨6, 4 * d + i⟩
  if !trained then s.failStart 7 0
  else
    let s := s.noteBad bad
    let c0 := !failed && !s.isBad 1 0 && (List.range 4).all fun i => ok.contains ⟨6, i⟩
    if s.start.restoreDram then
      if c0 then s.restoreDram.nextStep
      else { s with idx := {}, tbl := {}, dram := [] }.setSets 8 |>.nextStep
    else s.nextStep

/-- Recompute the parity of every stripe whose INTENT has no CLOSE (R186). -/
def State.recomputeOpen (k : Nat) (s : State) : State :=
  let js := (s.chan k).journal
  let opened := js.filterMap fun r => match r.pay with
    | .intent e c => if js.any (fun x => x.pay == .close e c && decide (r.jseq < x.jseq)) then none else some e
    | _ => none
  forEach opened.eraseDups (fun e t => (t.recompute e k []).bump .GE_PAR_RECOMPUTE (dieOfChannel k) 0 1) s

/-- S7: the channels that pass are IN_SERVICE (R200, R202, R348). -/
def State.flashStarted (ok bad : List UnitId) (s : State) : State :=
  let good := (List.range 32).filter fun n => ok.contains ⟨3, n⟩
  if good.length < 31 ∧ s.fld fCF_CAP_DATA_SECTORS 0 0 ≠ 0 then s.failStart 8 0
  else
    let up := fun (n : Nat) (t : State) =>
      let t := t.resetCuff n t.start.powerLost
      (t.setChan n { t.chan n with pwrEn := true, pwrRise := t.now, onfiUp := true }).setFld fCF_SVC_STATE n 0 0
    let s := forEach good up (s.noteBad bad)
    let s := forEach good State.recomputeOpen s
    { s with start := { s.start with powerLost := false } }.nextStep

/-- S9: the error log and the dump are flushed to the boot flash. -/
def State.flushed (s : State) : State :=
  let held := s.fld fDM_CTL_STATE 0 0 = 2
  let dump := if held then s.ras.dumpEng.recs else s.boot.flushedDump
  let s := { s with boot := { s.boot with flushed := s.ras.errLog, flushedDump := dump } }
  (if held then s.setFld fDM_CTL_STATE 0 0 3 else s).nextStep

/-- Lanes of a fabric die: each failed one that the spare can replace, each that the repair record replaces (R337, R350). -/
def State.lanesUp (d : Nat) (s : State) : State :=
  let spare := 9 * d + 8
  let free := !s.isBad 7 spare
  let rec_ := (s.boot.repairs.find? fun r => r.kind == 7 && r.phys == spare).map (·.logical)
  let out := rec_.or ((dieLanes d).find? fun l => s.isBad 7 l)
  let s := forEach (dieLanes d ++ [spare]) (fun l t =>
    if t.isBad 7 l then t else t.setSvc ⟨7, l⟩ (if l = spare then 6 else 0)) s
  match free, out with
  | true, some l =>
    let s := { s with ras := { s.ras with laneMap := s.ras.laneMap.put l spare } }
    let s := (s.setSvc ⟨7, spare⟩ 0).writeRepair ⟨7, l, 1, spare, l⟩
    if s.isBad 7 l then s else s.setSvc ⟨7, l⟩ 6
  | _, _ => s

/-- S10: units IN_SERVICE or SPARE, bands with their owners, admission opened, the entry closed OK (R338, R348). -/
def State.openService (s : State) : State :=
  let band := fun (g : Nat) (t : State) =>
    let t := if t.isBad 2 g ∨ t.isBad 1 (dieOf g) then t
      else (t.setSvc ⟨2, g⟩ 0).setFld fBD_STATUS_IN_SERVICE g 0 1
    let t := { t with power := { t.power with gatedSince := t.power.gatedSince.put g t.now } }.takeOwner g
    if t.gateCond g then t else t.ungate g
  let s := forEach (List.range 50) band s
  let s := (s.lanesUp 0).lanesUp 1
  let cores := (List.range 4).filter fun k => !s.isBad 8 k
  let s := forEach ((List.range cores.length).zip cores) (fun e t => t.setSvc ⟨8, e.2⟩ (if e.1 < 3 then 0 else 6)) s
  let s := (s.applyConfig false).flushHatpin
  let s := s.setHatpin { s.tbl.hatpin with swap := none }
  let s := { s with boot := { s.boot with fails := 0 } }
  let s := ((s.closeStart 1 0 0).setFld fHQ_START_STATUS_MODE 0 0 1).setFld fHQ_START_STATUS_FAILS 0 0 0
  { s with start := { s.start with running := false, firstChoice := none } }

/-- S0 finds which ports have a reference clock; they keep their mode until the next start (R381). -/
def State.sampleRefclk (s : State) : State := { s with start := { s.start with commonRef := s.pins.refclk % 4 } }

/-- START_STEP_COMPLETE (R348, R350): `failed` says how S1 and S4 ended, and whether the check pass of S6 can read its register
copy; the steps fail otherwise by what is found. -/
def execStartStepComplete (failed : Bool) (a b : ImageInfo) (okUnits : List UnitId) (found : StepFaults) (s : State) : Out :=
  let badUnits := found.units
  if !s.start.running then .next s
  else match s.startStep with
    | 0 => if okUnits.any fun u => u.kind == 8 then .next ((s.markBad (badUnits.filter fun u => u.kind == 8)).sampleRefclk).nextStep
      else .next (s.failStart 1 0)
    | 1 => if failed || !s.boot.identity.valid then .next (s.failStart 2 0)
      else .next (s.setFld fHQ_START_STATUS_KEY_OK 0 0 1).nextStep
    | 2 => if s.boot.config.valid then .next ((s.applyConfig true).bootStatus).nextStep else .next (s.failStart 3 0)
    | 3 => .next (s.chooseSet a b)
    | 4 => if failed then .next (s.failStart 5 0) else .next s.loadDumpList.nextStep
    | 5 => .next (s.selfTested found.tiles okUnits badUnits)
    | 6 => .next (s.dramStarted failed okUnits badUnits)
    | 7 => .next (s.flashStarted okUnits badUnits)
    | 8 => .next (s.noteBad badUnits).nextStep
    | 9 => .next s.flushed
    | _ => .next s.openService

/-- STEP_TIMEOUT (R348). -/
def execStepTimeout (s : State) : Out :=
  let n := s.startStep
  if s.start.running && decide (n < 10) then .next ((s.reach (s.start.stepAt + ms * stepLimitMs n)).failStart 9 n)
  else .next s

/-! ### Commands of the boot range (R343, R347, R352 to R354) -/

/-- PROVISION (R347): refused once an identity record exists. -/
def execProvision (s : State) : Out :=
  if s.boot.identity.valid then .next { s with ras := { s.ras with refused := s.ras.refused + 1 } }
  else
    let s := { s with boot := { s.boot with identity := RecCopies.write s.boot.identity } }
    .next (s.emit (.provisioned (Config.ed448Public (Config.deviceKey 0))))

/-- Bytes cut or filled with zeros to a length. -/
def fitTo (n : Nat) (b : List Byte) : List Byte := b.take n ++ zeros (n - b.length)

/-- The repair and configuration records in force, as the bytes that their digests cover (log entry 44). -/
def State.repairBytes (s : State) : List Byte :=
  leBytes 8 (RecCopies.sequence s.boot.repair) ++ s.boot.repairs.flatMap fun r =>
    leBytes 1 r.kind ++ leBytes 1 r.num ++ leBytes 2 r.spare ++ leBytes 4 r.phys ++ leBytes 8 r.logical

def State.configBytes (s : State) : List Byte :=
  leBytes 8 (RecCopies.sequence s.boot.config) ++ leBytes 4 s.boot.secFloor ++ s.boot.stored.flatMap fun e =>
    leBytes 2 e.1 ++ leBytes 1 e.2.1 ++ leBytes 4 e.2.2.length ++ e.2.2

/-- Digest of the image set that does not run, when it verifies. -/
def State.otherDigest (s : State) : List Byte :=
  match s.runSet with
  | some r => if s.verifies (1 - r) then ((s.image (1 - r)).map imageDigest).getD [] else []
  | none => []

/-- The attestation report but for its signature (R354). -/
def State.attestBody (nonce : List Byte) (s : State) : List Byte :=
  leBytes 2 0xF1EA ++ leBytes 2 1 ++ leBytes 4 s.boot.startNo ++ fitTo 32 nonce
    ++ fitTo 64 (Config.shake256 (Config.ed448Public (Config.deviceKey 0)) 64)
    ++ fitTo 64 s.start.setDigest ++ fitTo 64 s.otherDigest ++ fitTo 64 (Config.shake256 s.repairBytes 64)
    ++ fitTo 64 (Config.shake256 s.configBytes 64) ++ leBytes 4 (s.fld fHQ_START_STATUS_SEC_VERSION 0 0)
    ++ leBytes 4 (s.fld fHQ_START_STATUS_SEC_FLOOR 0 0) ++ leBytes 1 s.mode ++ leBytes 1 (s.runSet.getD 0xFF) ++ leBytes 2 0
    ++ leBytes 4 (if s.mode = 1 then s.fld fTN_CMP_EPOCH_EPOCH 0 0 else 0) ++ leBytes 8 s.now

/-- The 512 bytes of the report. -/
def State.attestReport (nonce : List Byte) (s : State) : List Byte :=
  let b := s.attestBody nonce
  b ++ fitTo 114 (Config.ed448Sign (Config.deviceKey 0) b) ++ zeros 14

/-- ATTEST (R352, R354): refused when KEY_OK is 0. -/
def execAttest (nonce : List Byte) (s : State) : Out :=
  if s.isOn fHQ_START_STATUS_KEY_OK 0 0 && nonce.length == 32 then .next (s.invokeOk 0x1001 0 (s.attestReport nonce))
  else .next (s.invokeRefused 0x1001 0)

/-- IMAGE_WRITE (R352, R353). -/
def execImageWrite (set : Nat) (image : ImageInfo) (s : State) : Out :=
  if 1 < set ∨ s.mode = 0 ∨ (s.mode = 1 ∧ s.runSet = some set) then .next (s.invokeRefused 0x2002 0)
  else
    let b := if set = 0 then { s.boot with setA := some image } else { s.boot with setB := some image }
    .next ({ s with boot := b }.invokeOk 0x2002 0 [])

/-- IMAGE_VERIFY (R345, R352): the DETAIL bits, at the place that R351 gives the set. -/
def execImageVerify (set : Nat) (s : State) : Out :=
  if 1 < set then .next (s.invokeRefused 0x2002 1)
  else .next (s.invokeOk 0x2002 1 (leBytes 1 (16 ^ set * imageBits (s.image set) s.boot.secFloor)))

/-- The configuration record is written with what the boot state holds (R346). -/
def State.writeConfig (s : State) : State :=
  { s with boot := { s.boot with config := RecCopies.write s.boot.config } }

/-- SECVER_COMMIT (R353): SEC_FLOOR never goes down. -/
def execSecverCommit (s : State) : Out :=
  if s.mode ≠ 1 then .next (s.invokeRefused 0x2003 0)
  else
    let v := max s.boot.secFloor (s.fld fHQ_START_STATUS_SEC_VERSION 0 0)
    let s := { s with boot := { s.boot with secFloor := v } }.writeConfig
    .next ((s.setFld fHQ_START_STATUS_SEC_FLOOR 0 0 v).invokeOk 0x2003 0 [])

/-- START_RETRY (R352). The answer goes out before the restart, which ends every path. -/
def execStartRetry (set : Nat) (s : State) : Out :=
  if s.mode ≠ 2 ∨ 1 < set then .next (s.invokeRefused 0x2004 0)
  else
    let s := { s with boot := { s.boot with fails := 0 } }.invokeOk 0x2004 0 []
    let t := s.resetAll true s.start.restoreDram
    .next { t with start := { s.start with firstChoice := some set, sets := 0, setDigest := [], bad := [] } }.tryStart

/-- CONFIG_RESET (R352, R353): no stored object and none unsaved, SEC_FLOOR unchanged; the next start takes it up. -/
def execConfigReset (s : State) : Out :=
  if s.mode ≠ 2 then .next (s.invokeRefused 0x2005 0)
  else
    let s := { s with boot := { s.boot with stored := [] }, dict := { s.dict with unsaved := [], pending := none } }
    .next (s.writeConfig.invokeOk 0x2005 0 [])

/-- PREFERRED_SET (R343, R353): the anchor copy not in use is written, with the next SEQUENCE. -/
def execPreferredSet (set : Nat) (s : State) : Out :=
  if 1 < set ∨ s.mode = 0 then .next { s with ras := { s.ras with refused := s.ras.refused + 1 } }
  else
    let b := if s.boot.anchor.usesB then { s.boot with prefA := set } else { s.boot with prefB := set }
    .next { s with boot := { b with anchor := RecCopies.write s.boot.anchor } }

end Sys2Proof.Machine
end

