-- ==== Sys2Proof/Machine/SelfTest.lean ====
section
/-! DEFINITION. Self-tests by command (R390, R391). -/

namespace Sys2Proof.Machine

/-- Time of a test in µs: logic 1, memory 2, both 3; 0 where the table has none. -/
def testUs (kind test : Nat) : Nat :=
  let row := match kind with
    | 2 => [40000, 120000, 160000]
    | 3 => [25000, 60000, 85000]
    | 7 => [5000, 0, 5000]
    | 8 => [30000, 20000, 50000]
    | _ => []
  if test = 0 then 0 else row.getD (test - 1) 0

/-- The time of a test on a unit: that of a band scales with its level. -/
def State.testTime (s : State) (u : UnitId) (test : Nat) : Nat :=
  if u.kind = 2 then testUs 2 test * 8 / max 1 (s.fld fBD_THR_LEVEL u.num 0) else testUs u.kind test

/-- The unit is in the state that its test requires. -/
def State.mayTest (s : State) (u : UnitId) : Bool :=
  if u.kind = 3 then decide (u.num < 32) && s.chState u.num == 2
  else svcUnit u && (s.svc u == 2 || (u.kind != 2 && s.svc u == 6))

/-- The result of a test, 32 bytes. -/
def testResult (signature expected : W64) (verdict repairs tileFaults us : Nat) : List Byte :=
  leBytes 8 signature.toNat ++ leBytes 8 expected.toNat ++ leBytes 1 verdict ++ leBytes 1 0 ++ leBytes 2 repairs
    ++ leBytes 4 tileFaults ++ leBytes 4 us ++ leBytes 4 0

/-- A test ends: its result is kept, a failure is logged, a band that it woke is gated again. -/
def State.endTest (t : Test) (signature expected : W64) (verdict repairs tileFaults : Nat) (s : State) : State :=
  let r := testResult signature expected verdict repairs tileFaults ((s.now - t.since) / us)
  let s := { s with power := { s.power with tests := s.power.tests.filter (·.unit != t.unit), lastTest := r } }
  let s := if verdict = 0 then s else s.log (unitErr 0x0430 t.unit signature.toNat expected.toNat)
  let s := if t.unit.kind = 2 then s.gate t.unit.num else s
  s.invokeOk 0xE000 0 r

/-- A fault, a reset of the domain or a loss of power ends the tests of the units that `p` picks, with VERDICT 3; the
signatures are free values. -/
def State.abortTests (p : UnitId → Bool) (s : State) : State :=
  forEach (s.power.tests.filter fun t => p t.unit)
    (fun t u => (u.draw.draw).endTest t (Config.free u.freeCount) (Config.free (u.freeCount + 1)) 3 0 0) s

/-- SELF_TEST (R390). -/
def execSelfTest (u : UnitId) (test : Nat) (s : State) : Out :=
  if testUs u.kind test = 0 ∨ !s.mayTest u ∨ s.testing u then .next (s.invokeRefused 0xE000 0)
  else
    let s := if u.kind = 2 then s.ungate u.num else s
    let t : Test := { unit := u, test := test, since := s.now }
    .next { s with power := { s.power with tests := s.power.tests ++ [t] } }

/-- SELF_TEST_COMPLETE (R390): a signature that differs is no pass. -/
def execSelfTestComplete (u : UnitId) (signature expected : W64) (verdict repairs tileFaults : Nat) (s : State) : Out :=
  match s.power.tests.find? (·.unit == u) with
  | none => .next s
  | some t =>
    let v := if verdict = 0 ∧ signature ≠ expected then 1 else verdict
    let s := s.reach (t.since + us * s.testTime u t.test)
    .next (s.endTest t signature expected v repairs (if u.kind = 2 then tileFaults % 2 ^ 18 else 0))

end Sys2Proof.Machine
end

