-- ==== Sys2Proof/Machine/Engines.lean ====
section
/-! DEFINITION. Hang detection and replay: what each engine class counts, the jobs it holds, and how its work is withdrawn
and run again (R323 to R326). -/

namespace Sys2Proof.Machine

/-! ### Engine classes (R323) -/

def engineCount (e : Nat) : Nat := [50, 50, 5, 5, 5, 5, 32, 32, 4, 2].getD e 0

/-- The domain within which an engine is reset. -/
def engineDomain (e i : Nat) : Nat × Nat :=
  match e with
  | 0 | 1 => (1, i)
  | 2 | 3 | 4 | 5 => (3, i)
  | 6 | 7 => (2, i)
  | 8 => (5, 0)
  | _ => (4, i)

/-- The unit that a record of the engine names. -/
def engineUnit (e i : Nat) : UnitId :=
  match e with
  | 0 | 1 => ⟨2, i⟩
  | 2 | 3 | 4 | 5 => ⟨1, i⟩
  | 6 | 7 => ⟨3, i⟩
  | 8 => ⟨4, 0⟩
  | _ => ⟨5, i⟩

/-- The progress an engine has made: what its class counts, as a counter of its unit shows it or `work` keeps it. -/
def State.progress (s : State) (e i : Nat) : Nat :=
  let n := fun (r : RegName) => (s.reg r i 0).toNat
  match e with
  | 0 => n .BD_BLOCKS
  | 1 => n .BD_REDUCE
  | 2 | 5 | 6 => s.ras.work.getD 0 (Nat.pair e i)
  | 3 => n .BD_PR_PASSES
  | 4 => n .PJ_ENC_QUERY + n .PJ_ENC_INSERT
  | 7 => (s.chan i).jNext
  | 8 => (s.reg .HQ_CMD_FETCHED 0 0).toNat + (s.reg .HQ_CPL_WRITTEN 0 0).toNat
  | _ => n .XT_TX_PKTS + n .XT_RX_PKTS

/-- Time of admission of a job: a query, or another fetched command. -/
def State.jobAdmit (s : State) (q : Nat) : Nat :=
  match s.query q with
  | some x => x.tAdmit
  | none => ((s.ownerOf q).bind fun p => p.2.admitted).getD 0

def State.jobCtx (s : State) (q : Nat) : Nat :=
  match s.query q with
  | some x => x.ctx
  | none => ((s.ownerOf q).map (·.1)).getD 0

/-- A job that has neither completed nor been torn down. -/
def State.jobLives (s : State) (q : Nat) : Bool := (s.query q).isSome || (s.ownerOf q).isSome

/-- Queries with an active lane among some tasks. -/
def lanesOf (ts : List Task) : List Nat := ts.flatMap fun t => (t.lanes.filter (·.active)).map (·.q)

/-- The requests issued on the connections of fabric die `d`. -/
def State.wrsOn (s : State) (d : Nat) : List WR := s.net.wrs.filter fun w => w.issued && s.connDie w.conn == d

/-- The jobs that a class assigns to an engine, in no order. Host transactions take effect in their events, so that no job has
one outstanding at a DMA engine. -/
def State.holders (s : State) (e i : Nat) : List Nat :=
  match e with
  | 0 => lanesOf (s.onBand i)
  | 1 => (s.qry.redQ.getD [] i).filterMap fun p => ((s.task? p.1).bind fun t => t.lanes[p.2]?).map (·.q)
  | 2 => (s.qry.queries.filter fun e => (e.2.dieRows.get? i).isSome).map (·.1) ++ (s.qry.partials.getD [] i).map (·.q)
  | 3 => (s.qry.probe.getD {} i).pass
  | 4 => s.qry.encodeQ.getD [] i
  | 5 => (s.tbl.rowQ.getD [] i).map (·.cmd) ++ (s.fl.appendQ.getD [] i).map (·.seq)
  | 6 => (s.chan i).ctxs.flatMap fun c => c.2.joined.map (·.q)
  | 7 => (s.chan i).acks.map (·.1)
  | 8 => []
  | _ =>
    let ids := (s.wrsOn i).map (·.id)
    (s.qry.queries.filter fun e => e.2.reqWrs.any ids.contains).map (·.1) ++ (s.wrsOn i).filterMap (·.job)

/-- An engine holds work: a job's, or a write that no job waits for at a stripe engine. -/
def State.holdsWork (s : State) (e i : Nat) : Bool :=
  s.holders e i != [] || (e == 5 && s.fl.swrites.getD [] i != [])

/-- The suspects, in admission order (R324, R325). -/
def State.suspects (s : State) (e i : Nat) : List Nat :=
  let before := fun (a b : Nat) => decide (s.jobAdmit a < s.jobAdmit b) || (s.jobAdmit a == s.jobAdmit b && decide (a < b))
  sortBy before ((s.holders e i).eraseDups.filter s.jobLives)

def State.engine (s : State) (e i : Nat) : Engine := s.ras.engines.getD {} (Nat.pair e i)

def State.setEngine (e i : Nat) (x : Engine) (s : State) : State :=
  { s with ras := { s.ras with engines := s.ras.engines.put (Nat.pair e i) x } }

/-! ### Starting a query again (R327) -/

/-- What a query has outside its gathering and scan: scores, degraded reads, requests in the channels. -/
def State.purgeFlash (q : Nat) (s : State) : State :=
  let msg := fun (m : CuffMsg) => match m with
    | .load p _ _ => p != q
    | .req r => r.q != q
  let chan := fun (c : Chan) =>
    { c with reqQ := c.reqQ.filter (·.q != q), inbox := c.inbox.map fun (e : Nat × List CuffMsg) => (e.1, e.2.filter msg)
             ctxs := c.ctxs.map fun (e : Nat × ScCtx) => (e.1, { e.2 with joined := e.2.joined.filter (·.q != q) })
             qcache := c.qcache.filter fun (e : Nat × QvEntry) => e.2.q != q }
  { s with fl := { s.fl with
    chans := s.fl.chans.map fun (e : Nat × Chan) => (e.1, chan e.2)
    scores := s.fl.scores.map fun (e : Nat × List ScoreRec) => (e.1, e.2.filter (·.q != q))
    degQ := s.fl.degQ.map fun (e : Nat × List DegRead) => (e.1, e.2.filter (·.q != q))
    degDone := s.fl.degDone.map fun (e : Nat × List DegRead) => (e.1, e.2.filter (·.q != q)) } }

/-- Withdraw a query from every unit: it starts again from its encode or its probe, under its captured versions and
deadlines (R325). -/
def State.withdraw (q : Nat) (s : State) : State :=
  match s.query q with
  | none => s
  | some x =>
    let s := ((s.clearWork q).purgeFlash q).closeRegion x
    let s := s.setQuery q { x with
      stage := if x.stage = .encode ∨ x.stage = .lease then x.stage else .probe, inProbe := true, ranks := [], pCur := x.nProbe,
      outstanding := [], reported := 0, allowed := 0, skipped := 0, notScanned := 0, dieRows := [], dieReduced := [], flushing := [],
      dieLists := [], homeList := [], cands := [], rebuilt := [], region := none, reqSlices := [], reqWrs := [],
      widened := false, flags := 0, nextPost := 0 }
    forEach (x.dieRows.map (·.1)) State.noteMerge s

/-- It enters its first stage again. -/
def State.rejoin (q : Nat) (s : State) : State :=
  match s.query q with
  | none => s
  | some x =>
    if x.stage = .lease then s else s.begin_ q

/-- Mark a job replayed (R325). -/
def State.markReplayed (q : Nat) (s : State) : State :=
  let s := s.bump .HG_REPLAYED 0 0 1
  let s := s.modQuery q fun x => { x with flags := x.flags ||| 32 }
  match s.ownerOf q with
  | some p => s.modCmd p.1 q fun m => { m with replayed := true }
  | none => s

/-! ### Withdrawing the work of an engine, and running a set of it again -/

/-- The tasks of a band leave its contexts, to run again from SEQ 0 with τ = B. -/
def State.parkBand (e g : Nat) (s : State) : State :=
  let ts := s.onBand g
  let one := fun (t : Task) (u : State) =>
    u.setTask { u.rewound t with band := noBand, st := .checkpointed, bound := 0 }
  let s := forEach ts one s
  let x := s.engine e g
  let s := s.setEngine e g { x with parked := x.parked ++ ts.map (·.id) }
  { s with qry := { s.qry with redQ := s.qry.redQ.put g [] } }.noteBand g

/-- One parked task: the lanes of a set of jobs run, alone, in a context of the band; the others stay parked. -/
def State.runParked (e g : Nat) (set : List Nat) (id : Nat) (s : State) : State :=
  match s.task? id with
  | none => s
  | some t =>
    let mine := t.lanes.filter fun l => l.active && set.contains l.q
    let rest := t.lanes.filter fun l => l.active && !set.contains l.q
    let x := s.engine e g
    let gone := s.setEngine e g { x with parked := x.parked.filter (· != id) }
    if mine = [] ∧ rest = [] then (gone.dropTask id).dropHold (keyVer t.key) t.key.cluster
    else if mine = [] then s
    else if rest = [] then gone.loadTask { t with lanes := mine, replay := true } g
    else
      let n : Task := { t with id := s.qry.nextTask, lanes := mine, replay := true }
      ((s.setTask { t with lanes := rest }).loadTask n g).holdList (keyVer t.key) t.key.cluster

/-- Those of a list that `p` picks first, in the order of the set of jobs that each belongs to. -/
def bySet {α : Type} (job : α → Nat) (jobs : List Nat) (xs : List α) : List α :=
  jobs.flatMap (fun q => xs.filter fun a => job a == q) ++ xs.filter fun a => !jobs.contains (job a)

/-- The reset of an engine withdraws the work of its suspects, which wait for their set. -/
def State.parkJobs (e i : Nat) (jobs : List Nat) (s : State) : State :=
  match e with
  | 0 | 1 => s.parkBand e i
  | 2 => forEach jobs State.withdraw s
  | 3 => { s with qry := { s.qry with probe := s.qry.probe.upd {} i fun u => { u with pass := [] } } }
  | 4 => { s with qry := { s.qry with encodeQ := s.qry.encodeQ.upd [] i fun l => l.filter fun q => !jobs.contains q } }
  | 5 => { s with tbl := { s.tbl with rowQ := s.tbl.rowQ.upd [] i (bySet (·.cmd) jobs) } }
  | 6 =>
    let c := s.chan i
    let back := c.ctxs.flatMap fun x => x.2.joined
    let c := { c with ctxs := [], reqQ := bySet (·.q) jobs (back ++ c.reqQ)
                      planeQ := c.planeQ.map fun (p : Nat × List PlaneOp) => (p.1, p.2.filter (·.kind != 0))
                      planeBusy := c.planeBusy.filter fun p => p.2.kind != 0 }
    (s.setChan i c).noteChan i
  | 7 =>
    let acks := (s.chan i).acks
    let s := s.replayCh i false
    s.setChan i { s.chan i with acks := bySet (·.1) jobs acks }
  | 8 => s
  | _ =>
    let ids := (s.wrsOn i).map (·.id)
    let again := fun (p : TxPkt) => if p.wr.any ids.contains then { p with sent := false, again := true } else p
    let one := fun (e : Nat × Conn) =>
      if s.connDie e.1 = i then (e.1, { e.2 with txq := e.2.txq.map again }) else e
    { s with net := { s.net with conns := s.net.conns.map one } }

/-- The work of a set of jobs runs on the engine. -/
def State.runJobs (e i : Nat) (set : List Nat) (s : State) : State :=
  match e with
  | 0 | 1 => forEach (s.engine e i).parked (State.runParked e i set) s
  | 2 => forEach set State.rejoin s
  | 3 =>
    let go := fun (u : ProbeUnit) => { u with pass := set.filter fun q => (s.query q).isSome, started := s.now }
    { s with qry := { s.qry with probe := s.qry.probe.upd {} i go } }
  | 4 => { s with qry := { s.qry with encodeQ := s.qry.encodeQ.upd [] i (set.filter (fun q => (s.query q).isSome) ++ ·) } }
  | 6 => s.drainReqQ i 256
  | _ => s

/-- The work of a set has been run: none of it is left on the engine. -/
def State.setRun (s : State) (e i : Nat) (set : List Nat) : Bool :=
  match e with
  | 0 | 1 => !(s.onBand i).any fun t => t.replay && t.lanes.any fun l => l.active && set.contains l.q
  | 2 => set.all fun q => (s.query q).all fun x => x.stage != .encode && x.stage != .probe && x.stage != .scan && x.stage != .flush
  | 6 => !((s.holders 6 i) ++ (s.chan i).reqQ.map (·.q)).any set.contains
  | _ => !(s.holders e i).any set.contains

/-! ### Replay (R325, R326) -/

/-- Consecutive sets of `n` jobs. -/
def cutSets (n : Nat) : Nat → List Nat → List (List Nat)
  | 0, _ => []
  | _ + 1, [] => []
  | k + 1, x :: xs => (x :: xs).take (max 1 n) :: cutSets n k ((x :: xs).drop (max 1 n))

def State.setSets' (e i : Nat) (sets : List (List Nat)) (s : State) : State :=
  s.setEngine e i { s.engine e i with replaySets := sets }

/-- The first of the sets begins, or normal service resumes. -/
def State.beginSet (e i : Nat) (s : State) : State :=
  match (s.engine e i).replaySets with
  | [] => s
  | t :: _ => s.runJobs e i (t.filter s.jobLives)

/-- The sets of a replay, its jobs' work withdrawn. -/
def State.prepareReplay (e i : Nat) (jobs : List Nat) (s : State) : State :=
  (s.parkJobs e i jobs).setSets' e i (cutSets (s.fld fHG_CFG_REPLAY_SET 0 0) jobs.length jobs)

/-- An engine has missed its window: HANG, its reset, and the replay of its suspects (R324). -/
def State.engineMiss (e i : Nat) (s : State) : State :=
  let jobs := s.suspects e i
  let u := engineUnit e i
  let s := (s.log { mkErr 0x0400 u.kind u.num i jobs.length (s.progress e i) 0 with engine := e }).bump .HG_MISSES e 0 1
  (s.prepareReplay e i jobs).beginSet e i

/-- The engine's domain is resetting, so that a miss is discarded (R336). -/
def State.engineReset (s : State) (e i : Nat) : Bool :=
  let d := engineDomain e i
  match d.1 with
  | 1 => s.bandReset d.2
  | 2 => s.cuffReset d.2
  | 3 => s.dieReset d.2
  | _ => s.inReset d.1 d.2 || s.ras.resets.any (·.domain == 5)

/-- One engine at a sample. -/
def State.sampleOne (e i : Nat) (s : State) : State :=
  let x := s.engine e i
  let p := s.progress e i
  let work := s.holdsWork e i
  let s' := s.setEngine e i { x with sampled := p, heldWork := work }
  if work && x.heldWork && x.sampled == p && x.replaySets == [] && !s.engineReset e i then s'.engineMiss e i else s'

/-- WATCHDOG_SAMPLE (R323): every engine of a class, WINDOW_US after its last sample. -/
def execWatchdogSample (e : Nat) (s : State) : Out :=
  if 10 ≤ e ∨ !s.isOn fHG_WIN_EN e 0 then .next s
  else
    let s := s.reach (s.ras.sampleAt.getD 0 e + us * s.fld fHG_WIN_WINDOW_US e 0)
    let s := { s with ras := { s.ras with sampleAt := s.ras.sampleAt.put e s.now } }
    .next (forEach (List.range (engineCount e)) (State.sampleOne e) s)

/-- A set has been run to its end: its jobs are marked, and the next begins. -/
def State.endSet (e i : Nat) (t : List Nat) (rest : List (List Nat)) (s : State) : State :=
  ((forEach (t.filter s.jobLives) State.markReplayed s).setSets' e i rest).beginSet e i

/-- A set has missed: its one job is torn down, or its halves run in turn, the earlier first. -/
def State.splitSet (e i : Nat) (live : List Nat) (rest : List (List Nat)) (s : State) : State :=
  let s := s.bump .HG_MISSES e 0 1
  let s := s.parkJobs e i live
  match live with
  | [q] =>
    let u := engineUnit e i
    let c := s.jobCtx q
    let id := ((s.ownerOf q).map fun p => dCommandId p.2.bytes).getD 0
    let r := { mkErr 0x0401 u.kind u.num i 0 0 0 with
      engine := e, ctx := c, commandId := id, tenant := s.ctxTenant c, status := stTornDown }
    let n := s.fld fEL_SEQ_NEXT 0 0
    let s := ((s.log r).bump .HG_TORN 0 0 1).tearJobFor c q n
    (s.setSets' e i rest).beginSet e i
  | _ =>
    let h := (live.length + 1) / 2
    (s.setSets' e i (live.take h :: live.drop h :: rest)).beginSet e i

end Sys2Proof.Machine
end

