-- ==== Sys2Proof/Machine/Resets.lean ====
section
/-! DEFINITION. Resets of domains, their escalation, device resets, and what begins or ends them (R18, R322, R326 to R332,
R336, R382, R389, R397, R401). -/

namespace Sys2Proof.Machine

/-! ### Registers of the domains (R11) -/

def bandRegs : List RegName :=
  [.BD_CTL, .BD_SNAP, .BD_TASKS, .BD_REMOTE_TASKS, .BD_BLOCKS, .BD_SKIP_SUMMARY, .BD_SKIP_WORD, .BD_SKIP_ERROR,
   .BD_BYTES_READ, .BD_SEG_SKIP, .BD_PLANES_SKIP, .BD_SLOTS_DONE, .BD_SLOTS_ABANDONED, .BD_CAND_EMIT, .BD_TILE_CYC,
   .BD_LANE_CYC, .BD_EMIT_STALL_CYC, .BD_REDUCE, .BD_CHECKPOINTS, .SE_REDUCE_ELEMS, .SE_REDUCE_QWAIT_CYC,
   .SE_DUP_DROPPED, .SE_REFILL_PASSES, .BD_FLT_QBM_BYTES, .BD_FLT_ALLOWED, .BD_RR_REBUILT, .BD_THR_CYC, .BD_GATED_NS]

/-- Format tables and the matrices are copies, loaded again by the reset (R322). -/
def crownRegs : List RegName :=
  [.BD_PR_CFG, .SE_MG_STATUS, .SE_SNAP, .GE_HH_CFG, .GE_STATUS, .GE_SNAP, .BD_PR_PASSES, .BD_PR_QUERIES, .BD_PR_CYC,
   .SE_DUP_DROPPED_DIE, .SE_REFILL_PASSES_DIE, .SE_NAN, .SE_MG_ROWS, .SE_MG_FLUSHES, .SE_MG_PIECES,
   .SE_MG_REPEAT_PASSES, .SE_MG_KEY_PASSES, .SE_MG_APPROX, .SE_MG_SHORT, .SE_MG_FILTER_WAIT_CYC, .SE_MG_BUSY_CYC,
   .BD_WD_QUERIES, .BD_WD_STEPS, .BD_WD_PAIRS, .BD_WD_CEIL_STOP, .BD_WD_DEADLINE_STOP, .PJ_ENC_QUERY, .PJ_ENC_INSERT,
   .PJ_MAT_LOADS, .PJ_SIGN_NAN, .PJ_CLAMP_LEVEL, .PJ_CLAMP_TSCALE, .PJ_CLAMP_QUERY, .PJ_CLAMP_USCALE, .PJ_SR_DRAWS,
   .PJ_BUSY_CYC, .GE_SR_DRAWS, .GE_SR_SAT, .GE_SR_NAN, .GE_DOT_ROWS, .GE_DOT_PINNED, .GE_REQ_SERVED, .GE_REQ_REFUSED,
   .GE_REQ_UNREACHABLE, .GE_MARKERS, .GE_ABSENT, .GE_UPD_ENTRIES, .GE_UPD_STEPS, .GE_HH_PROMOTIONS, .GE_HH_ADDS,
   .GE_LOCK_WAIT, .GE_LOCK_WAIT_NS, .GE_HP_LOADS, .GE_HP_WRITEBACKS, .GE_HP_DIRTY_MAX, .GE_PAR_WRITES, .GE_PAR_ONLY,
   .GE_PAR_RECOMPUTE, .GE_PAR_UNPROTECTED, .GE_DEG_READS, .GE_DEG_FAIL, .GE_DEG_REPAIRED, .GE_REBUILD_SECTORS,
   .GE_REBUILD_LOST, .GE_STRIPE_WAIT_NS, .GE_PF_BYTES_UP, .GE_PF_BYTES_DOWN, .GE_PF_WAIT_NS, .BD_GQ_CFG,
   .BD_GQ_POSTED, .BD_GQ_LAUNCH_FILL, .BD_GQ_LAUNCH_DEADLINE, .BD_GQ_LAUNCH_WINDOW, .BD_GQ_LAUNCH_PRESSURE,
   .BD_GQ_PAIRS_LAUNCHED, .BD_GQ_WAIT_NS, .BD_GQ_LATE, .BD_GQ_NOCTX_NS, .BD_GQ_POOL_HOLD, .BD_GQ_RESUMED,
   .BD_GQ_POOL_MAX]

def fabricRegs : List RegName :=
  [.XT_CFG, .XT_REL_CFG, .XT_TC_MAP, .XT_SNAP, .XT_TX_PKTS, .XT_RX_PKTS, .XT_RX_BAD, .XT_RESEND_PKTS, .XT_NAK_SEQ,
   .XT_NAK_MSG, .XT_HOLD_FILLED, .XT_REORDER_FULL, .XT_RTO, .XT_BUSY, .XT_MP_TABLE_FULL, .XT_MP_DUP,
   .XT_REFUSED_REVOKED, .XT_REFUSED_ACCESS, .XT_CONN_ERRORS, .XT_PFC_RX_NS, .PL_UNMAPPED, .XT_PORT_MAC,
   .XT_PORT_IP_LO, .XT_PORT_IP_HI, .XT_PORT_VLAN]

def policerRegs : List RegName :=
  [.PL_POL_CTL, .PL_POL_CIR, .PL_POL_PIR, .PL_POL_BURST, .PL_GREEN, .PL_YELLOW, .PL_RED, .PL_RED_BYTES]

def eccRegs : List RegName := [.EL_ECC_CORR, .EL_ECC_UNCORR, .EL_ECC_PPR_PENDING]

def State.resetBandRegs (g : Nat) (s : State) : State := (s.resetRegs bandRegs fun i _ => i == g).noteBand g

/-- Registers of a crown die, its bands and its stacks; the repairs pending on them are applied (R220, R337). -/
def State.resetCrownRegs (d : Nat) (s : State) : State :=
  let s := (s.resetRegs crownRegs fun i _ => i == d).resetRegs eccRegs fun i _ => i / 4 == d
  let s := s.resetRegs bandRegs fun i _ => i / 10 == d
  let mine := fun (e : Nat × Nat) => e.1 / 4 != d
  let s := { s with ras := { s.ras with eccSeen := s.ras.eccSeen.filter mine, pprList := s.ras.pprList.filter mine } }
  let top := s.power.tempMax.set d (s.power.temps.getD d 0)
  let s := s.resetLanes d
  forEach ((List.range 10).map (10 * d + ·)) State.noteBand { s with power := { s.power with tempMax := top } }

/-- Registers of a fabric die, its policer and its shaper; connections and regions are kept. -/
def State.resetFabricRegs (d : Nat) (s : State) : State :=
  let s := (s.resetRegs fabricRegs fun i _ => i == d).resetRegs policerRegs fun i _ => i == 1 + d
  let s := (s.resetRegs [.PL_PD_TENANT] fun i _ => i == d).resetShaper d
  let p := s.pol.policers.filter fun (e : Nat × Meter) => (Nat.unpair e.1).1 != 1 + d
  let k := s.pol.stricts.filter fun (e : Nat × Meter) => (Nat.unpair e.1).2 != 1 + d
  { s with pol := { s.pol with policers := p, stricts := k } }

/-! ### Device resets (R329, R330, R397, R401) -/

/-- A number of a cause, which the spec does not list: a free value. -/
def State.freeCause (s : State) : Nat := (Config.free s.freeCount).toNat % 2 ^ 32

/-- Steps 5 and 6: what survives is selected, every domain is reset; the start follows when the service processor runs. -/
def State.resetDomains (s : State) : State :=
  let keepErr := s.isOn fDM_SURVIVE_KEEP_ERRORS 0 0
  let keepDram := s.isOn fDM_SURVIVE_KEEP_DRAM 0 0
  let opts := (s.reg .DM_SURVIVE 0 0).toNat
  let s := s.draw.log (mkErr 0x0500 0 0 s.freeCause opts 0 0)
  let s := { s with start := { s.start with copy := if keepDram then s.copyRegs copiedRegs else [] } }
  let t := s.resetAll keepErr keepDram
  { t with ras := { t.ras with resets := [{ domain := 5, num := 0, since := s.now, phase := 2 }] } }

/-- Every cuff die that flushes has raised its flush-done. -/
def State.flushesDone (s : State) : Bool :=
  (List.range 32).all fun n => !(s.chan n).flushing || s.isOn fCF_TL_STATUS_FLUSH_DONE n 0

/-- Steps 3 and 4: DEVICE_RESET completions, contexts closed, gauntlets. With PWR_LOSS_N low too, step 6 waits for the
flushes (R401). -/
def State.endContexts (s : State) : State :=
  let s := forEach (List.range 256) (fun c t =>
    if t.ctxState c = 1 then
      (((t.setFld fHQ_CTX_STATUS_STATE c 0 2).setFld fHQ_CTX_CTL_OPEN c 0 0).tearAll c stDeviceReset).settleClosing c
    else t) s
  if s.pins.pwrLossN ∨ s.flushesDone then s.resetDomains
  else { s with ras := { s.ras with resets := [{ domain := 5, num := 0, since := s.now, phase := 1 }] } }

/-- A device reset is requested: joined to one in progress, a failed start before SERVING, nothing in mitten mode (R329,
R336, R351, R352). -/
def State.deviceReset (byCommand : Bool) (s : State) : State :=
  if s.ras.resets.any (·.domain == 5) ∨ s.mode = 2 then s
  else if s.mode = 0 then (if s.start.running then s.failStart 0x0B 0 else s)
  else
    let s := { s with ras := { s.ras with resets := [{ domain := 5, num := 0, since := s.now, byCommand := byCommand }] } }
    if s.isOn fDM_CTL_ON_RESET 0 0 then
      let t := s.startDump (some (5, 0))
      if t.dumpState = 1 ∧ t.ras.dumpEng.forDomain = some (5, 0) then t else t.endContexts
    else s.endContexts

/-! ### Smaller domains (R327, R328) -/

/-- The unit of a domain, as SRC_KIND and SRC_NUM name it. -/
def domainUnit (domain num : Nat) : UnitId :=
  match domain with
  | 0 => ⟨2, num / 18⟩
  | 1 => ⟨2, num⟩
  | 2 => ⟨3, num⟩
  | 3 => ⟨1, num⟩
  | 4 => ⟨5, num⟩
  | _ => ⟨0, 0⟩

/-- A unit lies in a domain. -/
def inDomain (domain num : Nat) (u : UnitId) : Bool :=
  match domain with
  | 1 => u.kind == 2 && u.num == num
  | 2 => u.kind == 3 && u.num == num
  | 3 => (u.kind == 1 && u.num == num) || (u.kind == 2 && dieOf u.num == num)
  | 4 => u.kind == 7 && laneDie u.num == num
  | 5 => true
  | _ => false

/-- The reset of a domain is covered by one in progress. -/
def State.covered (s : State) (domain num : Nat) : Bool :=
  s.inReset domain num || s.ras.resets.any (·.domain == 5) || (domain == 1 && s.inReset 3 (dieOf num))

/-- Queries with state on a crown die: their home, pairs, lanes, rows. -/
def State.queriesOn (s : State) (d : Nat) : List Nat :=
  let lanes := lanesOf (s.qry.tasks.filter fun t => dieOf t.band == d || t.die == d)
  let pairs := (s.qry.gqueues.filter (·.die == d)).flatMap fun g => g.pairs.map (·.q)
  let parts := (s.qry.partials.getD [] d).map (·.q)
  (s.qry.queries.filter fun e => e.2.home == d || lanes.contains e.1 || pairs.contains e.1 || parts.contains e.1
    || (e.2.dieRows.get? d).isSome || (e.2.dieLists.get? d).isSome || e.2.flushing.contains d).map (·.1)

/-- Other commands with state on a crown die: row accesses, and new slots in its lists but for those of a shard
copy, which are no command's. -/
def State.jobsOn (s : State) (d : Nat) : List (Nat × Nat) :=
  (s.tbl.tblJobs.filter fun j => (s.tbl.rowQ.getD [] d).any (·.cmd == j.seq)).map (fun j => (j.ctx, j.seq))
    ++ (s.idx.updates.filter fun j => j.opcode != 0x15 && j.slots.any fun n => ((s.version n.ver).list n.cluster).die == d).map fun j =>
      (j.ctx, j.seq)

/-- The reset of a crown die begins: searches start again with REPLAYED, other commands are torn down, its tasks end and the
replays of its engines with them. Shadows are dropped. -/
def State.beginCrown (d : Nat) (s : State) : State :=
  let s := forEach (s.jobsOn d) (fun j t => t.tearJob j.1 j.2) s
  let again := fun (q : Nat) (t : State) =>
    if (t.query q).any (·.isShadow) then t.tearQuery q stTornDown else ((t.withdraw q).markReplayed q).rejoin q
  let s := forEach (s.queriesOn d) again s
  let dead := s.qry.tasks.filter fun t => dieOf t.band == d || (t.die == d && !t.lanes.any (·.active))
  let s := forEach dead (fun t u => (u.dropTask t.id).dropHold (keyVer t.key) t.key.cluster) s
  let mine := fun (x : Nat × Engine) =>
    let k := Nat.unpair x.1
    let n := engineDomain k.1 k.2
    n == (3, d) || (n.1 == 1 && dieOf n.2 == d)
  { s with ras := { s.ras with engines := s.ras.engines.filter fun x => !mine x } }

/-- A reset begins: the domain's work stops. -/
def State.beginReset (domain num : Nat) (byCommand : Bool) (s : State) : State :=
  let r : Reset := { domain := domain, num := num, since := s.now, byCommand := byCommand }
  let s := (State.abortTests (inDomain domain num) { s with ras := { s.ras with resets := s.ras.resets ++ [r] } })
  match domain with
  | 1 => s.prepareReplay 0 num (s.suspects 0 num)
  | 2 => s.downAll num
  | 3 => s.beginCrown num
  | 4 => forEach ((List.range 8192).filter fun c => s.connDie c == num && s.ready c) (fun c t => t.loseConn c 4) s
  | _ => s

/-- A reset of a domain is requested; a crown die's waits for its dump (R327, R331). -/
def State.requestReset (domain num : Nat) (byCommand : Bool) (s : State) : State :=
  if domain = 5 then s.deviceReset byCommand
  else if s.covered domain num then s
  else if domain = 3 ∧ s.isOn fDM_CTL_ON_DIE 0 0 then
    let t := s.startDump (some (3, num))
    if t.dumpState = 1 ∧ t.ras.dumpEng.forDomain = some (3, num) then t else t.beginReset 3 num byCommand
  else s.beginReset domain num byCommand

/-- A dump taken for a domain's reset has ended: the reset begins. -/
def State.afterDump (s : State) : State :=
  if s.dumpState = 1 then s
  else match s.ras.dumpEng.forDomain with
    | none => s
    | some (dom, num) =>
      let s := { s with ras := { s.ras with dumpEng := { s.ras.dumpEng with forDomain := none } } }
      if dom = 5 then s.endContexts else if s.covered dom num then s else s.beginReset dom num false

/-- The block idles: one nanosecond passes, and the dump engine makes its next read. -/
def State.idle (s : State) : State :=
  let s := { s with now := s.now + 1 }
  if s.dumpState = 1 then s.dumpRead.afterDump else s

def dropReset (domain num : Nat) (s : State) : State :=
  { s with ras := { s.ras with resets := s.ras.resets.filter fun r => !(r.domain == domain && r.num == num) } }

/-- A reset of a domain has failed, and escalates (R328). A cuff die's channel leaves service. -/
def State.escalate (domain num : Nat) (s : State) : State :=
  let s := (dropReset domain num s).bump .HG_ESCALATIONS domain 0 1
  let u := domainUnit domain num
  let note := fun (next : Nat) (t : State) => t.log (mkErr 0x0403 u.kind u.num domain next 0 0)
  match domain with
  | 0 => (note 1 s).requestReset 1 (num / 18) false
  | 1 => ((note 3 s).leaveService ⟨2, num⟩ 3).requestReset 3 (dieOf num) false
  | 2 =>
    let s := if s.chState num = 0 ∨ (3 ≤ s.chState num ∧ s.chState num ≤ 6) then s.cuffFault num else (note 6 s).cuffFault num
    s.setChan num { s.chan num with isolated := true }
  | 3 | 4 => (note 5 s).deviceReset false
  | _ => s.deviceReset false

/-- A tile has been reset by hardware: the third time within a second it has failed, and a liner takes its number, or the
band leaves service (R327). -/
def State.tileReset (num : Nat) (s : State) : State :=
  let g := num / 18
  let t := s.ras.tiles.getD {} g
  let recent := (t.resets.filter fun e => decide (s.now < e.2 + sec)) ++ [(num % 18, s.now)]
  let put := fun (x : Tiles) (u : State) => ({ u with ras := { u.ras with tiles := u.ras.tiles.put g x } } : State)
  if (recent.filter fun e => e.1 == num % 18).length < 3 then put { t with resets := recent } s
  else
    let t : Tiles := { t with resets := recent.filter (fun e => e.1 != num % 18), failed := t.failed ||| 2 ^ (num % 18) }
    let s := s.bump .HG_TILE_FAILED 0 0 1
    if 0 < t.linersFree then
      (put { t with linersFree := t.linersFree - 1 } s).writeRepair ⟨2, g, 0, 18 - t.linersFree, num % 18⟩
    else (put t s).leaveService ⟨2, g⟩ 2

/-- What the end of a reset does, by domain. -/
def State.afterReset (domain num : Nat) (s : State) : State :=
  match domain with
  | 0 => s.tileReset num
  | 1 => (s.resetBandRegs num).beginSet 0 num
  | 2 => s.resetCuff num false
  | 3 => (s.resetCrownRegs num).retryFp16
  | 4 => s.resetFabricRegs num
  | _ => s.beginStart

/-- RESET (R327): the dictionary's command. SRC_KIND gives the domain: H is the device's; a unit without a domain of its own
is refused. -/
def execReset (u : UnitId) (s : State) : Out :=
  let dom := match u.kind with
    | 0 => if u.num = 0 then some 5 else none
    | 1 => if u.num < 5 then some 3 else none
    | 2 => if u.num < 50 then some 1 else none
    | 3 => if u.num < 32 then some 2 else none
    | 4 => if u.num = 0 then some 5 else none
    | 5 => if u.num < 2 then some 4 else none
    | _ => none
  match dom with
  | some d => .next (s.requestReset d (if d = 5 then 0 else u.num) true)
  | none => .next (s.invokeRefused 0xB010 0)

/-- RESET_COMPLETE (R327, R328). A tile's reset begins and ends within the event; a device reset ends when the service
processor begins the start, which RESET_N and SYSCLK may hold (R382, R397). -/
def execResetComplete (domain num : Nat) (s : State) : Out :=
  let done := fun (s : State) =>
    let u := domainUnit domain num
    let s := s.draw.log (mkErr 0x0402 u.kind u.num domain s.freeCause 0 0)
    s.bump .HG_RESETS domain 0 1
  if domain = 0 then
    if 900 ≤ num then .next s else .next ((done s).afterReset 0 num)
  else match s.ras.resets.find? fun r => r.domain == domain && r.num == num with
    | none => .next s
    | some r =>
      if domain = 5 ∧ !(r.phase = 2 ∧ s.mayStart) then .next s
      else
        let s := (done (dropReset domain num s)).afterReset domain num
        .next (if r.byCommand then s.invokeOk 0xB010 0 [] else s)

/-- Time within which a reset must finish. -/
def resetWindow (domain : Nat) : Nat := [2 * us, 100 * us, 20 * ms, 10 * ms, 20 * ms, 2 * sec].getD domain 0

/-- RESET_WINDOW_EXPIRY (R328). -/
def execResetWindowExpiry (domain num : Nat) (s : State) : Out :=
  if domain = 0 then .next (if num < 900 then s.escalate 0 num else s)
  else if 5 ≤ domain then .next s
  else match s.ras.resets.find? fun r => r.domain == domain && r.num == num with
    | some r => .next ((s.reach (r.since + resetWindow domain)).escalate domain num)
    | none => .next s

/-- SP_START_TIMEOUT (R329): every domain is held in reset until power is removed. -/
def execSpStartTimeout (s : State) : Out :=
  match s.ras.resets.find? fun r => r.domain == 5 && r.phase == 2 with
  | some r =>
    if s.mayStart then
      let s := s.reach (r.since + 2 * sec)
      .next { s with pins := { s.pins with faultN := false }, ras := { s.ras with resets := [{ r with phase := 3 }] } }
    else .next s
  | none => .next s

/-- RESET_FLUSH_WAIT_EXPIRY (R401). -/
def execResetFlushWaitExpiry (s : State) : Out :=
  match s.ras.resets.find? fun r => r.domain == 5 && r.phase == 1 with
  | some r => .next (s.reach (r.since + 8 * ms)).resetDomains
  | none => .next s

/-! ### Replay (R325, R326) -/

/-- REPLAY (R325, R326): `missed` says how the first set of the engine's replay ended. A miss when its one job has been torn
down already is a failed reset of the engine. -/
def execReplay (e inst : Nat) (missed : Bool) (s : State) : Out :=
  match (s.engine e inst).replaySets with
  | [] => .next s
  | t :: rest =>
    let live := t.filter s.jobLives
    if s.engineReset e inst then .next s
    else if missed then
      if live = [] then
        let d := engineDomain e inst
        .next ((s.setSets' e inst rest).requestReset d.1 d.2 false)
      else .next (s.splitSet e inst live rest)
    else if s.setRun e inst t then .next (s.endSet e inst t rest)
    else .next s

/-- COMMIT_DRAIN_LATE (R308, R323): a departing band that still holds work 2 ms after the commit has missed its walker's
window. -/
def execCommitDrainLate (band : Nat) (s : State) : Out :=
  if (s.ten.departing.get? band).isSome && s.onBand band != [] then
    let s := (s.reach (s.ten.commitAt + 2 * ms)).bump .TN_CMP_LATE 0 0 1
    if s.replaying 0 band || s.engineReset 0 band then .next s else .next (s.engineMiss 0 band)
  else .next s

/-- SRAM_UNCORRECTABLE (R322, R332). -/
def execSramUncorrectable (u : UnitId) (array word : Nat) (job : Option Nat) (s : State) : Out :=
  let s := s.dumpUncorr u
  match job.filter s.jobLives with
  | some q =>
    let c := s.jobCtx q
    let id := ((s.ownerOf q).map fun p => dCommandId p.2.bytes).getD 0
    let r := { mkErr 0x0104 u.kind u.num array word 0 0 with
      ctx := c, commandId := id, tenant := s.ctxTenant c, status := stTornDown }
    let n := s.fld fEL_SEQ_NEXT 0 0
    .next ((s.log r).tearJobFor c q n)
  | none =>
    let s := s.log { mkErr 0x0104 u.kind u.num array word 0 0 with cls := 5 }
    let d := match u.kind with
      | 1 => (3, u.num)
      | 2 => (1, u.num)
      | 3 => (2, u.num)
      | 5 => (4, u.num)
      | 6 => (3, u.num / 4)
      | 7 => (4, laneDie u.num)
      | _ => (5, 0)
    .next (s.requestReset d.1 d.2 false)

/-! ### Dumps (R331, R332) -/

/-- DUMP (R331). -/
def execDump (s : State) : Out := .next (s.startDump none)

/-- CLEAR (R332). -/
def execClear (s : State) : Out := .next s.clearDump

/-- DUMP_READ_TIMEOUT (R332). -/
def execDumpReadTimeout (s : State) : Out := .next s.dumpTimeout.afterDump

/-- DUMP_LIMIT_EXPIRY (R332). -/
def execDumpLimitExpiry (s : State) : Out :=
  let d := s.ras.dumpEng
  if s.dumpState = 1 then
    let s := s.reach (d.started + ms * s.fld fDM_CTL_LIMIT_MS 0 0)
    .next (s.dumpLimit d.list.length).afterDump
  else .next s

/-! ### The error log (R320, R321) -/

/-- ERROR_WINDOW_CLOSE (R320): 1 s after the first occurrence of the key. -/
def execErrorWindowClose (kind num code : Nat) (s : State) : Out :=
  match s.ras.errWins.find? (ErrWin.hasKey · kind num code) with
  | some w => .next ((s.reach (w.opened + sec)).closeErrWin kind num code)
  | none => .next s

/-- ERROR_IRQ_HOLDOFF (R321): the message that the hold-off kept back. -/
def execErrorIrqHoldoff (s : State) : Out :=
  if s.ras.irqPending then
    let s := s.reach ((s.ras.irqLast.getD 0) + 10 * us)
    .next (State.errIrq 15 { s with ras := { s.ras with irqPending := false } })
  else .next s

/-! ### Pins and clocks (R200, R351, R382, R389, R396 to R401) -/

/-- PWR_LOSS_ASSERT (R201, R351, R391): the cuff dies flush; an open start's entry closes POWER_LOST. -/
def execPwrLossAssert (s : State) : Out :=
  if !s.pins.pwrLossN then .next s
  else
    let s := { s with pins := { s.pins with pwrLossN := false } }
    let s := State.abortTests (fun u => u.kind == 3) s
    let s := forEach ((List.range 32).filter s.tlUp) State.startFlush s
    .next (if s.start.running ∧ s.newestOutcome = 0 then s.closeStart 3 0 0 else s)

/-- PWR_LOSS_DEASSERT (R201): cuff dies whose flush is complete resume at once. -/
def execPwrLossDeassert (s : State) : Out :=
  let s := { s with pins := { s.pins with pwrLossN := true } }
  .next (forEach ((List.range 32).filter fun n => (s.chan n).flushing && s.isOn fCF_TL_STATUS_FLUSH_DONE n 0) State.endFlush s)

/-- A start held since power-on begins once pins and clock let it; a device reset's start is then waited for anew. -/
def State.releaseStart (s : State) : State :=
  if !s.mayStart then s
  else match s.ras.resets.find? (·.domain == 5) with
    | some r =>
      if r.phase = 4 then { s with ras := { s.ras with resets := [] } }.beginStart
      else if r.phase = 2 then { s with ras := { s.ras with resets := [{ r with since := s.now }] } }
      else s
    | none => s

/-- RESET_N_ASSERT (R397). -/
def execResetNAssert (s : State) : Out :=
  if !s.pins.resetN then .next s
  else .next (State.deviceReset false { s with pins := { s.pins with resetN := false } })

/-- RESET_N_DEASSERT (R397). -/
def execResetNDeassert (s : State) : Out :=
  .next (State.releaseStart { s with pins := { s.pins with resetN := true } })

/-- SYSCLK_LOSS (R382): missing for more than 10 µs. -/
def execSysclkLoss (s : State) : Out :=
  if !s.pins.sysclk then .next s
  else .next (State.deviceReset false { s with pins := { s.pins with sysclk := false } })

/-- SYSCLK_RESTORED (R382): present for 1 ms. -/
def execSysclkRestored (s : State) : Out :=
  .next (State.releaseStart { s with pins := { s.pins with sysclk := true } })

/-- PLL_LOSS_OF_LOCK (R382): a failed reset of the smallest domain that holds the PLL. -/
def execPllLossOfLock (u : UnitId) (s : State) : Out :=
  match u.kind with
  | 1 | 2 | 6 => .next (s.escalate 3 (if u.kind = 1 then u.num else if u.kind = 2 then dieOf u.num else u.num / 4))
  | 3 => .next (s.escalate 2 u.num)
  | 5 | 7 => .next (s.escalate 4 (if u.kind = 5 then u.num else laneDie u.num))
  | _ => .next (s.deviceReset false)

/-- THERMTRIP (R389, R401): the die's PLLs stop; a dump being taken, or not yet flushed, is lost. -/
def execThermtrip (u : UnitId) (s : State) : Out :=
  let s := { s with pins := { s.pins with thermtripN := false }, power := { s.power with tripped := s.power.tripped ++ [u] } }
  if s.dumpState = 1 then
    .next ({ s with ras := { s.ras with dumpEng := { list := s.ras.dumpEng.list } } }.setFld fDM_CTL_STATE 0 0 0)
  else .next s

end Sys2Proof.Machine
end

