-- ==== Sys2Proof/Machine/Power.lean ====
section
/-! DEFINITION. The power controller and its readings (R380, R384, R386, R387, R400), and the test access port (R392). -/

namespace Sys2Proof.Machine

/-- The package power limit in mW. -/
def State.limitMw (s : State) : Nat := 1000 * s.objNat 0xC000 1 640

/-- Rail and temperature readings are kept for the objects that report them (R380, R386, R393). -/
def Power.takeReading (r : PowerReading) (p : Power) : Power :=
  let top := (List.range 40).map fun d =>
    match p.tempMax[d]? with
    | some t => max t (r.dieTempQ.getD d 0)
    | none => r.dieTempQ.getD d 0
  { p with hist := (r.powerMw :: p.hist).take 100, railMv := (r.railMv :: p.railMv).take 100,
           railMa := (r.railMa :: p.railMa).take 100, temps := (List.range 40).map (r.dieTempQ.getD · 0), tempMax := top }

/-- The package level after one tick, with its calm count: `mean` is the sum of the last ticks, `n` their number (R384). -/
def nextG (limit p mean n g calm : Nat) : Nat × Nat :=
  if limit < p then (max (g - 2) 1, 0)
  else if 97 * limit * n < 100 * mean then (max (g - 1) 1, 0)
  else if 10 * p < 9 * limit then
    if 10 ≤ calm + 1 then (min (g + 1) 8, 0) else (g, calm + 1)
  else (g, 0)

/-- A crown die's cap after one tick, with its cooling count; temperatures in quarters of a degree (R384). -/
def nextCap (throttle t : Int) (c cool : Nat) : Nat × Nat :=
  if throttle ≤ t then (max (c - 1) 1, 0)
  else if t ≤ throttle - 12 then
    if 10 ≤ cool + 1 then (min (c + 1) 8, 0) else (c, cool + 1)
  else (c, 0)

/-- One band's level: the least of the package level, its die's cap and the operator's ceiling (R384). -/
def State.setLevel (b : Nat) (s : State) : State :=
  let c := s.power.caps.getD (dieOf b) 8
  let s := (s.setFld fBD_THR_POWER_LEVEL b 0 s.power.g).setFld fBD_THR_THERMAL_CAP b 0 c
  s.setFld fBD_THR_LEVEL b 0 (min s.power.g (min c (s.fld fBD_THR_LEVEL_MAX b 0)))

/-- The controller's work at one tick; g is held at 1 while PWR_LOSS_N is low (R384, R400). -/
def State.controlTick (powerMw : Nat) (s : State) : State :=
  let p := s.power
  let (g, calm) := if s.pins.pwrLossN then nextG s.limitMw powerMw p.hist.sum p.hist.length p.g p.calm else (1, 0)
  let caps := (List.range 5).map fun d => nextCap (4 * (s.throttleC : Int)) (s.crownTemp d) (p.caps.getD d 8) (p.cool.getD d 0)
  let down := ((List.range 5).filter fun d => decide ((caps.getD d (8, 0)).1 < p.caps.getD d 8)).length
  let p := { p with g := g, calm := calm, caps := caps.map Prod.fst, cool := caps.map Prod.snd,
                    stepsDown := p.stepsDown + (if g < p.g then 1 else 0), stepsUp := p.stepsUp + (if p.g < g then 1 else 0),
                    thermDown := p.thermDown + down }
  forEach (List.range 50) State.setLevel { s with power := p }

/-- POWER_TICK (R384): the controller, which the ROM alone does not run (R352), runs from S4 of the start sequence onward. -/
def execPowerTick (r : PowerReading) (s : State) : Out :=
  let s := { s with power := Power.takeReading r s.power }
  .next (if 4 ≤ s.startStep ∧ s.mode ≠ 2 then s.controlTick r.powerMw else s)

/-- MR4_SAMPLE (R386, R387): the controller applies the refresh rate that its stack's MR4 reports. -/
def execMr4Sample (stack code : Nat) (s : State) : Out :=
  if 20 ≤ stack then .next s else .next { s with power := { s.power with mr4 := s.power.mr4.put stack (code % 32) } }

/-! ### The test access port (R392) -/

/-- The instruction in effect: while BSCAN_EN is 0, those of the last row of R392 act as BYPASS. -/
def State.tapActs (s : State) : Nat := if 3 ≤ s.power.tap ∧ s.objNat 0xD040 0 0 = 0 then 0 else s.power.tap

/-- An instruction enters the port: 0 BYPASS, 1 IDCODE, 2 SAMPLE/PRELOAD, 3 EXTEST, 4 EXTEST_PULSE, 5 EXTEST_TRAIN, 6 CLAMP,
7 HIGHZ. What it does at the pins leaves the device. -/
def State.tapLoad (n : Nat) (s : State) : State :=
  let s := { s with power := { s.power with tap := n } }
  if s.tapActs = 0 then s else s.emit (.tdoPins s.tapActs)

def execBypass (s : State) : Out := .next (s.tapLoad 0)

/-- IDCODE: version 1, part 0x7A09, manufacturer 0x2E3. -/
def execIdcode (s : State) : Out := .next ((s.tapLoad 1).emit (.tdo 0x17A095C7))

def execSamplePreload (s : State) : Out := .next (s.tapLoad 2)
def execExtest (s : State) : Out := .next (s.tapLoad 3)
def execExtestPulse (s : State) : Out := .next (s.tapLoad 4)
def execExtestTrain (s : State) : Out := .next (s.tapLoad 5)
def execClamp (s : State) : Out := .next (s.tapLoad 6)
def execHighz (s : State) : Out := .next (s.tapLoad 7)

/-- TAP_RESET: IDCODE is the instruction of a reset port (log entry 45). -/
def execTapReset (s : State) : Out := .next { s with power := { s.power with tap := 1 } }

end Sys2Proof.Machine
end

