-- ==== Sys2Proof/Machine/Registers.lean ====
section
/-! DEFINITION. Register accesses (R7 to R10): what a write does, for every register of the maps, with the rules that
discard it, and the snapshots of the counters (R72). -/

namespace Sys2Proof.Machine

/-! ### Snapshots (R72, R92, R112, R156, R193, R215, R235, R292, R312, R394) -/

/-- Counters of a band that BD_SNAP captures. -/
def bandCounters : List RegName := bandRegs.filter fun r => r != .BD_CTL && r != .BD_SNAP && r != .BD_RR_REBUILT

/-- Counters of a crown die that BD_SNAP captures with those of its bands; the second list is kept per partition. -/
def probeCounters : List RegName :=
  [.BD_PR_PASSES, .BD_PR_QUERIES, .BD_PR_CYC, .BD_WD_QUERIES, .BD_WD_STEPS, .BD_WD_PAIRS, .BD_WD_CEIL_STOP,
   .BD_WD_DEADLINE_STOP]

def gatheringCounters : List RegName :=
  [.BD_GQ_POSTED, .BD_GQ_LAUNCH_FILL, .BD_GQ_LAUNCH_DEADLINE, .BD_GQ_LAUNCH_WINDOW, .BD_GQ_LAUNCH_PRESSURE,
   .BD_GQ_PAIRS_LAUNCHED, .BD_GQ_WAIT_NS, .BD_GQ_LATE, .BD_GQ_NOCTX_NS, .BD_GQ_POOL_HOLD, .BD_GQ_RESUMED, .BD_GQ_POOL_MAX]

/-- Merge counters (SE_SNAP). -/
def mergeCounters : List RegName :=
  [.SE_DUP_DROPPED_DIE, .SE_REFILL_PASSES_DIE, .SE_NAN, .SE_MG_ROWS, .SE_MG_FLUSHES, .SE_MG_PIECES, .SE_MG_REPEAT_PASSES,
   .SE_MG_KEY_PASSES, .SE_MG_APPROX, .SE_MG_SHORT, .SE_MG_FILTER_WAIT_CYC, .SE_MG_BUSY_CYC]

/-- Counters that GE_SNAP captures. -/
def gatherCounters : List RegName :=
  [.GE_DOT_ROWS, .GE_DOT_PINNED, .GE_REQ_SERVED, .GE_REQ_REFUSED, .GE_REQ_UNREACHABLE, .GE_MARKERS, .GE_ABSENT,
   .GE_UPD_ENTRIES, .GE_UPD_STEPS, .GE_HH_PROMOTIONS, .GE_HH_ADDS, .GE_LOCK_WAIT, .GE_LOCK_WAIT_NS, .GE_HP_LOADS,
   .GE_HP_WRITEBACKS, .GE_HP_DIRTY_MAX, .GE_PAR_WRITES, .GE_PAR_ONLY, .GE_PAR_RECOMPUTE, .GE_PAR_UNPROTECTED, .GE_DEG_READS,
   .GE_DEG_FAIL, .GE_DEG_REPAIRED, .GE_REBUILD_SECTORS, .GE_REBUILD_LOST, .GE_STRIPE_WAIT_NS, .GE_PF_BYTES_UP,
   .GE_PF_BYTES_DOWN, .GE_PF_WAIT_NS]

/-- Counters that CF_SNAP captures. -/
def cuffCounters : List RegName :=
  [.CF_REQ, .CF_READS, .CF_JOINED, .CF_LINGER_HITS, .CF_QV_LOADS, .CF_SOFT_DECODES, .CF_UNREADABLE, .CF_ABSENT, .CF_NO_QUERY,
   .CF_CHANNEL_DOWN, .CF_QUEUE_FULL_NS, .CF_REBUILD_READS, .CF_TL_HOST_BYTES, .CF_TL_NAND_BYTES, .CF_TL_FOLDS,
   .CF_TL_GC_MOVES, .CF_TL_GC_ORPHANS, .CF_TL_ERASES, .CF_TL_RETIRED, .CF_TL_WL_MOVES, .CF_TL_REFRESH, .CF_TL_MAP_MISS,
   .CF_TL_CKPT, .CF_TL_RETRY_READS, .CF_TL_WRITE_WAIT_NS, .CF_TL_HOLDUP_SHORT, .CF_TL_TIME_REFUSED]

/-- Counters that XT_SNAP captures. -/
def fabricCounters : List RegName :=
  [.XT_TX_PKTS, .XT_RX_PKTS, .XT_RX_BAD, .XT_RESEND_PKTS, .XT_NAK_SEQ, .XT_NAK_MSG, .XT_HOLD_FILLED, .XT_REORDER_FULL,
   .XT_RTO, .XT_BUSY, .XT_MP_TABLE_FULL, .XT_MP_DUP, .XT_REFUSED_REVOKED, .XT_REFUSED_ACCESS, .XT_CONN_ERRORS,
   .XT_PFC_RX_NS]

/-- Counters of a tenant that TN_ACC_SNAP captures. -/
def tenantCounters : List RegName :=
  [.TN_ACC_QUERIES, .TN_ACC_WAIT_NS, .TN_ACC_WAIT_HIST, .TN_ACC_PREEMPT, .TN_ACC_TORN, .TN_ACC_TILE_CYC, .TN_ACC_RR_RECORDS,
   .TN_ACC_DRAM_BYTES, .TN_ACC_FLASH_READS, .TN_ACC_FLASH_WRITES, .TN_ACC_REMOTE_BYTES, .TN_ACC_JOINED]

/-- Every copy of some registers whose first index is `i`. -/
def copiesAt (rs : List RegName) (i : Nat) : List (RegName × Nat × Nat) :=
  rs.flatMap fun r => (List.range (RegName.dims r).2).map fun j => (r, i, j)

/-- The copies that a snapshot register captures. -/
def State.snapped (s : State) (r : RegName) (i : Nat) : List (RegName × Nat × Nat) :=
  match r with
  | .BD_SNAP => copiesAt bandCounters i ++ copiesAt (probeCounters ++ gatheringCounters) (dieOf i)
  | .SE_SNAP => copiesAt mergeCounters i
  | .GE_SNAP => copiesAt gatherCounters i
  | .CF_SNAP => copiesAt cuffCounters i
  | .XT_SNAP => copiesAt fabricCounters i
  | .TN_ACC_SNAP => copiesAt tenantCounters (s.fld fTN_ACC_SNAP_TENANT 0 0)
  | _ => []

/-- SNAP, SNAP_DONE and VIEW stand alike in every snapshot register. -/
def fSnap (r : RegName) : Fld := ⟨r, 31, 31⟩
def fSnapDone (r : RegName) : Fld := ⟨r, 30, 30⟩
def fView (r : RegName) : Fld := ⟨r, 29, 29⟩

/-- Copy a register into its shadow copy. -/
def State.captureReg (c : RegName × Nat × Nat) (s : State) : State :=
  let k := regKey c.1 c.2.1 c.2.2
  { s with shadowRegs := s.shadowRegs.wr 0 k (s.reg c.1 c.2.1 c.2.2) }

/-- A write of a snapshot register: its other fields, then the snapshot when SNAP is written 1. -/
def State.writeSnap (r : RegName) (i : Nat) (value : W64) (s : State) : State :=
  let s := s.writeReg r i 0 value
  if Fld.get (fSnap r) value = 1 then
    let s := s.setFld (fSnapDone r) i 0 0
    (forEach (s.snapped r i) State.captureReg s).setFld (fSnapDone r) i 0 1
  else s

/-- Reads of a counter return its shadow copy; those of a die's gathering and probe counters while a band of the die has
VIEW 1 (log entry 46). -/
def State.viewed (s : State) (r : RegName) (i : Nat) : Bool :=
  if bandCounters.contains r then s.isOn (fView .BD_SNAP) i 0
  else if probeCounters.contains r || gatheringCounters.contains r then
    (List.range 10).any fun b => s.isOn (fView .BD_SNAP) (10 * i + b) 0
  else if mergeCounters.contains r then s.isOn (fView .SE_SNAP) i 0
  else if gatherCounters.contains r then s.isOn (fView .GE_SNAP) i 0
  else if cuffCounters.contains r then s.isOn (fView .CF_SNAP) i 0
  else if fabricCounters.contains r then s.isOn (fView .XT_SNAP) i 0
  else if tenantCounters.contains r then s.isOn (fView .TN_ACC_SNAP) 0 0 && s.fld fTN_ACC_SNAP_TENANT 0 0 == i
  else false

/-- What a read of a register returns. -/
def State.readReg (s : State) (r : RegName) (i j : Nat) : W64 :=
  if s.viewed r i then s.shadowRegs.getD 0 (regKey r i j) else s.reg r i j

/-! ### Rules that discard a write -/

/-- The fields of a list that a write would change. -/
def changes (fs : List Fld) (old new : W64) : Bool := fs.any fun f => Fld.get f old != Fld.get f new

/-- A value with the fields of a list put back to what they were. -/
def restore (fs : List Fld) (old new : W64) : W64 := fs.foldl (fun v f => Fld.put f v (Fld.get f old)) new

/-- Write a register while some of its fields are closed: they keep their values, and the write of them is discarded. -/
def State.writeExcept (closed : Bool) (fs : List Fld) (r : RegName) (i j : Nat) (value loc : W64) (s : State) : State :=
  let old := s.reg r i j
  let new := writeValue r old value
  if closed && changes fs old new then (s.discard loc value).setReg r i j (restore fs old new) else s.setReg r i j new

/-- Write a register, or discard the write whole. -/
def State.writeUnless (bad : Bool) (r : RegName) (i j : Nat) (value loc : W64) (s : State) : State :=
  if bad then s.discard loc value else s.writeReg r i j value

/-- A write of HQ_IDX_VER or HQ_IDX_LIM breaks R50. -/
def State.verWriteBad (s : State) (r : RegName) (n v : Nat) (value : W64) : Bool :=
  let valid := fun (w : Nat) => (s.fld fHQ_IDX_CTL_VALID n 0).testBit w
  let num := Fld.get fHQ_IDX_VER_VERSION value
  (s.fld fHQ_IDX_CTL_CURRENT n 0 == v && valid v) || s.syVal (s.fld fHQ_IDX_VER_REF_SYNC n v) != 0
    || (r == .HQ_IDX_VER && valid v && (List.range 4).any fun w => w != v && valid w && s.fld fHQ_IDX_VER_VERSION n w == num)

/-- The version slot that owns a format register or table is VALID (R115); `k` is 4n + v. -/
def State.fmtClosed (s : State) (k : Nat) : Bool := (s.fld fHQ_IDX_CTL_VALID (k / 4) 0).testBit (k % 4)

/-- A write of PJ_RR_FMT or CF_RR_FMT: discarded whole where DIMS is not one of CODE, else GROUP and GROUPS follow (R115). -/
def State.writeFmt (r : RegName) (i j : Nat) (value loc : W64) (s : State) : State :=
  let at_ := fun (hi lo : Nat) => (⟨r, hi, lo⟩ : Fld)
  let new := writeValue r (s.reg r i j) value
  let f : RrFmt := ⟨Fld.get (at_ 31 30) new, Fld.get (at_ 29 29) new == 1, Fld.get (at_ 28 16) new⟩
  if s.fmtClosed j || !f.dimsOk then s.discard loc value
  else
    let g := if f.code = 0 then 0 else f.g
    let ng := if f.code = 0 then 0 else f.ng
    s.setReg r i j (Fld.put (at_ 11 5) (Fld.put (at_ 15 12) new g) ng)

/-- A write of a per-dimension table of `n` words a version, each for `per` dimensions: words of dimensions at or above D
are RSV, and int4 keeps the low half of each zero point (R115). -/
def State.writeDims (fmt : RrFmt) (n per : Nat) (r : RegName) (i j : Nat) (value loc : W64) (s : State) : State :=
  if s.fmtClosed (j / n) then s.discard loc value
  else if fmt.d ≤ j % n * per then s
  else if per = 4 ∧ fmt.code = 2 then s.writeReg r i j (value &&& 0x0F0F0F0F)
  else s.writeReg r i j value

/-- A write of HQ_CTX_BIND breaks R239 or R305. -/
def State.bindBad (s : State) (c : Nat) (v : W64) : Bool :=
  let port := Fld.get fHQ_CTX_BIND_PORT v
  let func := Fld.get fHQ_CTX_BIND_FUNC v
  let pn := Fld.get fHQ_CTX_BIND_PN v
  let on := Fld.get fHQ_CTX_BIND_V v == 1
  let there := (List.range 256).filter fun d =>
    d != c && s.isOn fHQ_CTX_BIND_V d 0 && s.ctxPort d == port && s.fld fHQ_CTX_BIND_FUNC d 0 == func
  s.ctxState c != 0 || (on && func != 0 && decide (16 ≤ there.length))
    || (Fld.get fHQ_CTX_BIND_GROUP_EP v == 1 && Fld.get fHQ_CTX_BIND_FABRIC v == 1)
    || (on && pn != 0x3F && !(s.isOn fTN_PART_V pn 0 && s.fld fTN_PART_TENANT pn 0 == Fld.get fHQ_CTX_BIND_TENANT v))

/-- A write of HQ_CTX_BIND: a context group's active port follows the ports of its contexts (log entry 47). -/
def State.writeBind (c : Nat) (value loc : W64) (s : State) : State :=
  let new := writeValue .HQ_CTX_BIND (s.reg .HQ_CTX_BIND c 0) value
  if s.bindBad c new then s.discard loc value
  else
    let s := s.setReg .HQ_CTX_BIND c 0 new
    if s.isOn fHQ_CTX_BIND_V c 0 && !s.isFabric c then
      s.setFld fHQ_CG_CTL_ACTIVE_PORT (s.fld fHQ_CTX_BIND_CG c 0) 0 (s.ctxPort c)
    else s

/-- A field of a written value put back where its new value is reserved beside the others (R10). -/
def putBack (f : Fld) (bad : Bool) (old new : W64) : W64 := if bad then Fld.put f new (Fld.get f old) else new

/-- A write of PJ_MAT: D_IN is the DIMS of the format when its CODE is not 0, any other value is reserved (R126, R10). -/
def State.writeMat (i j : Nat) (value loc : W64) (s : State) : State :=
  if s.fmtClosed j then s.discard loc value
  else
    let old := s.reg .PJ_MAT i j
    let new := writeValue .PJ_MAT old value
    let f := s.pjFmt i j
    s.setReg .PJ_MAT i j (putBack fPJ_MAT_D_IN (f.code != 0 && Fld.get fPJ_MAT_D_IN new != f.d) old new)

/-- What a write makes of GE_TBL_GEOM: a W past W_max of the type is reserved (R137, R10). -/
def State.geomValue (s : State) (t : Nat) (value : W64) : W64 :=
  let old := s.reg .GE_TBL_GEOM t 0
  let new := writeValue .GE_TBL_GEOM old value
  putBack fGE_TBL_GEOM_W
    (decide (wMax (Fld.get fGE_TBL_GEOM_TYPE new) (Fld.get fGE_TBL_GEOM_MOM_FP32 new == 1) < Fld.get fGE_TBL_GEOM_W new)) old new

/-- A write of GE_TBL_GEOM breaks R135. -/
def State.geomBad (s : State) (t : Nat) (v : W64) : Bool :=
  decide (Fld.get fGE_TBL_GEOM_COLS v < Fld.get fGE_TBL_GEOM_COL_LO v + Fld.get fGE_TBL_GEOM_W v)
    || s.fld fGE_TBL_CTL_VALID t 0 != 0

/-- A lower copy lies in grant `g` (R230). -/
def State.grantUsed (s : State) (g : Nat) : Bool :=
  s.allLists.any fun e => e.2.2.lowTier == 2 && e.2.2.lowGrant == g && e.2.2.blocks.any fun b => b.low.isSome

/-- A connection of fabric die `d` is READY. -/
def State.dieReady (s : State) (d : Nat) : Bool := s.net.conns.any fun e => s.connDie e.1 == d && s.ready e.1

/-! ### Commands in registers -/

/-- The state a meaning answers. -/
def Out.after (o : Out) (s : State) : State :=
  match o with
  | .next t => t
  | _ => s

/-- A service register of R338: the command in CMD. -/
def State.writeSvc (u : UnitId) (value loc : W64) (s : State) : State :=
  match bits value.toNat 25 24 with
  | 1 => Out.after (s.removeBy u loc value) s
  | 2 => Out.after (s.returnUnitBy u loc value) s
  | 3 => Out.after (s.abortReturnBy u loc value) s
  | _ => s

/-- CF_SVC (R190, R191). -/
def State.writeChSvc (n : Nat) (value loc : W64) (s : State) : State :=
  match bits value.toNat 25 24 with
  | 1 => Out.after (s.detachBy n loc value) s
  | 2 => Out.after (s.attachBy n loc value) s
  | 3 => Out.after (s.abortAttachBy n loc value) s
  | _ => s

/-- XT_CONN_CFG (R270): the configuration while STATE is RESET, then the command. -/
def State.writeConn (c : Nat) (value loc : W64) (s : State) : State :=
  let fs := [fXT_CONN_CFG_PD, fXT_CONN_CFG_MP, fXT_CONN_CFG_PATHS_M1, fXT_CONN_CFG_CC_MODE, fXT_CONN_CFG_TC,
    fXT_CONN_CFG_X_DIE, fXT_CONN_CFG_PORT, fXT_CONN_CFG_PEER_CONN, fXT_CONN_CFG_ADDR_IDX, fXT_CONN_CFG_INC]
  let s := s.writeExcept (s.fld fXT_CONN_CFG_STATE c 0 != 0) fs .XT_CONN_CFG c 0 value loc
  match Fld.get fXT_CONN_CFG_CMD value with
  | 1 => Out.after (s.connectBy c loc value) s
  | 2 => Out.after (execConnectionReset c s) s
  | _ => s

/-- XT_RGN_CTL (R281, R284). -/
def State.writeRgn (r : Nat) (value loc : W64) (s : State) : State :=
  let fs := [fXT_RGN_CTL_PD, fXT_RGN_CTL_RD, fXT_RGN_CTL_WR, fXT_RGN_CTL_KEY_REQ, fXT_RGN_CTL_REVOKE_SYNC,
    fXT_RGN_CTL_SIZE_4K]
  let s := s.writeExcept (s.fld fXT_RGN_CTL_STATE r 0 != 0) fs .XT_RGN_CTL r 0 value loc
  match Fld.get fXT_RGN_CTL_CMD value with
  | 1 => Out.after (s.validateBy r loc value) s
  | 2 => Out.after (s.revokeBy r loc value) s
  | _ => s

/-- XT_TWR_CTL (R289). -/
def State.writeTwr (slot : Nat) (value loc : W64) (s : State) : State :=
  match Fld.get fXT_TWR_CTL_CMD value with
  | 1 => Out.after (s.armBy slot loc value) s
  | 2 => Out.after (s.disarmBy slot loc value) s
  | _ => s

/-- DM_CTL (R332): its fields, then CLEAR, then DUMP. -/
def State.writeDump (value : W64) (s : State) : State :=
  let s := s.writeReg .DM_CTL 0 0 value
  let s := if Fld.get fDM_CTL_CLEAR value = 1 then s.clearDump else s
  if Fld.get fDM_CTL_DUMP value = 1 then s.startDump none else s

/-- HQ_CG_CTL: through a BAR as TAKE has it; the dictionary may write HANDOVER_EN only (R257). -/
def State.writeCg (g : Nat) (value loc : W64) (s : State) : State :=
  if locBar loc then
    if locFunc loc = 0 then Out.after (execTake g (locPort loc) value loc s) s else s.discard loc value
  else s.setFld fHQ_CG_CTL_HANDOVER_EN g 0 (Fld.get fHQ_CG_CTL_HANDOVER_EN value)

/-- HQ_MB_CTL (R376) but for an accepted GO, which the mailbox takes. -/
def State.writeMailbox (p : Nat) (value loc : W64) (s : State) : State :=
  let busy := s.isOn fHQ_MB_CTL_BUSY p 0 || s.isOn fHQ_MB_CTL_DONE p 0
  let s := if Fld.get fHQ_MB_CTL_GO value = 1 ∧ busy then s.discard loc value else s
  s.writeReg .HQ_MB_CTL p 0 (Fld.put fHQ_MB_CTL_GO value 0)

/-! ### Any register -/

/-- A write of a register of its own width: what the owning chapter gives it, or its fields by their access codes. -/
def State.writeAny (r : RegName) (i j : Nat) (value loc : W64) (s : State) : State :=
  match r with
  | .HQ_IDX_CTL => Out.after (execIndexVersionSwitch i value loc s) s
  | .HQ_IDX_VER => s.writeUnless (s.verWriteBad .HQ_IDX_VER i j value) .HQ_IDX_VER i j value loc
  | .HQ_IDX_LIM => s.writeUnless (s.verWriteBad .HQ_IDX_LIM i j value) .HQ_IDX_LIM i j value loc
  | .PJ_RR_FMT => s.writeFmt .PJ_RR_FMT i j value loc
  | .CF_RR_FMT => s.writeFmt .CF_RR_FMT i j value loc
  | .PJ_MAT => s.writeMat i j value loc
  | .PJ_DSCALE => s.writeDims (s.pjFmt i (j / 2048)) 2048 2 .PJ_DSCALE i j value loc
  | .PJ_ZP => s.writeDims (s.pjFmt i (j / 1024)) 1024 4 .PJ_ZP i j value loc
  | .CF_ZP => s.writeDims (s.cfFmt i (j / 1024)) 1024 4 .CF_ZP i j value loc
  | .GE_TBL_CTL => Out.after (execTableVersionSwitch i value loc s) s
  | .GE_TBL_GEOM =>
    let v := s.geomValue i value
    if s.geomBad i v then s.discard loc value else s.setReg .GE_TBL_GEOM i 0 v
  | .GE_TBL_VER => s.writeUnless ((s.fld fGE_TBL_CTL_VALID i 0).testBit j) .GE_TBL_VER i j value loc
  | .GE_TBL_ROWS => s.writeUnless ((s.fld fGE_TBL_CTL_VALID i 0).testBit j) .GE_TBL_ROWS i j value loc
  | .GE_HP_CTL => s.writeExcept (s.isOn fGE_HP_CTL_ENABLE 0 0) [fGE_HP_CTL_CAP_SLOTS] .GE_HP_CTL 0 0 value loc
  | .TN_QUOTA_LIMIT => Out.after (execQuotaLimitWrite i j value loc s) s
  | .TN_RG => if s.grantUsed i then s.discard loc value else (s.writeReg .TN_RG i 0 value).setFld fTN_RG_STATE i 0 0
  | .HQ_CTX_BIND => s.writeBind i value loc
  | .HQ_CTX_CTL =>
    if Fld.get fHQ_CTX_CTL_OPEN value = 1 then Out.after (execContextOpen i value loc s) s
    else Out.after (execContextClose i value loc s) s
  | .HQ_GRP_SHARD => s.writeShard i value
  | .HQ_SQ_BASE => s.writeUnless (s.ctxState i == 1 || s.ctxState i == 2) .HQ_SQ_BASE i 0 value loc
  | .HQ_CQ_BASE => s.writeUnless (s.ctxState i == 1 || s.ctxState i == 2) .HQ_CQ_BASE i 0 value loc
  | .HQ_SQ_DB => Out.after (execSqDoorbell i (value.toNat % 65536) (locPort loc) (locFunc loc) loc s) s
  | .HQ_CQ_DB => Out.after (execCqDoorbell i (value.toNat % 65536) (locPort loc) (locFunc loc) loc s) s
  | .HQ_CG_CTL => s.writeCg i value loc
  | .HQ_MB_CTL => s.writeMailbox i value loc
  | .XT_CONN_CFG => s.writeConn i value loc
  | .XT_CONN_CC => s.writeExcept (s.fld fXT_CONN_CFG_STATE i 0 != 0) [fXT_CONN_CC_WINDOW] .XT_CONN_CC i 0 value loc
  | .XT_RGN_BASE => s.writeUnless (s.fld fXT_RGN_CTL_STATE i 0 != 0) .XT_RGN_BASE i 0 value loc
  | .XT_RGN_CTL => s.writeRgn i value loc
  | .XT_TWR_CTL => s.writeTwr i value loc
  | .XT_TWR_WIN => s.writeUnless (s.fld fXT_TWR_CTL_STATE i 0 != 0) .XT_TWR_WIN i j value loc
  | .XT_CFG => s.writeExcept (s.dieReady i) [fXT_CFG_UDP_PORT, fXT_CFG_MTU, fXT_CFG_BREAKOUT] .XT_CFG i 0 value loc
  | .SY_VAL => Out.after (execSyValWrite i value s) s
  | .SY_ADD => Out.after (execSyAdd i value s) s
  | .PL_POL_CTL => Out.after (execPolicerCommit i j value loc s) s
  | .PL_STRICT_CTL => Out.after (execStrictCommit i value loc s) s
  | .PL_SHP_CTL => Out.after (execShaperCommit i j value loc s) s
  | .TN_CMP_CTL => if bits value.toNat 31 31 = 1 then Out.after (execCommit value loc s) s else s.writeReg .TN_CMP_CTL 0 0 value
  | .DM_CTL => s.writeDump value
  | .BD_SVC => s.writeSvc ⟨2, i⟩ value loc
  | .XT_LANE_SVC => s.writeSvc ⟨7, i⟩ value loc
  | .HG_CORE_SVC => s.writeSvc ⟨8, i⟩ value loc
  | .CF_SVC => s.writeChSvc i value loc
  | .BD_SNAP | .SE_SNAP | .GE_SNAP | .CF_SNAP | .XT_SNAP | .TN_ACC_SNAP => s.writeSnap r i value
  | _ => s.writeReg r i j value

/-- The register copy exists. -/
def copyExists (r : RegName) (i j : Nat) : Bool := decide (i < (RegName.dims r).1) && decide (j < (RegName.dims r).2)

/-- The registers of a port's mailbox (R375). -/
def isMailbox (r : RegName) : Bool := r == .HQ_MB_CTL || r == .HQ_MB_REQ || r == .HQ_MB_RSP

/-- An access through a BAR is served: until SERVING only HQ_START_STATUS and the mailbox are (R348, R352), and each port
has its own mailbox (R375). A doorbell of another function's context is discarded by its own rule (R242, R257). -/
def State.barServes (s : State) (r : RegName) (i : Nat) (loc : W64) : Bool :=
  !locBar loc ||
    ((s.mode == 1 || r == .HQ_START_STATUS || isMailbox r) && (!isMailbox r || i == locPort loc)
      && (r == .HQ_SQ_DB || r == .HQ_CQ_DB || s.reaches r i loc))

/-- An access of the register's width, naturally aligned; the mailbox buffers take 64-bit ones as well (R7, R375). -/
def widthOk (r : RegName) (width : Nat) (aligned : Bool) : Bool :=
  aligned && (width == RegName.width r || (width == 64 && (r == .HQ_MB_REQ || r == .HQ_MB_RSP)))

/-- ACCESS_WIDTH (R7). -/
def State.badWidth (width : Nat) (loc : W64) (s : State) : State := s.log (mkErr 0x0001 4 0 loc.toNat width 0 0)

/-- SNAP (R72). -/
def execSnap (reg : RegName) (i : Nat) (value : W64) (s : State) : Out := .next (s.writeSnap reg i value)

/-- Any field of the register clears when it is read (R8). -/
def readClears (r : RegName) : Bool := (RegName.fields r).any fun f => f.acc == .RC

/-- READ_CLEAR (R8, R9): a read of a register; an RC field is cleared, but for what hardware adds in the same cycle. While
reads return the shadow copy, that is the field that clears (log entry 46). -/
def execReadClear (reg : RegName) (i j inc : Nat) (s : State) : Out :=
  let v := s.readReg reg i j
  let t := { s with readData := v }
  if !readClears reg then .next t
  else if s.viewed reg i then
    .next ({ t with shadowRegs := t.shadowRegs.wr 0 (regKey reg i j) 0 }.bump reg i j inc)
  else .next (t.setReg reg i j (BitVec.ofNat 64 inc))

/-- ACCESS_WIDTH_READ (R7): zero, and an error record; a read that R7 allows returns the register. -/
def execAccessWidthRead (reg : RegName) (i j width : Nat) (aligned : Bool) (loc : W64) (s : State) : Out :=
  if !s.barServes reg i loc then .next { s with readData := 0 }
  else if widthOk reg width aligned then .next { s with readData := s.readReg reg i j }
  else .next ({ s with readData := 0 }.badWidth width loc)

end Sys2Proof.Machine
end

