-- ==== Sys2Proof/Machine/Values.lean ====
section
/-! DEFINITION. What the objects of the Nirrex dictionary read as, and what a write of one does (R17, R213, R321, R331, R351,
R352, R359, R364, R377, R393). -/

namespace Sys2Proof.Machine

/-! ### Reading -/

/-- A history entry (R351). -/
def HistEntry.bytes (e : HistEntry) : List Byte :=
  leBytes 4 e.startNo ++ leBytes 1 e.outcome ++ leBytes 1 e.step ++ leBytes 1 e.reason ++ leBytes 1 e.sets ++ leBytes 1 e.fails
    ++ leBytes 3 0 ++ leBytes 4 e.detail ++ leBytes 4 e.durationMs ++ leBytes 4 e.secVersion ++ leBytes 8 0

/-- An error record (R317). -/
def ErrRec.bytes (e : ErrRec) : List Byte :=
  leBytes 4 e.seq ++ leBytes 1 e.cls ++ leBytes 1 e.srcKind ++ leBytes 1 e.srcNum ++ leBytes 1 e.engine ++ leBytes 2 e.code
    ++ leBytes 2 e.count ++ leBytes 2 e.ctx ++ leBytes 2 e.commandId ++ leBytes 8 e.time ++ leBytes 1 e.tenant
    ++ leBytes 1 e.status ++ leBytes 6 0 ++ leBytes 8 e.d0 ++ leBytes 8 e.d1 ++ leBytes 8 e.d2 ++ leBytes 8 e.d3

/-- A byte of the EL_RING window; a slot that holds no record reads zero (R321). -/
def State.ringByte (s : State) (p : Nat) : Byte :=
  match s.ras.errLog.find? fun e => e.seq % 8192 == p / 64 with
  | some e => (ErrRec.bytes e).getD (p % 64) 0
  | none => 0

/-- The directory (R364): one entry of 32 bytes for each index. -/
def directoryEntry (index : Nat) : List Byte :=
  match objects.find? fun r => r.hasIndex index && r.sub0 == 0 with
  | some r =>
    leBytes 2 index ++ leBytes 1 (highestSub index) ++ leBytes 1 r.ty.code ++ leBytes 1 r.acc.code ++ leBytes 1 r.persist
      ++ leBytes 2 0 ++ fitTo 24 (r.name.toList.map fun c => BitVec.ofNat 8 c.toNat)
  | none => []

def directory : List Byte := objIndices.flatMap directoryEntry

/-- Units with a service register, in the order of their kinds. -/
def servedUnits : List UnitId :=
  (List.range 50).map (UnitId.mk 2) ++ (List.range 32).map (UnitId.mk 3) ++ (List.range 18).map (UnitId.mk 7)
    ++ (List.range 4).map (UnitId.mk 8)

/-- STATE and CAUSE of a unit's service register. -/
def State.unitState (s : State) (u : UnitId) : Nat := if u.kind = 3 then s.chState u.num else s.svc u
def State.unitCause (s : State) (u : UnitId) : Nat :=
  if u.kind = 3 then s.fld fCF_SVC_CAUSE u.num 0 else s.fld (fCause u.kind) u.num 0

/-- A unit neither IN_SERVICE nor SPARE. -/
def State.unitOut (s : State) (u : UnitId) : Bool := s.unitState u != 0 && !(u.kind != 3 && s.unitState u == 6)

/-- The entry of a unit out of service: SRC_KIND, SRC_NUM, CAUSE, zero. -/
def outEntry (cause : Nat) (u : UnitId) : List Byte := leBytes 1 u.kind ++ leBytes 1 u.num ++ leBytes 1 cause ++ leBytes 1 0

/-- OUT_LIST (R17): units with a service register as it says; crown dies, stacks and whatever else the last start left out
with CAUSE 4, self-test failure. -/
def State.outList (s : State) : List Byte :=
  ((s.start.bad.filter fun u => u.kind == 1).flatMap (outEntry 4))
    ++ (servedUnits.filter s.unitOut).flatMap (fun u => outEntry (s.unitCause u) u)
    ++ (s.start.bad.filter fun u => u.kind == 4 || u.kind == 5 || u.kind == 6).flatMap (outEntry 4)

/-- ADVERTISED (R17): bands, active tiles, channels, stacks and crown dies in service. -/
def State.advertised (s : State) (sub : Nat) : Nat :=
  let bands := ((List.range 50).filter fun g => s.svc ⟨2, g⟩ == 0).length
  match sub with
  | 0 => bands
  | 1 => 16 * bands
  | 2 => ((List.range 32).filter fun n => s.chIn n).length
  | 3 => ((List.range 20).filter s.stackUp).length
  | _ => s.diesUp.length

/-- Mean of a list of readings. -/
def meanOf (xs : List Nat) : Nat := xs.sum / max 1 xs.length

/-- Rail readings over the last ticks (R393). -/
def State.railValue (s : State) (index sub : Nat) : Nat :=
  let mv := s.power.railMv.map (·.getD sub 0)
  let ma := s.power.railMa.map (·.getD sub 0)
  match index with
  | 0xC001 => meanOf mv
  | 0xC002 => meanOf ma
  | _ => meanOf (List.zipWith (fun v a => v * a / 1000) mv ma)

/-- Health objects of a channel (R213). WEAR_PCT has no value where RATED_PE is zero: a free value. -/
def State.healthValue (s : State) (n sub : Nat) : List Byte :=
  let c := s.chan n
  let h := c.health
  let live := (c.sbs.filter fun (e : Nat × SBlock) => e.2.st != 4).map fun (e : Nat × SBlock) => e.2.erases
  let free := (Config.free s.freeCount).toNat % 65536
  match sub with
  | 0 => leBytes 1 (s.sparePct n)
  | 1 => leBytes 4 (live.foldl (· + ·) 0 / max 1 (h.goodUnits / max 1 c.pages))
  | 2 => leBytes 4 c.wearMax
  | 3 => leBytes 4 h.ratedPe
  | 4 => leBytes 2 (if h.ratedPe = 0 then free else 100 * c.wearMax / h.ratedPe)
  | 5 => leBytes 8 h.corrBits
  | 6 => leBytes 8 h.readRetries
  | 7 => leBytes 8 h.softDecodes
  | 8 => leBytes 8 h.uncorr
  | 9 => leBytes 4 h.progFail
  | 10 => leBytes 4 h.eraseFail
  | 11 => leBytes 4 h.retired
  | 12 => i32Bytes h.tempMax
  | 13 => leBytes 4 h.held
  | _ => leBytes 4 (h.tempSecs.getD 0 (sub - 16) / 3600)

/-- WEAR_PCT of a channel as a number. -/
def State.wearPct (s : State) (n : Nat) : Nat := leNat (s.healthValue n 4)

/-- Health objects over all channels. -/
def State.healthSummary (s : State) (sub : Nat) : List Byte :=
  let ns := List.range 32
  let least := ns.foldl (fun b n => if s.sparePct n < s.sparePct b then n else b) 0
  match sub with
  | 0 => leBytes 1 (s.sparePct least)
  | 1 => leBytes 2 (ns.foldl (fun m n => max m (s.wearPct n)) 0)
  | 2 => leBytes 1 least
  | _ => leBytes 8 (ns.foldl (fun m n => m + (s.chan n).health.uncorr) 0)

/-- RR_FORMAT of a version: the format word, then its DSCALE and ZP words (R115). -/
def State.formatValue (s : State) (k : Nat) : List Byte :=
  let d := s.fld fPJ_RR_FMT_DIMS 0 k
  leBytes 4 (s.reg .PJ_RR_FMT 0 k).toNat
    ++ ((List.range (d / 2)).flatMap fun i => leBytes 4 (s.reg .PJ_DSCALE 0 (2048 * k + i)).toNat)
    ++ ((List.range (d / 4)).flatMap fun i => leBytes 4 (s.reg .PJ_ZP 0 (1024 * k + i)).toNat)

/-- Requests counted per path: 0 taken, 1 answered with a failure, 2 DETAIL AUTH, 3 discarded. -/
def State.dictCount (s : State) (which path : Nat) : Nat := s.dict.counters.getD 0 (4 * which + path)

/-- Power and thermal objects (R393). -/
def State.powerValue (s : State) (index sub : Nat) : List Byte :=
  let p := s.power
  match index with
  | 0xC000 => if sub = 0 then leBytes 4 (meanOf p.hist) else leBytes 1 p.g
  | 0xC001 => leBytes 2 (s.railValue index sub)
  | 0xC011 => i32Bytes (p.temps.getD sub 0 / 4)
  | 0xC012 => i32Bytes (p.tempMax.getD sub 0 / 4)
  | 0xC013 => leBytes 1 (p.mr4.getD 0 sub)
  | 0xC014 => leBytes 1 (p.caps.getD sub 8)
  | 0xC030 => leBytes 8 ([p.stepsDown, p.stepsUp, p.thermDown, p.critEvents].getD sub 0)
  | _ => leBytes 4 (s.railValue index sub)

/-- An object whose value is computed. -/
def State.calcValue (s : State) (r : ObjRow) (index sub : Nat) : List Byte :=
  if 0x6200 ≤ index ∧ index < 0x6220 then s.healthValue (index - 0x6200) sub
  else if 0xC000 ≤ index ∧ index < 0xD000 then s.powerValue index sub
  else match index with
    | 0x1000 =>
      if !s.boot.identity.valid then []
      else if sub = 0 then fitTo 57 (Config.ed448Public (Config.deviceKey 0))
      else Config.identity (sub - 1)
    | 0x2001 => leBytes 1 s.preferred
    | 0x2010 => (s.boot.history[sub]?.map HistEntry.bytes).getD []
    | 0x2020 => directory
    | 0x2022 =>
      if sub = 0 then leBytes 4 ((if s.dict.pending.isSome then 1 else 0) + (if s.dict.saveFailed then 2 else 0))
      else leBytes 8 s.dict.lastSave
    | 0x3020 => s.formatValue sub
    | 0x5020 => leBytes 8 (s.reg .EL_ECC_CORR sub 0).toNat ++ leBytes 8 (s.reg .EL_ECC_UNCORR sub 0).toNat
        ++ leBytes 8 (s.reg .EL_ECC_PPR_PENDING sub 0).toNat
    | 0x6012 => if sub = 0 then leBytes 8 s.deviceTime else leBytes 1 (s.fld fCF_TL_STATUS_TIME_CERTAIN 0 0)
    | 0x6240 => s.healthSummary sub
    | 0xA000 => leBytes 2 (s.advertised sub)
    | 0xA010 => s.outList
    | 0xB013 => if 2 ≤ s.dumpState then s.ras.dumpEng.recs.flatMap DumpRec.bytes else []
    | 0xB020 => s.ras.dumpEng.list.flatMap DumpEntry.bytes
    | 0xD000 => leBytes 1 (if (leNat ((s.dict.objs.get? (objKey 0xD000 0)).getD [])) = 0 then 0 else 1)
    | 0xD030 => leBytes 8 (s.dictCount 0 sub)
    | 0xD031 => leBytes 8 (s.dictCount 1 sub)
    | 0xD032 => leBytes 8 (s.dictCount 2 sub)
    | 0xD033 => leBytes 8 (s.dictCount 3 sub)
    | 0xE001 => s.power.lastTest
    | _ => s.objVal r index sub

/-- What an object reads as. -/
def State.objRead (s : State) (r : ObjRow) (index sub : Nat) : List Byte :=
  match r.src with
  | .val => s.objVal r index sub
  | .calc => s.calcValue r index sub
  | .cmd => []
  | .field f _ => r.ty.bytes (s.fld f 0 0)
  | src =>
    match src.copies (r.element index sub) with
    | c :: _ => r.ty.bytes (s.readReg c.1 c.2.1 c.2.2).toNat
    | [] => []

/-- Length of an object's value; the error ring is not built whole to be measured. -/
def State.objLength (s : State) (r : ObjRow) (index sub : Nat) : Nat :=
  if index = 0xB001 then 524288 else (s.objRead r index sub).length

/-- A segment of an object's value. -/
def State.objSlice (s : State) (r : ObjRow) (index sub offset n : Nat) : List Byte :=
  if index = 0xB001 then (List.range (min n (524288 - offset))).map fun i => s.ringByte (offset + i)
  else ((s.objRead r index sub).drop offset).take n

/-! ### Writing -/

/-- RR_FORMAT is written to every crown copy, C0 to C4, then to every cuff copy, F0 to F31 (R115). -/
def State.writeFormat (k : Nat) (b : List Byte) (loc : W64) (s : State) : State :=
  let d := fmtDims b
  let word := fun (r : RegName) (i j v : Nat) (t : State) => t.writeAny r i j (BitVec.ofNat 64 v) loc
  let crown := fun (c : Nat) (t : State) =>
    let t := word .PJ_RR_FMT c k (fieldAt b 0 4) t
    let t := forEach (List.range (d / 2)) (fun i u => word .PJ_DSCALE c (2048 * k + i) (dscaleWord b i) u) t
    forEach (List.range (d / 4)) (fun i u => word .PJ_ZP c (1024 * k + i) (zpWord b i) u) t
  let cuff := fun (n : Nat) (t : State) =>
    let t := word .CF_RR_FMT n k (fieldAt b 0 4) t
    forEach (List.range (d / 4)) (fun i u => word .CF_ZP n (1024 * k + i) (zpWord b i) u) t
  forEach (List.range 32) cuff (forEach (List.range 5) crown s)

/-- An rw object whose value is computed. -/
def State.writeCalc (index sub : Nat) (b : List Byte) (s : State) : State :=
  if 0x6200 ≤ index ∧ index < 0x6220 then
    let n := index - 0x6200
    let c := s.chan n
    s.setChan n { c with health := { c.health with ratedPe := leNat b } }
  else match index with
    | 0x2001 => Out.after (execPreferredSet (leNat b) s) s
    | 0x3020 => s.writeFormat sub b (dictLoc index sub)
    | 0xB020 => { s with ras := { s.ras with dumpEng := { s.ras.dumpEng with list := dumpEntries b } } }
    | _ => s.setObj index sub b

/-- A value takes its place: every copy of a register in order, or the object's own value (R359). -/
def State.objWrite (r : ObjRow) (index sub : Nat) (b : List Byte) (s : State) : State :=
  match r.src with
  | .val => s.setObj index sub b
  | .calc => s.writeCalc index sub b
  | .cmd => s
  | .field f n => forEach (List.range n) (fun d t => t.setFld f d 0 (leNat b)) s
  | src => forEach (src.copies (r.element index sub))
      (fun c t => t.writeAny c.1 c.2.1 c.2.2 (BitVec.ofNat 64 (leNat b)) (dictLoc index sub)) s

/-- Own rules of objects that refuse a write: WRITE_PATHS must leave a mailbox bit, BSCAN_EN needs mitten mode (R366, R392). -/
def State.ownRefusal (s : State) (index sub : Nat) (b : List Byte) : Bool :=
  (index == 0xD001 && sub == 0 && leNat b % 4 == 0) || (index == 0xD040 && leNat b == 1 && s.mode != 2)

/-! ### Persistence (R370) -/

/-- The entry of a written value in the configuration record; none for the default, which is not kept. -/
def ObjRow.storedValue (r : ObjRow) (index sub : Nat) (b : List Byte) : Option (List Byte) :=
  match r.src.mirror with
  | some reg =>
    let i := ((r.src.copies (r.element index sub)).head?.map fun c => c.2.1).getD 0
    let v := rwPart reg (BitVec.ofNat 64 (leNat b))
    if v = rwPart reg (regReset reg i) then none else some (r.ty.bytes v.toNat)
  | none => if b = r.default index sub then none else some b

/-- An entry is put in its place, in increasing (index, subindex). -/
def putStored (e : Nat × Nat × List Byte) : List (Nat × Nat × List Byte) → List (Nat × Nat × List Byte)
  | [] => [e]
  | x :: xs =>
    if objKey e.1 e.2.1 < objKey x.1 x.2.1 then e :: x :: xs
    else if objKey e.1 e.2.1 = objKey x.1 x.2.1 then e :: xs
    else x :: putStored e xs

/-- The entries of a record after a write of an object. -/
def storeOne (l : List (Nat × Nat × List Byte)) (e : Nat × Nat × List Byte) : List (Nat × Nat × List Byte) :=
  let rest := l.filter fun x => !(x.1 == e.1 && x.2.1 == e.2.1)
  match (objRow e.1 e.2.1).map fun r => r.storedValue e.1 e.2.1 e.2.2 with
  | some (some v) => putStored (e.1, e.2.1, v) rest
  | _ => rest

/-- The entries that the next record holds. -/
def State.nextStored (s : State) : List (Nat × Nat × List Byte) := s.dict.unsaved.foldl storeOne s.boot.stored

/-- Bytes of a record: header, entries, signature. -/
def configSize (l : List (Nat × Nat × List Byte)) : Nat :=
  l.foldl (fun n e => n + 8 + (e.2.2.length + 7) / 8 * 8) (64 + 114)

/-- The configuration record is written to the copy not in use, and reads back. -/
def State.saveConfig (s : State) : State :=
  let s := { s with boot := { s.boot with stored := s.nextStored } }.writeConfig
  { s with dict := { s.dict with unsaved := [], pending := none, saveFailed := false, lastSave := s.now } }

/-- A persistent write marks the record pending. -/
def State.markPending (index sub : Nat) (b : List Byte) (s : State) : State :=
  let first := (s.dict.pending.map Prod.fst).getD s.now
  { s with dict := { s.dict with unsaved := s.dict.unsaved ++ [(index, sub, b)], pending := some (first, s.now) } }

/-- SAVE (R370). -/
def execSave (s : State) : Out := .next (s.saveConfig.invokeOk 0x2021 0 [])

/-- CONFIG_SAVE_TIMER (R370): 1 s after the last or 10 s after the first unsaved persistent write. -/
def execConfigSaveTimer (s : State) : Out :=
  match s.dict.pending with
  | none => .next s
  | some (first, last) => .next (s.reach (min (last + sec) (first + 10 * sec))).saveConfig

end Sys2Proof.Machine
end

