-- ==== Sys2Proof/Machine/Nirrex.lean ====
section
/-! DEFINITION. The dictionary server (R360 to R370), the mailbox (R375, R376), the MCTP control messages (R374), the
management port (R372, R373), and REGISTER_WRITE, whose write of GO reaches the server. -/

namespace Sys2Proof.Machine

/-! ### Messages (R360) -/

/-- DETAIL numbers of R361. -/
def dtAuth : Nat := 1
def dtPath : Nat := 2
def dtBadOp : Nat := 3
def dtMode : Nat := 4
def dtNoObject : Nat := 5
def dtNoSub : Nat := 6
def dtAccess : Nat := 7
def dtLength : Nat := 8
def dtSegment : Nat := 9
def dtRange : Nat := 10
def dtBusy : Nat := 11
def dtPersistFull : Nat := 12

/-- STATUS that goes with a failure. -/
def dtStatus (d : Nat) : Nat := if d = dtAuth ∨ d = dtPath then 0x20 else 0x10

/-- The 16 bytes of a header. -/
def nxHeader (op flags tag index sub status offset length detail : Nat) : List Byte :=
  leBytes 1 op ++ leBytes 1 flags ++ leBytes 2 tag ++ leBytes 2 index ++ leBytes 1 sub ++ leBytes 1 status ++ leBytes 4 offset
    ++ leBytes 2 length ++ leBytes 1 detail ++ leBytes 1 0

/-- Trailer bytes before the MAC. -/
def nxTrailer (requester seq : Nat) : List Byte := leBytes 1 requester ++ leBytes 7 0 ++ leBytes 8 seq

def NxMsg.flags (m : NxMsg) : Nat := (if m.last then 1 else 0) + (if m.auth then 2 else 0)

/-- A request as its header has it. -/
def NxMsg.header (m : NxMsg) : List Byte := nxHeader m.op (NxMsg.flags m) m.tag m.index m.sub 0 m.offset m.data.length 0

/-- A request as bytes. -/
def NxMsg.bytes (m : NxMsg) : List Byte :=
  NxMsg.header m ++ m.data ++ if m.auth then nxTrailer m.requester m.seq ++ fitTo 32 m.mac else []

/-- The request that a mailbox buffer holds. -/
def parseNx (port : Nat) (b : List Byte) : NxMsg :=
  let fl := fieldAt b 1 1
  let n := fieldAt b 12 2
  let t := b.drop (16 + n)
  let auth := fl.testBit 1
  { path := port, op := fieldAt b 0 1, last := fl.testBit 0, auth := auth, tag := fieldAt b 2 2, index := fieldAt b 4 2,
    sub := fieldAt b 6 1, offset := fieldAt b 8 4, data := (b.drop 16).take n,
    rsvSet := fl / 4 != 0 || fieldAt b 7 1 != 0 || fieldAt b 14 2 != 0 || (auth && fieldAt t 1 7 != 0),
    requester := if auth then fieldAt t 0 1 else 0, seq := if auth then fieldAt t 8 8 else 0,
    mac := if auth then (t.drop 16).take 32 else [] }

/-! ### Authentication (R367 to R369) -/

/-- MGMT_KEY, when it is set. -/
def State.mgmtKey (s : State) : Option (List Byte) :=
  (s.dict.objs.get? (objKey 0xD000 0)).filter fun k => k.length == 32 && leNat k != 0

/-- The MAC of a message, over START_NO, path, header, data and trailer. -/
def State.nxMac (s : State) (key : List Byte) (path : Nat) (header data : List Byte) (requester seq : Nat) : List Byte :=
  Config.kmac256 key (leBytes 4 s.boot.startNo ++ leBytes 1 path ++ header ++ data ++ nxTrailer requester seq)
    ("NIRREX".toList.map fun c => BitVec.ofNat 8 c.toNat) 32

/-- The request changes something: WRITE or INVOKE. -/
def NxMsg.writes (m : NxMsg) : Bool := m.op == 2 || m.op == 4

/-- A request on a path must carry AUTH. -/
def State.needsAuth (s : State) (m : NxMsg) : Bool :=
  (if NxMsg.writes m then s.objNat 0xD001 1 8 else s.objNat 0xD001 2 0).testBit m.path

/-- The last SEQ accepted of (path, REQUESTER). -/
def seqKey (m : NxMsg) : Nat := 256 * m.path + m.requester

/-- An AUTH request is accepted. -/
def State.authOk (s : State) (m : NxMsg) : Bool :=
  match s.mgmtKey with
  | some k => m.mac == s.nxMac k m.path (NxMsg.header m) m.data m.requester m.seq
      && (s.dict.seqs.get? (seqKey m)).all fun q => decide (q < m.seq)
  | none => false

/-! ### Answers -/

def State.count (which path : Nat) (s : State) : State :=
  { s with dict := { s.dict with counters := s.dict.counters.upd 0 (4 * which + path) (· + 1) } }

/-- The bytes from word 0 of a mailbox buffer on. -/
def State.putWords (r : RegName) (port : Nat) (b : List Byte) (s : State) : State :=
  forEach (List.range ((b.length + 3) / 4)) (fun i t => t.setReg r port i (BitVec.ofNat 64 (fieldAt b (4 * i) 4))) s

/-- Where a response goes: to the port of an MCTP request, to the source of a datagram. -/
def nxDest (m : NxMsg) : Nat × Nat := if m.path = 2 then (m.port, 0) else (m.srcIp, m.srcPort)

/-- A message as its path carries it: on MCTP, message type 0x7E, the PCI vendor ID and one byte 0x01 come before it (R374). -/
def nxBody (path : Nat) (b : List Byte) : List Byte :=
  if path = 2 then leBytes 1 0x7E ++ leBytes 2 Config.pciVendorId.toNat ++ leBytes 1 1 ++ b else b

/-- A response leaves on its path: into HQ_MB_RSP, whole before DONE is set, or as a message (R360, R376). -/
def State.respond (m : NxMsg) (auth : Bool) (op status detail : Nat) (last pending : Bool) (data : List Byte) (s : State) : State :=
  let flags := (if last then 1 else 0) + (if auth then 2 else 0) + (if pending then 4 else 0)
  let h := nxHeader op flags m.tag m.index m.sub status m.offset data.length detail
  let key := (s.mgmtKey).getD []
  let b := h ++ data
    ++ if auth then nxTrailer m.requester m.seq ++ fitTo 32 (s.nxMac key m.path h data m.requester m.seq) else []
  if 2 ≤ m.path then s.emit (.nirrex m.path (nxDest m) (nxBody m.path b))
  else
    let s := (s.putWords .HQ_MB_RSP m.path b).setFld fHQ_MB_CTL_BUSY m.path 0 0
    let s := (s.setFld fHQ_MB_CTL_GO m.path 0 0).setFld fHQ_MB_CTL_DONE m.path 0 1
    if s.isOn fHQ_MB_CTL_IRQ_EN m.path 0 then s.emit (.msix m.path 0 (s.fld fHQ_MB_CTL_VECTOR m.path 0)) else s

/-- A failure is answered, and counted (R361, R377). -/
def State.refuseNx (m : NxMsg) (auth : Bool) (detail : Nat) (s : State) : State :=
  let s := s.count 1 m.path
  let s := if detail = dtAuth then s.count 2 m.path else s
  let op := if detail = dtBadOp ∧ (m.op = 0 ∨ 5 < m.op) then 0xFF else m.op + 0x80
  s.respond m auth op (dtStatus detail) detail true false []

/-- A request that succeeds is answered. -/
def State.acceptNx (m : NxMsg) (auth last pending : Bool) (data : List Byte) (s : State) : State :=
  s.respond m auth (m.op + 0x80) 0 0 last pending data

/-! ### The checks common to every request (R355, R358, R361, R366) -/

/-- A range is served in every mode. -/
def alwaysServed (index : Nat) : Bool :=
  (decide (0x1000 ≤ index) && decide (index < 0x3000)) || (decide (0xD000 ≤ index) && decide (index < 0xE000))

/-- The operation is allowed by the object's access. -/
def accessOk (op : Nat) (a : OAcc) : Bool :=
  match op, a with
  | 1, .ro | 1, .rw | 1, .const => true
  | 2, .rw | 2, .wo => true
  | 3, _ => true
  | 4, .cmd | 5, .cmd => true
  | _, _ => false

/-- A write or invocation comes on a path without the right to it. -/
def State.pathBad (s : State) (m : NxMsg) : Bool :=
  NxMsg.writes m
    && (!(s.objNat 0xD001 0 15).testBit m.path
      || (m.op == 2 && decide (0xD000 ≤ m.index) && decide (m.index < 0xD100) && decide (2 ≤ m.path) && !m.auth))

/-- The first failure up to ACCESS and the length of a message; or the object's row. -/
def State.firstFail (s : State) (m : NxMsg) : Nat ⊕ ObjRow :=
  if (m.auth && !s.authOk m) || (!m.auth && s.needsAuth m) then .inl dtAuth
  else if s.pathBad m then .inl dtPath
  else if m.op = 0 ∨ 5 < m.op ∨ m.rsvSet then .inl dtBadOp
  else if s.mode ≠ 1 ∧ !alwaysServed m.index then .inl dtMode
  else if !objIndex m.index then .inl dtNoObject
  else match objRow m.index m.sub with
    | none => .inl dtNoSub
    | some r =>
      if !accessOk m.op r.acc then .inl dtAccess else if 1024 < m.data.length then .inl dtLength else .inr r

/-! ### Segments (R362) -/

def Xfer.isFor (x : Xfer) (m : NxMsg) : Bool := x.index == m.index && x.sub == m.sub

/-- The bytes that a segment continues; none when its offset is not in sequence. -/
def State.before (s : State) (m : NxMsg) : Option (List Byte) :=
  if m.offset = 0 then some []
  else (s.dict.xfers.find? fun x => Xfer.isFor x m && x.path == m.path && x.data.length == m.offset).map (·.data)

def State.dropXfer (m : NxMsg) (s : State) : State :=
  { s with dict := { s.dict with xfers := s.dict.xfers.filter fun x => !Xfer.isFor x m } }

/-- Keep a segment that is not the last. -/
def State.keepXfer (m : NxMsg) (b : List Byte) (s : State) : State :=
  let s := s.dropXfer m
  let x : Xfer := { path := m.path, index := m.index, sub := m.sub, data := b, atTime := s.now }
  { s with dict := { s.dict with xfers := s.dict.xfers ++ [x] } }

/-- SEGMENT_TIMEOUT (R362): 10 s after the last segment. -/
def execSegmentTimeout (path index sub : Nat) (s : State) : Out :=
  let mine := fun (x : Xfer) => x.path == path && x.index == index && x.sub == sub
  match s.dict.xfers.find? mine with
  | none => .next s
  | some x =>
    let s := s.reach (x.atTime + 10 * sec)
    .next { s with dict := { s.dict with xfers := s.dict.xfers.filter fun y => !mine y } }

/-! ### READ, WRITE, DESCRIBE (R357, R359, R362, R364) -/

/-- READ: up to 1,024 bytes from OFFSET. -/
def State.serveRead (r : ObjRow) (m : NxMsg) (s : State) : State :=
  let n := s.objLength r m.index m.sub
  if n < m.offset ∨ (r.ty.size.isSome ∧ m.offset ≠ 0) then s.refuseNx m m.auth dtSegment
  else s.acceptNx m m.auth (decide (n ≤ m.offset + 1024)) false (s.objSlice r m.index m.sub m.offset 1024)

/-- A complete value meets its checks, in the order of R361, and takes its place; on a trial first, so that a rule that would
refuse the write of any copy leaves every copy as it was (R359). -/
def State.applyWrite (r : ObjRow) (m : NxMsg) (b : List Byte) (s : State) : State :=
  let t := s.objWrite r m.index m.sub b
  let t := if r.persist = 1 then t.markPending m.index m.sub b else t
  if r.lengthBad m.index m.sub b then s.refuseNx m m.auth dtLength
  else if s.rangeBad r m.index m.sub b then s.refuseNx m m.auth dtRange
  else if r.persist = 1 ∧ 524288 < configSize t.nextStored then s.refuseNx m m.auth dtPersistFull
  else if s.ownRefusal m.index m.sub b || t.ras.refused != s.ras.refused then s.refuseNx m m.auth dtRefused
  else (t.dropXfer m).acceptNx m m.auth true false []

/-- WRITE. -/
def State.serveWrite (r : ObjRow) (m : NxMsg) (s : State) : State :=
  match s.before m with
  | none => s.refuseNx m m.auth dtSegment
  | some b => if m.last then s.applyWrite r m (b ++ m.data) else (s.keepXfer m (b ++ m.data)).acceptNx m m.auth true false []

/-- The 32 bytes of DESCRIBE: no limits for STRING, BLOB, COMMAND and register mirrors. -/
def describeBytes (r : ObjRow) (index sub : Nat) : List Byte :=
  let plain := r.ty.size.isSome && r.src.mirror.isNone
  let len := r.ty.size.getD r.maxLen
  leBytes 1 r.ty.code ++ leBytes 1 r.acc.code ++ leBytes 1 r.persist ++ leBytes 1 (highestSub index) ++ leBytes 4 len
    ++ leBytes 8 (if plain then r.lo else 0) ++ leBytes 8 (if plain then r.hi else 0)
    ++ leBytes 8 (if plain then leNat (r.default index sub) else 0)

/-! ### INVOKE and POLL (R363) -/

def Running.isFor (x : Running) (m : NxMsg) : Bool := x.index == m.index && x.sub == m.sub

def State.dropRunning (m : NxMsg) (s : State) : State :=
  { s with dict := { s.dict with running := s.dict.running.filter fun x => !Running.isFor x m } }

/-- The argument of a command object has its length. An image is of any length beyond its set. -/
def argOk (index sub : Nat) (b : List Byte) : Bool :=
  match index, sub with
  | 0x1001, _ => b.length == 32
  | 0x2002, 0 => decide (1 ≤ b.length)
  | 0x2002, _ => b.length == 1
  | 0x2004, _ => b.length == 1
  | 0x6012, _ => b.length == 8
  | 0xB010, _ => b.length == 2
  | 0xE000, _ => b.length == 4
  | _, _ => b.length == 0

/-- The command of an object runs. FLASH_FORMAT and IMAGE_WRITE take what only the media show, and run as commands of their
own while the invocation is pending. -/
def State.runCommand (index sub : Nat) (b : List Byte) (s : State) : State :=
  match index with
  | 0x1001 => Out.after (execAttest b s) s
  | 0x2002 => if sub = 1 then Out.after (execImageVerify (leNat b) s) s else s
  | 0x2003 => Out.after (execSecverCommit s) s
  | 0x2004 => Out.after (execStartRetry (leNat b) s) s
  | 0x2005 => Out.after (execConfigReset s) s
  | 0x2021 => Out.after (execSave s) s
  | 0x6012 => Out.after (execFlashTimeSet (leNat b) s) s
  | 0xB010 => Out.after (execReset ⟨fieldAt b 0 1, fieldAt b 1 1⟩ s) s
  | 0xE000 =>
    if fieldAt b 3 1 = 0 then Out.after (execSelfTest ⟨fieldAt b 0 1, fieldAt b 1 1⟩ (fieldAt b 2 1) s) s
    else s.invokeRefused 0xE000 0
  | _ => s

/-- An invocation that has ended is answered from OFFSET on, and forgotten once read to LAST; one that runs is PENDING. -/
def State.answerRunning (m : NxMsg) (x : Running) (s : State) : State :=
  if x.ended.isNone then s.acceptNx m m.auth true true []
  else
    let data := (x.result.drop m.offset).take 1024
    let last := decide (x.result.length ≤ m.offset + 1024)
    let s := if last then s.dropRunning m else s
    let s := if x.status = 0 then s else s.count 1 m.path
    s.respond m m.auth (m.op + 0x80) x.status x.detail last false data

/-- INVOKE: the argument is gathered, and the command runs. START_RETRY answers before the restart that it begins. -/
def State.serveInvoke (m : NxMsg) (s : State) : State :=
  match s.before m with
  | none => s.refuseNx m m.auth dtSegment
  | some b =>
    let arg := b ++ m.data
    if !m.last then (s.keepXfer m arg).acceptNx m m.auth true false []
    else if !argOk m.index m.sub arg then s.refuseNx m m.auth dtLength
    else if s.dict.running.any fun x => Running.isFor x m && x.ended.isNone then s.refuseNx m m.auth dtBusy
    else if m.index = 0x2004 ∧ s.mode = 2 ∧ leNat arg ≤ 1 then
      ((s.dropXfer m).acceptNx m m.auth true false []).runCommand m.index m.sub arg
    else
      let x : Running := { path := m.path, index := m.index, sub := m.sub, since := s.now }
      let s := (s.dropXfer m).dropRunning m
      let s := { s with dict := { s.dict with running := s.dict.running ++ [x] } }.runCommand m.index m.sub arg
      let first := { m with offset := 0 }
      match s.dict.running.find? (Running.isFor · m) with
      | some y => s.answerRunning first y
      | none => s.acceptNx first m.auth true true []

/-- POLL, by the path that invoked; where nothing is held for it, REFUSED (log entry 48). -/
def State.servePoll (m : NxMsg) (s : State) : State :=
  match s.dict.running.find? fun x => Running.isFor x m && x.path == m.path with
  | none => s.refuseNx m m.auth dtRefused
  | some x => if x.result.length < m.offset then s.refuseNx m m.auth dtSegment else s.answerRunning m x

/-- RESULT_HOLD_EXPIRY (R363): 60 s after the command ended. -/
def execResultHoldExpiry (index sub : Nat) (s : State) : Out :=
  let mine := fun (x : Running) => x.index == index && x.sub == sub
  match s.dict.running.find? mine with
  | some x =>
    match x.ended with
    | some t =>
      let s := s.reach (t + 60 * sec)
      .next { s with dict := { s.dict with running := s.dict.running.filter fun y => !mine y } }
    | none => .next s
  | none => .next s

/-! ### The server (R365) -/

/-- The server runs: no device reset has reached brim die H, and it is not held. -/
def State.serverUp (s : State) : Bool := s.ras.resets.all fun r => r.domain != 5 || decide (r.phase < 2)

/-- MP_MAC, first byte first. -/
def State.mpMac (s : State) : List Byte :=
  (s.dict.objs.get? (objKey 0xD010 6)).getD ((Config.identity 2 ++ leBytes 6 0).take 6)

/-- A number from bytes, the first the most significant. -/
def beNat (b : List Byte) : Nat := b.foldl (fun n x => 256 * n + x.toNat) 0

/-- The link-local address that modified EUI-64 forms from a MAC address. -/
def linkLocal (mac : List Byte) : Nat :=
  0xFE80 * 2 ^ 112 + beNat ([(mac.getD 0 0) ^^^ 2] ++ (mac.drop 1).take 2 ++ [0xFF, 0xFE] ++ (mac.drop 3).take 3)

/-- The management port is on. -/
def State.mpOn (s : State) : Bool := s.objNat 0xD010 0 1 == 1

/-- MP_P and MP_N are high-impedance: while MP_ENABLE is 0 (R405). -/
def State.mpHighZ (s : State) : Bool := !s.mpOn

/-- A datagram is addressed to the port: to the link-local address, or to MP_IPV4 when that is not zero, and to MP_UDP_PORT
(R373). -/
def State.addressed (s : State) (m : NxMsg) : Bool :=
  let v4 := s.objNat 0xD010 7 0
  (m.dstIp == linkLocal s.mpMac || (v4 != 0 && m.dstIp == v4)) && m.dstPort == s.objNat 0xD010 8 0xC3A6

/-- A request arrives: through a mailbox, at an MCTP endpoint that is enabled, or as a datagram to the management port. -/
def State.arrives (s : State) (m : NxMsg) : Bool :=
  match m.path with
  | 0 | 1 => true
  | 2 => decide (m.port < 2) && (s.objNat 0xD021 0 3).testBit m.port
  | 3 => s.mpOn && s.addressed m
  | _ => false

/-- A request is taken, checked and applied whole, as soon as it arrives (log entry 57). A datagram longer or shorter than its
message is discarded and counted (R373). -/
def State.serveNx (m : NxMsg) (s : State) : State :=
  if !s.serverUp || !s.arrives m then s
  else if m.path = 3 ∧ !m.exact then s.count 3 3
  else
    let s := s.count 0 m.path
    let r := s.firstFail m
    let ok := m.auth && s.authOk m
    let s := if ok then { s with dict := { s.dict with seqs := s.dict.seqs.put (seqKey m) m.seq } } else s
    match r with
    | .inl d => s.refuseNx m ok d
    | .inr row =>
      match m.op with
      | 1 => s.serveRead row m
      | 2 => s.serveWrite row m
      | 3 => s.acceptNx m m.auth true false (describeBytes row m.index m.sub)
      | 4 => s.serveInvoke m
      | _ => s.servePoll m

/-- READ (R362). -/
def execRead (m : NxMsg) (s : State) : Out := .next (s.serveNx { m with op := 1 })

/-- WRITE (R359). -/
def execNirrexWrite (m : NxMsg) (s : State) : Out := .next (s.serveNx { m with op := 2 })

/-- DESCRIBE (R364). -/
def execDescribe (m : NxMsg) (s : State) : Out := .next (s.serveNx { m with op := 3 })

/-- INVOKE (R363). -/
def execInvoke (m : NxMsg) (s : State) : Out := .next (s.serveNx { m with op := 4 })

/-- POLL (R363). -/
def execPoll (m : NxMsg) (s : State) : Out := .next (s.serveNx { m with op := 5 })

/-! ### The mailbox (R375, R376) -/

/-- GO is taken: the message in HQ_MB_REQ is served, and answered before DONE is set. -/
def State.takeGo (port : Nat) (m : NxMsg) (s : State) : State := (s.setFld fHQ_MB_CTL_BUSY port 0 1).serveNx { m with path := port }

/-- GO (R376): the driver has written the message to HQ_MB_REQ. While BUSY or DONE is 1 it is discarded. -/
def execGo (port : Nat) (m : NxMsg) (loc : W64) (s : State) : Out :=
  if 2 ≤ port then .next s
  else if s.isOn fHQ_MB_CTL_BUSY port 0 || s.isOn fHQ_MB_CTL_DONE port 0 then .next (s.discard loc (2 ^ 31))
  else .next ((s.putWords .HQ_MB_REQ port (NxMsg.bytes m)).takeGo port m)

/-- The bytes of a mailbox's request buffer. -/
def State.mailboxBytes (s : State) (port : Nat) : List Byte :=
  (List.range 512).flatMap fun i => leBytes 4 (s.reg .HQ_MB_REQ port i).toNat

/-- A write of a register that has passed R7. -/
def State.registerWritten (r : RegName) (i j width : Nat) (value loc : W64) (s : State) : State :=
  if r = .HQ_MB_CTL ∧ Fld.get fHQ_MB_CTL_GO value = 1 ∧ !s.isOn fHQ_MB_CTL_BUSY i 0 ∧ !s.isOn fHQ_MB_CTL_DONE i 0 then
    let s := s.writeAny r i j value loc
    s.takeGo i (parseNx i (s.mailboxBytes i))
  else if r = .HQ_MB_REQ ∧ width = 64 then
    let s := s.writeReg r i j (BitVec.ofNat 64 (value.toNat % 2 ^ 32))
    if j + 1 < 512 then s.writeReg r i (j + 1) (BitVec.ofNat 64 (value.toNat / 2 ^ 32)) else s
  else s.writeAny r i j value loc

/-- REGISTER_WRITE (R7, R8): discarded with an error record where its width or alignment is wrong. -/
def execRegisterWrite (reg : RegName) (i j width : Nat) (aligned : Bool) (value loc : W64) (s : State) : Out :=
  if !copyExists reg i j || !s.barServes reg i loc then .next s
  else if widthOk reg width aligned then .next (s.registerWritten reg i j width value loc)
  else .next (s.badWidth width loc)

/-! ### MCTP control messages (R374) -/

/-- The endpoint of a port is on. -/
def State.mctpOn (s : State) (port : Nat) : Bool := decide (port < 2) && (s.objNat 0xD021 0 3).testBit port && s.serverUp

/-- An endpoint answers a control message; the numbers of the messages are DSP0236's (log entry 49). -/
def State.mctpAnswer (port kind : Nat) (data : List Byte) (s : State) : State :=
  if s.mctpOn port then s.emit (.mctp port kind data) else s

/-- SET_ENDPOINT_ID: accepted from the bus owner. -/
def execSetEndpointId (port eid : Nat) (s : State) : Out :=
  if s.mctpOn port then .next ((s.setObj 0xD020 port (leBytes 1 eid)).mctpAnswer port 1 (leBytes 1 eid)) else .next s

/-- GET_ENDPOINT_ID. -/
def execGetEndpointId (port : Nat) (s : State) : Out := .next (s.mctpAnswer port 2 (leBytes 1 (s.objNat 0xD020 port 0)))

/-- GET_MCTP_VERSION_SUPPORT. -/
def execGetMctpVersionSupport (port : Nat) (s : State) : Out := .next (s.mctpAnswer port 4 Config.mctpVersions)

/-- GET_MESSAGE_TYPE_SUPPORT: type 0x7E. -/
def execGetMessageTypeSupport (port : Nat) (s : State) : Out := .next (s.mctpAnswer port 5 [0x7E])

/-- GET_VENDOR_DEFINED_MESSAGE_SUPPORT: the PCI vendor ID. -/
def execGetVendorDefinedMessageSupport (port : Nat) (s : State) : Out :=
  .next (s.mctpAnswer port 6 (leBytes 2 Config.pciVendorId.toNat))

/-! ### The management port (R372, R373) -/

/-- ARP_REQUEST: answered for MP_IPV4, when that is not zero. -/
def execArpRequest (ipv4 senderIp senderMac : Nat) (s : State) : Out :=
  let own := s.objNat 0xD010 7 0
  if s.mpOn && s.serverUp && own != 0 && ipv4 == own then .next (s.emit (.arpReply own s.mpMac senderIp senderMac))
  else .next s

/-- NEIGHBOUR_SOLICITATION: answered for the link-local address. -/
def execNeighbourSolicitation (target sender : Nat) (s : State) : Out :=
  if s.mpOn && s.serverUp && target == linkLocal s.mpMac then .next (s.emit (.neighbourAdvert target s.mpMac sender))
  else .next s

/-- PLCA_BEACON (R372): the PLCA objects take effect at the port, and MP_LINK shows the link and the beacons. -/
def execPlcaBeacon (s : State) : Out :=
  if s.mpOn then
    let now := (List.range 5).map fun i =>
      (i + 1, (s.dict.objs.get? (objKey 0xD010 (i + 1))).getD (leBytes 1 ([1, 64, 32, 0, 128].getD i 0)))
    .next ({ s with dict := { s.dict with plca := now } }.setObj 0xD010 9 (leBytes 1 3))
  else .next s

end Sys2Proof.Machine
end

