-- ==== Sys2Proof/Machine/Dispatch.lean ====
section
/-! DEFINITION. One arm for each constructor of Instr: a direct call of its meaning. -/

namespace Sys2Proof.Machine

def exec (i : Instr) (s : State) : Host.Outcome State Fault Refusal :=
  match i with
  | .registerWrite reg ix j width aligned value loc => Sys2Proof.Machine.execRegisterWrite reg ix j width aligned value loc s
  | .readClear reg ix j inc => Sys2Proof.Machine.execReadClear reg ix j inc s
  | .snap reg ix value => Sys2Proof.Machine.execSnap reg ix value s
  | .sqDoorbell c tail port func loc => Sys2Proof.Machine.execSqDoorbell c tail port func loc s
  | .cqDoorbell c head port func loc => Sys2Proof.Machine.execCqDoorbell c head port func loc s
  | .contextOpen c value loc => Sys2Proof.Machine.execContextOpen c value loc s
  | .contextClose c value loc => Sys2Proof.Machine.execContextClose c value loc s
  | .functionLevelReset port func => Sys2Proof.Machine.execFunctionLevelReset port func s
  | .descriptorFetch c readOk pcieErr => Sys2Proof.Machine.execDescriptorFetch c readOk pcieErr s
  | .nop c => Sys2Proof.Machine.execNop c s
  | .search c readOk => Sys2Proof.Machine.execSearch c readOk s
  | .cancel c seq => Sys2Proof.Machine.execCancel c seq s
  | .logRead c => Sys2Proof.Machine.execLogRead c s
  | .insert c readOk => Sys2Proof.Machine.execInsert c readOk s
  | .delete c readOk => Sys2Proof.Machine.execDelete c readOk s
  | .rewrite c readOk => Sys2Proof.Machine.execRewrite c readOk s
  | .bitsSet c readOk => Sys2Proof.Machine.execBitsSet c readOk s
  | .bitsClear c readOk => Sys2Proof.Machine.execBitsClear c readOk s
  | .listCopy c => Sys2Proof.Machine.execListCopy c s
  | .defineBitmap c => Sys2Proof.Machine.execDefineBitmap c s
  | .indexBuild c readOk => Sys2Proof.Machine.execIndexBuild c readOk s
  | .indexRetire c => Sys2Proof.Machine.execIndexRetire c s
  | .scheduleLoad c readOk => Sys2Proof.Machine.execScheduleLoad c readOk s
  | .promote c => Sys2Proof.Machine.execPromote c s
  | .demote c => Sys2Proof.Machine.execDemote c s
  | .tableUpdate c readOk => Sys2Proof.Machine.execTableUpdate c readOk s
  | .gatherDot c readOk badRows => Sys2Proof.Machine.execGatherDot c readOk badRows s
  | .rowRead c readOk badRows => Sys2Proof.Machine.execRowRead c readOk badRows s
  | .rowWrite c readOk => Sys2Proof.Machine.execRowWrite c readOk s
  | .hatpinSwap c readOk => Sys2Proof.Machine.execHatpinSwap c readOk s
  | .hatpinDrainEnd => Sys2Proof.Machine.execHatpinDrainEnd s
  | .hatpinFlush c => Sys2Proof.Machine.execHatpinFlush c s
  | .tableRetire c => Sys2Proof.Machine.execTableRetire c s
  | .msixCoalesceTimeout c => Sys2Proof.Machine.execMsixCoalesceTimeout c s
  | .take g port value loc => Sys2Proof.Machine.execTake g port value loc s
  | .perstAssert port => Sys2Proof.Machine.execPerstAssert port s
  | .subQuery conn => Sys2Proof.Machine.execSubQuery conn s
  | .groupAnswer conn => Sys2Proof.Machine.execGroupAnswer conn s
  | .groupAnswerTimeout gq => Sys2Proof.Machine.execGroupAnswerTimeout gq s
  | .memberLost m => Sys2Proof.Machine.execMemberLost m s
  | .queryEncode die => Sys2Proof.Machine.execQueryEncode die s
  | .probePassLaunch die => Sys2Proof.Machine.execProbePassLaunch die s
  | .probePassComplete die => Sys2Proof.Machine.execProbePassComplete die s
  | .heldPairPost die => Sys2Proof.Machine.execHeldPairPost die s
  | .launchByExpiry die k => Sys2Proof.Machine.execLaunchByExpiry die k s
  | .queueLaunch die k dirErr => Sys2Proof.Machine.execQueueLaunch die k dirErr s
  | .tileBind band => Sys2Proof.Machine.execTileBind band s
  | .blockScan task err => Sys2Proof.Machine.execBlockScan task err s
  | .laneReduction band => Sys2Proof.Machine.execLaneReduction band s
  | .taskComplete task => Sys2Proof.Machine.execTaskComplete task s
  | .taskCheckpoint task => Sys2Proof.Machine.execTaskCheckpoint task s
  | .checkpointDurable task => Sys2Proof.Machine.execCheckpointDurable task s
  | .dieMergePartial die => Sys2Proof.Machine.execDieMergePartial die s
  | .dieMergeFlush die q => Sys2Proof.Machine.execDieMergeFlush die q s
  | .homeMerge q sidecarErr idErr => Sys2Proof.Machine.execHomeMerge q sidecarErr idErr s
  | .shadowTimeout q => Sys2Proof.Machine.execShadowTimeout q s
  | .queryVectorLoad ch die => Sys2Proof.Machine.execQueryVectorLoad ch die s
  | .candidateRequest ch die => Sys2Proof.Machine.execCandidateRequest ch die s
  | .planeOpIssue ch plane => Sys2Proof.Machine.execPlaneOpIssue ch plane s
  | .pageDecode ch ctx e => Sys2Proof.Machine.execPageDecode ch ctx e s
  | .lingerExpiry ch ctx => Sys2Proof.Machine.execLingerExpiry ch ctx s
  | .scoreRecord die => Sys2Proof.Machine.execScoreRecord die s
  | .partialSumRequest conn badRows => Sys2Proof.Machine.execPartialSumRequest conn badRows s
  | .fp16Reduction q => Sys2Proof.Machine.execFp16Reduction q s
  | .degradedRead die bad => Sys2Proof.Machine.execDegradedRead die bad s
  | .rebuiltSector die => Sys2Proof.Machine.execRebuiltSector die s
  | .scanDeadline q => Sys2Proof.Machine.execScanDeadline q s
  | .rerankBudgetEnd q => Sys2Proof.Machine.execRerankBudgetEnd q s
  | .flashRecordDurable ch => Sys2Proof.Machine.execFlashRecordDurable ch s
  | .retiredSlotTombstone => Sys2Proof.Machine.execRetiredSlotTombstone s
  | .retireLateExpiry => Sys2Proof.Machine.execRetireLateExpiry s
  | .versionFree n v => Sys2Proof.Machine.execVersionFree n v s
  | .tableVersionFree t v => Sys2Proof.Machine.execTableVersionFree t v s
  | .indexVersionSwitch n value loc => Sys2Proof.Machine.execIndexVersionSwitch n value loc s
  | .tableVersionSwitch t value loc => Sys2Proof.Machine.execTableVersionSwitch t value loc s
  | .shardCopyStream conn => Sys2Proof.Machine.execShardCopyStream conn s
  | .shardListLanded conn cluster => Sys2Proof.Machine.execShardListLanded conn cluster s
  | .rowLockGrant die => Sys2Proof.Machine.execRowLockGrant die s
  | .stripeWrite die bad => Sys2Proof.Machine.execStripeWrite die bad s
  | .recordAppend die => Sys2Proof.Machine.execRecordAppend die s
  | .openSectorTimeout ch lsn => Sys2Proof.Machine.execOpenSectorTimeout ch lsn s
  | .detach ch loc => Sys2Proof.Machine.execDetach ch loc s
  | .channelFault ch cause => Sys2Proof.Machine.execChannelFault ch cause s
  | .detachDrainEnd ch => Sys2Proof.Machine.execDetachDrainEnd ch s
  | .attach ch loc => Sys2Proof.Machine.execAttach ch loc s
  | .abortAttach ch loc => Sys2Proof.Machine.execAbortAttach ch loc s
  | .channelSelfTestDone ch pass goodUnits => Sys2Proof.Machine.execChannelSelfTestDone ch pass goodUnits s
  | .rebuildSector ch bad => Sys2Proof.Machine.execRebuildSector ch bad s
  | .channelShadowRecord ch tag => Sys2Proof.Machine.execChannelShadowRecord ch tag s
  | .carrierPresenceChange ch present => Sys2Proof.Machine.execCarrierPresenceChange ch present s
  | .stagingTimeout ch => Sys2Proof.Machine.execStagingTimeout ch s
  | .fold ch unit => Sys2Proof.Machine.execFold ch unit s
  | .tlCheckpoint ch => Sys2Proof.Machine.execTlCheckpoint ch s
  | .gcUnitCopy ch copy => Sys2Proof.Machine.execGcUnitCopy ch copy s
  | .gcErase ch sb ok => Sys2Proof.Machine.execGcErase ch sb ok s
  | .healthRecheck ch => Sys2Proof.Machine.execHealthRecheck ch s
  | .flashTimeRecord ch => Sys2Proof.Machine.execFlashTimeRecord ch s
  | .flashFormat goodUnits => Sys2Proof.Machine.execFlashFormat goodUnits s
  | .flashTimeSet time => Sys2Proof.Machine.execFlashTimeSet time s
  | .pwrLossAssert => Sys2Proof.Machine.execPwrLossAssert s
  | .flushComplete ch => Sys2Proof.Machine.execFlushComplete ch s
  | .pwrLossDeassert => Sys2Proof.Machine.execPwrLossDeassert s
  | .promotionComplete n v cluster ok => Sys2Proof.Machine.execPromotionComplete n v cluster ok s
  | .demotionComplete n v cluster refused => Sys2Proof.Machine.execDemotionComplete n v cluster refused s
  | .schedulePromotion n v => Sys2Proof.Machine.execSchedulePromotion n v s
  | .promotionRetry n v cluster tenant => Sys2Proof.Machine.execPromotionRetry n v cluster tenant s
  | .heatHalving tenant => Sys2Proof.Machine.execHeatHalving tenant s
  | .quotaLimitWrite tenant tier value loc => Sys2Proof.Machine.execQuotaLimitWrite tenant tier value loc s
  | .grantFailed g how => Sys2Proof.Machine.execGrantFailed g how s
  | .patrolScrub stack addr corrected uncorrectable => Sys2Proof.Machine.execPatrolScrub stack addr corrected uncorrectable s
  | .write p => Sys2Proof.Machine.execWrite p s
  | .writeSignal p => Sys2Proof.Machine.execWriteSignal p s
  | .readReq p => Sys2Proof.Machine.execReadReq p s
  | .readRsp p => Sys2Proof.Machine.execReadRsp p s
  | .send p => Sys2Proof.Machine.execSend p s
  | .signal p => Sys2Proof.Machine.execSignal p s
  | .ack p => Sys2Proof.Machine.execAck p s
  | .msgDone p => Sys2Proof.Machine.execMsgDone p s
  | .nakSeq p => Sys2Proof.Machine.execNakSeq p s
  | .nakMsg p => Sys2Proof.Machine.execNakMsg p s
  | .nakStatus p => Sys2Proof.Machine.execNakStatus p s
  | .busy p => Sys2Proof.Machine.execBusy p s
  | .busyResend conn msn => Sys2Proof.Machine.execBusyResend conn msn s
  | .keepalive p => Sys2Proof.Machine.execKeepalive p s
  | .keepaliveSend conn => Sys2Proof.Machine.execKeepaliveSend conn s
  | .keepaliveLoss conn => Sys2Proof.Machine.execKeepaliveLoss conn s
  | .packetHoldExpiry conn => Sys2Proof.Machine.execPacketHoldExpiry conn s
  | .messageHoldExpiry conn msn => Sys2Proof.Machine.execMessageHoldExpiry conn msn s
  | .ackDelayExpiry conn => Sys2Proof.Machine.execAckDelayExpiry conn s
  | .retransmitTimeout conn => Sys2Proof.Machine.execRetransmitTimeout conn s
  | .packetDepart conn => Sys2Proof.Machine.execPacketDepart conn s
  | .pfcPause die port cls durationNs => Sys2Proof.Machine.execPfcPause die port cls durationNs s
  | .connect conn loc => Sys2Proof.Machine.execConnect conn loc s
  | .connectionReset conn => Sys2Proof.Machine.execConnectionReset conn s
  | .validate r loc => Sys2Proof.Machine.execValidate r loc s
  | .revoke r loc => Sys2Proof.Machine.execRevoke r loc s
  | .revocationComplete r => Sys2Proof.Machine.execRevocationComplete r s
  | .syValWrite ix value => Sys2Proof.Machine.execSyValWrite ix value s
  | .syAdd ix value => Sys2Proof.Machine.execSyAdd ix value s
  | .arm slot loc => Sys2Proof.Machine.execArm slot loc s
  | .disarm slot loc => Sys2Proof.Machine.execDisarm slot loc s
  | .opsEntryGrant => Sys2Proof.Machine.execOpsEntryGrant s
  | .policerCommit p t value loc => Sys2Proof.Machine.execPolicerCommit p t value loc s
  | .strictCommit k value loc => Sys2Proof.Machine.execStrictCommit k value loc s
  | .shaperCommit sh t value loc => Sys2Proof.Machine.execShaperCommit sh t value loc s
  | .bucketRefill => Sys2Proof.Machine.execBucketRefill s
  | .commit value loc => Sys2Proof.Machine.execCommit value loc s
  | .bandDrained band => Sys2Proof.Machine.execBandDrained band s
  | .commitDrainLate band => Sys2Proof.Machine.execCommitDrainLate band s
  | .autoEpoch => Sys2Proof.Machine.execAutoEpoch s
  | .acquire conn => Sys2Proof.Machine.execAcquire conn s
  | .renew conn => Sys2Proof.Machine.execRenew conn s
  | .park conn => Sys2Proof.Machine.execPark conn s
  | .claim conn => Sys2Proof.Machine.execClaim conn s
  | .release conn => Sys2Proof.Machine.execRelease conn s
  | .reply conn => Sys2Proof.Machine.execReply conn s
  | .leaseRenewTimer key => Sys2Proof.Machine.execLeaseRenewTimer key s
  | .leaseExpiry key => Sys2Proof.Machine.execLeaseExpiry key s
  | .poolLeaseExpiry key => Sys2Proof.Machine.execPoolLeaseExpiry key s
  | .watchdogSample e => Sys2Proof.Machine.execWatchdogSample e s
  | .replay e inst missed => Sys2Proof.Machine.execReplay e inst missed s
  | .reset u => Sys2Proof.Machine.execReset u s
  | .resetComplete domain num => Sys2Proof.Machine.execResetComplete domain num s
  | .resetWindowExpiry domain num => Sys2Proof.Machine.execResetWindowExpiry domain num s
  | .spStartTimeout => Sys2Proof.Machine.execSpStartTimeout s
  | .sramUncorrectable u array word job => Sys2Proof.Machine.execSramUncorrectable u array word job s
  | .dump => Sys2Proof.Machine.execDump s
  | .clear => Sys2Proof.Machine.execClear s
  | .dumpReadTimeout => Sys2Proof.Machine.execDumpReadTimeout s
  | .dumpLimitExpiry => Sys2Proof.Machine.execDumpLimitExpiry s
  | .errorWindowClose kind num code => Sys2Proof.Machine.execErrorWindowClose kind num code s
  | .errorIrqHoldoff => Sys2Proof.Machine.execErrorIrqHoldoff s
  | .gauntletAbort p => Sys2Proof.Machine.execGauntletAbort p s
  | .gauntletRelease p => Sys2Proof.Machine.execGauntletRelease p s
  | .abortedKeyExpiry => Sys2Proof.Machine.execAbortedKeyExpiry s
  | .remove u loc => Sys2Proof.Machine.execRemove u loc s
  | .unitDrained u => Sys2Proof.Machine.execUnitDrained u s
  | .returnUnit u loc => Sys2Proof.Machine.execReturnUnit u loc s
  | .unitSelfTestDone u signature expected tileFaults => Sys2Proof.Machine.execUnitSelfTestDone u signature expected tileFaults s
  | .unitShadowItem u agree compared => Sys2Proof.Machine.execUnitShadowItem u agree compared s
  | .abortReturn u loc => Sys2Proof.Machine.execAbortReturn u loc s
  | .coreWatchdog k => Sys2Proof.Machine.execCoreWatchdog k s
  | .laneFailed l cause => Sys2Proof.Machine.execLaneFailed l cause s
  | .powerOn => Sys2Proof.Machine.execPowerOn s
  | .startStepComplete failed a b okUnits found => Sys2Proof.Machine.execStartStepComplete failed a b okUnits found s
  | .stepTimeout => Sys2Proof.Machine.execStepTimeout s
  | .provision => Sys2Proof.Machine.execProvision s
  | .attest nonce => Sys2Proof.Machine.execAttest nonce s
  | .imageWrite set image => Sys2Proof.Machine.execImageWrite set image s
  | .imageVerify set => Sys2Proof.Machine.execImageVerify set s
  | .secverCommit => Sys2Proof.Machine.execSecverCommit s
  | .startRetry set => Sys2Proof.Machine.execStartRetry set s
  | .configReset => Sys2Proof.Machine.execConfigReset s
  | .preferredSet set => Sys2Proof.Machine.execPreferredSet set s
  | .read m => Sys2Proof.Machine.execRead m s
  | .nirrexWrite m => Sys2Proof.Machine.execNirrexWrite m s
  | .describe m => Sys2Proof.Machine.execDescribe m s
  | .invoke m => Sys2Proof.Machine.execInvoke m s
  | .poll m => Sys2Proof.Machine.execPoll m s
  | .segmentTimeout path index sub => Sys2Proof.Machine.execSegmentTimeout path index sub s
  | .resultHoldExpiry index sub => Sys2Proof.Machine.execResultHoldExpiry index sub s
  | .save => Sys2Proof.Machine.execSave s
  | .configSaveTimer => Sys2Proof.Machine.execConfigSaveTimer s
  | .go port m loc => Sys2Proof.Machine.execGo port m loc s
  | .setEndpointId port eid => Sys2Proof.Machine.execSetEndpointId port eid s
  | .getEndpointId port => Sys2Proof.Machine.execGetEndpointId port s
  | .getMctpVersionSupport port => Sys2Proof.Machine.execGetMctpVersionSupport port s
  | .getMessageTypeSupport port => Sys2Proof.Machine.execGetMessageTypeSupport port s
  | .getVendorDefinedMessageSupport port => Sys2Proof.Machine.execGetVendorDefinedMessageSupport port s
  | .arpRequest ipv4 senderIp senderMac => Sys2Proof.Machine.execArpRequest ipv4 senderIp senderMac s
  | .neighbourSolicitation target sender => Sys2Proof.Machine.execNeighbourSolicitation target sender s
  | .powerTick r => Sys2Proof.Machine.execPowerTick r s
  | .criticalTemperature die => Sys2Proof.Machine.execCriticalTemperature die s
  | .thermtrip u => Sys2Proof.Machine.execThermtrip u s
  | .pllLossOfLock u => Sys2Proof.Machine.execPllLossOfLock u s
  | .sysclkLoss => Sys2Proof.Machine.execSysclkLoss s
  | .resetNAssert => Sys2Proof.Machine.execResetNAssert s
  | .resetNDeassert => Sys2Proof.Machine.execResetNDeassert s
  | .bandWake band => Sys2Proof.Machine.execBandWake band s
  | .selfTest u test => Sys2Proof.Machine.execSelfTest u test s
  | .selfTestComplete u signature expected verdict repairs tileFaults => Sys2Proof.Machine.execSelfTestComplete u signature expected verdict repairs tileFaults s
  | .bypass => Sys2Proof.Machine.execBypass s
  | .idcode => Sys2Proof.Machine.execIdcode s
  | .samplePreload => Sys2Proof.Machine.execSamplePreload s
  | .extest => Sys2Proof.Machine.execExtest s
  | .extestPulse => Sys2Proof.Machine.execExtestPulse s
  | .extestTrain => Sys2Proof.Machine.execExtestTrain s
  | .clamp => Sys2Proof.Machine.execClamp s
  | .highz => Sys2Proof.Machine.execHighz s
  | .perstDeassert port => Sys2Proof.Machine.execPerstDeassert port s
  | .accessWidthRead reg ix j width aligned loc => Sys2Proof.Machine.execAccessWidthRead reg ix j width aligned loc s
  | .completionTimeout c seq addr => Sys2Proof.Machine.execCompletionTimeout c seq addr s
  | .foldProgramStatus ch unit ok => Sys2Proof.Machine.execFoldProgramStatus ch unit ok s
  | .refreshAgeReached ch sb => Sys2Proof.Machine.execRefreshAgeReached ch sb s
  | .healthTemperatureSample ch temp => Sys2Proof.Machine.execHealthTemperatureSample ch temp s
  | .mr4Sample stack code => Sys2Proof.Machine.execMr4Sample stack code s
  | .sysclkRestored => Sys2Proof.Machine.execSysclkRestored s
  | .carrierPowerSettled ch => Sys2Proof.Machine.execCarrierPowerSettled ch s
  | .plcaBeacon => Sys2Proof.Machine.execPlcaBeacon s
  | .pfcPauseExpiry die port cls => Sys2Proof.Machine.execPfcPauseExpiry die port cls s
  | .tapReset => Sys2Proof.Machine.execTapReset s
  | .resetFlushWaitExpiry => Sys2Proof.Machine.execResetFlushWaitExpiry s

end Sys2Proof.Machine
end

