-- ==== Sys2Proof/Safety.lean ====
section
/-! DEFINITION. What counts as a safe run: a sound state, and a step that leaves alone what its command does not concern. For
every command the parts of the state and the registers that it may change are named here, once. -/

namespace Sys2Proof.Machine

/-- The canonical form of a memory: rising addresses, and no entry equal to what an unlisted address reads as. -/
def Memory.wf (m : List Host.Cell) : Bool := Tbl.wf m 0

/-- A sound state: the registers and both memories are in canonical form, and the error log and the start history hold no more
than the rings of R321 and R351. -/
def State.sound (s : State) : Bool :=
  s.regs.sorted && Memory.wf s.hostMem && Memory.wf s.dram && decide (s.ras.errLog.length ≤ 8192)
    && decide (s.boot.history.length ≤ 2048)

/-- A command leaves a next state, of which `P` holds. -/
def Leads (c : Instr) (s : State) (P : State → Prop) : Prop := ∃ t, exec c s = .next t ∧ P t

/-! ### Frames -/

/-- The parts of the state beside the queue and the registers; `time` stands for the device time going back. -/
inductive Part where
  | time | now | freeCount | shadowRegs | readData | hostMem | dram | out | hq | qry | idx | tbl | fl | net | pol | ten | ras | boot | start | dict | power | pins
  deriving DecidableEq, Repr

/-- Two states agree in a part. -/
def Part.same (p : Part) (s t : State) : Prop :=
  match p with
  | .time => s.now ≤ t.now
  | .now => t.now = s.now
  | .freeCount => t.freeCount = s.freeCount
  | .shadowRegs => t.shadowRegs = s.shadowRegs
  | .readData => t.readData = s.readData
  | .hostMem => t.hostMem = s.hostMem
  | .dram => t.dram = s.dram
  | .out => t.out = s.out
  | .hq => t.hq = s.hq
  | .qry => t.qry = s.qry
  | .idx => t.idx = s.idx
  | .tbl => t.tbl = s.tbl
  | .fl => t.fl = s.fl
  | .net => t.net = s.net
  | .pol => t.pol = s.pol
  | .ten => t.ten = s.ten
  | .ras => t.ras = s.ras
  | .boot => t.boot = s.boot
  | .start => t.start = s.start
  | .dict => t.dict = s.dict
  | .power => t.power = s.power
  | .pins => t.pins = s.pins

/-- What changed from `s` to `t` lies in the parts `ps` and in the registers `rs`. -/
def Frame (ps : List Part) (rs : List RegName) (s t : State) : Prop :=
  t.pending = s.pending ∧ (∀ p, p ∉ ps → p.same s t) ∧ ∀ r, r ∉ rs → ∀ i j, t.reg r i j = s.reg r i j

/-- The bytes of host memory that `m` and `m'` hold differ only from key `a` on, for `n` bytes (`hostKey`). -/
def SameOutside (a n : Nat) (m m' : List Host.Cell) : Prop :=
  ∀ b, b < a ∨ a + n ≤ b → Tbl.getD m' 0 b = Tbl.getD m 0 b

/-! ### Registers that change together -/

/-- The registers of the error log (R321). -/
def logRegs : List RegName :=
  [.EL_COALESCED, .EL_OVERWRITTEN, .EL_RECORDS, .EL_SEQ]

/-- A sync object, and the armed requests that its signal issues (R286, R289). -/
def signalRegs : List RegName :=
  [.SY_VAL, .XT_CONN_STATUS, .XT_TWR_CTL, .XT_TWR_ISSUED]

/-- What the completion of a command counts, and the in-flight count of its context (R243, R264). -/
def finishRegs : List RegName :=
  [.EL_COALESCED, .EL_OVERWRITTEN, .EL_RECORDS, .EL_SEQ, .HG_GAUNTLET_TX, .HQ_CMD_INVALID, .HQ_CMD_POLICED,
   .HQ_CPL_WRITTEN, .HQ_CTX_STATUS, .HQ_DMA_ERR, .TN_ACC_QUERIES, .TN_ACC_WAIT_HIST, .TN_ACC_WAIT_NS]

/-- What a policer counts (R303). -/
def policeRegs : List RegName :=
  [.PL_GREEN, .PL_RED, .PL_RED_BYTES, .PL_STRICT_DROP, .PL_YELLOW]

/-- What the undoing of an update counts (R168). -/
def undoRegs : List RegName :=
  [.HQ_UPD_REDUNDANT, .HQ_UPD_ROLLBACK, .HQ_UPD_TOMBSTONES]

/-- Residency: charges, promotion pools and grants (R219, R226, R235). -/
def tierRegs : List RegName :=
  [.GE_PF_BYTES_DOWN, .TN_ACC_REMOTE_BYTES, .TN_PF_DEMAND, .TN_PF_POOL_EVICT, .TN_QUOTA_REFUSED, .TN_QUOTA_USED,
   .TN_RES_CREDITED, .TN_RES_TAKEN, .TN_RES_TAKE_REFUSED]

/-- The translation layer of a channel at work, and its fault when it finds no room (R203, R215). -/
def mediaRegs : List RegName :=
  [.CF_CHANNEL_DOWN, .CF_QUEUE_FULL_NS, .CF_STATUS, .CF_SVC, .CF_TL_NAND_BYTES, .CF_TL_REFRESH, .CF_TL_STATUS,
   .CF_TL_WL_MOVES, .EL_COALESCED, .EL_OVERWRITTEN, .EL_RECORDS, .EL_SEQ]

/-- A channel that goes out of service (R190). -/
def faultRegs : List RegName :=
  [.CF_CHANNEL_DOWN, .CF_QUEUE_FULL_NS, .CF_STATUS, .CF_SVC]

/-- An uncorrectable word of a DRAM stack (R220). -/
def uncorrRegs : List RegName :=
  [.EL_ECC_PPR_PENDING, .EL_ECC_UNCORR]

/-- Gathering queues and tasks of the scan stage (R72). -/
def scanRegs : List RegName :=
  [.BD_GQ_POOL_HOLD, .BD_GQ_POOL_MAX, .BD_GQ_POSTED, .BD_WD_CEIL_STOP, .BD_WD_DEADLINE_STOP, .BD_WD_PAIRS,
   .BD_WD_QUERIES, .BD_WD_STEPS]

/-- The end of a query, or of its shadow (R111, R235, R312). -/
def queryRegs : List RegName :=
  [.BD_GQ_NOCTX_NS, .HQ_GRP_DIVERGED, .HQ_GRP_MISSING, .HQ_GRP_SHARD, .HQ_UPD_CMDS, .SE_DUP_DROPPED_DIE,
   .SE_MG_APPROX, .SE_MG_BUSY_CYC, .SE_MG_KEY_PASSES, .SE_MG_PIECES, .SE_MG_REPEAT_PASSES, .SE_MG_STATUS, .SE_NAN,
   .SE_REFILL_PASSES_DIE, .TN_SHADOW_DONE, .TN_SHADOW_DROPPED, .TN_SHADOW_K_SUM, .TN_SHADOW_LOST,
   .TN_SHADOW_OVERLAP_SUM, .TN_SHADOW_SAMPLED, .XT_RGN_CTL]

/-- A final selection (R92). -/
def selectRegs : List RegName :=
  [.SE_MG_SHORT]

/-- The re-rank stages (R125, R156). -/
def rerankRegs : List RegName :=
  [.CF_CHANNEL_DOWN, .CF_QUEUE_FULL_NS, .CF_STATUS, .CF_SVC, .CF_TL_HOST_BYTES, .CF_TL_MAP_MISS, .CF_TL_NAND_BYTES,
   .CF_TL_REFRESH, .CF_TL_STATUS, .CF_TL_WL_MOVES, .CF_TL_WRITE_WAIT_NS, .GE_ABSENT, .GE_DEG_FAIL, .GE_DEG_READS,
   .GE_DEG_REPAIRED, .GE_DOT_PINNED, .GE_DOT_ROWS, .GE_HP_DIRTY_MAX, .GE_LOCK_WAIT, .GE_LOCK_WAIT_NS, .GE_PAR_ONLY,
   .GE_PAR_WRITES, .GE_REQ_UNREACHABLE, .GE_SR_DRAWS, .GE_SR_NAN, .GE_SR_SAT, .GE_STATUS, .GE_STRIPE_WAIT_NS,
   .GE_UPD_STEPS, .PL_SHP_BYTES, .PL_SHP_WAIT_NS, .SY_CFG, .TN_ACC_DRAM_BYTES, .TN_ACC_FLASH_READS,
   .TN_ACC_FLASH_WRITES, .TN_DL_FLASH_DROP, .XT_RGN_BASE]

/-- Receiving and answering a packet (R292). -/
def receiveRegs : List RegName :=
  [.GE_REQ_REFUSED, .HG_GAUNTLET_RX, .HQ_CMD_FETCHED, .PL_UNMAPPED, .TN_DL_LATE_RECORDS, .XT_BUSY, .XT_HOLD_FILLED,
   .XT_MP_DUP, .XT_MP_TABLE_FULL, .XT_REFUSED_ACCESS, .XT_REFUSED_REVOKED, .XT_REORDER_FULL, .XT_RX_BAD, .XT_RX_PKTS,
   .XT_TX_PKTS]

/-- Updates of an index (R174). -/
def updateRegs : List RegName :=
  [.HQ_GRP_SUBQ, .HQ_UPD_COPIED, .HQ_UPD_MIRRORED, .HQ_UPD_RETIRE_WAIT, .HQ_UPD_SLOTS_NEW, .PJ_BUSY_CYC,
   .PJ_CLAMP_LEVEL, .PJ_CLAMP_QUERY, .PJ_CLAMP_TSCALE, .PJ_CLAMP_USCALE, .PJ_ENC_INSERT, .PJ_ENC_QUERY,
   .PJ_MAT_LOADS, .PJ_SIGN_NAN, .PJ_SR_DRAWS, .TN_LEASE_ACQUIRED, .TN_SHADOW_SKIPPED]

/-- Row accesses and their flash (R156). -/
def rowRegs : List RegName :=
  [.CF_TL_HOST_BYTES, .CF_TL_MAP_MISS, .CF_TL_WRITE_WAIT_NS, .GE_DEG_FAIL, .GE_DEG_READS, .GE_DEG_REPAIRED,
   .GE_HP_DIRTY_MAX, .GE_LOCK_WAIT_NS, .GE_PAR_ONLY, .GE_PAR_WRITES, .GE_SR_DRAWS, .GE_SR_NAN, .GE_SR_SAT,
   .GE_STATUS, .GE_STRIPE_WAIT_NS, .GE_UPD_STEPS, .PL_SHP_BYTES, .PL_SHP_WAIT_NS, .TN_ACC_FLASH_READS,
   .TN_ACC_FLASH_WRITES]

/-! ### The frame of every command -/

/-- The parts of the state that a command may change. -/
def partsOf (c : Instr) : List Part :=
  match c with
  | .registerWrite .. | .replay .. | .reset .. | .sramUncorrectable .. | .read .. | .nirrexWrite .. | .describe ..
  | .invoke .. | .poll .. | .go .. | .pllLossOfLock .. =>
    [.freeCount, .shadowRegs, .hostMem, .dram, .out, .hq, .qry, .idx, .tbl, .fl, .net, .pol, .ten, .ras, .boot, .start,
     .dict, .power]
  | .readClear .. =>
    [.shadowRegs, .readData]
  | .snap .. =>
    [.shadowRegs]
  | .sqDoorbell .. =>
    [.out, .hq, .ras]
  | .cqDoorbell .. | .contextOpen .. =>
    [.freeCount, .hostMem, .out, .hq, .ras]
  | .contextClose .. | .functionLevelReset .. | .take .. =>
    [.freeCount, .hostMem, .out, .hq, .qry, .idx, .tbl, .fl, .net, .ten, .ras]
  | .descriptorFetch .. | .nop .. =>
    [.freeCount, .hostMem, .out, .hq, .net, .pol, .ras]
  | .search .. | .cancel .. | .insert .. | .delete .. | .rewrite .. | .bitsSet .. | .bitsClear .. | .listCopy ..
  | .subQuery .. | .nakStatus .. =>
    [.freeCount, .hostMem, .out, .hq, .qry, .idx, .fl, .net, .pol, .ten, .ras]
  | .logRead .. =>
    [.freeCount, .hostMem, .out, .hq, .qry, .net, .pol, .ras]
  | .defineBitmap .. | .indexBuild .. | .scheduleLoad .. =>
    [.freeCount, .hostMem, .out, .hq, .idx, .net, .pol, .ras]
  | .indexRetire .. | .promote .. | .demote .. =>
    [.freeCount, .hostMem, .out, .hq, .idx, .fl, .net, .pol, .ras]
  | .tableUpdate .. | .tableRetire .. =>
    [.freeCount, .hostMem, .out, .hq, .tbl, .net, .pol, .ras]
  | .gatherDot .. | .rowRead .. | .rowWrite .. | .hatpinSwap .. | .hatpinDrainEnd | .hatpinFlush ..
  | .partialSumRequest .. | .rowLockGrant .. =>
    [.freeCount, .hostMem, .out, .hq, .idx, .tbl, .fl, .net, .pol, .ras]
  | .msixCoalesceTimeout .. =>
    [.now, .out, .hq]
  | .perstAssert .. =>
    [.freeCount, .hostMem, .out, .hq, .qry, .idx, .tbl, .fl, .net, .ten, .ras, .pins]
  | .groupAnswer .. | .memberLost .. | .flashRecordDurable .. | .shardListLanded .. =>
    [.freeCount, .hostMem, .out, .hq, .idx, .fl, .net, .ten, .ras]
  | .groupAnswerTimeout .. =>
    [.now, .freeCount, .hostMem, .out, .hq, .idx, .fl, .net, .ten, .ras]
  | .queryEncode .. | .fp16Reduction .. | .connectionReset .. | .reply .. =>
    [.freeCount, .hostMem, .out, .hq, .qry, .idx, .fl, .net, .ten, .ras]
  | .probePassLaunch .. | .launchByExpiry .. =>
    [.now, .qry]
  | .probePassComplete .. | .shadowTimeout .. =>
    [.now, .freeCount, .hostMem, .out, .hq, .qry, .idx, .fl, .net, .ras]
  | .heldPairPost .. | .tileBind .. | .laneReduction .. | .taskCheckpoint .. | .checkpointDurable .. =>
    [.qry]
  | .queueLaunch .. | .taskComplete .. | .promotionComplete .. | .grantFailed .. =>
    [.freeCount, .hostMem, .out, .hq, .qry, .idx, .fl, .net, .ras]
  | .blockScan .. =>
    [.freeCount, .out, .qry, .ras]
  | .dieMergePartial .. | .dieMergeFlush .. =>
    [.qry, .ras]
  | .homeMerge .. | .scoreRecord .. | .rebuiltSector .. | .revocationComplete .. =>
    [.freeCount, .hostMem, .out, .hq, .qry, .idx, .tbl, .fl, .net, .pol, .ten, .ras]
  | .queryVectorLoad .. | .healthTemperatureSample .. =>
    [.fl]
  | .candidateRequest .. | .degradedRead .. | .detach .. | .channelFault .. | .abortAttach .. | .rebuildSector ..
  | .channelShadowRecord .. | .carrierPresenceChange .. | .fold .. | .flushComplete .. =>
    [.out, .fl, .ras]
  | .planeOpIssue .. | .stripeWrite .. =>
    [.out, .fl, .pol, .ras]
  | .pageDecode .. | .channelSelfTestDone .. | .gcUnitCopy .. | .gcErase .. | .foldProgramStatus .. =>
    [.freeCount, .out, .fl, .ras]
  | .lingerExpiry .. | .healthRecheck .. | .refreshAgeReached .. =>
    [.now, .out, .fl, .ras]
  | .scanDeadline .. | .rerankBudgetEnd .. | .keepaliveLoss .. | .retransmitTimeout .. | .leaseExpiry .. =>
    [.now, .freeCount, .hostMem, .out, .hq, .qry, .idx, .fl, .net, .ten, .ras]
  | .retiredSlotTombstone =>
    [.idx, .net]
  | .retireLateExpiry | .heatHalving .. =>
    [.now, .idx]
  | .versionFree .. | .promotionRetry .. =>
    [.freeCount, .hostMem, .out, .hq, .idx, .fl, .net, .ras]
  | .tableVersionFree .. =>
    [.freeCount, .hostMem, .out, .hq, .tbl, .fl, .net, .ras]
  | .indexVersionSwitch .. | .tableVersionSwitch .. | .quotaLimitWrite .. | .validate .. =>
    [.out, .ras]
  | .shardCopyStream .. =>
    [.freeCount, .hostMem, .out, .hq, .net, .ten, .ras]
  | .recordAppend .. =>
    [.idx, .fl]
  | .openSectorTimeout .. | .detachDrainEnd .. | .stagingTimeout .. | .tlCheckpoint .. | .flashTimeRecord ..
  | .carrierPowerSettled .. =>
    [.now, .fl]
  | .attach .. =>
    [.freeCount, .shadowRegs, .out, .fl, .pol, .ras]
  | .flashFormat .. =>
    [.freeCount, .fl, .dict]
  | .flashTimeSet .. =>
    [.fl, .dict]
  | .pwrLossAssert =>
    [.freeCount, .out, .fl, .ras, .boot, .dict, .power, .pins]
  | .pwrLossDeassert =>
    [.out, .fl, .ras, .pins]
  | .demotionComplete .. =>
    [.freeCount, .hostMem, .out, .hq, .idx, .net, .ras]
  | .schedulePromotion .. =>
    [.freeCount, .idx, .fl, .net]
  | .patrolScrub .. =>
    [.freeCount, .out, .ras]
  | .write .. | .writeSignal .. | .readReq .. | .readRsp .. | .send .. | .signal .. | .keepalive ..
  | .gauntletAbort .. | .gauntletRelease .. =>
    [.freeCount, .hostMem, .dram, .out, .hq, .qry, .idx, .tbl, .fl, .net, .pol, .ten, .ras]
  | .ack .. | .msgDone .. | .nakSeq .. | .nakMsg .. | .busy .. =>
    [.net, .pol]
  | .busyResend .. | .pfcPauseExpiry .. =>
    [.now, .net]
  | .keepaliveSend .. | .packetHoldExpiry .. | .messageHoldExpiry .. | .ackDelayExpiry .. =>
    [.now, .out, .net]
  | .packetDepart .. =>
    [.now, .out, .net, .pol]
  | .pfcPause .. | .syValWrite .. | .syAdd .. | .opsEntryGrant =>
    [.net]
  | .connect .. | .revoke .. | .arm .. | .disarm .. =>
    [.out, .net, .ras]
  | .policerCommit .. | .strictCommit .. | .shaperCommit .. =>
    [.freeCount, .out, .pol, .ras]
  | .bucketRefill =>
    [.now, .pol]
  | .commit .. =>
    [.freeCount, .hostMem, .out, .hq, .qry, .idx, .fl, .net, .ten, .ras, .boot, .power]
  | .bandDrained .. =>
    [.ten, .power]
  | .commitDrainLate .. | .watchdogSample .. =>
    [.now, .freeCount, .out, .qry, .idx, .tbl, .fl, .net, .ras]
  | .autoEpoch =>
    [.now, .out, .ten, .ras, .boot]
  | .acquire .. =>
    [.net, .ten]
  | .renew .. | .park .. | .claim .. | .release .. =>
    [.out, .net, .ten, .ras]
  | .leaseRenewTimer .. =>
    [.now, .net, .ten]
  | .poolLeaseExpiry .. =>
    [.now, .ten]
  | .resetComplete .. =>
    [.freeCount, .shadowRegs, .hostMem, .out, .hq, .qry, .idx, .tbl, .fl, .net, .pol, .ten, .ras, .boot, .start, .dict,
     .power]
  | .resetWindowExpiry .. =>
    [.now, .freeCount, .shadowRegs, .hostMem, .dram, .out, .hq, .qry, .idx, .tbl, .fl, .net, .pol, .ten, .ras, .boot,
     .start, .dict, .power]
  | .spStartTimeout =>
    [.now, .ras, .pins]
  | .dump | .clear =>
    [.ras]
  | .dumpReadTimeout | .dumpLimitExpiry =>
    [.now, .freeCount, .shadowRegs, .hostMem, .dram, .out, .hq, .qry, .idx, .tbl, .fl, .net, .pol, .ten, .ras, .start,
     .dict, .power]
  | .errorWindowClose .. | .errorIrqHoldoff =>
    [.now, .out, .ras]
  | .abortedKeyExpiry =>
    [.now, .ras]
  | .remove .. | .returnUnit .. | .unitSelfTestDone .. | .unitShadowItem .. | .abortReturn .. | .laneFailed .. =>
    [.out, .ras, .power]
  | .unitDrained .. | .powerTick .. | .mr4Sample .. | .tapReset =>
    [.power]
  | .coreWatchdog .. | .criticalTemperature .. =>
    [.ras, .power]
  | .powerOn =>
    [.time, .now, .shadowRegs, .dram, .hq, .qry, .idx, .tbl, .fl, .net, .pol, .ten, .ras, .boot, .start, .dict, .power,
     .pins]
  | .startStepComplete .. =>
    [.freeCount, .shadowRegs, .dram, .out, .hq, .qry, .idx, .tbl, .fl, .net, .pol, .ten, .ras, .boot, .start, .dict,
     .power]
  | .stepTimeout =>
    [.now, .shadowRegs, .dram, .hq, .qry, .idx, .tbl, .fl, .net, .pol, .ten, .ras, .boot, .start, .dict, .power]
  | .provision =>
    [.out, .ras, .boot]
  | .attest .. | .imageVerify .. | .plcaBeacon =>
    [.dict]
  | .imageWrite .. | .secverCommit | .configReset | .save =>
    [.boot, .dict]
  | .startRetry .. =>
    [.shadowRegs, .dram, .hq, .qry, .idx, .tbl, .fl, .net, .pol, .ten, .ras, .boot, .start, .dict, .power]
  | .preferredSet .. =>
    [.ras, .boot]
  | .segmentTimeout .. | .resultHoldExpiry .. =>
    [.now, .dict]
  | .configSaveTimer =>
    [.now, .boot, .dict]
  | .setEndpointId .. =>
    [.out, .dict]
  | .getEndpointId .. | .getMctpVersionSupport .. | .getMessageTypeSupport .. | .getVendorDefinedMessageSupport ..
  | .arpRequest .. | .neighbourSolicitation .. =>
    [.out]
  | .thermtrip .. =>
    [.ras, .power, .pins]
  | .sysclkLoss | .resetNAssert =>
    [.freeCount, .shadowRegs, .hostMem, .dram, .out, .hq, .qry, .idx, .tbl, .fl, .net, .pol, .ten, .ras, .boot, .start,
     .dict, .power, .pins]
  | .resetNDeassert | .sysclkRestored =>
    [.ras, .boot, .start, .pins]
  | .bandWake .. =>
    [.now, .power]
  | .selfTest .. =>
    [.dict, .power]
  | .selfTestComplete .. =>
    [.now, .out, .ras, .dict, .power]
  | .bypass | .idcode | .samplePreload | .extest | .extestPulse | .extestTrain | .clamp | .highz =>
    [.out, .power]
  | .perstDeassert .. =>
    [.pins]
  | .accessWidthRead .. =>
    [.readData, .out, .ras]
  | .completionTimeout .. =>
    [.freeCount, .hostMem, .out, .hq, .net, .ras]
  | .resetFlushWaitExpiry =>
    [.now, .freeCount, .shadowRegs, .dram, .out, .hq, .qry, .idx, .tbl, .fl, .net, .pol, .ten, .ras, .start, .dict,
     .power]

/-- The registers that a command may change; none: any register. -/
def regsOf (c : Instr) : Option (List RegName) :=
  match c with
  | .registerWrite .. | .readClear .. | .snap .. | .replay .. | .reset .. | .resetComplete ..
  | .resetWindowExpiry .. | .sramUncorrectable .. | .dumpReadTimeout | .dumpLimitExpiry | .powerOn
  | .startStepComplete .. | .stepTimeout | .startRetry .. | .read .. | .nirrexWrite .. | .describe .. | .invoke ..
  | .poll .. | .go .. | .pllLossOfLock .. | .sysclkLoss | .resetNAssert | .resetFlushWaitExpiry => none
  | .sqDoorbell .. =>
    some ([.HQ_CTX_STATUS, .HQ_DB_DISCARDED, .HQ_FETCH_HELD_NS] ++ logRegs)
  | .cqDoorbell .. =>
    some ([.HQ_CPL_WRITTEN, .HQ_CTX_STATUS, .HQ_DB_DISCARDED, .HQ_DMA_ERR, .HQ_FETCH_HELD_NS] ++ logRegs)
  | .contextOpen .. =>
    some ([.HQ_CG_CTL, .HQ_CPL_WRITTEN, .HQ_CTX_CTL, .HQ_CTX_STATUS, .HQ_DMA_ERR] ++ logRegs)
  | .contextClose .. | .perstAssert .. =>
    some ([.GE_STATUS, .HQ_CTX_CTL] ++ signalRegs ++ finishRegs ++ undoRegs ++ tierRegs ++ scanRegs ++ queryRegs)
  | .functionLevelReset .. =>
    some ([.GE_STATUS, .HQ_CTX_CTL, .HQ_MB_CTL] ++ signalRegs ++ finishRegs ++ undoRegs ++ tierRegs ++ scanRegs ++
      queryRegs)
  | .descriptorFetch .. =>
    some ([.HQ_CMD_FETCHED, .HQ_FETCH_HELD_NS, .XT_CONN_STATUS, .XT_TWR_CTL, .XT_TWR_ISSUED] ++ finishRegs ++
      policeRegs)
  | .nop .. =>
    some ([.XT_CONN_STATUS, .XT_TWR_CTL, .XT_TWR_ISSUED] ++ finishRegs ++ policeRegs)
  | .search .. =>
    some ([.BD_GQ_NOCTX_NS, .BD_GQ_POOL_HOLD, .BD_GQ_POOL_MAX, .BD_GQ_POSTED, .HQ_GRP_DIVERGED, .HQ_GRP_MISSING,
      .HQ_GRP_SHARD, .HQ_GRP_SUBQ, .HQ_UPD_CMDS, .SE_DUP_DROPPED_DIE, .SE_MG_APPROX, .SE_MG_BUSY_CYC,
      .SE_MG_KEY_PASSES, .SE_MG_PIECES, .SE_MG_REPEAT_PASSES, .SE_MG_STATUS, .SE_NAN, .SE_REFILL_PASSES_DIE,
      .TN_LEASE_ACQUIRED, .TN_SHADOW_SKIPPED, .XT_RGN_CTL] ++ signalRegs ++ finishRegs ++ policeRegs ++ undoRegs ++
      tierRegs)
  | .cancel .. =>
    some ([.HQ_CANCELS, .TN_DL_EXPIRED, .TN_DL_FLASH_DROP, .TN_DL_SCAN_CUT] ++ signalRegs ++ finishRegs ++ policeRegs
      ++ undoRegs ++ tierRegs ++ uncorrRegs ++ scanRegs ++ queryRegs ++ selectRegs)
  | .logRead .. | .scheduleLoad .. =>
    some (signalRegs ++ finishRegs ++ policeRegs)
  | .insert .. | .delete .. | .rewrite .. | .bitsSet .. | .bitsClear .. | .listCopy .. =>
    some ([.BD_GQ_NOCTX_NS, .BD_GQ_POOL_HOLD, .BD_GQ_POOL_MAX, .BD_GQ_POSTED, .HQ_GRP_DIVERGED, .HQ_GRP_MISSING,
      .HQ_GRP_SHARD, .HQ_UPD_CMDS, .SE_DUP_DROPPED_DIE, .SE_MG_APPROX, .SE_MG_BUSY_CYC, .SE_MG_KEY_PASSES,
      .SE_MG_PIECES, .SE_MG_REPEAT_PASSES, .SE_MG_STATUS, .SE_NAN, .SE_REFILL_PASSES_DIE, .XT_RGN_CTL] ++ signalRegs ++
      finishRegs ++ policeRegs ++ undoRegs ++ tierRegs ++ updateRegs)
  | .defineBitmap .. =>
    some ([.TN_QUOTA_REFUSED, .TN_QUOTA_USED] ++ signalRegs ++ finishRegs ++ policeRegs)
  | .indexBuild .. =>
    some ([.HQ_IDX_CTL, .HQ_IDX_LIM, .HQ_IDX_VER, .TN_QUOTA_REFUSED, .TN_QUOTA_USED] ++ signalRegs ++ finishRegs ++
      policeRegs)
  | .indexRetire .. =>
    some ([.HQ_IDX_CTL, .XT_CONN_STATUS, .XT_TWR_CTL, .XT_TWR_ISSUED] ++ finishRegs ++ policeRegs)
  | .promote .. =>
    some ([.GE_PF_BYTES_DOWN, .TN_ACC_REMOTE_BYTES, .TN_PF_FAILED, .TN_PF_POOL_EVICT, .TN_QUOTA_REFUSED,
      .TN_QUOTA_USED, .TN_RES_CREDITED, .TN_RES_TAKEN, .TN_RES_TAKE_REFUSED] ++ signalRegs ++ finishRegs ++ policeRegs)
  | .demote .. =>
    some ([.GE_PF_BYTES_DOWN, .TN_ACC_REMOTE_BYTES, .TN_QUOTA_REFUSED, .TN_QUOTA_USED, .TN_RES_OVERRIDDEN] ++
      signalRegs ++ finishRegs ++ policeRegs)
  | .tableUpdate .. =>
    some ([.GE_HH_ADDS, .GE_HH_PROMOTIONS, .GE_LOCK_WAIT, .GE_STATUS, .GE_UPD_ENTRIES] ++ signalRegs ++ finishRegs ++
      policeRegs)
  | .gatherDot .. =>
    some ([.GE_DOT_PINNED, .GE_DOT_ROWS, .GE_LOCK_WAIT, .GE_MARKERS, .TN_ACC_DRAM_BYTES] ++ signalRegs ++ finishRegs ++
      policeRegs ++ mediaRegs ++ uncorrRegs ++ rowRegs)
  | .rowRead .. =>
    some ([.GE_LOCK_WAIT] ++ signalRegs ++ finishRegs ++ policeRegs ++ mediaRegs ++ uncorrRegs ++ rowRegs)
  | .rowWrite .. =>
    some ([.GE_LOCK_WAIT, .TN_QUOTA_REFUSED, .TN_QUOTA_USED] ++ signalRegs ++ finishRegs ++ policeRegs ++ mediaRegs ++
      uncorrRegs ++ rowRegs)
  | .hatpinSwap .. =>
    some ([.GE_HP_CTL, .GE_HP_LOADS, .GE_LOCK_WAIT, .TN_QUOTA_REFUSED, .TN_QUOTA_USED] ++ signalRegs ++ finishRegs ++
      policeRegs ++ mediaRegs ++ uncorrRegs ++ rowRegs)
  | .hatpinDrainEnd =>
    some ([.GE_HP_CTL, .GE_HP_WRITEBACKS, .GE_LOCK_WAIT] ++ signalRegs ++ finishRegs ++ mediaRegs ++ uncorrRegs ++
      rowRegs)
  | .hatpinFlush .. =>
    some ([.GE_HP_WRITEBACKS, .GE_LOCK_WAIT] ++ signalRegs ++ finishRegs ++ policeRegs ++ mediaRegs ++ uncorrRegs ++
      rowRegs)
  | .tableRetire .. =>
    some ([.GE_TBL_CTL, .XT_CONN_STATUS, .XT_TWR_CTL, .XT_TWR_ISSUED] ++ finishRegs ++ policeRegs)
  | .msixCoalesceTimeout .. =>
    some ([.HQ_CTX_STATUS])
  | .take .. =>
    some ([.GE_STATUS, .HQ_CG_CTL, .HQ_CTX_BIND, .HQ_CTX_CTL, .HQ_HANDOVERS, .HQ_HO_TORN] ++ signalRegs ++ finishRegs
      ++ undoRegs ++ tierRegs ++ scanRegs ++ queryRegs)
  | .subQuery .. =>
    some ([.BD_GQ_NOCTX_NS, .BD_GQ_POOL_HOLD, .BD_GQ_POOL_MAX, .BD_GQ_POSTED, .HQ_CMD_FETCHED, .HQ_GRP_DIVERGED,
      .HQ_GRP_MISSING, .HQ_GRP_SHARD, .HQ_GRP_SUBQ, .HQ_UPD_CMDS, .SE_DUP_DROPPED_DIE, .SE_MG_APPROX, .SE_MG_BUSY_CYC,
      .SE_MG_KEY_PASSES, .SE_MG_PIECES, .SE_MG_REPEAT_PASSES, .SE_MG_STATUS, .SE_NAN, .SE_REFILL_PASSES_DIE,
      .TN_LEASE_ACQUIRED, .TN_SHADOW_SKIPPED, .XT_RGN_CTL] ++ signalRegs ++ finishRegs ++ policeRegs ++ undoRegs ++
      tierRegs)
  | .groupAnswer .. =>
    some ([.HQ_GRP_DIVERGED, .HQ_GRP_LATE, .HQ_GRP_MISSING, .HQ_GRP_SHARD, .HQ_UPD_CMDS, .SE_DUP_DROPPED_DIE,
      .SE_MG_APPROX, .SE_MG_BUSY_CYC, .SE_MG_KEY_PASSES, .SE_MG_PIECES, .SE_MG_REPEAT_PASSES, .SE_NAN,
      .SE_REFILL_PASSES_DIE, .TN_QUOTA_USED] ++ signalRegs ++ finishRegs ++ undoRegs)
  | .groupAnswerTimeout .. =>
    some ([.HQ_GRP_DIVERGED, .HQ_GRP_MISSING, .HQ_GRP_SHARD, .HQ_UPD_CMDS, .SE_DUP_DROPPED_DIE, .SE_MG_APPROX,
      .SE_MG_BUSY_CYC, .SE_MG_KEY_PASSES, .SE_MG_PIECES, .SE_MG_REPEAT_PASSES, .SE_NAN, .SE_REFILL_PASSES_DIE,
      .TN_QUOTA_USED] ++ signalRegs ++ finishRegs ++ undoRegs)
  | .memberLost .. =>
    some ([.HQ_GRP_DIVERGED, .HQ_GRP_MISSING, .HQ_GRP_PROMOTIONS, .HQ_GRP_SHARD, .HQ_UPD_CMDS, .SE_DUP_DROPPED_DIE,
      .SE_MG_APPROX, .SE_MG_BUSY_CYC, .SE_MG_KEY_PASSES, .SE_MG_PIECES, .SE_MG_REPEAT_PASSES, .SE_NAN,
      .SE_REFILL_PASSES_DIE, .TN_QUOTA_USED] ++ signalRegs ++ finishRegs ++ undoRegs)
  | .queryEncode .. =>
    some ([.BD_GQ_NOCTX_NS, .BD_GQ_POOL_HOLD, .BD_GQ_POOL_MAX, .BD_GQ_POSTED, .HQ_GRP_DIVERGED, .HQ_GRP_MISSING,
      .HQ_GRP_SHARD, .HQ_GRP_SUBQ, .HQ_UPD_CMDS, .PJ_BUSY_CYC, .PJ_CLAMP_QUERY, .PJ_CLAMP_USCALE, .PJ_ENC_QUERY,
      .PJ_MAT_LOADS, .PJ_SIGN_NAN, .PJ_SR_DRAWS, .SE_DUP_DROPPED_DIE, .SE_MG_APPROX, .SE_MG_BUSY_CYC,
      .SE_MG_KEY_PASSES, .SE_MG_PIECES, .SE_MG_REPEAT_PASSES, .SE_MG_STATUS, .SE_NAN, .SE_REFILL_PASSES_DIE,
      .TN_SHADOW_SKIPPED, .XT_RGN_CTL] ++ signalRegs ++ finishRegs ++ undoRegs ++ tierRegs)
  | .probePassLaunch .. =>
    some ([.BD_PR_CYC, .BD_PR_PASSES, .BD_PR_QUERIES])
  | .probePassComplete .. =>
    some (signalRegs ++ finishRegs ++ tierRegs ++ scanRegs)
  | .heldPairPost .. =>
    some ([.BD_GQ_POOL_MAX, .BD_GQ_POSTED])
  | .launchByExpiry .. | .openSectorTimeout .. | .heatHalving .. | .busyResend .. | .bucketRefill
  | .poolLeaseExpiry .. | .spStartTimeout | .errorIrqHoldoff | .abortedKeyExpiry | .provision | .attest ..
  | .imageWrite .. | .imageVerify .. | .configReset | .preferredSet .. | .segmentTimeout .. | .resultHoldExpiry ..
  | .save | .configSaveTimer | .setEndpointId .. | .getEndpointId .. | .getMctpVersionSupport ..
  | .getMessageTypeSupport .. | .getVendorDefinedMessageSupport .. | .arpRequest .. | .neighbourSolicitation ..
  | .bypass | .idcode | .samplePreload | .extest | .extestPulse | .extestTrain | .clamp | .highz
  | .perstDeassert .. | .healthTemperatureSample .. | .mr4Sample .. | .carrierPowerSettled .. | .plcaBeacon
  | .tapReset =>
    some ([])
  | .queueLaunch .. =>
    some ([.BD_BYTES_READ, .BD_GQ_LATE, .BD_GQ_LAUNCH_DEADLINE, .BD_GQ_LAUNCH_FILL, .BD_GQ_LAUNCH_PRESSURE,
      .BD_GQ_LAUNCH_WINDOW, .BD_GQ_NOCTX_NS, .BD_GQ_PAIRS_LAUNCHED, .BD_GQ_RESUMED, .BD_GQ_WAIT_NS, .BD_REMOTE_TASKS,
      .BD_STATUS, .BD_TASKS, .TN_ACC_DRAM_BYTES] ++ signalRegs ++ finishRegs ++ tierRegs ++ uncorrRegs ++ scanRegs)
  | .tileBind .. | .checkpointDurable .. =>
    some ([.BD_STATUS])
  | .blockScan .. =>
    some ([.BD_BLOCKS, .BD_BYTES_READ, .BD_CAND_EMIT, .BD_FLT_QBM_BYTES, .BD_LANE_CYC, .BD_PLANES_SKIP, .BD_SEG_SKIP,
      .BD_SKIP_ERROR, .BD_SKIP_SUMMARY, .BD_SKIP_WORD, .BD_SLOTS_ABANDONED, .BD_SLOTS_DONE, .BD_STATUS, .BD_THR_CYC,
      .BD_TILE_CYC, .TN_ACC_DRAM_BYTES, .TN_ACC_TILE_CYC] ++ logRegs ++ uncorrRegs)
  | .laneReduction .. =>
    some ([.BD_REDUCE, .SE_DUP_DROPPED, .SE_REDUCE_ELEMS, .SE_REDUCE_QWAIT_CYC, .SE_REFILL_PASSES])
  | .taskComplete .. =>
    some ([.BD_FLT_ALLOWED, .BD_STATUS] ++ signalRegs ++ finishRegs ++ tierRegs ++ scanRegs)
  | .taskCheckpoint .. =>
    some ([.BD_CHECKPOINTS, .BD_REDUCE, .BD_STATUS, .SE_DUP_DROPPED, .SE_REDUCE_ELEMS, .SE_REDUCE_QWAIT_CYC,
      .SE_REFILL_PASSES, .TN_ACC_PREEMPT])
  | .dieMergePartial .. =>
    some ([.SE_DUP_DROPPED_DIE, .SE_MG_APPROX, .SE_MG_BUSY_CYC, .SE_MG_KEY_PASSES, .SE_MG_PIECES, .SE_MG_REPEAT_PASSES,
      .SE_MG_ROWS, .SE_MG_STATUS, .SE_REFILL_PASSES_DIE])
  | .dieMergeFlush .. =>
    some ([.SE_DUP_DROPPED_DIE, .SE_MG_APPROX, .SE_MG_BUSY_CYC, .SE_MG_FLUSHES, .SE_MG_KEY_PASSES, .SE_MG_PIECES,
      .SE_MG_REPEAT_PASSES, .SE_MG_STATUS, .SE_REFILL_PASSES_DIE])
  | .homeMerge .. =>
    some (signalRegs ++ finishRegs ++ undoRegs ++ tierRegs ++ uncorrRegs ++ scanRegs ++ queryRegs ++ selectRegs ++
      rerankRegs)
  | .shadowTimeout .. =>
    some ([.BD_GQ_NOCTX_NS, .BD_GQ_POOL_HOLD, .BD_GQ_POOL_MAX, .BD_GQ_POSTED, .SE_MG_STATUS, .TN_SHADOW_DONE,
      .TN_SHADOW_DROPPED, .TN_SHADOW_K_SUM, .TN_SHADOW_LOST, .TN_SHADOW_OVERLAP_SUM, .XT_RGN_CTL] ++ signalRegs ++
      finishRegs ++ tierRegs)
  | .queryVectorLoad .. =>
    some ([.CF_QV_LOADS])
  | .candidateRequest .. =>
    some ([.CF_ABSENT, .CF_CHANNEL_DOWN, .CF_HDR_MISMATCH, .CF_JOINED, .CF_LINGER_HITS, .CF_NO_QUERY,
      .CF_QUEUE_FULL_NS, .CF_REQ, .CF_SCORED, .CF_SCORE_NAN, .CF_STATUS, .CF_TL_MAP_MISS, .CF_UNREADABLE,
      .TN_ACC_JOINED, .TN_ACC_RR_RECORDS] ++ logRegs)
  | .planeOpIssue .. =>
    some ([.CF_READS, .CF_TL_MAP_MISS, .PL_SHP_BYTES, .PL_SHP_WAIT_NS, .TN_ACC_FLASH_READS] ++ mediaRegs)
  | .pageDecode .. =>
    some ([.CF_ABSENT, .CF_HDR_MISMATCH, .CF_JOINED, .CF_NO_QUERY, .CF_SCORED, .CF_SCORE_NAN, .CF_SOFT_DECODES,
      .CF_TL_MAP_MISS, .CF_TL_RETRY_READS, .CF_UNREADABLE, .TN_ACC_JOINED, .TN_ACC_RR_RECORDS] ++ mediaRegs)
  | .lingerExpiry .. =>
    some ([.CF_ABSENT, .CF_CHANNEL_DOWN, .CF_JOINED, .CF_NO_QUERY, .CF_QUEUE_FULL_NS, .CF_STATUS, .CF_TL_MAP_MISS,
      .CF_UNREADABLE, .TN_ACC_JOINED] ++ logRegs)
  | .scoreRecord .. =>
    some ([.GE_ABSENT, .GE_DOT_PINNED, .GE_DOT_ROWS, .GE_LOCK_WAIT, .GE_REQ_UNREACHABLE, .SY_CFG, .TN_ACC_DRAM_BYTES,
      .TN_DL_LATE_RECORDS, .XT_RGN_BASE] ++ signalRegs ++ finishRegs ++ undoRegs ++ tierRegs ++ mediaRegs ++ uncorrRegs
      ++ scanRegs ++ queryRegs ++ selectRegs ++ rowRegs)
  | .partialSumRequest .. =>
    some ([.GE_DOT_PINNED, .GE_DOT_ROWS, .GE_LOCK_WAIT, .GE_MARKERS, .GE_REQ_REFUSED, .GE_REQ_SERVED,
      .TN_ACC_DRAM_BYTES, .XT_TX_PKTS] ++ signalRegs ++ finishRegs ++ mediaRegs ++ uncorrRegs ++ rowRegs)
  | .fp16Reduction .. =>
    some ([.GE_ABSENT] ++ signalRegs ++ finishRegs ++ undoRegs ++ tierRegs ++ uncorrRegs ++ scanRegs ++ queryRegs ++
      selectRegs)
  | .degradedRead .. =>
    some ([.CF_TL_MAP_MISS, .GE_DEG_FAIL, .GE_DEG_READS, .TN_ACC_FLASH_READS] ++ mediaRegs)
  | .rebuiltSector .. =>
    some ([.BD_RR_REBUILT, .GE_ABSENT, .GE_DOT_PINNED, .GE_DOT_ROWS, .GE_LOCK_WAIT, .GE_REQ_UNREACHABLE, .SY_CFG,
      .TN_ACC_DRAM_BYTES, .TN_ACC_RR_RECORDS, .TN_DL_LATE_RECORDS, .XT_RGN_BASE] ++ signalRegs ++ finishRegs ++
      undoRegs ++ tierRegs ++ mediaRegs ++ uncorrRegs ++ scanRegs ++ queryRegs ++ selectRegs ++ rowRegs)
  | .scanDeadline .. =>
    some ([.TN_DL_EXPIRED, .TN_DL_SCAN_CUT] ++ signalRegs ++ finishRegs ++ undoRegs ++ tierRegs ++ scanRegs ++
      queryRegs)
  | .rerankBudgetEnd .. =>
    some ([.TN_DL_FLASH_DROP] ++ signalRegs ++ finishRegs ++ undoRegs ++ tierRegs ++ uncorrRegs ++ scanRegs ++
      queryRegs ++ selectRegs)
  | .flashRecordDurable .. =>
    some ([.HQ_GRP_DIVERGED, .HQ_GRP_MISSING, .HQ_GRP_SHARD, .HQ_UPD_CMDS, .HQ_UPD_MIRRORED, .HQ_UPD_SLOTS_NEW,
      .SE_DUP_DROPPED_DIE, .SE_MG_APPROX, .SE_MG_BUSY_CYC, .SE_MG_KEY_PASSES, .SE_MG_PIECES, .SE_MG_REPEAT_PASSES,
      .SE_NAN, .SE_REFILL_PASSES_DIE, .TN_QUOTA_USED] ++ signalRegs ++ finishRegs ++ undoRegs)
  | .retiredSlotTombstone =>
    some ([.HQ_UPD_MIRRORED, .HQ_UPD_REDUNDANT, .HQ_UPD_TOMBSTONES, .TN_QUOTA_USED] ++ signalRegs)
  | .retireLateExpiry =>
    some ([.HQ_UPD_RETIRE_LATE])
  | .versionFree .. =>
    some ([.HQ_IDX_CTL, .TN_QUOTA_USED] ++ signalRegs ++ finishRegs)
  | .tableVersionFree .. =>
    some ([.GE_HP_CTL, .GE_TBL_CTL, .TN_QUOTA_USED] ++ signalRegs ++ finishRegs)
  | .indexVersionSwitch .. =>
    some ([.HQ_IDX_CTL] ++ logRegs)
  | .tableVersionSwitch .. =>
    some ([.GE_TBL_CTL] ++ logRegs)
  | .shardCopyStream .. =>
    some ([.HQ_CMD_FETCHED, .XT_CONN_STATUS, .XT_TWR_CTL, .XT_TWR_ISSUED] ++ finishRegs)
  | .shardListLanded .. =>
    some ([.HQ_CMD_FETCHED, .TN_QUOTA_USED, .XT_CONN_STATUS, .XT_TWR_CTL, .XT_TWR_ISSUED] ++ finishRegs)
  | .rowLockGrant .. =>
    some (signalRegs ++ finishRegs ++ mediaRegs ++ uncorrRegs ++ rowRegs)
  | .stripeWrite .. =>
    some ([.CF_TL_HOST_BYTES, .CF_TL_MAP_MISS, .CF_TL_WRITE_WAIT_NS, .GE_DEG_REPAIRED, .GE_PAR_ONLY, .GE_PAR_WRITES,
      .GE_STRIPE_WAIT_NS, .PL_SHP_BYTES, .PL_SHP_WAIT_NS, .TN_ACC_FLASH_WRITES] ++ mediaRegs)
  | .recordAppend .. =>
    some ([.CF_TL_NAND_BYTES, .CF_TL_STATUS, .TN_QUOTA_USED])
  | .detach .. =>
    some ([.CF_SVC] ++ logRegs)
  | .channelFault .. | .abortAttach .. | .channelShadowRecord .. | .carrierPresenceChange .. | .healthRecheck .. =>
    some (logRegs ++ faultRegs)
  | .detachDrainEnd .. =>
    some (faultRegs)
  | .attach .. =>
    some ([.CF_ABSENT, .CF_CTL, .CF_HDR_MISMATCH, .CF_JOINED, .CF_LINGER_HITS, .CF_NO_QUERY, .CF_QV_LOADS, .CF_RD_CFG,
      .CF_READS, .CF_REBUILD_READS, .CF_REQ, .CF_SCORED, .CF_SCORE_NAN, .CF_SNAP, .CF_SOFT_DECODES, .CF_TL_CFG,
      .CF_TL_CKPT, .CF_TL_ERASES, .CF_TL_FOLDS, .CF_TL_GC_MOVES, .CF_TL_GC_ORPHANS, .CF_TL_HOLDUP_SHORT,
      .CF_TL_HOST_BYTES, .CF_TL_MAP_MISS, .CF_TL_RETIRED, .CF_TL_RETRY_READS, .CF_TL_TIME_REFUSED,
      .CF_TL_WRITE_WAIT_NS, .CF_UNREADABLE, .PL_SHP_BYTES, .PL_SHP_CTL, .PL_SHP_RATE, .PL_SHP_SIZE, .PL_SHP_WAIT_NS] ++
      mediaRegs)
  | .channelSelfTestDone .. =>
    some ([.CF_REBUILD_POS, .CF_SVC, .CF_TL_STATUS] ++ logRegs)
  | .rebuildSector .. =>
    some ([.CF_REBUILD_POS, .CF_REBUILD_READS, .CF_TL_HOST_BYTES, .CF_TL_MAP_MISS, .GE_PAR_UNPROTECTED,
      .GE_REBUILD_LOST, .GE_REBUILD_SECTORS] ++ mediaRegs)
  | .stagingTimeout .. =>
    some ([.CF_TL_NAND_BYTES])
  | .fold .. | .flushComplete .. | .pwrLossDeassert | .refreshAgeReached .. =>
    some (mediaRegs)
  | .tlCheckpoint .. =>
    some ([.CF_TL_CKPT, .CF_TL_NAND_BYTES, .CF_TL_STATUS])
  | .gcUnitCopy .. =>
    some ([.CF_TL_GC_MOVES, .CF_TL_GC_ORPHANS, .CF_TL_MAP_MISS, .CF_TL_RETIRED, .GE_DEG_FAIL, .GE_DEG_READS] ++
      mediaRegs)
  | .gcErase .. =>
    some ([.CF_TL_ERASES, .CF_TL_RETIRED] ++ mediaRegs)
  | .flashTimeRecord .. =>
    some ([.CF_TL_NAND_BYTES, .CF_TL_STATUS])
  | .flashFormat .. =>
    some ([.CF_CAP, .CF_TL_STATUS])
  | .flashTimeSet .. =>
    some ([.CF_TL_NAND_BYTES, .CF_TL_STATUS, .CF_TL_TIME_REFUSED])
  | .pwrLossAssert =>
    some ([.BD_THR, .CF_TL_STATUS] ++ logRegs)
  | .promotionComplete .. =>
    some ([.BD_GQ_NOCTX_NS, .CF_TL_MAP_MISS, .GE_DEG_FAIL, .GE_DEG_READS, .GE_PF_BYTES_UP, .GE_PF_WAIT_NS,
      .TN_ACC_DRAM_BYTES, .TN_ACC_FLASH_READS, .TN_PF_FAILED, .TN_RG_LISTS_LOST] ++ signalRegs ++ finishRegs ++
      tierRegs ++ mediaRegs ++ uncorrRegs ++ scanRegs)
  | .demotionComplete .. =>
    some ([.TN_QUOTA_USED] ++ signalRegs ++ finishRegs)
  | .schedulePromotion .. =>
    some ([.GE_PF_BYTES_DOWN, .TN_ACC_REMOTE_BYTES, .TN_PF_FAILED, .TN_PF_POOL_EVICT, .TN_PF_SCHEDULE,
      .TN_QUOTA_REFUSED, .TN_QUOTA_USED, .XT_CONN_STATUS, .XT_TWR_CTL, .XT_TWR_ISSUED])
  | .promotionRetry .. =>
    some (signalRegs ++ finishRegs ++ tierRegs)
  | .quotaLimitWrite .. =>
    some ([.TN_QUOTA_LIMIT] ++ logRegs)
  | .grantFailed .. =>
    some ([.BD_GQ_NOCTX_NS, .TN_RG, .TN_RG_FAILED, .TN_RG_LISTS_LOST] ++ signalRegs ++ finishRegs ++ tierRegs ++
      scanRegs)
  | .patrolScrub .. =>
    some ([.EL_ECC_CORR] ++ logRegs ++ uncorrRegs)
  | .write .. | .writeSignal .. | .readReq .. | .readRsp .. | .send .. | .signal .. =>
    some ([.GE_STATUS] ++ signalRegs ++ finishRegs ++ policeRegs ++ undoRegs ++ tierRegs ++ scanRegs ++ queryRegs ++
      receiveRegs)
  | .ack .. | .msgDone .. | .nakSeq .. =>
    some ([.PL_UNMAPPED, .XT_CONN_CC, .XT_RX_BAD, .XT_RX_PKTS] ++ signalRegs ++ policeRegs)
  | .nakMsg .. =>
    some ([.PL_UNMAPPED, .XT_CONN_CC, .XT_RX_BAD, .XT_RX_PKTS] ++ policeRegs)
  | .nakStatus .. =>
    some ([.PL_UNMAPPED, .TN_RG, .TN_RG_FAILED, .TN_RG_LISTS_LOST, .XT_RX_BAD, .XT_RX_PKTS, .XT_TWR_FAILED] ++
      signalRegs ++ finishRegs ++ policeRegs ++ undoRegs ++ tierRegs ++ uncorrRegs ++ scanRegs ++ queryRegs ++
      selectRegs)
  | .busy .. =>
    some ([.PL_UNMAPPED, .XT_RX_BAD, .XT_RX_PKTS] ++ policeRegs)
  | .keepalive .. | .gauntletAbort .. | .gauntletRelease .. =>
    some ([.GE_REQ_REFUSED, .GE_STATUS, .HG_GAUNTLET_RX, .HQ_CMD_FETCHED, .PL_UNMAPPED, .TN_DL_LATE_RECORDS, .XT_BUSY,
      .XT_HOLD_FILLED, .XT_REFUSED_ACCESS, .XT_REFUSED_REVOKED, .XT_REORDER_FULL, .XT_RX_BAD, .XT_RX_PKTS, .XT_TX_PKTS]
      ++ signalRegs ++ finishRegs ++ policeRegs ++ undoRegs ++ tierRegs ++ scanRegs ++ queryRegs)
  | .keepaliveSend .. | .ackDelayExpiry .. =>
    some ([.XT_TX_PKTS])
  | .keepaliveLoss .. =>
    some ([.GE_REQ_UNREACHABLE, .TN_RG, .TN_RG_FAILED, .TN_RG_LISTS_LOST, .XT_CONN_CFG, .XT_CONN_ERRORS,
      .XT_RGN_DRAIN_TORN, .XT_TWR_FAILED] ++ signalRegs ++ finishRegs ++ undoRegs ++ tierRegs ++ uncorrRegs ++ scanRegs
      ++ queryRegs ++ selectRegs)
  | .packetHoldExpiry .. =>
    some ([.XT_NAK_SEQ, .XT_TX_PKTS])
  | .messageHoldExpiry .. =>
    some ([.XT_NAK_MSG, .XT_TX_PKTS])
  | .retransmitTimeout .. =>
    some ([.GE_REQ_UNREACHABLE, .TN_RG, .TN_RG_FAILED, .TN_RG_LISTS_LOST, .XT_CONN_CC, .XT_CONN_CFG, .XT_CONN_ERRORS,
      .XT_RGN_DRAIN_TORN, .XT_RTO, .XT_TWR_FAILED] ++ signalRegs ++ finishRegs ++ undoRegs ++ tierRegs ++ uncorrRegs ++
      scanRegs ++ queryRegs ++ selectRegs)
  | .packetDepart .. =>
    some ([.PL_SHP_BYTES, .PL_SHP_WAIT_NS, .PL_UNMAPPED, .XT_RESEND_PKTS, .XT_TX_PKTS])
  | .pfcPause .. | .pfcPauseExpiry .. =>
    some ([.XT_PFC_RX_NS])
  | .connect .. =>
    some ([.XT_CONN_CC, .XT_CONN_CFG] ++ logRegs)
  | .connectionReset .. =>
    some ([.GE_REQ_UNREACHABLE, .XT_CONN_CFG, .XT_RGN_DRAIN_TORN, .XT_TWR_FAILED] ++ signalRegs ++ finishRegs ++
      undoRegs ++ tierRegs ++ uncorrRegs ++ scanRegs ++ queryRegs ++ selectRegs)
  | .validate .. =>
    some ([.XT_RGN_CTL] ++ logRegs)
  | .revoke .. =>
    some ([.XT_RGN_CTL] ++ logRegs ++ signalRegs)
  | .revocationComplete .. =>
    some ([.GE_DOT_PINNED, .GE_DOT_ROWS, .GE_LOCK_WAIT, .GE_REQ_UNREACHABLE, .SY_CFG, .TN_ACC_DRAM_BYTES, .XT_RGN_BASE,
      .XT_RGN_REVOKES] ++ signalRegs ++ finishRegs ++ undoRegs ++ tierRegs ++ mediaRegs ++ uncorrRegs ++ scanRegs ++
      queryRegs ++ selectRegs ++ rowRegs)
  | .syValWrite .. | .syAdd .. =>
    some (signalRegs)
  | .arm .. =>
    some ([.XT_CONN_STATUS, .XT_TWR_CTL, .XT_TWR_ISSUED] ++ logRegs)
  | .disarm .. =>
    some ([.XT_TWR_CTL] ++ logRegs)
  | .opsEntryGrant =>
    some ([.XT_OPS_FULL_NS])
  | .policerCommit .. =>
    some ([.PL_COMMIT_REFUSED, .PL_POL_CTL] ++ logRegs)
  | .strictCommit .. =>
    some ([.PL_COMMIT_REFUSED, .PL_STRICT_CTL] ++ logRegs)
  | .shaperCommit .. =>
    some ([.PL_COMMIT_REFUSED, .PL_SHP_CTL] ++ logRegs)
  | .commit .. =>
    some ([.BD_GQ_POOL_HOLD, .BD_GQ_POOL_MAX, .BD_GQ_POSTED, .BD_STATUS, .BD_SVC, .BD_THR, .CF_SVC, .HG_CORE_SVC,
      .HQ_GRP_SHARD, .TN_BAND, .TN_CMP_COMMITS, .TN_CMP_CTL, .TN_CMP_EPOCH, .TN_CMP_REFUSED, .TN_PART, .XT_LANE_SVC] ++
      signalRegs ++ finishRegs ++ tierRegs)
  | .bandDrained .. =>
    some ([.BD_STATUS, .BD_THR, .TN_CMP_CTL, .TN_CMP_EPOCH])
  | .commitDrainLate .. =>
    some ([.BD_GQ_NOCTX_NS, .BD_REMOTE_TASKS, .BD_STATUS, .BD_TASKS, .CF_ABSENT, .CF_CHANNEL_DOWN, .CF_JOINED,
      .CF_NO_QUERY, .CF_QUEUE_FULL_NS, .CF_STATUS, .CF_TL_HOLDUP_SHORT, .CF_TL_MAP_MISS, .CF_TL_NAND_BYTES,
      .CF_TL_STATUS, .CF_UNREADABLE, .HG_MISSES, .SE_MG_STATUS, .TN_ACC_JOINED, .TN_CMP_LATE, .XT_RGN_CTL] ++ logRegs)
  | .autoEpoch =>
    some ([.BD_STATUS, .BD_SVC, .CF_SVC, .HG_CORE_SVC, .HQ_GRP_SHARD, .TN_CMP_AUTO, .TN_CMP_COMMITS, .TN_CMP_EPOCH,
      .XT_LANE_SVC] ++ logRegs)
  | .acquire .. =>
    some ([.TN_POOL_RECORDS_MAX, .XT_CONN_STATUS, .XT_TWR_CTL, .XT_TWR_ISSUED])
  | .renew .. | .park .. | .claim .. | .release .. =>
    some ([.TN_LEASE_CONFLICT, .TN_POOL_RECORDS_MAX, .XT_CONN_STATUS, .XT_TWR_CTL, .XT_TWR_ISSUED] ++ logRegs)
  | .reply .. =>
    some ([.TN_LEASE_CONFLICT, .TN_LEASE_LOST] ++ signalRegs ++ finishRegs ++ undoRegs ++ tierRegs ++ scanRegs ++
      queryRegs ++ updateRegs)
  | .leaseRenewTimer .. =>
    some ([.XT_CONN_STATUS, .XT_TWR_CTL, .XT_TWR_ISSUED])
  | .leaseExpiry .. =>
    some ([.BD_GQ_NOCTX_NS, .SE_MG_STATUS, .TN_LEASE_LOST, .TN_SHADOW_DONE, .TN_SHADOW_DROPPED, .TN_SHADOW_K_SUM,
      .TN_SHADOW_LOST, .TN_SHADOW_OVERLAP_SUM, .TN_SHADOW_SAMPLED, .XT_RGN_CTL] ++ signalRegs ++ finishRegs ++ undoRegs
      ++ tierRegs ++ scanRegs)
  | .watchdogSample .. =>
    some ([.BD_GQ_NOCTX_NS, .BD_REMOTE_TASKS, .BD_STATUS, .BD_TASKS, .CF_ABSENT, .CF_CHANNEL_DOWN, .CF_JOINED,
      .CF_NO_QUERY, .CF_QUEUE_FULL_NS, .CF_STATUS, .CF_TL_HOLDUP_SHORT, .CF_TL_MAP_MISS, .CF_TL_NAND_BYTES,
      .CF_TL_STATUS, .CF_UNREADABLE, .HG_MISSES, .SE_MG_STATUS, .TN_ACC_JOINED, .XT_RGN_CTL] ++ logRegs)
  | .dump =>
    some ([.DM_CTL, .DM_REFUSED])
  | .clear =>
    some ([.DM_CTL, .DM_INFO])
  | .errorWindowClose .. =>
    some ([.EL_OVERWRITTEN, .EL_RECORDS, .EL_SEQ])
  | .remove .. | .laneFailed .. =>
    some ([.BD_STATUS, .BD_SVC, .BD_THR, .HG_CORE_FAILOVERS, .HG_CORE_SVC, .XT_LANE_SVC] ++ logRegs)
  | .unitDrained .. =>
    some ([.BD_SVC, .BD_THR, .HG_CORE_SVC, .XT_LANE_SVC])
  | .returnUnit .. =>
    some ([.BD_GATED_NS, .BD_SVC, .BD_THR, .HG_CORE_SVC, .XT_LANE_SVC] ++ logRegs)
  | .unitSelfTestDone .. =>
    some ([.BD_SVC, .BD_THR, .HG_CORE_SVC, .HG_RTS_FAILED, .XT_LANE_SVC] ++ logRegs)
  | .unitShadowItem .. =>
    some ([.BD_SVC, .BD_THR, .HG_CORE_SVC, .HG_RTS_FAILED, .HG_RTS_PASSED, .XT_LANE_SVC] ++ logRegs)
  | .abortReturn .. =>
    some ([.BD_SVC, .BD_THR, .HG_CORE_SVC, .XT_LANE_SVC] ++ logRegs)
  | .coreWatchdog .. | .criticalTemperature .. =>
    some ([.BD_STATUS, .BD_SVC, .BD_THR, .HG_CORE_FAILOVERS, .HG_CORE_SVC, .XT_LANE_SVC])
  | .secverCommit | .resetNDeassert | .sysclkRestored =>
    some ([.HQ_START_STATUS])
  | .powerTick .. =>
    some ([.BD_THR])
  | .thermtrip .. =>
    some ([.DM_CTL])
  | .bandWake .. | .selfTest .. =>
    some ([.BD_GATED_NS, .BD_THR])
  | .selfTestComplete .. =>
    some ([.BD_THR] ++ logRegs)
  | .accessWidthRead .. =>
    some (logRegs)
  | .completionTimeout .. =>
    some ([.XT_CONN_STATUS, .XT_TWR_CTL, .XT_TWR_ISSUED] ++ finishRegs)
  | .foldProgramStatus .. =>
    some ([.CF_TL_FOLDS, .CF_TL_GC_MOVES, .CF_TL_NAND_BYTES, .CF_TL_RETIRED, .CF_TL_STATUS] ++ logRegs ++ faultRegs)

/-- Registers for whose writes an owning chapter gives a rule of its own. -/
def ownRule : List RegName :=
  [.HQ_IDX_CTL, .HQ_IDX_VER, .HQ_IDX_LIM, .PJ_RR_FMT, .CF_RR_FMT, .PJ_MAT, .PJ_DSCALE, .PJ_ZP, .CF_ZP, .GE_TBL_CTL,
   .GE_TBL_GEOM, .GE_TBL_VER, .GE_TBL_ROWS, .GE_HP_CTL, .TN_QUOTA_LIMIT, .TN_RG, .HQ_CTX_BIND, .HQ_CTX_CTL, .HQ_SQ_BASE,
   .HQ_CQ_BASE, .HQ_SQ_DB, .HQ_CQ_DB, .HQ_CG_CTL, .HQ_GRP_SHARD, .HQ_MB_CTL, .XT_CONN_CFG, .XT_CONN_CC, .XT_RGN_BASE, .XT_RGN_CTL,
   .XT_TWR_CTL, .XT_TWR_WIN, .XT_CFG, .SY_VAL, .SY_ADD, .PL_POL_CTL, .PL_STRICT_CTL, .PL_SHP_CTL, .TN_CMP_CTL, .DM_CTL,
   .BD_SVC, .XT_LANE_SVC, .HG_CORE_SVC, .CF_SVC, .BD_SNAP, .SE_SNAP, .GE_SNAP, .CF_SNAP, .XT_SNAP, .TN_ACC_SNAP]

/-! ### Commands of a host context -/

/-- What a command of context `c` meets at its admission: the policer (R298), RESULT_ADDR (R246) and the header (R246, R247).
The command as it is admitted, and the state it is admitted in; none where one of these turns it away. -/
def State.admitted? (s : State) (c : Nat) (m : Cmd) : Option (Cmd × State) :=
  let r := if m.policed then (Colour.ofBit m.yellow, s) else s.police 0 (s.ctxTenant c) (s.preColour c m) 1
  let m' := { m with admitted := some s.now, yellow := r.1 == .yellow, policed := true }
  let t := r.2.modCmd c m.seq fun _ => m'
  if r.1 = .red || !t.resultAddrOk c m' || !t.headerOk c m' then none else some (m', t)

/-- The command of context `c` whose turn it is, when it has opcode `op` and passes its admission. -/
def State.admission (s : State) (c op : Nat) : Option (Cmd × State) := (s.frontOp c [op]).bind (s.admitted? c)

/-- The completions of context `c` go to its ring: it is no fabric context, and no port reset has silenced it. -/
def State.toRing (s : State) (c : Nat) : Bool := !s.isFabric c && !(s.ctx c).silent

/-- No command of context `c` has an undefined opcode (R247): none completes at its turn by itself. -/
def State.allDefined (s : State) (c : Nat) : Bool := (s.ctx c).cmds.all fun y => definedOp (dOpcode y.bytes)

/-- The command has left context `c` and its completion carries this status. -/
def State.ended (s : State) (c : Nat) (m : Cmd) (status : Nat) : Bool :=
  (s.cmd? c m.seq).isNone && (s.ctx c).done.any fun d =>
    d.seq == m.seq && d.status == status && d.opcode == dOpcode m.bytes && d.commandId == dCommandId m.bytes

/-- Where the next completion entry of context `c` is stored: the key of its first byte in host memory (R243, R252). -/
def State.entryKey (s : State) (c : Nat) : Nat :=
  hostKey (s.ctxPort c) (s.fld fHQ_CQ_BASE_BASE c 0 * 4096 + 32 * (s.ctx c).cqTail)

/-- No search with a per-query bitmap is in flight in the context before this one, or it brings none itself (R98). -/
def State.searchAlone (t : State) (c : Nat) (m : Cmd) : Bool :=
  decide (filterMode (qFilter m.bytes) < 2)
    || !(t.qry.queries.any fun e => e.2.ctx == c && !e.2.isShadow && decide (2 ≤ filterMode e.2.filter))

/-- The search `m`, admitted in `t`, is in `u` a query that waits for its encode or its probe (R251, R70, R127). -/
def State.hasEntered (u t : State) (c : Nat) (m : Cmd) : Prop :=
  let x := t.makeQuery c m (t.checkSearch c m).2 (qBudgetUs m.bytes)
  u.query m.seq = some { x with sampled := (t.sample x).1 } ∧
    if qForm m.bytes = 2 then m.seq ∈ u.qry.encodeQ.getD [] x.home
    else (m.seq, t.now) ∈ (u.qry.probe.getD {} x.home).waiting

/-- The update `m` of context `c`, of opcode `op`, is no group command and passes the checks made before its entries are
read (R159). -/
def State.updateFits (t : State) (c op : Nat) (m : Cmd) : Bool :=
  dOpcode m.bytes == op && !dGroup m.bytes && (t.group? m.seq).isNone && (t.job? m.seq).isNone && (t.updStatus c m).1 == 0

/-- `t` once the encodes that wait at the home die are done, where the entries are vectors (R130). -/
def State.served (t : State) (c : Nat) (m : Cmd) : State :=
  let die := t.pickHome (t.ctxPn c)
  if uForm m.bytes = 0 then t.serveEncodes die (t.qry.encodeQ.getD [] die).length else t

/-- The entries of an INSERT or REWRITE, read where its version was captured. -/
def State.makes (t : State) (c : Nat) (m : Cmd) : List UEntry :=
  (t.served c m).entries c (t.updStatus c m).2 (t.pickHome (t.ctxPn c)) m

/-- What a REWRITE retires. -/
def State.retires (t : State) (c : Nat) (m : Cmd) : List Nat := retiredOf (dOpcode m.bytes) (t.makes c m)

/-- The entries of an INSERT or REWRITE pass their checks, and its new slots find places, charges, flash units and resident
lists: what placing them gives (R159 to R161, R217, R224). -/
def State.placesAll? (t : State) (c : Nat) (m : Cmd) : Option (Placed × State) :=
  let k := (t.updStatus c m).2
  let op := dOpcode m.bytes
  let form := uForm m.bytes
  let die := t.pickHome (t.ctxPn c)
  let u := t.served c m
  let es := t.makes c m
  let retire := t.retires c m
  if u.cmd? c m.seq == some m && (u.group? m.seq).isNone && (u.job? m.seq).isNone
      && (u.version k).succ.all (fun v => verKey (k / 4) v != k) && es.all (u.makeOk k die op form)
      && decide (retire.length ≤ 65536) && decide (u.retireNeeds k retire ≤ retireRoom u) then
    (u.placeEntries k die op form (u.ctx c).key ((List.range es.length).zip es) {}).filter fun r =>
      chargesFit u (r.2.reserve r.1) && r.1.slots.all fun n => ((u.version n.ver).list n.cluster).rstate == 0
  else none

/-- The slots of a job once those ready are written: their records are durable, and the slots before them of the entry are
written (R46, R161). -/
def readySlots (ns : List NewSlot) : List NewSlot :=
  ns.foldl (fun acc x => acc ++ [{ x with written := x.written || (x.durable &&
    (acc.filter fun y => y.ver == x.ver && y.entry == x.entry).all (·.written)) }]) []

/-- How many of them that writes. -/
def readyCount (ns : List NewSlot) : Nat :=
  ((readySlots ns).filter (·.written)).length - (ns.filter (·.written)).length

/-- References that the entries of a DELETE, BITS_SET or BITS_CLEAR name. -/
def State.namedRefs (t : State) (c : Nat) (m : Cmd) : List Nat := (t.entries c (t.updStatus c m).2 0 m).map (·.oldA)

/-- The rows that a swap of the hatpin set to some rows of a table version loads (R145). -/
def State.swapEnters (t : State) (tb v : Nat) (rows : List Nat) : List Nat :=
  let h := t.tbl.hatpin
  if h.table = tb ∧ h.vslot = v then rows.filter fun r => (h.rows.get? r).isNone else rows

/-- The version slot that an INDEX_BUILD takes, when it passes the checks of R29 and R409. -/
def State.buildSlot? (t : State) (c : Nat) (m : Cmd) : Option Nat :=
  let b := m.bytes
  let n := gTarget b
  let held := (List.range 4).filter fun v => (t.version (verKey n v)).holds
  if generalOk b && t.isOn fHQ_IDX_CTL_ENABLE n 0 && decide (t.centBits n ≤ t.codeBits n) && (gOptA b || !gOptB b)
      && (!gOptA b || t.idxValid n (t.fld fHQ_IDX_CTL_CURRENT n 0))
      && !held.any (fun v => t.fld fHQ_IDX_VER_VERSION n v == gVersion b) && t.buildFits n (gArg b / 2 ^ 14) (gCount b)
      && (gAddrB b == 0 || (placement (t.rdN (t.ctxPort c) (gAddrB b) (gCount b))).isSome)
  then firstFit (fun v => !held.contains v) 4 else none

/-- The centroids that an INDEX_BUILD reads (R409). -/
def State.buildCents (t : State) (c : Nat) (m : Cmd) : List Code :=
  let cb := t.centBits (gTarget m.bytes) / 8
  (List.range (gCount m.bytes)).map fun i => BitVec.ofNat 1024 (leNat (t.rdN (t.ctxPort c) (gAddrA m.bytes + cb * i) cb))

/-- The bitmaps that the new version inherits (R409). -/
def State.buildStd (t : State) (m : Cmd) : BitVec 16 :=
  let n := gTarget m.bytes
  if gOptA m.bytes then (t.version (verKey n (t.fld fHQ_IDX_CTL_CURRENT n 0))).stdMask else 0

/-- The charges of an INDEX_BUILD in slot `v` fit (R217); where its clusters go does not matter to them. -/
def State.buildCharged (t : State) (c : Nat) (m : Cmd) (v : Nat) : Bool :=
  let b := m.bytes
  let n := gTarget b
  let u := t.buildVersion n v (gArg b / 2 ^ 14) (gVersion b) (t.ctxTenant c) (t.buildCents c m) [] (t.buildStd m)
  chargesFit t (if gOptA b then u.makeSuccessor n (t.fld fHQ_IDX_CTL_CURRENT n 0) v (gOptB b) else u)

/-! ### Packets received -/

/-- A packet that path 0 accepts as the next one, with no packet kept behind a gap (R268, R271, R293). -/
def State.accepts (s : State) (p : Pkt) : Bool :=
  let x := s.conn p.dstConn
  s.pktOk p && ((s.policeIn p).1 || !isData p.opcode) && p.psn == x.rxPsn && x.kept == []

/-- It is also the next message of its connection, and no message waits. -/
def State.inOrder (s : State) (p : Pkt) : Bool :=
  let x := s.conn p.dstConn
  s.accepts p && p.msn == x.rxMsn && decide (p.msn < 2 ^ 32) && x.rxAbove == [] && x.waiting == []
    && (x.rx? p.msn false).isNone

/-- A packet of a multipath message that is taken in, the first of its message: it finds an entry of the table (R275). -/
def State.opensMp (s : State) (p : Pkt) : Bool :=
  let x := s.conn p.dstConn
  s.pktOk p && (s.policeIn p).1 && p.mp && (x.rx? p.msn false).isNone && !x.isDone p.msn
    && decide (s.mpUsed (s.connDie p.dstConn) < 4096)

/-- From `s` to `t` connection `c` has sent an ACK or NAK packet of this opcode and kind, when its port is up (R268). -/
def State.hasAnswered (t s : State) (c op kind msn status : Nat) : Bool :=
  let port := s.fld fXT_CONN_CFG_PORT c 0
  !s.portUp (s.connDie c) port || (t.out.drop s.out.length).any fun m => match m with
    | .packet d o q _ => d == s.connDie c && o == port && q.opcode == op && q.kind == kind && q.ackMsn == msn
        && q.status == status && q.dstConn == s.fld fXT_CONN_CFG_PEER_CONN c 0
    | _ => false

/-- Bytes from a die-local address on that do not run over the end of the address space. -/
def noWrap (a n : Nat) : Bool := decide (a % 2 ^ 40 + n ≤ 2 ^ 40)

/-! ### Resets, starts and invocations -/

/-- A device reset that is asked for now goes through at once: the device serves, none is in progress, no dump is taken first,
and no flush is waited for (R329, R331, R401). -/
def State.mayRestart (s : State) : Bool :=
  s.mode == 1 && !s.ras.resets.any (·.domain == 5) && !s.isOn fDM_CTL_ON_RESET 0 0 && s.pins.pwrLossN

/-- Every domain has been reset, and the start has not begun (R329, step 6): no context is open and no command is held. -/
def State.restarting (t : State) : Prop :=
  t.ras.resets.map (fun r => (r.domain, r.phase)) = [(5, 2)] ∧ (∀ c, t.ctxState c = 0 ∧ (t.ctx c).cmds = []) ∧ t.mode = 0

/-- The search `x`, held for its context's ring as `m`, is of no group and no other kind of job (R251). -/
def State.ringSearch (s : State) (q : Nat) (x : Query) (m : Cmd) : Prop :=
  s.query q = some x ∧ x.isShadow = false ∧ x.group = none ∧ s.cmd? x.ctx q = some m ∧ s.toRing x.ctx = true ∧
    s.group? q = none ∧ s.job? q = none ∧ (s.tbl.tblJobs.find? (·.seq == q)) = none

/-- A start that fails now, with this REASON: its entry is closed, and the next start has begun, or mitten mode is entered once
three starts have failed (R349, R351, R352). -/
def State.startFailed (t s : State) (reason : Nat) : Prop :=
  (3 ≤ s.boot.fails → t.mode = 2 ∧ t.boot.startNo = s.boot.startNo) ∧
  (s.boot.fails < 3 → s.mayStart = true → t.mode = 0 ∧ t.startStep = 0 ∧ t.start.running = true ∧
    t.boot.startNo = s.boot.startNo + 1 ∧ t.boot.fails = s.boot.fails + 1) ∧
  (s.boot.history ≠ [] → (s.boot.fails < 3 → s.mayStart = true) →
    (t.boot.history[1]?).map (fun e => (e.outcome, e.step, e.reason)) = some (2, s.startStep, reason))

/-- Every invocation of a command object that ran in `s` has ended in `t`, with this status and result (R363). -/
def State.told (t s : State) (index sub status : Nat) (result : List Byte) : Prop :=
  ∀ x ∈ s.dict.running, x.index = index → x.sub = sub → x.ended = none → ∃ y ∈ t.dict.running,
    y.path = x.path ∧ y.index = index ∧ y.sub = sub ∧ y.ended = some t.now ∧ y.status = status ∧ y.result = result

/-- The request `m` is taken: the server runs, the request arrives whole, and no check common to every request fails (R361,
R365, R373). -/
def State.takes (s : State) (m : NxMsg) (r : ObjRow) : Prop :=
  s.serverUp = true ∧ s.arrives m = true ∧ (m.path = 3 → m.exact = true) ∧ s.firstFail m = .inr r

/-- The answer to a request that came by MCTP or the management port: the newest message sent; to one of a mailbox: DONE is set
and BUSY is clear. `f` says what holds of its bytes (R360, R376). -/
def State.answers (t s : State) (m : NxMsg) (f : List Byte → Prop) : Prop :=
  (2 ≤ m.path → ∃ b, t.out = s.out ++ [.nirrex m.path (nxDest m) (nxBody m.path b)] ∧ fieldAt b 2 2 = m.tag % 2 ^ 16 ∧
    fieldAt b 4 2 = m.index % 2 ^ 16 ∧ fieldAt b 6 1 = m.sub % 256 ∧ f b) ∧
  (m.path < 2 → t.isOn fHQ_MB_CTL_DONE m.path 0 = true ∧ t.isOn fHQ_MB_CTL_BUSY m.path 0 = false)

end Sys2Proof.Machine
end

