-- ==== Sys2Proof/WellFormed.lean ====
section
/-! DEFINITION. Well-formed commands: every operand names a unit, an object or a value that exists (R5, R7, R63, R266, R268,
R317, R360). A command that is not well formed stands for nothing outside the device. -/

namespace Sys2Proof

/-! ### Numbers of units and objects -/

def ctxNum (c : Nat) : Bool := decide (c < 256)
def crownNum (die : Nat) : Bool := decide (die < 5)
def bandNum (band : Nat) : Bool := decide (band < 50)
def chanNum (ch : Nat) : Bool := decide (ch < 32)
def fabricNum (die : Nat) : Bool := decide (die < 2)
def portNum (port : Nat) : Bool := decide (port < 2)
def tenantNum (t : Nat) : Bool := decide (t < 256)
def indexNum (n : Nat) : Bool := decide (n < 16)
def tableNum (t : Nat) : Bool := decide (t < 32)
def slotNum (v : Nat) : Bool := decide (v < 4)
def memberNum (m : Nat) : Bool := decide (m < 64)
def connNum (c : Nat) : Bool := decide (c < 8192)
def syncNum (i : Nat) : Bool := decide (i < 16384)
def twrNum (i : Nat) : Bool := decide (i < 32768)
def regionNum (r : Nat) : Bool := decide (r < 65536)

/-- How many units of each kind of R317 the device has. -/
def unitCount : List Nat := [1, 5, 50, 32, 1, 2, 20, 18, 4, 2]

def UnitId.exists (u : UnitId) : Bool := decide (u.num < unitCount.getD u.kind 0)

/-- The copy of a register that two indices name. -/
def regCopy (r : RegName) (i j : Nat) : Bool := decide (i < (RegName.dims r).1) && decide (j < (RegName.dims r).2)

/-- A value fits the width of the register. -/
def regValue (r : RegName) (v : W64) : Bool := decide (v.toNat < 2 ^ RegName.width r)

/-- The widths of an access (R7). -/
def accessWidth (w : Nat) : Bool := w == 8 || w == 16 || w == 32 || w == 64

def wordFits (w n : Nat) : Bool := decide (n < 2 ^ w)

/-! ### Keys, packets, messages -/

/-- Every field of a received packet has the width of its header (R268). -/
def Pkt.wf (p : Pkt) : Bool :=
  fabricNum p.die && wordFits 3 p.port && wordFits 8 p.ver && wordFits 8 p.opcode && wordFits 13 p.dstConn
    && wordFits 13 p.srcConn && wordFits 8 p.inc && wordFits 32 p.psn && wordFits 32 p.msn && wordFits 32 p.offset
    && wordFits 32 p.msgLen && wordFits 64 p.txTs && wordFits 32 p.handle && wordFits 64 p.addr && wordFits 14 p.sync
    && wordFits 8 p.sendType && wordFits 32 p.ackPsn && wordFits 32 p.ackMsn && wordFits 32 p.nakOffset
    && wordFits 8 p.status && wordFits 8 p.kind && wordFits 64 p.echoTs && decide (p.payload.length ≤ 4096)

/-- The fields of a request of R360, on one of the four paths. -/
def NxMsg.wf (m : NxMsg) : Bool :=
  decide (m.path < 4) && wordFits 8 m.op && wordFits 16 m.tag && wordFits 16 m.index && wordFits 8 m.sub
    && wordFits 32 m.offset && decide (m.data.length ≤ 1024) && wordFits 8 m.requester && wordFits 64 m.seq
    && (m.mac.length == if m.auth then 32 else 0) && decide (m.port < 2) && wordFits 128 m.dstIp && wordFits 16 m.dstPort
    && wordFits 128 m.srcIp && wordFits 16 m.srcPort

/-- A key of R63. -/
def GKey.wf (k : GKey) : Bool := indexNum k.index && slotNum k.vslot && decide (k.pn < 64)

/-- The header of an image set has 4,096 bytes, its directory 32 entries (R344). -/
def ImageInfo.wf (i : ImageInfo) : Bool := i.header.length == 4096 && i.same.length == 32

/-! ### Commands -/

/-- A well-formed command. -/
def Instr.wf (c : Instr) : Bool :=
  match c with
  | .registerWrite r i j width _ value _ => regCopy r i j && accessWidth width && wordFits width value.toNat
  | .accessWidthRead r i j width _ _ => regCopy r i j && accessWidth width
  | .readClear r i j _ => regCopy r i j
  | .snap r i value => regCopy r i 0 && regValue r value
  | .sqDoorbell c tail port func _ => ctxNum c && wordFits 16 tail && portNum port && wordFits 7 func
  | .cqDoorbell c head port func _ => ctxNum c && wordFits 16 head && portNum port && wordFits 7 func
  | .contextOpen c _ _ | .contextClose c _ _ | .nop c | .logRead c | .listCopy c | .defineBitmap c | .indexRetire c
  | .promote c | .demote c | .hatpinFlush c | .tableRetire c | .msixCoalesceTimeout c => ctxNum c
  | .descriptorFetch c _ _ | .search c _ | .insert c _ | .delete c _ | .rewrite c _ | .bitsSet c _ | .bitsClear c _
  | .indexBuild c _ | .scheduleLoad c _ | .tableUpdate c _ | .gatherDot c _ _ | .rowRead c _ _ | .rowWrite c _
  | .hatpinSwap c _ => ctxNum c
  | .cancel c seq => ctxNum c && wordFits 64 seq
  | .completionTimeout c _ _ => ctxNum c
  | .functionLevelReset port func => portNum port && wordFits 7 func
  | .take g port _ _ => decide (g < 16) && portNum port
  | .perstAssert port | .perstDeassert port => portNum port
  | .setEndpointId port eid => portNum port && wordFits 8 eid
  | .getEndpointId port | .getMctpVersionSupport port | .getMessageTypeSupport port
  | .getVendorDefinedMessageSupport port => portNum port
  | .subQuery conn | .groupAnswer conn | .shardCopyStream conn | .shardListLanded conn _ | .partialSumRequest conn _
  | .keepaliveSend conn | .keepaliveLoss conn | .packetHoldExpiry conn | .ackDelayExpiry conn | .retransmitTimeout conn
  | .packetDepart conn | .connect conn _ | .connectionReset conn => connNum conn
  | .acquire conn | .renew conn | .park conn | .claim conn | .release conn | .reply conn => connNum conn
  | .busyResend conn msn | .messageHoldExpiry conn msn => connNum conn && wordFits 32 msn
  | .memberLost m => memberNum m
  | .queryEncode die | .probePassLaunch die | .probePassComplete die | .heldPairPost die | .dieMergePartial die
  | .dieMergeFlush die _ | .scoreRecord die | .degradedRead die _ | .rebuiltSector die | .rowLockGrant die
  | .stripeWrite die _ | .recordAppend die => crownNum die
  | .launchByExpiry die k | .queueLaunch die k _ => crownNum die && k.wf
  | .criticalTemperature die => decide (die < 40)
  | .tileBind band | .laneReduction band | .bandDrained band | .commitDrainLate band | .bandWake band => bandNum band
  | .queryVectorLoad ch die | .candidateRequest ch die => chanNum ch && crownNum die
  | .planeOpIssue ch _ | .pageDecode ch _ _ | .lingerExpiry ch _ | .flashRecordDurable ch | .openSectorTimeout ch _
  | .detach ch _ | .channelFault ch _ | .detachDrainEnd ch | .attach ch _ | .abortAttach ch _
  | .channelSelfTestDone ch _ _ | .rebuildSector ch _ | .channelShadowRecord ch _ | .carrierPresenceChange ch _
  | .stagingTimeout ch | .fold ch _ | .tlCheckpoint ch | .gcUnitCopy ch _ | .gcErase ch _ _ | .healthRecheck ch
  | .flashTimeRecord ch | .flushComplete ch | .foldProgramStatus ch _ _ | .refreshAgeReached ch _
  | .healthTemperatureSample ch _ | .carrierPowerSettled ch => chanNum ch
  | .versionFree n v | .schedulePromotion n v | .promotionComplete n v _ _ | .demotionComplete n v _ _ =>
    indexNum n && slotNum v
  | .promotionRetry n v _ tenant => indexNum n && slotNum v && tenantNum tenant
  | .indexVersionSwitch n value _ => indexNum n && regValue .HQ_IDX_CTL value
  | .tableVersionFree t v => tableNum t && slotNum v
  | .tableVersionSwitch t value _ => tableNum t && regValue .GE_TBL_CTL value
  | .heatHalving tenant => tenantNum tenant
  | .quotaLimitWrite tenant tier value _ => regCopy .TN_QUOTA_LIMIT tenant tier && regValue .TN_QUOTA_LIMIT value
  | .grantFailed g how =>
    regCopy .TN_RG g 0 && match how with
      | .revoking => true
      | .failed cause => wordFits 8 cause
  | .patrolScrub stack _ _ _ | .mr4Sample stack _ => decide (stack < 20)
  | .write p | .writeSignal p | .readReq p | .readRsp p | .send p | .signal p | .ack p | .msgDone p | .nakSeq p | .nakMsg p
  | .nakStatus p | .busy p | .keepalive p | .gauntletAbort p | .gauntletRelease p => p.wf
  | .pfcPause die port cls _ | .pfcPauseExpiry die port cls => fabricNum die && wordFits 3 port && wordFits 3 cls
  | .validate r _ | .revoke r _ | .revocationComplete r => regionNum r
  | .syValWrite i _ | .syAdd i _ => syncNum i
  | .arm slot _ | .disarm slot _ => twrNum slot
  | .policerCommit p t value _ => regCopy .PL_POL_CTL p t && regValue .PL_POL_CTL value
  | .strictCommit k value _ => regCopy .PL_STRICT_CTL k 0 && regValue .PL_STRICT_CTL value
  | .shaperCommit sh t value _ => regCopy .PL_SHP_CTL sh t && regValue .PL_SHP_CTL value
  | .commit value _ => regValue .TN_CMP_CTL value
  | .reset u | .remove u _ | .unitDrained u | .returnUnit u _ | .unitSelfTestDone u _ _ _ | .unitShadowItem u _ _
  | .abortReturn u _ | .thermtrip u | .pllLossOfLock u | .selfTest u _ | .selfTestComplete u _ _ _ _ _
  | .sramUncorrectable u _ _ _ => u.exists
  | .errorWindowClose kind num _ => UnitId.exists ⟨kind, num⟩
  | .coreWatchdog k => decide (k < 4)
  | .laneFailed l _ => decide (l < 18)
  | .startStepComplete _ a b okUnits found =>
    a.wf && b.wf && (found.tiles.all fun f => decide (f.1 < 50) && decide (f.2 < 2 ^ 18)) && okUnits.all UnitId.exists
      && found.units.all UnitId.exists
  | .imageWrite _ image => image.wf
  | .read m | .nirrexWrite m | .describe m | .invoke m | .poll m | .go _ m _ => m.wf
  | .segmentTimeout path index sub => decide (path < 4) && wordFits 16 index && wordFits 8 sub
  | .resultHoldExpiry index sub => wordFits 16 index && wordFits 8 sub
  | .flashFormat goodUnits => goodUnits.length == 32
  | .flashTimeSet time => wordFits 64 time
  | .watchdogSample _ | .replay _ _ _ | .resetComplete _ _ | .resetWindowExpiry _ _ => true
  | .groupAnswerTimeout _ | .blockScan _ _ | .taskComplete _ | .taskCheckpoint _ | .checkpointDurable _ | .homeMerge _ _ _
  | .shadowTimeout _ | .fp16Reduction _ | .scanDeadline _ | .rerankBudgetEnd _ => true
  | .hatpinDrainEnd | .retiredSlotTombstone | .retireLateExpiry | .pwrLossAssert | .pwrLossDeassert | .opsEntryGrant
  | .bucketRefill | .autoEpoch => true
  | .leaseRenewTimer _ | .leaseExpiry _ | .poolLeaseExpiry _ => true
  | .spStartTimeout | .dump | .clear | .dumpReadTimeout | .dumpLimitExpiry | .errorIrqHoldoff | .abortedKeyExpiry => true
  | .powerOn | .stepTimeout | .provision | .secverCommit | .configReset | .save | .configSaveTimer => true
  | .attest _ | .imageVerify _ | .startRetry _ | .preferredSet _ => true
  | .arpRequest ip sip mac => wordFits 32 ip && wordFits 32 sip && wordFits 48 mac
  | .neighbourSolicitation target sender => wordFits 128 target && wordFits 128 sender
  | .powerTick _ | .sysclkLoss | .resetNAssert | .resetNDeassert | .sysclkRestored | .plcaBeacon | .resetFlushWaitExpiry => true
  | .bypass | .idcode | .samplePreload | .extest | .extestPulse | .extestTrain | .clamp | .highz | .tapReset => true

end Sys2Proof
end

