-- ==== Sys2Proof/Certificates/Slice0/Obligations.lean ====
section
/-! DEFINITION. What is claimed of the model, by family of commands. `Leads c s P` says that the command `c` leaves a next state
of which `P` holds. The frame of every command is `partsOf` and `regsOf` of Safety.lean, claimed once for all of them. -/

open Sys2Proof Sys2Proof.Machine

/-- A step carries out the command at the front of the queue (95_what_each_step_holds.md). -/
def Obligations.StepTakesTheFrontCommand : Prop :=
  ∀ c s, step { s with pending := c :: s.pending } = exec c s

/-- On an empty queue a nanosecond passes (the model's choice, log entry 1) (R26, R331). -/
def Obligations.AnEmptyQueueIdles : Prop :=
  ∀ s, s.pending = [] → ∃ t, step s = .next t ∧ t.pending = [] ∧ t.now = s.now + 1 ∧
    (s.dumpState ≠ 1 → t = { s with now := s.now + 1 })

/-- Every command answers a next state and leaves the queue alone (95_what_each_step_holds.md). -/
def Obligations.EveryCommandEndsInANextState : Prop :=
  ∀ c s, ∃ t, exec c s = .next t ∧ t.pending = s.pending

/-- Every step keeps the canonical form of the registers and memories and the bounds of the two rings (R321, R351). -/
def Obligations.EveryStepKeepsTheStateSound : Prop :=
  ∀ s t, s.sound = true → step s = .next t → t.sound = true

/-- The state after reset is sound, and nothing waits in its queue (R321, R351). -/
def Obligations.TheResetStateIsSound : Prop :=
  State.reset.sound = true ∧ State.reset.pending = []

/-- No step lowers SEC_FLOOR (R353). -/
def Obligations.NoCommandLowersTheSecurityFloor : Prop :=
  ∀ s t, step s = .next t → s.boot.secFloor ≤ t.boot.secFloor

/-- Device time never decreases but at power-on (R26). -/
def Obligations.OnlyPowerOnTurnsDeviceTimeBack : Prop :=
  (∀ s t, step s = .next t → s.pending.head? ≠ some .powerOn → s.now ≤ t.now) ∧
  ∀ s, Leads .powerOn s fun t => t.now = 0

/-- Every command changes only the parts of the state and the registers named for it (95_what_each_step_holds.md). -/
def Obligations.EveryCommandKeepsItsFrame : Prop :=
  ∀ c s t, exec c s = .next t → t.pending = s.pending ∧ (∀ p, p ∉ partsOf c → Part.same p s t) ∧
    ∀ rs, regsOf c = some rs → ∀ r, r ∉ rs → ∀ i j, t.reg r i j = s.reg r i j

/-- After reset every register copy has the value of its Reset column, and no context is open (R11, R323). -/
def Obligations.ResetLeavesEveryRegisterAtItsResetValue : Prop :=
  (∀ r i j, State.reset.reg r i j = regReset r i) ∧ State.reset.hostMem = [] ∧ State.reset.dram = [] ∧
  State.reset.hq.ctxs = [] ∧ State.reset.qry.queries = [] ∧ State.reset.net.conns = [] ∧ State.reset.idx.versions = [] ∧
  State.reset.mode = 0

/-- What a write leaves in each field of a register, by its access code (R8, R10). -/
def Obligations.RegisterWritesFollowTheAccessCodes : Prop :=
  ∀ r old v f, f ∈ RegName.fields r →
    let d : Fld := ⟨r, f.hi, f.lo⟩
    Fld.get d (writeValue r old v) = match f.acc with
      | .RW => if FieldRow.defined f (Fld.get d v) then Fld.get d v else Fld.get d old
      | .W1C => Fld.get d old - (Fld.get d old &&& Fld.get d v)
      | .W1S => Fld.get d old ||| Fld.get d v
      | _ => Fld.get d old

/-- REGISTER_WRITE, READ_CLEAR, ACCESS_WIDTH_READ and SNAP (R7, R8, R9, R72, R317, R319). -/
def Obligations.RegisterAccesses : Prop :=
  (∀ r i j w v loc s, copyExists r i j = true → s.barServes r i loc = true → widthOk r w true = true →
    r ∉ ownRule → (r = .HQ_MB_REQ → w = 32) →
    exec (.registerWrite r i j w true v loc) s = .next (s.writeReg r i j v)) ∧
  (∀ r i j w al v loc s, copyExists r i j = true → s.barServes r i loc = true → widthOk r w al = false →
    s.ras.errWins.find? (ErrWin.hasKey · 4 0 1) = none →
    Leads (.registerWrite r i j w al v loc) s fun t => (t.ras.errLog.head?.map (·.code)) = some 1 ∧
      Frame [.out, .ras] logRegs s t) ∧
  (∀ r i j n s, readClears r = true → s.viewed r i = false →
    exec (.readClear r i j n) s = .next ({ s with readData := s.reg r i j }.setReg r i j (BitVec.ofNat 64 n))) ∧
  (∀ r i j n s, readClears r = false →
    exec (.readClear r i j n) s = .next { s with readData := s.readReg r i j }) ∧
  (∀ r i j w al loc s, s.barServes r i loc = true → widthOk r w al = false →
    Leads (.accessWidthRead r i j w al loc) s fun t => t.readData = 0 ∧ Frame [.readData, .out, .ras] logRegs s t) ∧
  (∀ r i v s, Fld.get (fSnap r) v = 1 → r ∈ [RegName.BD_SNAP, .SE_SNAP, .GE_SNAP, .CF_SNAP, .XT_SNAP, .TN_ACC_SNAP] →
    Leads (.snap r i v) s fun t => t.fld (fSnapDone r) i 0 = 1 ∧ Frame [.shadowRegs] [r] s t ∧
      ∀ q a b, (q, a, b) ∈ (s.writeReg r i 0 v).snapped r i → t.shadowRegs.getD 0 (regKey q a b) = s.reg q a b)

/-- SQ_DOORBELL and CQ_DOORBELL move the ring pointers, or are discarded and counted (R242, R243, R264). -/
def Obligations.Doorbells : Prop :=
  (∀ c tail port func loc s, s.fromOwner c port func = true → s.ctxState c = 1 → tail < s.sqSize c →
    Leads (.sqDoorbell c tail port func loc) s fun t => (t.ctx c).sqTail = tail ∧ (∀ d, d ≠ c → t.ctx d = s.ctx d) ∧
      Frame [.hq] [.HQ_CTX_STATUS, .HQ_FETCH_HELD_NS] s t) ∧
  (∀ c tail port func loc s, ¬(s.fromOwner c port func = true ∧ s.ctxState c = 1 ∧ tail < s.sqSize c) →
    Leads (.sqDoorbell c tail port func loc) s fun t => t.hq = s.hq ∧
      t.reg .HQ_DB_DISCARDED 0 0 = s.reg .HQ_DB_DISCARDED 0 0 + 1) ∧
  (∀ c head port func loc s, s.fromOwner c port func = true → s.ctxState c = 1 ∨ s.ctxState c = 2 → head < s.cqSize c →
    ringDist (s.cqSize c) (s.ctx c).cqHead head ≤ ringDist (s.cqSize c) (s.ctx c).cqHead (s.ctx c).cqTail →
    Leads (.cqDoorbell c head port func loc) s fun t => (t.ctx c).cqHead = head ∧ (∀ d, d ≠ c → t.ctx d = s.ctx d) ∧
      Frame [.freeCount, .hostMem, .out, .hq, .ras]
        ([.HQ_CTX_STATUS, .HQ_CPL_WRITTEN, .HQ_DMA_ERR, .HQ_FETCH_HELD_NS] ++ logRegs) s t ∧
      ((s.ctx c).fates = [] → (s.ctx c).marker = none → t.hostMem = s.hostMem ∧
        (t.ctx c).done = (s.ctx c).done.drop (ringDist (s.cqSize c) (s.ctx c).cqHead head))) ∧
  (∀ c head port func loc s, s.fromOwner c port func = false →
    Leads (.cqDoorbell c head port func loc) s fun t => t.hq = s.hq ∧
      t.reg .HQ_DB_DISCARDED 0 0 = s.reg .HQ_DB_DISCARDED 0 0 + 1)

/-- CONTEXT_OPEN and CONTEXT_CLOSE (R10, R240, R241). -/
def Obligations.ContextsOpenAndClose : Prop :=
  (∀ c v loc s, s.ctxState c = 0 → s.reaches .HQ_CTX_CTL c loc = true → s.mode = 1 →
    s.isOn fHQ_CTX_BIND_V c 0 = true → ringsOk (s.nextCtl c v) = true →
    Leads (.contextOpen c v loc) s fun t => t.ctxState c = 1 ∧ t.isOn fHQ_CTX_CTL_OPEN c 0 = true ∧
      (∀ n, Fld.get fHQ_CTX_CTL_SQ_SZ v = n → t.fld fHQ_CTX_CTL_SQ_SZ c 0 = if n ≤ 12 then n else s.fld fHQ_CTX_CTL_SQ_SZ c 0) ∧
      (∀ n, Fld.get fHQ_CTX_CTL_CQ_SZ v = n → t.fld fHQ_CTX_CTL_CQ_SZ c 0 = if n ≤ 12 then n else s.fld fHQ_CTX_CTL_CQ_SZ c 0) ∧
      (t.ctx c).sqHead = 0 ∧ (t.ctx c).sqTail = 0 ∧ (t.ctx c).cqHead = 0 ∧ (t.ctx c).cqTail = 0 ∧ (t.ctx c).phase = true ∧
      (t.ctx c).key = Config.contextKey s.freeCount ∧ (t.ctx c).cmds = [] ∧ (t.ctx c).done = [] ∧
      ∀ d, d ≠ c → t.ctx d = s.ctx d) ∧
  (∀ c v loc s, s.ctxState c = 0 → s.reaches .HQ_CTX_CTL c loc = true →
    ¬(s.mode = 1 ∧ s.isOn fHQ_CTX_BIND_V c 0 = true ∧ ringsOk (s.nextCtl c v) = true) →
    Leads (.contextOpen c v loc) s fun t => t.ctxState c = 0 ∧ t.hq = s.hq ∧
      t.fld fHQ_CTX_CTL_OPEN c 0 = s.fld fHQ_CTX_CTL_OPEN c 0 ∧
      t.fld fHQ_CTX_CTL_IRQ_EN c 0 = Fld.get fHQ_CTX_CTL_IRQ_EN v ∧ t.fld fHQ_CTX_CTL_VECTOR c 0 = Fld.get fHQ_CTX_CTL_VECTOR v) ∧
  (∀ c v loc s, s.ctxState c = 1 → s.reaches .HQ_CTX_CTL c loc = true → s.toRing c = true →
    ((s.ctx c).cmds.map (·.seq)).Nodup →
    (∀ m ∈ (s.ctx c).cmds, s.group? m.seq = none ∧ s.job? m.seq = none ∧ s.query m.seq = none ∧
      s.tbl.tblJobs.find? (·.seq == m.seq) = none) →
    Leads (.contextClose c v loc) s fun t => t.ctxState c = 0 ∧ t.isOn fHQ_CTX_CTL_OPEN c 0 = false ∧ (t.ctx c).cmds = [] ∧
      (∀ m ∈ (s.ctx c).cmds, t.ended c m stTornDown = true) ∧ ∀ d, d ≠ c → t.ctx d = s.ctx d) ∧
  (∀ c v loc s, s.reaches .HQ_CTX_CTL c loc = false →
    exec (.contextOpen c v loc) s = .next s ∧ exec (.contextClose c v loc) s = .next s)

/-- FUNCTION_LEVEL_RESET, PERST_ASSERT, PERST_DEASSERT and TAKE (R241, R257, R376, R398). -/
def Obligations.PortsResetAndHandOver : Prop :=
  (∀ port func s, (∀ c, c < 256 → s.fromOwner c port func = true → (s.ctx c).cmds = []) →
    Leads (.functionLevelReset port func) s fun t =>
      (∀ c, c < 256 → s.fromOwner c port func = true → s.ctxState c = 1 → t.ctxState c = 0) ∧
      (∀ c, t.reg .HQ_CTX_BIND c 0 = s.reg .HQ_CTX_BIND c 0) ∧
      (func = 0 → t.isOn fHQ_MB_CTL_GO port 0 = false ∧ t.isOn fHQ_MB_CTL_BUSY port 0 = false ∧
        t.isOn fHQ_MB_CTL_DONE port 0 = false)) ∧
  (∀ port s, (∀ c, c < 256 → s.isOn fHQ_CTX_BIND_V c 0 = true → s.ctxPort c = port → (s.ctx c).cmds = []) →
    Leads (.perstAssert port) s fun t =>
      (∀ c, c < 256 → s.isOn fHQ_CTX_BIND_V c 0 = true → s.ctxPort c = port → s.ctxState c = 1 → t.ctxState c = 0) ∧
      (∀ c, t.reg .HQ_CTX_BIND c 0 = s.reg .HQ_CTX_BIND c 0) ∧
      t.pins = if port = 0 then { s.pins with perst0N := false } else { s.pins with perst1N := false }) ∧
  (∀ port s, exec (.perstDeassert port) s =
    .next { s with pins := if port = 0 then { s.pins with perst0N := true } else { s.pins with perst1N := true } }) ∧
  (∀ g port v loc s, port ≠ s.fld fHQ_CG_CTL_ACTIVE_PORT g 0 → port < 2 → Fld.get fHQ_CG_CTL_CMD v = 1 →
    s.isOn fHQ_CG_CTL_HANDOVER_EN g 0 = true → s.fld fHQ_CG_CTL_STATE g 0 = 0 → Fld.get fHQ_CG_CTL_NEW_FUNC v = 0 →
    Leads (.take g port v loc) s fun t => t.reg .HQ_HANDOVERS 0 0 = s.reg .HQ_HANDOVERS 0 0 + 1 ∧
      (∀ c, c < 256 → s.isOn fHQ_CTX_BIND_V c 0 = true → s.fld fHQ_CTX_BIND_CG c 0 = g → s.isFabric c = false →
        t.fld fHQ_CG_CTL_STATE g 0 = 2 ∧ t.ctxState c = 3 ∧ t.ctxPort c = port ∧ t.fld fHQ_CTX_BIND_FUNC c 0 = 0) ∧
      ((∀ c, c < 256 → s.isOn fHQ_CTX_BIND_V c 0 = true → s.fld fHQ_CTX_BIND_CG c 0 = g → s.isFabric c = true) →
        t.fld fHQ_CG_CTL_STATE g 0 = 0 ∧ t.fld fHQ_CG_CTL_ACTIVE_PORT g 0 = port)) ∧
  (∀ g v loc s, Leads (.take g (s.fld fHQ_CG_CTL_ACTIVE_PORT g 0) v loc) s fun t => Frame [.out, .ras] logRegs s t)

/-- DESCRIPTOR_FETCH, COMPLETION_TIMEOUT and MSIX_COALESCE_TIMEOUT (R238, R243, R244, R252). -/
def Obligations.FetchingAndInterrupts : Prop :=
  (∀ c e b s, s.mayFetch c = true → s.allDefined c = true →
    b = s.rdN (s.ctxPort c) (s.fld fHQ_SQ_BASE_BASE c 0 * 4096 + 64 * (s.ctx c).sqHead) 64 → definedOp (dOpcode b) = true →
    Leads (.descriptorFetch c true e) s fun t =>
      (t.ctx c).cmds = (s.ctx c).cmds ++ [{ seq := s.hq.nextSeq, fetchTime := s.now, bytes := b }] ∧
      (t.ctx c).sqHead = ((s.ctx c).sqHead + 1) % s.sqSize c ∧ t.hq.nextSeq = s.hq.nextSeq + 1 ∧
      t.reg .HQ_CMD_FETCHED 0 0 = s.reg .HQ_CMD_FETCHED 0 0 + 1 ∧ t.hostMem = s.hostMem ∧
      ∀ d, d ≠ c → t.ctx d = s.ctx d) ∧
  (∀ c e s, s.mayFetch c = true → Leads (.descriptorFetch c false e) s fun t =>
      (t.ctx c).sqHead = ((s.ctx c).sqHead + 1) % s.sqSize c ∧
      ((t.ctx c).done.getLast?.map fun d => (d.opcode, d.commandId, d.status, d.info)) =
        some (0xFF, 0xFFFF, stInvalid, (s.ctx c).sqHead) ∧
      (s.pins.hostRefused = [] → t.reg .HQ_DMA_ERR 0 0 = s.reg .HQ_DMA_ERR 0 0 + 1) ∧
      t.reg .HQ_CMD_INVALID 0 0 = s.reg .HQ_CMD_INVALID 0 0 + 1) ∧
  (∀ c seq a m s, s.cmd? c seq = some m → s.query seq = none → s.group? seq = none → s.job? seq = none →
    s.toRing c = true → Leads (.completionTimeout c seq a) s fun t => t.ended c m stInvalid = true ∧
      (s.pins.hostRefused = [] → t.reg .HQ_DMA_ERR 0 0 = s.reg .HQ_DMA_ERR 0 0 + 1)) ∧
  (∀ c s, 0 < (s.ctx c).irqCount → (s.ctx c).silent = false → 0 < s.fld fHQ_CTX_CTL_COAL_US8 c 0 → Leads (.msixCoalesceTimeout c) s fun t =>
    t.out = s.out ++ [.msix (s.ctxPort c) (s.fld fHQ_CTX_BIND_FUNC c 0) (s.fld fHQ_CTX_CTL_VECTOR c 0)] ∧
    (t.ctx c).irqCount = 0 ∧ t.now = max s.now ((s.ctx c).irqFirst + 8000 * s.fld fHQ_CTX_CTL_COAL_US8 c 0) ∧
    t.regs = (s.setCtx c { s.ctx c with irqCount := 0 }).regs ∧ ∀ d, d ≠ c → t.ctx d = s.ctx d)

/-- NOP, CANCEL and LOG_READ (R111, R244, R247, R252, R256). -/
def Obligations.CommandsThatEndAtOnce : Prop :=
  (∀ c s m t, s.admission c 0x00 = some (m, t) → s.allDefined c = true → s.toRing c = true →
    ((m.bytes.drop 16).all (· == 0)) = true → s.fld fHQ_CQ_BASE_BASE c 0 * 4096 + 32 * (s.ctx c).cqTail + 32 ≤ 2 ^ 64 →
    Leads (.nop c) s fun u => u.ended c m 0 = true ∧ SameOutside (s.entryKey c) 32 s.hostMem u.hostMem) ∧
  (∀ c seq s m m' t, ((s.ctx c).cmds.find? fun y => y.seq == seq && dOpcode y.bytes == 0x02 && y.admitted.isNone) = some m →
    s.cancelTurn c seq = true → s.admitted? c m = some (m', t) → generalOk m'.bytes = true → gCount m'.bytes < 65536 →
    s.allDefined c = true → s.toRing c = true → t.cancelTarget c seq (gCount m'.bytes) = none →
    Leads (.cancel c seq) s fun u => u.ended c m' 0 = true ∧
      u.reg .HQ_CANCELS 0 0 = s.reg .HQ_CANCELS 0 0) ∧
  (∀ c seq s m m' t y, ((s.ctx c).cmds.find? fun y => y.seq == seq && dOpcode y.bytes == 0x02 && y.admitted.isNone) = some m →
    s.cancelTurn c seq = true → s.admitted? c m = some (m', t) → generalOk m'.bytes = true → gCount m'.bytes < 65536 →
    s.allDefined c = true → s.toRing c = true → t.cancelTarget c seq (gCount m'.bytes) = some y →
    dOpcode y.bytes = 0x01 → y.admitted = none →
    Leads (.cancel c seq) s fun u => u.ended c m' 0 = true ∧ (u.cmd? c y.seq).any (·.cancelled) = true ∧
      u.reg .HQ_CANCELS 0 0 = s.reg .HQ_CANCELS 0 0 + 1) ∧
  (∀ c s m t, s.admission c 0x03 = some (m, t) → s.allDefined c = true → s.toRing c = true → generalOk m.bytes = true →
    0 < gCount m.bytes → gCount m.bytes ≤ 64 → Leads (.logRead c) s fun u => u.ended c m 0 = true ∧
      (u.shadow (t.ctxPn c)).readUpTo = max (t.shadow (t.ctxPn c)).readUpTo
        ((((((t.shadow (t.ctxPn c)).log.filter fun e => decide (gArg m.bytes ≤ e.seq)).take (gCount m.bytes)).getLast?).map
          (·.seq + 1)).getD 0))

/-- SEARCH and SUB_QUERY: a search that passes its checks enters its cascade; one that fails a check completes with
its status (R27, R49, R108, R231, R251, R261). -/
def Obligations.SearchesAreAdmitted : Prop :=
  (∀ c s m t, s.admission c 0x01 = some (m, t) → s.allDefined c = true → t.searchAlone c m = true →
    (t.checkSearch c m).1 = 0 → m.cancelled = false → dGroup m.bytes = false →
    Leads (.search c true) s fun u => u.hasEntered t c m) ∧
  (∀ conn s r s1 c s2 m t, s.takeSend conn 0 = some (r, s1) → s1.receiveCmd conn r = (some c, s2) →
    s2.admission c 0x01 = some (m, t) → s2.allDefined c = true → t.searchAlone c m = true →
    (t.checkSearch c m).1 = 0 → m.cancelled = false → dGroup m.bytes = false →
    Leads (.subQuery conn) s fun u => u.hasEntered t c m) ∧
  (∀ c s m t, s.admission c 0x01 = some (m, t) → s.allDefined c = true → s.toRing c = true → t.searchAlone c m = true →
    (t.checkSearch c m).1 ≠ 0 →
    Leads (.search c true) s fun u => u.ended c m (t.checkSearch c m).1 = true ∧ u.qry = t.qry ∧
      u.reg .TN_ACC_QUERIES (s.ctxTenant c) 0 = s.reg .TN_ACC_QUERIES (s.ctxTenant c) 0 + 1) ∧
  (∀ c s m t, s.admission c 0x01 = some (m, t) → s.allDefined c = true → s.toRing c = true → t.searchAlone c m = true →
    Leads (.search c false) s fun u => u.ended c m stInvalid = true ∧
      (s.pins.hostRefused = [] → u.reg .HQ_DMA_ERR 0 0 = s.reg .HQ_DMA_ERR 0 0 + 1) ∧ u.qry = t.qry) ∧
  (∀ c s m t, s.admission c 0x01 = some (m, t) → s.allDefined c = true → t.searchAlone c m = true →
    (t.checkSearch c m).1 = 0 → m.cancelled = false → dGroup m.bytes = true → t.leased = true →
    Leads (.search c true) s fun u => u.hq.nextReqSeq = (t.hq.nextReqSeq + 1) % 2 ^ 48 ∧
      (∃ g ∈ u.hq.groups, g.seq = m.seq ∧ g.opcode = 1 ∧ g.key = t.nextKey ∧ g.k = qK m.bytes) ∧
      u.query m.seq = some { t.makeQuery c m (t.checkSearch c m).2 (if qBudgetUs m.bytes = 0 then 0 else t.memberBudget m.bytes)
        with group := some m.seq, stage := .lease })

/-- QUERY_ENCODE, PROBE_PASS_LAUNCH and PROBE_PASS_COMPLETE (R70, R71, R72, R126, R127). -/
def Obligations.QueriesAreEncodedAndProbed : Prop :=
  (∀ die s q x, s.dieReset die = false → s.nextEncode die = some q → s.query q = some x → x.group = none →
    Leads (.queryEncode die) s fun t => t.reg .PJ_ENC_QUERY die 0 = s.reg .PJ_ENC_QUERY die 0 + 1 ∧
      (q, s.now) ∈ (t.qry.probe.getD {} x.home).waiting ∧
      ∃ y, t.query q = some y ∧ y.stage = .probe ∧ y.code = (s.encodeCode die x.ver x.fp16).1) ∧
  (∀ die s k qs, s.dieReset die = false → (s.qry.probe.getD {} die).pass = [] →
    firstBatch ((s.probeBatches die).filter fun b => decide (128 ≤ b.2.length) ||
      decide (oldestOf b.2 + us * s.fld fBD_PR_CFG_PROBE_WINDOW_US die 0 ≤ s.now)) = some (k, qs) →
    Leads (.probePassLaunch die) s fun t => t.now = s.now ∧
      (t.qry.probe.getD {} die).pass = (qs.take 128).map (·.1) ∧ (t.qry.probe.getD {} die).started = s.now ∧
      (∀ e ∈ (t.qry.probe.getD {} die).waiting, e ∈ (s.qry.probe.getD {} die).waiting ∧ e.1 ∉ (qs.take 128).map (·.1)) ∧
      t.reg .BD_PR_PASSES die 0 = s.reg .BD_PR_PASSES die 0 + 1 ∧
      t.reg .BD_PR_QUERIES die 0 = s.reg .BD_PR_QUERIES die 0 + BitVec.ofNat 64 (qs.take 128).length ∧
      Frame [.now, .qry] [.BD_PR_PASSES, .BD_PR_QUERIES, .BD_PR_CYC] s t) ∧
  (∀ die s q qs x, s.dieReset die = false → (s.qry.probe.getD {} die).pass = q :: qs → s.query q = some x →
    Leads (.probePassComplete die) s fun t => (t.qry.probe.getD {} die).pass = [] ∧
      t.now = max s.now ((s.qry.probe.getD {} die).started +
        probeCycles (s.centBits (x.ver / 4)) (s.version x.ver).count * 5 / 4) ∧
      (qs = [] → ∃ y, t.query q = some y ∧ y.inProbe = false ∧
        y.ranks = (rankClusters (s.centBits x.index) (s.version x.ver).cents x.code).take (max x.nProbe x.ceil)))

/-- HELD_PAIR_POST, LAUNCH_BY_EXPIRY, QUEUE_LAUNCH and TILE_BIND (R64, R65, R66, R72, R97, R408). -/
def Obligations.PairsGatherAndLaunch : Prop :=
  (∀ die s h, ((s.qry.held.getD [] die).find? fun h => decide ((s.pairPool h.die h.key.pn).length < s.poolSize h.key.pn)) = some h →
    (s.query h.q).isSome = true →
    Leads (.heldPairPost die) s fun t => t.qry.held.getD [] die = (s.qry.held.getD [] die).erase h ∧
      (∃ p ∈ (t.gq h.die h.key).pairs, p.q = h.q ∧ p.rank = h.rank ∧ p.tPost = s.now) ∧
      t.reg .BD_GQ_POSTED h.die h.key.pn = s.reg .BD_GQ_POSTED h.die h.key.pn + 1) ∧
  (∀ die k s p, lowestLb (s.gq die k).pairs = some p → Leads (.launchByExpiry die k) s fun t =>
      t.now = max s.now p.lb ∧ (t.gq die k).trig.isSome = true ∧ (t.gq die k).pairs = (s.gq die k).pairs ∧
      Frame [.now, .qry] [] s t) ∧
  (∀ die k e s band id rest y, s.launchBand k.pn die = some band → (s.gq die k).resumable = id :: rest →
    s.task? id = some y → Leads (.queueLaunch die k e) s fun t =>
      t.task? id = some { y with band := band, st := .loading, bound := 0, order := s.qry.nextTask,
                                 decode := [] } ∧
      (t.gq die k).resumable = rest ∧ t.reg .BD_GQ_RESUMED die k.pn = s.reg .BD_GQ_RESUMED die k.pn + 1 ∧
      t.reg .BD_TASKS band 0 = s.reg .BD_TASKS band 0 + 1) ∧
  (∀ die k s band tr, s.launchBand k.pn die = some band → (s.gq die k).resumable = [] → (s.gq die k).trig = some tr →
    (s.gq die k).pairs ≠ [] → ((s.version (keyVer k)).list k.cluster).isResident = true →
    Leads (.queueLaunch die k none) s fun t =>
      (∃ y, t.qry.tasks.getLast? = some y ∧ y.id = s.qry.nextTask ∧ y.band = band ∧ y.key = k ∧ y.st = .loading ∧
        y.lanes.map (fun l => (l.q, l.rank)) = (takePairs (sortBy pairBefore (s.gq die k).pairs) [] []).1.map (fun p => (p.1.q, p.1.rank)) ∧
        y.lanes.length ≤ 2048 ∧ y.classes.length ≤ 4) ∧
      ((s.qry.queries.all fun e => !e.2.isShadow) = true → ∀ p ∈ (t.gq die k).pairs, p ∈ (s.gq die k).pairs ∧
        p ∉ (takePairs (sortBy pairBefore (s.gq die k).pairs) [] []).1.map (·.1)) ∧
      t.reg .BD_TASKS band 0 = s.reg .BD_TASKS band 0 + 1 ∧
      t.reg tr.counter die k.pn = s.reg tr.counter die k.pn + 1) ∧
  (∀ band s y ys, sortBy (fun (a b : Task) => decide (a.order < b.order)) ((s.onBand band).filter (·.st == .loading)) = y :: ys →
    (s.qry.tasks.map (·.id)).Nodup → s.tilesBound band + y.need ≤ 16 → y.nextSeq < y.blockCount →
    Leads (.tileBind band) s fun t => t.task? y.id = some { y with st := .running, bound := y.need } ∧
      Frame [.qry] [.BD_STATUS] s t)

/-- BLOCK_SCAN and LANE_REDUCTION (R33, R54, R56, R59, R62, R83). -/
def Obligations.TasksScanTheirBlocks : Prop :=
  (∀ k err s y b, s.task? k = some y →
    ((s.version (keyVer y.key)).list y.key.cluster).blocks.find? (·.seq == y.nextSeq) = some b → y.st = .running →
    s.bandLeaving y.band = false → s.bandReset y.band = false → s.rowsRoom y = true →
    Leads (.blockScan k err) s fun t => t.reg .BD_BLOCKS y.band 0 = s.reg .BD_BLOCKS y.band 0 + 1 ∧
      ∃ z, t.task? k = some z ∧ z.nextSeq = y.nextSeq + 1 ∧ z.band = y.band ∧ z.lanes.length = y.lanes.length ∧
        (z.st = if y.blockCount ≤ y.nextSeq + 1 then .draining else .running) ∧
        (∀ (i : Nat) l, y.lanes[i]? = some l → ∃ l' new, z.lanes[i]? = some l' ∧ l'.q = l.q ∧ l'.tau = l.tau ∧
          l'.row = l.row ++ new ∧ (err.dram.isSome = true ∨ err.hdrBad = true → new = []) ∧
          ∀ e ∈ new, ∃ j, j < b.fill ∧ (s.version (keyVer y.key)).tomb.contains (b.ordBase + j) = false ∧
            hamming (s.codeBits y.key.index) (s.laneCode l) (b.codes.getD 0 j) ≤ l.tau ∧
            e.score = BitVec.ofNat 32 (s.codeBits y.key.index - hamming (s.codeBits y.key.index) (s.laneCode l) (b.codes.getD 0 j))) ∧
        (err.dram.isSome = true ∨ err.hdrBad = true →
          t.reg .BD_SKIP_ERROR y.band 0 = s.reg .BD_SKIP_ERROR y.band 0 + 1)) ∧
  (∀ band s id i rest y l, s.qry.redQ.getD [] band = (id, i) :: rest → s.task? id = some y → y.lanes[i]? = some l →
    Leads (.laneReduction band) s fun t => t.qry.redQ.getD [] band = rest ∧
      t.reg .BD_REDUCE y.band 0 = s.reg .BD_REDUCE y.band 0 + 1 ∧
      t.reg .SE_REDUCE_ELEMS y.band 0 = s.reg .SE_REDUCE_ELEMS y.band 0 + BitVec.ofNat 64 l.row.length ∧
      (∃ z l', t.task? id = some z ∧ z.lanes[i]? = some l' ∧ l'.tau ≤ l.tau ∧ l'.queued = false ∧
        l'.row = (select .hamming (·.canon) (s.laneKs l) l.row).kept) ∧
      Frame [.qry] [.BD_REDUCE, .SE_REDUCE_ELEMS, .SE_DUP_DROPPED, .SE_REFILL_PASSES, .SE_REDUCE_QWAIT_CYC] s t)

/-- TASK_COMPLETE, TASK_CHECKPOINT and CHECKPOINT_DURABLE (R68, R83, R84, R105). -/
def Obligations.TasksEndOrAreCheckpointed : Prop :=
  (∀ k s y, s.task? k = some y → y.st = .draining → ((s.qry.redQ.getD [] y.band).any (·.1 == k)) = false →
    Leads (.taskComplete k) s fun t => t.task? k = none ∧
      t.qry.partials.getD [] (dieOf y.band) = s.qry.partials.getD [] (dieOf y.band) ++ (y.lanes.filter (·.active)).map
        (fun l => { die := dieOf y.band, band := y.band, q := l.q, rank := l.rank, elems := l.row }) ∧
      t.reg .BD_FLT_ALLOWED y.band 0 = s.reg .BD_FLT_ALLOWED y.band 0 +
        BitVec.ofNat 64 ((y.lanes.filter (·.active)).foldl (fun n l => n + l.allowed) 0)) ∧
  (∀ k s y, s.task? k = some y → s.bandLeaving y.band = true → y.st = .running →
    Leads (.taskCheckpoint k) s fun t =>
      (∃ z, t.task? k = some z ∧ z.st = .checkpointed ∧ z.bound = 0 ∧ z.band = y.band ∧ z.nextSeq = y.nextSeq ∧
        z.lanes.length = y.lanes.length) ∧
      ((t.qry.redQ.getD [] y.band).any (·.1 == k)) = false ∧
      t.reg .BD_CHECKPOINTS y.band 0 = s.reg .BD_CHECKPOINTS y.band 0 + 1) ∧
  (∀ k s y, s.task? k = some y → s.bandLeaving y.band = true → y.st = .loading →
    Leads (.taskCheckpoint k) s fun t =>
      (∃ z, t.task? k = some z ∧ z.band = noBand ∧ z.bound = 0 ∧ z.st = .checkpointed ∧ z.key = y.key ∧ z.nextSeq = 0 ∧
        z.lanes.length = y.lanes.length ∧
        ∀ l ∈ z.lanes, l.row = [] ∧ l.allowed = 0 ∧ l.tau = s.codeBits y.key.index) ∧
      k ∈ (t.gq y.die y.key).resumable ∧ Frame [.qry] [.BD_STATUS] s t) ∧
  (∀ k s y, s.task? k = some y → y.st = .checkpointed → y.band ≠ noBand →
    Leads (.checkpointDurable k) s fun t =>
      t.task? k = some { y with band := noBand, bound := 0, st := .checkpointed } ∧ k ∈ (t.gq y.die y.key).resumable ∧
      Frame [.qry] [.BD_STATUS] s t)

/-- DIE_MERGE_PARTIAL, DIE_MERGE_FLUSH and HOME_MERGE (R76, R81, R84, R89). -/
def Obligations.ListsMerge : Prop :=
  (∀ die s p rest x, s.dieReset die = false → s.qry.partials.getD [] die = p :: rest → s.query p.q = some x →
    (x.dieRows.getD [] die).length + p.elems.length - x.dieReduced.getD 0 die < 2 ^ 20 →
    Leads (.dieMergePartial die) s fun t => t.qry.partials.getD [] die = rest ∧
      t.query p.q = some { x with dieRows := x.dieRows.put die (x.dieRows.getD [] die ++
        reorder (p.band * 2 ^ 28 + p.rank * 2 ^ 16) p.elems) } ∧ Frame [.qry, .ras] [.SE_MG_ROWS, .SE_MG_STATUS] s t) ∧
  (∀ die q s x, s.dieReset die = false → s.query q = some x → x.flushing.contains die = true →
    ((s.qry.partials.getD [] die).any (·.q == q)) = false →
    Leads (.dieMergeFlush die q) s fun t => t.reg .SE_MG_FLUSHES die 0 = s.reg .SE_MG_FLUSHES die 0 + 1 ∧
      (∃ y, t.query q = some y ∧ y.dieRows = x.dieRows.del die ∧ y.flushing = x.flushing.filter (· != die) ∧
        y.dieLists = x.dieLists.put die (select .hamming (·.canon) x.rr (x.dieRows.getD [] die)).kept ∧
        (y.stage = if x.flushing.filter (· != die) = [] then .homeReady else .flush)) ∧
      Frame [.qry, .ras] [.SE_MG_FLUSHES, .SE_DUP_DROPPED_DIE, .SE_REFILL_PASSES_DIE, .SE_MG_REPEAT_PASSES, .SE_MG_KEY_PASSES,
        .SE_MG_PIECES, .SE_MG_APPROX, .SE_MG_BUSY_CYC, .SE_MG_STATUS] s t) ∧
  (∀ q a b s x m, s.query q = some x → x.stage = .homeReady → x.flashStage = false → x.fp16Stage = false →
    x.isShadow = false → x.sampled = false → x.group = none → s.cmd? x.ctx q = some m → s.toRing x.ctx = true →
    dOpcode m.bytes = 0x01 → Leads (.homeMerge q a b) s fun t => t.ended x.ctx m 0 = true ∧ t.query q = none ∧
      t.reg .TN_ACC_QUERIES (s.ctxTenant x.ctx) 0 = s.reg .TN_ACC_QUERIES (s.ctxTenant x.ctx) 0 + 1)

/-- QUERY_VECTOR_LOAD, CANDIDATE_REQUEST and PLANE_OP_ISSUE (R178, R179, R180, R181, R182). -/
def Obligations.CuffDiesTakeRequests : Prop :=
  (∀ ch die s q qs b rest, (s.chan ch).inbox.getD [] die = .load q qs b :: rest →
    Leads (.queryVectorLoad ch die) s fun t => (t.chan ch).inbox.getD [] die = rest ∧
      (t.chan ch).qcache.get? (6400 * die + qs) =
        some { q := q, u := BitVec.ofNat 16 (fieldAt b 0 2), dims := fieldAt b 2 2, index := fieldAt b 4 1,
               vslot := fieldAt b 5 1, x := b.drop 64, granules := granulesOf b.length } ∧
      t.reg .CF_QV_LOADS ch 0 = s.reg .CF_QV_LOADS ch 0 + 1 ∧ (∀ m, m ≠ ch → t.chan m = s.chan m) ∧
      Frame [.fl] [.CF_QV_LOADS] s t) ∧
  (∀ ch die s r rest, (s.chan ch).inbox.getD [] die = .req r :: rest → (s.chan ch).reqQ.length < 4096 →
    s.chServes ch = false → s.chState ch ≠ 5 → r.shadow = false →
    Leads (.candidateRequest ch die) s fun t => (t.chan ch).inbox.getD [] die = rest ∧
      t.reg .CF_REQ ch 0 = s.reg .CF_REQ ch 0 + 1 ∧ t.reg .CF_CHANNEL_DOWN ch 0 = s.reg .CF_CHANNEL_DOWN ch 0 + 1 ∧
      ((t.fl.scores.getD [] r.die).getLast?.map fun a => (a.q, a.cand, a.rstatus, a.lsn)) = some (r.q, r.cand, 4, r.lsn)) ∧
  (∀ ch die s r rest i x, (s.chan ch).inbox.getD [] die = .req r :: rest → (s.chan ch).reqQ.length < 4096 →
    s.chServes ch = true → r.lsn < s.dataSectors ch →
    ((s.chan ch).ctxs.find? fun e => e.2.lsn == r.lsn && decide (e.2.joined.length < 128)) = some (i, x) →
    x.st ≠ .linger →
    Leads (.candidateRequest ch die) s fun t => (t.chan ch).inbox.getD [] die = rest ∧
      (t.chan ch).ctx? i = some { x with joined := x.joined ++ [r] } ∧
      t.reg .CF_REQ ch 0 = s.reg .CF_REQ ch 0 + 1 ∧ t.reg .CF_JOINED ch 0 = s.reg .CF_JOINED ch 0 + 1) ∧
  (∀ ch plane s op, (s.chan ch).planeBusy.get? plane = none → s.nextOp ch plane = some op → op.kind ≠ 3 →
    Leads (.planeOpIssue ch plane) s fun t =>
      (∃ o, (t.chan ch).planeBusy.get? plane = some o ∧ o.kind = op.kind ∧ o.num = op.num ∧ o.cls = op.cls ∧ o.since = s.now) ∧
      (∀ x, op.kind = 0 → (s.chan ch).ctx? op.num = some x →
        (t.chan ch).ctx? op.num = some { x with st := .reading } ∧
        (x.retries = 0 → x.soft = false → (∀ p, p ≠ plane → (s.chan ch).planeQ.getD [] p = []) →
          t.reg .CF_READS ch 0 = s.reg .CF_READS ch 0 + 1)) ∧
      (op.kind ≠ 0 → (t.chan ch).planeQ.getD [] plane = ((s.chan ch).planeQ.getD [] plane).erase op ∧ t.regs = s.regs)) ∧
  (∀ ch plane s op, (s.chan ch).planeBusy.get? plane = none → s.nextOp ch plane = some op → op.kind = 3 →
    Leads (.planeOpIssue ch plane) s fun t => (t.chan ch).planeBusy = (s.chan ch).planeBusy ∧
      ((s.chan ch).lost.contains op.num = false → (s.chan ch).jIndex.get? op.num = none →
        (t.chan ch).mapCached.head? = some (op.num / 16384))) ∧
  (∀ ch plane s, (s.chan ch).planeBusy.get? plane = none → s.nextOp ch plane = none →
    Leads (.planeOpIssue ch plane) s fun t => t.chan ch = s.chan ch)

/-- PAGE_DECODE and LINGER_EXPIRY (R117, R133, R176, R180, R181, R211, R212). -/
def Obligations.SectorsAreDecoded : Prop :=
  (∀ ch i e s x, (s.chan ch).ctx? i = some x → x.st = .reading → e = .hard ∨ e = .soft →
    x.joined.all (s.agrees ch x.data) = true →
    Leads (.pageDecode ch i e) s fun t => (t.chan ch).ctx? i =
      some { x with st := .linger, joined := [], lingerAt := s.now + us * s.fld fCF_CTL_LINGER_US ch 0 } ∧
      t.reg .CF_HDR_MISMATCH ch 0 = s.reg .CF_HDR_MISMATCH ch 0) ∧
  (∀ ch i e s x, (s.chan ch).ctx? i = some x → x.st = .reading → e = .hard ∨ e = .soft → x.joined ≠ [] →
    x.joined.any (s.agrees ch x.data) = false → (s.chan ch).reqQ = [] →
    Leads (.pageDecode ch i e) s fun t => (t.chan ch).ctx? i = none ∧
      t.reg .CF_HDR_MISMATCH ch 0 = s.reg .CF_HDR_MISMATCH ch 0 + 1 ∧
      t.reg .CF_UNREADABLE ch 0 =
        s.reg .CF_UNREADABLE ch 0 + BitVec.ofNat 64 (x.joined.filter fun r => !r.shadow).length) ∧
  (∀ ch i e s x l, (s.chan ch).ctx? i = some x → x.st = .reading → e ≠ .hard → e ≠ .soft → x.soft = false →
    (ladder (s.chan ch).levels x.level0)[x.retries]? = some l → x.retries < s.fld fCF_RD_CFG_RETRY_MAX ch 0 →
    Leads (.pageDecode ch i e) s fun t =>
      (t.chan ch).ctx? i = some { x with retries := x.retries + 1, level := l, st := .queued } ∧
      (t.chan ch).health.readRetries = (s.chan ch).health.readRetries + 1) ∧
  (∀ ch i e s x, (s.chan ch).ctx? i = some x → x.st = .reading → e ≠ .hard → e ≠ .soft → x.soft = false →
    s.fld fCF_RD_CFG_RETRY_MAX ch 0 ≤ x.retries ∨ (ladder (s.chan ch).levels x.level0)[x.retries]? = none →
    Leads (.pageDecode ch i e) s fun t => (t.chan ch).ctx? i = some { x with soft := true, st := .queued } ∧
      t.reg .CF_SOFT_DECODES ch 0 = s.reg .CF_SOFT_DECODES ch 0 + 1) ∧
  (∀ ch i e s x, (s.chan ch).ctx? i = some x → x.st = .reading → e ≠ .hard → e ≠ .soft → x.soft = true →
    (s.chan ch).reqQ = [] →
    Leads (.pageDecode ch i e) s fun t => (t.chan ch).ctx? i = none ∧
      t.reg .CF_UNREADABLE ch 0 =
        s.reg .CF_UNREADABLE ch 0 + BitVec.ofNat 64 (x.joined.filter fun r => !r.shadow).length) ∧
  (∀ ch i s x, (s.chan ch).ctx? i = some x → x.st = .linger → (s.chan ch).reqQ = [] →
    Leads (.lingerExpiry ch i) s fun t => (t.chan ch).ctx? i = none ∧ t.now = max s.now x.lingerAt ∧
      (∀ j, j ≠ i → (t.chan ch).ctx? j = (s.chan ch).ctx? j) ∧ Frame [.now, .fl, .ras] [.CF_STATUS, .CF_QUEUE_FULL_NS] s t)

/-- SCORE_RECORD, DEGRADED_READ, REBUILT_SECTOR, PARTIAL_SUM_REQUEST and FP16_REDUCTION (R122, R123, R147, R148,
R149, R180, R188, R193, R233). -/
def Obligations.ScoresComeHome : Prop :=
  (∀ die s r rest, s.dieReset die = false → s.fl.scores.getD [] die = r :: rest → s.query r.q = none →
    Leads (.scoreRecord die) s fun t => t.fl.scores.getD [] die = rest ∧
      t.reg .TN_DL_LATE_RECORDS r.pn 0 = s.reg .TN_DL_LATE_RECORDS r.pn 0 + 1 ∧ Frame [.fl] [.TN_DL_LATE_RECORDS] s t) ∧
  (∀ die s r rest x c j c', s.dieReset die = false → s.fl.scores.getD [] die = r :: rest → s.query r.q = some x →
    x.awaits r.cand = true → x.cands[r.cand]? = some c → j ≠ r.cand → x.cands[j]? = some c' → c'.st ≠ 1 → c'.st ≠ 2 →
    Leads (.scoreRecord die) s fun t =>
      (r.rstatus = 0 → t.query r.q = some { x with cands := x.cands.set r.cand { c with st := 1, score := r.score, rebuilt := false } } ∧
        t.fl.scores.getD [] die = rest ∧ Frame [.fl, .qry] [] s t) ∧
      (r.rstatus = 2 ∨ r.rstatus = 3 → t.query r.q = some { x.skip 1 with cands := x.cands.set r.cand { c with st := 2 } } ∧
        t.fl.scores.getD [] die = rest) ∧
      (r.rstatus = 1 ∨ r.rstatus = 4 → t.query r.q = some { x with cands := x.cands.set r.cand { c with st := 3 } } ∧
        ((t.fl.degQ.getD [] (dieOfChannel (parityCh (scCh c.sidecar) (scLsn c.sidecar)))).getLast?.map fun a => (a.q, a.cand)) =
          some (r.q, r.cand) ∧ Frame [.fl, .qry] [] s t)) ∧
  (∀ die bad s r rest, s.dieReset die = false → s.fl.degQ.getD [] die = r :: rest →
    Leads (.degradedRead die bad) s fun t => t.fl.degQ.getD [] die = rest ∧
      t.reg .GE_DEG_READS die 0 = s.reg .GE_DEG_READS die 0 + 1 ∧
      (s.degraded r.ch r.lsn (some (0xF1E6, 7, r.owner)) bad = none →
        t.reg .GE_DEG_FAIL die 0 = s.reg .GE_DEG_FAIL die 0 + 1) ∧
      (t.fl.degDone.getD [] r.die).getLast? = some { r with
        result := (s.degraded r.ch r.lsn (some (0xF1E6, 7, r.owner)) bad).map (·.1),
        failed := (s.degraded r.ch r.lsn (some (0xF1E6, 7, r.owner)) bad).isNone }) ∧
  (∀ die s r rest x c d v j c', s.dieReset die = false → s.fl.degDone.getD [] die = r :: rest → s.query r.q = some x →
    x.awaits r.cand = true → x.cands[r.cand]? = some c → j ≠ r.cand → x.cands[j]? = some c' → c'.st ≠ 1 → c'.st ≠ 2 →
    r.result = some d → s.rebuiltScore x r d = some v →
    Leads (.rebuiltSector die) s fun t => t.fl.degDone.getD [] die = rest ∧
      t.query r.q = some { x with cands := x.cands.set r.cand { c with st := 1, score := v, rebuilt := true } } ∧
      t.reg .TN_ACC_RR_RECORDS x.tenant 0 = s.reg .TN_ACC_RR_RECORDS x.tenant 0 + 1) ∧
  (∀ conn bad s r s1 v rows, s.takeSend conn 2 = some (r, s1) → s1.psumRefusal r.data = none →
    s1.captureTbl (fieldAt r.data 0 1 % 32) true (fieldAt r.data 2 2) = some v →
    rows = reqRows (s.tblW (fieldAt r.data 0 1 % 32)) (fieldAt r.data 4 4) r.data → (s1.drainRows rows).rowsFree rows = true →
    ((s1.net.wrs.all fun w => decide (w.id < s1.net.twrOrder)) = true) →
    Leads (.partialSumRequest conn bad) s fun t => t.now = s.now ∧
      ∃ w ∈ t.net.wrs, s1.net.twrOrder ≤ w.id ∧ w.op = 0x02 ∧ w.conn = conn ∧ w.signalVal = 1 ∧
        w.signalSync = fieldAt r.data 0x18 2 ∧ w.rAddr = fieldAt r.data 0x14 4 ∧ w.data.length = 4 * fieldAt r.data 4 4) ∧
  (∀ conn bad s r s1 rows, s.takeSend conn 2 = some (r, s1) → s1.psumRefusal r.data = none →
    (s1.captureTbl (fieldAt r.data 0 1 % 32) true (fieldAt r.data 2 2)).isSome = true →
    rows = reqRows (s.tblW (fieldAt r.data 0 1 % 32)) (fieldAt r.data 4 4) r.data → (s1.drainRows rows).rowsFree rows = false →
    exec (.partialSumRequest conn bad) s = .next s) ∧
  (∀ conn bad s r s1, s.takeSend conn 2 = some (r, s1) → (s1.psumRefusal r.data).isSome = true →
    Leads (.partialSumRequest conn bad) s fun t =>
      t.reg .GE_REQ_REFUSED 0 0 = s.reg .GE_REQ_REFUSED 0 0 + 1 ∧ t.net.wrs = s.net.wrs ∧ t.tbl = s.tbl) ∧
  (∀ q s x m, s.query q = some x → s.fp16Ready x = true → x.isShadow = false → x.group = none → x.sampled = false →
    s.cmd? x.ctx q = some m → s.toRing x.ctx = true →
    Leads (.fp16Reduction q) s fun t => t.ended x.ctx m 0 = true ∧ t.query q = none)

/-- SCAN_DEADLINE, RERANK_BUDGET_END and SHADOW_TIMEOUT (R110, R111, R231, R232, R235). -/
def Obligations.DeadlinesOfAQuery : Prop :=
  (∀ q s x m d, s.query q = some x → x.tSd = some d → x.stage = .encode ∨ x.stage = .probe → x.isShadow = false →
    x.group = none → s.cmd? x.ctx q = some m → s.toRing x.ctx = true →
    Leads (.scanDeadline q) s fun t => t.ended x.ctx m stDeadline = true ∧ (q ≠ s.hq.nextSeq → t.query q = none) ∧
      t.now = max s.now d ∧
      (x.cancelCut = false → t.reg .TN_DL_EXPIRED x.pn 0 = s.reg .TN_DL_EXPIRED x.pn 0 + 1)) ∧
  (∀ q s x d, s.query q = some x → x.tSd = some d → x.stage = .scan → x.reported ≠ 0 → x.isShadow = false →
    Leads (.scanDeadline q) s fun t => t.now = max s.now d ∧
      (∀ g ∈ t.qry.gqueues, ∀ p ∈ g.pairs, p.q ≠ q) ∧
      (∀ k ∈ t.qry.tasks, ∀ l ∈ k.lanes, l.q = q → l.active = false) ∧
      ∃ y, t.query q = some y ∧ y.outstanding = [] ∧ (y.stage = .flush ∨ y.stage = .homeReady)) ∧
  (∀ q s x m d, s.query q = some x → x.tRr = some d → x.stage = .flash ∨ x.stage = .fp16 ∨ x.stage = .homeReady ∧ x.homeList ≠ [] →
    x.isShadow = false → x.group = none → x.sampled = false → s.cmd? x.ctx q = some m → s.toRing x.ctx = true →
    Leads (.rerankBudgetEnd q) s fun t => t.ended x.ctx m 0 = true ∧ t.query q = none ∧ t.now = max s.now d ∧
      ((t.ctx x.ctx).done.any fun e => e.seq == m.seq && e.flags.testBit 2) = true) ∧
  (∀ q s x, s.query q = some x → x.isShadow = true → Leads (.shadowTimeout q) s fun t => t.query q = none ∧
      t.now = max s.now (x.liveAdmit + sec * s.fld fTN_SHADOW_CFG_TIMEOUT_S x.pn 0) ∧
      ((t.shadow x.pn).log.getLast?.map fun e => (e.seq, e.status, e.commandId, e.shadowCount)) =
        some ((s.shadow x.pn).nextSeq, stDeadline, x.commandId, 0) ∧
      t.reg .TN_SHADOW_DROPPED x.pn 0 = s.reg .TN_SHADOW_DROPPED x.pn 0 + 1)

/-- INSERT and REWRITE: the new slots are written, or await their flash records, and the visibility point completes
the command (R159, R161, R163, R164, R174). -/
def Obligations.InsertsAndRewrites : Prop :=
  (∀ c s m t p t1, s.admission c 0x10 = some (m, t) → s.allDefined c = true → s.toRing c = true →
    t.updateFits c 0x10 m = true → t.placesAll? c m = some (p, t1) →
    Leads (.insert c true) s fun u =>
      u.reg .HQ_UPD_SLOTS_NEW 0 0 =
        (t.served c m).reg .HQ_UPD_SLOTS_NEW 0 0 + BitVec.ofNat 64 (readyCount p.slots) ∧
      (p.slots.all (·.durable) = true → u.ended c m 0 = true ∧
        u.reg .HQ_UPD_CMDS 0 0 = (t.served c m).reg .HQ_UPD_CMDS 0 0 + 1) ∧
      ((readySlots p.slots).all (·.written) = false → u.cmd? c m.seq = some m ∧
        ∃ j ∈ u.idx.updates, j.seq = m.seq ∧ j.ctx = c ∧ j.slots = readySlots p.slots ∧
          j.reserved = t1.flashNeeds p)) ∧
  (∀ c s m t p t1, s.admission c 0x12 = some (m, t) → s.allDefined c = true → s.toRing c = true →
    t.updateFits c 0x12 m = true → t.placesAll? c m = some (p, t1) →
    Leads (.rewrite c true) s fun u =>
      u.reg .HQ_UPD_SLOTS_NEW 0 0 =
        (t.served c m).reg .HQ_UPD_SLOTS_NEW 0 0 + BitVec.ofNat 64 (readyCount p.slots) ∧
      (p.slots.all (·.durable) = true → u.ended c m 0 = true ∧
        u.reg .HQ_UPD_CMDS 0 0 = (t.served c m).reg .HQ_UPD_CMDS 0 0 + 1 ∧
        ∀ ref ∈ t.retires c m, (u.version (t.updStatus c m).2).tomb.contains (refOrd ref) = true ∨
          ∃ r ∈ u.idx.retireQ, r.ver = (t.updStatus c m).2 ∧ r.ref = ref) ∧
      ((readySlots p.slots).all (·.written) = false → u.cmd? c m.seq = some m ∧
        ∃ j ∈ u.idx.updates, j.seq = m.seq ∧ j.ctx = c ∧ j.retire = t.retires c m))

/-- DELETE, BITS_SET and BITS_CLEAR change the slots they name, and no other slot of a version without a successor
(R94, R159, R162, R164, R174). -/
def Obligations.DeletesAndBitWrites : Prop :=
  (∀ c s m t, s.admission c 0x11 = some (m, t) → s.allDefined c = true → s.toRing c = true →
    t.updateFits c 0x11 m = true → (t.namedRefs c m).all (t.version (t.updStatus c m).2).refIn = true →
    Leads (.delete c true) s fun u => u.ended c m 0 = true ∧ u.reg .HQ_UPD_CMDS 0 0 = s.reg .HQ_UPD_CMDS 0 0 + 1 ∧
      (∀ ref ∈ t.namedRefs c m, (u.version (t.updStatus c m).2).tomb.contains (refOrd ref) = true) ∧
      ((t.version (t.updStatus c m).2).succ = none → ∀ o ∈ (u.version (t.updStatus c m).2).tomb,
        o ∈ (t.version (t.updStatus c m).2).tomb ∨ o ∈ (t.namedRefs c m).map refOrd)) ∧
  (∀ c s m t, s.admission c 0x13 = some (m, t) → s.allDefined c = true → s.toRing c = true →
    t.updateFits c 0x13 m = true → (t.namedRefs c m).all (t.version (t.updStatus c m).2).refIn = true →
    Leads (.bitsSet c true) s fun u => u.ended c m 0 = true ∧ u.reg .HQ_UPD_CMDS 0 0 = s.reg .HQ_UPD_CMDS 0 0 + 1 ∧
      (∀ ref ∈ t.namedRefs c m,
        ((u.version (t.updStatus c m).2).std.getD 0 (refOrd ref)).getLsbD (uBitmap m.bytes) = true) ∧
      ((t.version (t.updStatus c m).2).succ = none → ∀ o, o ∉ (t.namedRefs c m).map refOrd →
        (u.version (t.updStatus c m).2).std.getD 0 o = (t.version (t.updStatus c m).2).std.getD 0 o)) ∧
  (∀ c s m t, s.admission c 0x14 = some (m, t) → s.allDefined c = true → s.toRing c = true →
    t.updateFits c 0x14 m = true → (t.namedRefs c m).all (t.version (t.updStatus c m).2).refIn = true →
    Leads (.bitsClear c true) s fun u => u.ended c m 0 = true ∧ u.reg .HQ_UPD_CMDS 0 0 = s.reg .HQ_UPD_CMDS 0 0 + 1 ∧
      (u.version (t.updStatus c m).2).lists = (t.version (t.updStatus c m).2).lists ∧
      (∀ ref ∈ t.namedRefs c m,
        ((u.version (t.updStatus c m).2).std.getD 0 (refOrd ref)).getLsbD (uBitmap m.bytes) = false))

/-- LIST_COPY, FLASH_RECORD_DURABLE, RETIRED_SLOT_TOMBSTONE and RETIRE_LATE_EXPIRY (R41, R46, R165, R169, R170,
R174). -/
def Obligations.RecordsRetirementsAndCopies : Prop :=
  (∀ c s m t k k' ps t1 ps' t2, s.admission c 0x15 = some (m, t) → s.allDefined c = true → s.toRing c = true →
    t.updateFits c 0x15 m = true → k = (t.updStatus c m).2 → k' = verKey (k / 4) (((t.version k).succ).getD 0) →
    t.copyList k k' (uCount m.bytes) (uReassign m.bytes) (slotsOfList ((t.version k).list (uCount m.bytes))) [] = some (ps, t1) →
    chargesFit t t1 = true → (ps.all fun p => ((t.version k').list (refCluster p.2)).rstate == 0) = true →
    ((t.holdRef k).holdRef k').copyList k k' (uCount m.bytes) (uReassign m.bytes)
      (slotsOfList ((t.version k).list (uCount m.bytes))) [] = some (ps', t2) →
    Leads (.listCopy c) s fun u => u.ended c m 0 = true ∧ u.reg .HQ_UPD_CMDS 0 0 = s.reg .HQ_UPD_CMDS 0 0 + 1 ∧
      u.reg .HQ_UPD_COPIED 0 0 = s.reg .HQ_UPD_COPIED 0 0 + BitVec.ofNat 64 ps'.length) ∧
  (∀ c op i s m t, (op, i) ∈ [(0x10, Instr.insert c true), (0x11, .delete c true), (0x12, .rewrite c true),
      (0x13, .bitsSet c true), (0x14, .bitsClear c true), (0x15, .listCopy c)] →
    s.admission c op = some (m, t) → s.allDefined c = true → s.toRing c = true → dGroup m.bytes = false →
    t.group? m.seq = none → (t.updStatus c m).1 ≠ 0 →
    Leads i s fun u => u.ended c m (t.updStatus c m).1 = true ∧ u.idx = t.idx) ∧
  (∀ ch s seq i sc rest j n, (s.chan ch).acks = (seq, i, sc) :: rest → s.job? seq = some j → j.slots[i]? = some n →
    Leads (.flashRecordDurable ch) s fun t => (t.chan ch).acks = rest ∧
      ((readySlots (j.slots.set i { n with durable := true, sidecar := sc })).all (·.written) = false →
        t.job? seq = some { j with slots := readySlots (j.slots.set i { n with durable := true, sidecar := sc }) } ∧
        (t.reg .HQ_UPD_SLOTS_NEW 0 0 = s.reg .HQ_UPD_SLOTS_NEW 0 0 + if j.opcode = 0x15 then 0 else
          BitVec.ofNat 64 (readyCount (j.slots.set i { n with durable := true, sidecar := sc })))) ∧
      (∀ m, (readySlots (j.slots.set i { n with durable := true, sidecar := sc })).all (·.written) = true →
        (s.version j.ver).succ = none ∨ j.slots.any (·.ver != j.ver) = true → s.cmd? j.ctx seq = some m →
        s.group? seq = none → s.toRing j.ctx = true → t.ended j.ctx m 0 = true ∧ t.job? seq = none)) ∧
  (∀ s r rest, s.idx.retireQ = r :: rest → (r.waits.all fun q => (s.query q).isNone) = true →
    Leads .retiredSlotTombstone s fun t => t.idx.retireQ = rest ∧
      (t.version r.ver).tomb.contains (refOrd r.ref) = true) ∧
  (∀ s r, (s.idx.retireQ.find? fun r => !r.late) = some r → Leads .retireLateExpiry s fun t =>
    t.now = max s.now (r.vis + sec) ∧ t.idx.retireQ.length = s.idx.retireQ.length ∧
    (∀ r' ∈ t.idx.retireQ, r'.late = true ∨ t.now < r'.vis + sec) ∧
    t.reg .HQ_UPD_RETIRE_LATE 0 0 = s.reg .HQ_UPD_RETIRE_LATE 0 0 +
      BitVec.ofNat 64 (s.idx.retireQ.filter fun r' => !r'.late && decide (r'.vis + sec ≤ max s.now (r.vis + sec))).length ∧
    Frame [.now, .idx] [.HQ_UPD_RETIRE_LATE] s t)

/-- DEFINE_BITMAP, INDEX_BUILD and SCHEDULE_LOAD (R48, R93, R217, R228, R409). -/
def Obligations.VersionsAreBuilt : Prop :=
  (∀ c s m t v, s.admission c 0x18 = some (m, t) → s.allDefined c = true → s.toRing c = true → generalOk m.bytes = true →
    t.capture (gTarget m.bytes) (gNamed m.bytes) (gVersion m.bytes) = some v →
    (t.version (verKey (gTarget m.bytes) v)).stdMask.getLsbD (gArg m.bytes) = false →
    (t.version (verKey (gTarget m.bytes) v)).succ = none →
    Leads (.defineBitmap c) s fun u =>
      (chargesFit t (t.defineStd (gArg m.bytes) (verKey (gTarget m.bytes) v)) = true → u.ended c m 0 = true ∧
        u.version (verKey (gTarget m.bytes) v) = { t.version (verKey (gTarget m.bytes) v) with
          stdMask := (t.version (verKey (gTarget m.bytes) v)).stdMask ||| BitVec.ofNat 16 (2 ^ gArg m.bytes),
          charged := (t.version (verKey (gTarget m.bytes) v)).charged + (t.version (verKey (gTarget m.bytes) v)).bitmapUnits,
          recs := (u.version (verKey (gTarget m.bytes) v)).recs } ∧
        ∀ d < 5, ∃ a, (((u.version (verKey (gTarget m.bytes) v)).recs.getD {} d).stdBase.get? (gArg m.bytes)) = some a ∧
          a % 32 = 0) ∧
      (chargesFit t (t.defineStd (gArg m.bytes) (verKey (gTarget m.bytes) v)) = false →
        u.ended c m stQuota = true ∧ u.idx = t.idx)) ∧
  (∀ c s m t v, s.admission c 0x19 = some (m, t) → s.allDefined c = true → s.toRing c = true →
    t.buildSlot? c m = some v → t.buildCharged c m v = true →
    Leads (.indexBuild c true) s fun u => u.ended c m 0 = true ∧ u.idxValid (gTarget m.bytes) v = true ∧
      u.fld fHQ_IDX_VER_VERSION (gTarget m.bytes) v = gVersion m.bytes ∧
      (u.version (verKey (gTarget m.bytes) v)).holds = true ∧
      (u.version (verKey (gTarget m.bytes) v)).owner = t.ctxTenant c ∧
      (u.version (verKey (gTarget m.bytes) v)).cents = t.buildCents c m ∧
      (u.version (verKey (gTarget m.bytes) v)).stdMask = t.buildStd m ∧
      (u.version (verKey (gTarget m.bytes) v)).lists = [] ∧
      (u.version (verKey (gTarget m.bytes) v)).ordLo = (dieRanges (gArg m.bytes / 2 ^ 14)).1 ∧
      (u.version (verKey (gTarget m.bytes) v)).ordHi = (dieRanges (gArg m.bytes / 2 ^ 14)).2) ∧
  (∀ c s m t, s.admission c 0x1B = some (m, t) → s.allDefined c = true → s.toRing c = true → (t.namedVersion m).2 = 0 →
    gCount m.bytes ≤ 65536 →
    (((List.range (gCount m.bytes)).map fun i => leNat (t.rdN (t.ctxPort c) (gAddrA m.bytes + 4 * i) 4)).all fun w =>
      bits w 30 20 == 0 && decide (bits w 19 0 < (t.version (t.namedVersion m).1).count)) = true →
    Leads (.scheduleLoad c true) s fun u => u.ended c m 0 = true ∧
      u.version (t.namedVersion m).1 = { t.version (t.namedVersion m).1 with
        schedPos := 0,
        schedule := (List.range (gCount m.bytes)).map fun i =>
          (bits (leNat (t.rdN (t.ctxPort c) (gAddrA m.bytes + 4 * i) 4)) 19 0,
            (leNat (t.rdN (t.ctxPort c) (gAddrA m.bytes + 4 * i) 4)).testBit 31) })

/-- INDEX_RETIRE, VERSION_FREE and INDEX_VERSION_SWITCH (R49, R50, R410). -/
def Obligations.VersionsAreRetiredAndSwitched : Prop :=
  (∀ c s m t v, s.admission c 0x1A = some (m, t) → s.allDefined c = true → generalOk m.bytes = true →
    firstFit (fun v => (t.version (verKey (gTarget m.bytes) v)).holds &&
      t.fld fHQ_IDX_VER_VERSION (gTarget m.bytes) v == gVersion m.bytes && !t.idxRetiring (gTarget m.bytes) v) 4 = some v →
    (t.idxValid (gTarget m.bytes) v && t.fld fHQ_IDX_CTL_CURRENT (gTarget m.bytes) 0 == v) = false →
    Leads (.indexRetire c) s fun u => u.idxRetiring (gTarget m.bytes) v = true ∧
      (u.version (verKey (gTarget m.bytes) v)).retireCmd = some m.seq ∧ u.cmd? c m.seq = some m ∧
      ∀ w, w ≠ v → u.idxRetiring (gTarget m.bytes) w = t.idxRetiring (gTarget m.bytes) w) ∧
  (∀ n v s, s.idxRetiring n v = true → s.syVal (s.fld fHQ_IDX_VER_REF_SYNC n v) = 0 →
    Leads (.versionFree n v) s fun t => t.idxValid n v = false ∧ t.idxRetiring n v = false ∧
      t.idx.versions.get? (verKey n v) = none ∧
      (∀ c m, ((s.version (verKey n v)).retireCmd.bind s.ownerOf) = some (c, m) → s.cmd? c m.seq = some m →
        (∀ l ∈ (s.version (verKey n v)).lists.vals, l.movers = []) → s.toRing c = true → t.ended c m 0 = true)) ∧
  (∀ n v s, s.syVal (s.fld fHQ_IDX_VER_REF_SYNC n v) ≠ 0 → exec (.versionFree n v) s = .next s) ∧
  (∀ n v loc s, s.switchBad n (s.reg .HQ_IDX_CTL n 0) (writeValue .HQ_IDX_CTL (s.reg .HQ_IDX_CTL n 0) v) = false →
    Leads (.indexVersionSwitch n v loc) s fun t => Frame [] [.HQ_IDX_CTL] s t ∧
      t.fld fHQ_IDX_CTL_CURRENT n 0 = Fld.get fHQ_IDX_CTL_CURRENT v ∧
      t.fld fHQ_IDX_CTL_VALID n 0 = Fld.get fHQ_IDX_CTL_VALID v ∧
      (t.fld fHQ_IDX_CTL_SWITCH_COUNT n 0 = (s.fld fHQ_IDX_CTL_SWITCH_COUNT n 0 +
        if s.fld fHQ_IDX_CTL_CURRENT n 0 = Fld.get fHQ_IDX_CTL_CURRENT v then 0 else 1) % 2 ^ 16) ∧
      (s.idxValid n (s.fld fHQ_IDX_CTL_CURRENT n 0) = true → t.idxValid n (t.fld fHQ_IDX_CTL_CURRENT n 0) = true)) ∧
  (∀ n v loc s, s.switchBad n (s.reg .HQ_IDX_CTL n 0) (writeValue .HQ_IDX_CTL (s.reg .HQ_IDX_CTL n 0) v) = true →
    Leads (.indexVersionSwitch n v loc) s fun t => Frame [.out, .ras] logRegs s t)

/-- PROMOTE, DEMOTE, PROMOTION_COMPLETE and DEMOTION_COMPLETE (R223, R224, R225, R227). -/
def Obligations.ListsMoveBetweenTiers : Prop :=
  (∀ c s m t, s.admission c 0x1C = some (m, t) → s.allDefined c = true → (t.namedVersion m).2 = 0 →
    gArg m.bytes < (t.version (t.namedVersion m).1).count →
    Leads (.promote c) s fun u =>
      (((t.version (t.namedVersion m).1).list (gArg m.bytes)).rstate = 0 → s.toRing c = true →
        u.ended c m 0 = true ∧ u.idx = t.idx) ∧
      (((t.version (t.namedVersion m).1).list (gArg m.bytes)).rstate = 3 →
        (t.startPromotion (t.namedVersion m).1 (gArg m.bytes) (t.ctxTenant c) 2 false false).1 = true →
        ((u.version (t.namedVersion m).1).list (gArg m.bytes)).rstate = 1 ∧
        ((u.version (t.namedVersion m).1).list (gArg m.bytes)).holder = t.ctxTenant c ∧
        (c, m.seq) ∈ ((u.version (t.namedVersion m).1).list (gArg m.bytes)).movers ∧ u.cmd? c m.seq = some m) ∧
      (((t.version (t.namedVersion m).1).list (gArg m.bytes)).rstate = 3 →
        ((t.version (t.namedVersion m).1).list (gArg m.bytes)).lost = true →
        u.reg .TN_PF_FAILED (t.ctxTenant c) 0 = s.reg .TN_PF_FAILED (t.ctxTenant c) 0 + 1 ∧ u.cmd? c m.seq = none ∧
        u.idx = t.idx)) ∧
  (∀ c s m t, s.admission c 0x1D = some (m, t) → s.allDefined c = true → (t.namedVersion m).2 = 0 →
    bits (gArg m.bytes) 19 0 < (t.version (t.namedVersion m).1).count →
    bits (gArg m.bytes) 21 20 = 1 ∨ bits (gArg m.bytes) 21 20 = 2 → t.ctxTenant c = (t.version (t.namedVersion m).1).owner →
    Leads (.demote c) s fun u =>
      (((t.version (t.namedVersion m).1).list (bits (gArg m.bytes) 19 0)).rstate = 1 → s.toRing c = true →
        u.ended c m 0 = true ∧ u.reg .TN_RES_OVERRIDDEN (t.ctxTenant c) 0 = s.reg .TN_RES_OVERRIDDEN (t.ctxTenant c) 0 + 1) ∧
      (((t.version (t.namedVersion m).1).list (bits (gArg m.bytes) 19 0)).rstate = 3 → s.toRing c = true →
        u.ended c m 0 = true ∧ u.idx = t.idx) ∧
      (((t.version (t.namedVersion m).1).list (bits (gArg m.bytes) 19 0)).rstate = 0 →
        (t.beginDemotion (t.namedVersion m).1 (bits (gArg m.bytes) 19 0) (bits (gArg m.bytes) 21 20)
          (bits (gArg m.bytes) 27 22) [(c, m.seq)]).1 = 0 →
        ((u.version (t.namedVersion m).1).list (bits (gArg m.bytes) 19 0)).rstate = 2 ∧
        ((u.version (t.namedVersion m).1).list (bits (gArg m.bytes) 19 0)).movers = [(c, m.seq)] ∧ u.cmd? c m.seq = some m)) ∧
  (∀ n v cl ok s l, (s.version (verKey n v)).list cl = l → l.rstate = 1 →
    Leads (.promotionComplete n v cl ok) s fun t =>
      (ok = true → s.grantGone (verKey n v) l = false → s.wrFailed l = none → s.wrPending l = false →
        (l.blocks.mapM (s.readBack (s.codeBits (verKey n v / 4)) l)).isSome = true →
        ((t.version (verKey n v)).list cl).rstate = 0 ∧ ((t.version (verKey n v)).list cl).movers = [] ∧
        (l.lowTier ≠ 1 → ((t.version (verKey n v)).list cl).holds = l.holds - 1) ∧
        ((t.version (verKey n v)).list cl).blocks.length = l.blocks.length) ∧
      (ok = true → s.grantGone (verKey n v) l = false → s.wrFailed l = none → s.wrPending l = false →
        l.blocks.mapM (s.readBack (s.codeBits (verKey n v / 4)) l) = none →
        ((t.version (verKey n v)).list cl).movers = [] ∧
        t.reg .TN_PF_FAILED l.holder 0 = s.reg .TN_PF_FAILED l.holder 0 + 1) ∧
      (ok = false → (s.qry.gqueues.all fun g => !waitsFor (verKey n v) cl g.key) = true →
        (s.qry.held.all fun e => e.2.all fun h => !waitsFor (verKey n v) cl h.key) = true →
        ((t.version (verKey n v)).list cl).rstate = 3 ∧ ((t.version (verKey n v)).list cl).movers = [] ∧
        t.reg .TN_PF_FAILED l.holder 0 = s.reg .TN_PF_FAILED l.holder 0 + 1)) ∧
  (∀ n v cl r s l, (s.version (verKey n v)).list cl = l → l.rstate = 2 →
    Leads (.demotionComplete n v cl r) s fun t =>
      (r = none → s.wrFailed l = none → s.grantGone (verKey n v) l = false → l.holds = 0 →
        s.lowPending (verKey n v) l = false → s.wrPending l = false →
        ((t.version (verKey n v)).list cl).rstate = 3 ∧ ((t.version (verKey n v)).list cl).residency = l.lowTier ∧
        ((t.version (verKey n v)).list cl).movers = []) ∧
      (r.isSome = true → ((t.version (verKey n v)).list cl).rstate = 0 ∧
        ((t.version (verKey n v)).list cl).movers = []))

/-- SCHEDULE_PROMOTION, PROMOTION_RETRY and HEAT_HALVING (R226, R227, R228, R229). -/
def Obligations.PrefetchAndHeat : Prop :=
  (∀ n v s cl pin, (s.version (verKey n v)).schedule[(s.version (verKey n v)).schedPos]? = some (cl, pin) →
    Leads (.schedulePromotion n v) s fun t =>
      (((s.version (verKey n v)).list cl).rstate ≠ 3 → t.version (verKey n v) =
        { s.version (verKey n v) with schedPos := (s.version (verKey n v)).schedPos + 1 } ∧ Frame [.idx] [] s t) ∧
      (((s.version (verKey n v)).list cl).rstate = 3 → ((s.version (verKey n v)).list cl).lost = true →
        (t.version (verKey n v)).schedPos = (s.version (verKey n v)).schedPos + 1 ∧
        t.reg .TN_PF_FAILED (s.version (verKey n v)).owner 0 = s.reg .TN_PF_FAILED (s.version (verKey n v)).owner 0 + 1) ∧
      (((s.version (verKey n v)).list cl).rstate = 3 → ((s.version (verKey n v)).list cl).lost = false →
        s.promoUsed (s.version (verKey n v)).owner + s.listUnits (verKey n v) ((s.version (verKey n v)).list cl) ≤
          s.promoPool (s.version (verKey n v)).owner →
        (s.startPromotion (verKey n v) cl (s.version (verKey n v)).owner 4 true pin).1 = true →
        (t.version (verKey n v)).schedPos = (s.version (verKey n v)).schedPos + 1 ∧
        ((t.version (verKey n v)).list cl).rstate = 1 ∧ ((t.version (verKey n v)).list cl).demand = true ∧
        ((t.version (verKey n v)).list cl).pinned = pin ∧
        t.reg .TN_PF_SCHEDULE (s.version (verKey n v)).owner 0 = s.reg .TN_PF_SCHEDULE (s.version (verKey n v)).owner 0 + 1)) ∧
  (∀ n v cl tn s, ((s.version (verKey n v)).list cl).rstate = 3 → ((s.version (verKey n v)).list cl).lost = false →
    (s.qry.gqueues.any fun g => waitsFor (verKey n v) cl g.key && g.pairs.any fun p =>
      (s.query p.q).any fun x => x.tenant == tn) = true →
    (s.startPromotion (verKey n v) cl tn 2 true false).1 = true →
    Leads (.promotionRetry n v cl tn) s fun t => ((t.version (verKey n v)).list cl).rstate = 1 ∧
      ((t.version (verKey n v)).list cl).holder = tn ∧
      t.reg .TN_PF_DEMAND tn 0 = s.reg .TN_PF_DEMAND tn 0 + 1) ∧
  (∀ tn s, Leads (.heatHalving tn) s fun t =>
    t.now = max s.now (s.idx.heatAt.getD 0 tn + sec * s.fld fTN_TIER_CFG_HEAT_HALF_S tn 0) ∧
    t.idx.heatAt.getD 0 tn = t.now ∧ Frame [.now, .idx] [] s t ∧
    ∀ k cl, ((t.version k).list cl).heat =
      if ((s.version k).list cl).holder = tn then ((s.version k).list cl).heat / 2 else ((s.version k).list cl).heat)

/-- QUOTA_LIMIT_WRITE, GRANT_FAILED and PATROL_SCRUB (R218, R219, R220, R230). -/
def Obligations.QuotasGrantsAndScrubbing : Prop :=
  (∀ tn tier v loc s, (s.limit tn tier < Fld.get fTN_QUOTA_LIMIT_LIMIT v →
      (List.range 256).foldl (fun n i => n + if i = tn then Fld.get fTN_QUOTA_LIMIT_LIMIT v else s.limit i tier) 0 ≤ s.tierCapacity tier) →
    tn < 256 → Leads (.quotaLimitWrite tn tier v loc) s fun t => t.limit tn tier = Fld.get fTN_QUOTA_LIMIT_LIMIT v ∧
      (∀ i j, (i, j) ≠ (tn, tier) → t.limit i j = s.limit i j) ∧ Frame [] [.TN_QUOTA_LIMIT] s t) ∧
  (∀ tn tier v loc s, s.limit tn tier < Fld.get fTN_QUOTA_LIMIT_LIMIT v → tn < 256 →
    s.tierCapacity tier < (List.range 256).foldl (fun n i => n + if i = tn then Fld.get fTN_QUOTA_LIMIT_LIMIT v else s.limit i tier) 0 →
    Leads (.quotaLimitWrite tn tier v loc) s fun t => Frame [.out, .ras] logRegs s t) ∧
  (∀ g cause s, s.isOn fTN_RG_V g 0 = true → s.fld fTN_RG_STATE g 0 ≠ 2 → Leads (.grantFailed g (.failed cause)) s fun t =>
    t.fld fTN_RG_STATE g 0 = 2 ∧ t.reg .TN_RG_FAILED 0 0 = s.reg .TN_RG_FAILED 0 0 + 1 ∧
    ∀ k cl l, (s.version k).list cl = l → l.rstate = 3 → l.lowTier = 2 → l.lowGrant = g → l.blocks ≠ [] →
      ((t.version k).list cl).lost = true) ∧
  (∀ g how s, s.fld fTN_RG_STATE g 0 = 2 → exec (.grantFailed g how) s = .next s) ∧
  (∀ g s, s.isOn fTN_RG_V g 0 = true → s.fld fTN_RG_STATE g 0 = 0 → Leads (.grantFailed g .revoking) s fun t =>
    t.fld fTN_RG_STATE g 0 = 1 ∧ Frame [] [.TN_RG] s t) ∧
  (∀ stack a corr unc s, Leads (.patrolScrub stack a corr unc) s fun t =>
    t.reg .EL_ECC_CORR stack 0 = s.reg .EL_ECC_CORR stack 0 + BitVec.ofNat 64 corr ∧
    (t.reg .EL_ECC_UNCORR stack 0 = s.reg .EL_ECC_UNCORR stack 0 + if unc then 1 else 0) ∧
    Frame [.freeCount, .out, .ras] (.EL_ECC_CORR :: uncorrRegs ++ logRegs) s t)

/-- TABLE_UPDATE and ROW_LOCK_GRANT (R140, R141, R151, R152, R156). -/
def Obligations.TableUpdatesAndRowLocks : Prop :=
  (∀ c s m t rows, s.admission c 0x20 = some (m, t) → s.allDefined c = true → (t.tblStatus m (2 ^ 20)).2 = 0 →
    gCount m.bytes ≠ 0 → t.tblType (gTarget m.bytes) ≠ 0 →
    t.rowList c (gTarget m.bytes) (t.tblStatus m (2 ^ 20)).1 m = some rows →
    gOptA m.bytes = true ∨ rows.eraseDups.length ≤ 65536 → (t.tbl.tblJobs.find? (·.seq == m.seq)) = none →
    Leads (.tableUpdate c true) s fun u => u.cmd? c m.seq = some m ∧
      (∀ d, u.reg .GE_UPD_ENTRIES d 0 = s.reg .GE_UPD_ENTRIES d 0 + BitVec.ofNat 64 (rows.filter (· % 5 == d)).length) ∧
      (∀ d, (u.rowsOf d).map (·.row) = (t.rowsOf d).map (·.row) ++
        (if gOptA m.bytes then rows else rows.eraseDups).filter (· % 5 == d)) ∧
      ∃ j, u.tbl.tblJobs.getLast? = some j ∧ j.seq = m.seq ∧ j.stepped = 0 ∧
        j.remaining = (if gOptA m.bytes then rows else rows.eraseDups).length) ∧
  (∀ die s a rest, s.rowsOf die = a :: rest → s.writeGoes a.tbl a.vslot a.row (s.rowOwner a) = false →
    exec (.rowLockGrant die) s = .next s) ∧
  (∀ die s a rest, s.rowsOf die = a :: rest → s.writeGoes a.tbl a.vslot a.row (s.rowOwner a) = true →
    Leads (.rowLockGrant die) s fun t => t.rowsOf die = rest ∧
      (∀ r, s.readRow a.tbl a.vslot a.row s.chMask [] = .row r →
        t.reg .GE_UPD_STEPS (a.row % 5) 0 = s.reg .GE_UPD_STEPS (a.row % 5) 0 + 1) ∧
      (∀ j, s.tbl.tblJobs.find? (·.seq == a.cmd) = some j → 1 < j.remaining →
        ∃ j', t.tbl.tblJobs.find? (·.seq == a.cmd) = some j' ∧ j'.remaining = j.remaining - 1) ∧
      (∀ j m, s.tbl.tblJobs.find? (·.seq == a.cmd) = some j → j.remaining = 1 → s.cmd? j.ctx a.cmd = some m →
        s.toRing j.ctx = true → t.ended j.ctx m 0 = true ∧ t.tbl.tblJobs.find? (·.seq == a.cmd) = none))

/-- GATHER_DOT, ROW_READ and ROW_WRITE (R139, R141, R146, R150). -/
def Obligations.RowsAreReadAndWritten : Prop :=
  (∀ c bad s m t rows, s.admission c 0x21 = some (m, t) → s.allDefined c = true → s.toRing c = true →
    (t.tblStatus m 4096).2 = 0 → t.rowList c (gTarget m.bytes) (t.tblStatus m 4096).1 m = some rows →
    (t.tbl.tblJobs.find? (·.seq == m.seq)) = none → (t.drainRows rows).rowsFree rows = true →
    Leads (.gatherDot c true bad) s fun u => u.ended c m 0 = true ∧
      (∀ d, u.reg .GE_DOT_ROWS d 0 = s.reg .GE_DOT_ROWS d 0 + BitVec.ofNat 64 (rows.filter (· % 5 == d)).length) ∧
      ((∀ d, t.rowsOf d = []) → u.tbl = t.tbl ∧
        ((∀ r ∈ rows, (t.pinned (gTarget m.bytes) (t.tblStatus m 4096).1 r).isSome = true) → u.fl = t.fl))) ∧
  (∀ c bad s m t rows, s.admission c 0x22 = some (m, t) → s.allDefined c = true → s.toRing c = true →
    (t.tblStatus m 4096).2 = 0 → t.rowList c (gTarget m.bytes) (t.tblStatus m 4096).1 m = some rows →
    (t.tbl.tblJobs.find? (·.seq == m.seq)) = none → (t.drainRows rows).rowsFree rows = true →
    Leads (.rowRead c true bad) s fun u => u.ended c m 0 = true ∧
      ((∀ d, t.rowsOf d = []) → u.tbl = t.tbl ∧
        ((∀ r ∈ rows, (t.pinned (gTarget m.bytes) (t.tblStatus m 4096).1 r).isSome = true) → u.fl = t.fl))) ∧
  (∀ c bad s m t rows, s.admission c 0x22 = some (m, t) → s.allDefined c = true → (t.tblStatus m 4096).2 = 0 →
    t.rowList c (gTarget m.bytes) (t.tblStatus m 4096).1 m = some rows →
    (t.tbl.tblJobs.find? (·.seq == m.seq)) = none → (t.drainRows rows).rowsFree rows = false →
    Leads (.rowRead c true bad) s fun u => u.cmd? c m.seq = some { m with admitted := none }) ∧
  (∀ c s m t rows t1 k n, s.admission c 0x23 = some (m, t) → s.allDefined c = true → s.toRing c = true →
    (t.tblStatus m (2 ^ 32)).2 = 0 → k = (t.tblStatus m (2 ^ 32)).1 → t.rowList c (gTarget m.bytes) k m = some rows →
    (t.tbl.tblJobs.find? (·.seq == m.seq)) = none → t1 = t.drainRows rows →
    n = t1.newSectors (gTarget m.bytes) k rows → (rows.any t1.rowWaits) = false →
    (rows.all fun r => t1.writeGoes (gTarget m.bytes) k r
      (t1.tbl.tblOwner.getD (t1.ctxTenant c) (4 * gTarget m.bytes + k))) = true →
    t1.fits (t1.tbl.tblOwner.getD (t1.ctxTenant c) (4 * gTarget m.bytes + k)) 1 n = true →
    Leads (.rowWrite c true) s fun u => u.ended c m 0 = true ∧
      (∀ r, rows = [r] → (t1.pinned (gTarget m.bytes) k r).isSome = true →
        ∃ x, u.pinned (gTarget m.bytes) k r = some x ∧ x.present = true ∧
          x.dirty = !(t1.isOn fGE_TBL_CTL_WRITE_THROUGH (gTarget m.bytes) 0) ∧
          x.bytes.take (2 * t1.tblW (gTarget m.bytes)) =
            t1.rdN (t1.ctxPort c) (gAddrB m.bytes) (2 * t1.tblW (gTarget m.bytes))))

/-- HATPIN_SWAP, HATPIN_DRAIN_END and HATPIN_FLUSH (R144, R145, R146). -/
def Obligations.TheHatpinSetIsSwapped : Prop :=
  (∀ c s m t rows v t1, s.admission c 0x24 = some (m, t) → s.allDefined c = true → t.tbl.hatpin.swap = none →
    (t.tblStatus m (2 ^ 32)).2 = 0 → v = (t.tblStatus m (2 ^ 32)).1 → t.isOn fGE_HP_CTL_ENABLE 0 0 = true →
    t.fld fGE_HP_CTL_CAP_SLOTS 0 0 * t.rowBytes (gTarget m.bytes) ≤ 2 ^ 36 →
    t.rowList c (gTarget m.bytes) v m = some rows → rows.eraseDups.length = rows.length →
    rows.length ≤ t.fld fGE_HP_CTL_CAP_SLOTS 0 0 →
    (t.swapEnters (gTarget m.bytes) v rows).length + t.tbl.hatpin.rows.length ≤ t.fld fGE_HP_CTL_CAP_SLOTS 0 0 →
    t1 = t.drainRows (t.swapEnters (gTarget m.bytes) v rows) → t1.rowsFree (t.swapEnters (gTarget m.bytes) v rows) = true →
    ((t1.dropCharge t1.tbl.hatpin.chargedTo 0 t1.tbl.hatpin.charged).charge
      (t.fld fTN_PART_TENANT (t.fld fGE_TBL_CTL_PN (gTarget m.bytes) 0) 0) 0 (t.hatpinUnits (gTarget m.bytes))).1 = true →
    (t.tbl.tblJobs.find? (·.seq == m.seq)) = none →
    Leads (.hatpinSwap c true) s fun u => u.cmd? c m.seq = some m ∧ u.isOn fGE_HP_CTL_SWAP_BUSY 0 0 = true ∧
      u.tbl.hatpin.table = gTarget m.bytes ∧ u.tbl.hatpin.vslot = v ∧
      u.tbl.hatpin.buffer = 1 - t1.tbl.hatpin.buffer ∧ (∀ r ∈ u.tbl.hatpin.rows.keys, r ∈ rows) ∧
      ((u.tbl.hatpin.swap.map fun w => (w.seq, w.ctx, w.tbl, w.vslot)) = some (m.seq, c, gTarget m.bytes, v))) ∧
  (∀ s w s1 out, s.tbl.hatpin.swap = some w → s.isOn fGE_HP_CTL_SWAP_BUSY 0 0 = true →
    s1 = s.drainRows ((w.leaving.filter (·.2.dirty)).map (·.1)) → out = (s1.tbl.hatpin.swap.map (·.leaving)).getD [] →
    s1.backGoes w.oldTbl w.oldVslot out = true → Leads .hatpinDrainEnd s fun t => t.tbl.hatpin.swap = none ∧
    t.tbl.hatpin.rows = s1.tbl.hatpin.rows ∧ t.isOn fGE_HP_CTL_SWAP_BUSY 0 0 = false ∧
    (∀ d, t.reg .GE_HP_WRITEBACKS d 0 = s.reg .GE_HP_WRITEBACKS d 0 + BitVec.ofNat 64
      ((out.zip (s1.writeBack w.oldTbl w.oldVslot out).1).filter fun e =>
        e.1.2.dirty && !e.2.2.dirty && e.1.1 % 5 == d).length) ∧
    (∀ m, s1.cmd? w.ctx w.seq = some m → s.toRing w.ctx = true → t.ended w.ctx m 0 = true)) ∧
  (∀ c s m t t1 h, s.admission c 0x25 = some (m, t) → s.allDefined c = true → s.toRing c = true → generalOk m.bytes = true →
    t1 = t.drainRows (t.tbl.hatpin.dirty.map (·.1)) → h = t1.tbl.hatpin → t1.backGoes h.table h.vslot h.rows = true →
    (h.swap.all fun w => t1.backGoes w.oldTbl w.oldVslot w.leaving) = true →
    (t.tbl.tblJobs.find? (·.seq == m.seq)) = none →
    Leads (.hatpinFlush c) s fun u => u.ended c m 0 = true ∧
      u.tbl.hatpin.rows = (t1.writeBack h.table h.vslot h.rows).1 ∧
      (u.tbl.hatpin.rows.map fun e => (e.1, e.2.bytes, e.2.present)) = h.rows.map (fun e => (e.1, e.2.bytes, e.2.present)) ∧
      (∀ e, h.swap = none → h.dirty = [e] → (t1.tblData h.table h.vslot (e.1 / t1.rps h.table) t1.chMask).isSome = true →
        u.tbl.hatpin.dirty = []) ∧
      (h.dirty = [] → u.tbl.hatpin.dirty = []))

/-- TABLE_RETIRE, TABLE_VERSION_FREE and TABLE_VERSION_SWITCH (R142, R143). -/
def Obligations.TableVersions : Prop :=
  (∀ c s m t v, s.admission c 0x26 = some (m, t) → s.allDefined c = true → generalOk m.bytes = true →
    firstFit (fun v => t.tblValid (gTarget m.bytes) v && !t.tblRetiring (gTarget m.bytes) v &&
      t.fld fGE_TBL_VER_VERSION (gTarget m.bytes) v == gVersion m.bytes) 4 = some v →
    t.fld fGE_TBL_CTL_CURRENT (gTarget m.bytes) 0 ≠ v →
    Leads (.tableRetire c) s fun u => u.tblRetiring (gTarget m.bytes) v = true ∧
      u.tbl.tblRetire.get? (4 * gTarget m.bytes + v) = some m.seq ∧ u.cmd? c m.seq = some m ∧
      ∀ w, w ≠ v → u.tblRetiring (gTarget m.bytes) w = t.tblRetiring (gTarget m.bytes) w) ∧
  (∀ tb v s, s.tblRetiring tb v = true → s.syVal (s.fld fGE_TBL_VER_REF_SYNC tb v) = 0 →
    Leads (.tableVersionFree tb v) s fun t => t.tblValid tb v = false ∧ t.tblRetiring tb v = false ∧
      t.tbl.tblOwner.get? (4 * tb + v) = none ∧
      (∀ c m, ((s.tbl.tblRetire.get? (4 * tb + v)).bind s.ownerOf) = some (c, m) → s.cmd? c m.seq = some m →
        s.toRing c = true → t.ended c m 0 = true)) ∧
  (∀ tb v s, s.syVal (s.fld fGE_TBL_VER_REF_SYNC tb v) ≠ 0 → exec (.tableVersionFree tb v) s = .next s) ∧
  (∀ tb v loc s, s.tblSwitchBad tb (s.reg .GE_TBL_CTL tb 0) (writeValue .GE_TBL_CTL (s.reg .GE_TBL_CTL tb 0) v) = false →
    Leads (.tableVersionSwitch tb v loc) s fun t => Frame [] [.GE_TBL_CTL] s t ∧
      t.fld fGE_TBL_CTL_CURRENT tb 0 = Fld.get fGE_TBL_CTL_CURRENT v ∧
      t.fld fGE_TBL_CTL_VALID tb 0 = Fld.get fGE_TBL_CTL_VALID v ∧
      (t.fld fGE_TBL_CTL_SWITCH_COUNT tb 0 = (s.fld fGE_TBL_CTL_SWITCH_COUNT tb 0 +
        if s.fld fGE_TBL_CTL_CURRENT tb 0 = Fld.get fGE_TBL_CTL_CURRENT v then 0 else 1) %
          2 ^ (fGE_TBL_CTL_SWITCH_COUNT.hi + 1 - fGE_TBL_CTL_SWITCH_COUNT.lo))) ∧
  (∀ tb v loc s, s.tblSwitchBad tb (s.reg .GE_TBL_CTL tb 0) (writeValue .GE_TBL_CTL (s.reg .GE_TBL_CTL tb 0) v) = true →
    Leads (.tableVersionSwitch tb v loc) s fun t => Frame [.out, .ras] logRegs s t)

/-- GROUP_ANSWER, GROUP_ANSWER_TIMEOUT and MEMBER_LOST (R87, R171, R172, R262). -/
def Obligations.GroupAnswers : Prop :=
  (∀ conn s r s1, s.takeSend conn 1 = some (r, s1) →
    (s.hq.groups.find? (·.key == BitVec.ofNat 64 (fieldAt r.data 0 8))) = none →
    (s.hq.copyWaits.all fun w => w.key != BitVec.ofNat 64 (fieldAt r.data 0 8)) = true →
    Leads (.groupAnswer conn) s fun t => t.reg .HQ_GRP_LATE 0 0 = s.reg .HQ_GRP_LATE 0 0 + 1 ∧ Frame [.net] [.HQ_GRP_LATE] s t) ∧
  (∀ conn s r s1 m w key, s.takeSend conn 1 = some (r, s1) → key = BitVec.ofNat 64 (fieldAt r.data 0 8) →
    (s.hq.groups.find? (·.key == key)) = none → s.memberOf conn = some m →
    (s.hq.copyWaits.find? fun w => w.key == key && w.members.contains m) = some w →
    Leads (.groupAnswer conn) s fun t => (∀ x ∈ t.hq.copyWaits, x.key = key → m ∉ x.members) ∧
      (∀ i, (s.slotOfMember w.shard m) = some i → (parseAnswer 0x10 m r.data).records ≠ w.records →
        (t.replica w.shard i).1 = 3 ∧ t.reg .HQ_GRP_DIVERGED 0 0 = s.reg .HQ_GRP_DIVERGED 0 0 + 1)) ∧
  (∀ conn s r s1 g m w, s.takeSend conn 1 = some (r, s1) →
    (s.hq.groups.find? (·.key == BitVec.ofNat 64 (fieldAt r.data 0 8))) = some g → s.group? g.seq = some g →
    s.memberOf conn = some m → g.opcode = 0x01 → g.fanned = true → g.expired = false → g.abort = false →
    g.awaited.any (·.1 == m) = true → g.answers.any (·.member == m) = false → fieldAt r.data 10 1 ≠ stAborted →
    w ∈ g.awaited → w.1 ≠ m → g.answers.any (·.member == w.1) = false →
    Leads (.groupAnswer conn) s fun t =>
      t.group? g.seq = some { g with answers := g.answers ++ [parseAnswer g.opcode m r.data] }) ∧
  (∀ conn s r s1 g m c, s.takeSend conn 1 = some (r, s1) →
    (s.hq.groups.find? (·.key == BitVec.ofNat 64 (fieldAt r.data 0 8))) = some g → s.group? g.seq = some g →
    s.memberOf conn = some m → g.opcode = 0x01 → g.fanned = true → g.abort = false →
    g.awaited.any (·.1 == m) = true → g.answers.any (·.member == m) = false → fieldAt r.data 10 1 = 0 →
    (g.awaited.all fun w => w.1 == m || g.answers.any (·.member == w.1)) = true → s.mayAct g = true →
    s.cmd? g.ctx g.seq = some c → s.toRing g.ctx = true →
    Leads (.groupAnswer conn) s fun t => t.group? g.seq = none ∧ t.ended g.ctx c 0 = true) ∧
  (∀ q s g d c, s.group? q = some g → g.tRr = some d → g.opcode = 0x01 → g.fanned = true → g.abort = false →
    s.mayAct g = true → s.cmd? g.ctx q = some c → s.toRing g.ctx = true →
    Leads (.groupAnswerTimeout q) s fun t => t.now = max s.now d ∧ t.group? q = none ∧
      (g.answers = [] → t.ended g.ctx c stDeadline = true) ∧
      (g.answers.any (·.status == 0) = true → t.ended g.ctx c 0 = true ∧
        t.reg .HQ_GRP_MISSING 0 0 = s.reg .HQ_GRP_MISSING 0 0 + BitVec.ofNat 64 g.missingShards.length)) ∧
  (∀ m s, Leads (.memberLost m) s fun t =>
    (∀ sh r, sh < 64 → r < 3 → s.isOn fHQ_GRP_SHARD_V sh 0 = true → (t.replica sh r).2 = m →
      (t.replica sh r).1 ≠ 1 ∧ (t.replica sh r).1 ≠ 2) ∧
    (s.hq.groups = [] → ∀ sh, sh < 64 → s.server sh = some m →
      t.server sh = (t.liveReplicas sh).head?.map fun r => (t.replica sh r).2))

/-- SHARD_COPY_STREAM, SHARD_LIST_LANDED, and the source of a copy (R171, R173, R261). -/
def Obligations.ShardsAreCopied : Prop :=
  (∀ conn s r s1 k, s.takeSend conn 3 = some (r, s1) → dOpcode ((r.data.drop 8).take 64) = 0x15 →
    s1.updVersion ((r.data.drop 8).take 64) = some k →
    Leads (.shardCopyStream conn) s fun t => ∃ x y, t.shardCopy? conn k = some y ∧
      x = (s.shardCopy? conn k).getD
        { conn := conn, ver := k, shard := dShard ((r.data.drop 8).take 64), total := (s.version k).count } ∧
      y = { x with incoming := x.incoming ++ [(uCount ((r.data.drop 8).take 64), r.data.drop 72)] }) ∧
  (∀ conn s r s1 c, s.takeSend conn 3 = some (r, s1) → dOpcode ((r.data.drop 8).take 64) ≠ 0x15 →
    (s1.updVersion ((r.data.drop 8).take 64)).bind (s.shardCopy? conn) = none → s1.fabricCtx conn = some c →
    s1.keyAborted (BitVec.ofNat 64 (fieldAt r.data 0 8)) = false →
    Leads (.shardCopyStream conn) s fun t => t.hq.nextSeq = s.hq.nextSeq + 1 ∧
      t.reg .HQ_CMD_FETCHED 0 0 = s.reg .HQ_CMD_FETCHED 0 0 + 1 ∧
      ((t.ctx c).cmds.getLast?.map fun m => (m.seq, m.bytes, m.conn)) =
        some (s.hq.nextSeq, (r.data.drop 8).take 64, some conn)) ∧
  (∀ conn s r s1 x, s.takeSend conn 3 = some (r, s1) → dOpcode ((r.data.drop 8).take 64) ≠ 0x15 →
    (s1.updVersion ((r.data.drop 8).take 64)).bind (s.shardCopy? conn) = some x → x.held = [] →
    ((s1.updLists x.ver r.data).any fun l => !x.landed.contains l) = true →
    Leads (.shardCopyStream conn) s fun t => t.shardCopy? conn x.ver = some { x with held := [(r.dei, r.data)] } ∧
      t.hq = s.hq ∧ t.idx = s.idx) ∧
  (∀ conn cl s x, (s.ten.shardCopies.find? fun x => x.conn == conn &&
      (x.incoming.any (·.1 == cl) || !x.landed.contains cl)) = some x → x.held = [] →
    Leads (.shardListLanded conn cl) s fun t => t.shardCopy? conn x.ver = some { x with
      incoming := x.incoming.filter fun (e : Nat × List Byte) => e.1 != cl,
      landed := if x.landed.contains cl then x.landed else x.landed ++ [cl] }) ∧
  (∀ sh v loc s w, copyExists .HQ_GRP_SHARD sh 0 = true → s.barServes .HQ_GRP_SHARD sh loc = true →
    w = s.writeReg .HQ_GRP_SHARD sh 0 v → w.isOn fHQ_GRP_SHARD_V sh 0 = true →
    ((w.liveReplicas sh).head?.any fun r => (w.replica sh r).2 == w.selfMember) = true →
    Leads (.registerWrite .HQ_GRP_SHARD sh 0 32 true v loc) s fun t =>
      t.reg .HQ_GRP_SHARD sh 0 = w.reg .HQ_GRP_SHARD sh 0 ∧
      (t.ten.shardSends.map fun x => (x.conn, x.ver, x.shard)) = (s.ten.shardSends.map fun x => (x.conn, x.ver, x.shard)) ++
        ((w.copyMembers sh).filter fun m => !(s.copyMembers sh).contains m && m != w.selfMember).flatMap fun m =>
          ((List.range 64).filter fun k => s.idxValid (k / 4) (k % 4)).map fun k => (w.memberConn m, k, sh))

/-- ACQUIRE, RENEW, PARK, CLAIM, RELEASE and POOL_LEASE_EXPIRY at a pool (R314, R315). -/
def Obligations.PoolsKeepLeases : Prop :=
  (∀ conn s m s1, s.takeLease conn 1 = some (m, s1) → s.poolLease? m.key = none → s.isOn fTN_POOL_CTL_EN 0 0 = true →
    s.ten.poolLeases.length < 65536 → Leads (.acquire conn) s fun t =>
      t.poolLease? m.key = some { key := m.key, epoch := 1, holder := m.holder, expiry := s.now + 4 * ms } ∧
      ∀ k, k ≠ m.key → t.poolLease? k = s.poolLease? k) ∧
  (∀ conn s m s1 r, s.takeLease conn 2 = some (m, s1) → s.poolLease? m.key = some r → m.epoch = r.epoch → m.holder = r.holder →
    Leads (.renew conn) s fun t => t.poolLease? m.key = some { r with expiry := s.now + 4 * ms } ∧
      ∀ k, k ≠ m.key → t.poolLease? k = s.poolLease? k) ∧
  (∀ conn s m s1 r, s.takeLease conn 3 = some (m, s1) → s.poolLease? m.key = some r → m.epoch = r.epoch + 1 →
    Leads (.park conn) s fun t => t.poolLease? m.key = some { r with epoch := m.epoch, holder := m.holder } ∧
      ∀ k, k ≠ m.key → t.poolLease? k = s.poolLease? k) ∧
  (∀ conn s m s1 r, s.takeLease conn 4 = some (m, s1) → s.poolLease? m.key = some r →
    Leads (.claim conn) s fun t => (∀ k, k ≠ m.key → t.poolLease? k = s.poolLease? k) ∧
      (t.poolLease? m.key = if m.epoch = r.epoch + 1
        then some { r with epoch := m.epoch, holder := m.holder, expiry := s.now + 4 * ms } else some r)) ∧
  (∀ conn s m s1 r, s.takeLease conn 5 = some (m, s1) → s.poolLease? m.key = some r → Leads (.release conn) s fun t =>
    t.poolLease? m.key = none ∧ ∀ k, k ≠ m.key → t.poolLease? k = s.poolLease? k) ∧
  (∀ key s r, s.poolLease? key = some r → Leads (.poolLeaseExpiry key) s fun t =>
    t.poolLease? key = none ∧ (∀ k, k ≠ key → t.poolLease? k = s.poolLease? k) ∧ t.now = max s.now r.expiry ∧
    Frame [.now, .ten] [] s t)

/-- REPLY, LEASE_RENEW_TIMER and LEASE_EXPIRY at a head (R313, R314, R315). -/
def Obligations.HeadsHoldLeases : Prop :=
  (∀ conn s m s1 l, s.takeLease conn 6 = some (m, s1) → s.lease? m.key = some l → m.lstatus = 0 →
    m.epoch = l.pendingEpoch → (m.holder = if l.st = 2 then s.fld fTN_LEASE_CFG_POOL_MEMBER 0 0 else s.selfMember) →
    Leads (.reply conn) s fun t =>
      (l.st ≠ 0 → t.lease? m.key = some { l with confirmed := l.lastSent } ∧ Frame [.net, .ten] [] s t) ∧
      (l.st = 0 → s.group? l.seq = none → t.lease? m.key =
        some { l with confirmed := l.lastSent, st := 1, epoch := l.pendingEpoch })) ∧
  (∀ conn s m s1 l, s.takeLease conn 6 = some (m, s1) → s.lease? m.key = some l → m.lstatus ≠ 0 →
    Leads (.reply conn) s fun t => t.lease? m.key = none ∧
      ∀ g c, s.group? l.seq = some g → s.cmd? g.ctx l.seq = some c → s.toRing g.ctx = true →
        t.ended g.ctx c stLeaseLost = true ∧ t.reg .TN_LEASE_LOST 0 0 = s.reg .TN_LEASE_LOST 0 0 + 1) ∧
  (∀ key s l, s.lease? key = some l → l.st = 1 → l.lastSent = l.confirmed → Leads (.leaseRenewTimer key) s fun t =>
    t.now = max s.now (l.confirmed + ms) ∧ t.lease? key = some { l with lastSent := t.now, pendingEpoch := l.epoch } ∧
    t.net.twrOrder = s.net.twrOrder + 1) ∧
  (∀ key s l, s.lease? key = some l → Leads (.leaseExpiry key) s fun t => t.lease? key = none ∧
    t.now = max s.now (l.confirmed + 4 * ms) ∧
    ∀ g c, s.group? l.seq = some g → s.cmd? g.ctx l.seq = some c → s.toRing g.ctx = true →
      t.ended g.ctx c stLeaseLost = true ∧ t.reg .TN_LEASE_LOST 0 0 = s.reg .TN_LEASE_LOST 0 0 + 1)

/-- COMMIT, BAND_DRAINED and AUTO_EPOCH (R304, R306, R307, R310, R339). -/
def Obligations.CompositionEpochs : Prop :=
  (∀ v loc s, (s.writeReg .TN_CMP_CTL 0 0 v).commitCause = none → Leads (.commit v loc) s fun t =>
    t.fld fTN_CMP_EPOCH_EPOCH 0 0 = (s.fld fTN_CMP_EPOCH_EPOCH 0 0 + 1) %
      2 ^ (fTN_CMP_EPOCH_EPOCH.hi + 1 - fTN_CMP_EPOCH_EPOCH.lo) ∧
    t.reg .TN_CMP_COMMITS 0 0 = s.reg .TN_CMP_COMMITS 0 0 + 1 ∧
    (∀ p, p < 50 → t.reg .TN_PART p 0 = s.reg .TN_CMP_PART p 0) ∧
    (∀ g, g < 50 → t.reg .TN_BAND g 0 = s.reg .TN_CMP_BAND g 0) ∧
    ∀ g, g < 50 → Tbl.get? t.ten.departing g =
      if bandPn (s.reg .TN_BAND g 0) ≠ bandPn (s.reg .TN_CMP_BAND g 0) ∧ (bandPn (s.reg .TN_BAND g 0)).isSome = true ∧
        s.onBand g ≠ [] then some (bandPn (s.reg .TN_CMP_BAND g 0)) else none) ∧
  (∀ v loc s c, (s.writeReg .TN_CMP_CTL 0 0 v).commitCause = some c → Leads (.commit v loc) s fun t =>
    t.fld fTN_CMP_CTL_REFUSE_CAUSE 0 0 = c ∧ t.reg .TN_CMP_REFUSED 0 0 = s.reg .TN_CMP_REFUSED 0 0 + 1 ∧
    Frame [.out, .ras] (.TN_CMP_CTL :: .TN_CMP_REFUSED :: logRegs) s t) ∧
  (∀ g s, (Tbl.get? s.ten.departing g).isSome = true → s.onBand g = [] → Leads (.bandDrained g) s fun t =>
    Tbl.get? t.ten.departing g = none ∧ (∀ h, h ≠ g → Tbl.get? t.ten.departing h = Tbl.get? s.ten.departing h) ∧
    t.fld fBD_STATUS_PN g 0 = (bandPn (s.reg .TN_BAND g 0)).getD 0x3F % 2 ^ 6) ∧
  (∀ g s, Tbl.get? s.ten.departing g = none ∨ s.onBand g ≠ [] → exec (.bandDrained g) s = .next s) ∧
  (∀ s d, s.autoAt = some d → s.applying = false → Leads .autoEpoch s fun t => t.now = max s.now d ∧
    t.fld fTN_CMP_EPOCH_EPOCH 0 0 = (s.fld fTN_CMP_EPOCH_EPOCH 0 0 + 1) %
      2 ^ (fTN_CMP_EPOCH_EPOCH.hi + 1 - fTN_CMP_EPOCH_EPOCH.lo) ∧
    t.reg .TN_CMP_AUTO 0 0 = s.reg .TN_CMP_AUTO 0 0 + 1 ∧
    (∀ g, t.reg .TN_BAND g 0 = s.reg .TN_BAND g 0) ∧ (∀ p, t.reg .TN_PART p 0 = s.reg .TN_PART p 0) ∧
    ∀ u ∈ s.pendingUnits, t.svc u = 0 ∨ t.svc u = 6)

/-- REMOVE, UNIT_DRAINED, CORE_WATCHDOG, LANE_FAILED and CRITICAL_TEMPERATURE (R337, R338, R339, R388). -/
def Obligations.UnitsLeaveService : Prop :=
  (∀ u loc s, svcUnit u = true → s.svc u = 0 ∨ s.svc u = 6 →
    (u.kind = 2 ∨ s.svc u = 6 ∨ (s.spareOf u).isSome = true) → s.testing u = false →
    Leads (.remove u loc) s fun t => t.svc u = 1 ∧ t.fld (fCause u.kind) u.num 0 = 1 ∧
      (u.kind = 2 → t.isOn fBD_STATUS_IN_SERVICE u.num 0 = false) ∧
      (∀ p, s.svc u = 0 → s.spareOf u = some p → t.svc ⟨u.kind, p⟩ = 0)) ∧
  (∀ u s, svcUnit u = true → s.svc u = 1 → (u.kind = 2 → s.onBand u.num = []) →
    Leads (.unitDrained u) s fun t => t.svc u = 2) ∧
  (∀ b s, b < 50 → s.onBand b ≠ [] → exec (.unitDrained ⟨2, b⟩) s = .next s) ∧
  (∀ k s, k < 4 → s.svc ⟨8, k⟩ = 0 → Leads (.coreWatchdog k) s fun t =>
    t.svc ⟨8, k⟩ = 1 ∧ t.fld (fCause 8) k 0 = 2 ∧
    (∀ p, s.spareOf ⟨8, k⟩ = some p → t.svc ⟨8, p⟩ = 0 ∧
      t.reg .HG_CORE_FAILOVERS 0 0 = s.reg .HG_CORE_FAILOVERS 0 0 + 1)) ∧
  (∀ l cause s, l < 18 → s.svc ⟨7, l⟩ = 0 → Leads (.laneFailed l cause) s fun t =>
    t.svc ⟨7, l⟩ = 1 ∧ t.fld (fCause 7) l 0 = 2 ∧
    (∀ p, s.spareOf ⟨7, l⟩ = some p → t.svc ⟨7, p⟩ = 0)) ∧
  (∀ die s, Leads (.criticalTemperature die) s fun t => t.power.critEvents = s.power.critEvents + 1 ∧
    ∀ i, i < 10 → s.svc ⟨2, 10 * die + i⟩ = 0 → t.svc ⟨2, 10 * die + i⟩ = 1 ∧
      t.fld (fCause 2) (10 * die + i) 0 = 2 ∧ t.isOn fBD_STATUS_IN_SERVICE (10 * die + i) 0 = false)

/-- RETURN, UNIT_SELF_TEST_DONE, UNIT_SHADOW_ITEM, ABORT_RETURN and BAND_WAKE (R339, R340, R385, R388). -/
def Obligations.UnitsReturnToService : Prop :=
  (∀ u loc s, svcUnit u = true → s.svc u = 2 → s.testing u = false →
    (u.kind = 2 → s.crownTemp (dieOf u.num) < 4 * (s.throttleC : Int)) →
    Leads (.returnUnit u loc) s fun t => t.svc u = 3 ∧ t.fld (fShadow u.kind) u.num 0 = 0) ∧
  (∀ u x y f s, svcUnit u = true → s.svc u = 3 → Leads (.unitSelfTestDone u x y f) s fun t =>
    (x = y → (u.kind = 2 → popcount 18 f < 3) → t.svc u = 4) ∧
    (x ≠ y ∨ u.kind = 2 ∧ 3 ≤ popcount 18 f → t.svc u = 2 ∧ t.fld (fCause u.kind) u.num 0 = 4 ∧
      t.reg .HG_RTS_FAILED 0 0 = s.reg .HG_RTS_FAILED 0 0 + 1)) ∧
  (∀ u s, svcUnit u = true → s.svc u = 4 → Leads (.unitShadowItem u true true) s fun t =>
    t.fld (fShadow u.kind) u.num 0 = min 4095 (s.fld (fShadow u.kind) u.num 0 + 1) ∧
    (t.svc u = if shadowNeed u.kind ≤ s.fld (fShadow u.kind) u.num 0 + 1 then 5 else 4)) ∧
  (∀ u s, svcUnit u = true → s.svc u = 4 → Leads (.unitShadowItem u false true) s fun t =>
    t.svc u = 2 ∧ t.fld (fCause u.kind) u.num 0 = 4 ∧ t.reg .HG_RTS_FAILED 0 0 = s.reg .HG_RTS_FAILED 0 0 + 1) ∧
  (∀ u loc s, svcUnit u = true → s.svc u = 3 ∨ s.svc u = 4 → s.testing u = false →
    Leads (.abortReturn u loc) s fun t => t.svc u = 2) ∧
  (∀ b s d, s.power.waking.get? b = some d → Leads (.bandWake b) s fun t => t.now = max s.now d ∧
    t.power.waking.get? b = none ∧ t.isOn fBD_THR_GATED b 0 = false)

/-- Every received packet: not of its connection, repeated, or beyond a gap; KEEPALIVE (R265, R268, R271, R272, R273,
R275). -/
def Obligations.PacketsAreCheckedAndOrdered : Prop :=
  (∀ f ∈ ([.write, .writeSignal, .readReq, .readRsp, .send, .signal, .gauntletAbort, .gauntletRelease, .keepalive, .ack,
      .msgDone, .nakSeq, .nakMsg, .nakStatus, .busy] : List (Pkt → Instr)), ∀ p s,
    (p.frameOk = false ∨ p.ver ≠ 1 ∨ p.rsvSet = true ∨ 8192 ≤ p.dstConn ∨ s.fld fXT_CONN_CFG_STATE p.dstConn 0 ≠ 1 ∨
      p.inc ≠ s.fld fXT_CONN_CFG_INC p.dstConn 0 ∨ p.srcConn ≠ s.fld fXT_CONN_CFG_PEER_CONN p.dstConn 0) →
    exec (f p) s = .next (s.bump .XT_RX_BAD p.die 0 1)) ∧
  (∀ f ∈ ([.readReq, .send, .signal, .gauntletAbort, .gauntletRelease, .keepalive] : List (Pkt → Instr)), ∀ p s,
    s.pktOk { p with opcode := 5 } = true → (s.policeIn p).1 = true → seqLt p.psn (s.conn p.dstConn).rxPsn = true →
    p.psn ≠ (s.conn p.dstConn).rxPsn →
    Leads (f p) s fun t => t.hasAnswered s p.dstConn 0x10 0 0 0 = true ∧ (t.conn p.dstConn).unacked = 0 ∧
      (t.conn p.dstConn).rxPsn = (s.conn p.dstConn).rxPsn ∧ (t.conn p.dstConn).rx = (s.conn p.dstConn).rx ∧
      (t.conn p.dstConn).waiting = (s.conn p.dstConn).waiting ∧ (t.conn p.dstConn).inbox = (s.conn p.dstConn).inbox) ∧
  (∀ f ∈ ([.readReq, .send, .signal, .gauntletAbort, .gauntletRelease, .keepalive] : List (Pkt → Instr)), ∀ p s,
    s.pktOk { p with opcode := 5 } = true → (s.policeIn p).1 = true → seqLt p.psn (s.conn p.dstConn).rxPsn = false →
    p.psn ≠ (s.conn p.dstConn).rxPsn → (s.conn p.dstConn).kept.any (·.psn == p.psn) = false →
    Leads (f p) s fun t =>
      (t.conn p.dstConn).hold = some ((s.conn p.dstConn).hold.getD (s.now + 4 * us)) ∧
      (s.reorderUsed (s.connDie p.dstConn) < 512 →
        (t.conn p.dstConn).kept.map (·.psn) = (s.conn p.dstConn).kept.map (·.psn) ++ [p.psn]) ∧
      (512 ≤ s.reorderUsed (s.connDie p.dstConn) → (t.conn p.dstConn).kept = (s.conn p.dstConn).kept ∧
        t.reg .XT_REORDER_FULL (s.connDie p.dstConn) 0 = s.reg .XT_REORDER_FULL (s.connDie p.dstConn) 0 + 1)) ∧
  (∀ f ∈ ([.write, .writeSignal] : List (Pkt → Instr)), ∀ p s, s.pktOk { p with opcode := 1 } = true →
    (s.policeIn p).1 = true → p.mp = true →
    (((s.conn p.dstConn).rx? p.msn false).any fun e => e.got.any (·.1 == p.offset)) = true →
    Leads (f p) s fun t =>
      t.reg .XT_MP_DUP (s.connDie p.dstConn) 0 = s.reg .XT_MP_DUP (s.connDie p.dstConn) 0 + 1 ∧ t.dram = s.dram) ∧
  (∀ p s, s.accepts { p with opcode := 0x12 } = true → Leads (.keepalive p) s fun t =>
    (t.conn p.dstConn).rxPsn = (p.psn + 1) % 2 ^ 32 ∧ (t.conn p.dstConn).unacked = 0 ∧
    t.hasAnswered s p.dstConn 0x10 0 0 0 = true ∧
    t.reg .XT_RX_PKTS (s.connDie p.dstConn) 0 = s.reg .XT_RX_PKTS (s.connDie p.dstConn) 0 + 1)

/-- WRITE and WRITE_SIGNAL (R269, R275, R276, R283, R287). -/
def Obligations.WritesReachTheirRegion : Prop :=
  (∀ f op, (f, op) ∈ ([(.write, 1), (.writeSignal, 2)] : List ((Pkt → Instr) × Nat)) → ∀ p s, p.mp = false →
    s.inOrder { p with opcode := op } = true → s.admitStatus p.dstConn { p with opcode := op } = 0 →
    noWrap (s.rgnAddr (handleRegion p.handle) (p.addr + p.offset)) p.payload.length = true →
    Leads (f p) s fun t =>
      t.rdDram (s.rgnDie (handleRegion p.handle)) (s.rgnAddr (handleRegion p.handle) (p.addr + p.offset)) p.payload.length
        = p.payload ∧
      (t.conn p.dstConn).rxPsn = (p.psn + 1) % 2 ^ 32 ∧
      (p.msgLen ≤ p.payload.length → (t.conn p.dstConn).rxMsn = (p.msn + 1) % 2 ^ 32 ∧
        (t.conn p.dstConn).rx? p.msn false = none ∧
        (op = 2 → t.reg .SY_VAL p.sync 0 = s.reg .SY_VAL p.sync 0 + p.value)) ∧
      (p.payload.length < p.msgLen → ((t.conn p.dstConn).rx? p.msn false).map (·.got) = some [(p.offset, p.payload.length)])) ∧
  (∀ f op, (f, op) ∈ ([(.write, 1), (.writeSignal, 2)] : List ((Pkt → Instr) × Nat)) → ∀ p s e,
    s.accepts { p with opcode := op } = true → p.mp = false → (s.conn p.dstConn).rx? p.msn false = some e →
    e.refused = none → noWrap (s.rgnAddr e.region (e.addr + p.offset)) p.payload.length = true →
    Leads (f p) s fun t =>
      t.rdDram (s.rgnDie e.region) (s.rgnAddr e.region (e.addr + p.offset)) p.payload.length = p.payload) ∧
  (∀ f op, (f, op) ∈ ([(.write, 1), (.writeSignal, 2)] : List ((Pkt → Instr) × Nat)) → ∀ p s,
    s.opensMp { p with opcode := op } = true → s.admitStatus p.dstConn { p with opcode := op } = 0 →
    noWrap (s.rgnAddr (handleRegion p.handle) (p.addr + p.offset)) p.payload.length = true →
    Leads (f p) s fun t =>
      t.rdDram (s.rgnDie (handleRegion p.handle)) (s.rgnAddr (handleRegion p.handle) (p.addr + p.offset)) p.payload.length
        = p.payload ∧
      (p.payload.length < p.msgLen → ((t.conn p.dstConn).rx? p.msn false).map (·.got) = some [(p.offset, p.payload.length)]) ∧
      (p.msgLen ≤ p.payload.length → (t.conn p.dstConn).rx? p.msn false = none ∧
        t.hasAnswered s p.dstConn 0x10 1 p.msn 0 = true)) ∧
  (∀ f op, (f, op) ∈ ([(.write, 1), (.writeSignal, 2)] : List ((Pkt → Instr) × Nat)) → ∀ p s,
    s.opensMp { p with opcode := op } = true ∨ p.mp = false ∧ s.inOrder { p with opcode := op } = true →
    s.admitStatus p.dstConn { p with opcode := op } ≠ 0 → (s.conn p.dstConn).waiting = [] →
    Leads (f p) s fun t => t.dram = s.dram ∧
      t.hasAnswered s p.dstConn 0x11 4 p.msn (s.admitStatus p.dstConn { p with opcode := op }) = true ∧
      (s.admitStatus p.dstConn { p with opcode := op } = stRevoked →
        t.reg .XT_REFUSED_REVOKED (s.connDie p.dstConn) 0 = s.reg .XT_REFUSED_REVOKED (s.connDie p.dstConn) 0 + 1) ∧
      (s.admitStatus p.dstConn { p with opcode := op } ≠ stRevoked →
        t.reg .XT_REFUSED_ACCESS (s.connDie p.dstConn) 0 = s.reg .XT_REFUSED_ACCESS (s.connDie p.dstConn) 0 + 1))

/-- READ_REQ, READ_RSP, SEND, SIGNAL and GAUNTLET (R269, R278, R283, R287, R291, R333, R335). -/
def Obligations.ReadsSendsAndSignalsAreTaken : Prop :=
  (∀ p s, s.inOrder { p with opcode := 3, mp := false } = true → s.admitStatus p.dstConn { p with opcode := 3, mp := false } = 0 →
    Leads (.readReq p) s fun t => ∃ q, (t.conn p.dstConn).txq = (s.conn p.dstConn).txq ++ q ∧
      (∀ x ∈ q, x.pkt.opcode = 4 ∧ x.pkt.msn = p.msn ∧ x.sent = false) ∧
      q.flatMap (fun x => x.pkt.payload) =
        s.rdDram (s.rgnDie (handleRegion p.handle)) (s.rgnAddr (handleRegion p.handle) p.addr) p.msgLen) ∧
  (∀ p s w off, s.accepts { p with opcode := 4 } = true → p.mp = false →
    (s.net.wrs.find? fun w => w.conn == p.dstConn && w.op == 3 && w.hasOp && w.msgs.any (·.1 == p.msn)) = some w →
    w.internal = false → ((w.msgs.find? (·.1 == p.msn)).map (·.2)) = some off →
    noWrap (s.rgnAddr w.lRegion (w.lAddr + (off + p.offset))) p.payload.length = true →
    Leads (.readRsp p) s fun t =>
      t.rdDram (s.rgnDie w.lRegion) (s.rgnAddr w.lRegion (w.lAddr + (off + p.offset))) p.payload.length = p.payload ∧
      (p.payload.length < w.left → t.wr? w.id = some { w with left := w.left - p.payload.length }) ∧
      (w.left ≤ p.payload.length → w.rearm = 0 → t.wr? w.id = none ∧ (w.compEn = true →
        t.reg .SY_VAL w.compSync 0 = s.reg .SY_VAL w.compSync 0 + w.compVal))) ∧
  (∀ p s, s.inOrder { p with opcode := 5, mp := false } = true → p.offset = 0 → p.msgLen ≤ p.payload.length →
    (s.conn p.dstConn).rx = [] → (s.conn p.dstConn).refusedSends = [] → p.sendType ≠ 3 →
    (p.sendType = 2 → s.psumRefusal p.payload = none) → Leads (.send p) s fun t =>
      (s.net.poolBytes.getD 0 (s.connDie p.dstConn) + p.msgLen ≤ 2 ^ 24 →
        (t.conn p.dstConn).inbox.map (fun m => (m.msn, m.sendType, m.data)) =
          (s.conn p.dstConn).inbox.map (fun m => (m.msn, m.sendType, m.data)) ++ [(p.msn, p.sendType, p.payload)] ∧
        t.net.poolBytes.getD 0 (s.connDie p.dstConn) = s.net.poolBytes.getD 0 (s.connDie p.dstConn) + p.msgLen) ∧
      (2 ^ 24 < s.net.poolBytes.getD 0 (s.connDie p.dstConn) + p.msgLen →
        (t.conn p.dstConn).inbox = (s.conn p.dstConn).inbox ∧ t.hasAnswered s p.dstConn 0x11 5 p.msn 0 = true ∧
        t.reg .XT_BUSY (s.connDie p.dstConn) 0 = s.reg .XT_BUSY (s.connDie p.dstConn) 0 + 1)) ∧
  (∀ p s st, s.inOrder { p with opcode := 5, mp := false } = true → p.offset = 0 → p.msgLen ≤ p.payload.length →
    (s.conn p.dstConn).rx = [] → (s.conn p.dstConn).refusedSends = [] → p.sendType = 2 →
    s.psumRefusal p.payload = some st → s.net.poolBytes.getD 0 (s.connDie p.dstConn) + p.msgLen ≤ 2 ^ 24 →
    Leads (.send p) s fun t => (t.conn p.dstConn).inbox = (s.conn p.dstConn).inbox ∧
      t.hasAnswered s p.dstConn 0x11 4 p.msn st = true ∧
      t.reg .GE_REQ_REFUSED 0 0 = s.reg .GE_REQ_REFUSED 0 0 + 1) ∧
  (∀ p s, s.inOrder { p with opcode := 6, mp := false } = true → Leads (.signal p) s fun t =>
    (s.syncOpen p.dstConn p.sync = true → t.reg .SY_VAL p.sync 0 = s.reg .SY_VAL p.sync 0 + p.value) ∧
    (s.syncOpen p.dstConn p.sync = false → t.reg .SY_VAL p.sync 0 = s.reg .SY_VAL p.sync 0 ∧
      t.hasAnswered s p.dstConn 0x11 4 p.msn stAccess = true)) ∧
  (∀ p s, s.inOrder { p with opcode := 0x20, mp := false } = true → fieldAt p.payload 8 1 = 1 →
    Leads (.gauntletRelease p) s fun t => t.reg .HG_GAUNTLET_RX 0 0 = s.reg .HG_GAUNTLET_RX 0 0 + 1 ∧
      t.idx.updateLog = s.idx.updateLog.filter (·.key != BitVec.ofNat 64 (fieldAt p.payload 0 8))) ∧
  (∀ p s, s.inOrder { p with opcode := 0x20, mp := false } = true → fieldAt p.payload 8 1 = 0 →
    Leads (.gauntletAbort p) s fun t => t.reg .HG_GAUNTLET_RX 0 0 = s.reg .HG_GAUNTLET_RX 0 0 + 1 ∧
      ((s.hq.groups.find? (·.key == BitVec.ofNat 64 (fieldAt p.payload 0 8))) = none →
        s.isOn fHQ_GRP_CTL_EN 0 0 = false →
        t.ras.abortedKeys.any (·.1 == BitVec.ofNat 64 (fieldAt p.payload 0 8)) = true))

/-- ACK, MSG_DONE, NAK_SEQ, NAK_MSG, NAK_STATUS, BUSY and BUSY_RESEND at the sender (R269, R272, R273, R276, R277,
R283, R230, R291). -/
def Obligations.AcknowledgementsFreePackets : Prop :=
  (∀ p s, s.pktOk { p with opcode := 0x10 } = true → Leads (.ack p) s fun t =>
    (∀ x ∈ (t.conn p.dstConn).txq, belowPsn p.ackPsn x = false) ∧
    ((s.conn p.dstConn).txq.any (belowPsn p.ackPsn) = true →
      (t.conn p.dstConn).timeouts = 0 ∧ (t.conn p.dstConn).lastProgress = s.now) ∧
    ∀ w ∈ s.net.wrs, w.conn = p.dstConn → w.hasOp = true → w.op ≠ 3 → w.id < s.net.twrOrder →
      (∀ x ∈ (s.conn p.dstConn).txq, x.wr = some w.id → belowPsn p.ackPsn x = true) →
      (∀ m ∈ w.msgs, (s.conn p.dstConn).busy.get? m.1 = none) → t.wr? w.id = none) ∧
  (∀ p s, s.pktOk { p with opcode := 0x10 } = true → Leads (.msgDone p) s fun t =>
    ((s.conn p.dstConn).txq.any (fun x => x.pkt.mp && x.pkt.msn == p.ackMsn) = true →
      (t.conn p.dstConn).timeouts = 0 ∧ (t.conn p.dstConn).lastProgress = s.now) ∧
    ∀ w ∈ s.net.wrs, w.conn = p.dstConn → w.hasOp = true → w.op ≠ 3 → w.id < s.net.twrOrder →
      (∀ x ∈ (s.conn p.dstConn).txq, x.wr = some w.id → (x.pkt.mp && x.pkt.msn == p.ackMsn) = true) →
      (∀ m ∈ w.msgs, (s.conn p.dstConn).busy.get? m.1 = none) → t.wr? w.id = none) ∧
  (∀ p s, s.pktOk { p with opcode := 0x11 } = true → Leads (.nakSeq p) s fun t =>
    (∀ x ∈ (t.conn p.dstConn).txq, belowPsn p.ackPsn x = false) ∧
    ∀ x ∈ (t.conn p.dstConn).txq, x.pkt.mp = false → x.sent = false) ∧
  (∀ p s, s.pktOk { p with opcode := 0x11 } = true → Leads (.nakMsg p) s fun t =>
    (t.conn p.dstConn).txq = (s.conn p.dstConn).txq.map fun x =>
      if x.sent ∧ x.pkt.mp ∧ x.pkt.msn = p.ackMsn ∧ p.nakOffset ≤ x.pkt.offset then { x with sent := false, again := true }
      else x) ∧
  (∀ p s w, s.pktOk { p with opcode := 0x11 } = true → s.wrOfMsn p.dstConn p.ackMsn = some w →
    (s.qry.queries.find? fun e => e.2.reqWrs.contains w.id && e.2.stage == .fp16) = none → s.tierWR w.id = false →
    Leads (.nakStatus p) s fun t => t.wr? w.id = none ∧ t.reg .XT_TWR_FAILED 0 0 = s.reg .XT_TWR_FAILED 0 0 + 1 ∧
      ((s.wr? w.id) = some w → t.fld fXT_CONN_STATUS_LAST_STATUS w.conn 0 =
          p.status % 2 ^ (fXT_CONN_STATUS_LAST_STATUS.hi + 1 - fXT_CONN_STATUS_LAST_STATUS.lo) ∧
        (w.internal = false → t.fld fXT_TWR_CTL_STATE w.slot 0 = 0))) ∧
  (∀ p s w g, s.pktOk { p with opcode := 0x11 } = true → s.wrOfMsn p.dstConn p.ackMsn = some w → s.tierWR w.id = true →
    (s.qry.queries.find? fun e => e.2.reqWrs.contains w.id && e.2.stage == .fp16) = none →
    p.status = stRevoked ∨ p.status = stAccess → g < 64 → s.isOn fTN_RG_V g 0 = true → s.fld fTN_RG_STATE g 0 ≠ 2 →
    s.fld fTN_RG_CONN g 0 = w.conn → s.fld fTN_RG_REGION g 0 = w.rHandle →
    Leads (.nakStatus p) s fun t => t.fld fTN_RG_STATE g 0 = 2) ∧
  (∀ p s w, s.pktOk { p with opcode := 0x11 } = true → s.wrOfMsn p.dstConn p.ackMsn = some w →
    Leads (.busy p) s fun t => t.net.wrs = s.net.wrs ∧ (t.conn p.dstConn).busy.get? p.ackMsn =
      some (s.now + us * s.fld fXT_REL_CFG_BUSY_US (s.connDie p.dstConn) 0)) ∧
  (∀ c msn s due w, (s.conn c).busy.get? msn = some due → s.wrOfMsn c msn = some w →
    Leads (.busyResend c msn) s fun t => t.now = max s.now due ∧ (t.conn c).busy.get? msn = none ∧
      t.net.wrs = s.net.wrs ∧ ∃ q, (t.conn c).txq = (s.conn c).txq ++ q ∧
        (∀ x ∈ q, x.pkt.opcode = 5 ∧ x.pkt.msn = msn ∧ x.wr = some w.id ∧ x.sent = false ∧ x.pkt.sendType = w.sendType) ∧
        (w.data ≠ [] → q.flatMap (fun x => x.pkt.payload) = w.data))

/-- KEEPALIVE_SEND, KEEPALIVE_LOSS, the hold timers, ACK_DELAY_EXPIRY, RETRANSMIT_TIMEOUT, PACKET_DEPART and
PFC_PAUSE (R267, R271, R272, R273, R274, R277, R279, R280, R292, R301). -/
def Obligations.ConnectionsKeepTime : Prop :=
  (∀ c s, s.ready c = true → s.kaNs c ≠ 0 → (s.conn c).txq = [] → Leads (.keepaliveSend c) s fun t =>
    t.now = max s.now ((s.conn c).lastTx + s.kaNs c) ∧ (t.conn c).txPsn = ((s.conn c).txPsn + 1) % 2 ^ 32 ∧
    (t.conn c).txq.map (fun x => (x.pkt.opcode, x.pkt.psn, x.sent)) = [(0x12, (s.conn c).txPsn, true)]) ∧
  (∀ c s, s.ready c = true → s.kaNs c ≠ 0 → Leads (.keepaliveLoss c) s fun t =>
    t.now = max s.now ((s.conn c).lastRx + 4 * s.kaNs c) ∧ t.fld fXT_CONN_CFG_STATE c 0 = 2 ∧
    t.fld fXT_CONN_STATUS_ERR_CAUSE c 0 = 2 ∧
    t.reg .XT_CONN_ERRORS (s.connDie c) 0 = s.reg .XT_CONN_ERRORS (s.connDie c) 0 + 1 ∧
    (t.conn c).rx = [] ∧ (t.conn c).kept = []) ∧
  (∀ c s d, (s.conn c).hold = some d → Leads (.packetHoldExpiry c) s fun t => t.now = max s.now d ∧
    (t.conn c).hold = none ∧ (t.conn c).kept = [] ∧ t.hasAnswered s c 0x11 2 0 0 = true ∧
    t.reg .XT_NAK_SEQ (s.connDie c) 0 = s.reg .XT_NAK_SEQ (s.connDie c) 0 + 1) ∧
  (∀ c msn s e d, ((s.conn c).rx.find? fun e => e.msn == msn && e.hold.isSome) = some e → e.hold = some d →
    Leads (.messageHoldExpiry c msn) s fun t => t.now = max s.now d ∧ t.hasAnswered s c 0x11 3 msn 0 = true ∧
      (∀ x ∈ (t.conn c).rx, x.msn = msn → (x.opcode = 4 ↔ e.opcode = 4) → x.hold = none) ∧
      t.reg .XT_NAK_MSG (s.connDie c) 0 = s.reg .XT_NAK_MSG (s.connDie c) 0 + 1) ∧
  (∀ c s d, (s.conn c).firstUnacked = some d → Leads (.ackDelayExpiry c) s fun t => t.now = max s.now (d + 2 * us) ∧
    (t.conn c).unacked = 0 ∧ (t.conn c).firstUnacked = none ∧ t.hasAnswered s c 0x10 0 0 0 = true) ∧
  (∀ c s d, (s.conn c).stalledSince = some d → s.ready c = true → Leads (.retransmitTimeout c) s fun t =>
    t.now = max s.now (d + us * s.fld fXT_REL_CFG_RTO_US (s.connDie c) 0 * 2 ^ min (s.conn c).timeouts 6) ∧
    t.reg .XT_RTO (s.connDie c) 0 = s.reg .XT_RTO (s.connDie c) 0 + 1 ∧
    ((s.conn c).timeouts + 1 < s.fld fXT_REL_CFG_RETRY_MAX (s.connDie c) 0 →
      (t.conn c).timeouts = (s.conn c).timeouts + 1 ∧ (t.conn c).lastProgress = t.now ∧
      (t.conn c).txq.length = (s.conn c).txq.length ∧ ∀ x ∈ (t.conn c).txq, x.sent = false) ∧
    (s.fld fXT_REL_CFG_RETRY_MAX (s.connDie c) 0 ≤ (s.conn c).timeouts + 1 →
      t.fld fXT_CONN_CFG_STATE c 0 = 2 ∧ t.fld fXT_CONN_STATUS_ERR_CAUSE c 0 = 1 ∧ (t.conn c).rx = [])) ∧
  (∀ c s x u, (s.conn c).txq.find? (fun x => !x.sent) = some x → s.ready c = true → s.portUp x.pkt.die x.pkt.port = true →
    u = (if s.isOn fXT_CONN_CFG_CC_MODE c 0 = true ∧ isData x.pkt.opcode = true
      then s.reach (s.conn c).nextDepart.ceil.toNat else s) →
    (isData x.pkt.opcode = true → (s.conn c).inFlight < s.fld fXT_CONN_CC_WINDOW c 0 ∧ s.paused c = false ∧
      (u.shapeOut c x.pkt).isSome = true) →
    Leads (.packetDepart c) s fun t => t.now = u.now ∧ (t.conn c).txq = markSent u.now (s.conn c).txq ∧
      t.out = s.out ++
        [.packet x.pkt.die x.pkt.port { x.pkt with txTs := u.now } (s.frame c { x.pkt with txTs := u.now })] ∧
      t.reg .XT_TX_PKTS x.pkt.die 0 = s.reg .XT_TX_PKTS x.pkt.die 0 + 1) ∧
  (∀ die port cls d s, cls < 2 → Leads (.pfcPause die port cls d) s fun t =>
    (d = 0 → t.net.pfc.get? (pfcKey die port cls) = none) ∧
    (d ≠ 0 → t.net.pfc.get? (pfcKey die port cls) =
      some ((((s.net.pfc.get? (pfcKey die port cls)).map (·.1)).getD s.now), s.now + d))) ∧
  (∀ die port cls s e, s.net.pfc.get? (pfcKey die port cls) = some e → Leads (.pfcPauseExpiry die port cls) s fun t =>
    t.net.pfc.get? (pfcKey die port cls) = none ∧ t.now = max s.now e.2 ∧
    t.reg .XT_PFC_RX_NS die 0 = s.reg .XT_PFC_RX_NS die 0 + BitVec.ofNat 64 (e.2 - e.1))

/-- CONNECT, CONNECTION_RESET, SY_VAL_WRITE, SY_ADD, ARM, DISARM, OPS_ENTRY_GRANT (R270, R274, R286, R288, R289,
R290, R291). -/
def Obligations.ConnectionsAndTriggers : Prop :=
  (∀ c loc s, s.fld fXT_CONN_CFG_STATE c 0 = 0 → s.mayConnect c = true → Leads (.connect c loc) s fun t =>
    t.fld fXT_CONN_CFG_STATE c 0 = 1 ∧ (t.conn c).txPsn = 0 ∧ (t.conn c).txMsn = 0 ∧ (t.conn c).rxPsn = 0 ∧
    (t.conn c).rxMsn = 0 ∧ (t.conn c).txq = [] ∧ (t.conn c).rx = [] ∧ ∀ d, d ≠ c → t.conn d = s.conn d) ∧
  (∀ c loc s, s.fld fXT_CONN_CFG_STATE c 0 ≠ 0 ∨ s.mayConnect c = false → Leads (.connect c loc) s fun t =>
    t.ras.refused = s.ras.refused + 1 ∧ Frame [.out, .ras] logRegs s t) ∧
  (∀ c s, Leads (.connectionReset c) s fun t => t.fld fXT_CONN_CFG_STATE c 0 = 0 ∧ (t.conn c).rx = [] ∧
    (t.conn c).waiting = [] ∧ (t.conn c).inbox = [] ∧ (t.conn c).kept = [] ∧
    (s.ready c = true → t.fld fXT_CONN_STATUS_ERR_CAUSE c 0 = 3)) ∧
  (∀ c v a i s, (c = .syValWrite i v ∨ c = .syAdd i a ∧ v = s.reg .SY_VAL i 0 + a) → Leads c s fun t => t.reg .SY_VAL i 0 = v ∧
    ∀ w ∈ s.net.wrs, w.issued = false → w.triggered = true → w.trigSync = i → w.trigVal.toNat ≤ v.toNat →
      (t.wr? w.id).map (·.issued) = some true) ∧
  (∀ k loc s, s.fld fXT_TWR_CTL_STATE k 0 = 0 → s.armOk (s.slotBytes k) = true → s.wr? s.net.twrOrder = none →
    Leads (.arm k loc) s fun t => t.net.twrOrder = s.net.twrOrder + 1 ∧
      (s.trigMet (parseWR k (s.slotBytes k)) = false → t.fld fXT_TWR_CTL_STATE k 0 = 1 ∧
        t.net.wrs = s.net.wrs ++ [{ parseWR k (s.slotBytes k) with id := s.net.twrOrder }]) ∧
      (s.trigMet (parseWR k (s.slotBytes k)) = true → t.fld fXT_TWR_CTL_STATE k 0 = 2 ∧
        (t.wr? s.net.twrOrder).map (·.issued) = some true ∧
        t.reg .XT_TWR_ISSUED 0 0 = s.reg .XT_TWR_ISSUED 0 0 + 1)) ∧
  (∀ k loc s, s.fld fXT_TWR_CTL_STATE k 0 ≠ 0 ∨ s.armOk (s.slotBytes k) = false → Leads (.arm k loc) s fun t =>
    t.ras.refused = s.ras.refused + 1 ∧ Frame [.out, .ras] logRegs s t) ∧
  (∀ k loc s, Leads (.disarm k loc) s fun t =>
    (s.fld fXT_TWR_CTL_STATE k 0 = 1 → t.fld fXT_TWR_CTL_STATE k 0 = 0 ∧
      t.net.wrs = s.net.wrs.filter fun w => w.internal || w.issued || w.slot != k) ∧
    (s.fld fXT_TWR_CTL_STATE k 0 = 2 → t.ras.refused = s.ras.refused + 1 ∧ t.net = s.net)) ∧
  (∀ s, s.net.wrs.any (fun w => w.issued && !w.hasOp) = true → s.opsUsed < 65536 → Leads .opsEntryGrant s fun t =>
    ∃ w ∈ s.net.wrs, w.issued = true ∧ w.hasOp = false ∧
      (∀ v ∈ s.net.wrs, v.issued = true → v.hasOp = false → w.waitSince ≤ v.waitSince) ∧
      (t.wr? w.id).map (·.hasOp) = some true ∧
      t.reg .XT_OPS_FULL_NS 0 0 = s.reg .XT_OPS_FULL_NS 0 0 + BitVec.ofNat 64 (s.now - w.waitSince))

/-- VALIDATE, REVOKE and REVOCATION_COMPLETE: the table of region revocation (R284). -/
def Obligations.RegionsAreRevokedAsTabled : Prop :=
  (∀ r loc s, s.fld fXT_RGN_CTL_STATE r 0 = 1 → Leads (.revoke r loc) s fun t =>
    t.fld fXT_RGN_CTL_STATE r 0 = 2 ∧ (∀ c p, handleRegion p.handle = r → t.admitStatus c p = stRevoked) ∧
    Frame [] [.XT_RGN_CTL] s t) ∧
  (∀ (s : State) c p, s.fld fXT_RGN_CTL_STATE (handleRegion p.handle) 0 = 2 → s.admitStatus c p = stRevoked) ∧
  (∀ r s, s.fld fXT_RGN_CTL_STATE r 0 = 2 → s.admitted r = false → ∃ u, exec (.revocationComplete r) s = .next u.retryFp16 ∧
    u.fld fXT_RGN_CTL_STATE r 0 = 0 ∧ u.fld fXT_RGN_CTL_KEY r 0 = (s.fld fXT_RGN_CTL_KEY r 0 + 1) % 256 ∧
    u.reg .SY_VAL (s.fld fXT_RGN_CTL_REVOKE_SYNC r 0) 0 = s.reg .SY_VAL (s.fld fXT_RGN_CTL_REVOKE_SYNC r 0) 0 + 1 ∧
    Frame [.net] (.XT_RGN_CTL :: .XT_RGN_REVOKES :: signalRegs) s u) ∧
  (∀ r s, s.fld fXT_RGN_CTL_STATE r 0 = 2 → s.admitted r = true → exec (.revocationComplete r) s = .next s) ∧
  (∀ r (s : State), s.admitted r = true ↔
    (∃ e ∈ s.net.conns, (∃ m ∈ e.2.rx, m.refused = none ∧ (m.opcode = 1 ∨ m.opcode = 2) ∧ m.region = r) ∨
      ∃ m ∈ e.2.waiting, m.opcode = 3 ∧ m.region = r) ∨
    ∃ w ∈ s.net.wrs, w.issued = true ∧ w.internal = false ∧ w.op ≠ 6 ∧ w.lRegion = r) ∧
  (∀ r loc s, s.fld fXT_RGN_CTL_STATE r 0 = 0 → Leads (.revoke r loc) s fun t =>
    t.fld fXT_RGN_CTL_STATE r 0 = 0 ∧
    t.reg .SY_VAL (s.fld fXT_RGN_CTL_REVOKE_SYNC r 0) 0 = s.reg .SY_VAL (s.fld fXT_RGN_CTL_REVOKE_SYNC r 0) 0 + 1) ∧
  (∀ r loc s, s.fld fXT_RGN_CTL_STATE r 0 = 0 → Leads (.validate r loc) s fun t =>
    t.fld fXT_RGN_CTL_STATE r 0 = 1 ∧ Frame [] [.XT_RGN_CTL] s t) ∧
  (∀ c r loc s, c = .validate r loc ∧ s.fld fXT_RGN_CTL_STATE r 0 ≠ 0 ∨ c = .revoke r loc ∧ 2 ≤ s.fld fXT_RGN_CTL_STATE r 0 →
    Leads c s fun t => t.fld fXT_RGN_CTL_STATE r 0 = s.fld fXT_RGN_CTL_STATE r 0 ∧
      (t.reg .EL_RECORDS 0 0 ≠ s.reg .EL_RECORDS 0 0 ∨ t.reg .EL_COALESCED 0 0 = s.reg .EL_COALESCED 0 0 + 1) ∧
      Frame [.out, .ras] logRegs s t)

/-- A protection domain's tenant polices and shapes its packets; a domain with V 0 is neither policed nor shaped
(R294). -/
def Obligations.DomainsWithoutATenantAreFree : Prop :=
  (∀ f op, (f, op) ∈ ([(.write, 1), (.writeSignal, 2), (.readReq, 3), (.readRsp, 4), (.send, 5), (.signal, 6)] :
      List ((Pkt → Instr) × Nat)) → ∀ p s, s.pktOk { p with opcode := op } = true →
    (s.isOn fPL_PD_TENANT_V (s.connDie p.dstConn) (s.connPd p.dstConn) = false → Leads (f p) s fun t => t.pol = s.pol ∧
      t.reg .PL_UNMAPPED (s.connDie p.dstConn) 0 = s.reg .PL_UNMAPPED (s.connDie p.dstConn) 0 + 1) ∧
    (s.isOn fPL_PD_TENANT_V (s.connDie p.dstConn) (s.connPd p.dstConn) = true → ∀ r,
      r = s.police (1 + s.connDie p.dstConn) (s.fld fPL_PD_TENANT_TENANT (s.connDie p.dstConn) (s.connPd p.dstConn))
        (Colour.ofBit p.dei) p.frameBytes →
      Leads (f p) s fun t => t.pol = r.2.pol ∧
        t.reg .PL_UNMAPPED (s.connDie p.dstConn) 0 = s.reg .PL_UNMAPPED (s.connDie p.dstConn) 0 ∧
        (r.1 = .red → t.dram = s.dram ∧ t.conn p.dstConn = { s.conn p.dstConn with lastRx := s.now }))) ∧
  (∀ c s x u, (s.conn c).txq.find? (fun x => !x.sent) = some x → s.ready c = true → s.portUp x.pkt.die x.pkt.port = true →
    isData x.pkt.opcode = true → (s.conn c).inFlight < s.fld fXT_CONN_CC_WINDOW c 0 → s.paused c = false →
    u = (if s.isOn fXT_CONN_CFG_CC_MODE c 0 = true then s.reach (s.conn c).nextDepart.ceil.toNat else s) →
    (s.isOn fPL_PD_TENANT_V (s.connDie c) (s.connPd c) = false → Leads (.packetDepart c) s fun t => t.pol = s.pol ∧
      t.reg .PL_UNMAPPED (s.connDie c) 0 = s.reg .PL_UNMAPPED (s.connDie c) 0 + 1 ∧
      (t.conn c).txq = markSent u.now (s.conn c).txq) ∧
    (s.isOn fPL_PD_TENANT_V (s.connDie c) (s.connPd c) = true → Leads (.packetDepart c) s fun t =>
      t.reg .PL_UNMAPPED (s.connDie c) 0 = s.reg .PL_UNMAPPED (s.connDie c) 0 ∧
      match u.shape? (s.connDie c) (s.fld fPL_PD_TENANT_TENANT (s.connDie c) (s.connPd c)) x.pkt.frameBytes with
      | some v => t.pol = v.pol ∧ (t.conn c).txq = markSent u.now (s.conn c).txq
      | none => (t.conn c).txq = (s.conn c).txq))

/-- POLICER_COMMIT, STRICT_COMMIT, SHAPER_COMMIT, BUCKET_REFILL and ABORTED_KEY_EXPIRY (R295, R296, R299, R301, R302,
R335). -/
def Obligations.BucketsAreCommittedAndRefilled : Prop :=
  (∀ p u v loc s, policerOk p (Fld.get fPL_POL_CTL_MODE v) (s.fld fPL_POL_CIR_CIR p u) (s.fld fPL_POL_PIR_PIR p u)
      (s.fld fPL_POL_BURST_SIZE_A p u) (s.fld fPL_POL_BURST_SIZE_B p u) = true →
    Leads (.policerCommit p u v loc) s fun t =>
      (t.policer p u).en = (Fld.get fPL_POL_CTL_EN v == 1) ∧ (t.policer p u).mode = Fld.get fPL_POL_CTL_MODE v ∧
      (t.policer p u).aware = (Fld.get fPL_POL_CTL_AWARE v == 1) ∧ (t.policer p u).cir = s.fld fPL_POL_CIR_CIR p u ∧
      (t.policer p u).pir = s.fld fPL_POL_PIR_PIR p u ∧ (t.policer p u).sizeA = s.fld fPL_POL_BURST_SIZE_A p u ∧
      (t.policer p u).sizeB = s.fld fPL_POL_BURST_SIZE_B p u ∧
      (t.policer p u).c = (if Fld.get fPL_POL_CTL_TOK_FULL v = 1 then s.fld fPL_POL_BURST_SIZE_A p u * 10 ^ 6 else 0) ∧
      (t.policer p u).p = (if Fld.get fPL_POL_CTL_TOK_FULL v = 1 then s.fld fPL_POL_BURST_SIZE_B p u * 10 ^ 6 else 0) ∧
      (∀ p' u', (p', u') ≠ (p, u) → t.policer p' u' = s.refillDue.policer p' u') ∧
      t.pol.stricts = s.refillDue.pol.stricts ∧ t.pol.shapers = s.refillDue.pol.shapers) ∧
  (∀ p u v loc s, policerOk p (Fld.get fPL_POL_CTL_MODE v) (s.fld fPL_POL_CIR_CIR p u) (s.fld fPL_POL_PIR_PIR p u)
      (s.fld fPL_POL_BURST_SIZE_A p u) (s.fld fPL_POL_BURST_SIZE_B p u) = false →
    Leads (.policerCommit p u v loc) s fun t => t.pol = s.pol ∧
      t.reg .PL_COMMIT_REFUSED 0 0 = s.reg .PL_COMMIT_REFUSED 0 0 + 1 ∧
      Frame [.freeCount, .out, .ras] (.PL_COMMIT_REFUSED :: logRegs) s t) ∧
  (∀ k v loc s, Leads (.strictCommit k v loc) s fun t =>
    (Fld.get fPL_STRICT_CTL_EN v = 1 → ((List.range 8).any fun j => j != k && s.isOn fPL_STRICT_CTL_EN j 0 &&
        s.fld fPL_STRICT_CTL_TENANT j 0 == Fld.get fPL_STRICT_CTL_TENANT v) = true →
      t.pol = s.pol ∧ t.ras.refused = s.ras.refused + 1 ∧ Frame [.out, .ras] logRegs s t) ∧
    (Fld.get fPL_STRICT_CTL_EN v ≠ 1 ∨ ((List.range 8).any fun j => j != k && s.isOn fPL_STRICT_CTL_EN j 0 &&
        s.fld fPL_STRICT_CTL_TENANT j 0 == Fld.get fPL_STRICT_CTL_TENANT v) = false →
      (∃ p, p < 3 ∧ (s.fld fPL_STRICT_RATE_RATE k p = 0 ∨ s.fld fPL_STRICT_SIZE_SIZE k p = 0 ∨
        p ≠ 0 ∧ s.fld fPL_STRICT_SIZE_SIZE k p < 8192)) → t.pol = s.pol ∧
      t.reg .PL_COMMIT_REFUSED 0 0 = s.reg .PL_COMMIT_REFUSED 0 0 + 1) ∧
    (Fld.get fPL_STRICT_CTL_EN v ≠ 1 ∨ ((List.range 8).any fun j => j != k && s.isOn fPL_STRICT_CTL_EN j 0 &&
        s.fld fPL_STRICT_CTL_TENANT j 0 == Fld.get fPL_STRICT_CTL_TENANT v) = false →
      (∀ p, p < 3 → 0 < s.fld fPL_STRICT_RATE_RATE k p ∧ 0 < s.fld fPL_STRICT_SIZE_SIZE k p ∧
        (p ≠ 0 → 8192 ≤ s.fld fPL_STRICT_SIZE_SIZE k p)) →
      t.fld fPL_STRICT_CTL_TENANT k 0 = Fld.get fPL_STRICT_CTL_TENANT v ∧ t.pol.policers = s.refillDue.pol.policers ∧
      ∀ p, p < 3 → (t.strict k p).cir = s.fld fPL_STRICT_RATE_RATE k p ∧
        (t.strict k p).sizeA = s.fld fPL_STRICT_SIZE_SIZE k p ∧
        (t.strict k p).c = if Fld.get fPL_STRICT_CTL_TOK_FULL v = 1 then s.fld fPL_STRICT_SIZE_SIZE k p * 10 ^ 6 else 0)) ∧
  (∀ d u v loc s, Leads (.shaperCommit d u v loc) s fun t =>
    (64 ≤ Fld.get fPL_SHP_CTL_OVERHEAD v ∧ Fld.get fPL_SHP_CTL_OVERHEAD v ≤ 95 ∨ s.fld fPL_SHP_RATE_RATE d u < 1000 ∨
        50000000000 < s.fld fPL_SHP_RATE_RATE d u ∨ s.fld fPL_SHP_SIZE_SIZE d u < 8192 →
      t.pol = s.pol ∧ t.reg .PL_COMMIT_REFUSED 0 0 = s.reg .PL_COMMIT_REFUSED 0 0 + 1) ∧
    ((Fld.get fPL_SHP_CTL_OVERHEAD v < 64 ∨ 95 < Fld.get fPL_SHP_CTL_OVERHEAD v) → 1000 ≤ s.fld fPL_SHP_RATE_RATE d u →
        s.fld fPL_SHP_RATE_RATE d u ≤ 50000000000 → 8192 ≤ s.fld fPL_SHP_SIZE_SIZE d u →
      (t.shaper d u).en = (Fld.get fPL_SHP_CTL_EN v == 1) ∧ (t.shaper d u).cir = s.fld fPL_SHP_RATE_RATE d u ∧
      (t.shaper d u).sizeA = s.fld fPL_SHP_SIZE_SIZE d u ∧
      (t.shaper d u).overhead = (if Fld.get fPL_SHP_CTL_OVERHEAD v < 64 then (Fld.get fPL_SHP_CTL_OVERHEAD v : Int)
        else (Fld.get fPL_SHP_CTL_OVERHEAD v : Int) - 128) ∧
      (t.shaper d u).c = (if Fld.get fPL_SHP_CTL_TOK_FULL v = 1 then s.fld fPL_SHP_SIZE_SIZE d u * 10 ^ 6 else 0) ∧
      ∀ d' u', (d', u') ≠ (d, u) → t.shaper d' u' = s.refillDue.shaper d' u')) ∧
  (∀ s, Leads .bucketRefill s fun t => t.now = max s.now (s.pol.lastRefill + us) ∧ ∃ n, 1 ≤ n ∧
    n = (t.now - s.pol.lastRefill) / us ∧ t.pol.lastRefill = s.pol.lastRefill + n * us ∧
    (∀ p u m, m = s.policer p u → m.mode = 1 →
      (t.policer p u).c = min (m.c + n * m.cir) (m.sizeA * 10 ^ 6) ∧
      (t.policer p u).p = min (m.p + n * m.pir) (m.sizeB * 10 ^ 6)) ∧
    (∀ p u m, m = s.policer p u → m.mode ≠ 1 → m.c ≤ m.sizeA * 10 ^ 6 →
      (t.policer p u).c = min (m.c + n * m.cir) (m.sizeA * 10 ^ 6) ∧
      (m.sizeA * 10 ^ 6 < m.c + n * m.cir → (t.policer p u).p =
        min (m.p + (m.c + n * m.cir - m.sizeA * 10 ^ 6)) (m.sizeB * 10 ^ 6))) ∧
    (∀ k p m, m = s.strict k p → (t.strict k p).c = min (m.c + n * m.cir) (m.sizeA * 10 ^ 6)) ∧
    (∀ d u m, m = s.shaper d u → (t.shaper d u).c = min (m.c + n * m.cir) (m.sizeA * 10 ^ 6))) ∧
  (∀ e es s, s.ras.abortedKeys = e :: es → Leads .abortedKeyExpiry s fun t => t.ras.abortedKeys = es ∧
    t.now = max s.now (e.2 + sec) ∧ Frame [.now, .ras] [] s t)

/-- STRIPE_WRITE, RECORD_APPEND, the journal, FOLD, TL_CHECKPOINT, GC, the flash's time and format, and the flush at
a power loss (R186, R187, R194, R197, R199, R200, R201, R203, R206, R209, R212, R213). -/
def Obligations.SectorsAreWrittenAndMoved : Prop :=
  (∀ die bad s w rest, s.dieReset die = false → s.fl.swrites.getD [] die = w :: rest → s.chAccepts w.ch = true →
    s.chAccepts (parityCh w.ch w.lsn) = true → (s.shaper (2 + w.ch) w.tenant).en = false → w.ch < 32 →
    (∀ r ∈ (s.chan w.ch).journal, r.jseq < (s.chan w.ch).jNext) →
    (∀ r ∈ (s.chan (parityCh w.ch w.lsn)).journal, r.jseq < (s.chan (parityCh w.ch w.lsn)).jNext) →
    Leads (.stripeWrite die bad) s fun t => t.fl.swrites.getD [] die = rest ∧
      (s.chTakes w.ch w.lsn = true → (t.chan w.ch).look w.lsn = .data w.data 0 ∧
        t.reg .GE_PAR_WRITES (dieOfChannel (parityCh w.ch w.lsn)) 0 =
          s.reg .GE_PAR_WRITES (dieOfChannel (parityCh w.ch w.lsn)) 0 + 1) ∧
      (s.chTakes w.ch w.lsn = false → (t.chan w.ch).look w.lsn = (s.chan w.ch).look w.lsn ∧
        t.reg .GE_PAR_ONLY (dieOfChannel (parityCh w.ch w.lsn)) 0 =
          s.reg .GE_PAR_ONLY (dieOfChannel (parityCh w.ch w.lsn)) 0 + 1) ∧
      (∀ e k x old crc p wx, e = stripeSet w.lsn → k = parityCh w.ch w.lsn → x = s.parityIx k e → s.chTakes k x = true →
        s.oldData w bad = some (old, crc) → (s.chan k).look x = .data p wx → bad.contains k = false →
        (t.chan k).look x = .data (xorBytes (xorBytes p old) w.data) (wx ^^^ crc ^^^ crc32c w.data))) ∧
  (∀ die bad s w rest k x, s.dieReset die = false → s.fl.swrites.getD [] die = w :: rest → s.chAccepts w.ch = true →
    k = parityCh w.ch w.lsn → x = s.parityIx k (stripeSet w.lsn) → s.chAccepts k = true →
    (s.shaper (2 + w.ch) w.tenant).en = false → w.ch < 32 → s.chTakes k x = true →
    (∀ r ∈ (s.chan k).journal, r.jseq < (s.chan k).jNext) →
    (s.oldData w bad = none ∨ bad.contains k = true ∨ (s.chan k).look x = .lost) → Leads (.stripeWrite die bad) s fun t =>
      (t.chan k).look x = .data (s.freshParity w.ch (stripeSet w.lsn) k w.data (crc32c w.data) bad).1
        (s.freshParity w.ch (stripeSet w.lsn) k w.data (crc32c w.data) bad).2) ∧
  (∀ die s u r rest n o v, s.dieReset die = false → s.fl.appendQ.getD [] die = r :: rest → s.pickChannel.isSome = true →
    ((List.range 32).all s.chAccepts) = true → u = { s with fl := { s.fl with appendQ := s.fl.appendQ.put die rest } } →
    u.openFor r = some (n, o, v) → (∀ j ∈ (s.chan n).journal, j.jseq < (s.chan n).jNext) →
    Leads (.recordAppend die) s fun t => t.fl.appendQ.getD [] die = rest ∧
      (t.chan n).look o.lsn = .data ((v.cfFmt n r.ver).putRecord o.data o.records r.record) 0 ∧
      (t.chan n).acks.getLast? = some (r.seq, r.slotIx, sidecarOf n o.lsn ((v.cfFmt n r.ver).codeOff o.records))) ∧
  (∀ ch lsn s o, s.openAt ch lsn = some o → o.closing = false → Leads (.openSectorTimeout ch lsn) s fun t =>
    t.now = max s.now (o.first + ms * s.fld fCF_CTL_OPEN_TIMEOUT_MS ch 0) ∧
    (t.openAt ch lsn).map (·.closing) = some true ∧
    (t.fl.swrites.getD [] (dieOfChannel (parityCh ch o.lsn))).getLast?.map (fun w => (w.ch, w.lsn, w.data, w.fromOpen)) =
      some (ch, o.lsn, o.data, true)) ∧
  (∀ ch s r, (s.chan ch).journal.find? (·.staged) = some r → Leads (.stagingTimeout ch) s fun t =>
    t.now = max s.now (r.atTime + 50 * us) ∧ (t.chan ch).journal = programSlot 65536 (s.chan ch).journal ∧
    t.reg .CF_TL_NAND_BYTES ch 0 = s.reg .CF_TL_NAND_BYTES ch 0 + 65536) ∧
  (∀ ch unit s l sb u, s.tlUp ch = true → (s.chan ch).flushing = false → (s.chan ch).foldable unit = true →
    (s.chan ch).foldPending.get? unit = none →
    ((s.foldLuns ch).findSome? fun l => (s.target ch l 1).map fun r => (l, r)) = some (l, sb, u) →
    Leads (.fold ch unit) s fun t => (t.chan ch).map = (s.chan ch).map ∧ (t.chan ch).jIndex = (s.chan ch).jIndex ∧
      ∀ v, v = (match (s.chan ch).map.get? unit with
          | some old => u.readSb ch old 1
          | none => u) → s.chState ch < 2 →
        ((t.chan ch).foldPending.get? unit).map (·.1) = some (sb * 4096 + ((v.chan ch).sbs.getD {} sb).nextPage)) ∧
  (∀ ch unit ok s loc j, (s.chan ch).foldPending.get? unit = some (loc, j) →
    ((s.chan ch).planeBusy.any fun e => e.2.kind == 1 && e.2.num == unit) = true →
    Leads (.foldProgramStatus ch unit ok) s fun t => (t.chan ch).foldPending.get? unit = none ∧
      (ok = true → (t.chan ch).map.get? unit = some loc ∧ t.reg .CF_TL_FOLDS ch 0 = s.reg .CF_TL_FOLDS ch 0 + 1) ∧
      (ok = false → (t.chan ch).health.progFail = (s.chan ch).health.progFail + 1)) ∧
  (∀ ch s, s.tlUp ch = true → (s.chan ch).flushing = false → Leads (.tlCheckpoint ch) s fun t =>
    (t.now = if 2 ^ 18 ≤ (s.chan ch).sinceCkpt then s.now
      else max s.now ((s.chan ch).ckptAt + sec * s.fld fCF_RD_CFG_CKPT_INTERVAL_S ch 0)) ∧
    (t.chan ch).map = (s.chan ch).map ∧ (t.chan ch).ckptMap = (s.chan ch).map ∧ (t.chan ch).ckptLost = (s.chan ch).lost ∧
    (t.chan ch).ckptHealth = (s.chan ch).health ∧ (t.chan ch).ckptSbs = (s.chan ch).blockRecs ∧
    (t.chan ch).dirtyMap = [] ∧ (t.chan ch).sinceCkpt = 0 ∧ (t.chan ch).ckptAt = t.now ∧
    t.reg .CF_TL_CKPT ch 0 = s.reg .CF_TL_CKPT ch 0 + 1) ∧
  (∀ ch r s g gs unit src dst, (s.chan ch).collect = g :: gs → g.pend = some (unit, src, dst) →
    ((s.chan ch).planeBusy.any fun e => e.2.kind == 2 && e.2.num == unit) = true →
    Leads (.gcUnitCopy ch r) s fun t =>
      (r.ok = true → (s.chan ch).map.get? unit = some src → (t.chan ch).map.get? unit = some dst ∧
        t.reg .CF_TL_GC_MOVES ch 0 = s.reg .CF_TL_GC_MOVES ch 0 + 1) ∧
      (r.ok = true → (s.chan ch).map.get? unit ≠ some src → (t.chan ch).map = (s.chan ch).map ∧
        t.reg .CF_TL_GC_ORPHANS ch 0 = s.reg .CF_TL_GC_ORPHANS ch 0 + 1) ∧
      (r.ok = false → (t.chan ch).health.progFail = (s.chan ch).health.progFail + 1)) ∧
  (∀ ch sb ok s, s.tlUp ch = true → (s.chan ch).flushing = false → (s.chan ch).erasable sb = true →
    Leads (.gcErase ch sb ok) s fun t =>
      (ok = true → ((t.chan ch).sbs.getD {} sb).erases = ((s.chan ch).sbs.getD {} sb).erases + 1 ∧
        t.reg .CF_TL_ERASES ch 0 = s.reg .CF_TL_ERASES ch 0 + 1) ∧
      (ok = false → ((t.chan ch).sbs.getD {} sb).st = 4 ∧
        (t.chan ch).health.eraseFail = (s.chan ch).health.eraseFail + 1 ∧
        t.reg .CF_TL_RETIRED ch 0 = s.reg .CF_TL_RETIRED ch 0 + 1)) ∧
  (∀ ch sb s, s.tlUp ch = true → ((s.chan ch).sbs.getD {} sb).st = 3 → (s.chan ch).refreshQ.contains sb = false →
    (s.chan ch).collect.any (·.victim == sb) = false → (s.chan ch).collect.any (·.kind == 2) = true →
    (∀ q ∈ (s.chan ch).refreshQ, ((s.chan ch).sbs.getD {} q).st ≠ 0 ∧ ((s.chan ch).sbs.getD {} q).st ≠ 4) → Leads (.refreshAgeReached ch sb) s fun t =>
      (t.chan ch).refreshQ = (s.chan ch).refreshQ ++ [sb] ∧
      t.now = max s.now (((((s.chan ch).sbs.getD {} sb).openTime + 86400 * s.fld fCF_RD_CFG_REFRESH_DAYS ch 0 : Nat) -
        (s.chan ch).timeOffset : Int).toNat * sec)) ∧
  (∀ ch x s, Leads (.healthTemperatureSample ch x) s fun t => (t.chan ch).temp = x ∧
    (t.chan ch).health.tempMax = (if (s.chan ch).health.tempSecs = [] then x else max (s.chan ch).health.tempMax x) ∧
    ∃ bin : Nat, (x < 10 → bin = 0) ∧ (80 ≤ x → bin = 15) ∧
      (10 ≤ x → x < 80 → 5 * (bin : Int) + 5 ≤ x ∧ x < 5 * (bin : Int) + 10) ∧
      (t.chan ch).health.tempSecs = (s.chan ch).health.tempSecs.upd 0 bin (· + 1)) ∧
  (∀ ch s, s.tlUp ch = true → (s.chan ch).flushing = false → Leads (.flashTimeRecord ch) s fun t =>
    t.now = max s.now ((s.chan ch).timeAt + 60 * sec) ∧ (t.chan ch).timeAt = t.now ∧ (t.chan ch).jNext = (s.chan ch).jNext + 1 ∧
    ((t.chan ch).journal.any fun r => r.pay == .time (t.flashTime ch) && r.jseq == (s.chan ch).jNext) = true) ∧
  (∀ good s, (s.flashInUse = true → Leads (.flashFormat good) s fun t => t.fl = s.fl ∧ t.regs = s.regs) ∧
    (s.flashInUse = false → Leads (.flashFormat good) s fun t => ∃ n, ∃ u ∈ (List.range 32).map (fun c => good.getD c 0),
      (∀ c, c < 32 → u ≤ good.getD c 0) ∧ n = min 4329604 (72 * u / 100 / 32) ∧ ∀ c, c < 32 →
        t.fld fCF_CAP_DATA_SECTORS c 0 = 496 * n ∧ t.fld fCF_CAP_PARITY_SECTORS c 0 = 16 * n ∧
        (t.chan c).map = [] ∧ (t.chan c).journal = [] ∧ (t.chan c).jIndex = [] ∧ (t.chan c).lost = [] ∧
        (t.chan c).jNext = (s.chan c).jNext ∧ (t.chan c).health.goodUnits = good.getD c 0)) ∧
  (∀ time s, Leads (.flashTimeSet time) s fun t => t.now = s.now ∧ ∀ n, n < 32 →
    t.fld fCF_TL_STATUS_TIME_CERTAIN n 0 = 1 ∧
    (s.deviceTime < time → (t.chan n).timeOffset = (s.chan n).timeOffset + ((time - s.deviceTime : Nat) : Int) ∧
      ((0 : Int) ≤ (s.now / sec : Nat) + (s.chan n).timeOffset →
        t.flashTime n = s.flashTime n + (time - s.deviceTime))) ∧
    (time ≤ s.deviceTime → t.flashTime n = s.flashTime n ∧
      t.reg .CF_TL_TIME_REFUSED n 0 = s.reg .CF_TL_TIME_REFUSED n 0 + 1)) ∧
  (∀ s, s.pins.pwrLossN = true → Leads .pwrLossAssert s fun t => t.pins.pwrLossN = false ∧
    ∀ n, n < 32 → s.tlUp n = true → (t.chan n).flushing = true ∧ (t.chan n).foldPending = [] ∧
      (t.chan n).collect = (s.chan n).collect.map (fun g => { g with pend := none }) ∧
      ∀ e ∈ (t.chan n).planeBusy, e.2.cls ≠ 3) ∧
  (∀ ch s, (s.chan ch).flushing = true → s.isOn fCF_TL_STATUS_FLUSH_DONE ch 0 = false → Leads (.flushComplete ch) s fun t =>
    (t.chan ch).flushing = !s.pins.pwrLossN ∧ t.fld fCF_TL_STATUS_FLUSH_DONE ch 0 = (if s.pins.pwrLossN then 0 else 1) ∧
    ((t.chan ch).journal.any fun r => r.pay == .clean (s.flashTime ch) && r.jseq == (s.chan ch).jNext) = true ∧
    (s.pins.pwrLossN = false → (∀ r ∈ (s.chan ch).journal, r.pay.size ≤ 65536) → (t.chan ch).journal.any (·.staged) = false)) ∧
  (∀ s, Leads .pwrLossDeassert s fun t => t.pins.pwrLossN = true ∧ ∀ n, n < 32 → (s.chan n).flushing = true →
    s.isOn fCF_TL_STATUS_FLUSH_DONE n 0 = true → (t.chan n).flushing = false ∧
      t.fld fCF_TL_STATUS_FLUSH_DONE n 0 = 0)

/-- DETACH, CHANNEL_FAULT, DETACH_DRAIN_END, ATTACH, its power, self-test, rebuild and shadow, presence,
HEALTH_RECHECK (R190, R191, R192, R194, R214, R402, R403). -/
def Obligations.ChannelsLeaveAndReturn : Prop :=
  (∀ ch loc s, s.chIn ch = true → ((List.range 32).all fun m => m == ch || s.chIn m) = true → s.testing ⟨3, ch⟩ = false →
    Leads (.detach ch loc) s fun t => t.chState ch = 1 ∧ t.fld fCF_SVC_CAUSE ch 0 = 1 ∧
      (t.chan ch).drainSince = s.now ∧ Frame [.fl] [.CF_SVC] s t) ∧
  (∀ ch loc c s, (c = .detach ch loc ∧ (s.chIn ch = false ∨ s.testing ⟨3, ch⟩ = true) ∨
      c = .attach ch loc ∧ (s.chState ch ≠ 2 ∨ (s.chan ch).present = false ∨ s.testing ⟨3, ch⟩ = true) ∨
      c = .abortAttach ch loc ∧ (s.chState ch < 2 ∨ 5 < s.chState ch ∨ s.testing ⟨3, ch⟩ = true)) →
    Leads c s fun t => t.ras.refused = s.ras.refused + 1 ∧ Frame [.out, .ras] logRegs s t) ∧
  (∀ ch cause s, cause ≠ 3 → Leads (.channelFault ch cause) s fun t =>
    (s.chState ch = 0 → t.chState ch = 1 ∧ t.fld fCF_SVC_CAUSE ch 0 = 2 ∧ (t.chan ch).reqQ = [] ∧ (t.chan ch).ctxs = []) ∧
    (s.chState ch = 1 → t.chState ch = 1 ∧ t.fld fCF_SVC_CAUSE ch 0 = 2 ∧ (t.chan ch).reqQ = [] ∧ (t.chan ch).ctxs = []) ∧
    (s.chState ch = 2 → t = s) ∧
    (3 ≤ s.chState ch → t.chState ch = 2 ∧ t.fld fCF_SVC_CAUSE ch 0 = 2 ∧ (t.chan ch).pwrEn = false)) ∧
  (∀ ch s, s.chIn ch = true → s.sparePct ch = 0 → Leads (.channelFault ch 3) s fun t =>
    t.chState ch = 1 ∧ t.fld fCF_SVC_CAUSE ch 0 = 2 ∧ (t.chan ch).reqQ = []) ∧
  (∀ ch s, s.chState ch = 1 → Leads (.detachDrainEnd ch) s fun t => t.chState ch = 2 ∧ (t.chan ch).pwrEn = false ∧
    (t.chan ch).onfiUp = false ∧ (t.chan ch).reqQ = [] ∧ (t.chan ch).ctxs = [] ∧
    (∀ o ∈ (t.chan ch).openS, o.closing = true) ∧
    (t.now = if (s.chan ch).reqQ = [] ∧ (s.chan ch).ctxs = [] then s.now
      else max s.now ((s.chan ch).drainSince + ms * s.fld fCF_CTL_DRAIN_MS ch 0))) ∧
  (∀ ch loc s, s.chState ch = 2 → (s.chan ch).present = true → s.testing ⟨3, ch⟩ = false → Leads (.attach ch loc) s fun t =>
    t.chState ch = 3 ∧ (t.chan ch).pwrEn = true ∧ (t.chan ch).pwrRise = s.now ∧ (t.chan ch).onfiUp = false ∧
    t.now = s.now) ∧
  (∀ ch s, (s.chan ch).pwrEn = true → s.chState ch = 3 → (s.chan ch).onfiUp = false →
    Leads (.carrierPowerSettled ch) s fun t => t.chan ch = { s.chan ch with onfiUp := true } ∧
      t.now = max s.now ((s.chan ch).pwrRise + 5 * ms) ∧ t.regs = s.regs) ∧
  (∀ ch loc s, 2 ≤ s.chState ch → s.chState ch ≤ 5 → s.testing ⟨3, ch⟩ = false → Leads (.abortAttach ch loc) s fun t =>
    t.chState ch = 2 ∧ (t.chan ch).pwrEn = false) ∧
  (∀ ch pass units s, s.chState ch = 3 → (s.chan ch).onfiUp = true → Leads (.channelSelfTestDone ch pass units) s fun t =>
    (pass = false ∨ 72 * units < 100 * s.neededUnits ch →
      t.chState ch = 2 ∧ t.fld fCF_SVC_CAUSE ch 0 = 4 ∧ (t.chan ch).pwrEn = false) ∧
    (pass = true → 100 * s.neededUnits ch ≤ 72 * units → t.chState ch = 4 ∧ t.fld fCF_SVC_REBUILD_PCT ch 0 = 0 ∧
      t.fld fCF_REBUILD_POS_CURSOR ch 0 = 0 ∧ (t.chan ch).parityPos = 0 ∧ (t.chan ch).map = [] ∧
      (t.chan ch).health.goodUnits = units)) ∧
  (∀ ch bad s c u die, s.chState ch = 4 → s.chAccepts ch = true →
    ((List.range 32).any fun m => m != ch && s.rebuildHeld m) = false → c = s.fld fCF_REBUILD_POS_CURSOR ch 0 →
    c < s.dataSectors ch → (∀ r ∈ (s.chan ch).journal, r.jseq < (s.chan ch).jNext) → die = dieOfChannel (parityCh ch c) →
    u = s.servedRebuild ch (stripeSet c) (parityCh ch c) → Leads (.rebuildSector ch bad) s fun t =>
      (∀ d crc, u.rebuild ch c none bad = some (d, crc) → t.chState ch = 4 ∧
        t.fld fCF_REBUILD_POS_CURSOR ch 0 = (c + 1) % 2 ^ 32 ∧
        ((t.chan ch).look c = if d = emptySect ∧ crc = 0 then (s.chan ch).look c else .data d 0) ∧
        t.reg .GE_REBUILD_SECTORS die 0 = s.reg .GE_REBUILD_SECTORS die 0 + 1) ∧
      (u.rebuild ch c none bad = none → (s.chan ch).lostFull = false → t.chState ch = 4 ∧
        t.fld fCF_REBUILD_POS_CURSOR ch 0 = (c + 1) % 2 ^ 32 ∧ (t.chan ch).look c = .lost ∧
        t.reg .GE_REBUILD_LOST die 0 = s.reg .GE_REBUILD_LOST die 0 + 1) ∧
      (u.rebuild ch c none bad = none → (s.chan ch).lostFull = true → t.chState ch = 2 ∧ t.fld fCF_SVC_CAUSE ch 0 = 2)) ∧
  (∀ ch bad s e p, s.chState ch = 4 → s.chAccepts ch = true →
    ((List.range 32).any fun m => m != ch && s.rebuildHeld m) = false →
    s.dataSectors ch ≤ s.fld fCF_REBUILD_POS_CURSOR ch 0 → e = (s.chan ch).parityPos →
    (∀ r ∈ (s.chan ch).journal, r.jseq < (s.chan ch).jNext) → p = (s.servedRebuild ch e ch).sumOf bad (others 32 e ch) →
    Leads (.rebuildSector ch bad) s fun t => (t.chan ch).parityPos = e + 1 ∧ (t.chan ch).shadowDone = 0 ∧
      (t.chan ch).shadowWant = [] ∧ (t.chan ch).shadowGot = [] ∧
      (t.chState ch = if s.fld fCF_CAP_PARITY_SECTORS ch 0 ≤ e + 1 then 5 else 4) ∧
      (e < s.fld fCF_CAP_PARITY_SECTORS ch 0 → p ≠ (emptySect, 0) →
        (t.chan ch).look (s.parityIx ch e) = .data p.1 p.2)) ∧
  (∀ ch tag s a b, s.chState ch = 5 → (s.chan ch).shadowWant.get? tag = some a → (s.chan ch).shadowGot.get? tag = some b →
    Leads (.channelShadowRecord ch tag) s fun t =>
      (a = b → (t.chan ch).shadowDone = (s.chan ch).shadowDone + 1 ∧
        t.chState ch = if 65536 ≤ (s.chan ch).shadowDone + 1 then 6 else 5) ∧
      (a ≠ b → t.chState ch = 2 ∧ t.fld fCF_SVC_CAUSE ch 0 = 4)) ∧
  (∀ ch p s, Leads (.carrierPresenceChange ch p) s fun t => (t.chan ch).present = p ∧
    (p = true ∨ s.chState ch = 2 → t.chState ch = s.chState ch ∧ Frame [.fl] [] s t) ∧
    (p = false → s.chState ch ≠ 2 → (t.chan ch).isolated = true ∧ t.fld fCF_SVC_CAUSE ch 0 = 2 ∧
      t.chState ch = if s.chState ch < 2 then 1 else 2)) ∧
  (∀ ch s, (s.chan ch).health.heldNow = true → Leads (.healthRecheck ch) s fun t => (t.chan ch).lastHealth = t.now ∧
    t.now = max s.now ((s.chan ch).lastHealth + 60 * sec))

/-- WATCHDOG_SAMPLE, REPLAY, the resets of every domain and their escalation, dumps, the error log's timers, SYSCLK,
RESET_N, THERMTRIP (R308, R320, R321, R322, R325, R327, R328, R329, R331, R332, R382, R397). -/
def Obligations.HangsResetsAndDumps : Prop :=
  (∀ e s, e < 10 → s.isOn fHG_WIN_EN e 0 = true → Leads (.watchdogSample e) s fun t =>
    t.now = max s.now (s.ras.sampleAt.getD 0 e + us * s.fld fHG_WIN_WINDOW_US e 0) ∧ t.ras.sampleAt.get? e = some t.now ∧
    ∀ i, i < engineCount e → s.holdsWork e i = true → (s.engine e i).heldWork = true → (s.engine e i).sampled = s.progress e i →
      (s.engine e i).replaySets = [] → s.engineReset e i = false →
      (∀ j, j < engineCount e → j ≠ i → (s.engine e j).heldWork = false) →
      t.reg .HG_MISSES e 0 = s.reg .HG_MISSES e 0 + 1 ∧ (t.engine e i).replaySets =
        cutSets (s.fld fHG_CFG_REPLAY_SET 0 0) (s.suspects e i).length (s.suspects e i)) ∧
  (∀ e i s z rest, (s.engine e i).replaySets = z :: rest → s.engineReset e i = false →
    (s.setRun e i z = true → Leads (.replay e i false) s fun t => (t.engine e i).replaySets = rest ∧
      t.reg .HG_REPLAYED 0 0 = s.reg .HG_REPLAYED 0 0 + BitVec.ofNat 64 (z.filter s.jobLives).length) ∧
    (∀ q, z.filter s.jobLives = [q] → Leads (.replay e i true) s fun t => (t.engine e i).replaySets = rest ∧
      t.reg .HG_TORN 0 0 = s.reg .HG_TORN 0 0 + 1 ∧ t.reg .HG_MISSES e 0 = s.reg .HG_MISSES e 0 + 1) ∧
    (2 ≤ (z.filter s.jobLives).length → Leads (.replay e i true) s fun t => ∃ a b, (t.engine e i).replaySets = a :: b :: rest ∧
      a ++ b = z.filter s.jobLives ∧ (a.length = b.length ∨ a.length = b.length + 1) ∧
      t.reg .HG_MISSES e 0 = s.reg .HG_MISSES e 0 + 1)) ∧
  (∀ b s, (s.ten.departing.get? b).isSome = true → s.onBand b ≠ [] → Leads (.commitDrainLate b) s fun t =>
    t.now = max s.now (s.ten.commitAt + 2 * ms) ∧ t.reg .TN_CMP_LATE 0 0 = s.reg .TN_CMP_LATE 0 0 + 1) ∧
  (∀ u array word q s x m, s.ringSearch q x m → Leads (.sramUncorrectable u array word (some q)) s fun t =>
    t.ended x.ctx m stTornDown = true ∧ t.ras.resets = s.ras.resets) ∧
  (∀ u d array word job s, (u.kind, d) ∈ [(2, 1), (3, 2), (1, 3), (5, 4)] → job.filter s.jobLives = none →
    s.covered d u.num = false → (d = 3 → s.isOn fDM_CTL_ON_DIE 0 0 = false) →
    Leads (.sramUncorrectable u array word job) s fun t => t.inReset d u.num = true) ∧
  (∀ u d s, (u.kind, d) ∈ [(2, 1), (3, 2), (1, 3), (5, 4)] → UnitId.exists u = true → s.covered d u.num = false →
    (d = 3 → s.isOn fDM_CTL_ON_DIE 0 0 = false) → Leads (.reset u) s fun t => t.now = s.now ∧
      (t.ras.resets.any fun r => r.domain == d && r.num == u.num && r.byCommand && r.since == s.now) = true) ∧
  (∀ s, s.mayRestart = true → Leads (.reset ⟨4, 0⟩) s fun t => t.restarting) ∧
  (∀ d n s r, 1 ≤ d → d ≤ 4 → (s.ras.resets.find? fun r => r.domain == d && r.num == n) = some r →
    Leads (.resetComplete d n) s fun t => t.inReset d n = false ∧ t.reg .HG_RESETS d 0 = s.reg .HG_RESETS d 0 + 1) ∧
  (∀ n s, n < 900 → Leads (.resetComplete 0 n) s fun t => t.reg .HG_RESETS 0 0 = s.reg .HG_RESETS 0 0 + 1) ∧
  (∀ n s r, (s.ras.resets.find? fun r => r.domain == 5 && r.num == n) = some r → r.phase = 2 → s.mayStart = true →
    Leads (.resetComplete 5 n) s fun t => t.boot.startNo = s.boot.startNo + 1 ∧ t.inReset 5 n = false) ∧
  (∀ d n s r, (s.ras.resets.find? fun r => r.domain == d && r.num == n) = some r →
    (d = 1 ∨ d = 2 → Leads (.resetWindowExpiry d n) s fun t => t.now = max s.now (r.since + resetWindow d) ∧
      t.inReset d n = false ∧ t.reg .HG_ESCALATIONS d 0 = s.reg .HG_ESCALATIONS d 0 + 1 ∧
      (d = 2 → (t.chan n).isolated = true ∧ (s.chState n = 0 → t.chState n = 1 ∧ t.fld fCF_SVC_CAUSE n 0 = 2)) ∧
      (d = 1 → s.covered 3 (dieOf n) = false → s.isOn fDM_CTL_ON_DIE 0 0 = false → t.inReset 3 (dieOf n) = true)) ∧
    (d = 3 ∨ d = 4 → s.mayRestart = true → Leads (.resetWindowExpiry d n) s fun t =>
      t.now = max s.now (r.since + resetWindow d) ∧ t.restarting)) ∧
  (∀ s r, (s.ras.resets.find? fun r => r.domain == 5 && r.phase == 2) = some r → s.mayStart = true →
    Leads .spStartTimeout s fun t => t.pins.faultN = false ∧ t.ras.resets = [{ r with phase := 3 }] ∧
      t.now = max s.now (r.since + 2 * sec)) ∧
  (∀ s r, (s.ras.resets.find? fun r => r.domain == 5 && r.phase == 1) = some r → Leads .resetFlushWaitExpiry s fun t =>
    t.restarting ∧ t.now = max s.now (r.since + 8 * ms)) ∧
  (∀ s, Leads .dump s fun t =>
    (s.dumpState = 1 ∨ s.dumpState = 2 ∧ s.isOn fDM_CTL_OVERWRITE 0 0 = false →
      t.dumpState = s.dumpState ∧ t.ras = s.ras ∧ t.reg .DM_REFUSED 0 0 = s.reg .DM_REFUSED 0 0 + 1) ∧
    (s.dumpState ≠ 1 → (s.dumpState = 2 → s.isOn fDM_CTL_OVERWRITE 0 0 = true) → t.dumpState = 1 ∧
      t.ras.dumpEng.recs = [] ∧ t.ras.dumpEng.pos = 0 ∧ t.ras.dumpEng.started = s.now ∧
      t.ras.dumpEng.list = s.ras.dumpEng.list)) ∧
  (∀ s, s.dumpState ≠ 1 → Leads .clear s fun t => t.dumpState = 0 ∧ t.ras.dumpEng.recs = [] ∧ t.reg .DM_INFO 0 0 = 0) ∧
  (∀ s e, s.dumpState = 1 → s.ras.dumpEng.list[s.ras.dumpEng.pos]? = some e → Leads .dumpReadTimeout s fun t =>
    t.dumpState = 1 ∧ t.now = max s.now (s.ras.dumpEng.readAt + 64 * us) ∧
    t.ras.dumpEng.pos = s.ras.dumpEng.pos + 1 ∧ t.ras.dumpEng.unreadable.contains ⟨e.unitKind, e.unitNum⟩ = true ∧
    (t.ras.dumpEng.recs.getLast?).map (fun r => (r.dstatus, r.data)) = some (1, s.ras.dumpEng.got)) ∧
  (∀ s, s.dumpState = 1 → s.ras.dumpEng.forDomain = none → s.ras.dumpEng.pos ≤ s.ras.dumpEng.list.length →
    Leads .dumpLimitExpiry s fun t => t.dumpState = 2 ∧
      t.now = max s.now (s.ras.dumpEng.started + ms * s.fld fDM_CTL_LIMIT_MS 0 0) ∧
      t.ras.dumpEng.pos = s.ras.dumpEng.list.length ∧ t.reg .DM_DUMPS 0 0 = s.reg .DM_DUMPS 0 0 + 1 ∧
      (∃ rs, t.ras.dumpEng.recs = s.ras.dumpEng.recs ++ rs ∧ (∀ r ∈ rs, r.dstatus = 4) ∧
        rs.length = s.ras.dumpEng.list.length - s.ras.dumpEng.pos)) ∧
  (∀ k n c s w, (s.ras.errWins.find? fun w => w.hasKey k n c) = some w → Leads (.errorWindowClose k n c) s fun t =>
    t.now = max s.now (w.opened + sec) ∧ (t.ras.errWins.any fun w => w.hasKey k n c) = false ∧
    (w.first = none → t.ras.errLog = s.ras.errLog) ∧
    (∀ e, w.first = some e → t.reg .EL_RECORDS 0 0 = s.reg .EL_RECORDS 0 0 + 1 ∧
      (t.ras.errLog.head?).map (fun r => (r.srcKind, r.srcNum, r.code, r.count)) =
        some (e.srcKind, e.srcNum, e.code, min w.more 65535))) ∧
  (∀ s, s.ras.irqPending = true → s.isOn fEL_CTL_IRQ_EN 0 0 = true → Leads .errorIrqHoldoff s fun t =>
    t.ras.irqPending = false ∧ t.now = max s.now (s.ras.irqLast.getD 0 + 10 * us) ∧
    t.out = s.out ++ [.msix (s.fld fEL_CTL_PORT 0 0) 0 (s.fld fEL_CTL_VECTOR 0 0)]) ∧
  (∀ u s, (u.kind = 3 → Leads (.pllLossOfLock u) s fun t => (t.chan u.num).isolated = true ∧
      t.reg .HG_ESCALATIONS 2 0 = s.reg .HG_ESCALATIONS 2 0 + 1) ∧
    (u.kind ≠ 3 → s.mayRestart = true → Leads (.pllLossOfLock u) s fun t => t.restarting)) ∧
  (∀ s, s.pins.sysclk = true → Leads .sysclkLoss s fun t => t.pins.sysclk = false ∧ (s.mayRestart = true → t.restarting)) ∧
  (∀ s, s.pins.resetN = true → Leads .resetNAssert s fun t => t.pins.resetN = false ∧ (s.mayRestart = true → t.restarting)) ∧
  (∀ c s, c = .sysclkRestored ∧ s.pins.resetN = true ∨ c = .resetNDeassert ∧ s.pins.sysclk = true → Leads c s fun t =>
    t.pins.sysclk = true ∧ t.pins.resetN = true ∧ ∀ r, (s.ras.resets.find? (·.domain == 5)) = some r → r.phase = 4 →
      s.pins.faultN = true → t.boot.startNo = s.boot.startNo + 1 ∧ t.ras.resets = []) ∧
  (∀ u s, Leads (.thermtrip u) s fun t => t.pins.thermtripN = false ∧ t.power.tripped = s.power.tripped ++ [u] ∧
    (s.dumpState = 1 → t.dumpState = 0 ∧ t.ras.dumpEng.recs = []))

/-- POWER_ON, START_STEP_COMPLETE, STEP_TIMEOUT and the commands of the boot range (R26, R330, R343, R345, R346,
R347, R348, R349, R351, R352, R353, R354). -/
def Obligations.StartsAndBootRecords : Prop :=
  (∀ s, Leads .powerOn s fun t => t.now = 0 ∧ t.dram = [] ∧ t.hostMem = s.hostMem ∧ t.pins.faultN = true ∧
    t.pins.thermtripN = true ∧ t.boot.stored = s.boot.stored ∧ t.boot.secFloor = s.boot.secFloor ∧
    (s.pins.resetN = true → s.pins.sysclk = true → t.boot.startNo = s.boot.startNo + 1 ∧ t.ras.resets = []) ∧
    (s.pins.resetN = false ∨ s.pins.sysclk = false → t.boot.startNo = s.boot.startNo ∧
      t.ras.resets.map (fun r => (r.domain, r.phase)) = [(5, 4)])) ∧
  (∀ failed a b ok found s, s.start.running = true → Leads (.startStepComplete failed a b ok found) s fun t =>
    (s.startStep = 0 → ok.any (fun u => u.kind == 8) = true → t.startStep = 1) ∧
    (s.startStep = 1 → failed = false → s.boot.identity.valid = true → t.startStep = 2 ∧
      t.isOn fHQ_START_STATUS_KEY_OK 0 0 = true) ∧
    (s.startStep = 2 → s.boot.config.valid = true → t.startStep = 3) ∧
    (s.startStep = 3 → imageBits (some a) s.boot.secFloor = 0 → imageBits (some b) s.boot.secFloor = 0 → t.startStep = 4 ∧
      t.fld fHQ_START_STATUS_SET_RUN 0 0 = s.firstSet % 2) ∧
    (s.startStep = 3 → s.firstSet = 0 → imageBits (some a) s.boot.secFloor ≠ 0 → imageBits (some b) s.boot.secFloor = 0 →
      t.startStep = 4 ∧ t.fld fHQ_START_STATUS_SET_RUN 0 0 = 1) ∧
    (s.startStep = 4 → failed = false → t.startStep = 5) ∧
    (s.startStep = 5 → found.units.contains ⟨4, 0⟩ = false → ok.any (fun u => u.kind == 1) = true → t.startStep = 6) ∧
    (s.startStep = 6 → (∃ d i, d < 5 ∧ i < 4 ∧ s.isBad 1 d = false ∧ ok.contains ⟨6, 4 * d + i⟩ = true) →
      (∀ e ∈ s.start.copy, e.1 ≠ regKey .HQ_START_STATUS 0 0) → t.startStep = 7) ∧
    (s.startStep = 7 → 31 ≤ ((List.range 32).filter fun n => ok.contains ⟨3, n⟩).length → t.startStep = 8 ∧
      ∀ n, n < 32 → ok.contains ⟨3, n⟩ = true → t.chState n = 0 ∧ (t.chan n).onfiUp = true) ∧
    (s.startStep = 8 → t.startStep = 9) ∧
    (s.startStep = 9 → t.startStep = 10 ∧ t.boot.flushed = s.ras.errLog) ∧
    (s.startStep = 10 → t.mode = 1 ∧ t.boot.fails = 0 ∧ t.start.running = false ∧
      (s.boot.history ≠ [] → t.newestOutcome = 1))) ∧
  (∀ failed a b ok found s n, s.start.running = true → s.newestOutcome ≠ 3 →
    (s.startStep = 0 ∧ n = 1 ∧ ok.any (fun u => u.kind == 8) = false ∨
      s.startStep = 1 ∧ n = 2 ∧ (failed = true ∨ s.boot.identity.valid = false) ∨
      s.startStep = 2 ∧ n = 3 ∧ s.boot.config.valid = false ∨ s.startStep = 4 ∧ n = 5 ∧ failed = true ∨
      s.startStep = 3 ∧ n = 4 ∧ imageBits (some a) s.boot.secFloor ≠ 0 ∧ imageBits (some b) s.boot.secFloor ≠ 0 ∨
      s.startStep = 5 ∧ n = 6 ∧ (found.units.contains ⟨4, 0⟩ = true ∨ ok.any (fun u => u.kind == 1) = false) ∨
      s.startStep = 6 ∧ n = 7 ∧ (∀ d i, d < 5 → i < 4 → s.isBad 1 d = true ∨ ok.contains ⟨6, 4 * d + i⟩ = false) ∨
      s.startStep = 7 ∧ n = 8 ∧ ((List.range 32).filter fun n => ok.contains ⟨3, n⟩).length < 31 ∧
        s.fld fCF_CAP_DATA_SECTORS 0 0 ≠ 0) →
    Leads (.startStepComplete failed a b ok found) s fun t => t.startFailed s n) ∧
  (∀ s, s.start.running = true → s.startStep < 10 → Leads .stepTimeout s fun t =>
    t.now = max s.now (s.start.stepAt + ms * stepLimitMs s.startStep) ∧
    (s.newestOutcome ≠ 3 → t.startFailed s 9)) ∧
  (∀ s, Leads .provision s fun t =>
    (s.boot.identity.valid = true → t.boot = s.boot ∧ t.out = s.out ∧ t.ras.refused = s.ras.refused + 1) ∧
    (s.boot.identity.valid = false → t.boot.identity.valid = true ∧
      t.out = s.out ++ [.provisioned (Config.ed448Public (Config.deviceKey 0))])) ∧
  (∀ nonce s, Leads (.attest nonce) s fun t => t.boot = s.boot ∧
    (s.isOn fHQ_START_STATUS_KEY_OK 0 0 = true → nonce.length = 32 → t.told s 0x1001 0 0 (s.attestReport nonce)) ∧
    (s.isOn fHQ_START_STATUS_KEY_OK 0 0 = false → t.told s 0x1001 0 0x10 [])) ∧
  (∀ k i s, Leads (.imageWrite k i) s fun t =>
    (k ≤ 1 → (s.mode = 1 ∧ s.runSet ≠ some k ∨ s.mode = 2) → t.image k = some i ∧ t.image (1 - k) = s.image (1 - k) ∧
      t.told s 0x2002 0 0 []) ∧
    (1 < k ∨ s.mode = 0 ∨ s.mode = 1 ∧ s.runSet = some k → t.boot = s.boot ∧ t.told s 0x2002 0 0x10 [])) ∧
  (∀ k s, k ≤ 1 → Leads (.imageVerify k) s fun t => t.boot = s.boot ∧
    t.told s 0x2002 1 0 (leBytes 1 (16 ^ k * imageBits (s.image k) s.boot.secFloor))) ∧
  (∀ s, Leads .secverCommit s fun t =>
    (s.mode = 1 → t.boot.secFloor = max s.boot.secFloor (s.fld fHQ_START_STATUS_SEC_VERSION 0 0) ∧
      t.boot.config.valid = true ∧ t.told s 0x2003 0 0 []) ∧
    (s.mode ≠ 1 → t.boot = s.boot ∧ t.told s 0x2003 0 0x10 [])) ∧
  (∀ k s, Leads (.startRetry k) s fun t =>
    (s.mode = 2 → k ≤ 1 → s.mayStart = true → t.mode = 0 ∧ t.startStep = 0 ∧ t.boot.startNo = s.boot.startNo + 1 ∧
      t.boot.fails = 1 ∧ t.start.firstChoice = some k) ∧
    (s.mode ≠ 2 ∨ 1 < k → t.boot = s.boot ∧ t.told s 0x2004 0 0x10 [])) ∧
  (∀ s, Leads .configReset s fun t =>
    (s.mode = 2 → t.boot.stored = [] ∧ t.dict.unsaved = [] ∧ t.boot.secFloor = s.boot.secFloor ∧ t.boot.config.valid = true ∧
      t.told s 0x2005 0 0 []) ∧
    (s.mode ≠ 2 → t.boot = s.boot ∧ t.told s 0x2005 0 0x10 [])) ∧
  (∀ k s, Leads (.preferredSet k) s fun t =>
    (k ≤ 1 → s.mode ≠ 0 → t.preferred = k ∧ t.boot.anchor.valid = true) ∧
    (1 < k ∨ s.mode = 0 → t.boot = s.boot ∧ t.ras.refused = s.ras.refused + 1))

/-- READ, WRITE, DESCRIBE, INVOKE, POLL, GO, the dictionary's timers and saves, MCTP control messages and the
management port (R359, R360, R361, R362, R363, R364, R365, R370, R372, R373, R374, R376). -/
def Obligations.TheDictionaryServes : Prop :=
  (∀ f op, (f, op) ∈ ([(.read, 1), (.nirrexWrite, 2), (.describe, 3), (.invoke, 4), (.poll, 5)] : List ((NxMsg → Instr) × Nat)) →
    ∀ m s, (s.serverUp = false ∨ s.arrives m = false → exec (f m) s = .next s) ∧
      (s.serverUp = true → s.arrives m = true → m.path = 3 → m.exact = false → Leads (f m) s fun t =>
        t.dictCount 3 3 = s.dictCount 3 3 + 1 ∧ t.dict.objs = s.dict.objs ∧ Frame [.dict] [] s t) ∧
      ∀ d, s.serverUp = true → s.arrives m = true → (m.path = 3 → m.exact = true) →
        s.firstFail { m with op := op } = .inl d →
        Leads (f m) s fun t => t.dictCount 0 m.path = s.dictCount 0 m.path + 1 ∧
          t.dictCount 1 m.path = s.dictCount 1 m.path + 1 ∧ t.dict.objs = s.dict.objs ∧
          t.answers s m fun b => fieldAt b 7 1 = dtStatus d ∧ fieldAt b 14 1 = d % 256) ∧
  (∀ m s r, s.takes { m with op := 1 } r → m.index < 0xD030 ∨ 0xD033 < m.index → m.offset ≤ s.objLength r m.index m.sub →
    (r.ty.size.isSome = true → m.offset = 0) → Leads (.read m) s fun t => t.dict.objs = s.dict.objs ∧
      t.answers s m fun b => fieldAt b 0 1 = 0x81 ∧ fieldAt b 7 1 = 0 ∧
        (fieldAt b 1 1).testBit 0 = decide (s.objLength r m.index m.sub ≤ m.offset + 1024) ∧
        (b.drop 16).take (s.objSlice r m.index m.sub m.offset 1024).length = s.objSlice r m.index m.sub m.offset 1024) ∧
  (∀ m s r, s.takes { m with op := 3 } r → Leads (.describe m) s fun t => t.dict.objs = s.dict.objs ∧
    t.answers s m fun b => fieldAt b 0 1 = 0x83 ∧ fieldAt b 7 1 = 0 ∧
      (b.drop 16).take 32 = describeBytes r m.index m.sub) ∧
  (∀ m s r, s.takes { m with op := 2 } r → m.offset = 0 →
    (m.last = false → Leads (.nirrexWrite m) s fun t => t.dict.objs = s.dict.objs ∧ (∃ x ∈ t.dict.xfers, x.path = m.path ∧
      x.index = m.index ∧ x.sub = m.sub ∧ x.data = m.data ∧ x.atTime = s.now) ∧ t.answers s m fun b => fieldAt b 7 1 = 0) ∧
    (m.last = true → r.lengthBad m.index m.sub m.data = true → Leads (.nirrexWrite m) s fun t => t.dict.objs = s.dict.objs ∧
      t.answers s m fun b => fieldAt b 7 1 = 0x10 ∧ fieldAt b 14 1 = dtLength) ∧
    (m.last = true → r.src = .val → r.lengthBad m.index m.sub m.data = false → s.rangeBad r m.index m.sub m.data = false →
      s.ownRefusal m.index m.sub m.data = false → (r.persist = 1 →
        configSize ((s.dict.unsaved ++ [(m.index, m.sub, m.data)]).foldl storeOne s.boot.stored) ≤ 524288) →
      Leads (.nirrexWrite m) s fun t => t.dict.objs = s.dict.objs.put (objKey m.index m.sub) m.data ∧
        (r.persist = 1 → t.dict.unsaved = s.dict.unsaved ++ [(m.index, m.sub, m.data)] ∧
          t.dict.pending = some ((s.dict.pending.map Prod.fst).getD s.now, s.now)) ∧
        t.answers s m fun b => fieldAt b 7 1 = 0)) ∧
  (∀ m s r, s.takes { m with op := 4 } r → m.offset = 0 → m.last = true →
    (argOk m.index m.sub m.data = false → Leads (.invoke m) s fun t => t.dict.running = s.dict.running ∧
      t.answers s m fun b => fieldAt b 7 1 = 0x10 ∧ fieldAt b 14 1 = dtLength) ∧
    (argOk m.index m.sub m.data = true → (s.dict.running.any fun x => Running.isFor x m && x.ended.isNone) = true →
      Leads (.invoke m) s fun t => t.dict.running = s.dict.running ∧
        t.answers s m fun b => fieldAt b 7 1 = 0x10 ∧ fieldAt b 14 1 = dtBusy) ∧
    (m.index = 0x1001 → m.sub = 0 → m.data.length = 32 → s.isOn fHQ_START_STATUS_KEY_OK 0 0 = true →
      (s.dict.running.any fun x => Running.isFor x m && x.ended.isNone) = false →
      Leads (.invoke m) s fun t => t.answers s m fun b => fieldAt b 0 1 = 0x84 ∧ fieldAt b 7 1 = 0 ∧
        (b.drop 16).take (s.attestReport m.data).length = s.attestReport m.data)) ∧
  (∀ m s r, s.takes { m with op := 5 } r →
    ((s.dict.running.find? fun x => Running.isFor x m && x.path == m.path) = none → Leads (.poll m) s fun t =>
      t.dict.running = s.dict.running ∧ t.answers s m fun b => fieldAt b 7 1 = 0x10 ∧ fieldAt b 14 1 = dtRefused) ∧
    (∀ x, (s.dict.running.find? fun x => Running.isFor x m && x.path == m.path) = some x → m.offset ≤ x.result.length →
      Leads (.poll m) s fun t => t.answers s m fun b =>
        (x.ended = none → fieldAt b 7 1 = 0 ∧ (fieldAt b 1 1).testBit 2 = true) ∧
        (x.ended ≠ none → fieldAt b 7 1 = x.status % 256 ∧ fieldAt b 14 1 = x.detail % 256 ∧
          (fieldAt b 1 1).testBit 2 = false ∧ (b.drop 16).take ((x.result.drop m.offset).take 1024).length =
            (x.result.drop m.offset).take 1024))) ∧
  (∀ port m loc s, port < 2 →
    (s.isOn fHQ_MB_CTL_BUSY port 0 = false → s.isOn fHQ_MB_CTL_DONE port 0 = false → s.serverUp = true → m.op ≠ 4 →
      Leads (.go port m loc) s fun t => t.isOn fHQ_MB_CTL_DONE port 0 = true ∧ t.isOn fHQ_MB_CTL_BUSY port 0 = false) ∧
    (s.isOn fHQ_MB_CTL_BUSY port 0 = true ∨ s.isOn fHQ_MB_CTL_DONE port 0 = true → Leads (.go port m loc) s fun t =>
      t.ras.refused = s.ras.refused + 1 ∧ Frame [.out, .ras] logRegs s t)) ∧
  (∀ p i j s x, (s.dict.xfers.find? fun x => x.path == p && x.index == i && x.sub == j) = some x →
    Leads (.segmentTimeout p i j) s fun t => t.now = max s.now (x.atTime + 10 * sec) ∧
      (t.dict.xfers.any fun x => x.path == p && x.index == i && x.sub == j) = false) ∧
  (∀ i j s x d, (s.dict.running.find? fun x => x.index == i && x.sub == j) = some x → x.ended = some d →
    Leads (.resultHoldExpiry i j) s fun t => t.now = max s.now (d + 60 * sec) ∧
      (t.dict.running.any fun x => x.index == i && x.sub == j) = false) ∧
  (∀ s, Leads .save s fun t => t.boot.stored = s.nextStored ∧ t.boot.config.valid = true ∧ t.dict.unsaved = [] ∧
    t.dict.pending = none ∧ t.dict.lastSave = s.now ∧ t.told s 0x2021 0 0 []) ∧
  (∀ s a b, s.dict.pending = some (a, b) → Leads .configSaveTimer s fun t => t.boot.stored = s.nextStored ∧
    t.dict.unsaved = [] ∧ t.dict.pending = none ∧ t.now = max s.now (min (b + sec) (a + 10 * sec))) ∧
  (∀ port eid s, s.mctpOn port = true → Leads (.setEndpointId port eid) s fun t => t.objNat 0xD020 port 0 = eid % 256 ∧
    t.out = s.out ++ [.mctp port 1 (leBytes 1 eid)]) ∧
  (∀ f k d s port, (f, k, d) ∈ ([(.getEndpointId, 2, leBytes 1 (s.objNat 0xD020 port 0)),
      (.getMctpVersionSupport, 4, Config.mctpVersions), (.getMessageTypeSupport, 5, [0x7E]),
      (.getVendorDefinedMessageSupport, 6, leBytes 2 Config.pciVendorId.toNat)] : List ((Nat → Instr) × Nat × List Byte)) →
    Leads (f port) s fun t => t.out = (if s.mctpOn port then s.out ++ [.mctp port k d] else s.out) ∧ Frame [.out] [] s t) ∧
  (∀ a p q s, s.mpOn = true → s.serverUp = true → s.objNat 0xD010 7 0 ≠ 0 → Leads (.arpRequest a p q) s fun t =>
    t.out = (if a = s.objNat 0xD010 7 0 then s.out ++ [.arpReply a s.mpMac p q] else s.out) ∧ Frame [.out] [] s t) ∧
  (∀ a p s, s.mpOn = true → s.serverUp = true → Leads (.neighbourSolicitation a p) s fun t =>
    t.out = (if a = linkLocal s.mpMac then s.out ++ [.neighbourAdvert a s.mpMac p] else s.out) ∧ Frame [.out] [] s t) ∧
  (∀ s, s.mpOn = true → Leads .plcaBeacon s fun t => t.objNat 0xD010 9 0 = 3 ∧ t.dict.plca.length = 5 ∧ Frame [.dict] [] s t)

/-- POWER_TICK, MR4_SAMPLE, SELF_TEST, SELF_TEST_COMPLETE and the instructions of the test access port (R380, R384,
R386, R387, R390, R391, R392, R393, R400). -/
def Obligations.PowerTestsAndTheAccessPort : Prop :=
  (∀ r s, Leads (.powerTick r) s fun t => t.power.hist = (r.powerMw :: s.power.hist).take 100 ∧
    t.power.railMv = (r.railMv :: s.power.railMv).take 100 ∧ t.power.railMa = (r.railMa :: s.power.railMa).take 100 ∧
    t.power.temps = (List.range 40).map (r.dieTempQ.getD · 0) ∧
    (s.startStep < 4 ∨ s.mode = 2 → t.regs = s.regs ∧ t.power.g = s.power.g) ∧
    (4 ≤ s.startStep → s.mode ≠ 2 → (s.pins.pwrLossN = false → t.power.g = 1) ∧
      (s.pins.pwrLossN = true → s.limitMw < r.powerMw → t.power.g = max (s.power.g - 2) 1 ∧ t.power.calm = 0) ∧
      (s.pins.pwrLossN = true → r.powerMw ≤ s.limitMw →
        97 * s.limitMw * t.power.hist.length < 100 * t.power.hist.sum → t.power.g = max (s.power.g - 1) 1) ∧
      (s.pins.pwrLossN = true → 10 * r.powerMw < 9 * s.limitMw →
        100 * t.power.hist.sum ≤ 97 * s.limitMw * t.power.hist.length →
        (9 ≤ s.power.calm → t.power.g = min (s.power.g + 1) 8 ∧ t.power.calm = 0) ∧
        (s.power.calm < 9 → t.power.g = s.power.g ∧ t.power.calm = s.power.calm + 1)) ∧
      (∀ d, d < 5 → 4 * (s.throttleC : Int) ≤ t.crownTemp d → t.power.caps.getD d 8 = max (s.power.caps.getD d 8 - 1) 1) ∧
      ∀ b, b < 50 → t.fld fBD_THR_LEVEL b 0 =
        min t.power.g (min (t.power.caps.getD (dieOf b) 8) (s.fld fBD_THR_LEVEL_MAX b 0)))) ∧
  (∀ k code s, k < 20 → Leads (.mr4Sample k code) s fun t => t.power.mr4.get? k = some (code % 32) ∧
    (∀ j, j ≠ k → t.power.mr4.get? j = s.power.mr4.get? j) ∧ Frame [.power] [] s t) ∧
  (∀ u k s, (testUs u.kind k ≠ 0 → s.mayTest u = true → s.testing u = false → Leads (.selfTest u k) s fun t =>
      t.power.tests = s.power.tests ++ [{ unit := u, test := k, since := s.now }] ∧
      (u.kind = 2 → t.isOn fBD_THR_GATED u.num 0 = false)) ∧
    (testUs u.kind k = 0 ∨ s.mayTest u = false ∨ s.testing u = true → Leads (.selfTest u k) s fun t =>
      t.power.tests = s.power.tests ∧ t.told s 0xE000 0 0x10 [])) ∧
  (∀ u a b v n f s x, (s.power.tests.find? (·.unit == u)) = some x → Leads (.selfTestComplete u a b v n f) s fun t =>
    t.testing u = false ∧ t.now = max s.now (x.since + us * s.testTime u x.test) ∧
    t.told s 0xE000 0 0 t.power.lastTest ∧ t.power.lastTest = testResult a b (if v = 0 ∧ a ≠ b then 1 else v) n
      (if u.kind = 2 then f % 2 ^ 18 else 0) ((t.now - x.since) / us)) ∧
  (∀ c n s, (c, n) ∈ [(Instr.bypass, 0), (.samplePreload, 2), (.extest, 3), (.extestPulse, 4), (.extestTrain, 5), (.clamp, 6),
      (.highz, 7)] → Leads c s fun t => t.power = { s.power with tap := n } ∧ Frame [.out, .power] [] s t ∧
    t.out = if n = 0 ∨ 3 ≤ n ∧ s.objNat 0xD040 0 0 = 0 then s.out else s.out ++ [.tdoPins n]) ∧
  (∀ s, Leads .idcode s fun t => t.power = { s.power with tap := 1 } ∧ t.out.getLast? = some (.tdo 0x17A095C7) ∧
    Frame [.out, .power] [] s t) ∧
  (∀ s, Leads .tapReset s fun t => t.power = { s.power with tap := 1 } ∧ Frame [.power] [] s t)
end

