-- ==== Sys2Proof/Laws/Tbl.lean ====
section
/-! SUPPORT. Tables: reading after a write, and that every operation keeps the keys rising and the canonical form. -/

namespace Sys2Proof

variable {α : Type}

theorem Tbl.lt_of_risesFrom {t : Tbl α} {b : Nat} (h : Tbl.risesFrom t b = true) : ∀ e ∈ t, b < e.1 := by
  induction t generalizing b with
  | nil => simp
  | cons e t ih =>
    simp only [Tbl.risesFrom, Bool.and_eq_true, decide_eq_true_eq] at h
    intro x hx
    rcases List.mem_cons.mp hx with rfl | hx
    · exact h.1
    · exact Nat.lt_trans h.1 (ih h.2 x hx)

/-- The keys rise exactly when they stand in strictly rising order. -/
theorem Tbl.sorted_iff (t : Tbl α) : Tbl.sorted t = true ↔ t.Pairwise (fun a b => a.1 < b.1) := by
  induction t with
  | nil => simp [Tbl.sorted]
  | cons e t ih =>
    obtain ⟨k, v⟩ := e
    constructor
    · intro h
      have hk := Tbl.lt_of_risesFrom (b := k) h
      refine List.pairwise_cons.mpr ⟨hk, ih.mp ?_⟩
      cases t with
      | nil => rfl
      | cons e t => simp only [Tbl.sorted, Tbl.risesFrom, Bool.and_eq_true] at h ⊢; exact h.2
    · intro h
      obtain ⟨hk, ht⟩ := List.pairwise_cons.mp h
      have hs := ih.mpr ht
      cases t with
      | nil => rfl
      | cons e t =>
        simp only [Tbl.sorted, Tbl.risesFrom, Bool.and_eq_true, decide_eq_true_eq] at hs ⊢
        exact ⟨hk e (by simp), hs⟩

@[simp] theorem Tbl.get?_nil (i : Nat) : Tbl.get? ([] : Tbl α) i = none := rfl

theorem Tbl.get?_put_self (t : Tbl α) (i : Nat) (v : α) : (t.put i v).get? i = some v := by
  induction t with
  | nil => simp [Tbl.put, Tbl.get?]
  | cons e t ih =>
    obtain ⟨k, w⟩ := e
    simp only [Tbl.put]
    split
    · simp [Tbl.get?]
    · split
      · simp [Tbl.get?]
      · rename_i h; simp [Tbl.get?, h, ih]

theorem Tbl.get?_put_ne (t : Tbl α) {i j : Nat} (v : α) (h : j ≠ i) : (t.put i v).get? j = t.get? j := by
  induction t with
  | nil => simp [Tbl.put, Tbl.get?, h]
  | cons e t ih =>
    obtain ⟨k, w⟩ := e
    simp only [Tbl.put]
    split
    · simp [Tbl.get?, h]
    · split
      · rename_i hk; subst hk; simp [Tbl.get?, h]
      · simp only [Tbl.get?, ih]

theorem Tbl.mem_put {t : Tbl α} {i : Nat} {v : α} {e : Nat × α} (h : e ∈ t.put i v) : e = (i, v) ∨ e ∈ t := by
  induction t with
  | nil => simpa [Tbl.put] using h
  | cons x t ih =>
    obtain ⟨k, w⟩ := x
    simp only [Tbl.put] at h
    split at h
    · simpa using h
    · split at h
      · rcases List.mem_cons.mp h with h | h
        · exact Or.inl h
        · exact Or.inr (List.mem_cons_of_mem _ h)
      · rcases List.mem_cons.mp h with h | h
        · exact Or.inr (h ▸ List.mem_cons_self)
        · exact (ih h).imp_right (List.mem_cons_of_mem _)

theorem Tbl.mem_del {t : Tbl α} {i : Nat} {e : Nat × α} (h : e ∈ t.del i) : e ∈ t := by
  induction t with
  | nil => simp [Tbl.del] at h
  | cons x t ih =>
    obtain ⟨k, w⟩ := x
    simp only [Tbl.del] at h
    split at h
    · exact List.mem_cons_of_mem _ (ih h)
    · rcases List.mem_cons.mp h with h | h
      · exact h ▸ List.mem_cons_self
      · exact List.mem_cons_of_mem _ (ih h)

theorem Tbl.sorted_put {t : Tbl α} (h : t.sorted = true) (i : Nat) (v : α) : (t.put i v).sorted = true := by
  rw [Tbl.sorted_iff] at h ⊢
  induction t with
  | nil => simp [Tbl.put]
  | cons x t ih =>
    obtain ⟨k, w⟩ := x
    obtain ⟨hk, ht⟩ := List.pairwise_cons.mp h
    simp only [Tbl.put]
    split
    · rename_i hi
      refine List.pairwise_cons.mpr ⟨?_, h⟩
      intro e he
      rcases List.mem_cons.mp he with rfl | he
      · exact hi
      · exact Nat.lt_trans hi (hk e he)
    · split
      · rename_i hi
        refine List.pairwise_cons.mpr ⟨fun e he => hi ▸ hk e he, ht⟩
      · refine List.pairwise_cons.mpr ⟨?_, ih ht⟩
        intro e he
        rcases Tbl.mem_put he with rfl | he
        · show k < i; omega
        · exact hk e he

theorem Tbl.sorted_del {t : Tbl α} (h : t.sorted = true) (i : Nat) : (t.del i).sorted = true := by
  rw [Tbl.sorted_iff] at h ⊢
  induction t with
  | nil => simp [Tbl.del]
  | cons x t ih =>
    obtain ⟨k, w⟩ := x
    obtain ⟨hk, ht⟩ := List.pairwise_cons.mp h
    simp only [Tbl.del]
    split
    · exact ih ht
    · exact List.pairwise_cons.mpr ⟨fun e he => hk e (Tbl.mem_del he), ih ht⟩

theorem Tbl.sorted_filter {t : Tbl α} (h : t.sorted = true) (p : Nat × α → Bool) : Tbl.sorted (t.filter p) = true := by
  rw [Tbl.sorted_iff] at h ⊢
  exact h.filter p

theorem Tbl.get?_none_of_lt {t : Tbl α} {i : Nat} (h : ∀ e ∈ t, i < e.1) : t.get? i = none := by
  induction t with
  | nil => rfl
  | cons x t ih =>
    obtain ⟨k, w⟩ := x
    have hk : i < k := h (k, w) List.mem_cons_self
    simp only [Tbl.get?, if_neg (Nat.ne_of_lt hk)]
    exact ih fun e he => h e (List.mem_cons_of_mem _ he)

theorem Tbl.get?_del_ne (t : Tbl α) {i j : Nat} (h : j ≠ i) : (t.del i).get? j = t.get? j := by
  induction t with
  | nil => rfl
  | cons x t ih =>
    obtain ⟨k, w⟩ := x
    simp only [Tbl.del]
    split
    · rename_i hk; subst hk; simp only [Tbl.get?, if_neg h, ih]
    · simp only [Tbl.get?, ih]

theorem Tbl.get?_del_self (t : Tbl α) (i : Nat) : (t.del i).get? i = none := by
  induction t with
  | nil => rfl
  | cons x t ih =>
    obtain ⟨k, w⟩ := x
    simp only [Tbl.del]
    split
    · exact ih
    · rename_i hi; simp only [Tbl.get?, if_neg hi]; exact ih

section Default

variable [DecidableEq α]

theorem Tbl.getD_wr_ne (t : Tbl α) (d v : α) {i j : Nat} (h : j ≠ i) : (t.wr d i v).getD d j = t.getD d j := by
  unfold Tbl.wr Tbl.getD
  split
  · rw [Tbl.get?_del_ne t h]
  · rw [Tbl.get?_put_ne t v h]

theorem Tbl.getD_wr_other (t : Tbl α) (d e v : α) {i j : Nat} (h : j ≠ i) : (t.wr d i v).getD e j = t.getD e j := by
  unfold Tbl.wr Tbl.getD
  split
  · rw [Tbl.get?_del_ne t h]
  · rw [Tbl.get?_put_ne t v h]

theorem Tbl.getD_wr_self (t : Tbl α) (d v : α) (i : Nat) : (t.wr d i v).getD d i = v := by
  unfold Tbl.wr Tbl.getD
  split
  · rename_i h; rw [Tbl.get?_del_self, h]; rfl
  · rw [Tbl.get?_put_self]; rfl

theorem Tbl.sorted_wr {t : Tbl α} (h : t.sorted = true) (d : α) (i : Nat) (v : α) : (t.wr d i v).sorted = true := by
  unfold Tbl.wr
  split
  · exact Tbl.sorted_del h i
  · exact Tbl.sorted_put h i v

/-- A write keeps the canonical form. -/
theorem Tbl.wf_wr {t : Tbl α} {d : α} (h : t.wf d = true) (i : Nat) (v : α) : (t.wr d i v).wf d = true := by
  simp only [Tbl.wf, Bool.and_eq_true, List.all_eq_true, decide_eq_true_eq] at h ⊢
  refine ⟨Tbl.sorted_wr h.1 d i v, ?_⟩
  intro e he
  unfold Tbl.wr at he
  split at he
  · exact h.2 e (Tbl.mem_del he)
  · rename_i hv
    rcases Tbl.mem_put he with rfl | he
    · exact hv
    · exact h.2 e he

end Default

end Sys2Proof
end

