-- ==== Sys2Proof/Laws/Keeps.lean ====
section
/-! SUPPORT. What an operation can change. Every part of the state and every register has a bit; `Keeps m s t` says that the
state `t` differs from `s` only in the parts and registers whose bits `m` has, that the queue is as it was, that device time
and the security floor have not gone back, and that `t` is sound when `s` is. One lemma for each operation says what it keeps
(Laws/Keep*.lean); composed, they give the frame of every command. -/

namespace Sys2Proof.Machine

set_option Elab.async false

/-- The bit of a part. -/
def Part.bit (p : Part) : Nat := p.ctorIdx

/-- The bit of a register, all its copies together. -/
def regBit (r : RegName) : Nat := 32 + r.ctorIdx

/-- The touch of some parts and registers. -/
def touchSet (ps : List Part) (rs : List RegName) : Nat :=
  rs.foldl (fun m r => m ||| 2 ^ regBit r) (ps.foldl (fun m p => m ||| 2 ^ p.bit) 0)

/-- The touch of every register. -/
def anyReg : Nat := 2 ^ 400 - 2 ^ 32

structure Keeps (m : Nat) (s t : State) : Prop where
  pending : t.pending = s.pending
  parts : ∀ p : Part, m.testBit p.bit = false → p.same s t
  regs : ∀ r i j, m.testBit (regBit r) = false → t.reg r i j = s.reg r i j
  free : s.freeCount ≤ t.freeCount
  floor : s.boot.secFloor ≤ t.boot.secFloor
  sound : s.sound = true → t.sound = true

theorem Part.same_rfl (p : Part) (s : State) : p.same s s := by cases p <;> first | exact Nat.le_refl _ | rfl

theorem Part.same_trans {p : Part} {s t u : State} (h : p.same s t) (k : p.same t u) : p.same s u := by
  cases p <;> first | exact Nat.le_trans h k | exact Eq.trans k h

theorem Keeps.rfl {m : Nat} {s : State} : Keeps m s s :=
  ⟨Eq.refl _, fun p _ => Part.same_rfl p s, fun _ _ _ _ => Eq.refl _, Nat.le_refl _, Nat.le_refl _, id⟩

theorem testBit_of_within {g m i : Nat} (h : g &&& m = g) (hi : m.testBit i = false) : g.testBit i = false := by
  rw [← h, Nat.testBit_and, hi, Bool.and_false]

/-- One operation after others. -/
theorem Keeps.after {m g : Nat} {s t u : State} (h : Keeps m s t) (k : Keeps g t u) (hm : g &&& m = g) : Keeps m s u :=
  ⟨k.pending.trans h.pending, fun p hp => Part.same_trans (h.parts p hp) (k.parts p (testBit_of_within hm hp)),
   fun r i j hr => (k.regs r i j (testBit_of_within hm hr)).trans (h.regs r i j hr), Nat.le_trans h.free k.free,
   Nat.le_trans h.floor k.floor, fun hs => k.sound (h.sound hs)⟩

theorem Keeps.widen {m g : Nat} {s t : State} (k : Keeps g s t) (hm : g &&& m = g) : Keeps m s t := Keeps.rfl.after k hm

theorem Keeps.ite {m : Nat} {s t u : State} {c : Prop} [Decidable c] (h : Keeps m s t) (k : Keeps m s u) :
    Keeps m s (if c then t else u) := by
  split
  · exact h
  · exact k

theorem Keeps.forEach {α : Type} {m : Nat} {s t : State} (xs : List α) (f : α → State → State)
    (hf : ∀ a u, Keeps m u (f a u)) (h : Keeps m s t) : Keeps m s (forEach xs f t) := by
  unfold Sys2Proof.Machine.forEach
  induction xs generalizing t with
  | nil => exact h
  | cons a xs ih => exact ih (h.after (hf a t) (Nat.and_self m))

theorem State.sound_iff (s : State) : s.sound = true ↔ (s.regs.sorted = true ∧ Memory.wf s.hostMem = true ∧
    Memory.wf s.dram = true) ∧ s.ras.errLog.length ≤ 8192 ∧ s.boot.history.length ≤ 2048 := by
  simp only [State.sound, Bool.and_eq_true, decide_eq_true_eq]; tauto

theorem State.sound_congr {s t : State} (h1 : t.regs = s.regs) (h2 : t.hostMem = s.hostMem) (h3 : t.dram = s.dram)
    (h4 : t.ras.errLog.length = s.ras.errLog.length ∨ t.ras.errLog.length ≤ 8192)
    (h5 : t.boot.history.length = s.boot.history.length ∨ t.boot.history.length ≤ 2048) :
    s.sound = true → t.sound = true := by
  simp only [State.sound_iff, h1, h2, h3]
  rintro ⟨a, b, c⟩
  exact ⟨a, by omega, by omega⟩

theorem Keeps.shadowRegs {m : Nat} {s t : State} {x : _} (h : Keeps m s t) (hm : m.testBit (Part.bit .shadowRegs) = true) :
    Keeps m s { t with shadowRegs := x } :=
  ⟨h.pending, fun p hp => by cases p <;> first | exact h.parts _ hp | exact absurd hp (by simp [hm]), h.regs, h.free, h.floor,
   fun hs => State.sound_congr (s := t) (Eq.refl _) (Eq.refl _) (Eq.refl _) (Or.inl (Eq.refl _)) (Or.inl (Eq.refl _)) (h.sound hs)⟩

theorem Keeps.readData {m : Nat} {s t : State} {x : _} (h : Keeps m s t) (hm : m.testBit (Part.bit .readData) = true) :
    Keeps m s { t with readData := x } :=
  ⟨h.pending, fun p hp => by cases p <;> first | exact h.parts _ hp | exact absurd hp (by simp [hm]), h.regs, h.free, h.floor,
   fun hs => State.sound_congr (s := t) (Eq.refl _) (Eq.refl _) (Eq.refl _) (Or.inl (Eq.refl _)) (Or.inl (Eq.refl _)) (h.sound hs)⟩

theorem Keeps.out {m : Nat} {s t : State} {x : _} (h : Keeps m s t) (hm : m.testBit (Part.bit .out) = true) :
    Keeps m s { t with out := x } :=
  ⟨h.pending, fun p hp => by cases p <;> first | exact h.parts _ hp | exact absurd hp (by simp [hm]), h.regs, h.free, h.floor,
   fun hs => State.sound_congr (s := t) (Eq.refl _) (Eq.refl _) (Eq.refl _) (Or.inl (Eq.refl _)) (Or.inl (Eq.refl _)) (h.sound hs)⟩

theorem Keeps.hq {m : Nat} {s t : State} {x : _} (h : Keeps m s t) (hm : m.testBit (Part.bit .hq) = true) :
    Keeps m s { t with hq := x } :=
  ⟨h.pending, fun p hp => by cases p <;> first | exact h.parts _ hp | exact absurd hp (by simp [hm]), h.regs, h.free, h.floor,
   fun hs => State.sound_congr (s := t) (Eq.refl _) (Eq.refl _) (Eq.refl _) (Or.inl (Eq.refl _)) (Or.inl (Eq.refl _)) (h.sound hs)⟩

theorem Keeps.qry {m : Nat} {s t : State} {x : _} (h : Keeps m s t) (hm : m.testBit (Part.bit .qry) = true) :
    Keeps m s { t with qry := x } :=
  ⟨h.pending, fun p hp => by cases p <;> first | exact h.parts _ hp | exact absurd hp (by simp [hm]), h.regs, h.free, h.floor,
   fun hs => State.sound_congr (s := t) (Eq.refl _) (Eq.refl _) (Eq.refl _) (Or.inl (Eq.refl _)) (Or.inl (Eq.refl _)) (h.sound hs)⟩

theorem Keeps.idx {m : Nat} {s t : State} {x : _} (h : Keeps m s t) (hm : m.testBit (Part.bit .idx) = true) :
    Keeps m s { t with idx := x } :=
  ⟨h.pending, fun p hp => by cases p <;> first | exact h.parts _ hp | exact absurd hp (by simp [hm]), h.regs, h.free, h.floor,
   fun hs => State.sound_congr (s := t) (Eq.refl _) (Eq.refl _) (Eq.refl _) (Or.inl (Eq.refl _)) (Or.inl (Eq.refl _)) (h.sound hs)⟩

theorem Keeps.tbl {m : Nat} {s t : State} {x : _} (h : Keeps m s t) (hm : m.testBit (Part.bit .tbl) = true) :
    Keeps m s { t with tbl := x } :=
  ⟨h.pending, fun p hp => by cases p <;> first | exact h.parts _ hp | exact absurd hp (by simp [hm]), h.regs, h.free, h.floor,
   fun hs => State.sound_congr (s := t) (Eq.refl _) (Eq.refl _) (Eq.refl _) (Or.inl (Eq.refl _)) (Or.inl (Eq.refl _)) (h.sound hs)⟩

theorem Keeps.fl {m : Nat} {s t : State} {x : _} (h : Keeps m s t) (hm : m.testBit (Part.bit .fl) = true) :
    Keeps m s { t with fl := x } :=
  ⟨h.pending, fun p hp => by cases p <;> first | exact h.parts _ hp | exact absurd hp (by simp [hm]), h.regs, h.free, h.floor,
   fun hs => State.sound_congr (s := t) (Eq.refl _) (Eq.refl _) (Eq.refl _) (Or.inl (Eq.refl _)) (Or.inl (Eq.refl _)) (h.sound hs)⟩

theorem Keeps.net {m : Nat} {s t : State} {x : _} (h : Keeps m s t) (hm : m.testBit (Part.bit .net) = true) :
    Keeps m s { t with net := x } :=
  ⟨h.pending, fun p hp => by cases p <;> first | exact h.parts _ hp | exact absurd hp (by simp [hm]), h.regs, h.free, h.floor,
   fun hs => State.sound_congr (s := t) (Eq.refl _) (Eq.refl _) (Eq.refl _) (Or.inl (Eq.refl _)) (Or.inl (Eq.refl _)) (h.sound hs)⟩

theorem Keeps.pol {m : Nat} {s t : State} {x : _} (h : Keeps m s t) (hm : m.testBit (Part.bit .pol) = true) :
    Keeps m s { t with pol := x } :=
  ⟨h.pending, fun p hp => by cases p <;> first | exact h.parts _ hp | exact absurd hp (by simp [hm]), h.regs, h.free, h.floor,
   fun hs => State.sound_congr (s := t) (Eq.refl _) (Eq.refl _) (Eq.refl _) (Or.inl (Eq.refl _)) (Or.inl (Eq.refl _)) (h.sound hs)⟩

theorem Keeps.ten {m : Nat} {s t : State} {x : _} (h : Keeps m s t) (hm : m.testBit (Part.bit .ten) = true) :
    Keeps m s { t with ten := x } :=
  ⟨h.pending, fun p hp => by cases p <;> first | exact h.parts _ hp | exact absurd hp (by simp [hm]), h.regs, h.free, h.floor,
   fun hs => State.sound_congr (s := t) (Eq.refl _) (Eq.refl _) (Eq.refl _) (Or.inl (Eq.refl _)) (Or.inl (Eq.refl _)) (h.sound hs)⟩

theorem Keeps.start {m : Nat} {s t : State} {x : _} (h : Keeps m s t) (hm : m.testBit (Part.bit .start) = true) :
    Keeps m s { t with start := x } :=
  ⟨h.pending, fun p hp => by cases p <;> first | exact h.parts _ hp | exact absurd hp (by simp [hm]), h.regs, h.free, h.floor,
   fun hs => State.sound_congr (s := t) (Eq.refl _) (Eq.refl _) (Eq.refl _) (Or.inl (Eq.refl _)) (Or.inl (Eq.refl _)) (h.sound hs)⟩

theorem Keeps.dict {m : Nat} {s t : State} {x : _} (h : Keeps m s t) (hm : m.testBit (Part.bit .dict) = true) :
    Keeps m s { t with dict := x } :=
  ⟨h.pending, fun p hp => by cases p <;> first | exact h.parts _ hp | exact absurd hp (by simp [hm]), h.regs, h.free, h.floor,
   fun hs => State.sound_congr (s := t) (Eq.refl _) (Eq.refl _) (Eq.refl _) (Or.inl (Eq.refl _)) (Or.inl (Eq.refl _)) (h.sound hs)⟩

theorem Keeps.power {m : Nat} {s t : State} {x : _} (h : Keeps m s t) (hm : m.testBit (Part.bit .power) = true) :
    Keeps m s { t with power := x } :=
  ⟨h.pending, fun p hp => by cases p <;> first | exact h.parts _ hp | exact absurd hp (by simp [hm]), h.regs, h.free, h.floor,
   fun hs => State.sound_congr (s := t) (Eq.refl _) (Eq.refl _) (Eq.refl _) (Or.inl (Eq.refl _)) (Or.inl (Eq.refl _)) (h.sound hs)⟩

theorem Keeps.pins {m : Nat} {s t : State} {x : _} (h : Keeps m s t) (hm : m.testBit (Part.bit .pins) = true) :
    Keeps m s { t with pins := x } :=
  ⟨h.pending, fun p hp => by cases p <;> first | exact h.parts _ hp | exact absurd hp (by simp [hm]), h.regs, h.free, h.floor,
   fun hs => State.sound_congr (s := t) (Eq.refl _) (Eq.refl _) (Eq.refl _) (Or.inl (Eq.refl _)) (Or.inl (Eq.refl _)) (h.sound hs)⟩

theorem Keeps.ras {m : Nat} {s t : State} {x : Ras} (h : Keeps m s t) (hm : m.testBit (Part.bit .ras) = true)
    (hx : x.errLog.length = t.ras.errLog.length ∨ x.errLog.length ≤ 8192) : Keeps m s { t with ras := x } :=
  ⟨h.pending, fun p hp => by cases p <;> first | exact h.parts _ hp | exact absurd hp (by simp [hm]), h.regs, h.free, h.floor,
   fun hs => State.sound_congr (s := t) (Eq.refl _) (Eq.refl _) (Eq.refl _) hx (Or.inl (Eq.refl _)) (h.sound hs)⟩

theorem Keeps.boot {m : Nat} {s t : State} {x : BootFlash} (h : Keeps m s t) (hm : m.testBit (Part.bit .boot) = true)
    (hf : t.boot.secFloor ≤ x.secFloor) (hx : x.history.length = t.boot.history.length ∨ x.history.length ≤ 2048) :
    Keeps m s { t with boot := x } :=
  ⟨h.pending, fun p hp => by cases p <;> first | exact h.parts _ hp | exact absurd hp (by simp [hm]), h.regs, h.free,
   Nat.le_trans h.floor hf, fun hs => State.sound_congr (s := t) (Eq.refl _) (Eq.refl _) (Eq.refl _) (Or.inl (Eq.refl _)) hx (h.sound hs)⟩

theorem Keeps.now {m : Nat} {s t : State} {x : Nat} (h : Keeps m s t) (hm : m.testBit (Part.bit .now) = true)
    (hx : t.now ≤ x) : Keeps m s { t with now := x } :=
  ⟨h.pending, fun p hp => by
     cases p <;> first
       | exact Nat.le_trans (h.parts .time hp) hx
       | exact h.parts _ hp
       | exact absurd hp (by simp [hm]), h.regs, h.free, h.floor,
   fun hs => State.sound_congr (s := t) (Eq.refl _) (Eq.refl _) (Eq.refl _) (Or.inl (Eq.refl _)) (Or.inl (Eq.refl _)) (h.sound hs)⟩

theorem Keeps.freeCount {m : Nat} {s t : State} {x : Nat} (h : Keeps m s t) (hm : m.testBit (Part.bit .freeCount) = true)
    (hx : t.freeCount ≤ x) : Keeps m s { t with freeCount := x } :=
  ⟨h.pending, fun p hp => by cases p <;> first | exact h.parts _ hp | exact absurd hp (by simp [hm]), h.regs,
   Nat.le_trans h.free hx, h.floor,
   fun hs => State.sound_congr (s := t) (Eq.refl _) (Eq.refl _) (Eq.refl _) (Or.inl (Eq.refl _)) (Or.inl (Eq.refl _)) (h.sound hs)⟩

theorem memWrite_wf {m : List Host.Cell} (h : Memory.wf m = true) (a : Nat) (bs : List Byte) :
    Memory.wf (memWrite m a bs) = true := by
  induction bs generalizing m a with
  | nil => exact h
  | cons b bs ih => exact ih (Tbl.wf_wr h a b) (a + 1)

theorem Keeps.hostMem {m : Nat} {s t : State} {a : Nat} {bs : List Byte} (h : Keeps m s t)
    (hm : m.testBit (Part.bit .hostMem) = true) : Keeps m s { t with hostMem := memWrite t.hostMem a bs } :=
  ⟨h.pending, fun p hp => by cases p <;> first | exact h.parts _ hp | exact absurd hp (by simp [hm]), h.regs, h.free, h.floor,
   fun hs => by
     have := h.sound hs
     simp only [State.sound_iff] at this ⊢
     exact ⟨⟨this.1.1, memWrite_wf this.1.2.1 a bs, this.1.2.2⟩, this.2⟩⟩

theorem Keeps.dram {m : Nat} {s t : State} {a : Nat} {bs : List Byte} (h : Keeps m s t)
    (hm : m.testBit (Part.bit .dram) = true) : Keeps m s { t with dram := memWrite t.dram a bs } :=
  ⟨h.pending, fun p hp => by cases p <;> first | exact h.parts _ hp | exact absurd hp (by simp [hm]), h.regs, h.free, h.floor,
   fun hs => by
     have := h.sound hs
     simp only [State.sound_iff] at this ⊢
     exact ⟨⟨this.1.1, this.1.2.1, memWrite_wf this.1.2.2 a bs⟩, this.2⟩⟩

theorem RegName.ctorIdx_inj {r q : RegName} (h : r.ctorIdx = q.ctorIdx) : r = q := by
  have : ∀ x : RegName, x = RegName.ofNat x.ctorIdx := by intro x; cases x <;> rfl
  rw [this r, this q, h]

theorem regKey_ne {r q : RegName} (h : q ≠ r) (i j a b : Nat) : regKey q a b ≠ regKey r i j := by
  intro e
  exact h (RegName.ctorIdx_inj (Nat.pair_eq_pair.mp e).1)

theorem Keeps.setReg {m : Nat} {s t : State} {r : RegName} {i j : Nat} {v : W64} (h : Keeps m s t)
    (hm : m.testBit (regBit r) = true) : Keeps m s (t.setReg r i j v) :=
  ⟨h.pending, fun p hp => by cases p <;> exact h.parts _ hp,
   fun q a b hq => by
     have hne : q ≠ r := fun e => by rw [e, hm] at hq; exact absurd hq (by decide)
     refine Eq.trans ?_ (h.regs q a b hq)
     show Tbl.getD (Tbl.wr t.regs (regReset r i) (regKey r i j) v) (regReset q a) (regKey q a b) = _
     exact Tbl.getD_wr_other t.regs _ _ v (regKey_ne hne i j a b),
   h.free, h.floor,
   fun hs => by
     have := h.sound hs
     simp only [State.sound_iff] at this ⊢
     exact ⟨⟨Tbl.sorted_wr this.1.1 _ _ _, this.1.2⟩, this.2⟩⟩

theorem Keeps.setFld {m : Nat} {s t : State} {f : Fld} {i j n : Nat} (h : Keeps m s t)
    (hm : m.testBit (regBit f.reg) = true) : Keeps m s (t.setFld f i j n) := h.setReg hm

theorem Keeps.bump {m : Nat} {s t : State} {r : RegName} {i j n : Nat} (h : Keeps m s t)
    (hm : m.testBit (regBit r) = true) : Keeps m s (t.bump r i j n) := h.setReg hm

theorem Keeps.raise {m : Nat} {s t : State} {r : RegName} {i j n : Nat} (h : Keeps m s t)
    (hm : m.testBit (regBit r) = true) : Keeps m s (t.raise r i j n) := by
  unfold State.raise
  exact Keeps.ite (h.setReg hm) h

theorem Keeps.writeReg {m : Nat} {s t : State} {r : RegName} {i j : Nat} {v : W64} (h : Keeps m s t)
    (hm : m.testBit (regBit r) = true) : Keeps m s (t.writeReg r i j v) := h.setReg hm

/-- Several parts at once. -/
theorem Keeps.update {m : Nat} {s t u : State} (h : Keeps m s t) (hp : u.pending = t.pending) (hr : u.regs = t.regs)
    (parts : ∀ p : Part, m.testBit p.bit = false → p.same t u) (free : t.freeCount ≤ u.freeCount)
    (floor : t.boot.secFloor ≤ u.boot.secFloor) (sound : t.sound = true → u.sound = true) : Keeps m s u :=
  ⟨hp.trans h.pending, fun p hq => Part.same_trans (h.parts p hq) (parts p hq),
   fun r i j hq => Eq.trans (by simp only [State.reg, hr]) (h.regs r i j hq), Nat.le_trans h.free free,
   Nat.le_trans h.floor floor, fun hs => sound (h.sound hs)⟩

/-- What an operation that also answers a value keeps. -/
def Keeps2 {α : Type} (m : Nat) (s : State) (p : α × State) : Prop := Keeps m s p.2

theorem Keeps2.of {α : Type} {m : Nat} {s t : State} {x : α} (h : Keeps m s t) : Keeps2 m s (x, t) := h

theorem Keeps2.ite {α : Type} {m : Nat} {s : State} {a b : α × State} {c : Prop} [Decidable c] (h : Keeps2 m s a)
    (k : Keeps2 m s b) : Keeps2 m s (if c then a else b) := by
  split
  · exact h
  · exact k

theorem Keeps2.after {α : Type} {m g : Nat} {s t : State} {p : α × State} (h : Keeps m s t) (k : Keeps2 g t p)
    (hm : g &&& m = g) : Keeps2 m s p := Keeps.after h k hm

theorem Keeps2.foldl {α β : Type} {m : Nat} {s : State} (xs : List β) (f : α × State → β → α × State) {p : α × State}
    (hf : ∀ q b, Keeps2 m q.2 (f q b)) (h : Keeps m s p.2) : Keeps2 m s (xs.foldl f p) := by
  induction xs generalizing p with
  | nil => exact h
  | cons b xs ih => exact ih (Keeps.after h (hf p b) (Nat.and_self m))

def Keeps1 {α : Type} (m : Nat) (s : State) (p : State × α) : Prop := Keeps m s p.1

theorem Keeps1.of {α : Type} {m : Nat} {s t : State} {x : α} (h : Keeps m s t) : Keeps1 m s (t, x) := h

theorem Keeps1.ite {α : Type} {m : Nat} {s : State} {a b : State × α} {c : Prop} [Decidable c] (h : Keeps1 m s a)
    (k : Keeps1 m s b) : Keeps1 m s (if c then a else b) := by
  split
  · exact h
  · exact k

theorem Keeps1.after {α : Type} {m g : Nat} {s t : State} {p : State × α} (h : Keeps m s t) (k : Keeps1 g t p)
    (hm : g &&& m = g) : Keeps1 m s p := Keeps.after h k hm

/-- What an operation that may answer a state keeps. -/
def KeepsO (m : Nat) (s : State) (o : Option State) : Prop := ∀ t, o = some t → Keeps m s t

theorem KeepsO.none {m : Nat} {s : State} : KeepsO m s (Option.none : Option State) := fun _ h => nomatch h

theorem KeepsO.some {m : Nat} {s t : State} (h : Keeps m s t) : KeepsO m s (Option.some t) := by
  intro u e
  cases e
  exact h

theorem KeepsO.ite {m : Nat} {s : State} {a b : Option State} {c : Prop} [Decidable c] (h : KeepsO m s a)
    (k : KeepsO m s b) : KeepsO m s (if c then a else b) := by
  split
  · exact h
  · exact k

theorem KeepsO.after {m g : Nat} {s t : State} {o : Option State} (h : Keeps m s t) (k : KeepsO g t o)
    (hm : g &&& m = g) : KeepsO m s o := fun u e => h.after (k u e) hm

theorem KeepsO.getD {m : Nat} {s t : State} {o : Option State} (h : KeepsO m s o) (k : Keeps m s t) :
    Keeps m s (o.getD t) := by
  cases o with
  | none => exact k
  | some u => exact h u rfl

theorem KeepsO.get {m : Nat} {s t : State} {o : Option State} (e : o = Option.some t) (k : KeepsO m s o) :
    Keeps m s t := k t e

/-- The same, with a value. -/
def KeepsP {α : Type} (m : Nat) (s : State) (o : Option (α × State)) : Prop := ∀ x t, o = some (x, t) → Keeps m s t

theorem KeepsP.none {α : Type} {m : Nat} {s : State} : KeepsP m s (Option.none : Option (α × State)) := fun _ _ h => nomatch h

theorem KeepsP.some {α : Type} {m : Nat} {s t : State} {x : α} (h : Keeps m s t) : KeepsP m s (Option.some (x, t)) := by
  intro _ u e
  cases e
  exact h

theorem KeepsP.ite {α : Type} {m : Nat} {s : State} {a b : Option (α × State)} {c : Prop} [Decidable c] (h : KeepsP m s a)
    (k : KeepsP m s b) : KeepsP m s (if c then a else b) := by
  split
  · exact h
  · exact k

theorem KeepsP.after {α : Type} {m g : Nat} {s t : State} {o : Option (α × State)} (h : Keeps m s t) (k : KeepsP g t o)
    (hm : g &&& m = g) : KeepsP m s o := fun x u e => h.after (k x u e) hm

theorem KeepsP.get {α : Type} {m : Nat} {s t : State} {x : α} {o : Option (α × State)} (e : o = Option.some (x, t)) (k : KeepsP m s o) :
    Keeps m s t := k x t e

theorem KeepsP.foldl {α β : Type} {m : Nat} {s : State} (xs : List β) (f : Option (α × State) → β → Option (α × State))
    {o : Option (α × State)} (hf : ∀ q b, KeepsP m s q → KeepsP m s (f q b)) (h : KeepsP m s o) :
    KeepsP m s (xs.foldl f o) := by
  induction xs generalizing o with
  | nil => exact h
  | cons b xs ih => exact ih (hf o b h)

/-- The same, with two values. -/
def KeepsQ {α β : Type} (m : Nat) (s : State) (o : Option (α × β × State)) : Prop := ∀ x y t, o = some (x, y, t) → Keeps m s t

theorem KeepsQ.none {α β : Type} {m : Nat} {s : State} : KeepsQ m s (Option.none : Option (α × β × State)) := fun _ _ _ h => nomatch h

theorem KeepsQ.some {α β : Type} {m : Nat} {s t : State} {x : α} {y : β} (h : Keeps m s t) : KeepsQ m s (Option.some (x, y, t)) := by
  intro _ _ u e
  cases e
  exact h

theorem KeepsQ.ite {α β : Type} {m : Nat} {s : State} {a b : Option (α × β × State)} {c : Prop} [Decidable c] (h : KeepsQ m s a)
    (k : KeepsQ m s b) : KeepsQ m s (if c then a else b) := by
  split
  · exact h
  · exact k

theorem KeepsQ.after {α β : Type} {m g : Nat} {s t : State} {o : Option (α × β × State)} (h : Keeps m s t) (k : KeepsQ g t o)
    (hm : g &&& m = g) : KeepsQ m s o := fun x y u e => h.after (k x y u e) hm

theorem KeepsQ.get {α β : Type} {m : Nat} {s t : State} {x : α} {y : β} {o : Option (α × β × State)} (e : o = Option.some (x, y, t)) (k : KeepsQ m s o) :
    Keeps m s t := k x y t e

theorem KeepsP.map {α β : Type} {m : Nat} {s : State} (o : Option β) (f : β → α × State) (hf : ∀ b, Keeps m s (f b).2) :
    KeepsP m s (o.map f) := by
  intro x t h
  obtain ⟨b, _, e⟩ := Option.map_eq_some_iff.mp h
  have := hf b
  rw [e] at this
  exact this

theorem KeepsQ.map {α β γ : Type} {m : Nat} {s : State} (o : Option γ) (f : γ → α × β × State)
    (hf : ∀ b, Keeps m s (f b).2.2) : KeepsQ m s (o.map f) := by
  intro x y t h
  obtain ⟨b, _, e⟩ := Option.map_eq_some_iff.mp h
  have := hf b
  rw [e] at this
  exact this

theorem KeepsP.findSome? {α β : Type} {m : Nat} {s : State} (xs : List β) (f : β → Option (α × State))
    (hf : ∀ b, KeepsP m s (f b)) : KeepsP m s (xs.findSome? f) := by
  intro x t h
  obtain ⟨b, _, e⟩ := List.exists_of_findSome?_eq_some h
  exact hf b x t e

theorem touch_le {a b m : Nat} (h : a &&& b = a) (k : b &&& m = b) : a &&& m = a := by
  rw [← h, Nat.and_assoc, k]

theorem touch_bit {b m i : Nat} (h : b.testBit i = true) (k : b &&& m = b) : m.testBit i = true := by
  rw [← k, Nat.testBit_and, Bool.and_eq_true] at h
  exact h.2

theorem Keeps.snd {α : Type} {m : Nat} {s t : State} {p : α × State} {x : α} (h : p = (x, t)) (k : Keeps2 m s p) :
    Keeps m s t := by subst h; exact k

theorem Keeps.fst {α : Type} {m : Nat} {s t : State} {p : State × α} {x : α} (h : p = (t, x)) (k : Keeps1 m s p) :
    Keeps m s t := by subst h; exact k

theorem anyReg_bit {m : Nat} (h : anyReg &&& m = anyReg) (r : RegName) : m.testBit (regBit r) = true := by
  have : anyReg.testBit (regBit r) = true := by cases r <;> decide +kernel
  rw [← h, Nat.testBit_and] at this
  simp_all

theorem Tbl.getD_filter_other {α : Type} (t : Tbl α) (d : α) (p : Nat × α → Bool) {i : Nat} (hp : ∀ v, p (i, v) = true) :
    Tbl.getD (t.filter p) d i = t.getD d i := by
  unfold Tbl.getD
  induction t with
  | nil => rfl
  | cons e t ih =>
    obtain ⟨k, v⟩ := e
    by_cases hk : i = k
    · subst hk; simp [List.filter, hp, Tbl.get?]
    · simp only [List.filter]
      split
      · simpa [Tbl.get?, hk] using ih
      · simpa [Tbl.get?, hk] using ih

theorem Tbl.sorted_foldl_put {α : Type} (xs : List (Nat × α)) {t : Tbl α} (h : t.sorted = true) :
    (xs.foldl (fun (t : Tbl α) e => t.put e.1 e.2) t).sorted = true := by
  induction xs generalizing t with
  | nil => exact h
  | cons e xs ih => exact ih (Tbl.sorted_put h e.1 e.2)

/-- Registers taken from a copy. -/
theorem Keeps.regsFold {m : Nat} {s t : State} {xs : List (Nat × W64)} (h : Keeps m s t) (hm : anyReg &&& m = anyReg) :
    Keeps m s { t with regs := xs.foldl (fun (t : Tbl W64) e => t.put e.1 e.2) t.regs } :=
  ⟨h.pending, fun p hp => by cases p <;> exact h.parts _ hp,
   fun r i j hr => by rw [anyReg_bit hm r] at hr; exact absurd hr (by decide), h.free, h.floor,
   fun hs => by
     have := h.sound hs
     simp only [State.sound_iff] at this ⊢
     exact ⟨⟨Tbl.sorted_foldl_put xs this.1.1, this.1.2⟩, this.2⟩⟩

/-- Registers that a reset takes back to their reset values. -/
theorem Keeps.resetRegs {m : Nat} {s t : State} {rs : List RegName} {f : Nat → Nat → Bool} (h : Keeps m s t)
    (hm : m.testBit (Part.bit .shadowRegs) = true) (hr : rs.all (fun r => m.testBit (regBit r)) = true) :
    Keeps m s (t.resetRegs rs f) :=
  ⟨h.pending, fun p hp => by cases p <;> first | exact h.parts _ hp | exact absurd hp (by simp [hm]),
   fun q a b hq => by
     refine Eq.trans ?_ (h.regs q a b hq)
     have hn : q ∉ rs := fun e => by rw [List.all_eq_true.mp hr q e] at hq; exact absurd hq (by decide)
     refine Tbl.getD_filter_other t.regs _ _ fun v => ?_
     have hc : (rs.map RegName.ctorIdx).contains q.ctorIdx = false := by
       simp only [List.contains_eq_mem, List.mem_map, decide_eq_false_iff_not, not_exists, not_and]
       intro x hx e
       exact hn (RegName.ctorIdx_inj e ▸ hx)
     simp only [keyIn, regKey, Nat.unpair_pair, hc, Bool.false_and, Bool.not_false],
   h.free, h.floor,
   fun hs => by
     have := h.sound hs
     simp only [State.sound_iff] at this ⊢
     exact ⟨⟨Tbl.sorted_filter this.1.1 _, this.1.2⟩, this.2⟩⟩

/-- The touch of the service registers. -/
def anySvc : Nat := touchSet [] [.BD_SVC, .XT_LANE_SVC, .HG_CORE_SVC]

theorem svcReg_bit {m : Nat} (h : anySvc &&& m = anySvc) (k : Nat) : m.testBit (regBit (svcReg k)) = true := by
  refine touch_bit ?_ h
  unfold svcReg
  split <;> decide +kernel

/-- A command ends in a next state that keeps what `m` leaves out. -/
def Ends (m : Nat) (s : State) (o : Out) : Prop := ∃ t, o = .next t ∧ Keeps m s t

theorem Ends.next {m : Nat} {s t : State} (h : Keeps m s t) : Ends m s (.next t) := ⟨t, Eq.refl _, h⟩

theorem Ends.ite {m : Nat} {s : State} {a b : Out} {c : Prop} [Decidable c] (h : Ends m s a) (k : Ends m s b) :
    Ends m s (if c then a else b) := by
  split
  · exact h
  · exact k

theorem Keeps.outAfter {m : Nat} {s t : State} {o : Out} (h : Ends m s o) : Keeps m s (Out.after o t) := by
  obtain ⟨u, rfl, k⟩ := h
  exact k

theorem Ends.after {m g : Nat} {s t : State} {o : Out} (h : Keeps m s t) (k : Ends g t o) (hm : g &&& m = g) : Ends m s o := by
  obtain ⟨u, hu, hk⟩ := k
  exact ⟨u, hu, h.after hk hm⟩

end Sys2Proof.Machine
end

