-- ==== Sys2Proof/Laws/KeepOps.lean ====
section
/-! SUPPORT. What each operation of Machine/Ops.lean can change. -/

namespace Sys2Proof.Machine

set_option Elab.async false

def State.emit_touch : Nat := touchSet [.out] []

theorem State.emit_keeps (m : OutMsg) (s : State) : Keeps State.emit_touch s (State.emit m s) := by
  unfold State.emit
  refine Keeps.out ?_ (by decide +kernel)
  exact Keeps.rfl

def State.errIrq_touch : Nat := touchSet [.out, .ras] []

theorem State.errIrq_keeps (cls : ℕ) (s : State) : Keeps State.errIrq_touch s (State.errIrq cls s) := by
  unfold State.errIrq
  refine Keeps.ite ?_ ?_
  · refine Keeps.ite ?_ ?_
    · extract_lets x1 x2
      refine Keeps.ras ?_ (by decide +kernel) (Or.inl rfl)
      refine Keeps.after ?_ (State.emit_keeps ..) (by decide +kernel)
      exact Keeps.rfl
    · refine Keeps.ras ?_ (by decide +kernel) (Or.inl rfl)
      exact Keeps.rfl
  · exact Keeps.rfl

def State.writeErr_touch : Nat := touchSet [] [.EL_OVERWRITTEN, .EL_RECORDS, .EL_SEQ] ||| State.errIrq_touch

theorem State.writeErr_keeps (e : ErrRec) (s : State) : Keeps State.writeErr_touch s (State.writeErr e s) := by
  unfold State.writeErr
  extract_lets x1 x2 x3 x4 x5 x6
  refine Keeps.after ?_ (State.errIrq_keeps ..) (by decide +kernel)
  refine Keeps.ite ?_ ?_
  · refine Keeps.bump ?_ (by decide +kernel)
    refine Keeps.setFld ?_ (by decide +kernel)
    refine Keeps.bump ?_ (by decide +kernel)
    refine Keeps.setFld ?_ (by decide +kernel)
    refine Keeps.ras ?_ (by decide +kernel) (Or.inr (List.length_take_le ..))
    exact Keeps.rfl
  · refine Keeps.bump ?_ (by decide +kernel)
    refine Keeps.setFld ?_ (by decide +kernel)
    refine Keeps.ras ?_ (by decide +kernel) (Or.inr (List.length_take_le ..))
    exact Keeps.rfl

def State.closeErrWin_touch : Nat := State.writeErr_touch

theorem State.closeErrWin_keeps (kind : ℕ) (num : ℕ) (code : ℕ) (s : State) : Keeps State.closeErrWin_touch s
    (State.closeErrWin kind num code s) := by
  unfold State.closeErrWin
  split
  · exact Keeps.rfl
  · extract_lets x1 x2
    split
    · refine Keeps.ras ?_ (by decide +kernel) (Or.inl rfl)
      exact Keeps.rfl
    · refine Keeps.after ?_ (State.writeErr_keeps ..) (by decide +kernel)
      refine Keeps.ras ?_ (by decide +kernel) (Or.inl rfl)
      exact Keeps.rfl

def State.delQuery_touch : Nat := touchSet [.qry] []

theorem State.delQuery_keeps (q : ℕ) (s : State) : Keeps State.delQuery_touch s (State.delQuery q s) := by
  unfold State.delQuery
  refine Keeps.qry ?_ (by decide +kernel)
  exact Keeps.rfl

def State.logSeq_touch : Nat := touchSet [] [.EL_COALESCED] ||| State.closeErrWin_touch

theorem State.logSeq_keeps (e : ErrRec) (s : State) : Keeps1 State.logSeq_touch s (State.logSeq e s) := by
  unfold State.logSeq
  extract_lets x1 x2 x3 x4 x5 x6
  refine Keeps1.ite ?_ ?_
  · refine Keeps1.of ?_
    refine Keeps.after ?_ (State.writeErr_keeps ..) (by decide +kernel)
    exact Keeps.rfl
  · split
    · refine Keeps1.of ?_
      refine Keeps.bump ?_ (by decide +kernel)
      refine Keeps.ras ?_ (by decide +kernel) (Or.inl rfl)
      subst x2
      split
      · refine Keeps.ite ?_ ?_
        · refine Keeps.after ?_ (State.closeErrWin_keeps ..) (by decide +kernel)
          exact Keeps.rfl
        · exact Keeps.rfl
      · exact Keeps.rfl
    · refine Keeps1.of ?_
      refine Keeps.after ?_ (State.writeErr_keeps ..) (by decide +kernel)
      refine Keeps.ras ?_ (by decide +kernel) (Or.inl rfl)
      subst x2
      split
      · refine Keeps.ite ?_ ?_
        · refine Keeps.after ?_ (State.closeErrWin_keeps ..) (by decide +kernel)
          exact Keeps.rfl
        · exact Keeps.rfl
      · exact Keeps.rfl

def State.log_touch : Nat := State.logSeq_touch

theorem State.log_keeps (e : ErrRec) (s : State) : Keeps State.log_touch s (State.log e s) := by
  unfold State.log
  refine Keeps.after ?_ (State.logSeq_keeps ..) (by decide +kernel)
  exact Keeps.rfl

def State.discard_touch : Nat := State.log_touch

theorem State.discard_keeps (loc : W64) (value : W64) (s : State) : Keeps State.discard_touch s (State.discard loc value
    s) := by
  unfold State.discard
  refine Keeps.after ?_ (State.log_keeps ..) (by decide +kernel)
  refine Keeps.ras ?_ (by decide +kernel) (Or.inl rfl)
  exact Keeps.rfl

def State.discardCmd_touch : Nat := State.log_touch

theorem State.discardCmd_keeps (c : ℕ) (opcode : ℕ) (commandId : ℕ) (s : State) : Keeps State.discardCmd_touch s
    (State.discardCmd c opcode commandId s) := by
  unfold State.discardCmd
  refine Keeps.after ?_ (State.log_keeps ..) (by decide +kernel)
  exact Keeps.rfl

def State.eccUncorr_touch : Nat := touchSet [.ras] [.EL_ECC_PPR_PENDING, .EL_ECC_UNCORR]

theorem State.eccUncorr_keeps (stack : ℕ) (addr : ℕ) (s : State) : Keeps State.eccUncorr_touch s (State.eccUncorr stack
    addr s) := by
  unfold State.eccUncorr
  extract_lets x1 x2 x3 x4
  refine Keeps.ite ?_ ?_
  · refine Keeps.bump ?_ (by decide +kernel)
    exact Keeps.rfl
  · refine Keeps.ite ?_ ?_
    · refine Keeps.setReg ?_ (by decide +kernel)
      refine Keeps.ras ?_ (by decide +kernel) (Or.inl rfl)
      refine Keeps.bump ?_ (by decide +kernel)
      exact Keeps.rfl
    · refine Keeps.ras ?_ (by decide +kernel) (Or.inl rfl)
      refine Keeps.bump ?_ (by decide +kernel)
      exact Keeps.rfl

def State.dramUncorrAt_touch : Nat := State.log_touch ||| State.eccUncorr_touch

theorem State.dramUncorrAt_keeps (kind : ℕ) (num : ℕ) (stack : ℕ) (addr : ℕ) (consumer : ℕ) (f : ErrRec → ErrRec) (s :
    State) : Keeps State.dramUncorrAt_touch s (State.dramUncorrAt kind num stack addr consumer f s) := by
  unfold State.dramUncorrAt
  refine Keeps.after ?_ (State.log_keeps ..) (by decide +kernel)
  refine Keeps.after ?_ (State.eccUncorr_keeps ..) (by decide +kernel)
  exact Keeps.rfl

def State.draw_touch : Nat := touchSet [.freeCount] []

theorem State.draw_keeps (s : State) : Keeps State.draw_touch s (State.draw s) := by
  unfold State.draw
  refine Keeps.freeCount ?_ (by decide +kernel) (Nat.le_add_right ..)
  exact Keeps.rfl

def State.dramUncorrFree_touch : Nat := touchSet [.freeCount] [] ||| State.dramUncorrAt_touch

theorem State.dramUncorrFree_keeps (kind : ℕ) (num : ℕ) (consumer : ℕ) (f : ErrRec → ErrRec) (s : State) : Keeps
    State.dramUncorrFree_touch s (State.dramUncorrFree kind num consumer f s) := by
  unfold State.dramUncorrFree
  extract_lets x1
  refine Keeps.after ?_ (State.dramUncorrAt_keeps ..) (by decide +kernel)
  refine Keeps.after ?_ (State.draw_keeps ..) (by decide +kernel)
  exact Keeps.rfl

def State.progressed_touch : Nat := touchSet [.ras] []

theorem State.progressed_keeps (e : ℕ) (i : ℕ) (n : ℕ) (s : State) : Keeps State.progressed_touch s (State.progressed e
    i n s) := by
  unfold State.progressed
  refine Keeps.ras ?_ (by decide +kernel) (Or.inl rfl)
  exact Keeps.rfl

def State.reach_touch : Nat := touchSet [.now] []

theorem State.reach_keeps (t : ℕ) (s : State) : Keeps State.reach_touch s (State.reach t s) := by
  unfold State.reach
  refine Keeps.now ?_ (by decide +kernel) (Nat.le_max_left ..)
  exact Keeps.rfl

def State.setChan_touch : Nat := touchSet [.fl] []

theorem State.setChan_keeps (n : ℕ) (c : Chan) (s : State) : Keeps State.setChan_touch s (State.setChan n c s) := by
  unfold State.setChan
  refine Keeps.fl ?_ (by decide +kernel)
  exact Keeps.rfl

def State.setConn_touch : Nat := touchSet [.net] []

theorem State.setConn_keeps (c : ℕ) (x : Conn) (s : State) : Keeps State.setConn_touch s (State.setConn c x s) := by
  unfold State.setConn
  refine Keeps.net ?_ (by decide +kernel)
  exact Keeps.rfl

def State.setCtx_touch : Nat := touchSet [.hq] [.HQ_CTX_STATUS]

theorem State.setCtx_keeps (c : ℕ) (x : Ctx) (s : State) : Keeps State.setCtx_touch s (State.setCtx c x s) := by
  unfold State.setCtx
  refine Keeps.setFld ?_ (by decide +kernel)
  refine Keeps.hq ?_ (by decide +kernel)
  exact Keeps.rfl

def State.setQuery_touch : Nat := touchSet [.qry] []

theorem State.setQuery_keeps (q : ℕ) (x : Query) (s : State) : Keeps State.setQuery_touch s (State.setQuery q x s) := by
  unfold State.setQuery
  refine Keeps.qry ?_ (by decide +kernel)
  exact Keeps.rfl

def State.setVersion_touch : Nat := touchSet [.idx] []

theorem State.setVersion_keeps (k : ℕ) (x : Version) (s : State) : Keeps State.setVersion_touch s (State.setVersion k x
    s) := by
  unfold State.setVersion
  refine Keeps.idx ?_ (by decide +kernel)
  exact Keeps.rfl

def State.wrDram_touch : Nat := touchSet [.dram] []

theorem State.wrDram_keeps (die : ℕ) (a : ℕ) (bs : List Byte) (s : State) : Keeps State.wrDram_touch s (State.wrDram die
    a bs s) := by
  unfold State.wrDram
  refine Keeps.dram ?_ (by decide +kernel)
  exact Keeps.rfl

def State.wrHost_touch : Nat := touchSet [.hostMem] []

theorem State.wrHost_keeps (port : ℕ) (a : ℕ) (bs : List Byte) (s : State) : Keeps State.wrHost_touch s (State.wrHost
    port a bs s) := by
  unfold State.wrHost
  refine Keeps.hostMem ?_ (by decide +kernel)
  exact Keeps.rfl

end Sys2Proof.Machine
end

