-- ==== Sys2Proof/Laws/KeepNet.lean ====
section
/-! SUPPORT. What each operation of Machine/Net.lean can change. -/

namespace Sys2Proof.Machine

set_option Elab.async false

def State.setWR_touch : Nat := touchSet [.net] []

theorem State.setWR_keeps (w : WR) (s : State) : Keeps State.setWR_touch s (State.setWR w s) := by
  unfold State.setWR
  refine Keeps.net ?_ (by decide +kernel)
  exact Keeps.rfl

def State.queueMsg_touch : Nat := touchSet [.net] []

theorem State.queueMsg_keeps (c : ℕ) (op : ℕ) (m : ℕ) (mp : Bool) (h : Pkt → Pkt) (data : List Byte) (wr : Option ℕ) (s
    : State) : Keeps State.queueMsg_touch s (State.queueMsg c op m mp h data wr s) := by
  unfold State.queueMsg
  extract_lets x1 x2 x3
  refine Keeps.after ?_ (State.setConn_keeps ..) (by decide +kernel)
  exact Keeps.rfl

def State.takeMsn_touch : Nat := touchSet [.net] []

theorem State.takeMsn_keeps (c : ℕ) (s : State) : Keeps State.takeMsn_touch s (State.takeMsn c s) := by
  unfold State.takeMsn
  refine Keeps.after ?_ (State.setConn_keeps ..) (by decide +kernel)
  exact Keeps.rfl

def State.sendPath0_touch : Nat := touchSet [.net] []

theorem State.sendPath0_keeps (c : ℕ) (op : ℕ) (h : Pkt → Pkt) (data : List Byte) (wr : Option ℕ) (s : State) : Keeps
    State.sendPath0_touch s (State.sendPath0 c op h data wr s) := by
  unfold State.sendPath0
  refine Keeps.after ?_ (State.takeMsn_keeps ..) (by decide +kernel)
  refine Keeps.after ?_ (State.queueMsg_keeps ..) (by decide +kernel)
  exact Keeps.rfl

def State.transmit_touch : Nat := touchSet [.net] []

theorem State.transmit_keeps (w : WR) (s : State) : Keeps State.transmit_touch s (State.transmit w s) := by
  unfold State.transmit
  extract_lets x1 x2 x3 x4 x5 x6 x7
  split
  · refine Keeps.forEach _ _ (fun a1 t1 => ?_) ?_
    · extract_lets x8 x9 x10
      refine Keeps.after ?_ (State.takeMsn_keeps ..) (by decide +kernel)
      refine Keeps.after ?_ (State.queueMsg_keeps ..) (by decide +kernel)
      subst x10
      subst x5
      beta_reduce
      split
      · refine Keeps.after ?_ (State.setWR_keeps ..) (by decide +kernel)
        exact Keeps.rfl
      · exact Keeps.rfl
    · exact Keeps.rfl
  · refine Keeps.forEach _ _ (fun a1 t1 => ?_) ?_
    · extract_lets x8 x9 x10
      refine Keeps.after ?_ (State.takeMsn_keeps ..) (by decide +kernel)
      refine Keeps.after ?_ (State.queueMsg_keeps ..) (by decide +kernel)
      subst x10
      subst x5
      beta_reduce
      split
      · refine Keeps.after ?_ (State.setWR_keeps ..) (by decide +kernel)
        exact Keeps.rfl
      · exact Keeps.rfl
    · exact Keeps.rfl
  · refine Keeps.forEach _ _ (fun a1 t1 => ?_) ?_
    · extract_lets x8
      refine Keeps.after ?_ (State.sendPath0_keeps ..) (by decide +kernel)
      subst x5
      beta_reduce
      split
      · refine Keeps.after ?_ (State.setWR_keeps ..) (by decide +kernel)
        exact Keeps.rfl
      · exact Keeps.rfl
    · exact Keeps.rfl
  · refine Keeps.after ?_ (State.sendPath0_keeps ..) (by decide +kernel)
    subst x5
    beta_reduce
    split
    · refine Keeps.after ?_ (State.setWR_keeps ..) (by decide +kernel)
      exact Keeps.rfl
    · exact Keeps.rfl
  · refine Keeps.after ?_ (State.sendPath0_keeps ..) (by decide +kernel)
    subst x5
    beta_reduce
    split
    · refine Keeps.after ?_ (State.setWR_keeps ..) (by decide +kernel)
      exact Keeps.rfl
    · exact Keeps.rfl

def State.takeOp_touch : Nat := touchSet [.net] []

theorem State.takeOp_keeps (id : ℕ) (s : State) : Keeps State.takeOp_touch s (State.takeOp id s) := by
  unfold State.takeOp
  split
  · exact Keeps.rfl
  · refine Keeps.ite ?_ ?_
    · extract_lets x1
      refine Keeps.after ?_ (State.transmit_keeps ..) (by decide +kernel)
      refine Keeps.after ?_ (State.setWR_keeps ..) (by decide +kernel)
      exact Keeps.rfl
    · refine Keeps.after ?_ (State.setWR_keeps ..) (by decide +kernel)
      exact Keeps.rfl

def State.issue_touch : Nat := touchSet [.net] [.XT_CONN_STATUS, .XT_TWR_CTL, .XT_TWR_ISSUED]

theorem State.issue_keeps (id : ℕ) (s : State) : Keeps State.issue_touch s (State.issue id s) := by
  unfold State.issue
  split
  · exact Keeps.rfl
  · extract_lets x1 x2 x3 x4
    refine Keeps.ite ?_ ?_
    · refine Keeps.after ?_ (State.setWR_keeps ..) (by decide +kernel)
      refine Keeps.ite ?_ ?_
      · refine Keeps.setFld ?_ (by decide +kernel)
        refine Keeps.bump ?_ (by decide +kernel)
        refine Keeps.after ?_ (State.setWR_keeps ..) (by decide +kernel)
        exact Keeps.rfl
      · refine Keeps.setFld ?_ (by decide +kernel)
        refine Keeps.setFld ?_ (by decide +kernel)
        refine Keeps.bump ?_ (by decide +kernel)
        refine Keeps.after ?_ (State.setWR_keeps ..) (by decide +kernel)
        exact Keeps.rfl
    · refine Keeps.after ?_ (State.takeOp_keeps ..) (by decide +kernel)
      refine Keeps.ite ?_ ?_
      · refine Keeps.setFld ?_ (by decide +kernel)
        refine Keeps.bump ?_ (by decide +kernel)
        refine Keeps.after ?_ (State.setWR_keeps ..) (by decide +kernel)
        exact Keeps.rfl
      · refine Keeps.setFld ?_ (by decide +kernel)
        refine Keeps.setFld ?_ (by decide +kernel)
        refine Keeps.bump ?_ (by decide +kernel)
        refine Keeps.after ?_ (State.setWR_keeps ..) (by decide +kernel)
        exact Keeps.rfl

def State.armWR_touch : Nat := State.issue_touch

theorem State.armWR_keeps (w : WR) (s : State) : Keeps State.armWR_touch s (State.armWR w s) := by
  unfold State.armWR
  extract_lets x1 x2 x3 x4 x5
  refine Keeps.ite ?_ ?_
  · refine Keeps.after ?_ (State.issue_keeps ..) (by decide +kernel)
    refine Keeps.setFld ?_ (by decide +kernel)
    refine Keeps.net ?_ (by decide +kernel)
    exact Keeps.rfl
  · refine Keeps.setFld ?_ (by decide +kernel)
    refine Keeps.net ?_ (by decide +kernel)
    exact Keeps.rfl

def State.rttSample_touch : Nat := touchSet [.net] [.XT_CONN_CC]

theorem State.rttSample_keeps (c : ℕ) (echoTs : ℕ) (s : State) : Keeps State.rttSample_touch s (State.rttSample c echoTs
    s) := by
  unfold State.rttSample
  extract_lets x1 x2 x3 x4 x5 x6 x7 x8 x9 x10 x11 x12
  refine Keeps.setFld ?_ (by decide +kernel)
  refine Keeps.setFld ?_ (by decide +kernel)
  refine Keeps.setFld ?_ (by decide +kernel)
  refine Keeps.after ?_ (State.setConn_keeps ..) (by decide +kernel)
  exact Keeps.rfl

def State.ccAck_touch : Nat := State.rttSample_touch

theorem State.ccAck_keeps (c : ℕ) (echoTs : ℕ) (s : State) : Keeps State.ccAck_touch s (State.ccAck c echoTs s) := by
  unfold State.ccAck
  refine Keeps.ite ?_ ?_
  · refine Keeps.after ?_ (State.rttSample_keeps ..) (by decide +kernel)
    exact Keeps.rfl
  · exact Keeps.rfl

def State.ccLoss_touch : Nat := touchSet [.net] [.XT_CONN_CC]

theorem State.ccLoss_keeps (c : ℕ) (s : State) : Keeps State.ccLoss_touch s (State.ccLoss c s) := by
  unfold State.ccLoss
  extract_lets x1 x2
  refine Keeps.ite ?_ ?_
  · refine Keeps.setFld ?_ (by decide +kernel)
    refine Keeps.after ?_ (State.setConn_keeps ..) (by decide +kernel)
    exact Keeps.rfl
  · exact Keeps.rfl

def State.dropWR_touch : Nat := touchSet [.net] []

theorem State.dropWR_keeps (id : ℕ) (s : State) : Keeps State.dropWR_touch s (State.dropWR id s) := by
  unfold State.dropWR
  refine Keeps.net ?_ (by decide +kernel)
  exact Keeps.rfl

def State.retireWR_touch : Nat := touchSet [.net] [.XT_CONN_STATUS, .XT_TWR_CTL]

theorem State.retireWR_keeps (w : WR) (s : State) : Keeps State.retireWR_touch s (State.retireWR w s) := by
  unfold State.retireWR
  extract_lets x1 x2
  refine Keeps.ite ?_ ?_
  · refine Keeps.after ?_ (State.dropWR_keeps ..) (by decide +kernel)
    refine Keeps.setFld ?_ (by decide +kernel)
    exact Keeps.rfl
  · refine Keeps.setFld ?_ (by decide +kernel)
    refine Keeps.after ?_ (State.dropWR_keeps ..) (by decide +kernel)
    refine Keeps.setFld ?_ (by decide +kernel)
    exact Keeps.rfl

def State.releaseTriggers_touch : Nat := State.issue_touch

theorem State.releaseTriggers_keeps (i : ℕ) (s : State) : Keeps State.releaseTriggers_touch s (State.releaseTriggers i
    s) := by
  unfold State.releaseTriggers
  refine Keeps.forEach _ _ (fun a1 t1 => ?_) ?_
  · refine Keeps.after ?_ (State.issue_keeps ..) (by decide +kernel)
    exact Keeps.rfl
  · exact Keeps.rfl

def State.signal_touch : Nat := touchSet [] [.SY_VAL] ||| State.releaseTriggers_touch

theorem State.signal_keeps (i : ℕ) (v : W64) (s : State) : Keeps State.signal_touch s (State.signal i v s) := by
  unfold State.signal
  refine Keeps.after ?_ (State.releaseTriggers_keeps ..) (by decide +kernel)
  refine Keeps.setReg ?_ (by decide +kernel)
  exact Keeps.rfl

def State.completeWR_touch : Nat := State.signal_touch

theorem State.completeWR_keeps (id : ℕ) (s : State) : Keeps State.completeWR_touch s (State.completeWR id s) := by
  unfold State.completeWR
  split
  · exact Keeps.rfl
  · extract_lets x1 x2
    refine Keeps.ite ?_ ?_
    · refine Keeps.ite ?_ ?_
      · refine Keeps.after ?_ (State.signal_keeps ..) (by decide +kernel)
        refine Keeps.after ?_ (State.retireWR_keeps ..) (by decide +kernel)
        exact Keeps.rfl
      · refine Keeps.after ?_ (State.retireWR_keeps ..) (by decide +kernel)
        exact Keeps.rfl
    · refine Keeps.after ?_ (State.armWR_keeps ..) (by decide +kernel)
      refine Keeps.ite ?_ ?_
      · refine Keeps.after ?_ (State.signal_keeps ..) (by decide +kernel)
        refine Keeps.after ?_ (State.retireWR_keeps ..) (by decide +kernel)
        exact Keeps.rfl
      · refine Keeps.after ?_ (State.retireWR_keeps ..) (by decide +kernel)
        exact Keeps.rfl

def State.dropPartial_touch : Nat := touchSet [.net] []

theorem State.dropPartial_keeps (c : ℕ) (s : State) : Keeps State.dropPartial_touch s (State.dropPartial c s) := by
  unfold State.dropPartial
  extract_lets x1 x2 x3 x4
  refine Keeps.after ?_ (State.setConn_keeps ..) (by decide +kernel)
  refine Keeps.net ?_ (by decide +kernel)
  exact Keeps.rfl

def State.failWR_touch : Nat := touchSet [] [.XT_TWR_FAILED] ||| State.log_touch ||| State.retireWR_touch

theorem State.failWR_keeps (id : ℕ) (status : ℕ) (s : State) : Keeps State.failWR_touch s (State.failWR id status s) :=
    by
  unfold State.failWR
  split
  · exact Keeps.rfl
  · extract_lets x1 x2 x3 x4
    refine Keeps.bump ?_ (by decide +kernel)
    refine Keeps.after ?_ (State.log_keeps ..) (by decide +kernel)
    refine Keeps.ite ?_ ?_
    · refine Keeps.net ?_ (by decide +kernel)
      refine Keeps.setFld ?_ (by decide +kernel)
      refine Keeps.after ?_ (State.retireWR_keeps ..) (by decide +kernel)
      exact Keeps.rfl
    · refine Keeps.setFld ?_ (by decide +kernel)
      refine Keeps.after ?_ (State.retireWR_keeps ..) (by decide +kernel)
      exact Keeps.rfl

def State.failConnWRs_touch : Nat := touchSet [.freeCount] [] ||| State.failWR_touch

theorem State.failConnWRs_keeps (c : ℕ) (s : State) : Keeps State.failConnWRs_touch s (State.failConnWRs c s) := by
  unfold State.failConnWRs
  refine Keeps.forEach _ _ (fun a1 t1 => ?_) ?_
  · refine Keeps.after ?_ (State.failWR_keeps ..) (by decide +kernel)
    refine Keeps.after ?_ (State.draw_keeps ..) (by decide +kernel)
    exact Keeps.rfl
  · exact Keeps.rfl

def State.tearAdmitted_touch : Nat := touchSet [] [.XT_RGN_DRAIN_TORN] ||| State.log_touch

theorem State.tearAdmitted_keeps (c : ℕ) (s : State) : Keeps State.tearAdmitted_touch s (State.tearAdmitted c s) := by
  unfold State.tearAdmitted
  refine Keeps.forEach _ _ (fun a1 t1 => ?_) ?_
  · refine Keeps.ite ?_ ?_
    · refine Keeps.bump ?_ (by decide +kernel)
      refine Keeps.after ?_ (State.log_keeps ..) (by decide +kernel)
      exact Keeps.rfl
    · exact Keeps.rfl
  · exact Keeps.rfl

def State.connError_touch : Nat := touchSet [] [.XT_CONN_CFG, .XT_CONN_ERRORS, .XT_RGN_DRAIN_TORN] |||
  State.failConnWRs_touch

theorem State.connError_keeps (c : ℕ) (cause : ℕ) (s : State) : Keeps State.connError_touch s (State.connError c cause
    s) := by
  unfold State.connError
  refine Keeps.ite ?_ ?_
  · extract_lets x1 x2
    refine Keeps.after ?_ (State.dropPartial_keeps ..) (by decide +kernel)
    refine Keeps.after ?_ (State.failConnWRs_keeps ..) (by decide +kernel)
    refine Keeps.after ?_ (State.tearAdmitted_keeps ..) (by decide +kernel)
    refine Keeps.bump ?_ (by decide +kernel)
    refine Keeps.setFld ?_ (by decide +kernel)
    refine Keeps.setFld ?_ (by decide +kernel)
    exact Keeps.rfl
  · exact Keeps.rfl

def State.post_touch : Nat := State.issue_touch

theorem State.post_keeps (w : WR) (s : State) : Keeps State.post_touch s (State.post w s) := by
  unfold State.post
  extract_lets x1 x2 x3
  refine Keeps.after ?_ (State.issue_keeps ..) (by decide +kernel)
  refine Keeps.net ?_ (by decide +kernel)
  exact Keeps.rfl

def State.postSend_touch : Nat := State.post_touch

theorem State.postSend_keeps (c : ℕ) (ty : ℕ) (yellow : Bool) (data : List Byte) (s : State) (job : Option ℕ) : Keeps
    State.postSend_touch s (State.postSend c ty yellow data s job) := by
  unfold State.postSend
  refine Keeps.after ?_ (State.post_keeps ..) (by decide +kernel)
  exact Keeps.rfl

def State.sendOut_touch : Nat := touchSet [.net, .out] [.XT_TX_PKTS]

theorem State.sendOut_keeps (c : ℕ) (p : Pkt) (s : State) : Keeps State.sendOut_touch s (State.sendOut c p s) := by
  unfold State.sendOut
  refine Keeps.ite ?_ ?_
  · exact Keeps.rfl
  · extract_lets x1 x2 x3
    refine Keeps.after ?_ (State.setConn_keeps ..) (by decide +kernel)
    refine Keeps.after ?_ (State.emit_keeps ..) (by decide +kernel)
    refine Keeps.bump ?_ (by decide +kernel)
    exact Keeps.rfl

def State.sendCtl_touch : Nat := State.sendOut_touch

theorem State.sendCtl_keeps (c : ℕ) (kind : ℕ) (ackMsn : ℕ) (nakOff : ℕ) (status : ℕ) (s : State) : Keeps
    State.sendCtl_touch s (State.sendCtl c kind ackMsn nakOff status s) := by
  unfold State.sendCtl
  extract_lets x1 x2
  refine Keeps.after ?_ (State.sendOut_keeps ..) (by decide +kernel)
  exact Keeps.rfl

def State.sendAck_touch : Nat := State.sendCtl_touch

theorem State.sendAck_keeps (c : ℕ) (s : State) : Keeps State.sendAck_touch s (State.sendAck c s) := by
  unfold State.sendAck
  extract_lets x1 x2
  refine Keeps.after ?_ (State.setConn_keeps ..) (by decide +kernel)
  refine Keeps.after ?_ (State.sendCtl_keeps ..) (by decide +kernel)
  exact Keeps.rfl

def State.settleWRs_touch : Nat := State.completeWR_touch

theorem State.settleWRs_keeps (c : ℕ) (s : State) : Keeps State.settleWRs_touch s (State.settleWRs c s) := by
  unfold State.settleWRs
  extract_lets x1 x2 x3
  refine Keeps.forEach _ _ (fun a1 t1 => ?_) ?_
  · refine Keeps.after ?_ (State.completeWR_keeps ..) (by decide +kernel)
    exact Keeps.rfl
  · exact Keeps.rfl

end Sys2Proof.Machine
end

