-- ==== Sys2Proof/Laws/KeepIndex.lean ====
section
/-! SUPPORT. What each operation of Machine/Index.lean can change. -/

namespace Sys2Proof.Machine

set_option Elab.async false

def State.addCharge_touch : Nat := touchSet [] [.TN_QUOTA_USED]

theorem State.addCharge_keeps (t : ℕ) (tier : ℕ) (n : ℕ) (s : State) : Keeps State.addCharge_touch s (State.addCharge t
    tier n s) := by
  unfold State.addCharge
  refine Keeps.setFld ?_ (by decide +kernel)
  exact Keeps.rfl

def State.charge_touch : Nat := touchSet [] [.TN_QUOTA_REFUSED, .TN_QUOTA_USED]

theorem State.charge_keeps (t : ℕ) (tier : ℕ) (n : ℕ) (s : State) : Keeps2 State.charge_touch s (State.charge t tier n
    s) := by
  unfold State.charge
  refine Keeps2.ite ?_ ?_
  · refine Keeps2.of ?_
    refine Keeps.after ?_ (State.addCharge_keeps ..) (by decide +kernel)
    exact Keeps.rfl
  · refine Keeps2.of ?_
    refine Keeps.bump ?_ (by decide +kernel)
    exact Keeps.rfl

def State.modVersion_touch : Nat := touchSet [.idx] []

theorem State.modVersion_keeps (k : ℕ) (f : Version → Version) (s : State) : Keeps State.modVersion_touch s
    (State.modVersion k f s) := by
  unfold State.modVersion
  refine Keeps.after ?_ (State.setVersion_keeps ..) (by decide +kernel)
  exact Keeps.rfl

def State.clearStd_touch : Nat := touchSet [.idx] []

theorem State.clearStd_keeps (j : ℕ) (k : ℕ) (ref : ℕ) (s : State) : Keeps State.clearStd_touch s (State.clearStd j k
    ref s) := by
  unfold State.clearStd
  refine Keeps.after ?_ (State.modVersion_keeps ..) (by decide +kernel)
  exact Keeps.rfl

def State.draws_touch : Nat := touchSet [.freeCount] []

theorem State.draws_keeps (n : ℕ) (s : State) : Keeps State.draws_touch s (State.draws n s) := by
  unfold State.draws
  refine Keeps.freeCount ?_ (by decide +kernel) (Nat.le_add_right ..)
  exact Keeps.rfl

def State.dropCharge_touch : Nat := touchSet [] [.TN_QUOTA_USED]

theorem State.dropCharge_keeps (t : ℕ) (tier : ℕ) (n : ℕ) (s : State) : Keeps State.dropCharge_touch s (State.dropCharge
    t tier n s) := by
  unfold State.dropCharge
  refine Keeps.setFld ?_ (by decide +kernel)
  exact Keeps.rfl

def State.freshAddr_touch : Nat := touchSet [.freeCount] []

theorem State.freshAddr_keeps (len : ℕ) (al : ℕ) (s : State) : Keeps2 State.freshAddr_touch s (State.freshAddr len al s)
    := by
  unfold State.freshAddr
  refine Keeps2.of ?_
  refine Keeps.after ?_ (State.draw_keeps ..) (by decide +kernel)
  exact Keeps.rfl

def State.holdRef_touch : Nat := State.signal_touch

theorem State.holdRef_keeps (k : ℕ) (s : State) : Keeps State.holdRef_touch s (State.holdRef k s) := by
  unfold State.holdRef
  refine Keeps.after ?_ (State.signal_keeps ..) (by decide +kernel)
  exact Keeps.rfl

def State.modList_touch : Nat := touchSet [.idx] []

theorem State.modList_keeps (k : ℕ) (cl : ℕ) (f : IList → IList) (s : State) : Keeps State.modList_touch s
    (State.modList k cl f s) := by
  unfold State.modList
  refine Keeps.after ?_ (State.modVersion_keeps ..) (by decide +kernel)
  exact Keeps.rfl

def State.modBlock_touch : Nat := touchSet [.idx] []

theorem State.modBlock_keeps (k : ℕ) (cl : ℕ) (seq : ℕ) (f : Block → Block) (s : State) : Keeps State.modBlock_touch s
    (State.modBlock k cl seq f s) := by
  unfold State.modBlock
  refine Keeps.after ?_ (State.modList_keeps ..) (by decide +kernel)
  exact Keeps.rfl

def State.newBlock_touch : Nat := touchSet [.freeCount, .idx] [.TN_QUOTA_USED]

theorem State.newBlock_keeps (k : ℕ) (cl : ℕ) (s : State) : KeepsO State.newBlock_touch s (State.newBlock k cl s) := by
  unfold State.newBlock
  extract_lets x1 x2 x3 x4 x5 x6 x7 x8 x9 x10 x11 x12 x13 x14 x15
  refine KeepsO.ite ?_ ?_
  · refine KeepsO.some ?_
    refine Keeps.after ?_ (State.addCharge_keeps ..) (by decide +kernel)
    refine Keeps.after ?_ (State.addCharge_keeps ..) (by decide +kernel)
    refine Keeps.after ?_ (State.setVersion_keeps ..) (by decide +kernel)
    refine Keeps.after ?_ (State.draw_keeps ..) (by decide +kernel)
    refine Keeps.after ?_ (State.freshAddr_keeps ..) (by decide +kernel)
    refine Keeps.after ?_ (State.freshAddr_keeps ..) (by decide +kernel)
    exact Keeps.rfl
  · exact KeepsO.none

def State.noteRefused_touch : Nat := touchSet [] [.TN_QUOTA_REFUSED]

theorem State.noteRefused_keeps (s : State) (after : State) : Keeps State.noteRefused_touch s (State.noteRefused s
    after) := by
  unfold State.noteRefused
  refine Keeps.forEach _ _ (fun a1 t1 => ?_) ?_
  · split
    · refine Keeps.bump ?_ (by decide +kernel)
      exact Keeps.rfl
    · exact Keeps.rfl
  · exact Keeps.rfl

def State.releaseRef_touch : Nat := touchSet [.idx] [.TN_QUOTA_USED] ||| State.signal_touch

theorem State.releaseRef_keeps (k : ℕ) (s : State) : Keeps State.releaseRef_touch s (State.releaseRef k s) := by
  unfold State.releaseRef
  extract_lets x1 x2 x3 x4
  refine Keeps.ite ?_ ?_
  · refine Keeps.after ?_ (State.dropCharge_keeps ..) (by decide +kernel)
    refine Keeps.after ?_ (State.setVersion_keeps ..) (by decide +kernel)
    refine Keeps.after ?_ (State.signal_keeps ..) (by decide +kernel)
    exact Keeps.rfl
  · refine Keeps.after ?_ (State.signal_keeps ..) (by decide +kernel)
    exact Keeps.rfl

def State.setStd_touch : Nat := touchSet [.idx] []

theorem State.setStd_keeps (j : ℕ) (k : ℕ) (ref : ℕ) (s : State) : Keeps State.setStd_touch s (State.setStd j k ref s)
    := by
  unfold State.setStd
  extract_lets x1
  split
  · refine Keeps.after ?_ (State.modVersion_keeps ..) (by decide +kernel)
    refine Keeps.after ?_ (State.modBlock_keeps ..) (by decide +kernel)
    exact Keeps.rfl
  · exact Keeps.rfl

def State.takeSlot_touch : Nat := State.newBlock_touch

theorem State.takeSlot_keeps (k : ℕ) (cl : ℕ) (s : State) : KeepsP State.takeSlot_touch s (State.takeSlot k cl s) := by
  unfold State.takeSlot
  extract_lets x1 x2 x3
  refine KeepsP.ite ?_ ?_
  · exact KeepsP.none
  · split
    · exact KeepsP.none
    · split
      · exact KeepsP.none
      · extract_lets x4
        refine KeepsP.some ?_
        refine Keeps.after ?_ (State.modList_keeps ..) (by decide +kernel)
        refine KeepsO.get (by assumption) ?_
        refine KeepsO.ite ?_ ?_
        · refine KeepsO.after ?_ (State.newBlock_keeps _ _ _) (by decide +kernel)
          exact Keeps.rfl
        · refine KeepsO.some ?_
          exact Keeps.rfl

def State.tombstone_touch : Nat := touchSet [.idx] [.HQ_UPD_REDUNDANT, .HQ_UPD_TOMBSTONES]

theorem State.tombstone_keeps (k : ℕ) (ref : ℕ) (s : State) : Keeps State.tombstone_touch s (State.tombstone k ref s) :=
    by
  unfold State.tombstone
  extract_lets x1 x2
  refine Keeps.ite ?_ ?_
  · refine Keeps.bump ?_ (by decide +kernel)
    exact Keeps.rfl
  · split
    · refine Keeps.after ?_ (State.modBlock_keeps ..) (by decide +kernel)
      refine Keeps.bump ?_ (by decide +kernel)
      refine Keeps.after ?_ (State.setVersion_keeps ..) (by decide +kernel)
      exact Keeps.rfl
    · refine Keeps.bump ?_ (by decide +kernel)
      refine Keeps.after ?_ (State.setVersion_keeps ..) (by decide +kernel)
      exact Keeps.rfl

def State.withMirror_touch : Nat := touchSet [] [.HQ_UPD_MIRRORED]

theorem State.withMirror_keeps {w : Nat} {o : State} {f : ℕ → ℕ → State → State} {k : ℕ} {ref : ℕ} {s : State} (hw :
    State.withMirror_touch &&& w = State.withMirror_touch) (hk : ∀ a0 a1 u, Keeps w u (f a0 a1 u)) (h : Keeps w o s) :
    Keeps w o (State.withMirror f k ref s) := by
  unfold State.withMirror
  extract_lets x1 x2
  split
  · refine Keeps.bump ?_ (touch_bit (by decide +kernel) hw)
    refine Keeps.after ?_ (hk ..) (Nat.and_self _)
    refine Keeps.after ?_ (hk ..) (Nat.and_self _)
    assumption
  · refine Keeps.after ?_ (hk ..) (Nat.and_self _)
    assumption

def State.writeSlot_touch : Nat := touchSet [.idx] []

theorem State.writeSlot_keeps (k : ℕ) (cl : ℕ) (seq : ℕ) (j : ℕ) (code : Code) (idEntry : W64) (isAl : Bool) (std :
    BitVec 16) (sidecar : W64) (s : State) : Keeps State.writeSlot_touch s (State.writeSlot k cl seq j code idEntry isAl
    std sidecar s) := by
  unfold State.writeSlot
  extract_lets x1 x2
  refine Keeps.after ?_ (State.modBlock_keeps ..) (by decide +kernel)
  refine Keeps.after ?_ (State.modVersion_keeps ..) (by decide +kernel)
  exact Keeps.rfl

end Sys2Proof.Machine
end

