-- ==== Sys2Proof/Laws/KeepPolicing.lean ====
section
/-! SUPPORT. What each operation of Machine/Policing.lean can change. -/

namespace Sys2Proof.Machine

set_option Elab.async false

def State.refillDue_touch : Nat := touchSet [.pol] []

theorem State.refillDue_keeps (s : State) : Keeps State.refillDue_touch s (State.refillDue s) := by
  unfold State.refillDue
  extract_lets x1 x2
  refine Keeps.pol ?_ (by decide +kernel)
  exact Keeps.rfl

def State.setPolicer_touch : Nat := touchSet [.pol] []

theorem State.setPolicer_keeps (p : ℕ) (t : ℕ) (m : Meter) (s : State) : Keeps State.setPolicer_touch s
    (State.setPolicer p t m s) := by
  unfold State.setPolicer
  refine Keeps.pol ?_ (by decide +kernel)
  exact Keeps.rfl

def State.setStrict_touch : Nat := touchSet [.pol] []

theorem State.setStrict_keeps (j : ℕ) (p : ℕ) (m : Meter) (s : State) : Keeps State.setStrict_touch s (State.setStrict j
    p m s) := by
  unfold State.setStrict
  refine Keeps.pol ?_ (by decide +kernel)
  exact Keeps.rfl

def State.police_touch : Nat := touchSet [.pol] [.PL_GREEN, .PL_RED, .PL_RED_BYTES, .PL_STRICT_DROP, .PL_YELLOW]

theorem State.police_keeps (p : ℕ) (t : ℕ) (pre : Colour) (cost : ℕ) (s : State) : Keeps2 State.police_touch s
    (State.police p t pre cost s) := by
  unfold State.police
  extract_lets x1 x2 x3
  split
  · split
    · refine Keeps2.of ?_
      refine Keeps.after ?_ (State.setStrict_keeps ..) (by decide +kernel)
      refine Keeps.after ?_ (State.refillDue_keeps ..) (by decide +kernel)
      exact Keeps.rfl
    · refine Keeps2.of ?_
      refine Keeps.bump ?_ (by decide +kernel)
      refine Keeps.after ?_ (State.refillDue_keeps ..) (by decide +kernel)
      exact Keeps.rfl
  · refine Keeps2.ite ?_ ?_
    · split
      · refine Keeps2.of ?_
        refine Keeps.bump ?_ (by decide +kernel)
        refine Keeps.after ?_ (State.setPolicer_keeps ..) (by decide +kernel)
        refine Keeps.after ?_ (State.refillDue_keeps ..) (by decide +kernel)
        exact Keeps.rfl
      · refine Keeps2.of ?_
        refine Keeps.bump ?_ (by decide +kernel)
        refine Keeps.after ?_ (State.setPolicer_keeps ..) (by decide +kernel)
        refine Keeps.after ?_ (State.refillDue_keeps ..) (by decide +kernel)
        exact Keeps.rfl
      · refine Keeps2.of ?_
        refine Keeps.bump ?_ (by decide +kernel)
        refine Keeps.bump ?_ (by decide +kernel)
        refine Keeps.after ?_ (State.setPolicer_keeps ..) (by decide +kernel)
        refine Keeps.after ?_ (State.refillDue_keeps ..) (by decide +kernel)
        exact Keeps.rfl
    · refine Keeps2.of ?_
      refine Keeps.bump ?_ (by decide +kernel)
      refine Keeps.after ?_ (State.refillDue_keeps ..) (by decide +kernel)
      exact Keeps.rfl

def State.refuseCommit_touch : Nat := touchSet [.freeCount] [.PL_COMMIT_REFUSED] ||| State.log_touch

theorem State.refuseCommit_keeps (loc : W64) (s : State) : Keeps State.refuseCommit_touch s (State.refuseCommit loc s)
    := by
  unfold State.refuseCommit
  extract_lets x1 x2 x3 x4
  refine Keeps.bump ?_ (by decide +kernel)
  refine Keeps.after ?_ (State.log_keeps ..) (by decide +kernel)
  refine Keeps.ras ?_ (by decide +kernel) (Or.inl rfl)
  refine Keeps.after ?_ (State.draw_keeps ..) (by decide +kernel)
  exact Keeps.rfl

def State.setShaper_touch : Nat := touchSet [.pol] []

theorem State.setShaper_keeps (d : ℕ) (t : ℕ) (m : Meter) (s : State) : Keeps State.setShaper_touch s (State.setShaper d
    t m s) := by
  unfold State.setShaper
  refine Keeps.pol ?_ (by decide +kernel)
  exact Keeps.rfl

def State.shape?_touch : Nat := touchSet [.pol] [.PL_SHP_BYTES, .PL_SHP_WAIT_NS]

theorem State.shape?_keeps (s : State) (d : ℕ) (t : ℕ) (bytes : ℕ) : KeepsO State.shape?_touch s (State.shape? s d t
    bytes) := by
  unfold State.shape?
  extract_lets x1 x2 x3 x4
  refine KeepsO.ite ?_ ?_
  · split
    · refine KeepsO.some ?_
      refine Keeps.bump ?_ (by decide +kernel)
      refine Keeps.bump ?_ (by decide +kernel)
      refine Keeps.after ?_ (State.setShaper_keeps ..) (by decide +kernel)
      refine Keeps.after ?_ (State.refillDue_keeps ..) (by decide +kernel)
      exact Keeps.rfl
    · exact KeepsO.none
  · refine KeepsO.some ?_
    refine Keeps.after ?_ (State.refillDue_keeps ..) (by decide +kernel)
    exact Keeps.rfl

def State.shapeWait_touch : Nat := touchSet [.pol] []

theorem State.shapeWait_keeps (d : ℕ) (t : ℕ) (s : State) : Keeps State.shapeWait_touch s (State.shapeWait d t s) := by
  unfold State.shapeWait
  extract_lets x1
  refine Keeps.after ?_ (State.setShaper_keeps ..) (by decide +kernel)
  exact Keeps.rfl

def execBucketRefill_touch : Nat := touchSet [.now, .pol] []

theorem execBucketRefill_ends (s : State) : Ends execBucketRefill_touch s (execBucketRefill s) := by
  unfold execBucketRefill
  refine Ends.next ?_
  refine Keeps.after ?_ (State.refillDue_keeps ..) (by decide +kernel)
  refine Keeps.after ?_ (State.reach_keeps ..) (by decide +kernel)
  exact Keeps.rfl

def execPolicerCommit_touch : Nat := touchSet [.pol] [.PL_POL_CTL] ||| State.refuseCommit_touch

theorem execPolicerCommit_ends (p : ℕ) (t : ℕ) (value : W64) (loc : W64) (s : State) : Ends execPolicerCommit_touch s
    (execPolicerCommit p t value loc s) := by
  unfold execPolicerCommit
  extract_lets x1 x2 x3 x4 x5 x6 x7 x8
  refine Ends.ite ?_ ?_
  · refine Ends.next ?_
    refine Keeps.after ?_ (State.setPolicer_keeps ..) (by decide +kernel)
    refine Keeps.setFld ?_ (by decide +kernel)
    refine Keeps.setFld ?_ (by decide +kernel)
    refine Keeps.setFld ?_ (by decide +kernel)
    refine Keeps.after ?_ (State.refillDue_keeps ..) (by decide +kernel)
    exact Keeps.rfl
  · refine Ends.next ?_
    refine Keeps.after ?_ (State.refuseCommit_keeps ..) (by decide +kernel)
    exact Keeps.rfl

def execShaperCommit_touch : Nat := touchSet [.pol] [.PL_SHP_CTL] ||| State.refuseCommit_touch

theorem execShaperCommit_ends (sh : ℕ) (t : ℕ) (value : W64) (loc : W64) (s : State) : Ends execShaperCommit_touch s
    (execShaperCommit sh t value loc s) := by
  unfold execShaperCommit
  extract_lets x1 x2 x3 x4 x5
  refine Ends.ite ?_ ?_
  · refine Ends.next ?_
    refine Keeps.after ?_ (State.setShaper_keeps ..) (by decide +kernel)
    refine Keeps.setFld ?_ (by decide +kernel)
    refine Keeps.setFld ?_ (by decide +kernel)
    refine Keeps.after ?_ (State.refillDue_keeps ..) (by decide +kernel)
    exact Keeps.rfl
  · refine Ends.next ?_
    refine Keeps.after ?_ (State.refuseCommit_keeps ..) (by decide +kernel)
    exact Keeps.rfl

def execStrictCommit_touch : Nat := touchSet [.pol] [.PL_STRICT_CTL] ||| State.refuseCommit_touch

theorem execStrictCommit_ends (k : ℕ) (value : W64) (loc : W64) (s : State) : Ends execStrictCommit_touch s
    (execStrictCommit k value loc s) := by
  unfold execStrictCommit
  extract_lets x1 x2 x3 x4 x5 x6
  refine Ends.ite ?_ ?_
  · refine Ends.next ?_
    refine Keeps.after ?_ (State.discard_keeps ..) (by decide +kernel)
    exact Keeps.rfl
  · refine Ends.ite ?_ ?_
    · refine Ends.next ?_
      refine Keeps.forEach _ _ (fun a1 t1 => ?_) ?_
      · subst x6
        beta_reduce
        extract_lets x6
        refine Keeps.after ?_ (State.setStrict_keeps ..) (by decide +kernel)
        exact Keeps.rfl
      · refine Keeps.setFld ?_ (by decide +kernel)
        refine Keeps.setFld ?_ (by decide +kernel)
        refine Keeps.after ?_ (State.refillDue_keeps ..) (by decide +kernel)
        exact Keeps.rfl
    · refine Ends.next ?_
      refine Keeps.after ?_ (State.refuseCommit_keeps ..) (by decide +kernel)
      exact Keeps.rfl

end Sys2Proof.Machine
end

