-- ==== Sys2Proof/Laws/KeepCompletion.lean ====
section
/-! SUPPORT. What each operation of Machine/Completion.lean can change. -/

namespace Sys2Proof.Machine

set_option Elab.async false

def State.countSearch_touch : Nat := touchSet [] [.TN_ACC_QUERIES, .TN_ACC_WAIT_HIST, .TN_ACC_WAIT_NS]

theorem State.countSearch_keeps (c : ℕ) (m : Cmd) (r : Res) (s : State) : Keeps State.countSearch_touch s
    (State.countSearch c m r s) := by
  unfold State.countSearch
  refine Keeps.ite ?_ ?_
  · extract_lets x1 x2
    refine Keeps.bump ?_ (by decide +kernel)
    refine Keeps.bump ?_ (by decide +kernel)
    refine Keeps.bump ?_ (by decide +kernel)
    exact Keeps.rfl
  · exact Keeps.rfl

def State.modCtx_touch : Nat := State.setCtx_touch

theorem State.modCtx_keeps (c : ℕ) (f : Ctx → Ctx) (s : State) : Keeps State.modCtx_touch s (State.modCtx c f s) := by
  unfold State.modCtx
  refine Keeps.after ?_ (State.setCtx_keeps ..) (by decide +kernel)
  exact Keeps.rfl

def State.sendGauntlet_touch : Nat := touchSet [.net] [.HG_GAUNTLET_TX]

theorem State.sendGauntlet_keeps (key : W64) (kind : ℕ) (origin : ℕ) (status : ℕ) (hops : ℕ) (conn : ℕ) (s : State) :
    Keeps State.sendGauntlet_touch s (State.sendGauntlet key kind origin status hops conn s) := by
  unfold State.sendGauntlet
  refine Keeps.ite ?_ ?_
  · extract_lets x1
    refine Keeps.bump ?_ (by decide +kernel)
    refine Keeps.after ?_ (State.sendPath0_keeps ..) (by decide +kernel)
    exact Keeps.rfl
  · exact Keeps.rfl

def State.partFailed_touch : Nat := State.sendGauntlet_touch

theorem State.partFailed_keeps (m : Cmd) (status : ℕ) (s : State) : Keeps State.partFailed_touch s (State.partFailed m
    status s) := by
  unfold State.partFailed
  split
  · refine Keeps.ite ?_ ?_
    · refine Keeps.after ?_ (State.sendGauntlet_keeps ..) (by decide +kernel)
      exact Keeps.rfl
    · exact Keeps.rfl
  · exact Keeps.rfl

def State.dmaErr_touch : Nat := touchSet [] [.HQ_DMA_ERR] ||| State.logSeq_touch

theorem State.dmaErr_keeps (port : ℕ) (addr : ℕ) (kind : ℕ) (status : ℕ) (s : State) : Keeps1 State.dmaErr_touch s
    (State.dmaErr port addr kind status s) := by
  unfold State.dmaErr
  refine Keeps1.after ?_ (State.logSeq_keeps _ _) (by decide +kernel)
  refine Keeps.bump ?_ (by decide +kernel)
  refine Keeps.after ?_ (State.emit_keeps ..) (by decide +kernel)
  exact Keeps.rfl

def State.putHost_touch : Nat := touchSet [.freeCount, .hostMem] [] ||| State.dmaErr_touch

theorem State.putHost_keeps (port : ℕ) (a : ℕ) (bs : List Byte) (s : State) : Keeps State.putHost_touch s (State.putHost
    port a bs s) := by
  unfold State.putHost
  refine Keeps.ite ?_ ?_
  · refine Keeps.after ?_ (State.dmaErr_keeps ..) (by decide +kernel)
    refine Keeps.after ?_ (State.draw_keeps ..) (by decide +kernel)
    exact Keeps.rfl
  · refine Keeps.after ?_ (State.wrHost_keeps ..) (by decide +kernel)
    exact Keeps.rfl

def State.settleClosing_touch : Nat := touchSet [] [.HQ_CTX_STATUS]

theorem State.settleClosing_keeps (c : ℕ) (s : State) : Keeps State.settleClosing_touch s (State.settleClosing c s) :=
    by
  unfold State.settleClosing
  refine Keeps.ite ?_ ?_
  · refine Keeps.setFld ?_ (by decide +kernel)
    exact Keeps.rfl
  · exact Keeps.rfl

def State.sendIrq_touch : Nat := touchSet [.out] [] ||| State.modCtx_touch

theorem State.sendIrq_keeps (c : ℕ) (s : State) : Keeps State.sendIrq_touch s (State.sendIrq c s) := by
  unfold State.sendIrq
  refine Keeps.after ?_ (State.modCtx_keeps ..) (by decide +kernel)
  refine Keeps.after ?_ (State.emit_keeps ..) (by decide +kernel)
  exact Keeps.rfl

def State.noteIrq_touch : Nat := State.sendIrq_touch

theorem State.noteIrq_keeps (c : ℕ) (s : State) : Keeps State.noteIrq_touch s (State.noteIrq c s) := by
  unfold State.noteIrq
  refine Keeps.ite ?_ ?_
  · extract_lets x1 x2
    refine Keeps.ite ?_ ?_
    · refine Keeps.after ?_ (State.sendIrq_keeps ..) (by decide +kernel)
      refine Keeps.after ?_ (State.modCtx_keeps ..) (by decide +kernel)
      exact Keeps.rfl
    · refine Keeps.after ?_ (State.modCtx_keeps ..) (by decide +kernel)
      exact Keeps.rfl
  · exact Keeps.rfl

def State.writeEntry_touch : Nat := touchSet [] [.HQ_CPL_WRITTEN] ||| State.putHost_touch ||| State.noteIrq_touch

theorem State.writeEntry_keeps (c : ℕ) (d : DoneCmd) (s : State) : Keeps State.writeEntry_touch s (State.writeEntry c d
    s) := by
  unfold State.writeEntry
  extract_lets x1 x2 x3 x4 x5 x6
  refine Keeps.after ?_ (State.noteIrq_keeps ..) (by decide +kernel)
  refine Keeps.bump ?_ (by decide +kernel)
  refine Keeps.after ?_ (State.setCtx_keeps ..) (by decide +kernel)
  refine Keeps.after ?_ (State.putHost_keeps ..) (by decide +kernel)
  refine Keeps.after ?_ (State.putHost_keeps ..) (by decide +kernel)
  exact Keeps.rfl

def State.finish_touch : Nat := touchSet [] [.HG_GAUNTLET_TX, .HQ_CMD_INVALID, .HQ_CMD_POLICED] |||
  State.writeEntry_touch ||| State.postSend_touch ||| State.countSearch_touch

theorem State.finish_keeps (c : ℕ) (seq : ℕ) (r : Res) (s : State) : Keeps State.finish_touch s (State.finish c seq r s)
    := by
  unfold State.finish
  split
  · exact Keeps.rfl
  · extract_lets x1 x2 x3 x4 x5 x6 x7 x8 x9 x10
    refine Keeps.after ?_ (State.settleClosing_keeps ..) (by decide +kernel)
    refine Keeps.ite ?_ ?_
    · refine Keeps.ite ?_ ?_
      · refine Keeps.bump ?_ (by decide +kernel)
        refine Keeps.ite ?_ ?_
        · refine Keeps.bump ?_ (by decide +kernel)
          refine Keeps.after ?_ (State.modCtx_keeps ..) (by decide +kernel)
          exact Keeps.rfl
        · refine Keeps.after ?_ (State.modCtx_keeps ..) (by decide +kernel)
          exact Keeps.rfl
      · refine Keeps.ite ?_ ?_
        · refine Keeps.bump ?_ (by decide +kernel)
          refine Keeps.after ?_ (State.modCtx_keeps ..) (by decide +kernel)
          exact Keeps.rfl
        · refine Keeps.after ?_ (State.modCtx_keeps ..) (by decide +kernel)
          exact Keeps.rfl
    · refine Keeps.ite ?_ ?_
      · split
        · refine Keeps.ite ?_ ?_
          · refine Keeps.after ?_ (State.postSend_keeps ..) (by decide +kernel)
            refine Keeps.after ?_ (State.partFailed_keeps ..) (by decide +kernel)
            refine Keeps.after ?_ (State.countSearch_keeps ..) (by decide +kernel)
            refine Keeps.ite ?_ ?_
            · refine Keeps.bump ?_ (by decide +kernel)
              refine Keeps.ite ?_ ?_
              · refine Keeps.bump ?_ (by decide +kernel)
                refine Keeps.after ?_ (State.modCtx_keeps ..) (by decide +kernel)
                exact Keeps.rfl
              · refine Keeps.after ?_ (State.modCtx_keeps ..) (by decide +kernel)
                exact Keeps.rfl
            · refine Keeps.ite ?_ ?_
              · refine Keeps.bump ?_ (by decide +kernel)
                refine Keeps.after ?_ (State.modCtx_keeps ..) (by decide +kernel)
                exact Keeps.rfl
              · refine Keeps.after ?_ (State.modCtx_keeps ..) (by decide +kernel)
                exact Keeps.rfl
          · refine Keeps.after ?_ (State.partFailed_keeps ..) (by decide +kernel)
            refine Keeps.after ?_ (State.countSearch_keeps ..) (by decide +kernel)
            refine Keeps.ite ?_ ?_
            · refine Keeps.bump ?_ (by decide +kernel)
              refine Keeps.ite ?_ ?_
              · refine Keeps.bump ?_ (by decide +kernel)
                refine Keeps.after ?_ (State.modCtx_keeps ..) (by decide +kernel)
                exact Keeps.rfl
              · refine Keeps.after ?_ (State.modCtx_keeps ..) (by decide +kernel)
                exact Keeps.rfl
            · refine Keeps.ite ?_ ?_
              · refine Keeps.bump ?_ (by decide +kernel)
                refine Keeps.after ?_ (State.modCtx_keeps ..) (by decide +kernel)
                exact Keeps.rfl
              · refine Keeps.after ?_ (State.modCtx_keeps ..) (by decide +kernel)
                exact Keeps.rfl
        · refine Keeps.after ?_ (State.partFailed_keeps ..) (by decide +kernel)
          refine Keeps.after ?_ (State.countSearch_keeps ..) (by decide +kernel)
          refine Keeps.ite ?_ ?_
          · refine Keeps.bump ?_ (by decide +kernel)
            refine Keeps.ite ?_ ?_
            · refine Keeps.bump ?_ (by decide +kernel)
              refine Keeps.after ?_ (State.modCtx_keeps ..) (by decide +kernel)
              exact Keeps.rfl
            · refine Keeps.after ?_ (State.modCtx_keeps ..) (by decide +kernel)
              exact Keeps.rfl
          · refine Keeps.ite ?_ ?_
            · refine Keeps.bump ?_ (by decide +kernel)
              refine Keeps.after ?_ (State.modCtx_keeps ..) (by decide +kernel)
              exact Keeps.rfl
            · refine Keeps.after ?_ (State.modCtx_keeps ..) (by decide +kernel)
              exact Keeps.rfl
      · refine Keeps.after ?_ (State.writeEntry_keeps ..) (by decide +kernel)
        refine Keeps.ite ?_ ?_
        · refine Keeps.after ?_ (State.countSearch_keeps ..) (by decide +kernel)
          refine Keeps.ite ?_ ?_
          · refine Keeps.bump ?_ (by decide +kernel)
            refine Keeps.ite ?_ ?_
            · refine Keeps.bump ?_ (by decide +kernel)
              refine Keeps.after ?_ (State.modCtx_keeps ..) (by decide +kernel)
              exact Keeps.rfl
            · refine Keeps.after ?_ (State.modCtx_keeps ..) (by decide +kernel)
              exact Keeps.rfl
          · refine Keeps.ite ?_ ?_
            · refine Keeps.bump ?_ (by decide +kernel)
              refine Keeps.after ?_ (State.modCtx_keeps ..) (by decide +kernel)
              exact Keeps.rfl
            · refine Keeps.after ?_ (State.modCtx_keeps ..) (by decide +kernel)
              exact Keeps.rfl
        · refine Keeps.after ?_ (State.putHost_keeps ..) (by decide +kernel)
          refine Keeps.after ?_ (State.putHost_keeps ..) (by decide +kernel)
          refine Keeps.after ?_ (State.putHost_keeps ..) (by decide +kernel)
          refine Keeps.after ?_ (State.countSearch_keeps ..) (by decide +kernel)
          refine Keeps.ite ?_ ?_
          · refine Keeps.bump ?_ (by decide +kernel)
            refine Keeps.ite ?_ ?_
            · refine Keeps.bump ?_ (by decide +kernel)
              refine Keeps.after ?_ (State.modCtx_keeps ..) (by decide +kernel)
              exact Keeps.rfl
            · refine Keeps.after ?_ (State.modCtx_keeps ..) (by decide +kernel)
              exact Keeps.rfl
          · refine Keeps.ite ?_ ?_
            · refine Keeps.bump ?_ (by decide +kernel)
              refine Keeps.after ?_ (State.modCtx_keeps ..) (by decide +kernel)
              exact Keeps.rfl
            · refine Keeps.after ?_ (State.modCtx_keeps ..) (by decide +kernel)
              exact Keeps.rfl

def State.modCmd_touch : Nat := State.modCtx_touch

theorem State.modCmd_keeps (c : ℕ) (seq : ℕ) (f : Cmd → Cmd) (s : State) : Keeps State.modCmd_touch s (State.modCmd c
    seq f s) := by
  unfold State.modCmd
  refine Keeps.after ?_ (State.modCtx_keeps ..) (by decide +kernel)
  exact Keeps.rfl

def State.admitCmd_touch : Nat := State.finish_touch ||| State.police_touch

theorem State.admitCmd_keeps {w : Nat} {o : State} {c : ℕ} {m : Cmd} {chk : Cmd → State → ℕ} {k : Cmd → State → State}
    {s : State} (hw : State.admitCmd_touch &&& w = State.admitCmd_touch) (hk : ∀ a0 u, Keeps w u (k a0 u)) (h : Keeps w
    o s) : Keeps w o (State.admitCmd c m chk k s) := by
  unfold State.admitCmd
  extract_lets x1 x2 x3
  refine Keeps.ite ?_ ?_
  · refine Keeps.after ?_ (State.finish_keeps ..) (touch_le (by decide +kernel) hw)
    refine Keeps.after ?_ (State.modCmd_keeps ..) (touch_le (by decide +kernel) hw)
    subst x1
    split
    · assumption
    · refine Keeps.after ?_ (State.police_keeps ..) (touch_le (by decide +kernel) hw)
      assumption
  · refine Keeps.ite ?_ ?_
    · refine Keeps.after ?_ (State.finish_keeps ..) (touch_le (by decide +kernel) hw)
      refine Keeps.after ?_ (State.modCmd_keeps ..) (touch_le (by decide +kernel) hw)
      subst x1
      split
      · assumption
      · refine Keeps.after ?_ (State.police_keeps ..) (touch_le (by decide +kernel) hw)
        assumption
    · refine Keeps.ite ?_ ?_
      · refine Keeps.after ?_ (State.finish_keeps ..) (touch_le (by decide +kernel) hw)
        refine Keeps.after ?_ (State.modCmd_keeps ..) (touch_le (by decide +kernel) hw)
        subst x1
        split
        · assumption
        · refine Keeps.after ?_ (State.police_keeps ..) (touch_le (by decide +kernel) hw)
          assumption
      · refine Keeps.after ?_ (hk ..) (Nat.and_self _)
        refine Keeps.after ?_ (State.modCmd_keeps ..) (touch_le (by decide +kernel) hw)
        subst x1
        split
        · assumption
        · refine Keeps.after ?_ (State.police_keeps ..) (touch_le (by decide +kernel) hw)
          assumption

def State.admitFront_touch : Nat := State.admitCmd_touch

theorem State.admitFront_keeps {w : Nat} {o : State} {c : ℕ} {ops : List ℕ} {chk : Cmd → State → ℕ} {k : Cmd → State →
    State} {s : State} (hw : State.admitFront_touch &&& w = State.admitFront_touch) (hk : ∀ a0 u, Keeps w u (k a0 u)) (h
    : Keeps w o s) : Keeps w o (State.admitFront c ops chk k s) := by
  unfold State.admitFront
  split
  · refine State.admitCmd_keeps (touch_le (by decide +kernel) hw) (fun a01 t1 => ?_) ?_
    · refine Keeps.after ?_ (hk ..) (Nat.and_self _)
      exact Keeps.rfl
    · assumption
  · assumption

def State.gSignal_touch : Nat := State.signal_touch

theorem State.gSignal_keeps (m : Cmd) (s : State) : Keeps State.gSignal_touch s (State.gSignal m s) := by
  unfold State.gSignal
  refine Keeps.ite ?_ ?_
  · refine Keeps.after ?_ (State.signal_keeps ..) (by decide +kernel)
    exact Keeps.rfl
  · exact Keeps.rfl

def State.gFinish_touch : Nat := touchSet [] [.SY_VAL] ||| State.finish_touch

theorem State.gFinish_keeps (c : ℕ) (m : Cmd) (r : Res) (s : State) : Keeps State.gFinish_touch s (State.gFinish c m r
    s) := by
  unfold State.gFinish
  refine Keeps.after ?_ (State.finish_keeps ..) (by decide +kernel)
  refine Keeps.after ?_ (State.gSignal_keeps ..) (by decide +kernel)
  exact Keeps.rfl

def State.hostDmaErr_touch : Nat := State.dmaErr_touch

theorem State.hostDmaErr_keeps (port : ℕ) (addr : ℕ) (kind : ℕ) (s : State) : Keeps1 State.hostDmaErr_touch s
    (State.hostDmaErr port addr kind s) := by
  unfold State.hostDmaErr
  refine Keeps1.after ?_ (State.dmaErr_keeps _ _ _ _ _) (by decide +kernel)
  exact Keeps.rfl

def State.noteHeld_touch : Nat := touchSet [] [.HQ_FETCH_HELD_NS] ||| State.setCtx_touch

theorem State.noteHeld_keeps (c : ℕ) (s : State) : Keeps State.noteHeld_touch s (State.noteHeld c s) := by
  unfold State.noteHeld
  extract_lets x1
  refine Keeps.ite ?_ ?_
  · refine Keeps.after ?_ (State.setCtx_keeps ..) (by decide +kernel)
    exact Keeps.rfl
  · split
    · refine Keeps.bump ?_ (by decide +kernel)
      refine Keeps.after ?_ (State.setCtx_keeps ..) (by decide +kernel)
      exact Keeps.rfl
    · exact Keeps.rfl

def State.waitAtAdmission_touch : Nat := State.modCmd_touch

theorem State.waitAtAdmission_keeps (c : ℕ) (m : Cmd) (s : State) : Keeps State.waitAtAdmission_touch s
    (State.waitAtAdmission c m s) := by
  unfold State.waitAtAdmission
  refine Keeps.after ?_ (State.modCmd_keeps ..) (by decide +kernel)
  exact Keeps.rfl

def State.writeFates_touch : Nat := State.writeEntry_touch

theorem State.writeFates_keeps (c n : Nat) (s : State) : Keeps State.writeFates_touch s (State.writeFates c n s) := by
  induction n generalizing s with
  | zero =>
    unfold State.writeFates
    exact Keeps.rfl
  | succ n ih =>
    unfold State.writeFates
    extract_lets x1
    refine Keeps.ite ?_ ?_
    · split
      · refine Keeps.after ?_ (ih _) (Nat.and_self _)
        refine Keeps.after ?_ (State.writeEntry_keeps ..) (by decide +kernel)
        refine Keeps.after ?_ (State.setCtx_keeps ..) (by decide +kernel)
        exact Keeps.rfl
      · extract_lets x2
        refine Keeps.after ?_ (State.writeEntry_keeps ..) (by decide +kernel)
        refine Keeps.after ?_ (State.setCtx_keeps ..) (by decide +kernel)
        exact Keeps.rfl
      · exact Keeps.rfl
    · exact Keeps.rfl

end Sys2Proof.Machine
end

