-- ==== Sys2Proof/Laws/KeepSectors.lean ====
section
/-! SUPPORT. What each operation of Machine/Sectors.lean can change. -/

namespace Sys2Proof.Machine

set_option Elab.async false

def State.freeGranules_touch : Nat := touchSet [.fl] []

theorem State.freeGranules_keeps (q : ℕ) (ch : ℕ) (s : State) : Keeps State.freeGranules_touch s (State.freeGranules q
    ch s) := by
  unfold State.freeGranules
  extract_lets x1 x2 x3 x4
  refine Keeps.ite ?_ ?_
  · exact Keeps.rfl
  · refine Keeps.after ?_ (State.setChan_keeps ..) (by decide +kernel)
    exact Keeps.rfl

def State.queueOp_touch : Nat := touchSet [.fl] []

theorem State.queueOp_keeps (n : ℕ) (plane : ℕ) (op : PlaneOp) (s : State) : Keeps State.queueOp_touch s (State.queueOp
    n plane op s) := by
  unfold State.queueOp
  extract_lets x1
  refine Keeps.after ?_ (State.setChan_keeps ..) (by decide +kernel)
  exact Keeps.rfl

def State.queueWrite_touch : Nat := touchSet [.fl] []

theorem State.queueWrite_keeps (w : SWrite) (s : State) : Keeps State.queueWrite_touch s (State.queueWrite w s) := by
  unfold State.queueWrite
  extract_lets x1 x2 x3 x4
  refine Keeps.fl ?_ (by decide +kernel)
  exact Keeps.rfl

def State.releaseLsns_touch : Nat := touchSet [.fl] []

theorem State.releaseLsns_keeps (ch : ℕ) (ls : List ℕ) (s : State) : Keeps State.releaseLsns_touch s (State.releaseLsns
    ch ls s) := by
  unfold State.releaseLsns
  extract_lets x1
  refine Keeps.after ?_ (State.setChan_keeps ..) (by decide +kernel)
  exact Keeps.rfl

def State.takeLsn_touch : Nat := touchSet [.fl] []

theorem State.takeLsn_keeps (n : ℕ) (s : State) : Keeps2 State.takeLsn_touch s (State.takeLsn n s) := by
  unfold State.takeLsn
  extract_lets x1 x2
  split
  · refine Keeps2.of ?_
    refine Keeps.after ?_ (State.setChan_keeps ..) (by decide +kernel)
    exact Keeps.rfl
  · refine Keeps2.of ?_
    refine Keeps.after ?_ (State.setChan_keeps ..) (by decide +kernel)
    exact Keeps.rfl

def State.takeRun_touch : Nat := touchSet [.fl] []

theorem State.takeRun_keeps (ch : ℕ) (n : ℕ) (s : State) : KeepsP State.takeRun_touch s (State.takeRun ch n s) := by
  unfold State.takeRun
  extract_lets x1 x2
  refine KeepsP.ite ?_ ?_
  · refine KeepsP.some ?_
    refine Keeps.after ?_ (State.setChan_keeps ..) (by decide +kernel)
    exact Keeps.rfl
  · exact KeepsP.none

end Sys2Proof.Machine
end

