-- ==== Sys2Proof/Laws/KeepTier.lean ====
section
/-! SUPPORT. What each operation of Machine/Tier.lean can change. -/

namespace Sys2Proof.Machine

set_option Elab.async false

def State.rewriteHeaders_touch : Nat := touchSet [.idx] []

theorem State.rewriteHeaders_keeps (k : ℕ) (cl : ℕ) (addr : Block → ℕ) (s : State) : Keeps State.rewriteHeaders_touch s
    (State.rewriteHeaders k cl addr s) := by
  unfold State.rewriteHeaders
  refine Keeps.after ?_ (State.modList_keeps ..) (by decide +kernel)
  exact Keeps.rfl

def State.allocBlocks_touch : Nat := touchSet [.freeCount, .idx] []

theorem State.allocBlocks_keeps (k : ℕ) (cl : ℕ) (s : State) : Keeps State.allocBlocks_touch s (State.allocBlocks k cl
    s) := by
  unfold State.allocBlocks
  extract_lets x1 x2 x3
  refine Keeps.after ?_ (State.rewriteHeaders_keeps ..) (by decide +kernel)
  refine Keeps.forEach _ _ (fun a1 t1 => ?_) ?_
  · refine Keeps.after ?_ (State.draw_keeps ..) (by decide +kernel)
    exact Keeps.rfl
  · exact Keeps.rfl

def State.pruneWrs_touch : Nat := touchSet [.idx, .net] []

theorem State.pruneWrs_keeps (k : ℕ) (cl : ℕ) (s : State) : Keeps State.pruneWrs_touch s (State.pruneWrs k cl s) := by
  unfold State.pruneWrs
  extract_lets x1 x2 x3 x4 x5 x6
  refine Keeps.after ?_ (State.modList_keeps ..) (by decide +kernel)
  refine Keeps.net ?_ (by decide +kernel)
  exact Keeps.rfl

def State.grantWR_touch : Nat := touchSet [.idx] [] ||| State.post_touch

theorem State.grantWR_keeps (op : ℕ) (k : ℕ) (cl : ℕ) (seq : ℕ) (a : ℕ) (n : ℕ) (data : List Byte) (s : State) : Keeps
    State.grantWR_touch s (State.grantWR op k cl seq a n data s) := by
  unfold State.grantWR
  extract_lets x1 x2 x3
  refine Keeps.after ?_ (State.post_keeps ..) (by decide +kernel)
  refine Keeps.after ?_ (State.modList_keeps ..) (by decide +kernel)
  exact Keeps.rfl

def State.writeLow_touch : Nat := touchSet [.fl] [.GE_PF_BYTES_DOWN, .TN_ACC_REMOTE_BYTES] ||| State.grantWR_touch

theorem State.writeLow_keeps (k cl : Nat) (l : IList) (b : Block) (s : State) :
    KeepsO State.writeLow_touch s (s.writeLow k cl l b) := by
  unfold State.writeLow
  extract_lets n ch got
  have hg : KeepsP State.writeLow_touch s got := by
    subst got
    split
    · exact KeepsP.some Keeps.rfl
    · split
      · intro x t h
        obtain ⟨r, hr, e⟩ := Option.map_eq_some_iff.mp h
        cases e
        exact Keeps.after Keeps.rfl (KeepsP.get (x := r.1) hr (State.takeRun_keeps _ _ _)) (by decide +kernel)
      · intro x t h
        obtain ⟨r, _, e⟩ := Option.map_eq_some_iff.mp h
        cases e
        exact Keeps.rfl
  clear_value got
  split
  · exact KeepsO.none
  · extract_lets owner area put s1 s2
    refine KeepsO.some (Keeps.ite ?_ ?_)
    · refine Keeps.forEach _ _ (fun _ _ => ?_) ?_
      · exact Keeps.after Keeps.rfl (State.queueWrite_keeps ..) (by decide +kernel)
      · refine Keeps.bump ?_ (by decide +kernel)
        refine Keeps.after ?_ (State.modList_keeps ..) (by decide +kernel)
        exact KeepsP.get rfl hg
    · refine Keeps.bump ?_ (by decide +kernel)
      refine Keeps.after ?_ (State.grantWR_keeps ..) (by decide +kernel)
      refine Keeps.bump ?_ (by decide +kernel)
      refine Keeps.after ?_ (State.modList_keeps ..) (by decide +kernel)
      exact KeepsP.get rfl hg

def State.writeLows_touch : Nat := State.writeLow_touch

theorem State.writeLows_keeps (k cl : Nat) (li : IList) (l : List Block) (s : State) : KeepsO State.writeLows_touch s
    (State.writeLows k cl li l s) := by
  induction l generalizing s with
  | nil =>
    unfold State.writeLows
    refine KeepsO.some ?_
    exact Keeps.rfl
  | cons x l ih =>
    unfold State.writeLows
    split
    · refine KeepsO.after ?_ (ih _) (Nat.and_self _)
      refine Keeps.after ?_ (KeepsO.get (by assumption) (State.writeLow_keeps _ _ _ _ _)) (by decide +kernel)
      exact Keeps.rfl
    · exact KeepsO.none

def State.beginDemotion_touch : Nat := touchSet [.freeCount] [.TN_QUOTA_REFUSED, .TN_QUOTA_USED] |||
  State.writeLows_touch

theorem State.beginDemotion_keeps (k : ℕ) (cl : ℕ) (tier : ℕ) (grant : ℕ) (movers : List (ℕ × ℕ)) (s : State) : Keeps2
    State.beginDemotion_touch s (State.beginDemotion k cl tier grant movers s) := by
  unfold State.beginDemotion
  extract_lets x1 x2 x3 x4 x5 x6 x7 x8 x9 x10 x11 x12 x13 x14 x15 x16
  refine Keeps2.ite ?_ ?_
  · refine Keeps2.of ?_
    refine Keeps.after ?_ (State.pruneWrs_keeps ..) (by decide +kernel)
    exact Keeps.rfl
  · refine Keeps2.ite ?_ ?_
    · refine Keeps2.of ?_
      refine Keeps.bump ?_ (by decide +kernel)
      refine Keeps.after ?_ (State.pruneWrs_keeps ..) (by decide +kernel)
      exact Keeps.rfl
    · split
      · refine Keeps2.of ?_
        refine Keeps.after ?_ (KeepsO.get (by assumption) (State.writeLows_keeps _ _ _ _ _)) (by decide +kernel)
        refine Keeps.after ?_ (State.modList_keeps ..) (by decide +kernel)
        refine Keeps.after ?_ (State.addCharge_keeps ..) (by decide +kernel)
        refine Keeps.after ?_ (State.addCharge_keeps ..) (by decide +kernel)
        refine Keeps.after ?_ (State.freshAddr_keeps ..) (by decide +kernel)
        refine Keeps.ite ?_ ?_
        · refine Keeps.after ?_ (State.dropCharge_keeps ..) (by decide +kernel)
          refine Keeps.after ?_ (State.pruneWrs_keeps ..) (by decide +kernel)
          exact Keeps.rfl
        · refine Keeps.after ?_ (State.pruneWrs_keeps ..) (by decide +kernel)
          exact Keeps.rfl
      · refine Keeps2.of ?_
        refine Keeps.bump ?_ (by decide +kernel)
        refine Keeps.after ?_ (State.pruneWrs_keeps ..) (by decide +kernel)
        exact Keeps.rfl

def State.evict_touch : Nat := touchSet [] [.TN_PF_POOL_EVICT] ||| State.beginDemotion_touch

theorem State.evict_keeps (t : ℕ) (need : ℕ) (s : State) : Keeps State.evict_touch s (State.evict t need s) := by
  unfold State.evict
  extract_lets x1
  refine Keeps2.foldl _ _ (fun p1 a1 => ?_) ?_
  · refine Keeps2.ite ?_ ?_
    · exact Keeps.rfl
    · extract_lets x2
      refine Keeps2.ite ?_ ?_
      · refine Keeps2.of ?_
        refine Keeps.bump ?_ (by decide +kernel)
        refine Keeps.after ?_ (State.beginDemotion_keeps ..) (by decide +kernel)
        exact Keeps.rfl
      · exact Keeps.rfl
  · exact Keeps.rfl

def State.poolRoom_touch : Nat := State.evict_touch

theorem State.poolRoom_keeps (t : ℕ) (n : ℕ) (s : State) : Keeps2 State.poolRoom_touch s (State.poolRoom t n s) := by
  unfold State.poolRoom
  refine Keeps2.ite ?_ ?_
  · refine Keeps2.of ?_
    exact Keeps.rfl
  · refine Keeps2.ite ?_ ?_
    · refine Keeps2.of ?_
      exact Keeps.rfl
    · refine Keeps2.of ?_
      refine Keeps.after ?_ (State.evict_keeps ..) (by decide +kernel)
      exact Keeps.rfl

def State.queuePromo_touch : Nat := touchSet [.fl] []

theorem State.queuePromo_keeps (cls : ℕ) (n : ℕ) (a : ℕ) (t : ℕ) (s : State) : Keeps State.queuePromo_touch s
    (State.queuePromo cls n a t s) := by
  unfold State.queuePromo
  extract_lets x1
  refine Keeps.ite ?_ ?_
  · refine Keeps.forEach _ _ (fun a1 t1 => ?_) ?_
    · refine Keeps.after ?_ (State.queueOp_keeps ..) (by decide +kernel)
      exact Keeps.rfl
    · exact Keeps.rfl
  · exact Keeps.rfl

def State.readLow_touch : Nat := touchSet [.fl] [] ||| State.grantWR_touch

theorem State.readLow_keeps (k : ℕ) (cl : ℕ) (cls : ℕ) (b : Block) (s : State) : Keeps State.readLow_touch s
    (State.readLow k cl cls b s) := by
  unfold State.readLow
  extract_lets x1
  split
  · exact Keeps.rfl
  · refine Keeps.ite ?_ ?_
    · refine Keeps.after ?_ (State.grantWR_keeps ..) (by decide +kernel)
      exact Keeps.rfl
    · refine Keeps.after ?_ (State.queuePromo_keeps ..) (by decide +kernel)
      exact Keeps.rfl

def State.startPromotion_touch : Nat := State.poolRoom_touch

theorem State.startPromotion_keeps (k : ℕ) (cl : ℕ) (t : ℕ) (cls : ℕ) (demand : Bool) (pinned : Bool) (s : State) :
    Keeps2 State.startPromotion_touch s (State.startPromotion k cl t cls demand pinned s) := by
  unfold State.startPromotion
  extract_lets x1 x2 x3 x4 x5
  refine Keeps2.ite ?_ ?_
  · refine Keeps2.ite ?_ ?_
    · refine Keeps2.of ?_
      refine Keeps.forEach _ _ (fun a1 t1 => ?_) ?_
      · refine Keeps.after ?_ (State.readLow_keeps ..) (by decide +kernel)
        exact Keeps.rfl
      · refine Keeps.after ?_ (State.allocBlocks_keeps ..) (by decide +kernel)
        refine Keeps.after ?_ (State.modList_keeps ..) (by decide +kernel)
        refine Keeps.after ?_ (State.charge_keeps ..) (by decide +kernel)
        subst x3
        split
        · refine Keeps.after ?_ (State.poolRoom_keeps ..) (by decide +kernel)
          exact Keeps.rfl
        · exact Keeps.rfl
    · refine Keeps2.of ?_
      refine Keeps.after ?_ (State.charge_keeps ..) (by decide +kernel)
      subst x3
      split
      · refine Keeps.after ?_ (State.poolRoom_keeps ..) (by decide +kernel)
        exact Keeps.rfl
      · exact Keeps.rfl
  · refine Keeps2.of ?_
    subst x3
    split
    · refine Keeps.after ?_ (State.poolRoom_keeps ..) (by decide +kernel)
      exact Keeps.rfl
    · exact Keeps.rfl

def State.endMovers_touch : Nat := touchSet [.idx] [] ||| State.gFinish_touch

theorem State.endMovers_keeps (k : ℕ) (cl : ℕ) (status : ℕ) (s : State) : Keeps State.endMovers_touch s (State.endMovers
    k cl status s) := by
  unfold State.endMovers
  extract_lets x1 x2
  refine Keeps.forEach _ _ (fun a1 t1 => ?_) ?_
  · subst x2
    beta_reduce
    split
    · refine Keeps.ite ?_ ?_
      · refine Keeps.after ?_ (State.gFinish_keeps ..) (by decide +kernel)
        exact Keeps.rfl
      · refine Keeps.after ?_ (State.finish_keeps ..) (by decide +kernel)
        exact Keeps.rfl
    · exact Keeps.rfl
  · refine Keeps.after ?_ (State.modList_keeps ..) (by decide +kernel)
    exact Keeps.rfl

def State.takeover_touch : Nat := touchSet [] [.TN_RES_CREDITED, .TN_RES_TAKEN, .TN_RES_TAKE_REFUSED] |||
  State.endMovers_touch ||| State.poolRoom_touch

theorem State.takeover_keeps (k : ℕ) (cl : ℕ) (p : ℕ) (demand : Bool) (s : State) : Keeps State.takeover_touch s
    (State.takeover k cl p demand s) := by
  unfold State.takeover
  extract_lets x1 x2 x3 x4 x5 x6 x7
  refine Keeps.ite ?_ ?_
  · subst x3
    beta_reduce
    refine Keeps.after ?_ (State.endMovers_keeps ..) (by decide +kernel)
    refine Keeps.after ?_ (State.modList_keeps ..) (by decide +kernel)
    exact Keeps.rfl
  · refine Keeps.ite ?_ ?_
    · subst x3
      beta_reduce
      refine Keeps.after ?_ (State.endMovers_keeps ..) (by decide +kernel)
      refine Keeps.bump ?_ (by decide +kernel)
      refine Keeps.after ?_ (State.modList_keeps ..) (by decide +kernel)
      refine Keeps.bump ?_ (by decide +kernel)
      refine Keeps.after ?_ (State.addCharge_keeps ..) (by decide +kernel)
      refine Keeps.after ?_ (State.dropCharge_keeps ..) (by decide +kernel)
      subst x5
      split
      · refine Keeps.after ?_ (State.poolRoom_keeps ..) (by decide +kernel)
        exact Keeps.rfl
      · exact Keeps.rfl
    · refine Keeps.bump ?_ (by decide +kernel)
      subst x5
      split
      · refine Keeps.after ?_ (State.poolRoom_keeps ..) (by decide +kernel)
        exact Keeps.rfl
      · exact Keeps.rfl

def State.demand_touch : Nat := touchSet [] [.TN_PF_DEMAND] ||| State.takeover_touch

theorem State.demand_keeps (k : ℕ) (cl : ℕ) (t : ℕ) (s : State) : Keeps State.demand_touch s (State.demand k cl t s) :=
    by
  unfold State.demand
  extract_lets x1 x2
  refine Keeps.ite ?_ ?_
  · refine Keeps.ite ?_ ?_
    · refine Keeps.bump ?_ (by decide +kernel)
      refine Keeps.after ?_ (State.startPromotion_keeps ..) (by decide +kernel)
      exact Keeps.rfl
    · refine Keeps.after ?_ (State.startPromotion_keeps ..) (by decide +kernel)
      exact Keeps.rfl
  · refine Keeps.ite ?_ ?_
    · refine Keeps.after ?_ (State.takeover_keeps ..) (by decide +kernel)
      exact Keeps.rfl
    · exact Keeps.rfl

end Sys2Proof.Machine
end

