-- ==== Sys2Proof/Laws/KeepGather.lean ====
section
/-! SUPPORT. What each operation of Machine/Gather.lean can change. -/

namespace Sys2Proof.Machine

set_option Elab.async false

def State.setGq_touch : Nat := touchSet [.qry] []

theorem State.setGq_keeps (g : GQueue) (s : State) : Keeps State.setGq_touch s (State.setGq g s) := by
  unfold State.setGq
  extract_lets x1 x2 x3
  refine Keeps.qry ?_ (by decide +kernel)
  exact Keeps.rfl

def State.trigger_touch : Nat := touchSet [.qry] []

theorem State.trigger_keeps (die : ℕ) (key : GKey) (t : Trig) (s : State) : Keeps State.trigger_touch s (State.trigger
    die key t s) := by
  unfold State.trigger
  extract_lets x1
  refine Keeps.ite ?_ ?_
  · exact Keeps.rfl
  · refine Keeps.after ?_ (State.setGq_keeps ..) (by decide +kernel)
    exact Keeps.rfl

def State.checkPressure_touch : Nat := touchSet [.qry] []

theorem State.checkPressure_keeps (die : ℕ) (pn : ℕ) (s : State) : Keeps State.checkPressure_touch s
    (State.checkPressure die pn s) := by
  unfold State.checkPressure
  extract_lets x1 x2
  refine Keeps.ite ?_ ?_
  · split
    · refine Keeps.after ?_ (State.trigger_keeps ..) (by decide +kernel)
      exact Keeps.rfl
    · exact Keeps.rfl
  · exact Keeps.rfl

def State.checkQueue_touch : Nat := touchSet [.qry] []

theorem State.checkQueue_keeps (die : ℕ) (key : GKey) (s : State) : Keeps State.checkQueue_touch s (State.checkQueue die
    key s) := by
  unfold State.checkQueue
  extract_lets x1 x2
  split
  · refine Keeps.ite ?_ ?_
    · refine Keeps.after ?_ (State.trigger_keeps ..) (by decide +kernel)
      refine Keeps.ite ?_ ?_
      · refine Keeps.after ?_ (State.trigger_keeps ..) (by decide +kernel)
        exact Keeps.rfl
      · exact Keeps.rfl
    · refine Keeps.ite ?_ ?_
      · refine Keeps.after ?_ (State.trigger_keeps ..) (by decide +kernel)
        exact Keeps.rfl
      · exact Keeps.rfl
  · refine Keeps.ite ?_ ?_
    · refine Keeps.after ?_ (State.trigger_keeps ..) (by decide +kernel)
      exact Keeps.rfl
    · exact Keeps.rfl

def State.dropLanes_touch : Nat := touchSet [.qry] []

theorem State.dropLanes_keeps (q : ℕ) (s : State) : Keeps2 State.dropLanes_touch s (State.dropLanes q s) := by
  unfold State.dropLanes
  extract_lets x1 x2 x3
  refine Keeps2.of ?_
  refine Keeps.qry ?_ (by decide +kernel)
  exact Keeps.rfl

def State.takeOut_touch : Nat := touchSet [.qry] [.BD_GQ_NOCTX_NS]

theorem State.takeOut_keeps (gone : GKey → Pair → Bool) (s : State) : Keeps State.takeOut_touch s (State.takeOut gone s)
    := by
  unfold State.takeOut
  extract_lets x1 x2 x3 x4 x5 x6 x7
  refine Keeps.forEach _ _ (fun a1 t1 => ?_) ?_
  · refine Keeps.after ?_ (State.checkPressure_keeps ..) (by decide +kernel)
    exact Keeps.rfl
  · refine Keeps.forEach _ _ (fun a1 t1 => ?_) ?_
    · refine Keeps.bump ?_ (by decide +kernel)
      exact Keeps.rfl
    · refine Keeps.qry ?_ (by decide +kernel)
      exact Keeps.rfl

def State.removePairs_touch : Nat := State.takeOut_touch

theorem State.removePairs_keeps (q : ℕ) (s : State) : Keeps2 State.removePairs_touch s (State.removePairs q s) := by
  unfold State.removePairs
  extract_lets x1 x2 x3
  refine Keeps2.of ?_
  refine Keeps.after ?_ (State.takeOut_keeps ..) (by decide +kernel)
  refine Keeps.qry ?_ (by decide +kernel)
  exact Keeps.rfl

def State.joinQueue_touch : Nat := touchSet [.qry] [.BD_GQ_POOL_MAX, .BD_GQ_POSTED]

theorem State.joinQueue_keeps (q : ℕ) (rank : ℕ) (die : ℕ) (key : GKey) (s : State) : Keeps State.joinQueue_touch s
    (State.joinQueue q rank die key s) := by
  unfold State.joinQueue
  split
  · exact Keeps.rfl
  · extract_lets x1 x2 x3 x4 x5 x6 x7 x8
    refine Keeps.after ?_ (State.checkPressure_keeps ..) (by decide +kernel)
    refine Keeps.after ?_ (State.checkQueue_keeps ..) (by decide +kernel)
    refine Keeps.raise ?_ (by decide +kernel)
    refine Keeps.bump ?_ (by decide +kernel)
    refine Keeps.after ?_ (State.setGq_keeps ..) (by decide +kernel)
    exact Keeps.rfl

def State.modQuery_touch : Nat := touchSet [.qry] []

theorem State.modQuery_keeps (q : ℕ) (f : Query → Query) (s : State) : Keeps State.modQuery_touch s (State.modQuery q f
    s) := by
  unfold State.modQuery
  split
  · refine Keeps.after ?_ (State.setQuery_keeps ..) (by decide +kernel)
    exact Keeps.rfl
  · exact Keeps.rfl

def State.markReport_touch : Nat := touchSet [.qry] []

theorem State.markReport_keeps (q : ℕ) (rank : ℕ) (allowed : ℕ) (s : State) : Keeps State.markReport_touch s
    (State.markReport q rank allowed s) := by
  unfold State.markReport
  refine Keeps.after ?_ (State.modQuery_keeps ..) (by decide +kernel)
  exact Keeps.rfl

def State.pairGone_touch : Nat := touchSet [.qry] []

theorem State.pairGone_keeps (q : ℕ) (rank : ℕ) (s : State) : Keeps State.pairGone_touch s (State.pairGone q rank s) :=
    by
  unfold State.pairGone
  split
  · exact Keeps.rfl
  · refine Keeps.after ?_ (State.markReport_keeps ..) (by decide +kernel)
    refine Keeps.after ?_ (State.setQuery_keeps ..) (by decide +kernel)
    exact Keeps.rfl

def State.postPair_touch : Nat := touchSet [] [.BD_GQ_POOL_HOLD] ||| State.demand_touch ||| State.joinQueue_touch

theorem State.postPair_keeps (rank : ℕ) (q : ℕ) (s : State) : Keeps State.postPair_touch s (State.postPair rank q s) :=
    by
  unfold State.postPair
  split
  · exact Keeps.rfl
  · extract_lets x1 x2 x3 x4 x5 x6 x7 x8 x9
    refine Keeps.ite ?_ ?_
    · refine Keeps.after ?_ (State.pairGone_keeps ..) (by decide +kernel)
      refine Keeps.after ?_ (State.setQuery_keeps ..) (by decide +kernel)
      refine Keeps.after ?_ (State.modList_keeps ..) (by decide +kernel)
      exact Keeps.rfl
    · refine Keeps.ite ?_ ?_
      · refine Keeps.after ?_ (State.joinQueue_keeps ..) (by decide +kernel)
        refine Keeps.after ?_ (State.demand_keeps ..) (by decide +kernel)
        refine Keeps.after ?_ (State.setQuery_keeps ..) (by decide +kernel)
        refine Keeps.after ?_ (State.modList_keeps ..) (by decide +kernel)
        exact Keeps.rfl
      · refine Keeps.qry ?_ (by decide +kernel)
        refine Keeps.bump ?_ (by decide +kernel)
        refine Keeps.after ?_ (State.demand_keeps ..) (by decide +kernel)
        refine Keeps.after ?_ (State.setQuery_keeps ..) (by decide +kernel)
        refine Keeps.after ?_ (State.modList_keeps ..) (by decide +kernel)
        exact Keeps.rfl

def State.postShadow_touch : Nat := State.postPair_touch

theorem State.postShadow_keeps (q n : Nat) (s : State) : Keeps State.postShadow_touch s (State.postShadow q n s) := by
  induction n generalizing s with
  | zero =>
    unfold State.postShadow
    exact Keeps.rfl
  | succ n ih =>
    unfold State.postShadow
    split
    · exact Keeps.rfl
    · extract_lets x1 x2 x3
      refine Keeps.ite ?_ ?_
      · refine Keeps.after ?_ (ih _) (Nat.and_self _)
        refine Keeps.after ?_ (State.postPair_keeps ..) (by decide +kernel)
        refine Keeps.after ?_ (State.setQuery_keeps ..) (by decide +kernel)
        exact Keeps.rfl
      · exact Keeps.rfl

def State.resumeShadows_touch : Nat := State.postShadow_touch

theorem State.resumeShadows_keeps (pn : ℕ) (s : State) : Keeps State.resumeShadows_touch s (State.resumeShadows pn s) :=
    by
  unfold State.resumeShadows
  refine Keeps.forEach _ _ (fun a1 t1 => ?_) ?_
  · refine Keeps.after ?_ (State.postShadow_keeps ..) (by decide +kernel)
    exact Keeps.rfl
  · exact Keeps.rfl

def State.cutScan_touch : Nat := touchSet [] [.BD_GQ_NOCTX_NS] ||| State.resumeShadows_touch

theorem State.cutScan_keeps (q : ℕ) (s : State) : Keeps State.cutScan_touch s (State.cutScan q s) := by
  unfold State.cutScan
  split
  · exact Keeps.rfl
  · extract_lets x1 x2 x3 x4 x5 x6 x7
    refine Keeps.after ?_ (State.resumeShadows_keeps ..) (by decide +kernel)
    refine Keeps.after ?_ (State.setQuery_keeps ..) (by decide +kernel)
    refine Keeps.after ?_ (State.dropLanes_keeps ..) (by decide +kernel)
    refine Keeps.after ?_ (State.removePairs_keeps ..) (by decide +kernel)
    exact Keeps.rfl

def State.flush_touch : Nat := touchSet [.qry] []

theorem State.flush_keeps (q : ℕ) (s : State) : Keeps State.flush_touch s (State.flush q s) := by
  unfold State.flush
  split
  · exact Keeps.rfl
  · extract_lets x1
    refine Keeps.after ?_ (State.setQuery_keeps ..) (by decide +kernel)
    exact Keeps.rfl

def State.noteMerge_touch : Nat := touchSet [] [.SE_MG_STATUS]

theorem State.noteMerge_keeps (die : ℕ) (s : State) : Keeps State.noteMerge_touch s (State.noteMerge die s) := by
  unfold State.noteMerge
  refine Keeps.setFld ?_ (by decide +kernel)
  exact Keeps.rfl

def State.noteNans_touch : Nat := touchSet [] [.SE_NAN]

theorem State.noteNans_keeps (die : ℕ) (kind : Kind) (row : List Elem) (s : State) : Keeps State.noteNans_touch s
    (State.noteNans die kind row s) := by
  unfold State.noteNans
  refine Keeps.bump ?_ (by decide +kernel)
  exact Keeps.rfl

def State.noteSelect_touch : Nat := touchSet [.ras] [.SE_DUP_DROPPED_DIE, .SE_MG_APPROX, .SE_MG_BUSY_CYC,
  .SE_MG_KEY_PASSES, .SE_MG_PIECES, .SE_MG_REPEAT_PASSES, .SE_REFILL_PASSES_DIE]

theorem State.noteSelect_keeps (die : ℕ) (sel : Selected) (s : State) : Keeps State.noteSelect_touch s (State.noteSelect
    die sel s) := by
  unfold State.noteSelect
  extract_lets x1 x2 x3
  refine Keeps.after ?_ (State.progressed_keeps ..) (by decide +kernel)
  refine Keeps.bump ?_ (by decide +kernel)
  refine Keeps.bump ?_ (by decide +kernel)
  refine Keeps.bump ?_ (by decide +kernel)
  refine Keeps.bump ?_ (by decide +kernel)
  refine Keeps.bump ?_ (by decide +kernel)
  refine Keeps.bump ?_ (by decide +kernel)
  refine Keeps.bump ?_ (by decide +kernel)
  exact Keeps.rfl

def State.settleScan_touch : Nat := touchSet [] [.BD_WD_CEIL_STOP, .BD_WD_DEADLINE_STOP, .BD_WD_PAIRS, .BD_WD_QUERIES,
  .BD_WD_STEPS] ||| State.postShadow_touch

theorem State.settleScan_keeps (q n : Nat) (s : State) : Keeps State.settleScan_touch s (State.settleScan q n s) := by
  induction n generalizing s with
  | zero =>
    unfold State.settleScan
    exact Keeps.rfl
  | succ n ih =>
    unfold State.settleScan
    split
    · exact Keeps.rfl
    · refine Keeps.ite ?_ ?_
      · refine Keeps.ite ?_ ?_
        · extract_lets x1
          refine Keeps.ite ?_ ?_
          · exact Keeps.rfl
          · refine Keeps.after ?_ (ih _) (Nat.and_self _)
            refine Keeps.after ?_ (State.postShadow_keeps ..) (by decide +kernel)
            exact Keeps.rfl
        · extract_lets x1 x2 x3 x4 x5 x6 x7 x8 x9
          refine Keeps.ite ?_ ?_
          · refine Keeps.after ?_ (ih _) (Nat.and_self _)
            refine Keeps.forEach _ _ (fun a1 t1 => ?_) ?_
            · refine Keeps.after ?_ (State.postPair_keeps ..) (by decide +kernel)
              exact Keeps.rfl
            · refine Keeps.bump ?_ (by decide +kernel)
              refine Keeps.bump ?_ (by decide +kernel)
              refine Keeps.bump ?_ (by decide +kernel)
              refine Keeps.after ?_ (State.setQuery_keeps ..) (by decide +kernel)
              exact Keeps.rfl
          · refine Keeps.after ?_ (State.flush_keeps ..) (by decide +kernel)
            refine Keeps.bump ?_ (by decide +kernel)
            refine Keeps.bump ?_ (by decide +kernel)
            exact Keeps.rfl
      · exact Keeps.rfl

def State.postFirst_touch : Nat := State.settleScan_touch

theorem State.postFirst_keeps (q : ℕ) (s : State) : Keeps State.postFirst_touch s (State.postFirst q s) := by
  unfold State.postFirst
  split
  · exact Keeps.rfl
  · refine Keeps.ite ?_ ?_
    · refine Keeps.after ?_ (State.settleScan_keeps ..) (by decide +kernel)
      refine Keeps.after ?_ (State.postShadow_keeps ..) (by decide +kernel)
      exact Keeps.rfl
    · refine Keeps.after ?_ (State.settleScan_keeps ..) (by decide +kernel)
      refine Keeps.forEach _ _ (fun a1 t1 => ?_) ?_
      · refine Keeps.after ?_ (State.postPair_keeps ..) (by decide +kernel)
        exact Keeps.rfl
      · exact Keeps.rfl

def State.report_touch : Nat := State.settleScan_touch

theorem State.report_keeps (q : ℕ) (rank : ℕ) (allowed : ℕ) (s : State) : Keeps State.report_touch s (State.report q
    rank allowed s) := by
  unfold State.report
  refine Keeps.after ?_ (State.settleScan_keeps ..) (by decide +kernel)
  refine Keeps.after ?_ (State.markReport_keeps ..) (by decide +kernel)
  exact Keeps.rfl

end Sys2Proof.Machine
end

