-- ==== Sys2Proof/Laws/KeepGroup.lean ====
section
/-! SUPPORT. What each operation of Machine/Group.lean can change. -/

namespace Sys2Proof.Machine

set_option Elab.async false

def State.setLease_touch : Nat := touchSet [.ten] []

theorem State.setLease_keeps (l : HeadLease) (s : State) : Keeps State.setLease_touch s (State.setLease l s) := by
  unfold State.setLease
  refine Keeps.ten ?_ (by decide +kernel)
  exact Keeps.rfl

def State.sendLease_touch : Nat := touchSet [.ten] [] ||| State.postSend_touch

theorem State.sendLease_keeps (lop : ℕ) (epoch : ℕ) (key : W64) (s : State) (off : ℕ) (len : ℕ) : Keeps
    State.sendLease_touch s (State.sendLease lop epoch key s off len) := by
  unfold State.sendLease
  extract_lets x1 x2
  split
  · refine Keeps.after ?_ (State.setLease_keeps ..) (by decide +kernel)
    refine Keeps.after ?_ (State.postSend_keeps ..) (by decide +kernel)
    exact Keeps.rfl
  · refine Keeps.after ?_ (State.postSend_keeps ..) (by decide +kernel)
    exact Keeps.rfl

def State.claim_touch : Nat := State.sendLease_touch

theorem State.claim_keeps (g : GroupJob) (s : State) : Keeps State.claim_touch s (State.claim g s) := by
  unfold State.claim
  split
  · refine Keeps.ite ?_ ?_
    · refine Keeps.after ?_ (State.setLease_keeps ..) (by decide +kernel)
      refine Keeps.after ?_ (State.sendLease_keeps ..) (by decide +kernel)
      exact Keeps.rfl
    · exact Keeps.rfl
  · exact Keeps.rfl

def State.setReplica_touch : Nat := touchSet [] [.HQ_GRP_SHARD]

theorem State.setReplica_keeps (sh : ℕ) (r : ℕ) (st : ℕ) (s : State) : Keeps State.setReplica_touch s (State.setReplica
    sh r st s) := by
  unfold State.setReplica
  split
  · refine Keeps.setFld ?_ (by decide +kernel)
    exact Keeps.rfl
  · refine Keeps.setFld ?_ (by decide +kernel)
    exact Keeps.rfl
  · refine Keeps.setFld ?_ (by decide +kernel)
    exact Keeps.rfl

def State.failDiverged_touch : Nat := touchSet [] [.HQ_GRP_DIVERGED, .HQ_GRP_SHARD] ||| State.log_touch

theorem State.failDiverged_keeps (sh : ℕ) (records : List Byte) (answers : List GroupAns) (s : State) : Keeps
    State.failDiverged_touch s (State.failDiverged sh records answers s) := by
  unfold State.failDiverged
  refine Keeps.forEach _ _ (fun a1 t1 => ?_) ?_
  · split
    · refine Keeps.bump ?_ (by decide +kernel)
      refine Keeps.after ?_ (State.log_keeps ..) (by decide +kernel)
      refine Keeps.after ?_ (State.setReplica_keeps ..) (by decide +kernel)
      exact Keeps.rfl
    · exact Keeps.rfl
  · exact Keeps.rfl

def State.compareCopies_touch : Nat := touchSet [.hq] [] ||| State.failDiverged_touch

theorem State.compareCopies_keeps (g : GroupJob) (records : List Byte) (s : State) : Keeps State.compareCopies_touch s
    (State.compareCopies g records s) := by
  unfold State.compareCopies
  extract_lets x1 x2 x3 x4 x5
  refine Keeps.hq ?_ (by decide +kernel)
  refine Keeps.after ?_ (State.failDiverged_keeps ..) (by decide +kernel)
  exact Keeps.rfl

def State.dropGroup_touch : Nat := touchSet [.hq] []

theorem State.dropGroup_keeps (seq : ℕ) (s : State) : Keeps State.dropGroup_touch s (State.dropGroup seq s) := by
  unfold State.dropGroup
  refine Keeps.hq ?_ (by decide +kernel)
  exact Keeps.rfl

def State.dropJob_touch : Nat := touchSet [.idx] []

theorem State.dropJob_keeps (seq : ℕ) (s : State) : Keeps State.dropJob_touch s (State.dropJob seq s) := by
  unfold State.dropJob
  refine Keeps.idx ?_ (by decide +kernel)
  exact Keeps.rfl

def State.dropKept_touch : Nat := touchSet [.idx] []

theorem State.dropKept_keeps (key : W64) (s : State) : Keeps State.dropKept_touch s (State.dropKept key s) := by
  unfold State.dropKept
  refine Keeps.idx ?_ (by decide +kernel)
  exact Keeps.rfl

def State.dropLease_touch : Nat := touchSet [.ten] []

theorem State.dropLease_keeps (key : W64) (s : State) : Keeps State.dropLease_touch s (State.dropLease key s) := by
  unfold State.dropLease
  refine Keeps.ten ?_ (by decide +kernel)
  exact Keeps.rfl

def State.dropReserved_touch : Nat := touchSet [] [.TN_QUOTA_USED]

theorem State.dropReserved_keeps (j : UpdJob) (s : State) : Keeps State.dropReserved_touch s (State.dropReserved j s) :=
    by
  unfold State.dropReserved
  refine Keeps.forEach _ _ (fun a1 t1 => ?_) ?_
  · refine Keeps.after ?_ (State.dropCharge_keeps ..) (by decide +kernel)
    exact Keeps.rfl
  · exact Keeps.rfl

def State.releaseLease_touch : Nat := State.sendLease_touch

theorem State.releaseLease_keeps (key : W64) (s : State) : Keeps State.releaseLease_touch s (State.releaseLease key s)
    := by
  unfold State.releaseLease
  split
  · refine Keeps.after ?_ (State.dropLease_keeps ..) (by decide +kernel)
    refine Keeps.after ?_ (State.sendLease_keeps ..) (by decide +kernel)
    exact Keeps.rfl
  · exact Keeps.rfl

def State.fillGap_touch : Nat := touchSet [.idx] []

theorem State.fillGap_keeps (n : NewSlot) (s : State) : Keeps State.fillGap_touch s (State.fillGap n s) := by
  unfold State.fillGap
  refine Keeps.ite ?_ ?_
  · exact Keeps.rfl
  · refine Keeps.after ?_ (State.modBlock_keeps ..) (by decide +kernel)
    exact Keeps.rfl

def State.rollback_touch : Nat := touchSet [] [.HQ_UPD_ROLLBACK] ||| State.log_touch ||| State.tombstone_touch

theorem State.rollback_keeps (slots : List (ℕ × ℕ)) (s : State) : Keeps State.rollback_touch s (State.rollback slots s)
    := by
  unfold State.rollback
  extract_lets x1 x2 x3
  refine Keeps.ite ?_ ?_
  · refine Keeps.forEach _ _ (fun a1 t1 => ?_) ?_
    · refine Keeps.after ?_ (State.tombstone_keeps ..) (by decide +kernel)
      exact Keeps.rfl
    · exact Keeps.rfl
  · refine Keeps.after ?_ (State.log_keeps ..) (by decide +kernel)
    refine Keeps.bump ?_ (by decide +kernel)
    refine Keeps.forEach _ _ (fun a1 t1 => ?_) ?_
    · refine Keeps.after ?_ (State.tombstone_keeps ..) (by decide +kernel)
      exact Keeps.rfl
    · exact Keeps.rfl

def State.undoJob_touch : Nat := touchSet [.fl] [] ||| State.rollback_touch ||| State.releaseRef_touch

theorem State.undoJob_keeps (j : UpdJob) (s : State) : Keeps State.undoJob_touch s (State.undoJob j s) := by
  unfold State.undoJob
  extract_lets x1 x2 x3 x4 x5
  refine Keeps.after ?_ (State.releaseRef_keeps ..) (by decide +kernel)
  refine Keeps.after ?_ (State.dropJob_keeps ..) (by decide +kernel)
  refine Keeps.fl ?_ (by decide +kernel)
  refine Keeps.after ?_ (State.rollback_keeps ..) (by decide +kernel)
  refine Keeps.forEach _ _ (fun a1 t1 => ?_) ?_
  · refine Keeps.after ?_ (State.fillGap_keeps ..) (by decide +kernel)
    exact Keeps.rfl
  · refine Keeps.after ?_ (State.dropReserved_keeps ..) (by decide +kernel)
    exact Keeps.rfl

def State.undoKept_touch : Nat := State.rollback_touch ||| State.releaseRef_touch

theorem State.undoKept_keeps (key : W64) (s : State) : Keeps State.undoKept_touch s (State.undoKept key s) := by
  unfold State.undoKept
  refine Keeps.forEach _ _ (fun a1 t1 => ?_) ?_
  · extract_lets x1 x2 x3 x4 x5 x6 x7
    refine Keeps.idx ?_ (by decide +kernel)
    refine Keeps.forEach _ _ (fun a2 t2 => ?_) ?_
    · refine Keeps.after ?_ (State.releaseRef_keeps ..) (by decide +kernel)
      exact Keeps.rfl
    · refine Keeps.idx ?_ (by decide +kernel)
      refine Keeps.after ?_ (State.rollback_keeps ..) (by decide +kernel)
      exact Keeps.rfl
  · exact Keeps.rfl

def State.endGroup_touch : Nat := touchSet [.ten] [] ||| State.finish_touch ||| State.undoJob_touch

theorem State.endGroup_keeps (g : GroupJob) (r : Res) (s : State) : Keeps State.endGroup_touch s (State.endGroup g r s)
    := by
  unfold State.endGroup
  extract_lets x1 x2 x3 x4 x5 x6 x7
  refine Keeps.after ?_ (State.finish_keeps ..) (by decide +kernel)
  refine Keeps.ite ?_ ?_
  · split
    · refine Keeps.after ?_ (State.signal_keeps ..) (by decide +kernel)
      refine Keeps.after ?_ (State.dropGroup_keeps ..) (by decide +kernel)
      refine Keeps.after ?_ (State.releaseLease_keeps ..) (by decide +kernel)
      refine Keeps.ite ?_ ?_
      · refine Keeps.after ?_ (State.dropKept_keeps ..) (by decide +kernel)
        refine Keeps.ite ?_ ?_
        · split
          · refine Keeps.after ?_ (State.undoJob_keeps ..) (by decide +kernel)
            refine Keeps.ite ?_ ?_
            · exact Keeps.rfl
            · refine Keeps.ite ?_ ?_
              · refine Keeps.forEach _ _ (fun a1 t1 => ?_) ?_
                · beta_reduce
                  refine Keeps.after ?_ (State.sendGauntlet_keeps ..) (by decide +kernel)
                  exact Keeps.rfl
                · exact Keeps.rfl
              · refine Keeps.ite ?_ ?_
                · refine Keeps.forEach _ _ (fun a1 t1 => ?_) ?_
                  · beta_reduce
                    refine Keeps.after ?_ (State.sendGauntlet_keeps ..) (by decide +kernel)
                    exact Keeps.rfl
                  · exact Keeps.rfl
                · exact Keeps.rfl
          · refine Keeps.ite ?_ ?_
            · exact Keeps.rfl
            · refine Keeps.ite ?_ ?_
              · refine Keeps.forEach _ _ (fun a1 t1 => ?_) ?_
                · beta_reduce
                  refine Keeps.after ?_ (State.sendGauntlet_keeps ..) (by decide +kernel)
                  exact Keeps.rfl
                · exact Keeps.rfl
              · refine Keeps.ite ?_ ?_
                · refine Keeps.forEach _ _ (fun a1 t1 => ?_) ?_
                  · beta_reduce
                    refine Keeps.after ?_ (State.sendGauntlet_keeps ..) (by decide +kernel)
                    exact Keeps.rfl
                  · exact Keeps.rfl
                · exact Keeps.rfl
        · refine Keeps.ite ?_ ?_
          · exact Keeps.rfl
          · refine Keeps.ite ?_ ?_
            · refine Keeps.forEach _ _ (fun a1 t1 => ?_) ?_
              · beta_reduce
                refine Keeps.after ?_ (State.sendGauntlet_keeps ..) (by decide +kernel)
                exact Keeps.rfl
              · exact Keeps.rfl
            · refine Keeps.ite ?_ ?_
              · refine Keeps.forEach _ _ (fun a1 t1 => ?_) ?_
                · beta_reduce
                  refine Keeps.after ?_ (State.sendGauntlet_keeps ..) (by decide +kernel)
                  exact Keeps.rfl
                · exact Keeps.rfl
              · exact Keeps.rfl
      · refine Keeps.after ?_ (State.undoKept_keeps ..) (by decide +kernel)
        refine Keeps.ite ?_ ?_
        · split
          · refine Keeps.after ?_ (State.undoJob_keeps ..) (by decide +kernel)
            refine Keeps.ite ?_ ?_
            · exact Keeps.rfl
            · refine Keeps.ite ?_ ?_
              · refine Keeps.forEach _ _ (fun a1 t1 => ?_) ?_
                · beta_reduce
                  refine Keeps.after ?_ (State.sendGauntlet_keeps ..) (by decide +kernel)
                  exact Keeps.rfl
                · exact Keeps.rfl
              · refine Keeps.ite ?_ ?_
                · refine Keeps.forEach _ _ (fun a1 t1 => ?_) ?_
                  · beta_reduce
                    refine Keeps.after ?_ (State.sendGauntlet_keeps ..) (by decide +kernel)
                    exact Keeps.rfl
                  · exact Keeps.rfl
                · exact Keeps.rfl
          · refine Keeps.ite ?_ ?_
            · exact Keeps.rfl
            · refine Keeps.ite ?_ ?_
              · refine Keeps.forEach _ _ (fun a1 t1 => ?_) ?_
                · beta_reduce
                  refine Keeps.after ?_ (State.sendGauntlet_keeps ..) (by decide +kernel)
                  exact Keeps.rfl
                · exact Keeps.rfl
              · refine Keeps.ite ?_ ?_
                · refine Keeps.forEach _ _ (fun a1 t1 => ?_) ?_
                  · beta_reduce
                    refine Keeps.after ?_ (State.sendGauntlet_keeps ..) (by decide +kernel)
                    exact Keeps.rfl
                  · exact Keeps.rfl
                · exact Keeps.rfl
        · refine Keeps.ite ?_ ?_
          · exact Keeps.rfl
          · refine Keeps.ite ?_ ?_
            · refine Keeps.forEach _ _ (fun a1 t1 => ?_) ?_
              · beta_reduce
                refine Keeps.after ?_ (State.sendGauntlet_keeps ..) (by decide +kernel)
                exact Keeps.rfl
              · exact Keeps.rfl
            · refine Keeps.ite ?_ ?_
              · refine Keeps.forEach _ _ (fun a1 t1 => ?_) ?_
                · beta_reduce
                  refine Keeps.after ?_ (State.sendGauntlet_keeps ..) (by decide +kernel)
                  exact Keeps.rfl
                · exact Keeps.rfl
              · exact Keeps.rfl
    · refine Keeps.after ?_ (State.dropGroup_keeps ..) (by decide +kernel)
      refine Keeps.after ?_ (State.releaseLease_keeps ..) (by decide +kernel)
      refine Keeps.ite ?_ ?_
      · refine Keeps.after ?_ (State.dropKept_keeps ..) (by decide +kernel)
        refine Keeps.ite ?_ ?_
        · split
          · refine Keeps.after ?_ (State.undoJob_keeps ..) (by decide +kernel)
            refine Keeps.ite ?_ ?_
            · exact Keeps.rfl
            · refine Keeps.ite ?_ ?_
              · refine Keeps.forEach _ _ (fun a1 t1 => ?_) ?_
                · beta_reduce
                  refine Keeps.after ?_ (State.sendGauntlet_keeps ..) (by decide +kernel)
                  exact Keeps.rfl
                · exact Keeps.rfl
              · refine Keeps.ite ?_ ?_
                · refine Keeps.forEach _ _ (fun a1 t1 => ?_) ?_
                  · beta_reduce
                    refine Keeps.after ?_ (State.sendGauntlet_keeps ..) (by decide +kernel)
                    exact Keeps.rfl
                  · exact Keeps.rfl
                · exact Keeps.rfl
          · refine Keeps.ite ?_ ?_
            · exact Keeps.rfl
            · refine Keeps.ite ?_ ?_
              · refine Keeps.forEach _ _ (fun a1 t1 => ?_) ?_
                · beta_reduce
                  refine Keeps.after ?_ (State.sendGauntlet_keeps ..) (by decide +kernel)
                  exact Keeps.rfl
                · exact Keeps.rfl
              · refine Keeps.ite ?_ ?_
                · refine Keeps.forEach _ _ (fun a1 t1 => ?_) ?_
                  · beta_reduce
                    refine Keeps.after ?_ (State.sendGauntlet_keeps ..) (by decide +kernel)
                    exact Keeps.rfl
                  · exact Keeps.rfl
                · exact Keeps.rfl
        · refine Keeps.ite ?_ ?_
          · exact Keeps.rfl
          · refine Keeps.ite ?_ ?_
            · refine Keeps.forEach _ _ (fun a1 t1 => ?_) ?_
              · beta_reduce
                refine Keeps.after ?_ (State.sendGauntlet_keeps ..) (by decide +kernel)
                exact Keeps.rfl
              · exact Keeps.rfl
            · refine Keeps.ite ?_ ?_
              · refine Keeps.forEach _ _ (fun a1 t1 => ?_) ?_
                · beta_reduce
                  refine Keeps.after ?_ (State.sendGauntlet_keeps ..) (by decide +kernel)
                  exact Keeps.rfl
                · exact Keeps.rfl
              · exact Keeps.rfl
      · refine Keeps.after ?_ (State.undoKept_keeps ..) (by decide +kernel)
        refine Keeps.ite ?_ ?_
        · split
          · refine Keeps.after ?_ (State.undoJob_keeps ..) (by decide +kernel)
            refine Keeps.ite ?_ ?_
            · exact Keeps.rfl
            · refine Keeps.ite ?_ ?_
              · refine Keeps.forEach _ _ (fun a1 t1 => ?_) ?_
                · beta_reduce
                  refine Keeps.after ?_ (State.sendGauntlet_keeps ..) (by decide +kernel)
                  exact Keeps.rfl
                · exact Keeps.rfl
              · refine Keeps.ite ?_ ?_
                · refine Keeps.forEach _ _ (fun a1 t1 => ?_) ?_
                  · beta_reduce
                    refine Keeps.after ?_ (State.sendGauntlet_keeps ..) (by decide +kernel)
                    exact Keeps.rfl
                  · exact Keeps.rfl
                · exact Keeps.rfl
          · refine Keeps.ite ?_ ?_
            · exact Keeps.rfl
            · refine Keeps.ite ?_ ?_
              · refine Keeps.forEach _ _ (fun a1 t1 => ?_) ?_
                · beta_reduce
                  refine Keeps.after ?_ (State.sendGauntlet_keeps ..) (by decide +kernel)
                  exact Keeps.rfl
                · exact Keeps.rfl
              · refine Keeps.ite ?_ ?_
                · refine Keeps.forEach _ _ (fun a1 t1 => ?_) ?_
                  · beta_reduce
                    refine Keeps.after ?_ (State.sendGauntlet_keeps ..) (by decide +kernel)
                    exact Keeps.rfl
                  · exact Keeps.rfl
                · exact Keeps.rfl
        · refine Keeps.ite ?_ ?_
          · exact Keeps.rfl
          · refine Keeps.ite ?_ ?_
            · refine Keeps.forEach _ _ (fun a1 t1 => ?_) ?_
              · beta_reduce
                refine Keeps.after ?_ (State.sendGauntlet_keeps ..) (by decide +kernel)
                exact Keeps.rfl
              · exact Keeps.rfl
            · refine Keeps.ite ?_ ?_
              · refine Keeps.forEach _ _ (fun a1 t1 => ?_) ?_
                · beta_reduce
                  refine Keeps.after ?_ (State.sendGauntlet_keeps ..) (by decide +kernel)
                  exact Keeps.rfl
                · exact Keeps.rfl
              · exact Keeps.rfl
  · refine Keeps.after ?_ (State.dropGroup_keeps ..) (by decide +kernel)
    refine Keeps.after ?_ (State.releaseLease_keeps ..) (by decide +kernel)
    refine Keeps.ite ?_ ?_
    · refine Keeps.after ?_ (State.dropKept_keeps ..) (by decide +kernel)
      refine Keeps.ite ?_ ?_
      · split
        · refine Keeps.after ?_ (State.undoJob_keeps ..) (by decide +kernel)
          refine Keeps.ite ?_ ?_
          · exact Keeps.rfl
          · refine Keeps.ite ?_ ?_
            · refine Keeps.forEach _ _ (fun a1 t1 => ?_) ?_
              · beta_reduce
                refine Keeps.after ?_ (State.sendGauntlet_keeps ..) (by decide +kernel)
                exact Keeps.rfl
              · exact Keeps.rfl
            · refine Keeps.ite ?_ ?_
              · refine Keeps.forEach _ _ (fun a1 t1 => ?_) ?_
                · beta_reduce
                  refine Keeps.after ?_ (State.sendGauntlet_keeps ..) (by decide +kernel)
                  exact Keeps.rfl
                · exact Keeps.rfl
              · exact Keeps.rfl
        · refine Keeps.ite ?_ ?_
          · exact Keeps.rfl
          · refine Keeps.ite ?_ ?_
            · refine Keeps.forEach _ _ (fun a1 t1 => ?_) ?_
              · beta_reduce
                refine Keeps.after ?_ (State.sendGauntlet_keeps ..) (by decide +kernel)
                exact Keeps.rfl
              · exact Keeps.rfl
            · refine Keeps.ite ?_ ?_
              · refine Keeps.forEach _ _ (fun a1 t1 => ?_) ?_
                · beta_reduce
                  refine Keeps.after ?_ (State.sendGauntlet_keeps ..) (by decide +kernel)
                  exact Keeps.rfl
                · exact Keeps.rfl
              · exact Keeps.rfl
      · refine Keeps.ite ?_ ?_
        · exact Keeps.rfl
        · refine Keeps.ite ?_ ?_
          · refine Keeps.forEach _ _ (fun a1 t1 => ?_) ?_
            · beta_reduce
              refine Keeps.after ?_ (State.sendGauntlet_keeps ..) (by decide +kernel)
              exact Keeps.rfl
            · exact Keeps.rfl
          · refine Keeps.ite ?_ ?_
            · refine Keeps.forEach _ _ (fun a1 t1 => ?_) ?_
              · beta_reduce
                refine Keeps.after ?_ (State.sendGauntlet_keeps ..) (by decide +kernel)
                exact Keeps.rfl
              · exact Keeps.rfl
            · exact Keeps.rfl
    · refine Keeps.after ?_ (State.undoKept_keeps ..) (by decide +kernel)
      refine Keeps.ite ?_ ?_
      · split
        · refine Keeps.after ?_ (State.undoJob_keeps ..) (by decide +kernel)
          refine Keeps.ite ?_ ?_
          · exact Keeps.rfl
          · refine Keeps.ite ?_ ?_
            · refine Keeps.forEach _ _ (fun a1 t1 => ?_) ?_
              · beta_reduce
                refine Keeps.after ?_ (State.sendGauntlet_keeps ..) (by decide +kernel)
                exact Keeps.rfl
              · exact Keeps.rfl
            · refine Keeps.ite ?_ ?_
              · refine Keeps.forEach _ _ (fun a1 t1 => ?_) ?_
                · beta_reduce
                  refine Keeps.after ?_ (State.sendGauntlet_keeps ..) (by decide +kernel)
                  exact Keeps.rfl
                · exact Keeps.rfl
              · exact Keeps.rfl
        · refine Keeps.ite ?_ ?_
          · exact Keeps.rfl
          · refine Keeps.ite ?_ ?_
            · refine Keeps.forEach _ _ (fun a1 t1 => ?_) ?_
              · beta_reduce
                refine Keeps.after ?_ (State.sendGauntlet_keeps ..) (by decide +kernel)
                exact Keeps.rfl
              · exact Keeps.rfl
            · refine Keeps.ite ?_ ?_
              · refine Keeps.forEach _ _ (fun a1 t1 => ?_) ?_
                · beta_reduce
                  refine Keeps.after ?_ (State.sendGauntlet_keeps ..) (by decide +kernel)
                  exact Keeps.rfl
                · exact Keeps.rfl
              · exact Keeps.rfl
      · refine Keeps.ite ?_ ?_
        · exact Keeps.rfl
        · refine Keeps.ite ?_ ?_
          · refine Keeps.forEach _ _ (fun a1 t1 => ?_) ?_
            · beta_reduce
              refine Keeps.after ?_ (State.sendGauntlet_keeps ..) (by decide +kernel)
              exact Keeps.rfl
            · exact Keeps.rfl
          · refine Keeps.ite ?_ ?_
            · refine Keeps.forEach _ _ (fun a1 t1 => ?_) ?_
              · beta_reduce
                refine Keeps.after ?_ (State.sendGauntlet_keeps ..) (by decide +kernel)
                exact Keeps.rfl
              · exact Keeps.rfl
            · exact Keeps.rfl

def State.endGroupSearch_touch : Nat := touchSet [] [.HQ_GRP_MISSING, .SE_NAN] ||| State.endGroup_touch |||
  State.noteSelect_touch

theorem State.endGroupSearch_keeps (g : GroupJob) (s : State) : Keeps State.endGroupSearch_touch s (State.endGroupSearch
    g s) := by
  unfold State.endGroupSearch
  extract_lets x1 x2 x3 x4 x5 x6 x7 x8 x9
  refine Keeps.ite ?_ ?_
  · refine Keeps.after ?_ (State.endGroup_keeps ..) (by decide +kernel)
    exact Keeps.rfl
  · refine Keeps.ite ?_ ?_
    · refine Keeps.after ?_ (State.endGroup_keeps ..) (by decide +kernel)
      exact Keeps.rfl
    · split
      extract_lets x10 x11 x12 x13 x14
      refine Keeps.after ?_ (State.endGroup_keeps ..) (by decide +kernel)
      refine Keeps.bump ?_ (by decide +kernel)
      refine Keeps.after ?_ (State.noteSelect_keeps ..) (by decide +kernel)
      refine Keeps.after ?_ (State.noteSelect_keeps ..) (by decide +kernel)
      refine Keeps.after ?_ (State.noteNans_keeps ..) (by decide +kernel)
      exact Keeps.rfl

def State.endGroupUpdate_touch : Nat := touchSet [] [.HQ_UPD_CMDS] ||| State.endGroup_touch |||
  State.compareCopies_touch

theorem State.endGroupUpdate_keeps (g : GroupJob) (s : State) : Keeps State.endGroupUpdate_touch s (State.endGroupUpdate
    g s) := by
  unfold State.endGroupUpdate
  refine Keeps.ite ?_ ?_
  · refine Keeps.after ?_ (State.endGroup_keeps ..) (by decide +kernel)
    exact Keeps.rfl
  · extract_lets x1
    clear_value x1
    split
    · refine Keeps.after ?_ (State.endGroup_keeps ..) (by decide +kernel)
      exact Keeps.rfl
    · extract_lets x1 x2
      refine Keeps.after ?_ (State.endGroup_keeps ..) (by decide +kernel)
      refine Keeps.ite ?_ ?_
      · refine Keeps.after ?_ (State.compareCopies_keeps ..) (by decide +kernel)
        refine Keeps.after ?_ (State.failDiverged_keeps ..) (by decide +kernel)
        exact Keeps.rfl
      · refine Keeps.bump ?_ (by decide +kernel)
        refine Keeps.after ?_ (State.compareCopies_keeps ..) (by decide +kernel)
        refine Keeps.after ?_ (State.failDiverged_keeps ..) (by decide +kernel)
        exact Keeps.rfl

def State.park_touch : Nat := State.sendLease_touch

theorem State.park_keeps (g : GroupJob) (s : State) : Keeps State.park_touch s (State.park g s) := by
  unfold State.park
  split
  · refine Keeps.ite ?_ ?_
    · extract_lets x1 x2 x3
      refine Keeps.after ?_ (State.setLease_keeps ..) (by decide +kernel)
      refine Keeps.after ?_ (State.sendLease_keeps ..) (by decide +kernel)
      refine Keeps.after ?_ (State.post_keeps ..) (by decide +kernel)
      exact Keeps.rfl
    · exact Keeps.rfl
  · exact Keeps.rfl

def State.setGroup_touch : Nat := touchSet [.hq] []

theorem State.setGroup_keeps (g : GroupJob) (s : State) : Keeps State.setGroup_touch s (State.setGroup g s) := by
  unfold State.setGroup
  refine Keeps.hq ?_ (by decide +kernel)
  exact Keeps.rfl

def State.setJob_touch : Nat := touchSet [.idx] []

theorem State.setJob_keeps (j : UpdJob) (s : State) : Keeps State.setJob_touch s (State.setJob j s) := by
  unfold State.setJob
  refine Keeps.idx ?_ (by decide +kernel)
  exact Keeps.rfl

def State.settleGroup_touch : Nat := State.endGroupSearch_touch ||| State.endGroupUpdate_touch

theorem State.settleGroup_keeps (seq : ℕ) (s : State) : Keeps State.settleGroup_touch s (State.settleGroup seq s) := by
  unfold State.settleGroup
  split
  · exact Keeps.rfl
  · refine Keeps.ite ?_ ?_
    · refine Keeps.ite ?_ ?_
      · refine Keeps.ite ?_ ?_
        · refine Keeps.after ?_ (State.endGroupSearch_keeps ..) (by decide +kernel)
          exact Keeps.rfl
        · refine Keeps.after ?_ (State.endGroupUpdate_keeps ..) (by decide +kernel)
          exact Keeps.rfl
      · refine Keeps.after ?_ (State.claim_keeps ..) (by decide +kernel)
        exact Keeps.rfl
    · exact Keeps.rfl

def State.takeAnswer_touch : Nat := State.settleGroup_touch

theorem State.takeAnswer_keeps (seq : ℕ) (a : GroupAns) (s : State) : Keeps State.takeAnswer_touch s (State.takeAnswer
    seq a s) := by
  unfold State.takeAnswer
  split
  · exact Keeps.rfl
  · extract_lets x1 x2
    refine Keeps.ite ?_ ?_
    · refine Keeps.after ?_ (State.claim_keeps ..) (by decide +kernel)
      refine Keeps.after ?_ (State.settleGroup_keeps ..) (by decide +kernel)
      refine Keeps.after ?_ (State.setGroup_keeps ..) (by decide +kernel)
      exact Keeps.rfl
    · refine Keeps.after ?_ (State.settleGroup_keeps ..) (by decide +kernel)
      refine Keeps.after ?_ (State.setGroup_keeps ..) (by decide +kernel)
      exact Keeps.rfl

end Sys2Proof.Machine
end

