-- ==== Sys2Proof/Laws/KeepEncode.lean ====
section
/-! SUPPORT. What each operation of Machine/Encode.lean can change. -/

namespace Sys2Proof.Machine

set_option Elab.async false

def State.loadMatrix_touch : Nat := touchSet [.qry] [.PJ_MAT_LOADS]

theorem State.loadMatrix_keeps (die : ℕ) (k : ℕ) (s : State) : Keeps State.loadMatrix_touch s (State.loadMatrix die k s)
    := by
  unfold State.loadMatrix
  refine Keeps.ite ?_ ?_
  · refine Keeps.qry ?_ (by decide +kernel)
    exact Keeps.rfl
  · refine Keeps.bump ?_ (by decide +kernel)
    refine Keeps.qry ?_ (by decide +kernel)
    exact Keeps.rfl

def State.encCode_touch : Nat := touchSet [] [.PJ_BUSY_CYC, .PJ_SIGN_NAN] ||| State.loadMatrix_touch

theorem State.encCode_keeps (die : ℕ) (k : ℕ) (v : List (BitVec 16)) (s : State) : Keeps2 State.encCode_touch s
    (State.encCode die k v s) := by
  unfold State.encCode
  extract_lets x1 x2
  refine Keeps2.of ?_
  refine Keeps.bump ?_ (by decide +kernel)
  refine Keeps.bump ?_ (by decide +kernel)
  refine Keeps.after ?_ (State.loadMatrix_keeps ..) (by decide +kernel)
  exact Keeps.rfl

def State.takeDraw_touch : Nat := touchSet [.idx] []

theorem State.takeDraw_keeps (lane : ℕ) (key : BitVec 32) (s : State) : Keeps2 State.takeDraw_touch s (State.takeDraw
    lane key s) := by
  unfold State.takeDraw
  extract_lets x1 x2
  refine Keeps2.of ?_
  refine Keeps.idx ?_ (by decide +kernel)
  exact Keeps.rfl

def State.roundAll_touch : Nat := touchSet [.idx] []

theorem State.roundAll_keeps {α : Type} {β : Type} (lane : ℕ → ℕ) (key : BitVec 32) (f : ℕ → α → BitVec 16 → β) (xs :
    List α) (s : State) : Keeps2 State.roundAll_touch s (State.roundAll lane key f xs s) := by
  unfold State.roundAll
  refine Keeps2.foldl _ _ (fun p1 a1 => ?_) ?_
  · extract_lets x1
    refine Keeps2.of ?_
    refine Keeps.after ?_ (State.takeDraw_keeps ..) (by decide +kernel)
    exact Keeps.rfl
  · exact Keeps.rfl

def State.encQuery_touch : Nat := touchSet [.idx] [.PJ_BUSY_CYC, .PJ_CLAMP_QUERY, .PJ_CLAMP_USCALE, .PJ_SR_DRAWS]

theorem State.encQuery_keeps (die : ℕ) (k : ℕ) (key : BitVec 32) (v : List (BitVec 16)) (s : State) : Keeps2
    State.encQuery_touch s (State.encQuery die k key v s) := by
  unfold State.encQuery
  extract_lets x1 x2
  split
  extract_lets x3 x4 x5
  refine Keeps2.of ?_
  refine Keeps.bump ?_ (by decide +kernel)
  refine Keeps.bump ?_ (by decide +kernel)
  refine Keeps.bump ?_ (by decide +kernel)
  refine Keeps.bump ?_ (by decide +kernel)
  refine Keeps.after ?_ (State.roundAll_keeps ..) (by decide +kernel)
  exact Keeps.rfl

def State.encRecord_touch : Nat := touchSet [.idx] [.PJ_BUSY_CYC, .PJ_CLAMP_LEVEL, .PJ_CLAMP_TSCALE, .PJ_SR_DRAWS]

theorem State.encRecord_keeps (die : ℕ) (k : ℕ) (key : BitVec 32) (v : List (BitVec 16)) (s : State) : Keeps2
    State.encRecord_touch s (State.encRecord die k key v s) := by
  unfold State.encRecord
  extract_lets x1 x2 x3 x4 x5 x6 x7 x8 x9
  refine Keeps2.of ?_
  refine Keeps.bump ?_ (by decide +kernel)
  refine Keeps.bump ?_ (by decide +kernel)
  refine Keeps.bump ?_ (by decide +kernel)
  refine Keeps.bump ?_ (by decide +kernel)
  refine Keeps.after ?_ (State.roundAll_keeps ..) (by decide +kernel)
  exact Keeps.rfl

def State.resetLanes_touch : Nat := touchSet [.idx, .qry] []

theorem State.resetLanes_keeps (die : ℕ) (s : State) : Keeps State.resetLanes_touch s (State.resetLanes die s) := by
  unfold State.resetLanes
  extract_lets x1 x2 x3
  refine Keeps.update (t := s) ?_ rfl rfl
    (by intro p hp; cases p <;> first | rfl | exact Nat.le_refl _ | exact absurd hp (by decide +kernel))
    (Nat.le_refl _) (Nat.le_refl _) (State.sound_congr rfl rfl rfl (Or.inl rfl) (Or.inl rfl))
  exact Keeps.rfl

end Sys2Proof.Machine
end

