-- ==== Sys2Proof/Laws/KeepFinish.lean ====
section
/-! SUPPORT. What each operation of Machine/Finish.lean can change. -/

namespace Sys2Proof.Machine

set_option Elab.async false

def State.clearWork_touch : Nat := State.removePairs_touch

theorem State.clearWork_keeps (q : ℕ) (s : State) : Keeps State.clearWork_touch s (State.clearWork q s) := by
  unfold State.clearWork
  extract_lets x1 x2 x3
  refine Keeps.qry ?_ (by decide +kernel)
  refine Keeps.after ?_ (State.dropLanes_keeps ..) (by decide +kernel)
  refine Keeps.after ?_ (State.removePairs_keeps ..) (by decide +kernel)
  exact Keeps.rfl

def State.closeRegion_touch : Nat := touchSet [] [.XT_RGN_CTL]

theorem State.closeRegion_keeps (x : Query) (s : State) : Keeps State.closeRegion_touch s (State.closeRegion x s) := by
  unfold State.closeRegion
  split
  · refine Keeps.ite ?_ ?_
    · refine Keeps.setFld ?_ (by decide +kernel)
      exact Keeps.rfl
    · exact Keeps.rfl
  · exact Keeps.rfl

def State.releaseTable_touch : Nat := State.signal_touch

theorem State.releaseTable_keeps (t : ℕ) (v : ℕ) (s : State) : Keeps State.releaseTable_touch s (State.releaseTable t v
    s) := by
  unfold State.releaseTable
  refine Keeps.after ?_ (State.signal_keeps ..) (by decide +kernel)
  exact Keeps.rfl

def State.dropQuery_touch : Nat := touchSet [] [.BD_GQ_NOCTX_NS, .SE_MG_STATUS, .XT_RGN_CTL] |||
  State.resumeShadows_touch

theorem State.dropQuery_keeps (q : ℕ) (s : State) : Keeps State.dropQuery_touch s (State.dropQuery q s) := by
  unfold State.dropQuery
  split
  · exact Keeps.rfl
  · extract_lets x1 x2 x3
    refine Keeps.after ?_ (State.resumeShadows_keeps ..) (by decide +kernel)
    refine Keeps.ite ?_ ?_
    · refine Keeps.after ?_ (State.releaseTable_keeps ..) (by decide +kernel)
      refine Keeps.after ?_ (State.releaseRef_keeps ..) (by decide +kernel)
      refine Keeps.after ?_ (State.closeRegion_keeps ..) (by decide +kernel)
      refine Keeps.forEach _ _ (fun a1 t1 => ?_) ?_
      · refine Keeps.after ?_ (State.noteMerge_keeps ..) (by decide +kernel)
        exact Keeps.rfl
      · refine Keeps.after ?_ (State.delQuery_keeps ..) (by decide +kernel)
        refine Keeps.after ?_ (State.clearWork_keeps ..) (by decide +kernel)
        exact Keeps.rfl
    · refine Keeps.after ?_ (State.releaseRef_keeps ..) (by decide +kernel)
      refine Keeps.after ?_ (State.closeRegion_keeps ..) (by decide +kernel)
      refine Keeps.forEach _ _ (fun a1 t1 => ?_) ?_
      · refine Keeps.after ?_ (State.noteMerge_keeps ..) (by decide +kernel)
        exact Keeps.rfl
      · refine Keeps.after ?_ (State.delQuery_keeps ..) (by decide +kernel)
        refine Keeps.after ?_ (State.clearWork_keeps ..) (by decide +kernel)
        exact Keeps.rfl

def State.setShadow_touch : Nat := touchSet [.qry] []

theorem State.setShadow_keeps (pn : ℕ) (x : Shadow) (s : State) : Keeps State.setShadow_touch s (State.setShadow pn x s)
    := by
  unfold State.setShadow
  refine Keeps.qry ?_ (by decide +kernel)
  exact Keeps.rfl

def State.logShadow_touch : Nat := touchSet [.qry] [.TN_SHADOW_DONE, .TN_SHADOW_DROPPED, .TN_SHADOW_K_SUM,
  .TN_SHADOW_LOST, .TN_SHADOW_OVERLAP_SUM]

theorem State.logShadow_keeps (x : Query) (status : ℕ) (recs : List Byte) (count : ℕ) (s : State) : Keeps
    State.logShadow_touch s (State.logShadow x status recs count s) := by
  unfold State.logShadow
  extract_lets x1 x2 x3 x4 x5 x6 x7 x8 x9
  refine Keeps.ite ?_ ?_
  · refine Keeps.bump ?_ (by decide +kernel)
    refine Keeps.bump ?_ (by decide +kernel)
    refine Keeps.bump ?_ (by decide +kernel)
    refine Keeps.ite ?_ ?_
    · refine Keeps.bump ?_ (by decide +kernel)
      refine Keeps.after ?_ (State.setShadow_keeps ..) (by decide +kernel)
      exact Keeps.rfl
    · refine Keeps.after ?_ (State.setShadow_keeps ..) (by decide +kernel)
      exact Keeps.rfl
  · refine Keeps.bump ?_ (by decide +kernel)
    refine Keeps.ite ?_ ?_
    · refine Keeps.bump ?_ (by decide +kernel)
      refine Keeps.after ?_ (State.setShadow_keeps ..) (by decide +kernel)
      exact Keeps.rfl
    · refine Keeps.after ?_ (State.setShadow_keeps ..) (by decide +kernel)
      exact Keeps.rfl

def State.endShadow_touch : Nat := State.dropQuery_touch ||| State.logShadow_touch

theorem State.endShadow_keeps (q : ℕ) (status : ℕ) (recs : List Byte) (count : ℕ) (s : State) : Keeps
    State.endShadow_touch s (State.endShadow q status recs count s) := by
  unfold State.endShadow
  split
  · exact Keeps.rfl
  · refine Keeps.after ?_ (State.dropQuery_keeps ..) (by decide +kernel)
    refine Keeps.after ?_ (State.logShadow_keeps ..) (by decide +kernel)
    exact Keeps.rfl

def State.holdTable_touch : Nat := State.signal_touch

theorem State.holdTable_keeps (t : ℕ) (v : ℕ) (s : State) : Keeps State.holdTable_touch s (State.holdTable t v s) := by
  unfold State.holdTable
  refine Keeps.after ?_ (State.signal_keeps ..) (by decide +kernel)
  exact Keeps.rfl

def State.startShadow_touch : Nat := touchSet [] [.TN_SHADOW_SAMPLED] ||| State.postFirst_touch |||
  State.logShadow_touch

theorem State.startShadow_keeps (x : Query) (r : Res) (s : State) : Keeps State.startShadow_touch s (State.startShadow x
    r s) := by
  unfold State.startShadow
  extract_lets x1 x2 x3 x4 x5
  refine Keeps.ite ?_ ?_
  · refine Keeps.after ?_ (State.logShadow_keeps ..) (by decide +kernel)
    exact Keeps.rfl
  · refine Keeps.after ?_ (State.postFirst_keeps ..) (by decide +kernel)
    refine Keeps.after ?_ (State.setQuery_keeps ..) (by decide +kernel)
    refine Keeps.bump ?_ (by decide +kernel)
    refine Keeps.ite ?_ ?_
    · refine Keeps.after ?_ (State.holdTable_keeps ..) (by decide +kernel)
      refine Keeps.after ?_ (State.holdRef_keeps ..) (by decide +kernel)
      refine Keeps.hq ?_ (by decide +kernel)
      exact Keeps.rfl
    · refine Keeps.after ?_ (State.holdRef_keeps ..) (by decide +kernel)
      refine Keeps.hq ?_ (by decide +kernel)
      exact Keeps.rfl

def State.endQuery_touch : Nat := State.startShadow_touch ||| State.takeAnswer_touch ||| State.dropQuery_touch

theorem State.endQuery_keeps (q : ℕ) (r : Res) (s : State) : Keeps State.endQuery_touch s (State.endQuery q r s) := by
  unfold State.endQuery
  split
  · exact Keeps.rfl
  · refine Keeps.ite ?_ ?_
    · refine Keeps.after ?_ (State.endShadow_keeps ..) (by decide +kernel)
      exact Keeps.rfl
    · extract_lets x1 x2 x3 x4 x5
      refine Keeps.ite ?_ ?_
      · refine Keeps.after ?_ (State.startShadow_keeps ..) (by decide +kernel)
        subst x5
        split
        · refine Keeps.after ?_ (State.takeAnswer_keeps ..) (by decide +kernel)
          refine Keeps.after ?_ (State.dropQuery_keeps ..) (by decide +kernel)
          exact Keeps.rfl
        · refine Keeps.after ?_ (State.finish_keeps ..) (by decide +kernel)
          refine Keeps.after ?_ (State.dropQuery_keeps ..) (by decide +kernel)
          exact Keeps.rfl
      · subst x5
        split
        · refine Keeps.after ?_ (State.takeAnswer_keeps ..) (by decide +kernel)
          refine Keeps.after ?_ (State.dropQuery_keeps ..) (by decide +kernel)
          exact Keeps.rfl
        · refine Keeps.after ?_ (State.finish_keeps ..) (by decide +kernel)
          refine Keeps.after ?_ (State.dropQuery_keeps ..) (by decide +kernel)
          exact Keeps.rfl

def State.failQuery_touch : Nat := State.endQuery_touch

theorem State.failQuery_keeps (q : ℕ) (status : ℕ) (s : State) : Keeps State.failQuery_touch s (State.failQuery q status
    s) := by
  unfold State.failQuery
  refine Keeps.after ?_ (State.endQuery_keeps ..) (by decide +kernel)
  exact Keeps.rfl

def State.expireQuery_touch : Nat := touchSet [] [.TN_DL_EXPIRED] ||| State.failQuery_touch

theorem State.expireQuery_keeps (q : ℕ) (s : State) : Keeps State.expireQuery_touch s (State.expireQuery q s) := by
  unfold State.expireQuery
  split
  · exact Keeps.rfl
  · refine Keeps.after ?_ (State.failQuery_keeps ..) (by decide +kernel)
    refine Keeps.ite ?_ ?_
    · exact Keeps.rfl
    · refine Keeps.bump ?_ (by decide +kernel)
      exact Keeps.rfl

def State.finalSelect_touch : Nat := touchSet [] [.SE_MG_SHORT] ||| State.endQuery_touch ||| State.dramUncorrFree_touch

theorem State.finalSelect_keeps (q : ℕ) (kind : Kind) (row : List Elem) (s : State) : Keeps State.finalSelect_touch s
    (State.finalSelect q kind row s) := by
  unfold State.finalSelect
  split
  · exact Keeps.rfl
  · extract_lets x1 x2 x3 x4 x5 x6 x7 x8 x9 x10 x11 x12 x13
    refine Keeps.after ?_ (State.endQuery_keeps ..) (by decide +kernel)
    refine Keeps.after ?_ (State.setQuery_keeps ..) (by decide +kernel)
    refine Keeps.forEach _ _ (fun a1 t1 => ?_) ?_
    · refine Keeps.after ?_ (State.dramUncorrFree_keeps ..) (by decide +kernel)
      exact Keeps.rfl
    · refine Keeps.bump ?_ (by decide +kernel)
      refine Keeps.after ?_ (State.noteSelect_keeps ..) (by decide +kernel)
      refine Keeps.after ?_ (State.noteNans_keeps ..) (by decide +kernel)
      exact Keeps.rfl

def State.finalBinary_touch : Nat := State.finalSelect_touch

theorem State.finalBinary_keeps (q : ℕ) (s : State) : Keeps State.finalBinary_touch s (State.finalBinary q s) := by
  unfold State.finalBinary
  split
  · exact Keeps.rfl
  · refine Keeps.after ?_ (State.finalSelect_keeps ..) (by decide +kernel)
    refine Keeps.after ?_ (State.setQuery_keeps ..) (by decide +kernel)
    exact Keeps.rfl

end Sys2Proof.Machine
end

