-- ==== Sys2Proof/Laws/KeepFlashStore.lean ====
section
/-! SUPPORT. What each operation of Machine/FlashStore.lean can change. -/

namespace Sys2Proof.Machine

set_option Elab.async false

def State.answerDown_touch : Nat := touchSet [.fl] [.CF_CHANNEL_DOWN]

theorem State.answerDown_keeps (n : ℕ) (r : CandReq) (s : State) : Keeps State.answerDown_touch s (State.answerDown n r
    s) := by
  unfold State.answerDown
  refine Keeps.ite ?_ ?_
  · refine Keeps.after ?_ (State.freeGranules_keeps ..) (by decide +kernel)
    exact Keeps.rfl
  · extract_lets x1 x2
    refine Keeps.fl ?_ (by decide +kernel)
    refine Keeps.bump ?_ (by decide +kernel)
    exact Keeps.rfl

def State.programStaging_touch : Nat := touchSet [.fl] [.CF_TL_NAND_BYTES]

theorem State.programStaging_keeps (n : ℕ) (s : State) : Keeps State.programStaging_touch s (State.programStaging n s)
    := by
  unfold State.programStaging
  extract_lets x1
  refine Keeps.bump ?_ (by decide +kernel)
  refine Keeps.after ?_ (State.setChan_keeps ..) (by decide +kernel)
  exact Keeps.rfl

def State.journal_touch : Nat := touchSet [] [.CF_TL_STATUS] ||| State.programStaging_touch

theorem State.journal_keeps (n : ℕ) (p : JPay) (s : State) : Keeps State.journal_touch s (State.journal n p s) := by
  unfold State.journal
  extract_lets x1 x2 x3 x4
  refine Keeps.ite ?_ ?_
  · refine Keeps.after ?_ (State.programStaging_keeps ..) (by decide +kernel)
    refine Keeps.setFld ?_ (by decide +kernel)
    refine Keeps.after ?_ (State.setChan_keeps ..) (by decide +kernel)
    exact Keeps.rfl
  · refine Keeps.setFld ?_ (by decide +kernel)
    refine Keeps.after ?_ (State.setChan_keeps ..) (by decide +kernel)
    exact Keeps.rfl

def State.modSb_touch : Nat := touchSet [.fl] []

theorem State.modSb_keeps (n : ℕ) (sb : ℕ) (f : SBlock → SBlock) (s : State) : Keeps State.modSb_touch s (State.modSb n
    sb f s) := by
  unfold State.modSb
  refine Keeps.after ?_ (State.setChan_keeps ..) (by decide +kernel)
  exact Keeps.rfl

def State.noteFree_touch : Nat := touchSet [] [.CF_TL_STATUS]

theorem State.noteFree_keeps (n : ℕ) (s : State) : Keeps State.noteFree_touch s (State.noteFree n s) := by
  unfold State.noteFree
  extract_lets x1 x2
  refine Keeps.setFld ?_ (by decide +kernel)
  refine Keeps.setFld ?_ (by decide +kernel)
  exact Keeps.rfl

def State.openSb_touch : Nat := State.journal_touch

theorem State.openSb_keeps (n : ℕ) (sb : ℕ) (st : ℕ) (s : State) : Keeps State.openSb_touch s (State.openSb n sb st s)
    := by
  unfold State.openSb
  extract_lets x1 x2 x3
  refine Keeps.after ?_ (State.noteFree_keeps ..) (by decide +kernel)
  refine Keeps.after ?_ (State.journal_keeps ..) (by decide +kernel)
  refine Keeps.after ?_ (State.modSb_keeps ..) (by decide +kernel)
  exact Keeps.rfl

def State.target_touch : Nat := State.openSb_touch

theorem State.target_keeps (n : ℕ) (lun : ℕ) (st : ℕ) (s : State) : KeepsP State.target_touch s (State.target n lun st
    s) := by
  unfold State.target
  extract_lets x1
  split
  · refine KeepsP.some ?_
    exact Keeps.rfl
  · refine KeepsP.map _ _ (fun _ => ?_)
    refine Keeps.after ?_ (State.openSb_keeps ..) (by decide +kernel)
    exact Keeps.rfl

def State.anyTarget_touch : Nat := State.target_touch

theorem State.anyTarget_keeps (n : ℕ) (lun : ℕ) (st : ℕ) (s : State) : KeepsP State.anyTarget_touch s (State.anyTarget n
    lun st s) := by
  unfold State.anyTarget
  split
  · refine KeepsP.some ?_
    refine Keeps.after ?_ (KeepsP.get (by assumption) (State.target_keeps _ _ _ _)) (by decide +kernel)
    exact Keeps.rfl
  · refine KeepsP.findSome? _ _ (fun _ => ?_)
    refine KeepsP.after ?_ (State.target_keeps _ _ _ _) (by decide +kernel)
    exact Keeps.rfl

def State.commitOpen_touch : Nat := touchSet [.fl] []

theorem State.commitOpen_keeps (n : ℕ) (o : OpenSect) (s : State) : Keeps State.commitOpen_touch s (State.commitOpen n o
    s) := by
  unfold State.commitOpen
  extract_lets x1 x2
  refine Keeps.after ?_ (State.queueWrite_keeps ..) (by decide +kernel)
  refine Keeps.after ?_ (State.setChan_keeps ..) (by decide +kernel)
  exact Keeps.rfl

def State.useReserved_touch : Nat := touchSet [.idx] []

theorem State.useReserved_keeps (seq : ℕ) (t : ℕ) (s : State) : Keeps State.useReserved_touch s (State.useReserved seq t
    s) := by
  unfold State.useReserved
  extract_lets x1 x2
  refine Keeps.idx ?_ (by decide +kernel)
  exact Keeps.rfl

def State.openFor_touch : Nat := touchSet [.fl, .idx] [.TN_QUOTA_USED]

theorem State.openFor_keeps (r : AppendReq) (s : State) : KeepsQ State.openFor_touch s (State.openFor r s) := by
  unfold State.openFor
  extract_lets x1
  clear_value x1
  split
  · refine KeepsQ.some ?_
    exact Keeps.rfl
  · refine KeepsQ.map _ _ (fun _ => ?_)
    dsimp only
    refine Keeps.ite ?_ ?_
    · refine Keeps.after ?_ (State.useReserved_keeps ..) (by decide +kernel)
      refine Keeps.after ?_ (State.modVersion_keeps ..) (by decide +kernel)
      refine Keeps.after ?_ (State.setChan_keeps ..) (by decide +kernel)
      refine Keeps.after ?_ (State.takeLsn_keeps ..) (by decide +kernel)
      exact Keeps.rfl
    · refine Keeps.after ?_ (State.addCharge_keeps ..) (by decide +kernel)
      refine Keeps.after ?_ (State.modVersion_keeps ..) (by decide +kernel)
      refine Keeps.after ?_ (State.setChan_keeps ..) (by decide +kernel)
      refine Keeps.after ?_ (State.takeLsn_keeps ..) (by decide +kernel)
      exact Keeps.rfl

def State.writeSect_touch : Nat := State.journal_touch

theorem State.writeSect_keeps (n : ℕ) (i : ℕ) (data : List Byte) (wseqX : Option (BitVec 32)) (s : State) : Keeps
    State.writeSect_touch s (State.writeSect n i data wseqX s) := by
  unfold State.writeSect
  extract_lets x1 x2 x3
  refine Keeps.after ?_ (State.setChan_keeps ..) (by decide +kernel)
  refine Keeps.after ?_ (State.journal_keeps ..) (by decide +kernel)
  exact Keeps.rfl

def State.appendRecord_touch : Nat := State.openFor_touch ||| State.journal_touch

theorem State.appendRecord_keeps (r : AppendReq) (s : State) : Keeps State.appendRecord_touch s (State.appendRecord r s)
    := by
  unfold State.appendRecord
  split
  · exact Keeps.rfl
  · extract_lets x1 x2 x3 x4 x5 x6 x7 x8 x9 x10 x11
    refine Keeps.ite ?_ ?_
    · refine Keeps.after ?_ (State.commitOpen_keeps ..) (by decide +kernel)
      refine Keeps.after ?_ (State.setChan_keeps ..) (by decide +kernel)
      refine Keeps.after ?_ (State.journal_keeps ..) (by decide +kernel)
      refine Keeps.after ?_ (State.writeSect_keeps ..) (by decide +kernel)
      refine Keeps.after ?_ (KeepsQ.get (by assumption) (State.openFor_keeps _ _)) (by decide +kernel)
      exact Keeps.rfl
    · refine Keeps.after ?_ (State.setChan_keeps ..) (by decide +kernel)
      refine Keeps.after ?_ (State.journal_keeps ..) (by decide +kernel)
      refine Keeps.after ?_ (State.writeSect_keeps ..) (by decide +kernel)
      refine Keeps.after ?_ (KeepsQ.get (by assumption) (State.openFor_keeps _ _)) (by decide +kernel)
      exact Keeps.rfl

def State.countRead_touch : Nat := touchSet [.fl] []

theorem State.countRead_keeps (n : ℕ) (loc : ℕ) (k : ℕ) (s : State) : Keeps State.countRead_touch s (State.countRead n
    loc k s) := by
  unfold State.countRead
  refine Keeps.after ?_ (State.modSb_keeps ..) (by decide +kernel)
  exact Keeps.rfl

def State.departCh_touch : Nat := touchSet [.fl] [.CF_SVC]

theorem State.departCh_keeps (n : ℕ) (cause : ℕ) (s : State) : Keeps State.departCh_touch s (State.departCh n cause s)
    := by
  unfold State.departCh
  extract_lets x1 x2
  refine Keeps.after ?_ (State.setChan_keeps ..) (by decide +kernel)
  refine Keeps.setFld ?_ (by decide +kernel)
  refine Keeps.setFld ?_ (by decide +kernel)
  exact Keeps.rfl

def State.noteChan_touch : Nat := touchSet [.fl] [.CF_QUEUE_FULL_NS, .CF_STATUS]

theorem State.noteChan_keeps (n : ℕ) (s : State) : Keeps State.noteChan_touch s (State.noteChan n s) := by
  unfold State.noteChan
  extract_lets x1 x2
  split
  · refine Keeps.after ?_ (State.setChan_keeps ..) (by decide +kernel)
    refine Keeps.setFld ?_ (by decide +kernel)
    refine Keeps.setFld ?_ (by decide +kernel)
    exact Keeps.rfl
  · refine Keeps.bump ?_ (by decide +kernel)
    refine Keeps.after ?_ (State.setChan_keeps ..) (by decide +kernel)
    refine Keeps.setFld ?_ (by decide +kernel)
    refine Keeps.setFld ?_ (by decide +kernel)
    exact Keeps.rfl
  · refine Keeps.setFld ?_ (by decide +kernel)
    refine Keeps.setFld ?_ (by decide +kernel)
    exact Keeps.rfl

def State.downAll_touch : Nat := touchSet [] [.CF_CHANNEL_DOWN] ||| State.noteChan_touch

theorem State.downAll_keeps (n : ℕ) (s : State) : Keeps State.downAll_touch s (State.downAll n s) := by
  unfold State.downAll
  extract_lets x1 x2 x3
  refine Keeps.after ?_ (State.noteChan_keeps ..) (by decide +kernel)
  refine Keeps.forEach _ _ (fun a1 t1 => ?_) ?_
  · refine Keeps.after ?_ (State.answerDown_keeps ..) (by decide +kernel)
    exact Keeps.rfl
  · refine Keeps.after ?_ (State.setChan_keeps ..) (by decide +kernel)
    exact Keeps.rfl

def State.chFault_touch : Nat := touchSet [] [.CF_SVC] ||| State.log_touch ||| State.downAll_touch

theorem State.chFault_keeps (n : ℕ) (s : State) : Keeps State.chFault_touch s (State.chFault n s) := by
  unfold State.chFault
  refine Keeps.ite ?_ ?_
  · refine Keeps.after ?_ (State.downAll_keeps ..) (by decide +kernel)
    refine Keeps.after ?_ (State.log_keeps ..) (by decide +kernel)
    refine Keeps.after ?_ (State.departCh_keeps ..) (by decide +kernel)
    exact Keeps.rfl
  · exact Keeps.rfl

def State.powerDownCh_touch : Nat := touchSet [.fl] [.CF_SVC]

theorem State.powerDownCh_keeps (n : ℕ) (s : State) : Keeps State.powerDownCh_touch s (State.powerDownCh n s) := by
  unfold State.powerDownCh
  extract_lets x1 x2
  refine Keeps.setFld ?_ (by decide +kernel)
  refine Keeps.after ?_ (State.setChan_keeps ..) (by decide +kernel)
  exact Keeps.rfl

def State.cuffFault_touch : Nat := State.chFault_touch

theorem State.cuffFault_keeps (n : ℕ) (s : State) : Keeps State.cuffFault_touch s (State.cuffFault n s) := by
  unfold State.cuffFault
  split
  · refine Keeps.after ?_ (State.chFault_keeps ..) (by decide +kernel)
    exact Keeps.rfl
  · refine Keeps.after ?_ (State.downAll_keeps ..) (by decide +kernel)
    refine Keeps.setFld ?_ (by decide +kernel)
    exact Keeps.rfl
  · exact Keeps.rfl
  · refine Keeps.after ?_ (State.powerDownCh_keeps ..) (by decide +kernel)
    refine Keeps.after ?_ (State.downAll_keeps ..) (by decide +kernel)
    refine Keeps.after ?_ (State.log_keeps ..) (by decide +kernel)
    refine Keeps.setFld ?_ (by decide +kernel)
    exact Keeps.rfl

def State.programUnit_touch : Nat := touchSet [.fl] [.CF_TL_NAND_BYTES]

theorem State.programUnit_keeps (n : ℕ) (sb : ℕ) (unit : ℕ) (sects : Tbl Sect) (s : State) : Keeps2
    State.programUnit_touch s (State.programUnit n sb unit sects s) := by
  unfold State.programUnit
  extract_lets x1 x2
  refine Keeps2.of ?_
  refine Keeps.bump ?_ (by decide +kernel)
  refine Keeps.after ?_ (State.modSb_keeps ..) (by decide +kernel)
  exact Keeps.rfl

def State.issueCopy_touch : Nat := touchSet [] [.CF_TL_REFRESH, .CF_TL_WL_MOVES] ||| State.cuffFault_touch |||
  State.anyTarget_touch

theorem State.issueCopy_keeps (q n : Nat) (s : State) : Keeps State.issueCopy_touch s (State.issueCopy q n s) := by
  induction n generalizing s with
  | zero =>
    unfold State.issueCopy
    exact Keeps.rfl
  | succ n ih =>
    unfold State.issueCopy
    extract_lets x1
    split
    · exact Keeps.rfl
    · refine Keeps.ite ?_ ?_
      · exact Keeps.rfl
      · split
        · extract_lets x2 x3
          refine Keeps.after ?_ (ih _) (Nat.and_self _)
          refine Keeps.after ?_ (State.noteFree_keeps ..) (by decide +kernel)
          refine Keeps.ite ?_ ?_
          · refine Keeps.bump ?_ (by decide +kernel)
            refine Keeps.after ?_ (State.setChan_keeps ..) (by decide +kernel)
            exact Keeps.rfl
          · refine Keeps.ite ?_ ?_
            · refine Keeps.bump ?_ (by decide +kernel)
              refine Keeps.after ?_ (State.setChan_keeps ..) (by decide +kernel)
              exact Keeps.rfl
            · refine Keeps.after ?_ (State.setChan_keeps ..) (by decide +kernel)
              exact Keeps.rfl
        · extract_lets x2 x3 x4
          have h1 : KeepsP issueCopy_touch s x3 := by
            subst x3
            clear_value x2
            split
            · refine KeepsP.some ?_
              exact Keeps.rfl
            · refine KeepsP.after ?_ (State.anyTarget_keeps _ _ _ _) (by decide +kernel)
              exact Keeps.rfl
          clear_value x3
          split
          · refine Keeps.after ?_ (State.cuffFault_keeps ..) (by decide +kernel)
            exact Keeps.rfl
          · extract_lets x4 x5 x6 x7
            refine Keeps.after ?_ (State.setChan_keeps ..) (by decide +kernel)
            refine Keeps.after ?_ (State.programUnit_keeps ..) (by decide +kernel)
            refine Keeps.after ?_ (State.countRead_keeps ..) (by decide +kernel)
            exact KeepsP.get rfl (by assumption)

def State.beginMove_touch : Nat := State.issueCopy_touch

theorem State.beginMove_keeps (n : ℕ) (kind : ℕ) (victim : ℕ) (target : Option ℕ) (s : State) : Keeps
    State.beginMove_touch s (State.beginMove n kind victim target s) := by
  unfold State.beginMove
  extract_lets x1 x2
  refine Keeps.after ?_ (State.issueCopy_keeps ..) (by decide +kernel)
  refine Keeps.after ?_ (State.noteFree_keeps ..) (by decide +kernel)
  refine Keeps.after ?_ (State.setChan_keeps ..) (by decide +kernel)
  exact Keeps.rfl

def State.checkGc_touch : Nat := State.beginMove_touch

theorem State.checkGc_keeps (n : ℕ) (lun : ℕ) (s : State) : Keeps State.checkGc_touch s (State.checkGc n lun s) := by
  unfold State.checkGc
  extract_lets x1
  refine Keeps.ite ?_ ?_
  · exact Keeps.rfl
  · refine Keeps.ite ?_ ?_
    · split
      · refine Keeps.after ?_ (State.beginMove_keeps ..) (by decide +kernel)
        exact Keeps.rfl
      · exact Keeps.rfl
    · exact Keeps.rfl

def State.checkHealth_touch : Nat := State.chFault_touch

theorem State.checkHealth_keeps (n : ℕ) (s : State) : Keeps State.checkHealth_touch s (State.checkHealth n s) := by
  unfold State.checkHealth
  extract_lets x1 x2 x3 x4 x5 x6 x7 x8
  refine Keeps.ite ?_ ?_
  · exact Keeps.rfl
  · refine Keeps.ite ?_ ?_
    · refine Keeps.after ?_ (State.chFault_keeps ..) (by decide +kernel)
      exact Keeps.rfl
    · refine Keeps.ite ?_ ?_
      · refine Keeps.ite ?_ ?_
        · refine Keeps.after ?_ (State.log_keeps ..) (by decide +kernel)
          refine Keeps.after ?_ (State.departCh_keeps ..) (by decide +kernel)
          exact Keeps.rfl
        · refine Keeps.after ?_ (State.log_keeps ..) (by decide +kernel)
          refine Keeps.after ?_ (State.setChan_keeps ..) (by decide +kernel)
          exact Keeps.rfl
      · refine Keeps.after ?_ (State.setChan_keeps ..) (by decide +kernel)
        exact Keeps.rfl

def State.checkWear_touch : Nat := State.beginMove_touch

theorem State.checkWear_keeps (n : ℕ) (s : State) : Keeps State.checkWear_touch s (State.checkWear n s) := by
  unfold State.checkWear
  extract_lets x1 x2 x3 x4 x5 x6 x7 x8 x9 x10 x11
  refine Keeps.ite ?_ ?_
  · clear_value x10
    clear_value x11
    split
    · refine Keeps.after ?_ (State.beginMove_keeps ..) (by decide +kernel)
      refine Keeps.after ?_ (State.openSb_keeps ..) (by decide +kernel)
      refine Keeps.after ?_ (State.setChan_keeps ..) (by decide +kernel)
      exact Keeps.rfl
    · refine Keeps.after ?_ (State.setChan_keeps ..) (by decide +kernel)
      exact Keeps.rfl
  · refine Keeps.after ?_ (State.setChan_keeps ..) (by decide +kernel)
    exact Keeps.rfl

def State.closeFull_touch : Nat := touchSet [.fl] []

theorem State.closeFull_keeps (n : ℕ) (sb : ℕ) (s : State) : Keeps State.closeFull_touch s (State.closeFull n sb s) :=
    by
  unfold State.closeFull
  extract_lets x1 x2
  refine Keeps.ite ?_ ?_
  · refine Keeps.after ?_ (State.modSb_keeps ..) (by decide +kernel)
    exact Keeps.rfl
  · exact Keeps.rfl

def State.setMap_touch : Nat := touchSet [.fl] []

theorem State.setMap_keeps (n : ℕ) (unit : ℕ) (loc : ℕ) (s : State) : Keeps State.setMap_touch s (State.setMap n unit
    loc s) := by
  unfold State.setMap
  extract_lets x1 x2
  refine Keeps.after ?_ (State.setChan_keeps ..) (by decide +kernel)
  exact Keeps.rfl

def State.commitMove_touch : Nat := touchSet [] [.CF_TL_GC_MOVES] ||| State.journal_touch

theorem State.commitMove_keeps (n : ℕ) (unit : ℕ) (src : ℕ) (dst : ℕ) (s : State) : Keeps State.commitMove_touch s
    (State.commitMove n unit src dst s) := by
  unfold State.commitMove
  extract_lets x1
  refine Keeps.after ?_ (State.modSb_keeps ..) (by decide +kernel)
  refine Keeps.bump ?_ (by decide +kernel)
  refine Keeps.after ?_ (State.setMap_keeps ..) (by decide +kernel)
  refine Keeps.after ?_ (State.journal_keeps ..) (by decide +kernel)
  exact Keeps.rfl

def State.drainStaging_touch : Nat := State.programStaging_touch

theorem State.drainStaging_keeps (q n : Nat) (s : State) : Keeps State.drainStaging_touch s (State.drainStaging q n s)
    := by
  induction n generalizing s with
  | zero =>
    unfold State.drainStaging
    exact Keeps.rfl
  | succ n ih =>
    unfold State.drainStaging
    refine Keeps.ite ?_ ?_
    · refine Keeps.after ?_ (ih _) (Nat.and_self _)
      refine Keeps.after ?_ (State.programStaging_keeps ..) (by decide +kernel)
      exact Keeps.rfl
    · exact Keeps.rfl

def State.flushStaging_touch : Nat := State.drainStaging_touch

theorem State.flushStaging_keeps (n : ℕ) (s : State) : Keeps State.flushStaging_touch s (State.flushStaging n s) := by
  unfold State.flushStaging
  refine Keeps.after ?_ (State.drainStaging_keeps ..) (by decide +kernel)
  exact Keeps.rfl

def State.setStage_touch : Nat := touchSet [.freeCount] [.CF_TL_STATUS]

theorem State.setStage_keeps (n : ℕ) (s : State) : Keeps State.setStage_touch s (State.setStage n s) := by
  unfold State.setStage
  extract_lets x1
  refine Keeps.setFld ?_ (by decide +kernel)
  refine Keeps.after ?_ (State.draw_keeps ..) (by decide +kernel)
  exact Keeps.rfl

def State.formatCh_touch : Nat := touchSet [.fl] [] ||| State.setStage_touch

theorem State.formatCh_keeps (n : ℕ) (goodUnits : ℕ) (newCarrier : Bool) (s : State) : Keeps State.formatCh_touch s
    (State.formatCh n goodUnits newCarrier s) := by
  unfold State.formatCh
  extract_lets x1 x2 x3 x4 x5 x6 x7
  refine Keeps.setFld ?_ (by decide +kernel)
  refine Keeps.after ?_ (State.noteFree_keeps ..) (by decide +kernel)
  refine Keeps.after ?_ (State.setStage_keeps ..) (by decide +kernel)
  refine Keeps.after ?_ (State.setChan_keeps ..) (by decide +kernel)
  refine Keeps.after ?_ (State.draw_keeps ..) (by decide +kernel)
  exact Keeps.rfl

def State.nextRefresh_touch : Nat := State.beginMove_touch

theorem State.nextRefresh_keeps (n : ℕ) (s : State) : Keeps State.nextRefresh_touch s (State.nextRefresh n s) := by
  unfold State.nextRefresh
  extract_lets x1 x2
  split
  · refine Keeps.after ?_ (State.setChan_keeps ..) (by decide +kernel)
    exact Keeps.rfl
  · refine Keeps.ite ?_ ?_
    · refine Keeps.after ?_ (State.setChan_keeps ..) (by decide +kernel)
      exact Keeps.rfl
    · refine Keeps.after ?_ (State.beginMove_keeps ..) (by decide +kernel)
      refine Keeps.after ?_ (State.setChan_keeps ..) (by decide +kernel)
      exact Keeps.rfl

def State.queueRefresh_touch : Nat := State.nextRefresh_touch

theorem State.queueRefresh_keeps (n : ℕ) (sb : ℕ) (s : State) : Keeps State.queueRefresh_touch s (State.queueRefresh n
    sb s) := by
  unfold State.queueRefresh
  extract_lets x1
  refine Keeps.ite ?_ ?_
  · exact Keeps.rfl
  · refine Keeps.after ?_ (State.nextRefresh_keeps ..) (by decide +kernel)
    refine Keeps.after ?_ (State.setChan_keeps ..) (by decide +kernel)
    exact Keeps.rfl

def State.readSb_touch : Nat := State.queueRefresh_touch

theorem State.readSb_keeps (n : ℕ) (loc : ℕ) (k : ℕ) (s : State) : Keeps State.readSb_touch s (State.readSb n loc k s)
    := by
  unfold State.readSb
  extract_lets x1
  refine Keeps.ite ?_ ?_
  · refine Keeps.after ?_ (State.queueRefresh_keeps ..) (by decide +kernel)
    refine Keeps.after ?_ (State.countRead_keeps ..) (by decide +kernel)
    exact Keeps.rfl
  · refine Keeps.after ?_ (State.countRead_keeps ..) (by decide +kernel)
    exact Keeps.rfl

def State.translate_touch : Nat := touchSet [.fl] [.CF_TL_MAP_MISS]

theorem State.translate_keeps (n : ℕ) (i : ℕ) (s : State) : Keeps State.translate_touch s (State.translate n i s) := by
  unfold State.translate
  extract_lets x1 x2 x3 x4
  refine Keeps.ite ?_ ?_
  · exact Keeps.rfl
  · refine Keeps.bump ?_ (by decide +kernel)
    refine Keeps.after ?_ (State.setChan_keeps ..) (by decide +kernel)
    exact Keeps.rfl

def State.touch_touch : Nat := touchSet [] [.CF_TL_MAP_MISS] ||| State.readSb_touch

theorem State.touch_keeps (n : ℕ) (i : ℕ) (s : State) : Keeps State.touch_touch s (State.touch n i s) := by
  unfold State.touch
  extract_lets x1
  split
  · refine Keeps.after ?_ (State.readSb_keeps ..) (by decide +kernel)
    refine Keeps.after ?_ (State.translate_keeps ..) (by decide +kernel)
    exact Keeps.rfl
  · refine Keeps.after ?_ (State.translate_keeps ..) (by decide +kernel)
    exact Keeps.rfl

def State.touchStripe_touch : Nat := State.touch_touch

theorem State.touchStripe_keeps (c : ℕ) (e : ℕ) (k : ℕ) (s : State) : Keeps State.touchStripe_touch s (State.touchStripe
    c e k s) := by
  unfold State.touchStripe
  refine Keeps.forEach _ _ (fun a1 t1 => ?_) ?_
  · refine Keeps.after ?_ (State.touch_keeps ..) (by decide +kernel)
    exact Keeps.rfl
  · exact Keeps.rfl

def State.frontWrite_touch : Nat := touchSet [] [.CF_TL_HOST_BYTES, .GE_DEG_REPAIRED, .GE_PAR_ONLY, .GE_PAR_WRITES,
  .TN_ACC_FLASH_WRITES] ||| State.touch_touch

theorem State.frontWrite_keeps (w : SWrite) (bad : List ℕ) (s : State) : Keeps State.frontWrite_touch s
    (State.frontWrite w bad s) := by
  unfold State.frontWrite
  extract_lets x1 x2 x3 x4 x5 x6 x7 x8 x9 x10
  split
  extract_lets x11 x12 x13 x14 x15
  refine Keeps.ite ?_ ?_
  · refine Keeps.after ?_ (State.setChan_keeps ..) (by decide +kernel)
    refine Keeps.ite ?_ ?_
    · refine Keeps.bump ?_ (by decide +kernel)
      refine Keeps.bump ?_ (by decide +kernel)
      refine Keeps.bump ?_ (by split <;> decide +kernel)
      refine Keeps.ite ?_ ?_
      · refine Keeps.after ?_ (State.journal_keeps ..) (by decide +kernel)
        refine Keeps.bump ?_ (by decide +kernel)
        refine Keeps.after ?_ (State.writeSect_keeps ..) (by decide +kernel)
        refine Keeps.ite ?_ ?_
        · refine Keeps.bump ?_ (by decide +kernel)
          refine Keeps.after ?_ (State.writeSect_keeps ..) (by decide +kernel)
          refine Keeps.ite ?_ ?_
          · refine Keeps.after ?_ (State.journal_keeps ..) (by decide +kernel)
            subst x8
            split
            · exact Keeps.rfl
            · refine Keeps.ite ?_ ?_
              · refine Keeps.after ?_ (State.touch_keeps ..) (by decide +kernel)
                exact Keeps.rfl
              · refine Keeps.after ?_ (State.touchStripe_keeps ..) (by decide +kernel)
                exact Keeps.rfl
          · subst x8
            split
            · exact Keeps.rfl
            · refine Keeps.ite ?_ ?_
              · refine Keeps.after ?_ (State.touch_keeps ..) (by decide +kernel)
                exact Keeps.rfl
              · refine Keeps.after ?_ (State.touchStripe_keeps ..) (by decide +kernel)
                exact Keeps.rfl
        · refine Keeps.ite ?_ ?_
          · refine Keeps.after ?_ (State.journal_keeps ..) (by decide +kernel)
            subst x8
            split
            · exact Keeps.rfl
            · refine Keeps.ite ?_ ?_
              · refine Keeps.after ?_ (State.touch_keeps ..) (by decide +kernel)
                exact Keeps.rfl
              · refine Keeps.after ?_ (State.touchStripe_keeps ..) (by decide +kernel)
                exact Keeps.rfl
          · subst x8
            split
            · exact Keeps.rfl
            · refine Keeps.ite ?_ ?_
              · refine Keeps.after ?_ (State.touch_keeps ..) (by decide +kernel)
                exact Keeps.rfl
              · refine Keeps.after ?_ (State.touchStripe_keeps ..) (by decide +kernel)
                exact Keeps.rfl
      · refine Keeps.ite ?_ ?_
        · refine Keeps.bump ?_ (by decide +kernel)
          refine Keeps.after ?_ (State.writeSect_keeps ..) (by decide +kernel)
          refine Keeps.ite ?_ ?_
          · refine Keeps.after ?_ (State.journal_keeps ..) (by decide +kernel)
            subst x8
            split
            · exact Keeps.rfl
            · refine Keeps.ite ?_ ?_
              · refine Keeps.after ?_ (State.touch_keeps ..) (by decide +kernel)
                exact Keeps.rfl
              · refine Keeps.after ?_ (State.touchStripe_keeps ..) (by decide +kernel)
                exact Keeps.rfl
          · subst x8
            split
            · exact Keeps.rfl
            · refine Keeps.ite ?_ ?_
              · refine Keeps.after ?_ (State.touch_keeps ..) (by decide +kernel)
                exact Keeps.rfl
              · refine Keeps.after ?_ (State.touchStripe_keeps ..) (by decide +kernel)
                exact Keeps.rfl
        · refine Keeps.ite ?_ ?_
          · refine Keeps.after ?_ (State.journal_keeps ..) (by decide +kernel)
            subst x8
            split
            · exact Keeps.rfl
            · refine Keeps.ite ?_ ?_
              · refine Keeps.after ?_ (State.touch_keeps ..) (by decide +kernel)
                exact Keeps.rfl
              · refine Keeps.after ?_ (State.touchStripe_keeps ..) (by decide +kernel)
                exact Keeps.rfl
          · subst x8
            split
            · exact Keeps.rfl
            · refine Keeps.ite ?_ ?_
              · refine Keeps.after ?_ (State.touch_keeps ..) (by decide +kernel)
                exact Keeps.rfl
              · refine Keeps.after ?_ (State.touchStripe_keeps ..) (by decide +kernel)
                exact Keeps.rfl
    · refine Keeps.bump ?_ (by decide +kernel)
      refine Keeps.bump ?_ (by split <;> decide +kernel)
      refine Keeps.ite ?_ ?_
      · refine Keeps.after ?_ (State.journal_keeps ..) (by decide +kernel)
        refine Keeps.bump ?_ (by decide +kernel)
        refine Keeps.after ?_ (State.writeSect_keeps ..) (by decide +kernel)
        refine Keeps.ite ?_ ?_
        · refine Keeps.bump ?_ (by decide +kernel)
          refine Keeps.after ?_ (State.writeSect_keeps ..) (by decide +kernel)
          refine Keeps.ite ?_ ?_
          · refine Keeps.after ?_ (State.journal_keeps ..) (by decide +kernel)
            subst x8
            split
            · exact Keeps.rfl
            · refine Keeps.ite ?_ ?_
              · refine Keeps.after ?_ (State.touch_keeps ..) (by decide +kernel)
                exact Keeps.rfl
              · refine Keeps.after ?_ (State.touchStripe_keeps ..) (by decide +kernel)
                exact Keeps.rfl
          · subst x8
            split
            · exact Keeps.rfl
            · refine Keeps.ite ?_ ?_
              · refine Keeps.after ?_ (State.touch_keeps ..) (by decide +kernel)
                exact Keeps.rfl
              · refine Keeps.after ?_ (State.touchStripe_keeps ..) (by decide +kernel)
                exact Keeps.rfl
        · refine Keeps.ite ?_ ?_
          · refine Keeps.after ?_ (State.journal_keeps ..) (by decide +kernel)
            subst x8
            split
            · exact Keeps.rfl
            · refine Keeps.ite ?_ ?_
              · refine Keeps.after ?_ (State.touch_keeps ..) (by decide +kernel)
                exact Keeps.rfl
              · refine Keeps.after ?_ (State.touchStripe_keeps ..) (by decide +kernel)
                exact Keeps.rfl
          · subst x8
            split
            · exact Keeps.rfl
            · refine Keeps.ite ?_ ?_
              · refine Keeps.after ?_ (State.touch_keeps ..) (by decide +kernel)
                exact Keeps.rfl
              · refine Keeps.after ?_ (State.touchStripe_keeps ..) (by decide +kernel)
                exact Keeps.rfl
      · refine Keeps.ite ?_ ?_
        · refine Keeps.bump ?_ (by decide +kernel)
          refine Keeps.after ?_ (State.writeSect_keeps ..) (by decide +kernel)
          refine Keeps.ite ?_ ?_
          · refine Keeps.after ?_ (State.journal_keeps ..) (by decide +kernel)
            subst x8
            split
            · exact Keeps.rfl
            · refine Keeps.ite ?_ ?_
              · refine Keeps.after ?_ (State.touch_keeps ..) (by decide +kernel)
                exact Keeps.rfl
              · refine Keeps.after ?_ (State.touchStripe_keeps ..) (by decide +kernel)
                exact Keeps.rfl
          · subst x8
            split
            · exact Keeps.rfl
            · refine Keeps.ite ?_ ?_
              · refine Keeps.after ?_ (State.touch_keeps ..) (by decide +kernel)
                exact Keeps.rfl
              · refine Keeps.after ?_ (State.touchStripe_keeps ..) (by decide +kernel)
                exact Keeps.rfl
        · refine Keeps.ite ?_ ?_
          · refine Keeps.after ?_ (State.journal_keeps ..) (by decide +kernel)
            subst x8
            split
            · exact Keeps.rfl
            · refine Keeps.ite ?_ ?_
              · refine Keeps.after ?_ (State.touch_keeps ..) (by decide +kernel)
                exact Keeps.rfl
              · refine Keeps.after ?_ (State.touchStripe_keeps ..) (by decide +kernel)
                exact Keeps.rfl
          · subst x8
            split
            · exact Keeps.rfl
            · refine Keeps.ite ?_ ?_
              · refine Keeps.after ?_ (State.touch_keeps ..) (by decide +kernel)
                exact Keeps.rfl
              · refine Keeps.after ?_ (State.touchStripe_keeps ..) (by decide +kernel)
                exact Keeps.rfl
  · refine Keeps.ite ?_ ?_
    · refine Keeps.bump ?_ (by decide +kernel)
      refine Keeps.bump ?_ (by decide +kernel)
      refine Keeps.bump ?_ (by split <;> decide +kernel)
      refine Keeps.ite ?_ ?_
      · refine Keeps.after ?_ (State.journal_keeps ..) (by decide +kernel)
        refine Keeps.bump ?_ (by decide +kernel)
        refine Keeps.after ?_ (State.writeSect_keeps ..) (by decide +kernel)
        refine Keeps.ite ?_ ?_
        · refine Keeps.bump ?_ (by decide +kernel)
          refine Keeps.after ?_ (State.writeSect_keeps ..) (by decide +kernel)
          refine Keeps.ite ?_ ?_
          · refine Keeps.after ?_ (State.journal_keeps ..) (by decide +kernel)
            subst x8
            split
            · exact Keeps.rfl
            · refine Keeps.ite ?_ ?_
              · refine Keeps.after ?_ (State.touch_keeps ..) (by decide +kernel)
                exact Keeps.rfl
              · refine Keeps.after ?_ (State.touchStripe_keeps ..) (by decide +kernel)
                exact Keeps.rfl
          · subst x8
            split
            · exact Keeps.rfl
            · refine Keeps.ite ?_ ?_
              · refine Keeps.after ?_ (State.touch_keeps ..) (by decide +kernel)
                exact Keeps.rfl
              · refine Keeps.after ?_ (State.touchStripe_keeps ..) (by decide +kernel)
                exact Keeps.rfl
        · refine Keeps.ite ?_ ?_
          · refine Keeps.after ?_ (State.journal_keeps ..) (by decide +kernel)
            subst x8
            split
            · exact Keeps.rfl
            · refine Keeps.ite ?_ ?_
              · refine Keeps.after ?_ (State.touch_keeps ..) (by decide +kernel)
                exact Keeps.rfl
              · refine Keeps.after ?_ (State.touchStripe_keeps ..) (by decide +kernel)
                exact Keeps.rfl
          · subst x8
            split
            · exact Keeps.rfl
            · refine Keeps.ite ?_ ?_
              · refine Keeps.after ?_ (State.touch_keeps ..) (by decide +kernel)
                exact Keeps.rfl
              · refine Keeps.after ?_ (State.touchStripe_keeps ..) (by decide +kernel)
                exact Keeps.rfl
      · refine Keeps.ite ?_ ?_
        · refine Keeps.bump ?_ (by decide +kernel)
          refine Keeps.after ?_ (State.writeSect_keeps ..) (by decide +kernel)
          refine Keeps.ite ?_ ?_
          · refine Keeps.after ?_ (State.journal_keeps ..) (by decide +kernel)
            subst x8
            split
            · exact Keeps.rfl
            · refine Keeps.ite ?_ ?_
              · refine Keeps.after ?_ (State.touch_keeps ..) (by decide +kernel)
                exact Keeps.rfl
              · refine Keeps.after ?_ (State.touchStripe_keeps ..) (by decide +kernel)
                exact Keeps.rfl
          · subst x8
            split
            · exact Keeps.rfl
            · refine Keeps.ite ?_ ?_
              · refine Keeps.after ?_ (State.touch_keeps ..) (by decide +kernel)
                exact Keeps.rfl
              · refine Keeps.after ?_ (State.touchStripe_keeps ..) (by decide +kernel)
                exact Keeps.rfl
        · refine Keeps.ite ?_ ?_
          · refine Keeps.after ?_ (State.journal_keeps ..) (by decide +kernel)
            subst x8
            split
            · exact Keeps.rfl
            · refine Keeps.ite ?_ ?_
              · refine Keeps.after ?_ (State.touch_keeps ..) (by decide +kernel)
                exact Keeps.rfl
              · refine Keeps.after ?_ (State.touchStripe_keeps ..) (by decide +kernel)
                exact Keeps.rfl
          · subst x8
            split
            · exact Keeps.rfl
            · refine Keeps.ite ?_ ?_
              · refine Keeps.after ?_ (State.touch_keeps ..) (by decide +kernel)
                exact Keeps.rfl
              · refine Keeps.after ?_ (State.touchStripe_keeps ..) (by decide +kernel)
                exact Keeps.rfl
    · refine Keeps.bump ?_ (by decide +kernel)
      refine Keeps.bump ?_ (by split <;> decide +kernel)
      refine Keeps.ite ?_ ?_
      · refine Keeps.after ?_ (State.journal_keeps ..) (by decide +kernel)
        refine Keeps.bump ?_ (by decide +kernel)
        refine Keeps.after ?_ (State.writeSect_keeps ..) (by decide +kernel)
        refine Keeps.ite ?_ ?_
        · refine Keeps.bump ?_ (by decide +kernel)
          refine Keeps.after ?_ (State.writeSect_keeps ..) (by decide +kernel)
          refine Keeps.ite ?_ ?_
          · refine Keeps.after ?_ (State.journal_keeps ..) (by decide +kernel)
            subst x8
            split
            · exact Keeps.rfl
            · refine Keeps.ite ?_ ?_
              · refine Keeps.after ?_ (State.touch_keeps ..) (by decide +kernel)
                exact Keeps.rfl
              · refine Keeps.after ?_ (State.touchStripe_keeps ..) (by decide +kernel)
                exact Keeps.rfl
          · subst x8
            split
            · exact Keeps.rfl
            · refine Keeps.ite ?_ ?_
              · refine Keeps.after ?_ (State.touch_keeps ..) (by decide +kernel)
                exact Keeps.rfl
              · refine Keeps.after ?_ (State.touchStripe_keeps ..) (by decide +kernel)
                exact Keeps.rfl
        · refine Keeps.ite ?_ ?_
          · refine Keeps.after ?_ (State.journal_keeps ..) (by decide +kernel)
            subst x8
            split
            · exact Keeps.rfl
            · refine Keeps.ite ?_ ?_
              · refine Keeps.after ?_ (State.touch_keeps ..) (by decide +kernel)
                exact Keeps.rfl
              · refine Keeps.after ?_ (State.touchStripe_keeps ..) (by decide +kernel)
                exact Keeps.rfl
          · subst x8
            split
            · exact Keeps.rfl
            · refine Keeps.ite ?_ ?_
              · refine Keeps.after ?_ (State.touch_keeps ..) (by decide +kernel)
                exact Keeps.rfl
              · refine Keeps.after ?_ (State.touchStripe_keeps ..) (by decide +kernel)
                exact Keeps.rfl
      · refine Keeps.ite ?_ ?_
        · refine Keeps.bump ?_ (by decide +kernel)
          refine Keeps.after ?_ (State.writeSect_keeps ..) (by decide +kernel)
          refine Keeps.ite ?_ ?_
          · refine Keeps.after ?_ (State.journal_keeps ..) (by decide +kernel)
            subst x8
            split
            · exact Keeps.rfl
            · refine Keeps.ite ?_ ?_
              · refine Keeps.after ?_ (State.touch_keeps ..) (by decide +kernel)
                exact Keeps.rfl
              · refine Keeps.after ?_ (State.touchStripe_keeps ..) (by decide +kernel)
                exact Keeps.rfl
          · subst x8
            split
            · exact Keeps.rfl
            · refine Keeps.ite ?_ ?_
              · refine Keeps.after ?_ (State.touch_keeps ..) (by decide +kernel)
                exact Keeps.rfl
              · refine Keeps.after ?_ (State.touchStripe_keeps ..) (by decide +kernel)
                exact Keeps.rfl
        · refine Keeps.ite ?_ ?_
          · refine Keeps.after ?_ (State.journal_keeps ..) (by decide +kernel)
            subst x8
            split
            · exact Keeps.rfl
            · refine Keeps.ite ?_ ?_
              · refine Keeps.after ?_ (State.touch_keeps ..) (by decide +kernel)
                exact Keeps.rfl
              · refine Keeps.after ?_ (State.touchStripe_keeps ..) (by decide +kernel)
                exact Keeps.rfl
          · subst x8
            split
            · exact Keeps.rfl
            · refine Keeps.ite ?_ ?_
              · refine Keeps.after ?_ (State.touch_keeps ..) (by decide +kernel)
                exact Keeps.rfl
              · refine Keeps.after ?_ (State.touchStripe_keeps ..) (by decide +kernel)
                exact Keeps.rfl

def State.loseSect_touch : Nat := State.cuffFault_touch ||| State.journal_touch

theorem State.loseSect_keeps (n : ℕ) (i : ℕ) (s : State) : Keeps State.loseSect_touch s (State.loseSect n i s) := by
  unfold State.loseSect
  refine Keeps.ite ?_ ?_
  · refine Keeps.after ?_ (State.cuffFault_keeps ..) (by decide +kernel)
    exact Keeps.rfl
  · extract_lets x1 x2 x3
    refine Keeps.after ?_ (State.log_keeps ..) (by decide +kernel)
    refine Keeps.after ?_ (State.setChan_keeps ..) (by decide +kernel)
    refine Keeps.after ?_ (State.journal_keeps ..) (by decide +kernel)
    exact Keeps.rfl

def State.regive_touch : Nat := touchSet [.fl] []

theorem State.regive_keeps (n : ℕ) (sb : ℕ) (dst : ℕ) (s : State) : Keeps State.regive_touch s (State.regive n sb dst s)
    := by
  unfold State.regive
  extract_lets x1
  refine Keeps.after ?_ (State.setChan_keeps ..) (by decide +kernel)
  exact Keeps.rfl

def State.moveOut_touch : Nat := State.cuffFault_touch ||| State.commitMove_touch

theorem State.moveOut_keeps (n : ℕ) (sb : ℕ) (st : ℕ) (s : State) : Keeps State.moveOut_touch s (State.moveOut n sb st
    s) := by
  unfold State.moveOut
  refine Keeps.forEach _ _ (fun a1 t1 => ?_) ?_
  · split
    · extract_lets x1 x2 x3
      refine Keeps.after ?_ (State.closeFull_keeps ..) (by decide +kernel)
      refine Keeps.after ?_ (State.regive_keeps ..) (by decide +kernel)
      refine Keeps.after ?_ (State.commitMove_keeps ..) (by decide +kernel)
      refine Keeps.after ?_ (State.programUnit_keeps ..) (by decide +kernel)
      refine Keeps.after ?_ (State.countRead_keeps ..) (by decide +kernel)
      refine Keeps.after ?_ (KeepsP.get (by assumption) (State.anyTarget_keeps _ _ _ _)) (by decide +kernel)
      exact Keeps.rfl
    · refine Keeps.after ?_ (State.cuffFault_keeps ..) (by decide +kernel)
      exact Keeps.rfl
  · exact Keeps.rfl

def State.repairWrite_touch : Nat := touchSet [.fl] []

theorem State.repairWrite_keeps (c : ℕ) (lsn : ℕ) (tenant : ℕ) (d : List Byte × BitVec 32) (s : State) : Keeps
    State.repairWrite_touch s (State.repairWrite c lsn tenant d s) := by
  unfold State.repairWrite
  refine Keeps.ite ?_ ?_
  · refine Keeps.after ?_ (State.queueWrite_keeps ..) (by decide +kernel)
    exact Keeps.rfl
  · exact Keeps.rfl

def State.noteDegraded_touch : Nat := touchSet [] [.GE_DEG_FAIL, .GE_DEG_READS, .TN_ACC_FLASH_READS] |||
  State.touchStripe_touch

theorem State.noteDegraded_keeps (ch : ℕ) (lsn : ℕ) (j : JobRef) (got : Option (List Byte × BitVec 32)) (s : State) :
    Keeps State.noteDegraded_touch s (State.noteDegraded ch lsn j got s) := by
  unfold State.noteDegraded
  extract_lets x1 x2 x3
  split
  · refine Keeps.after ?_ (State.repairWrite_keeps ..) (by decide +kernel)
    refine Keeps.after ?_ (State.touchStripe_keeps ..) (by decide +kernel)
    refine Keeps.bump ?_ (by decide +kernel)
    refine Keeps.bump ?_ (by decide +kernel)
    exact Keeps.rfl
  · refine Keeps.after ?_ (State.log_keeps ..) (by decide +kernel)
    refine Keeps.bump ?_ (by decide +kernel)
    refine Keeps.after ?_ (State.touchStripe_keeps ..) (by decide +kernel)
    refine Keeps.bump ?_ (by decide +kernel)
    refine Keeps.bump ?_ (by decide +kernel)
    exact Keeps.rfl

def State.retireSb_touch : Nat := touchSet [.freeCount] [.CF_TL_RETIRED] ||| State.checkHealth_touch |||
  State.journal_touch

theorem State.retireSb_keeps (n : ℕ) (sb : ℕ) (s : State) : Keeps State.retireSb_touch s (State.retireSb n sb s) := by
  unfold State.retireSb
  extract_lets x1 x2 x3 x4 x5 x6
  refine Keeps.after ?_ (State.checkHealth_keeps ..) (by decide +kernel)
  refine Keeps.after ?_ (State.log_keeps ..) (by decide +kernel)
  refine Keeps.bump ?_ (by decide +kernel)
  refine Keeps.after ?_ (State.setChan_keeps ..) (by decide +kernel)
  refine Keeps.after ?_ (State.modSb_keeps ..) (by decide +kernel)
  refine Keeps.after ?_ (State.journal_keeps ..) (by decide +kernel)
  refine Keeps.after ?_ (State.draw_keeps ..) (by decide +kernel)
  exact Keeps.rfl

def State.programFailed_touch : Nat := touchSet [] [.CF_TL_GC_MOVES] ||| State.retireSb_touch

theorem State.programFailed_keeps (n : ℕ) (sb : ℕ) (st : ℕ) (s : State) : Keeps State.programFailed_touch s
    (State.programFailed n sb st s) := by
  unfold State.programFailed
  extract_lets x1 x2 x3
  refine Keeps.after ?_ (State.moveOut_keeps ..) (by decide +kernel)
  refine Keeps.after ?_ (State.retireSb_keeps ..) (by decide +kernel)
  refine Keeps.after ?_ (State.log_keeps ..) (by decide +kernel)
  refine Keeps.after ?_ (State.setChan_keeps ..) (by decide +kernel)
  exact Keeps.rfl

def State.replayCh_touch : Nat := touchSet [.fl] [.CF_TL_HOLDUP_SHORT, .CF_TL_NAND_BYTES] ||| State.log_touch |||
  State.setStage_touch

theorem State.replayCh_keeps (n : ℕ) (powerLost : Bool) (s : State) : Keeps State.replayCh_touch s (State.replayCh n
    powerLost s) := by
  unfold State.replayCh
  extract_lets x1 x2 x3 x4 x5 x6 x7 x8 x9 x10
  clear_value x3
  split
  · refine Keeps.after ?_ (State.log_keeps ..) (by decide +kernel)
    refine Keeps.bump ?_ (by decide +kernel)
    refine Keeps.setFld ?_ (by decide +kernel)
    refine Keeps.setFld ?_ (by decide +kernel)
    refine Keeps.setFld ?_ (by decide +kernel)
    refine Keeps.after ?_ (State.noteFree_keeps ..) (by decide +kernel)
    refine Keeps.after ?_ (State.setStage_keeps ..) (by decide +kernel)
    refine Keeps.bump ?_ (by decide +kernel)
    refine Keeps.after ?_ (State.setChan_keeps ..) (by decide +kernel)
    exact Keeps.rfl
  · refine Keeps.setFld ?_ (by decide +kernel)
    refine Keeps.setFld ?_ (by decide +kernel)
    refine Keeps.setFld ?_ (by decide +kernel)
    refine Keeps.after ?_ (State.noteFree_keeps ..) (by decide +kernel)
    refine Keeps.after ?_ (State.setStage_keeps ..) (by decide +kernel)
    refine Keeps.bump ?_ (by decide +kernel)
    refine Keeps.after ?_ (State.setChan_keeps ..) (by decide +kernel)
    exact Keeps.rfl

def State.runWrite_touch : Nat := touchSet [] [.CF_TL_WRITE_WAIT_NS, .GE_STRIPE_WAIT_NS] ||| State.frontWrite_touch

theorem State.runWrite_keeps (w : SWrite) (bad : List ℕ) (s : State) : Keeps State.runWrite_touch s (State.runWrite w
    bad s) := by
  unfold State.runWrite
  extract_lets x1 x2
  refine Keeps.after ?_ (State.frontWrite_keeps ..) (by decide +kernel)
  refine Keeps.after ?_ (State.progressed_keeps ..) (by decide +kernel)
  subst x2
  split
  · refine Keeps.bump ?_ (by decide +kernel)
    subst x1
    split
    · refine Keeps.bump ?_ (by decide +kernel)
      exact Keeps.rfl
    · exact Keeps.rfl
  · subst x1
    split
    · refine Keeps.bump ?_ (by decide +kernel)
      exact Keeps.rfl
    · exact Keeps.rfl

def State.serveSector_touch : Nat := State.runWrite_touch ||| State.shape?_touch

theorem State.serveSector_keeps (ch : ℕ) (lsn : ℕ) (s : State) : Keeps State.serveSector_touch s (State.serveSector ch
    lsn s) := by
  unfold State.serveSector
  extract_lets x1 x2 x3 x4
  refine Keeps.forEach _ _ (fun a1 t1 => ?_) ?_
  · refine Keeps.after ?_ (State.runWrite_keeps ..) (by decide +kernel)
    refine KeepsO.getD ?_ ?_
    · refine KeepsO.after ?_ (State.shape?_keeps _ _ _ _) (by decide +kernel)
      exact Keeps.rfl
    · exact Keeps.rfl
  · refine Keeps.fl ?_ (by decide +kernel)
    exact Keeps.rfl

end Sys2Proof.Machine
end

