-- ==== Sys2Proof/Laws/KeepTableStore.lean ====
section
/-! SUPPORT. What each operation of Machine/TableStore.lean can change. -/

namespace Sys2Proof.Machine

set_option Elab.async false

def State.noteHeavy_touch : Nat := touchSet [] [.GE_STATUS]

theorem State.noteHeavy_keeps (die : ℕ) (s : State) : Keeps State.noteHeavy_touch s (State.noteHeavy die s) := by
  unfold State.noteHeavy
  refine Keeps.setFld ?_ (by decide +kernel)
  exact Keeps.rfl

def State.settleBatch_touch : Nat := touchSet [.tbl] [] ||| State.gFinish_touch

theorem State.settleBatch_keeps (seq : ℕ) (s : State) : Keeps State.settleBatch_touch s (State.settleBatch seq s) := by
  unfold State.settleBatch
  split
  · exact Keeps.rfl
  · refine Keeps.ite ?_ ?_
    · extract_lets x1 x2
      split
      · refine Keeps.after ?_ (State.gFinish_keeps ..) (by decide +kernel)
        refine Keeps.after ?_ (State.releaseTable_keeps ..) (by decide +kernel)
        refine Keeps.tbl ?_ (by decide +kernel)
        exact Keeps.rfl
      · refine Keeps.after ?_ (State.releaseTable_keeps ..) (by decide +kernel)
        refine Keeps.tbl ?_ (by decide +kernel)
        exact Keeps.rfl
    · exact Keeps.rfl

def State.narrowAll_touch : Nat := touchSet [.idx] [.GE_SR_DRAWS, .GE_SR_NAN, .GE_SR_SAT]

theorem State.narrowAll_keeps (die : ℕ) (key : BitVec 32) (xs : List (BitVec 32)) (s : State) : Keeps2
    State.narrowAll_touch s (State.narrowAll die key xs s) := by
  unfold State.narrowAll
  extract_lets x1 x2
  refine Keeps2.of ?_
  refine Keeps.bump ?_ (by decide +kernel)
  refine Keeps.bump ?_ (by decide +kernel)
  refine Keeps.bump ?_ (by decide +kernel)
  refine Keeps.after ?_ (State.roundAll_keeps ..) (by decide +kernel)
  exact Keeps.rfl

def State.fetchRow_touch : Nat := State.noteDegraded_touch

theorem State.fetchRow_keeps (t : ℕ) (v : ℕ) (j : JobRef) (mask : BitVec 32) (bad : List ℕ) (r : ℕ) (s : State) : Keeps
    State.fetchRow_touch s (State.fetchRow t v j mask bad r s) := by
  unfold State.fetchRow
  extract_lets x1 x2
  refine Keeps.ite ?_ ?_
  · refine Keeps.after ?_ (State.touch_keeps ..) (by decide +kernel)
    exact Keeps.rfl
  · refine Keeps.after ?_ (State.noteDegraded_keeps ..) (by decide +kernel)
    exact Keeps.rfl

def State.noteRead_touch : Nat := State.fetchRow_touch ||| State.dramUncorrFree_touch

theorem State.noteRead_keeps (t : ℕ) (v : ℕ) (j : JobRef) (mask : BitVec 32) (bad : List ℕ) (r : ℕ) (s : State) : Keeps
    State.noteRead_touch s (State.noteRead t v j mask bad r s) := by
  unfold State.noteRead
  refine Keeps.ite ?_ ?_
  · refine Keeps.after ?_ (State.fetchRow_keeps ..) (by decide +kernel)
    exact Keeps.rfl
  · refine Keeps.ite ?_ ?_
    · refine Keeps.after ?_ (State.dramUncorrFree_keeps ..) (by decide +kernel)
      exact Keeps.rfl
    · exact Keeps.rfl

def State.noteDirty_touch : Nat := touchSet [] [.GE_HP_DIRTY_MAX]

theorem State.noteDirty_keeps (s : State) : Keeps State.noteDirty_touch s (State.noteDirty s) := by
  unfold State.noteDirty
  refine Keeps.forEach _ _ (fun a1 t1 => ?_) ?_
  · refine Keeps.raise ?_ (by decide +kernel)
    exact Keeps.rfl
  · exact Keeps.rfl

def State.setHatpin_touch : Nat := touchSet [.tbl] []

theorem State.setHatpin_keeps (h : Hatpin) (s : State) : Keeps State.setHatpin_touch s (State.setHatpin h s) := by
  unfold State.setHatpin
  refine Keeps.tbl ?_ (by decide +kernel)
  exact Keeps.rfl

def State.writeRowFlash_touch : Nat := State.serveSector_touch ||| State.fetchRow_touch

theorem State.writeRowFlash_keeps (t : ℕ) (v : ℕ) (r : ℕ) (tenant : ℕ) (bytes : List Byte) (s : State) : Keeps2
    State.writeRowFlash_touch s (State.writeRowFlash t v r tenant bytes s) := by
  unfold State.writeRowFlash
  extract_lets x1 x2 x3 x4 x5
  clear_value x4
  split
  · refine Keeps2.of ?_
    refine Keeps.after ?_ (State.fetchRow_keeps ..) (by decide +kernel)
    exact Keeps.rfl
  · extract_lets x5 x6 x7 x8
    refine Keeps2.of ?_
    refine Keeps.after ?_ (State.serveSector_keeps ..) (by decide +kernel)
    refine Keeps.after ?_ (State.queueWrite_keeps ..) (by decide +kernel)
    refine Keeps.after ?_ (State.fetchRow_keeps ..) (by decide +kernel)
    exact Keeps.rfl

def State.writeRow_touch : Nat := touchSet [.tbl] [.GE_HP_DIRTY_MAX] ||| State.writeRowFlash_touch

theorem State.writeRow_keeps (t : ℕ) (v : ℕ) (r : ℕ) (tenant : ℕ) (bytes : List Byte) (s : State) : Keeps
    State.writeRow_touch s (State.writeRow t v r tenant bytes s) := by
  unfold State.writeRow
  split
  · extract_lets x1 x2
    refine Keeps.ite ?_ ?_
    · refine Keeps.after ?_ (State.writeRowFlash_keeps ..) (by decide +kernel)
      refine Keeps.after ?_ (State.setHatpin_keeps ..) (by decide +kernel)
      exact Keeps.rfl
    · refine Keeps.after ?_ (State.noteDirty_keeps ..) (by decide +kernel)
      refine Keeps.after ?_ (State.setHatpin_keeps ..) (by decide +kernel)
      exact Keeps.rfl
  · refine Keeps.after ?_ (State.writeRowFlash_keeps ..) (by decide +kernel)
    exact Keeps.rfl

def State.stepRow_touch : Nat := touchSet [] [.GE_UPD_STEPS] ||| State.writeRow_touch ||| State.narrowAll_touch |||
  State.noteRead_touch

theorem State.stepRow_keeps (t : ℕ) (v : ℕ) (r : ℕ) (tenant : ℕ) (key : BitVec 32) (p : StepPar) (eta : BitVec 32) (g :
    List (BitVec 32)) (s : State) : Keeps2 State.stepRow_touch s (State.stepRow t v r tenant key p eta g s) := by
  unfold State.stepRow
  split
  · extract_lets x1 x2 x3 x4 x5 x6
    refine Keeps2.of ?_
    refine Keeps.after ?_ (State.writeRow_keeps ..) (by decide +kernel)
    refine Keeps.bump ?_ (by decide +kernel)
    refine Keeps2.foldl _ _ (fun p1 a1 => ?_) ?_
    · extract_lets x7 x8
      refine Keeps2.ite ?_ ?_
      · refine Keeps2.of ?_
        exact Keeps.rfl
      · refine Keeps2.of ?_
        refine Keeps.after ?_ (State.narrowAll_keeps ..) (by decide +kernel)
        exact Keeps.rfl
    · dsimp only
      refine Keeps.after ?_ (State.narrowAll_keeps ..) (by decide +kernel)
      exact Keeps.rfl
  · refine Keeps2.of ?_
    refine Keeps.after ?_ (State.noteRead_keeps ..) (by decide +kernel)
    exact Keeps.rfl

def State.grantRow_touch : Nat := touchSet [] [.GE_LOCK_WAIT_NS, .GE_STATUS] ||| State.stepRow_touch |||
  State.settleBatch_touch

theorem State.grantRow_keeps (die : ℕ) (s : State) : Keeps State.grantRow_touch s (State.grantRow die s) := by
  unfold State.grantRow
  split
  · exact Keeps.rfl
  · refine Keeps.ite ?_ ?_
    · exact Keeps.rfl
    · extract_lets x1 x2 x3 x4 x5 x6 x7 x8
      refine Keeps.after ?_ (State.settleBatch_keeps ..) (by decide +kernel)
      refine Keeps.after ?_ (State.noteHeavy_keeps ..) (by decide +kernel)
      refine Keeps.tbl ?_ (by decide +kernel)
      refine Keeps.after ?_ (State.stepRow_keeps ..) (by decide +kernel)
      refine Keeps.ite ?_ ?_
      · refine Keeps.bump ?_ (by decide +kernel)
        refine Keeps.after ?_ (State.progressed_keeps ..) (by decide +kernel)
        refine Keeps.tbl ?_ (by decide +kernel)
        exact Keeps.rfl
      · refine Keeps.after ?_ (State.progressed_keeps ..) (by decide +kernel)
        refine Keeps.tbl ?_ (by decide +kernel)
        exact Keeps.rfl

def State.drainDie_touch : Nat := State.grantRow_touch

theorem State.drainDie_keeps (rows : List Nat) (die n : Nat) (s : State) : Keeps State.drainDie_touch s (State.drainDie
    rows die n s) := by
  induction n generalizing s with
  | zero =>
    unfold State.drainDie
    exact Keeps.rfl
  | succ n ih =>
    unfold State.drainDie
    extract_lets x1
    refine Keeps.ite ?_ ?_
    · refine Keeps.after ?_ (ih _) (Nat.and_self _)
      refine Keeps.after ?_ (State.grantRow_keeps ..) (by decide +kernel)
      exact Keeps.rfl
    · exact Keeps.rfl

def State.drainRows_touch : Nat := touchSet [] [.GE_LOCK_WAIT] ||| State.drainDie_touch

theorem State.drainRows_keeps (rows : List ℕ) (s : State) : Keeps State.drainRows_touch s (State.drainRows rows s) := by
  unfold State.drainRows
  extract_lets x1 x2
  refine Keeps.forEach _ _ (fun a1 t1 => ?_) ?_
  · refine Keeps.ite ?_ ?_
    · exact Keeps.rfl
    · refine Keeps.bump ?_ (by decide +kernel)
      exact Keeps.rfl
  · refine Keeps.forEach _ _ (fun a1 t1 => ?_) ?_
    · refine Keeps.after ?_ (State.drainDie_keeps ..) (by decide +kernel)
      exact Keeps.rfl
    · exact Keeps.rfl

def State.noteDots_touch : Nat := touchSet [] [.GE_DOT_PINNED, .GE_DOT_ROWS, .TN_ACC_DRAM_BYTES] |||
  State.noteRead_touch

theorem State.noteDots_keeps (t : ℕ) (v : ℕ) (j : JobRef) (mask : BitVec 32) (bad : List ℕ) (rows : List ℕ) (s : State)
    : Keeps State.noteDots_touch s (State.noteDots t v j mask bad rows s) := by
  unfold State.noteDots
  refine Keeps.forEach _ _ (fun a1 t1 => ?_) ?_
  · extract_lets x1 x2 x3
    refine Keeps.after ?_ (State.noteRead_keeps ..) (by decide +kernel)
    refine Keeps.ite ?_ ?_
    · refine Keeps.bump ?_ (by decide +kernel)
      refine Keeps.bump ?_ (by decide +kernel)
      refine Keeps.bump ?_ (by decide +kernel)
      exact Keeps.rfl
    · refine Keeps.bump ?_ (by decide +kernel)
      refine Keeps.bump ?_ (by decide +kernel)
      exact Keeps.rfl
  · exact Keeps.rfl

end Sys2Proof.Machine
end

