-- ==== Sys2Proof/Laws/KeepStage.lean ====
section
/-! SUPPORT. What each operation of Machine/Stage.lean can change. -/

namespace Sys2Proof.Machine

set_option Elab.async false

def State.dramUncorr_touch : Nat := State.dramUncorrFree_touch

theorem State.dramUncorr_keeps (die : ℕ) (consumer : ℕ) (x : Query) (s : State) : Keeps State.dramUncorr_touch s
    (State.dramUncorr die consumer x s) := by
  unfold State.dramUncorr
  refine Keeps.after ?_ (State.dramUncorrFree_keeps ..) (by decide +kernel)
  exact Keeps.rfl

def State.fp16Degraded_touch : Nat := State.finalSelect_touch

theorem State.fp16Degraded_keeps (q : ℕ) (s : State) : Keeps State.fp16Degraded_touch s (State.fp16Degraded q s) := by
  unfold State.fp16Degraded
  split
  · exact Keeps.rfl
  · extract_lets x1 x2 x3 x4
    refine Keeps.ite ?_ ?_
    · refine Keeps.after ?_ (State.finalSelect_keeps ..) (by decide +kernel)
      refine Keeps.after ?_ (State.setQuery_keeps ..) (by decide +kernel)
      refine Keeps.after ?_ (State.closeRegion_keeps ..) (by decide +kernel)
      exact Keeps.rfl
    · refine Keeps.after ?_ (State.finalSelect_keeps ..) (by decide +kernel)
      refine Keeps.after ?_ (State.setQuery_keeps ..) (by decide +kernel)
      refine Keeps.after ?_ (State.closeRegion_keeps ..) (by decide +kernel)
      exact Keeps.rfl

def State.openRegion_touch : Nat := touchSet [.freeCount] [.XT_RGN_BASE, .XT_RGN_CTL]

theorem State.openRegion_keeps (r : ℕ) (die : ℕ) (pd : ℕ) (bytes : ℕ) (s : State) : Keeps State.openRegion_touch s
    (State.openRegion r die pd bytes s) := by
  unfold State.openRegion
  extract_lets x1 x2 x3 x4
  refine Keeps.setFld ?_ (by decide +kernel)
  refine Keeps.setFld ?_ (by decide +kernel)
  refine Keeps.setFld ?_ (by decide +kernel)
  refine Keeps.setFld ?_ (by decide +kernel)
  refine Keeps.setFld ?_ (by decide +kernel)
  refine Keeps.setFld ?_ (by decide +kernel)
  refine Keeps.setFld ?_ (by decide +kernel)
  refine Keeps.setFld ?_ (by decide +kernel)
  refine Keeps.after ?_ (State.freshAddr_keeps ..) (by decide +kernel)
  exact Keeps.rfl

def State.unreachable_touch : Nat := touchSet [] [.GE_REQ_UNREACHABLE] ||| State.fp16Degraded_touch

theorem State.unreachable_keeps (q : ℕ) (slice : ℕ) (conn : ℕ) (s : State) : Keeps State.unreachable_touch s
    (State.unreachable q slice conn s) := by
  unfold State.unreachable
  split
  · exact Keeps.rfl
  · extract_lets x1 x2 x3
    refine Keeps.after ?_ (State.fp16Degraded_keeps ..) (by decide +kernel)
    refine Keeps.after ?_ (State.log_keeps ..) (by decide +kernel)
    refine Keeps.bump ?_ (by decide +kernel)
    refine Keeps.after ?_ (State.draw_keeps ..) (by decide +kernel)
    exact Keeps.rfl

def State.launchFp16_touch : Nat := touchSet [] [.SY_CFG, .XT_RGN_BASE] ||| State.unreachable_touch |||
  State.drainRows_touch ||| State.noteDots_touch

theorem State.launchFp16_keeps (q : ℕ) (bad : List ℕ) (s : State) : Keeps State.launchFp16_touch s (State.launchFp16 q
    bad s) := by
  unfold State.launchFp16
  split
  · exact Keeps.rfl
  · extract_lets x1 x2 x3 x4 x5 x6 x7 x8 x9 x10
    split
    · refine Keeps.after ?_ (State.unreachable_keeps ..) (by decide +kernel)
      exact Keeps.rfl
    · split
      · refine Keeps.after ?_ (State.drainRows_keeps ..) (by decide +kernel)
        exact Keeps.rfl
      · extract_lets x11 x12 x13 x14 x15 x16 x17 x18 x19
        refine Keeps.forEach _ _ (fun a1 t1 => ?_) ?_
        · extract_lets x20 x21
          refine Keeps.after ?_ (State.modQuery_keeps ..) (by decide +kernel)
          refine Keeps.after ?_ (State.postSend_keeps ..) (by decide +kernel)
          exact Keeps.rfl
        · refine Keeps.after ?_ (State.setQuery_keeps ..) (by decide +kernel)
          refine Keeps.net ?_ (by decide +kernel)
          refine Keeps.setFld ?_ (by decide +kernel)
          refine Keeps.setFld ?_ (by decide +kernel)
          refine Keeps.after ?_ (State.noteDots_keeps ..) (by decide +kernel)
          refine Keeps.after ?_ (State.openRegion_keeps ..) (by decide +kernel)
          refine Keeps.after ?_ (State.draw_keeps ..) (by decide +kernel)
          refine Keeps.after ?_ (State.drainRows_keeps ..) (by decide +kernel)
          exact Keeps.rfl

def State.startFp16_touch : Nat := touchSet [] [.GE_ABSENT] ||| State.launchFp16_touch

theorem State.startFp16_keeps (q : ℕ) (kind : Kind) (row : List Elem) (bad : List ℕ) (s : State) : Keeps
    State.startFp16_touch s (State.startFp16 q kind row bad s) := by
  unfold State.startFp16
  split
  · exact Keeps.rfl
  · refine Keeps.ite ?_ ?_
    · refine Keeps.after ?_ (State.fp16Degraded_keeps ..) (by decide +kernel)
      refine Keeps.after ?_ (State.setQuery_keeps ..) (by decide +kernel)
      exact Keeps.rfl
    · extract_lets x1 x2 x3 x4 x5 x6 x7 x8 x9 x10 x11 x12 x13 x14 x15 x16
      refine Keeps.ite ?_ ?_
      · refine Keeps.after ?_ (State.finalSelect_keeps ..) (by decide +kernel)
        refine Keeps.after ?_ (State.setQuery_keeps ..) (by decide +kernel)
        refine Keeps.after ?_ (State.setQuery_keeps ..) (by decide +kernel)
        refine Keeps.forEach _ _ (fun a1 t1 => ?_) ?_
        · extract_lets x17
          refine Keeps.ite ?_ ?_
          · refine Keeps.after ?_ (State.noteRead_keeps ..) (by decide +kernel)
            refine Keeps.bump ?_ (by decide +kernel)
            exact Keeps.rfl
          · refine Keeps.bump ?_ (by decide +kernel)
            exact Keeps.rfl
        · refine Keeps.after ?_ (State.noteSelect_keeps ..) (by decide +kernel)
          refine Keeps.after ?_ (State.noteNans_keeps ..) (by decide +kernel)
          exact Keeps.rfl
      · refine Keeps.after ?_ (State.launchFp16_keeps ..) (by decide +kernel)
        refine Keeps.after ?_ (State.setQuery_keeps ..) (by decide +kernel)
        refine Keeps.forEach _ _ (fun a1 t1 => ?_) ?_
        · extract_lets x17
          refine Keeps.ite ?_ ?_
          · refine Keeps.after ?_ (State.noteRead_keeps ..) (by decide +kernel)
            refine Keeps.bump ?_ (by decide +kernel)
            exact Keeps.rfl
          · refine Keeps.bump ?_ (by decide +kernel)
            exact Keeps.rfl
        · refine Keeps.after ?_ (State.noteSelect_keeps ..) (by decide +kernel)
          refine Keeps.after ?_ (State.noteNans_keeps ..) (by decide +kernel)
          exact Keeps.rfl

def State.endFlash_touch : Nat := State.startFp16_touch

theorem State.endFlash_keeps (q : ℕ) (s : State) : Keeps State.endFlash_touch s (State.endFlash q s) := by
  unfold State.endFlash
  split
  · exact Keeps.rfl
  · refine Keeps.ite ?_ ?_
    · extract_lets x1 x2 x3
      refine Keeps.ite ?_ ?_
      · refine Keeps.after ?_ (State.startFp16_keeps ..) (by decide +kernel)
        refine Keeps.after ?_ (State.setQuery_keeps ..) (by decide +kernel)
        exact Keeps.rfl
      · refine Keeps.after ?_ (State.finalSelect_keeps ..) (by decide +kernel)
        refine Keeps.after ?_ (State.setQuery_keeps ..) (by decide +kernel)
        exact Keeps.rfl
    · exact Keeps.rfl

def State.flashAbsent_touch : Nat := State.log_touch

theorem State.flashAbsent_keeps (ch : ℕ) (lsn : ℕ) (rstatus : ℕ) (x : Query) (s : State) : Keeps State.flashAbsent_touch
    s (State.flashAbsent ch lsn rstatus x s) := by
  unfold State.flashAbsent
  refine Keeps.after ?_ (State.log_keeps ..) (by decide +kernel)
  exact Keeps.rfl

def State.flashDegraded_touch : Nat := touchSet [] [.TN_DL_FLASH_DROP] ||| State.finalBinary_touch

theorem State.flashDegraded_keeps (q : ℕ) (s : State) : Keeps State.flashDegraded_touch s (State.flashDegraded q s) :=
    by
  unfold State.flashDegraded
  split
  · exact Keeps.rfl
  · extract_lets x1 x2
    refine Keeps.after ?_ (State.finalBinary_keeps ..) (by decide +kernel)
    refine Keeps.after ?_ (State.setQuery_keeps ..) (by decide +kernel)
    refine Keeps.ite ?_ ?_
    · exact Keeps.rfl
    · refine Keeps.bump ?_ (by decide +kernel)
      exact Keeps.rfl

def State.sendDegraded_touch : Nat := touchSet [.fl, .qry] []

theorem State.sendDegraded_keeps (q : ℕ) (cand : ℕ) (s : State) : Keeps State.sendDegraded_touch s (State.sendDegraded q
    cand s) := by
  unfold State.sendDegraded
  split
  · exact Keeps.rfl
  · split
    · exact Keeps.rfl
    · extract_lets x1 x2 x3 x4 x5 x6
      refine Keeps.fl ?_ (by decide +kernel)
      refine Keeps.after ?_ (State.setQuery_keeps ..) (by decide +kernel)
      exact Keeps.rfl

def State.sendRequests_touch : Nat := touchSet [.fl] []

theorem State.sendRequests_keeps (q : ℕ) (ch : ℕ) (shadow : Bool) (s : State) : Keeps State.sendRequests_touch s
    (State.sendRequests q ch shadow s) := by
  unfold State.sendRequests
  split
  · exact Keeps.rfl
  · extract_lets x1 x2
    split
    · exact Keeps.rfl
    · extract_lets x3 x4
      refine Keeps.after ?_ (State.setChan_keeps ..) (by decide +kernel)
      exact Keeps.rfl

def State.startFlash_touch : Nat := touchSet [] [.TN_DL_FLASH_DROP] ||| State.endFlash_touch

theorem State.startFlash_keeps (q : ℕ) (sidecarErr : List ℕ) (s : State) : Keeps State.startFlash_touch s
    (State.startFlash q sidecarErr s) := by
  unfold State.startFlash
  split
  · exact Keeps.rfl
  · refine Keeps.ite ?_ ?_
    · refine Keeps.after ?_ (State.flashDegraded_keeps ..) (by decide +kernel)
      exact Keeps.rfl
    · extract_lets x1 x2 x3 x4 x5 x6 x7 x8 x9 x10 x11 x12 x13 x14
      refine Keeps.ite ?_ ?_
      · exact Keeps.rfl
      · refine Keeps.after ?_ (State.endFlash_keeps ..) (by decide +kernel)
        refine Keeps.forEach _ _ (fun a1 t1 => ?_) ?_
        · refine Keeps.after ?_ (State.sendDegraded_keeps ..) (by decide +kernel)
          exact Keeps.rfl
        · refine Keeps.forEach _ _ (fun a1 t1 => ?_) ?_
          · refine Keeps.ite ?_ ?_
            · refine Keeps.after ?_ (State.sendRequests_keeps ..) (by decide +kernel)
              exact Keeps.rfl
            · exact Keeps.rfl
          · refine Keeps.forEach _ _ (fun a1 t1 => ?_) ?_
            · refine Keeps.after ?_ (State.sendRequests_keeps ..) (by decide +kernel)
              exact Keeps.rfl
            · refine Keeps.after ?_ (State.setQuery_keeps ..) (by decide +kernel)
              refine Keeps.forEach _ _ (fun a1 t1 => ?_) ?_
              · refine Keeps.ite ?_ ?_
                · refine Keeps.after ?_ (State.dramUncorr_keeps ..) (by decide +kernel)
                  exact Keeps.rfl
                · refine Keeps.after ?_ (State.flashAbsent_keeps ..) (by decide +kernel)
                  exact Keeps.rfl
              · exact Keeps.rfl

def State.afterMerge_touch : Nat := State.startFlash_touch

theorem State.afterMerge_keeps (q : ℕ) (sidecarErr : List ℕ) (bad : List ℕ) (s : State) : Keeps State.afterMerge_touch s
    (State.afterMerge q sidecarErr bad s) := by
  unfold State.afterMerge
  split
  · exact Keeps.rfl
  · extract_lets x1
    refine Keeps.ite ?_ ?_
    · refine Keeps.after ?_ (State.startFlash_keeps ..) (by decide +kernel)
      refine Keeps.after ?_ (State.setQuery_keeps ..) (by decide +kernel)
      exact Keeps.rfl
    · refine Keeps.ite ?_ ?_
      · refine Keeps.after ?_ (State.startFp16_keeps ..) (by decide +kernel)
        refine Keeps.after ?_ (State.setQuery_keeps ..) (by decide +kernel)
        exact Keeps.rfl
      · refine Keeps.after ?_ (State.finalSelect_keeps ..) (by decide +kernel)
        refine Keeps.after ?_ (State.setQuery_keeps ..) (by decide +kernel)
        exact Keeps.rfl

def State.excludeCand_touch : Nat := State.endFlash_touch

theorem State.excludeCand_keeps (q : ℕ) (cand : ℕ) (s : State) : Keeps State.excludeCand_touch s (State.excludeCand q
    cand s) := by
  unfold State.excludeCand
  refine Keeps.after ?_ (State.endFlash_keeps ..) (by decide +kernel)
  refine Keeps.after ?_ (State.modQuery_keeps ..) (by decide +kernel)
  exact Keeps.rfl

def State.fp16Lost_touch : Nat := State.unreachable_touch

theorem State.fp16Lost_keeps (wrs : List ℕ) (conn : ℕ) (s : State) : Keeps State.fp16Lost_touch s (State.fp16Lost wrs
    conn s) := by
  unfold State.fp16Lost
  refine Keeps.forEach _ _ (fun a1 t1 => ?_) ?_
  · split
    · refine Keeps.after ?_ (State.unreachable_keeps ..) (by decide +kernel)
      exact Keeps.rfl
    · exact Keeps.rfl
  · exact Keeps.rfl

def State.fp16Refused_touch : Nat := State.fp16Degraded_touch

theorem State.fp16Refused_keeps (wr : ℕ) (status : ℕ) (s : State) : Keeps State.fp16Refused_touch s (State.fp16Refused
    wr status s) := by
  unfold State.fp16Refused
  split
  · refine Keeps.ite ?_ ?_
    · refine Keeps.after ?_ (State.failQuery_keeps ..) (by decide +kernel)
      refine Keeps.after ?_ (State.closeRegion_keeps ..) (by decide +kernel)
      exact Keeps.rfl
    · refine Keeps.after ?_ (State.fp16Degraded_keeps ..) (by decide +kernel)
      exact Keeps.rfl
  · exact Keeps.rfl

def State.late_touch : Nat := touchSet [] [.TN_DL_LATE_RECORDS]

theorem State.late_keeps (pn : ℕ) (s : State) : Keeps State.late_touch s (State.late pn s) := by
  unfold State.late
  refine Keeps.bump ?_ (by decide +kernel)
  exact Keeps.rfl

def State.reduceFp16_touch : Nat := touchSet [] [.GE_ABSENT] ||| State.finalSelect_touch

theorem State.reduceFp16_keeps (q : ℕ) (s : State) : Keeps State.reduceFp16_touch s (State.reduceFp16 q s) := by
  unfold State.reduceFp16
  split
  · exact Keeps.rfl
  · extract_lets x1 x2 x3 x4 x5 x6 x7 x8 x9 x10 x11
    refine Keeps.after ?_ (State.finalSelect_keeps ..) (by decide +kernel)
    refine Keeps.after ?_ (State.setQuery_keeps ..) (by decide +kernel)
    refine Keeps.bump ?_ (by decide +kernel)
    refine Keeps.after ?_ (State.closeRegion_keeps ..) (by decide +kernel)
    exact Keeps.rfl

def State.refusePsum_touch : Nat := touchSet [.freeCount] [.GE_REQ_REFUSED] ||| State.sendCtl_touch

theorem State.refusePsum_keeps (c : ℕ) (msn : ℕ) (st : ℕ) (s : State) : Keeps State.refusePsum_touch s (State.refusePsum
    c msn st s) := by
  unfold State.refusePsum
  refine Keeps.after ?_ (State.sendCtl_keeps ..) (by decide +kernel)
  refine Keeps.bump ?_ (by decide +kernel)
  refine Keeps.after ?_ (State.draw_keeps ..) (by decide +kernel)
  exact Keeps.rfl

def State.retryFp16_touch : Nat := State.launchFp16_touch

theorem State.retryFp16_keeps (s : State) : Keeps State.retryFp16_touch s (State.retryFp16 s) := by
  unfold State.retryFp16
  refine Keeps.forEach _ _ (fun a1 t1 => ?_) ?_
  · refine Keeps.after ?_ (State.launchFp16_keeps ..) (by decide +kernel)
    exact Keeps.rfl
  · exact Keeps.rfl

def State.scoreCand_touch : Nat := State.endFlash_touch

theorem State.scoreCand_keeps (q : ℕ) (cand : ℕ) (score : BitVec 32) (rebuilt : Bool) (s : State) : Keeps
    State.scoreCand_touch s (State.scoreCand q cand score rebuilt s) := by
  unfold State.scoreCand
  refine Keeps.after ?_ (State.endFlash_keeps ..) (by decide +kernel)
  refine Keeps.after ?_ (State.modQuery_keeps ..) (by decide +kernel)
  exact Keeps.rfl

end Sys2Proof.Machine
end

