-- ==== Sys2Proof/Laws/KeepDeadline.lean ====
section
/-! SUPPORT. What each operation of Machine/Deadline.lean can change. -/

namespace Sys2Proof.Machine

set_option Elab.async false

def State.budgetEnd_touch : Nat := State.flashDegraded_touch

theorem State.budgetEnd_keeps (q : ℕ) (s : State) : Keeps State.budgetEnd_touch s (State.budgetEnd q s) := by
  unfold State.budgetEnd
  split
  · exact Keeps.rfl
  · split
    · refine Keeps.ite ?_ ?_
      · exact Keeps.rfl
      · refine Keeps.after ?_ (State.flashDegraded_keeps ..) (by decide +kernel)
        exact Keeps.rfl
    · refine Keeps.after ?_ (State.flashDegraded_keeps ..) (by decide +kernel)
      exact Keeps.rfl
    · refine Keeps.after ?_ (State.fp16Degraded_keeps ..) (by decide +kernel)
      exact Keeps.rfl
    · exact Keeps.rfl

def State.scanCut_touch : Nat := touchSet [] [.TN_DL_SCAN_CUT] ||| State.expireQuery_touch

theorem State.scanCut_keeps (q : ℕ) (s : State) : Keeps State.scanCut_touch s (State.scanCut q s) := by
  unfold State.scanCut
  split
  · exact Keeps.rfl
  · split
    · refine Keeps.after ?_ (State.expireQuery_keeps ..) (by decide +kernel)
      exact Keeps.rfl
    · refine Keeps.after ?_ (State.expireQuery_keeps ..) (by decide +kernel)
      exact Keeps.rfl
    · extract_lets x1 x2 x3 x4
      refine Keeps.ite ?_ ?_
      · refine Keeps.after ?_ (State.expireQuery_keeps ..) (by decide +kernel)
        refine Keeps.ite ?_ ?_
        · refine Keeps.bump ?_ (by decide +kernel)
          refine Keeps.bump ?_ (by decide +kernel)
          refine Keeps.after ?_ (State.cutScan_keeps ..) (by decide +kernel)
          exact Keeps.rfl
        · refine Keeps.bump ?_ (by decide +kernel)
          refine Keeps.after ?_ (State.cutScan_keeps ..) (by decide +kernel)
          exact Keeps.rfl
      · refine Keeps.after ?_ (State.flush_keeps ..) (by decide +kernel)
        refine Keeps.ite ?_ ?_
        · refine Keeps.bump ?_ (by decide +kernel)
          refine Keeps.bump ?_ (by decide +kernel)
          refine Keeps.after ?_ (State.cutScan_keeps ..) (by decide +kernel)
          exact Keeps.rfl
        · refine Keeps.bump ?_ (by decide +kernel)
          refine Keeps.after ?_ (State.cutScan_keeps ..) (by decide +kernel)
          exact Keeps.rfl
    · exact Keeps.rfl

def State.cutNow_touch : Nat := State.budgetEnd_touch ||| State.scanCut_touch

theorem State.cutNow_keeps (q : ℕ) (s : State) : Keeps State.cutNow_touch s (State.cutNow q s) := by
  unfold State.cutNow
  extract_lets x1
  refine Keeps.after ?_ (State.budgetEnd_keeps ..) (by decide +kernel)
  refine Keeps.after ?_ (State.scanCut_keeps ..) (by decide +kernel)
  refine Keeps.after ?_ (State.modQuery_keeps ..) (by decide +kernel)
  exact Keeps.rfl

end Sys2Proof.Machine
end

