-- ==== Sys2Proof/Laws/KeepUpdate.lean ====
section
/-! SUPPORT. What each operation of Machine/Update.lean can change. -/

namespace Sys2Proof.Machine

set_option Elab.async false

def State.copySlot_touch : Nat := touchSet [] [.HQ_UPD_SLOTS_NEW] ||| State.takeSlot_touch

theorem State.copySlot_keeps (k : ℕ) (k' : ℕ) (cl : ℕ) (reassign : Bool) (ord : ℕ) (code : Code) (s : State) : KeepsP
    State.copySlot_touch s (State.copySlot k k' cl reassign ord code s) := by
  unfold State.copySlot
  extract_lets x1 x2 x3 x4 x5 x6 x7
  refine KeepsP.ite ?_ ?_
  · refine KeepsP.some ?_
    exact Keeps.rfl
  · split
    · exact KeepsP.none
    · extract_lets x8 x9
      refine KeepsP.some ?_
      refine Keeps.after ?_ (State.modVersion_keeps ..) (by decide +kernel)
      refine Keeps.bump ?_ (by decide +kernel)
      refine Keeps.after ?_ (State.writeSlot_keeps ..) (by decide +kernel)
      refine Keeps.after ?_ (KeepsP.get (by assumption) (State.takeSlot_keeps _ _ _)) (by decide +kernel)
      exact Keeps.rfl

def State.encodeEntry_touch : Nat := touchSet [] [.PJ_ENC_INSERT] ||| State.encRecord_touch ||| State.encCode_touch

theorem State.encodeEntry_keeps (k : ℕ) (die : ℕ) (form : ℕ) (key : BitVec 32) (e : UEntry) (s : State) : Keeps2
    State.encodeEntry_touch s (State.encodeEntry k die form key e s) := by
  unfold State.encodeEntry
  extract_lets x1 x2 x3 x4 x5 x6
  refine Keeps2.ite ?_ ?_
  · refine Keeps2.ite ?_ ?_
    · refine Keeps2.of ?_
      refine Keeps.bump ?_ (by decide +kernel)
      refine Keeps.after ?_ (State.encCode_keeps ..) (by decide +kernel)
      exact Keeps.rfl
    · refine Keeps2.of ?_
      refine Keeps.after ?_ (State.encRecord_keeps ..) (by decide +kernel)
      refine Keeps.bump ?_ (by decide +kernel)
      refine Keeps.after ?_ (State.encCode_keeps ..) (by decide +kernel)
      exact Keeps.rfl
  · refine Keeps2.of ?_
    exact Keeps.rfl

def State.endPart_touch : Nat := State.takeAnswer_touch

theorem State.endPart_keeps (c : ℕ) (m : Cmd) (r : Res) (s : State) : Keeps State.endPart_touch s (State.endPart c m r
    s) := by
  unfold State.endPart
  split
  · refine Keeps.after ?_ (State.takeAnswer_keeps ..) (by decide +kernel)
    exact Keeps.rfl
  · refine Keeps.after ?_ (State.finish_keeps ..) (by decide +kernel)
    exact Keeps.rfl

def State.keepLog_touch : Nat := touchSet [.idx] []

theorem State.keepLog_keeps (k : ℕ) (m : Cmd) (retire : List ℕ) (r : Res) (s : State) : Keeps State.keepLog_touch s
    (State.keepLog k m retire r s) := by
  unfold State.keepLog
  extract_lets x1 x2
  clear_value x1
  split
  · extract_lets x2
    refine Keeps.idx ?_ (by decide +kernel)
    exact Keeps.rfl
  · exact Keeps.rfl

def State.mirrorLate_touch : Nat := touchSet [] [.HQ_UPD_MIRRORED] ||| State.copySlot_touch

theorem State.mirrorLate_keeps (j : UpdJob) (s : State) : KeepsP State.mirrorLate_touch s (s.mirrorLate j) := by
  unfold State.mirrorLate
  extract_lets x
  split
  · exact KeepsP.some Keeps.rfl
  · extract_lets k' go
    have hg : KeepsP State.mirrorLate_touch s go := by
      refine KeepsP.foldl _ _ (fun o n ho => ?_) (KeepsP.some Keeps.rfl)
      intro x t h
      obtain ⟨a, ha, h⟩ := Option.bind_eq_some_iff.mp h
      obtain ⟨r, hr, e⟩ := Option.map_eq_some_iff.mp h
      cases e
      exact Keeps.after (ho a.1 a.2 ha) (KeepsP.get (x := r.1) hr (State.copySlot_keeps _ _ _ _ _ _ _)) (by decide +kernel)
    intro x t h
    obtain ⟨a, ha, e⟩ := Option.map_eq_some_iff.mp h
    cases e
    exact Keeps.bump (KeepsP.get (x := a.1) ha hg) (by decide +kernel)

def State.placeSlot_touch : Nat := State.takeSlot_touch

theorem State.placeSlot_keeps (k i cl : Nat) (canon : Option Nat) (e : UEntry) (std : BitVec 16) (code : Code)
    (record : List Byte) (s : State) : KeepsP State.placeSlot_touch s (s.placeSlot k i cl canon e std code record) := by
  unfold State.placeSlot
  intro x t h
  obtain ⟨r, hr, e⟩ := Option.map_eq_some_iff.mp h
  cases e
  exact Keeps.after Keeps.rfl (KeepsP.get (x := r.1) hr (State.takeSlot_keeps _ _ _)) (by decide +kernel)

def State.placeAll_touch : Nat := State.placeSlot_touch

theorem State.placeAll_keeps (k i : Nat) (e : UEntry) (std : BitVec 16) (code : Code) (record : List Byte)
    (cls : List Nat) (canon : Option Nat) (s : State) :
    KeepsP State.placeAll_touch s (State.placeAll k i e std code record cls canon s) := by
  induction cls generalizing canon s with
  | nil => exact KeepsP.some Keeps.rfl
  | cons cl cls ih =>
    unfold State.placeAll
    split
    · exact KeepsP.none
    · rename_i n u hu
      intro x t h
      obtain ⟨r, hr, e⟩ := Option.map_eq_some_iff.mp h
      cases e
      have h1 := Keeps.after Keeps.rfl (KeepsP.get hu (State.placeSlot_keeps _ _ _ _ _ _ _ _ _)) (Nat.and_self _)
      exact Keeps.after h1 (KeepsP.get (x := r.1) hr (ih _ _)) (Nat.and_self _)

def State.placeMirror_touch : Nat := touchSet [] [.HQ_UPD_MIRRORED] ||| State.encodeEntry_touch ||| State.placeAll_touch

theorem State.placeMirror_keeps (k : ℕ) (i : ℕ) (die : ℕ) (form : ℕ) (key : BitVec 32) (e : UEntry) (std : BitVec 16)
    (made : List NewSlot) (s : State) : KeepsP State.placeMirror_touch s (State.placeMirror k i die form key e std made
    s) := by
  unfold State.placeMirror
  extract_lets x1
  split
  · extract_lets x2 x3 x4
    split
    extract_lets x5 x6
    split
    · exact KeepsP.none
    · extract_lets x7 x8 x9
      refine KeepsP.some ?_
      refine Keeps.bump ?_ (by decide +kernel)
      refine Keeps.after ?_ (State.modVersion_keeps ..) (by decide +kernel)
      refine Keeps.after ?_ (KeepsP.get (by assumption) (State.placeAll_keeps _ _ _ _ _ _ _ _ _)) (by decide +kernel)
      refine Keeps.after ?_ (State.encodeEntry_keeps ..) (by decide +kernel)
      exact Keeps.rfl
  · refine KeepsP.some ?_
    exact Keeps.rfl

def State.placeEntries_touch : Nat := State.placeMirror_touch

theorem State.placeEntries_keeps (k die op form : Nat) (key : BitVec 32) (es : List (Nat × UEntry)) (acc : Placed)
    (s : State) : KeepsP State.placeEntries_touch s (State.placeEntries k die op form key es acc s) := by
  induction es generalizing acc s with
  | nil => exact KeepsP.some Keeps.rfl
  | cons p es ih =>
    obtain ⟨i, e⟩ := p
    unfold State.placeEntries
    extract_lets x enc canon std e' cls
    have h1 : Keeps State.placeEntries_touch s enc.2 :=
      Keeps.after Keeps.rfl (State.encodeEntry_keeps ..) (by decide +kernel)
    split
    · exact KeepsP.none
    · rename_i hn
      have h2 := Keeps.after h1 (KeepsP.get hn (State.placeAll_keeps _ _ _ _ _ _ _ _ _)) (by decide +kernel)
      split
      · exact KeepsP.none
      · rename_i hm
        have h3 := Keeps.after h2 (KeepsP.get hm (State.placeMirror_keeps _ _ _ _ _ _ _ _ _)) (by decide +kernel)
        exact KeepsP.after h3 (ih _ _) (Nat.and_self _)

def State.postList_touch : Nat := State.postSend_touch

theorem State.postList_keeps (conn : ℕ) (sh : ℕ) (k : ℕ) (cl : ℕ) (slots : List Byte) (s : State) : Keeps
    State.postList_touch s (State.postList conn sh k cl slots s) := by
  unfold State.postList
  extract_lets x1 x2
  refine Keeps.after ?_ (State.postSend_keeps ..) (by decide +kernel)
  exact Keeps.rfl

def State.queueRetired_touch : Nat := touchSet [.idx] [.HQ_UPD_REDUNDANT] ||| State.holdRef_touch

theorem State.queueRetired_keeps (k : ℕ) (ref : ℕ) (s : State) : Keeps State.queueRetired_touch s (State.queueRetired k
    ref s) := by
  unfold State.queueRetired
  refine Keeps.ite ?_ ?_
  · refine Keeps.bump ?_ (by decide +kernel)
    exact Keeps.rfl
  · extract_lets x1 x2 x3
    refine Keeps.after ?_ (State.holdRef_keeps ..) (by decide +kernel)
    refine Keeps.idx ?_ (by decide +kernel)
    exact Keeps.rfl

def State.sendLate_touch : Nat := State.postList_touch

theorem State.sendLate_keeps (j : UpdJob) (s : State) : Keeps State.sendLate_touch s (State.sendLate j s) := by
  unfold State.sendLate
  refine Keeps.forEach _ _ (fun a1 t1 => ?_) ?_
  · extract_lets x1 x2 x3
    refine Keeps.forEach _ _ (fun a2 t2 => ?_) ?_
    · refine Keeps.after ?_ (State.postList_keeps ..) (by decide +kernel)
      exact Keeps.rfl
    · refine Keeps.forEach _ _ (fun a2 t2 => ?_) ?_
      · refine Keeps.after ?_ (State.postList_keeps ..) (by decide +kernel)
        exact Keeps.rfl
      · exact Keeps.rfl
  · exact Keeps.rfl

def State.visible_touch : Nat := State.endPart_touch

theorem State.visible_keeps (c : ℕ) (k : ℕ) (m : Cmd) (retire : List ℕ) (r : Res) (s : State) : Keeps
    State.visible_touch s (State.visible c k m retire r s) := by
  unfold State.visible
  extract_lets x1 x2 x3 x4
  refine Keeps.after ?_ (State.endPart_keeps ..) (by decide +kernel)
  refine Keeps.after ?_ (State.releaseRef_keeps ..) (by decide +kernel)
  refine Keeps.ite ?_ ?_
  · refine Keeps.after ?_ (State.signal_keeps ..) (by decide +kernel)
    refine Keeps.bump ?_ (by decide +kernel)
    refine Keeps.forEach _ _ (fun a1 t1 => ?_) ?_
    · refine Keeps.after ?_ (State.queueRetired_keeps ..) (by decide +kernel)
      exact Keeps.rfl
    · refine Keeps.after ?_ (State.keepLog_keeps ..) (by decide +kernel)
      exact Keeps.rfl
  · refine Keeps.bump ?_ (by decide +kernel)
    refine Keeps.forEach _ _ (fun a1 t1 => ?_) ?_
    · refine Keeps.after ?_ (State.queueRetired_keeps ..) (by decide +kernel)
      exact Keeps.rfl
    · refine Keeps.after ?_ (State.keepLog_keeps ..) (by decide +kernel)
      exact Keeps.rfl

def State.settleJob_touch : Nat := State.visible_touch ||| State.mirrorLate_touch

theorem State.settleJob_keeps (seq : ℕ) (s : State) : Keeps State.settleJob_touch s (State.settleJob seq s) := by
  unfold State.settleJob
  split
  · exact Keeps.rfl
  · refine Keeps.ite ?_ ?_
    · split
      · refine Keeps.after ?_ (State.dropJob_keeps ..) (by decide +kernel)
        refine Keeps.after ?_ (State.dropReserved_keeps ..) (by decide +kernel)
        exact Keeps.rfl
      · split
        · refine Keeps.after ?_ (State.endPart_keeps ..) (by decide +kernel)
          refine Keeps.after ?_ (State.undoJob_keeps ..) (by decide +kernel)
          exact Keeps.rfl
        · extract_lets x1 x2 x3
          refine Keeps.after ?_ (State.visible_keeps ..) (by decide +kernel)
          refine Keeps.after ?_ (State.dropJob_keeps ..) (by decide +kernel)
          refine Keeps.after ?_ (State.sendLate_keeps ..) (by decide +kernel)
          refine Keeps.after ?_ (State.dropReserved_keeps ..) (by decide +kernel)
          refine Keeps.after ?_ (KeepsP.get (by assumption) (State.mirrorLate_keeps _ _)) (by decide +kernel)
          exact Keeps.rfl
    · exact Keeps.rfl

def State.tearUpdate_touch : Nat := State.finish_touch ||| State.undoJob_touch

theorem State.tearUpdate_keeps (j : UpdJob) (status : ℕ) (s : State) : Keeps State.tearUpdate_touch s (State.tearUpdate
    j status s) := by
  unfold State.tearUpdate
  refine Keeps.after ?_ (State.finish_keeps ..) (by decide +kernel)
  refine Keeps.after ?_ (State.undoJob_keeps ..) (by decide +kernel)
  exact Keeps.rfl

def State.writeNew_touch : Nat := touchSet [.idx] []

theorem State.writeNew_keeps (n : NewSlot) (s : State) : Keeps State.writeNew_touch s (State.writeNew n s) := by
  unfold State.writeNew
  refine Keeps.after ?_ (State.writeSlot_keeps ..) (by decide +kernel)
  exact Keeps.rfl

def State.writeReady_touch : Nat := touchSet [.idx] [.HQ_UPD_SLOTS_NEW]

theorem State.writeReady_keeps (j : UpdJob) (s : State) : Keeps State.writeReady_touch s (State.writeReady j s) := by
  unfold State.writeReady
  extract_lets x1 x2
  refine Keeps.after ?_ (State.setJob_keeps ..) (by decide +kernel)
  refine Keeps2.foldl _ _ (fun p1 a1 => ?_) ?_
  · extract_lets x3
    refine Keeps2.ite ?_ ?_
    · refine Keeps2.of ?_
      refine Keeps.bump ?_ (by decide +kernel)
      refine Keeps.after ?_ (State.writeNew_keeps ..) (by decide +kernel)
      exact Keeps.rfl
    · refine Keeps2.of ?_
      exact Keeps.rfl
  · exact Keeps.rfl

end Sys2Proof.Machine
end

