-- ==== Sys2Proof/Laws/KeepTeardown.lean ====
section
/-! SUPPORT. What each operation of Machine/Teardown.lean can change. -/

namespace Sys2Proof.Machine

set_option Elab.async false

def State.dropRows_touch : Nat := touchSet [.tbl] [.GE_STATUS]

theorem State.dropRows_keeps (seq : ℕ) (s : State) : Keeps State.dropRows_touch s (State.dropRows seq s) := by
  unfold State.dropRows
  extract_lets x1 x2
  refine Keeps.forEach _ _ (fun a1 t1 => ?_) ?_
  · refine Keeps.after ?_ (State.noteHeavy_keeps ..) (by decide +kernel)
    exact Keeps.rfl
  · refine Keeps.tbl ?_ (by decide +kernel)
    exact Keeps.rfl

def State.tearBatch_touch : Nat := touchSet [] [.SY_VAL] ||| State.finish_touch ||| State.dropRows_touch

theorem State.tearBatch_keeps (j : TblJob) (status : ℕ) (s : State) : Keeps State.tearBatch_touch s (State.tearBatch j
    status s) := by
  unfold State.tearBatch
  extract_lets x1 x2
  refine Keeps.after ?_ (State.finish_keeps ..) (by decide +kernel)
  refine Keeps.after ?_ (State.releaseTable_keeps ..) (by decide +kernel)
  refine Keeps.after ?_ (State.log_keeps ..) (by decide +kernel)
  refine Keeps.after ?_ (State.dropRows_keeps ..) (by decide +kernel)
  exact Keeps.rfl

def State.tearGroup_touch : Nat := State.startShadow_touch ||| State.endGroup_touch ||| State.dropQuery_touch

theorem State.tearGroup_keeps (g : GroupJob) (status : ℕ) (s : State) : Keeps State.tearGroup_touch s (State.tearGroup g
    status s) := by
  unfold State.tearGroup
  extract_lets x1 x2
  refine Keeps.after ?_ (State.endGroup_keeps ..) (by decide +kernel)
  subst x2
  split
  · refine Keeps.ite ?_ ?_
    · refine Keeps.after ?_ (State.startShadow_keeps ..) (by decide +kernel)
      refine Keeps.after ?_ (State.dropQuery_keeps ..) (by decide +kernel)
      exact Keeps.rfl
    · refine Keeps.after ?_ (State.dropQuery_keeps ..) (by decide +kernel)
      exact Keeps.rfl
  · refine Keeps.after ?_ (State.dropQuery_keeps ..) (by decide +kernel)
    exact Keeps.rfl

def State.tearQuery_touch : Nat := State.failQuery_touch

theorem State.tearQuery_keeps (q : ℕ) (status : ℕ) (s : State) : Keeps State.tearQuery_touch s (State.tearQuery q status
    s) := by
  unfold State.tearQuery
  split
  · exact Keeps.rfl
  · refine Keeps.ite ?_ ?_
    · refine Keeps.after ?_ (State.endShadow_keeps ..) (by decide +kernel)
      exact Keeps.rfl
    · refine Keeps.after ?_ (State.failQuery_keeps ..) (by decide +kernel)
      exact Keeps.rfl

def State.tearCmd_touch : Nat := State.tearQuery_touch ||| State.tearBatch_touch

theorem State.tearCmd_keeps (c : ℕ) (seq : ℕ) (status : ℕ) (s : State) : Keeps State.tearCmd_touch s (State.tearCmd c
    seq status s) := by
  unfold State.tearCmd
  split
  · refine Keeps.after ?_ (State.tearGroup_keeps ..) (by decide +kernel)
    exact Keeps.rfl
  · split
    · refine Keeps.after ?_ (State.tearUpdate_keeps ..) (by decide +kernel)
      exact Keeps.rfl
    · split
      · refine Keeps.after ?_ (State.tearBatch_keeps ..) (by decide +kernel)
        exact Keeps.rfl
      · refine Keeps.ite ?_ ?_
        · refine Keeps.after ?_ (State.tearQuery_keeps ..) (by decide +kernel)
          exact Keeps.rfl
        · refine Keeps.after ?_ (State.finish_keeps ..) (by decide +kernel)
          exact Keeps.rfl

def State.tearAll_touch : Nat := State.tearCmd_touch

theorem State.tearAll_keeps (c : ℕ) (status : ℕ) (s : State) : Keeps State.tearAll_touch s (State.tearAll c status s) :=
    by
  unfold State.tearAll
  refine Keeps.forEach _ _ (fun a1 t1 => ?_) ?_
  · refine Keeps.after ?_ (State.tearCmd_keeps ..) (by decide +kernel)
    exact Keeps.rfl
  · exact Keeps.rfl

def State.closeCtx_touch : Nat := touchSet [] [.HQ_CTX_CTL] ||| State.tearAll_touch

theorem State.closeCtx_keeps (c : ℕ) (s : State) : Keeps State.closeCtx_touch s (State.closeCtx c s) := by
  unfold State.closeCtx
  refine Keeps.ite ?_ ?_
  · extract_lets x1
    refine Keeps.after ?_ (State.settleClosing_keeps ..) (by decide +kernel)
    refine Keeps.after ?_ (State.tearAll_keeps ..) (by decide +kernel)
    refine Keeps.setFld ?_ (by decide +kernel)
    refine Keeps.setFld ?_ (by decide +kernel)
    exact Keeps.rfl
  · exact Keeps.rfl

def State.tearJob_touch : Nat := touchSet [] [.TN_ACC_TORN] ||| State.tearCmd_touch

theorem State.tearJob_keeps (c : ℕ) (seq : ℕ) (s : State) : Keeps State.tearJob_touch s (State.tearJob c seq s) := by
  unfold State.tearJob
  refine Keeps.after ?_ (State.tearCmd_keeps ..) (by decide +kernel)
  refine Keeps.bump ?_ (by decide +kernel)
  exact Keeps.rfl

def State.tearJobFor_touch : Nat := State.tearJob_touch

theorem State.tearJobFor_keeps (c : ℕ) (seq : ℕ) (err : ℕ) (s : State) : Keeps State.tearJobFor_touch s
    (State.tearJobFor c seq err s) := by
  unfold State.tearJobFor
  refine Keeps.after ?_ (State.tearJob_keeps ..) (by decide +kernel)
  refine Keeps.after ?_ (State.modQuery_keeps ..) (by decide +kernel)
  refine Keeps.after ?_ (State.modCmd_keeps ..) (by decide +kernel)
  exact Keeps.rfl

end Sys2Proof.Machine
end

