-- ==== Sys2Proof/Laws/KeepHostIf.lean ====
section
/-! SUPPORT. What each operation of Machine/HostIf.lean can change. -/

namespace Sys2Proof.Machine

set_option Elab.async false

def State.admitBad_touch : Nat := State.admitCmd_touch

theorem State.admitBad_keeps (c n : Nat) (s : State) : Keeps State.admitBad_touch s (State.admitBad c n s) := by
  induction n generalizing s with
  | zero =>
    unfold State.admitBad
    exact Keeps.rfl
  | succ n ih =>
    unfold State.admitBad
    split
    · refine Keeps.ite ?_ ?_
      · exact Keeps.rfl
      · refine Keeps.after ?_ (ih _) (Nat.and_self _)
        refine State.admitCmd_keeps (by decide +kernel) (fun a01 t1 => ?_) ?_
        · refine Keeps.after ?_ (State.finish_keeps ..) (by decide +kernel)
          exact Keeps.rfl
        · exact Keeps.rfl
    · exact Keeps.rfl

def State.cancelCmd_touch : Nat := State.cutNow_touch

theorem State.cancelCmd_keeps (c : ℕ) (y : Cmd) (s : State) : Keeps State.cancelCmd_touch s (State.cancelCmd c y s) :=
    by
  unfold State.cancelCmd
  refine Keeps.ite ?_ ?_
  · refine Keeps.ite ?_ ?_
    · refine Keeps.after ?_ (State.modCmd_keeps ..) (by decide +kernel)
      exact Keeps.rfl
    · split
      · refine Keeps.ite ?_ ?_
        · refine Keeps.after ?_ (State.settleGroup_keeps ..) (by decide +kernel)
          refine Keeps.after ?_ (State.setGroup_keeps ..) (by decide +kernel)
          refine Keeps.after ?_ (State.cutNow_keeps ..) (by decide +kernel)
          exact Keeps.rfl
        · refine Keeps.after ?_ (State.tearGroup_keeps ..) (by decide +kernel)
          exact Keeps.rfl
      · refine Keeps.after ?_ (State.cutNow_keeps ..) (by decide +kernel)
        exact Keeps.rfl
  · exact Keeps.rfl

def State.closePort_touch : Nat := State.closeCtx_touch

theorem State.closePort_keeps (port : ℕ) (func : Option ℕ) (s : State) : Keeps State.closePort_touch s (State.closePort
    port func s) := by
  unfold State.closePort
  refine Keeps.forEach _ _ (fun a1 t1 => ?_) ?_
  · refine Keeps.ite ?_ ?_
    · refine Keeps.after ?_ (State.closeCtx_keeps ..) (by decide +kernel)
      refine Keeps.after ?_ (State.modCtx_keeps ..) (by decide +kernel)
      exact Keeps.rfl
    · exact Keeps.rfl
  · exact Keeps.rfl

def State.rebind_touch : Nat := touchSet [] [.HQ_CTX_BIND, .HQ_CTX_CTL] ||| State.discard_touch ||| State.modCtx_touch

theorem State.rebind_keeps (c : ℕ) (port : ℕ) (func : ℕ) (loc : W64) (value : W64) (s : State) : Keeps
    State.rebind_touch s (State.rebind c port func loc value s) := by
  unfold State.rebind
  extract_lets x1 x2
  refine Keeps.ite ?_ ?_
  · refine Keeps.after ?_ (State.discard_keeps ..) (by decide +kernel)
    refine Keeps.after ?_ (State.modCtx_keeps ..) (by decide +kernel)
    refine Keeps.setFld ?_ (by decide +kernel)
    refine Keeps.setFld ?_ (by decide +kernel)
    exact Keeps.rfl
  · refine Keeps.setFld ?_ (by decide +kernel)
    refine Keeps.setFld ?_ (by decide +kernel)
    refine Keeps.setFld ?_ (by decide +kernel)
    refine Keeps.setFld ?_ (by decide +kernel)
    exact Keeps.rfl

def State.refuseDoorbell_touch : Nat := touchSet [] [.HQ_DB_DISCARDED] ||| State.log_touch

theorem State.refuseDoorbell_keeps (c : ℕ) (value : ℕ) (s : State) : Keeps State.refuseDoorbell_touch s
    (State.refuseDoorbell c value s) := by
  unfold State.refuseDoorbell
  refine Keeps.after ?_ (State.log_keeps ..) (by decide +kernel)
  refine Keeps.bump ?_ (by decide +kernel)
  exact Keeps.rfl

def State.settleTake_touch : Nat := touchSet [] [.HQ_CG_CTL]

theorem State.settleTake_keeps (g : ℕ) (s : State) : Keeps State.settleTake_touch s (State.settleTake g s) := by
  unfold State.settleTake
  extract_lets x1
  refine Keeps.ite ?_ ?_
  · refine Keeps.setFld ?_ (by decide +kernel)
    refine Keeps.setFld ?_ (by decide +kernel)
    exact Keeps.rfl
  · exact Keeps.rfl

def State.undoDone_touch : Nat := State.rollback_touch

theorem State.undoDone_keeps (d : DoneCmd) (s : State) : Keeps State.undoDone_touch s (State.undoDone d s) := by
  unfold State.undoDone
  refine Keeps.ite ?_ ?_
  · refine Keeps.after ?_ (State.rollback_keeps ..) (by decide +kernel)
    exact Keeps.rfl
  · refine Keeps.ite ?_ ?_
    · extract_lets x1 x2 x3
      refine Keeps.forEach _ _ (fun a1 t1 => ?_) ?_
      · refine Keeps.after ?_ (State.modVersion_keeps ..) (by decide +kernel)
        exact Keeps.rfl
      · refine Keeps.after ?_ (State.rollback_keeps ..) (by decide +kernel)
        exact Keeps.rfl
    · exact Keeps.rfl

def State.takeCtx_touch : Nat := touchSet [] [.HQ_HO_TORN] ||| State.tearAll_touch

theorem State.takeCtx_keeps (c : ℕ) (s : State) : Keeps State.takeCtx_touch s (State.takeCtx c s) := by
  unfold State.takeCtx
  extract_lets x1 x2 x3 x4 x5
  refine Keeps.bump ?_ (by decide +kernel)
  refine Keeps.after ?_ (State.setCtx_keeps ..) (by decide +kernel)
  refine Keeps.forEach _ _ (fun a1 t1 => ?_) ?_
  · refine Keeps.after ?_ (State.undoDone_keeps ..) (by decide +kernel)
    exact Keeps.rfl
  · refine Keeps.after ?_ (State.tearAll_keeps ..) (by decide +kernel)
    refine Keeps.after ?_ (State.setCtx_keeps ..) (by decide +kernel)
    exact Keeps.rfl

def State.writeCtxCtl_touch : Nat := touchSet [] [.HQ_CTX_CTL] ||| State.discard_touch

theorem State.writeCtxCtl_keeps (c : ℕ) (v : W64) (loc : W64) (s : State) : Keeps State.writeCtxCtl_touch s
    (State.writeCtxCtl c v loc s) := by
  unfold State.writeCtxCtl
  extract_lets x1 x2 x3 x4 x5
  subst x2
  beta_reduce
  refine Keeps.setFld ?_ (by decide +kernel)
  refine Keeps.setFld ?_ (by decide +kernel)
  refine Keeps.setFld ?_ (by decide +kernel)
  refine Keeps.setFld ?_ (by decide +kernel)
  refine Keeps.ite ?_ ?_
  · beta_reduce
    refine Keeps.setFld ?_ (by decide +kernel)
    refine Keeps.setFld ?_ (by decide +kernel)
    exact Keeps.rfl
  · refine Keeps.ite ?_ ?_
    · exact Keeps.rfl
    · refine Keeps.after ?_ (State.discard_keeps ..) (by decide +kernel)
      exact Keeps.rfl

def execCancel_touch : Nat := touchSet [] [.HQ_CANCELS] ||| State.cancelCmd_touch ||| State.admitBad_touch

theorem execCancel_ends (c : ℕ) (seq : ℕ) (s : State) : Ends execCancel_touch s (execCancel c seq s) := by
  unfold execCancel
  split
  · refine Ends.next ?_
    exact Keeps.rfl
  · refine Ends.ite ?_ ?_
    · extract_lets x1
      refine Ends.next ?_
      refine Keeps.after ?_ (State.admitBad_keeps ..) (by decide +kernel)
      refine State.admitCmd_keeps (by decide +kernel) (fun a01 t1 => ?_) ?_
      · refine Keeps.ite ?_ ?_
        · refine Keeps.after ?_ (State.finish_keeps ..) (by decide +kernel)
          exact Keeps.rfl
        · split
          · refine Keeps.after ?_ (State.gFinish_keeps ..) (by decide +kernel)
            refine Keeps.bump ?_ (by decide +kernel)
            refine Keeps.after ?_ (State.cancelCmd_keeps ..) (by decide +kernel)
            exact Keeps.rfl
          · refine Keeps.after ?_ (State.gFinish_keeps ..) (by decide +kernel)
            exact Keeps.rfl
      · exact Keeps.rfl
    · refine Ends.next ?_
      exact Keeps.rfl

def execCompletionTimeout_touch : Nat := State.finish_touch

theorem execCompletionTimeout_ends (c : ℕ) (seq : ℕ) (addr : W64) (s : State) : Ends execCompletionTimeout_touch s
    (execCompletionTimeout c seq addr s) := by
  unfold execCompletionTimeout
  split
  · refine Ends.ite ?_ ?_
    · refine Ends.next ?_
      exact Keeps.rfl
    · extract_lets x1 x2
      refine Ends.next ?_
      refine Keeps.after ?_ (State.finish_keeps ..) (by decide +kernel)
      refine Keeps.after ?_ (State.hostDmaErr_keeps ..) (by decide +kernel)
      refine Keeps.after ?_ (State.draw_keeps ..) (by decide +kernel)
      exact Keeps.rfl
  · refine Ends.next ?_
    exact Keeps.rfl

def execContextClose_touch : Nat := State.closeCtx_touch

theorem execContextClose_ends (c : ℕ) (value : W64) (loc : W64) (s : State) : Ends execContextClose_touch s
    (execContextClose c value loc s) := by
  unfold execContextClose
  refine Ends.ite ?_ ?_
  · refine Ends.next ?_
    refine Keeps.after ?_ (State.closeCtx_keeps ..) (by decide +kernel)
    refine Keeps.after ?_ (State.writeCtxCtl_keeps ..) (by decide +kernel)
    exact Keeps.rfl
  · refine Ends.next ?_
    exact Keeps.rfl

def execContextOpen_touch : Nat := touchSet [] [.HQ_CG_CTL, .HQ_CTX_CTL] ||| State.writeFates_touch

theorem execContextOpen_ends (c : ℕ) (value : W64) (loc : W64) (s : State) : Ends execContextOpen_touch s
    (execContextOpen c value loc s) := by
  unfold execContextOpen
  extract_lets x1 x2 x3 x4 x5 x6
  refine Ends.ite ?_ ?_
  · refine Ends.next ?_
    exact Keeps.rfl
  · refine Ends.ite ?_ ?_
    · refine Ends.ite ?_ ?_
      · refine Ends.next ?_
        refine Keeps.after ?_ (State.settleTake_keeps ..) (by decide +kernel)
        refine Keeps.after ?_ (State.writeFates_keeps ..) (by decide +kernel)
        refine Keeps.setFld ?_ (by decide +kernel)
        refine Keeps.after ?_ (State.draw_keeps ..) (by decide +kernel)
        refine Keeps.after ?_ (State.setCtx_keeps ..) (by decide +kernel)
        refine Keeps.setFld ?_ (by decide +kernel)
        refine Keeps.after ?_ (State.writeCtxCtl_keeps ..) (by decide +kernel)
        exact Keeps.rfl
      · refine Ends.next ?_
        refine Keeps.after ?_ (State.discard_keeps ..) (by decide +kernel)
        refine Keeps.after ?_ (State.writeCtxCtl_keeps ..) (by decide +kernel)
        exact Keeps.rfl
    · refine Ends.next ?_
      refine Keeps.after ?_ (State.writeCtxCtl_keeps ..) (by decide +kernel)
      exact Keeps.rfl

def execCqDoorbell_touch : Nat := touchSet [] [.HQ_DB_DISCARDED, .HQ_FETCH_HELD_NS] ||| State.writeFates_touch

theorem execCqDoorbell_ends (c : ℕ) (head : ℕ) (port : ℕ) (func : ℕ) (_loc : W64) (s : State) : Ends
    execCqDoorbell_touch s (execCqDoorbell c head port func _loc s) := by
  unfold execCqDoorbell
  extract_lets x1 x2 x3 x4
  refine Ends.ite ?_ ?_
  · refine Ends.next ?_
    refine Keeps.after ?_ (State.noteHeld_keeps ..) (by decide +kernel)
    refine Keeps.after ?_ (State.writeFates_keeps ..) (by decide +kernel)
    refine Keeps.after ?_ (State.setCtx_keeps ..) (by decide +kernel)
    exact Keeps.rfl
  · refine Ends.next ?_
    refine Keeps.after ?_ (State.refuseDoorbell_keeps ..) (by decide +kernel)
    exact Keeps.rfl

def execDescriptorFetch_touch : Nat := touchSet [] [.HQ_CMD_FETCHED, .HQ_FETCH_HELD_NS] ||| State.admitBad_touch

theorem execDescriptorFetch_ends (c : ℕ) (readOk : Bool) (pcieErr : ℕ) (s : State) : Ends execDescriptorFetch_touch s
    (execDescriptorFetch c readOk pcieErr s) := by
  unfold execDescriptorFetch
  refine Ends.ite ?_ ?_
  · extract_lets x1 x2 x3 x4 x5 x6 x7 x8 x9 x10 x11
    refine Ends.ite ?_ ?_
    · refine Ends.next ?_
      refine Keeps.after ?_ (State.admitBad_keeps ..) (by decide +kernel)
      refine Keeps.after ?_ (State.noteHeld_keeps ..) (by decide +kernel)
      refine Keeps.bump ?_ (by decide +kernel)
      refine Keeps.after ?_ (State.setCtx_keeps ..) (by decide +kernel)
      refine Keeps.hq ?_ (by decide +kernel)
      exact Keeps.rfl
    · refine Ends.next ?_
      refine Keeps.after ?_ (State.writeEntry_keeps ..) (by decide +kernel)
      refine Keeps.bump ?_ (by decide +kernel)
      refine Keeps.after ?_ (State.hostDmaErr_keeps ..) (by decide +kernel)
      refine Keeps.after ?_ (State.setCtx_keeps ..) (by decide +kernel)
      refine Keeps.hq ?_ (by decide +kernel)
      exact Keeps.rfl
  · refine Ends.next ?_
    exact Keeps.rfl

def execFunctionLevelReset_touch : Nat := touchSet [] [.HQ_MB_CTL] ||| State.closePort_touch

theorem execFunctionLevelReset_ends (port : ℕ) (func : ℕ) (s : State) : Ends execFunctionLevelReset_touch s
    (execFunctionLevelReset port func s) := by
  unfold execFunctionLevelReset
  extract_lets x1
  refine Ends.ite ?_ ?_
  · refine Ends.next ?_
    refine Keeps.setFld ?_ (by decide +kernel)
    refine Keeps.setFld ?_ (by decide +kernel)
    refine Keeps.setFld ?_ (by decide +kernel)
    refine Keeps.after ?_ (State.closePort_keeps ..) (by decide +kernel)
    exact Keeps.rfl
  · refine Ends.next ?_
    refine Keeps.after ?_ (State.closePort_keeps ..) (by decide +kernel)
    exact Keeps.rfl

def execLogRead_touch : Nat := touchSet [.qry] [.SY_VAL] ||| State.admitBad_touch

theorem execLogRead_ends (c : ℕ) (s : State) : Ends execLogRead_touch s (execLogRead c s) := by
  unfold execLogRead
  extract_lets x1
  refine Ends.next ?_
  refine Keeps.after ?_ (State.admitBad_keeps ..) (by decide +kernel)
  refine State.admitFront_keeps (by decide +kernel) (fun a01 t1 => ?_) ?_
  · extract_lets x2 x3 x4 x5 x6 x7
    refine Keeps.ite ?_ ?_
    · refine Keeps.after ?_ (State.finish_keeps ..) (by decide +kernel)
      exact Keeps.rfl
    · refine Keeps.after ?_ (State.gFinish_keeps ..) (by decide +kernel)
      refine Keeps.after ?_ (State.setShadow_keeps ..) (by decide +kernel)
      exact Keeps.rfl
  · exact Keeps.rfl

def execMsixCoalesceTimeout_touch : Nat := touchSet [.now] [] ||| State.sendIrq_touch

theorem execMsixCoalesceTimeout_ends (c : ℕ) (s : State) : Ends execMsixCoalesceTimeout_touch s (execMsixCoalesceTimeout
    c s) := by
  unfold execMsixCoalesceTimeout
  extract_lets x1 x2
  refine Ends.ite ?_ ?_
  · refine Ends.next ?_
    refine Keeps.after ?_ (State.sendIrq_keeps ..) (by decide +kernel)
    refine Keeps.after ?_ (State.reach_keeps ..) (by decide +kernel)
    exact Keeps.rfl
  · refine Ends.next ?_
    exact Keeps.rfl

def execNop_touch : Nat := State.admitBad_touch

theorem execNop_ends (c : ℕ) (s : State) : Ends execNop_touch s (execNop c s) := by
  unfold execNop
  extract_lets x1
  refine Ends.next ?_
  refine Keeps.after ?_ (State.admitBad_keeps ..) (by decide +kernel)
  refine State.admitFront_keeps (by decide +kernel) (fun a01 t1 => ?_) ?_
  · refine Keeps.after ?_ (State.finish_keeps ..) (by decide +kernel)
    exact Keeps.rfl
  · exact Keeps.rfl

def execPerstAssert_touch : Nat := touchSet [.pins] [] ||| State.closePort_touch

theorem execPerstAssert_ends (port : ℕ) (s : State) : Ends execPerstAssert_touch s (execPerstAssert port s) := by
  unfold execPerstAssert
  extract_lets x1 x2 x3
  refine Ends.next ?_
  refine Keeps.pins ?_ (by decide +kernel)
  refine Keeps.after ?_ (State.closePort_keeps ..) (by decide +kernel)
  exact Keeps.rfl

def execPerstDeassert_touch : Nat := touchSet [.pins] []

theorem execPerstDeassert_ends (port : ℕ) (s : State) : Ends execPerstDeassert_touch s (execPerstDeassert port s) := by
  unfold execPerstDeassert
  extract_lets x1 x2
  refine Ends.next ?_
  refine Keeps.pins ?_ (by decide +kernel)
  exact Keeps.rfl

def execSqDoorbell_touch : Nat := State.refuseDoorbell_touch ||| State.noteHeld_touch

theorem execSqDoorbell_ends (c : ℕ) (tail : ℕ) (port : ℕ) (func : ℕ) (_loc : W64) (s : State) : Ends
    execSqDoorbell_touch s (execSqDoorbell c tail port func _loc s) := by
  unfold execSqDoorbell
  refine Ends.ite ?_ ?_
  · refine Ends.next ?_
    refine Keeps.after ?_ (State.noteHeld_keeps ..) (by decide +kernel)
    refine Keeps.after ?_ (State.modCtx_keeps ..) (by decide +kernel)
    exact Keeps.rfl
  · refine Ends.next ?_
    refine Keeps.after ?_ (State.refuseDoorbell_keeps ..) (by decide +kernel)
    exact Keeps.rfl

def execTake_touch : Nat := touchSet [] [.HQ_CG_CTL, .HQ_HANDOVERS] ||| State.takeCtx_touch ||| State.rebind_touch

theorem execTake_ends (g : ℕ) (port : ℕ) (value : W64) (loc : W64) (s : State) : Ends execTake_touch s (execTake g port
    value loc s) := by
  unfold execTake
  extract_lets x1 x2 x3 x4 x5 x6 x7
  refine Ends.ite ?_ ?_
  · refine Ends.next ?_
    refine Keeps.after ?_ (State.discard_keeps ..) (by decide +kernel)
    exact Keeps.rfl
  · refine Ends.ite ?_ ?_
    · refine Ends.next ?_
      refine Keeps.after ?_ (State.discard_keeps ..) (by decide +kernel)
      exact Keeps.rfl
    · refine Ends.ite ?_ ?_
      · refine Ends.next ?_
        refine Keeps.after ?_ (State.settleTake_keeps ..) (by decide +kernel)
        refine Keeps.bump ?_ (by decide +kernel)
        refine Keeps.setFld ?_ (by decide +kernel)
        refine Keeps.forEach _ _ (fun a1 t1 => ?_) ?_
        · refine Keeps.after ?_ (State.rebind_keeps ..) (by decide +kernel)
          exact Keeps.rfl
        · refine Keeps.forEach _ _ (fun a1 t1 => ?_) ?_
          · refine Keeps.after ?_ (State.takeCtx_keeps ..) (by decide +kernel)
            exact Keeps.rfl
          · refine Keeps.setFld ?_ (by decide +kernel)
            refine Keeps.setFld ?_ (by decide +kernel)
            refine Keeps.setFld ?_ (by decide +kernel)
            exact Keeps.rfl
      · refine Ends.next ?_
        refine Keeps.setFld ?_ (by decide +kernel)
        refine Keeps.setFld ?_ (by decide +kernel)
        exact Keeps.rfl

end Sys2Proof.Machine
end

