-- ==== Sys2Proof/Laws/KeepSearch.lean ====
section
/-! SUPPORT. What each operation of Machine/Search.lean can change. -/

namespace Sys2Proof.Machine

set_option Elab.async false

def State.holdQuery_touch : Nat := touchSet [.qry] [] ||| State.holdTable_touch

theorem State.holdQuery_keeps (q : ℕ) (x : Query) (s : State) : Keeps State.holdQuery_touch s (State.holdQuery q x s) :=
    by
  unfold State.holdQuery
  extract_lets x1
  refine Keeps.ite ?_ ?_
  · refine Keeps.after ?_ (State.holdTable_keeps ..) (by decide +kernel)
    refine Keeps.after ?_ (State.holdRef_keeps ..) (by decide +kernel)
    refine Keeps.after ?_ (State.setQuery_keeps ..) (by decide +kernel)
    exact Keeps.rfl
  · refine Keeps.after ?_ (State.holdRef_keeps ..) (by decide +kernel)
    refine Keeps.after ?_ (State.setQuery_keeps ..) (by decide +kernel)
    exact Keeps.rfl

def State.openGroup_touch : Nat := touchSet [.hq] [.TN_LEASE_ACQUIRED] ||| State.sendLease_touch

theorem State.openGroup_keeps {w : Nat} {o : State} {g : GroupJob} {phase : GroupJob → State → State} {s : State} (hw :
    State.openGroup_touch &&& w = State.openGroup_touch) (hk : ∀ a0 u, Keeps w u (phase a0 u)) (h : Keeps w o s) : Keeps
    w o (State.openGroup g phase s) := by
  unfold State.openGroup
  extract_lets x1 x2 x3 x4
  refine Keeps.ite ?_ ?_
  · refine Keeps.after ?_ (State.sendLease_keeps ..) (touch_le (by decide +kernel) hw)
    refine Keeps.ten ?_ (touch_bit (by decide +kernel) hw)
    refine Keeps.hq ?_ (touch_bit (by decide +kernel) hw)
    assumption
  · refine Keeps.after ?_ (hk ..) (Nat.and_self _)
    refine Keeps.ite ?_ ?_
    · refine Keeps.bump ?_ (touch_bit (by decide +kernel) hw)
      refine Keeps.hq ?_ (touch_bit (by decide +kernel) hw)
      assumption
    · refine Keeps.hq ?_ (touch_bit (by decide +kernel) hw)
      assumption

def State.joinProbe_touch : Nat := touchSet [.qry] []

theorem State.joinProbe_keeps (q : ℕ) (s : State) : Keeps State.joinProbe_touch s (State.joinProbe q s) := by
  unfold State.joinProbe
  split
  · exact Keeps.rfl
  · extract_lets x1 x2
    refine Keeps.qry ?_ (by decide +kernel)
    refine Keeps.after ?_ (State.setQuery_keeps ..) (by decide +kernel)
    exact Keeps.rfl

def State.begin__touch : Nat := touchSet [.qry] []

theorem State.begin__keeps (q : ℕ) (s : State) : Keeps State.begin__touch s (State.begin_ q s) := by
  unfold State.begin_
  split
  · exact Keeps.rfl
  · refine Keeps.ite ?_ ?_
    · refine Keeps.qry ?_ (by decide +kernel)
      exact Keeps.rfl
    · refine Keeps.after ?_ (State.joinProbe_keeps ..) (by decide +kernel)
      exact Keeps.rfl

def State.sample_touch : Nat := touchSet [.qry] [.TN_SHADOW_SKIPPED]

theorem State.sample_keeps (x : Query) (s : State) : Keeps2 State.sample_touch s (State.sample x s) := by
  unfold State.sample
  refine Keeps2.ite ?_ ?_
  · extract_lets x1 x2 x3
    refine Keeps2.ite ?_ ?_
    · refine Keeps2.ite ?_ ?_
      · refine Keeps2.of ?_
        refine Keeps.after ?_ (State.setShadow_keeps ..) (by decide +kernel)
        exact Keeps.rfl
      · refine Keeps2.of ?_
        refine Keeps.bump ?_ (by decide +kernel)
        refine Keeps.after ?_ (State.setShadow_keeps ..) (by decide +kernel)
        exact Keeps.rfl
    · refine Keeps2.of ?_
      refine Keeps.after ?_ (State.setShadow_keeps ..) (by decide +kernel)
      exact Keeps.rfl
  · refine Keeps2.of ?_
    exact Keeps.rfl

def State.fanOutSearch_touch : Nat := touchSet [] [.HQ_GRP_SUBQ, .TN_SHADOW_SKIPPED] ||| State.settleGroup_touch |||
  State.dropQuery_touch

theorem State.fanOutSearch_keeps (seq : ℕ) (s : State) : Keeps State.fanOutSearch_touch s (State.fanOutSearch seq s) :=
    by
  unfold State.fanOutSearch
  split
  · extract_lets x1 x2 x3 x4 x5 x6 x7 x8 x9 x10 x11 x12 x13
    refine Keeps.ite ?_ ?_
    · refine Keeps.after ?_ (State.takeAnswer_keeps ..) (by decide +kernel)
      subst x13
      split
      · refine Keeps.after ?_ (State.park_keeps ..) (by decide +kernel)
        refine Keeps.ite ?_ ?_
        · refine Keeps.after ?_ (State.modQuery_keeps ..) (by decide +kernel)
          refine Keeps.after ?_ (State.sample_keeps ..) (by decide +kernel)
          refine Keeps.forEach _ _ (fun a1 t1 => ?_) ?_
          · refine Keeps.bump ?_ (by decide +kernel)
            refine Keeps.after ?_ (State.postSend_keeps ..) (by decide +kernel)
            exact Keeps.rfl
          · refine Keeps.after ?_ (State.setGroup_keeps ..) (by decide +kernel)
            exact Keeps.rfl
        · refine Keeps.after ?_ (State.dropQuery_keeps ..) (by decide +kernel)
          refine Keeps.forEach _ _ (fun a1 t1 => ?_) ?_
          · refine Keeps.bump ?_ (by decide +kernel)
            refine Keeps.after ?_ (State.postSend_keeps ..) (by decide +kernel)
            exact Keeps.rfl
          · refine Keeps.after ?_ (State.setGroup_keeps ..) (by decide +kernel)
            exact Keeps.rfl
      · refine Keeps.ite ?_ ?_
        · refine Keeps.after ?_ (State.modQuery_keeps ..) (by decide +kernel)
          refine Keeps.after ?_ (State.sample_keeps ..) (by decide +kernel)
          refine Keeps.forEach _ _ (fun a1 t1 => ?_) ?_
          · refine Keeps.bump ?_ (by decide +kernel)
            refine Keeps.after ?_ (State.postSend_keeps ..) (by decide +kernel)
            exact Keeps.rfl
          · refine Keeps.after ?_ (State.setGroup_keeps ..) (by decide +kernel)
            exact Keeps.rfl
        · refine Keeps.after ?_ (State.dropQuery_keeps ..) (by decide +kernel)
          refine Keeps.forEach _ _ (fun a1 t1 => ?_) ?_
          · refine Keeps.bump ?_ (by decide +kernel)
            refine Keeps.after ?_ (State.postSend_keeps ..) (by decide +kernel)
            exact Keeps.rfl
          · refine Keeps.after ?_ (State.setGroup_keeps ..) (by decide +kernel)
            exact Keeps.rfl
    · refine Keeps.after ?_ (State.settleGroup_keeps ..) (by decide +kernel)
      subst x13
      split
      · refine Keeps.after ?_ (State.park_keeps ..) (by decide +kernel)
        refine Keeps.ite ?_ ?_
        · refine Keeps.after ?_ (State.modQuery_keeps ..) (by decide +kernel)
          refine Keeps.after ?_ (State.sample_keeps ..) (by decide +kernel)
          refine Keeps.forEach _ _ (fun a1 t1 => ?_) ?_
          · refine Keeps.bump ?_ (by decide +kernel)
            refine Keeps.after ?_ (State.postSend_keeps ..) (by decide +kernel)
            exact Keeps.rfl
          · refine Keeps.after ?_ (State.setGroup_keeps ..) (by decide +kernel)
            exact Keeps.rfl
        · refine Keeps.after ?_ (State.dropQuery_keeps ..) (by decide +kernel)
          refine Keeps.forEach _ _ (fun a1 t1 => ?_) ?_
          · refine Keeps.bump ?_ (by decide +kernel)
            refine Keeps.after ?_ (State.postSend_keeps ..) (by decide +kernel)
            exact Keeps.rfl
          · refine Keeps.after ?_ (State.setGroup_keeps ..) (by decide +kernel)
            exact Keeps.rfl
      · refine Keeps.ite ?_ ?_
        · refine Keeps.after ?_ (State.modQuery_keeps ..) (by decide +kernel)
          refine Keeps.after ?_ (State.sample_keeps ..) (by decide +kernel)
          refine Keeps.forEach _ _ (fun a1 t1 => ?_) ?_
          · refine Keeps.bump ?_ (by decide +kernel)
            refine Keeps.after ?_ (State.postSend_keeps ..) (by decide +kernel)
            exact Keeps.rfl
          · refine Keeps.after ?_ (State.setGroup_keeps ..) (by decide +kernel)
            exact Keeps.rfl
        · refine Keeps.after ?_ (State.dropQuery_keeps ..) (by decide +kernel)
          refine Keeps.forEach _ _ (fun a1 t1 => ?_) ?_
          · refine Keeps.bump ?_ (by decide +kernel)
            refine Keeps.after ?_ (State.postSend_keeps ..) (by decide +kernel)
            exact Keeps.rfl
          · refine Keeps.after ?_ (State.setGroup_keeps ..) (by decide +kernel)
            exact Keeps.rfl
  · exact Keeps.rfl

def State.phaseSearch_touch : Nat := State.fanOutSearch_touch

theorem State.phaseSearch_keeps (g : GroupJob) (s : State) : Keeps State.phaseSearch_touch s (State.phaseSearch g s) :=
    by
  unfold State.phaseSearch
  extract_lets x1 x2
  refine Keeps.ite ?_ ?_
  · refine Keeps.after ?_ (State.begin__keeps ..) (by decide +kernel)
    refine Keeps.after ?_ (State.modQuery_keeps ..) (by decide +kernel)
    exact Keeps.rfl
  · refine Keeps.after ?_ (State.fanOutSearch_keeps ..) (by decide +kernel)
    refine Keeps.after ?_ (State.begin__keeps ..) (by decide +kernel)
    refine Keeps.after ?_ (State.modQuery_keeps ..) (by decide +kernel)
    exact Keeps.rfl

def State.admitGroupSearch_touch : Nat := touchSet [] [.TN_LEASE_ACQUIRED] ||| State.phaseSearch_touch

theorem State.admitGroupSearch_keeps (c : ℕ) (m : Cmd) (p : Captured) (s : State) : Keeps State.admitGroupSearch_touch s
    (State.admitGroupSearch c m p s) := by
  unfold State.admitGroupSearch
  extract_lets x1 x2 x3 x4 x5
  refine State.openGroup_keeps (by decide +kernel) (fun a01 t1 => ?_) ?_
  · refine Keeps.after ?_ (State.phaseSearch_keeps ..) (by decide +kernel)
    exact Keeps.rfl
  · refine Keeps.after ?_ (State.holdQuery_keeps ..) (by decide +kernel)
    exact Keeps.rfl

def State.enter_touch : Nat := State.holdQuery_touch

theorem State.enter_keeps (q : ℕ) (x : Query) (s : State) : Keeps State.enter_touch s (State.enter q x s) := by
  unfold State.enter
  refine Keeps.after ?_ (State.begin__keeps ..) (by decide +kernel)
  refine Keeps.after ?_ (State.holdQuery_keeps ..) (by decide +kernel)
  exact Keeps.rfl

def State.admitSearch_touch : Nat := State.admitGroupSearch_touch

theorem State.admitSearch_keeps (readOk : Bool) (c : ℕ) (m : Cmd) (s : State) : Keeps State.admitSearch_touch s
    (State.admitSearch readOk c m s) := by
  unfold State.admitSearch
  extract_lets x1 x2 x3 x4 x5 x6 x7 x8
  refine Keeps.ite ?_ ?_
  · refine Keeps.after ?_ (State.waitAtAdmission_keeps ..) (by decide +kernel)
    exact Keeps.rfl
  · refine Keeps.ite ?_ ?_
    · refine Keeps.after ?_ (State.finish_keeps ..) (by decide +kernel)
      refine Keeps.after ?_ (State.hostDmaErr_keeps ..) (by decide +kernel)
      refine Keeps.after ?_ (State.draw_keeps ..) (by decide +kernel)
      exact Keeps.rfl
    · refine Keeps.ite ?_ ?_
      · refine Keeps.after ?_ (State.finish_keeps ..) (by decide +kernel)
        refine Keeps.ite ?_ ?_
        · refine Keeps.bump ?_ (by decide +kernel)
          exact Keeps.rfl
        · exact Keeps.rfl
      · refine Keeps.ite ?_ ?_
        · refine Keeps.after ?_ (State.finish_keeps ..) (by decide +kernel)
          exact Keeps.rfl
        · refine Keeps.ite ?_ ?_
          · refine Keeps.after ?_ (State.admitGroupSearch_keeps ..) (by decide +kernel)
            exact Keeps.rfl
          · refine Keeps.after ?_ (State.enter_keeps ..) (by decide +kernel)
            refine Keeps.after ?_ (State.sample_keeps ..) (by decide +kernel)
            exact Keeps.rfl

def State.encodeFor_touch : Nat := touchSet [] [.PJ_ENC_QUERY] ||| State.encQuery_touch ||| State.encCode_touch

theorem State.encodeFor_keeps (die : ℕ) (q : ℕ) (x : Query) (s : State) : Keeps State.encodeFor_touch s (State.encodeFor
    die q x s) := by
  unfold State.encodeFor
  extract_lets x1 x2 x3
  refine Keeps.ite ?_ ?_
  · refine Keeps.after ?_ (State.setQuery_keeps ..) (by decide +kernel)
    refine Keeps.bump ?_ (by decide +kernel)
    refine Keeps.after ?_ (State.encCode_keeps ..) (by decide +kernel)
    exact Keeps.rfl
  · refine Keeps.after ?_ (State.setQuery_keeps ..) (by decide +kernel)
    refine Keeps.after ?_ (State.encQuery_keeps ..) (by decide +kernel)
    refine Keeps.bump ?_ (by decide +kernel)
    refine Keeps.after ?_ (State.encCode_keeps ..) (by decide +kernel)
    exact Keeps.rfl

def State.probed_touch : Nat := State.postFirst_touch

theorem State.probed_keeps (q : ℕ) (s : State) : Keeps State.probed_touch s (State.probed q s) := by
  unfold State.probed
  split
  · exact Keeps.rfl
  · extract_lets x1
    refine Keeps.after ?_ (State.postFirst_keeps ..) (by decide +kernel)
    refine Keeps.after ?_ (State.setQuery_keeps ..) (by decide +kernel)
    exact Keeps.rfl

def State.receiveCmd_touch : Nat := touchSet [] [.HQ_CMD_FETCHED] ||| State.finish_touch

theorem State.receiveCmd_keeps (conn : ℕ) (r : RxMsg) (s : State) : Keeps2 State.receiveCmd_touch s (State.receiveCmd
    conn r s) := by
  unfold State.receiveCmd
  extract_lets x1 x2 x3 x4 x5
  split
  · refine Keeps2.of ?_
    refine Keeps.after ?_ (State.postSend_keeps ..) (by decide +kernel)
    refine Keeps.hq ?_ (by decide +kernel)
    exact Keeps.rfl
  · extract_lets x6
    refine Keeps2.ite ?_ ?_
    · refine Keeps2.of ?_
      refine Keeps.after ?_ (State.finish_keeps ..) (by decide +kernel)
      refine Keeps.bump ?_ (by decide +kernel)
      refine Keeps.after ?_ (State.modCtx_keeps ..) (by decide +kernel)
      refine Keeps.hq ?_ (by decide +kernel)
      exact Keeps.rfl
    · refine Keeps2.of ?_
      refine Keeps.bump ?_ (by decide +kernel)
      refine Keeps.after ?_ (State.modCtx_keeps ..) (by decide +kernel)
      refine Keeps.hq ?_ (by decide +kernel)
      exact Keeps.rfl

def State.takeEncode_touch : Nat := State.fanOutSearch_touch ||| State.encodeFor_touch

theorem State.takeEncode_keeps (die : ℕ) (s : State) : Keeps State.takeEncode_touch s (State.takeEncode die s) := by
  unfold State.takeEncode
  split
  · exact Keeps.rfl
  · extract_lets x1 x2
    split
    · refine Keeps.qry ?_ (by decide +kernel)
      exact Keeps.rfl
    · extract_lets x3
      split
      · refine Keeps.after ?_ (State.fanOutSearch_keeps ..) (by decide +kernel)
        refine Keeps.after ?_ (State.joinProbe_keeps ..) (by decide +kernel)
        refine Keeps.after ?_ (State.encodeFor_keeps ..) (by decide +kernel)
        refine Keeps.qry ?_ (by decide +kernel)
        exact Keeps.rfl
      · refine Keeps.after ?_ (State.joinProbe_keeps ..) (by decide +kernel)
        refine Keeps.after ?_ (State.encodeFor_keeps ..) (by decide +kernel)
        refine Keeps.qry ?_ (by decide +kernel)
        exact Keeps.rfl

def State.serveEncodes_touch : Nat := State.takeEncode_touch

theorem State.serveEncodes_keeps (die n : Nat) (s : State) : Keeps State.serveEncodes_touch s (State.serveEncodes die n
    s) := by
  induction n generalizing s with
  | zero =>
    unfold State.serveEncodes
    exact Keeps.rfl
  | succ n ih =>
    unfold State.serveEncodes
    refine Keeps.after ?_ (ih _) (Nat.and_self _)
    refine Keeps.after ?_ (State.takeEncode_keeps ..) (by decide +kernel)
    exact Keeps.rfl

def State.takeSend_touch : Nat := touchSet [.net] []

theorem State.takeSend_keeps (conn : ℕ) (ty : ℕ) (s : State) : KeepsP State.takeSend_touch s (State.takeSend conn ty s)
    := by
  unfold State.takeSend
  extract_lets x1 x2 x3
  split
  · exact KeepsP.none
  · extract_lets x4
    refine KeepsP.some ?_
    refine Keeps.after ?_ (State.setConn_keeps ..) (by decide +kernel)
    refine Keeps.net ?_ (by decide +kernel)
    exact Keeps.rfl

def execProbePassComplete_touch : Nat := touchSet [.now] [] ||| State.probed_touch

theorem execProbePassComplete_ends (die : ℕ) (s : State) : Ends execProbePassComplete_touch s (execProbePassComplete die
    s) := by
  unfold execProbePassComplete
  refine Ends.ite ?_ ?_
  · refine Ends.next ?_
    exact Keeps.rfl
  · extract_lets x1
    split
    · refine Ends.next ?_
      exact Keeps.rfl
    · extract_lets x2 x3 x4 x5 x6
      refine Ends.next ?_
      refine Keeps.forEach _ _ (fun a1 t1 => ?_) ?_
      · refine Keeps.after ?_ (State.probed_keeps ..) (by decide +kernel)
        exact Keeps.rfl
      · refine Keeps.qry ?_ (by decide +kernel)
        refine Keeps.after ?_ (State.reach_keeps ..) (by decide +kernel)
        exact Keeps.rfl

def execProbePassLaunch_touch : Nat := touchSet [.now, .qry] [.BD_PR_CYC, .BD_PR_PASSES, .BD_PR_QUERIES]

theorem execProbePassLaunch_ends (die : ℕ) (s : State) : Ends execProbePassLaunch_touch s (execProbePassLaunch die s) :=
    by
  unfold execProbePassLaunch
  refine Ends.ite ?_ ?_
  · refine Ends.next ?_
    exact Keeps.rfl
  · extract_lets x1 x2 x3 x4 x5 x6
    refine Ends.ite ?_ ?_
    · refine Ends.next ?_
      exact Keeps.rfl
    · split
      · refine Ends.next ?_
        exact Keeps.rfl
      · extract_lets x7 x8 x9 x10
        refine Ends.next ?_
        refine Keeps.bump ?_ (by decide +kernel)
        refine Keeps.bump ?_ (by decide +kernel)
        refine Keeps.bump ?_ (by decide +kernel)
        refine Keeps.qry ?_ (by decide +kernel)
        refine Keeps.ite ?_ ?_
        · exact Keeps.rfl
        · refine Keeps.after ?_ (State.reach_keeps ..) (by decide +kernel)
          exact Keeps.rfl

def execQueryEncode_touch : Nat := State.takeEncode_touch

theorem execQueryEncode_ends (die : ℕ) (s : State) : Ends execQueryEncode_touch s (execQueryEncode die s) := by
  unfold execQueryEncode
  refine Ends.next ?_
  refine Keeps.ite ?_ ?_
  · exact Keeps.rfl
  · refine Keeps.after ?_ (State.takeEncode_keeps ..) (by decide +kernel)
    exact Keeps.rfl

def execSearch_touch : Nat := State.admitSearch_touch ||| State.admitBad_touch

theorem execSearch_ends (c : ℕ) (readOk : Bool) (s : State) : Ends execSearch_touch s (execSearch c readOk s) := by
  unfold execSearch
  refine Ends.next ?_
  refine Keeps.after ?_ (State.admitBad_keeps ..) (by decide +kernel)
  refine State.admitFront_keeps (by decide +kernel) (fun a01 t1 => ?_) ?_
  · refine Keeps.after ?_ (State.admitSearch_keeps ..) (by decide +kernel)
    exact Keeps.rfl
  · exact Keeps.rfl

def execSubQuery_touch : Nat := touchSet [] [.HQ_CMD_FETCHED] ||| State.admitSearch_touch ||| State.admitBad_touch

theorem execSubQuery_ends (conn : ℕ) (s : State) : Ends execSubQuery_touch s (execSubQuery conn s) := by
  unfold execSubQuery
  split
  · refine Ends.next ?_
    exact Keeps.rfl
  · extract_lets x1
    split
    · refine Ends.next ?_
      refine Keeps.after ?_ (State.admitBad_keeps ..) (by decide +kernel)
      refine State.admitFront_keeps (by decide +kernel) (fun a01 t1 => ?_) ?_
      · refine Keeps.after ?_ (State.admitSearch_keeps ..) (by decide +kernel)
        exact Keeps.rfl
      · refine Keeps.after ?_ (State.receiveCmd_keeps ..) (by decide +kernel)
        refine Keeps.after ?_ (KeepsP.get (by assumption) (State.takeSend_keeps _ _ _)) (by decide +kernel)
        exact Keeps.rfl
    · refine Ends.next ?_
      refine Keeps.after ?_ (State.receiveCmd_keeps ..) (by decide +kernel)
      refine Keeps.after ?_ (KeepsP.get (by assumption) (State.takeSend_keeps _ _ _)) (by decide +kernel)
      exact Keeps.rfl

end Sys2Proof.Machine
end

