-- ==== Sys2Proof/Laws/KeepGroups.lean ====
section
/-! SUPPORT. What each operation of Machine/Groups.lean can change. -/

namespace Sys2Proof.Machine

set_option Elab.async false

def State.answered_touch : Nat := touchSet [.hq] []

theorem State.answered_keeps (key : W64) (m : ℕ) (s : State) : Keeps State.answered_touch s (State.answered key m s) :=
    by
  unfold State.answered
  extract_lets x1 x2
  refine Keeps.hq ?_ (by decide +kernel)
  exact Keeps.rfl

def State.setShardCopy_touch : Nat := touchSet [.ten] []

theorem State.setShardCopy_keeps (x : ShardCopy) (s : State) : Keeps State.setShardCopy_touch s (State.setShardCopy x s)
    := by
  unfold State.setShardCopy
  refine Keeps.ten ?_ (by decide +kernel)
  exact Keeps.rfl

def State.applyHeld_touch : Nat := touchSet [.ten] [] ||| State.receiveCmd_touch

theorem State.applyHeld_keeps (conn k : Nat) (landed : List Nat) (ms : List (Bool × List Byte)) (behind : List Nat) (s :
    State) : Keeps State.applyHeld_touch s (State.applyHeld conn k landed ms behind s) := by
  induction ms generalizing behind s with
  | nil =>
    unfold State.applyHeld
    exact Keeps.rfl
  | cons m l ih =>
    unfold State.applyHeld
    extract_lets x1 x2 x3
    refine Keeps.ite ?_ ?_
    · refine Keeps.after ?_ (ih _ _) (Nat.and_self _)
      subst x3
      split
      · refine Keeps.after ?_ (State.setShardCopy_keeps ..) (by decide +kernel)
        exact Keeps.rfl
      · exact Keeps.rfl
    · refine Keeps.after ?_ (ih _ _) (Nat.and_self _)
      refine Keeps.after ?_ (State.receiveCmd_keeps ..) (by decide +kernel)
      exact Keeps.rfl

def State.copyBlock_touch : Nat := State.newBlock_touch

theorem State.copyBlock_keeps (k : ℕ) (cl : ℕ) (ord : ℕ) (s : State) : Keeps State.copyBlock_touch s (State.copyBlock k
    cl ord s) := by
  unfold State.copyBlock
  extract_lets x1 x2 x3
  refine Keeps.ite ?_ ?_
  · exact Keeps.rfl
  · split
    · exact Keeps.rfl
    · refine Keeps.after ?_ (State.modVersion_keeps ..) (by decide +kernel)
      refine Keeps.after ?_ (KeepsO.get (by assumption) (State.newBlock_keeps _ _ _)) (by decide +kernel)
      refine Keeps.after ?_ (State.setVersion_keeps ..) (by decide +kernel)
      exact Keeps.rfl

def State.drainHeld_touch : Nat := State.applyHeld_touch

theorem State.drainHeld_keeps (conn : ℕ) (k : ℕ) (s : State) : Keeps State.drainHeld_touch s (State.drainHeld conn k s)
    := by
  unfold State.drainHeld
  split
  · exact Keeps.rfl
  · refine Keeps.after ?_ (State.applyHeld_keeps ..) (by decide +kernel)
    refine Keeps.after ?_ (State.setShardCopy_keeps ..) (by decide +kernel)
    exact Keeps.rfl

def State.failReplicas_touch : Nat := touchSet [] [.HQ_GRP_PROMOTIONS, .HQ_GRP_SHARD]

theorem State.failReplicas_keeps (m : ℕ) (sh : ℕ) (s : State) : Keeps State.failReplicas_touch s (State.failReplicas m
    sh s) := by
  unfold State.failReplicas
  extract_lets x1 x2 x3
  clear_value x2
  split
  · refine Keeps.bump ?_ (by decide +kernel)
    refine Keeps.setFld ?_ (by decide +kernel)
    refine Keeps.forEach _ _ (fun a1 t1 => ?_) ?_
    · refine Keeps.after ?_ (State.setReplica_keeps ..) (by decide +kernel)
      exact Keeps.rfl
    · exact Keeps.rfl
  · refine Keeps.forEach _ _ (fun a1 t1 => ?_) ?_
    · refine Keeps.after ?_ (State.setReplica_keeps ..) (by decide +kernel)
      exact Keeps.rfl
    · exact Keeps.rfl

def State.joinReplicas_touch : Nat := touchSet [.ten] [.HQ_GRP_SHARD]

theorem State.joinReplicas_keeps (s : State) : Keeps State.joinReplicas_touch s (State.joinReplicas s) := by
  unfold State.joinReplicas
  extract_lets x1
  refine Keeps.forEach _ _ (fun a1 t1 => ?_) ?_
  · extract_lets x2 x3 x4
    refine Keeps.ten ?_ (by decide +kernel)
    refine Keeps.forEach _ _ (fun a2 t2 => ?_) ?_
    · refine Keeps.after ?_ (State.setReplica_keeps ..) (by decide +kernel)
      exact Keeps.rfl
    · exact Keeps.rfl
  · exact Keeps.rfl

def State.landSlot_touch : Nat := touchSet [.fl, .hq] [] ||| State.copyBlock_touch

theorem State.landSlot_keeps (k : ℕ) (cl : ℕ) (c : CopiedSlot) (s : State) : Keeps State.landSlot_touch s
    (State.landSlot k cl c s) := by
  unfold State.landSlot
  extract_lets x1 x2 x3 x4 x5
  split
  · refine Keeps.after ?_ (State.copyBlock_keeps ..) (by decide +kernel)
    exact Keeps.rfl
  · refine Keeps.ite ?_ ?_
    · refine Keeps.after ?_ (State.modVersion_keeps ..) (by decide +kernel)
      refine Keeps.after ?_ (State.copyBlock_keeps ..) (by decide +kernel)
      exact Keeps.rfl
    · extract_lets x6 x7 x8 x9 x10 x11 x12 x13 x14 x15 x16
      refine Keeps.ite ?_ ?_
      · refine Keeps.after ?_ (State.writeNew_keeps ..) (by decide +kernel)
        refine Keeps.after ?_ (State.modList_keeps ..) (by decide +kernel)
        refine Keeps.after ?_ (State.modVersion_keeps ..) (by decide +kernel)
        refine Keeps.after ?_ (State.copyBlock_keeps ..) (by decide +kernel)
        exact Keeps.rfl
      · refine Keeps.update (t := x11) ?_ rfl rfl
          (by intro p hp; cases p <;> first | rfl | exact Nat.le_refl _ | exact absurd hp (by decide +kernel))
          (Nat.le_refl _) (Nat.le_refl _) (State.sound_congr rfl rfl rfl (Or.inl rfl) (Or.inl rfl))
        refine Keeps.hq ?_ (by decide +kernel)
        refine Keeps.after ?_ (State.modList_keeps ..) (by decide +kernel)
        refine Keeps.after ?_ (State.modVersion_keeps ..) (by decide +kernel)
        refine Keeps.after ?_ (State.copyBlock_keeps ..) (by decide +kernel)
        exact Keeps.rfl

def State.sendVersion_touch : Nat := touchSet [.ten] [] ||| State.postList_touch

theorem State.sendVersion_keeps (conn : ℕ) (sh : ℕ) (k : ℕ) (s : State) : Keeps State.sendVersion_touch s
    (State.sendVersion conn sh k s) := by
  unfold State.sendVersion
  extract_lets x1 x2 x3 x4 x5 x6
  refine Keeps.ten ?_ (by decide +kernel)
  refine Keeps.forEach _ _ (fun a1 t1 => ?_) ?_
  · subst x3
    beta_reduce
    extract_lets x6 x7
    refine Keeps.ite ?_ ?_
    · refine Keeps.after ?_ (State.postList_keeps ..) (by decide +kernel)
      exact Keeps.rfl
    · refine Keeps.forEach _ _ (fun a2 t2 => ?_) ?_
      · refine Keeps.after ?_ (State.postList_keeps ..) (by decide +kernel)
        exact Keeps.rfl
      · exact Keeps.rfl
  · exact Keeps.rfl

def State.sendShard_touch : Nat := State.sendVersion_touch

theorem State.sendShard_keeps (sh : ℕ) (before : List ℕ) (s : State) : Keeps State.sendShard_touch s (State.sendShard sh
    before s) := by
  unfold State.sendShard
  extract_lets x1 x2 x3
  refine Keeps.ite ?_ ?_
  · refine Keeps.forEach _ _ (fun a1 t1 => ?_) ?_
    · refine Keeps.forEach _ _ (fun a2 t2 => ?_) ?_
      · refine Keeps.after ?_ (State.sendVersion_keeps ..) (by decide +kernel)
        exact Keeps.rfl
      · exact Keeps.rfl
    · exact Keeps.rfl
  · exact Keeps.rfl

def State.writeShard_touch : Nat := touchSet [] [.HQ_GRP_SHARD] ||| State.sendShard_touch

theorem State.writeShard_keeps (sh : ℕ) (value : W64) (s : State) : Keeps State.writeShard_touch s (State.writeShard sh
    value s) := by
  unfold State.writeShard
  refine Keeps.after ?_ (State.sendShard_keeps ..) (by decide +kernel)
  refine Keeps.writeReg ?_ (by decide +kernel)
  exact Keeps.rfl

def execGroupAnswer_touch : Nat := touchSet [] [.HQ_GRP_LATE] ||| State.takeAnswer_touch

theorem execGroupAnswer_ends (conn : ℕ) (s : State) : Ends execGroupAnswer_touch s (execGroupAnswer conn s) := by
  unfold execGroupAnswer
  split
  · refine Ends.next ?_
    exact Keeps.rfl
  · extract_lets x1
    split
    · extract_lets x2
      refine Ends.ite ?_ ?_
      · refine Ends.next ?_
        refine Keeps.after ?_ (State.takeAnswer_keeps ..) (by decide +kernel)
        refine Keeps.after ?_ (KeepsP.get (by assumption) (State.takeSend_keeps _ _ _)) (by decide +kernel)
        exact Keeps.rfl
      · refine Ends.ite ?_ ?_
        · refine Ends.next ?_
          refine Keeps.after ?_ (State.setGroup_keeps ..) (by decide +kernel)
          refine Keeps.after ?_ (KeepsP.get (by assumption) (State.takeSend_keeps _ _ _)) (by decide +kernel)
          exact Keeps.rfl
        · refine Ends.next ?_
          refine Keeps.after ?_ (KeepsP.get (by assumption) (State.takeSend_keeps _ _ _)) (by decide +kernel)
          exact Keeps.rfl
    · split
      · refine Ends.next ?_
        refine Keeps.after ?_ (State.failDiverged_keeps ..) (by decide +kernel)
        refine Keeps.after ?_ (State.answered_keeps ..) (by decide +kernel)
        refine Keeps.after ?_ (KeepsP.get (by assumption) (State.takeSend_keeps _ _ _)) (by decide +kernel)
        exact Keeps.rfl
      · refine Ends.next ?_
        refine Keeps.bump ?_ (by decide +kernel)
        refine Keeps.after ?_ (KeepsP.get (by assumption) (State.takeSend_keeps _ _ _)) (by decide +kernel)
        exact Keeps.rfl
    · refine Ends.next ?_
      refine Keeps.bump ?_ (by decide +kernel)
      refine Keeps.after ?_ (KeepsP.get (by assumption) (State.takeSend_keeps _ _ _)) (by decide +kernel)
      exact Keeps.rfl

def execGroupAnswerTimeout_touch : Nat := touchSet [.now] [] ||| State.settleGroup_touch

theorem execGroupAnswerTimeout_ends (gq : ℕ) (s : State) : Ends execGroupAnswerTimeout_touch s (execGroupAnswerTimeout
    gq s) := by
  unfold execGroupAnswerTimeout
  split
  · refine Ends.next ?_
    exact Keeps.rfl
  · split
    · refine Ends.next ?_
      exact Keeps.rfl
    · extract_lets x1
      refine Ends.next ?_
      refine Keeps.after ?_ (State.settleGroup_keeps ..) (by decide +kernel)
      refine Keeps.after ?_ (State.setGroup_keeps ..) (by decide +kernel)
      refine Keeps.after ?_ (State.reach_keeps ..) (by decide +kernel)
      exact Keeps.rfl

def execMemberLost_touch : Nat := touchSet [] [.HQ_GRP_PROMOTIONS] ||| State.settleGroup_touch

theorem execMemberLost_ends (m : ℕ) (s : State) : Ends execMemberLost_touch s (execMemberLost m s) := by
  unfold execMemberLost
  extract_lets x1 x2 x3 x4
  refine Ends.next ?_
  refine Keeps.forEach _ _ (fun a1 t1 => ?_) ?_
  · split
    · refine Keeps.after ?_ (State.settleGroup_keeps ..) (by decide +kernel)
      refine Keeps.after ?_ (State.setGroup_keeps ..) (by decide +kernel)
      exact Keeps.rfl
    · exact Keeps.rfl
  · refine Keeps.forEach _ _ (fun a1 t1 => ?_) ?_
    · refine Keeps.after ?_ (State.failReplicas_keeps ..) (by decide +kernel)
      exact Keeps.rfl
    · exact Keeps.rfl

def execShardCopyStream_touch : Nat := State.drainHeld_touch

theorem execShardCopyStream_ends (conn : ℕ) (s : State) : Ends execShardCopyStream_touch s (execShardCopyStream conn s)
    := by
  unfold execShardCopyStream
  split
  · refine Ends.next ?_
    exact Keeps.rfl
  · extract_lets x1 x2
    refine Ends.ite ?_ ?_
    · split
      · refine Ends.next ?_
        refine Keeps.after ?_ (KeepsP.get (by assumption) (State.takeSend_keeps _ _ _)) (by decide +kernel)
        exact Keeps.rfl
      · extract_lets x3 x4 x5
        refine Ends.next ?_
        refine Keeps.after ?_ (State.setShardCopy_keeps ..) (by decide +kernel)
        refine Keeps.ite ?_ ?_
        · refine Keeps.after ?_ (KeepsP.get (by assumption) (State.takeSend_keeps _ _ _)) (by decide +kernel)
          exact Keeps.rfl
        · refine Keeps.ten ?_ (by decide +kernel)
          refine Keeps.after ?_ (KeepsP.get (by assumption) (State.takeSend_keeps _ _ _)) (by decide +kernel)
          exact Keeps.rfl
    · split
      · refine Ends.next ?_
        refine Keeps.after ?_ (State.drainHeld_keeps ..) (by decide +kernel)
        refine Keeps.after ?_ (State.setShardCopy_keeps ..) (by decide +kernel)
        refine Keeps.after ?_ (KeepsP.get (by assumption) (State.takeSend_keeps _ _ _)) (by decide +kernel)
        exact Keeps.rfl
      · refine Ends.next ?_
        refine Keeps.after ?_ (State.receiveCmd_keeps ..) (by decide +kernel)
        refine Keeps.after ?_ (KeepsP.get (by assumption) (State.takeSend_keeps _ _ _)) (by decide +kernel)
        exact Keeps.rfl

def execShardListLanded_touch : Nat := State.drainHeld_touch ||| State.landSlot_touch

theorem execShardListLanded_ends (conn : ℕ) (cluster : ℕ) (s : State) : Ends execShardListLanded_touch s
    (execShardListLanded conn cluster s) := by
  unfold execShardListLanded
  extract_lets x1
  split
  · refine Ends.next ?_
    exact Keeps.rfl
  · extract_lets x2 x3 x4 x5
    refine Ends.next ?_
    refine Keeps.after ?_ (State.drainHeld_keeps ..) (by decide +kernel)
    refine Keeps.after ?_ (State.setShardCopy_keeps ..) (by decide +kernel)
    refine Keeps.forEach _ _ (fun a1 t1 => ?_) ?_
    · refine Keeps.after ?_ (State.landSlot_keeps ..) (by decide +kernel)
      exact Keeps.rfl
    · exact Keeps.rfl

end Sys2Proof.Machine
end

