-- ==== Sys2Proof/Laws/KeepService.lean ====
section
/-! SUPPORT. What each operation of Machine/Service.lean can change. -/

namespace Sys2Proof.Machine

set_option Elab.async false

def State.gate_touch : Nat := touchSet [.power] [.BD_THR]

theorem State.gate_keeps (g : ℕ) (s : State) : Keeps State.gate_touch s (State.gate g s) := by
  unfold State.gate
  refine Keeps.ite ?_ ?_
  · extract_lets x1 x2
    refine Keeps.power ?_ (by decide +kernel)
    refine Keeps.setFld ?_ (by decide +kernel)
    exact Keeps.rfl
  · exact Keeps.rfl

def State.setSvc_touch : Nat := touchSet [] [.BD_SVC, .HG_CORE_SVC, .XT_LANE_SVC]

theorem State.setSvc_keeps (u : UnitId) (st : ℕ) (s : State) : Keeps State.setSvc_touch s (State.setSvc u st s) := by
  unfold State.setSvc
  refine Keeps.setFld ?_ (svcReg_bit (by decide +kernel) _)
  exact Keeps.rfl

def State.abortReturnBy_touch : Nat := State.discard_touch ||| State.setSvc_touch ||| State.gate_touch

theorem State.abortReturnBy_ends (u : UnitId) (loc : W64) (value : W64) (s : State) : Ends State.abortReturnBy_touch s
    (State.abortReturnBy u loc value s) := by
  unfold State.abortReturnBy
  refine Ends.ite ?_ ?_
  · refine Ends.next ?_
    refine Keeps.after ?_ (State.discard_keeps ..) (by decide +kernel)
    exact Keeps.rfl
  · extract_lets x1
    refine Ends.ite ?_ ?_
    · refine Ends.next ?_
      refine Keeps.after ?_ (State.gate_keeps ..) (by decide +kernel)
      refine Keeps.after ?_ (State.setSvc_keeps ..) (by decide +kernel)
      exact Keeps.rfl
    · refine Ends.next ?_
      refine Keeps.after ?_ (State.setSvc_keeps ..) (by decide +kernel)
      exact Keeps.rfl

def State.writeRepair_touch : Nat := touchSet [.boot] []

theorem State.writeRepair_keeps (e : Repair) (s : State) : Keeps State.writeRepair_touch s (State.writeRepair e s) := by
  unfold State.writeRepair
  refine Keeps.ite ?_ ?_
  · exact Keeps.rfl
  · refine Keeps.boot ?_ (by decide +kernel) (Nat.le_refl _) (Or.inl rfl)
    exact Keeps.rfl

def State.joinUnit_touch : Nat := touchSet [.boot] [.BD_STATUS] ||| State.log_touch ||| State.setSvc_touch

theorem State.joinUnit_keeps (u : UnitId) (epoch : ℕ) (s : State) : Keeps State.joinUnit_touch s (State.joinUnit u epoch
    s) := by
  unfold State.joinUnit
  extract_lets x1 x2 x3 x4 x5 x6 x7 x8
  refine Keeps.after ?_ (State.log_keeps ..) (by decide +kernel)
  refine Keeps.ite ?_ ?_
  · refine Keeps.forEach _ _ (fun a1 t1 => ?_) ?_
    · refine Keeps.after ?_ (State.writeRepair_keeps ..) (by decide +kernel)
      exact Keeps.rfl
    · refine Keeps.setFld ?_ (by decide +kernel)
      refine Keeps.ras ?_ (by decide +kernel) (Or.inl rfl)
      refine Keeps.after ?_ (State.setSvc_keeps ..) (by decide +kernel)
      exact Keeps.rfl
  · refine Keeps.ite ?_ ?_
    · refine Keeps.forEach _ _ (fun a1 t1 => ?_) ?_
      · refine Keeps.after ?_ (State.writeRepair_keeps ..) (by decide +kernel)
        exact Keeps.rfl
      · refine Keeps.ras ?_ (by decide +kernel) (Or.inl rfl)
        refine Keeps.after ?_ (State.setSvc_keeps ..) (by decide +kernel)
        exact Keeps.rfl
    · refine Keeps.ras ?_ (by decide +kernel) (Or.inl rfl)
      refine Keeps.after ?_ (State.setSvc_keeps ..) (by decide +kernel)
      exact Keeps.rfl

def State.setCause_touch : Nat := touchSet [] [.BD_SVC, .HG_CORE_SVC, .XT_LANE_SVC]

theorem State.setCause_keeps (u : UnitId) (c : ℕ) (s : State) : Keeps State.setCause_touch s (State.setCause u c s) :=
    by
  unfold State.setCause
  refine Keeps.setFld ?_ (svcReg_bit (by decide +kernel) _)
  exact Keeps.rfl

def State.takePlace_touch : Nat := touchSet [.ras] [.HG_CORE_FAILOVERS] ||| State.setSvc_touch

theorem State.takePlace_keeps (u : UnitId) (s : State) : Keeps State.takePlace_touch s (State.takePlace u s) := by
  unfold State.takePlace
  split
  · exact Keeps.rfl
  · extract_lets x1 x2
    refine Keeps.ite ?_ ?_
    · split
      · refine Keeps.ras ?_ (by decide +kernel) (Or.inl rfl)
        refine Keeps.after ?_ (State.setSvc_keeps ..) (by decide +kernel)
        exact Keeps.rfl
      · refine Keeps.after ?_ (State.setSvc_keeps ..) (by decide +kernel)
        exact Keeps.rfl
    · refine Keeps.bump ?_ (by decide +kernel)
      refine Keeps.after ?_ (State.setSvc_keeps ..) (by decide +kernel)
      exact Keeps.rfl

def State.leaveService_touch : Nat := touchSet [] [.BD_STATUS] ||| State.takePlace_touch ||| State.gate_touch

theorem State.leaveService_keeps (u : UnitId) (cause : ℕ) (s : State) : Keeps State.leaveService_touch s
    (State.leaveService u cause s) := by
  unfold State.leaveService
  extract_lets x1 x2 x3 x4 x5 x6
  refine Keeps.ite ?_ ?_
  · refine Keeps.ite ?_ ?_
    · refine Keeps.after ?_ (State.takePlace_keeps ..) (by decide +kernel)
      refine Keeps.ite ?_ ?_
      · refine Keeps.setFld ?_ (by decide +kernel)
        refine Keeps.after ?_ (State.setCause_keeps ..) (by decide +kernel)
        refine Keeps.after ?_ (State.setSvc_keeps ..) (by decide +kernel)
        exact Keeps.rfl
      · refine Keeps.after ?_ (State.setCause_keeps ..) (by decide +kernel)
        refine Keeps.after ?_ (State.setSvc_keeps ..) (by decide +kernel)
        exact Keeps.rfl
    · refine Keeps.ite ?_ ?_
      · refine Keeps.setFld ?_ (by decide +kernel)
        refine Keeps.after ?_ (State.setCause_keeps ..) (by decide +kernel)
        refine Keeps.after ?_ (State.setSvc_keeps ..) (by decide +kernel)
        exact Keeps.rfl
      · refine Keeps.after ?_ (State.setCause_keeps ..) (by decide +kernel)
        refine Keeps.after ?_ (State.setSvc_keeps ..) (by decide +kernel)
        exact Keeps.rfl
  · refine Keeps.ite ?_ ?_
    · refine Keeps.ite ?_ ?_
      · refine Keeps.after ?_ (State.gate_keeps ..) (by decide +kernel)
        refine Keeps.after ?_ (State.setCause_keeps ..) (by decide +kernel)
        refine Keeps.after ?_ (State.setSvc_keeps ..) (by decide +kernel)
        refine Keeps.ras ?_ (by decide +kernel) (Or.inl rfl)
        exact Keeps.rfl
      · refine Keeps.after ?_ (State.setCause_keeps ..) (by decide +kernel)
        refine Keeps.after ?_ (State.setSvc_keeps ..) (by decide +kernel)
        refine Keeps.ras ?_ (by decide +kernel) (Or.inl rfl)
        exact Keeps.rfl
    · exact Keeps.rfl

def State.removeBy_touch : Nat := State.leaveService_touch ||| State.discard_touch

theorem State.removeBy_ends (u : UnitId) (loc : W64) (value : W64) (s : State) : Ends State.removeBy_touch s
    (State.removeBy u loc value s) := by
  unfold State.removeBy
  extract_lets x1 x2
  refine Ends.ite ?_ ?_
  · refine Ends.next ?_
    refine Keeps.after ?_ (State.discard_keeps ..) (by decide +kernel)
    exact Keeps.rfl
  · refine Ends.next ?_
    refine Keeps.after ?_ (State.leaveService_keeps ..) (by decide +kernel)
    exact Keeps.rfl

def State.ungate_touch : Nat := touchSet [.power] [.BD_GATED_NS, .BD_THR]

theorem State.ungate_keeps (g : ℕ) (s : State) : Keeps State.ungate_touch s (State.ungate g s) := by
  unfold State.ungate
  refine Keeps.ite ?_ ?_
  · extract_lets x1 x2
    refine Keeps.power ?_ (by decide +kernel)
    refine Keeps.bump ?_ (by decide +kernel)
    refine Keeps.setFld ?_ (by decide +kernel)
    exact Keeps.rfl
  · refine Keeps.power ?_ (by decide +kernel)
    exact Keeps.rfl

def State.returnUnitBy_touch : Nat := State.discard_touch ||| State.setSvc_touch ||| State.ungate_touch

theorem State.returnUnitBy_ends (u : UnitId) (loc : W64) (value : W64) (s : State) : Ends State.returnUnitBy_touch s
    (State.returnUnitBy u loc value s) := by
  unfold State.returnUnitBy
  extract_lets x1 x2
  refine Ends.ite ?_ ?_
  · refine Ends.next ?_
    refine Keeps.after ?_ (State.discard_keeps ..) (by decide +kernel)
    exact Keeps.rfl
  · refine Ends.ite ?_ ?_
    · refine Ends.next ?_
      refine Keeps.after ?_ (State.ungate_keeps ..) (by decide +kernel)
      refine Keeps.setFld ?_ (svcReg_bit (by decide +kernel) _)
      refine Keeps.after ?_ (State.setSvc_keeps ..) (by decide +kernel)
      exact Keeps.rfl
    · refine Ends.next ?_
      refine Keeps.setFld ?_ (svcReg_bit (by decide +kernel) _)
      refine Keeps.after ?_ (State.setSvc_keeps ..) (by decide +kernel)
      exact Keeps.rfl

def State.returnUnitFailed_touch : Nat := touchSet [] [.HG_RTS_FAILED] ||| State.setSvc_touch ||| State.gate_touch

theorem State.returnUnitFailed_keeps (u : UnitId) (s : State) : Keeps State.returnUnitFailed_touch s
    (State.returnUnitFailed u s) := by
  unfold State.returnUnitFailed
  extract_lets x1
  refine Keeps.ite ?_ ?_
  · refine Keeps.after ?_ (State.gate_keeps ..) (by decide +kernel)
    refine Keeps.bump ?_ (by decide +kernel)
    refine Keeps.after ?_ (State.setCause_keeps ..) (by decide +kernel)
    refine Keeps.after ?_ (State.setSvc_keeps ..) (by decide +kernel)
    exact Keeps.rfl
  · refine Keeps.bump ?_ (by decide +kernel)
    refine Keeps.after ?_ (State.setCause_keeps ..) (by decide +kernel)
    refine Keeps.after ?_ (State.setSvc_keeps ..) (by decide +kernel)
    exact Keeps.rfl

def State.wake_touch : Nat := touchSet [.power] []

theorem State.wake_keeps (g : ℕ) (s : State) : Keeps State.wake_touch s (State.wake g s) := by
  unfold State.wake
  refine Keeps.ite ?_ ?_
  · refine Keeps.power ?_ (by decide +kernel)
    exact Keeps.rfl
  · exact Keeps.rfl

def execAbortReturn_touch : Nat := State.abortReturnBy_touch

theorem execAbortReturn_ends (u : UnitId) (loc : W64) (s : State) : Ends execAbortReturn_touch s (execAbortReturn u loc
    s) := by
  unfold execAbortReturn
  refine Ends.after ?_ (State.abortReturnBy_ends ..) (by decide +kernel)
  exact Keeps.rfl

def execBandWake_touch : Nat := touchSet [.now] [] ||| State.ungate_touch

theorem execBandWake_ends (band : ℕ) (s : State) : Ends execBandWake_touch s (execBandWake band s) := by
  unfold execBandWake
  split
  · refine Ends.next ?_
    exact Keeps.rfl
  · refine Ends.next ?_
    refine Keeps.after ?_ (State.ungate_keeps ..) (by decide +kernel)
    refine Keeps.after ?_ (State.reach_keeps ..) (by decide +kernel)
    exact Keeps.rfl

def execCoreWatchdog_touch : Nat := State.leaveService_touch

theorem execCoreWatchdog_ends (k : ℕ) (s : State) : Ends execCoreWatchdog_touch s (execCoreWatchdog k s) := by
  unfold execCoreWatchdog
  refine Ends.ite ?_ ?_
  · refine Ends.next ?_
    exact Keeps.rfl
  · refine Ends.next ?_
    refine Keeps.after ?_ (State.leaveService_keeps ..) (by decide +kernel)
    exact Keeps.rfl

def execCriticalTemperature_touch : Nat := State.leaveService_touch

theorem execCriticalTemperature_ends (die : ℕ) (s : State) : Ends execCriticalTemperature_touch s
    (execCriticalTemperature die s) := by
  unfold execCriticalTemperature
  extract_lets x1 x2 x3
  refine Ends.next ?_
  refine Keeps.forEach _ _ (fun a1 t1 => ?_) ?_
  · refine Keeps.after ?_ (State.leaveService_keeps ..) (by decide +kernel)
    exact Keeps.rfl
  · refine Keeps.power ?_ (by decide +kernel)
    exact Keeps.rfl

def execLaneFailed_touch : Nat := State.leaveService_touch ||| State.log_touch

theorem execLaneFailed_ends (l : ℕ) (cause : ℕ) (s : State) : Ends execLaneFailed_touch s (execLaneFailed l cause s) :=
    by
  unfold execLaneFailed
  refine Ends.ite ?_ ?_
  · refine Ends.next ?_
    exact Keeps.rfl
  · refine Ends.next ?_
    refine Keeps.after ?_ (State.leaveService_keeps ..) (by decide +kernel)
    refine Keeps.after ?_ (State.log_keeps ..) (by decide +kernel)
    exact Keeps.rfl

def execRemove_touch : Nat := State.removeBy_touch

theorem execRemove_ends (u : UnitId) (loc : W64) (s : State) : Ends execRemove_touch s (execRemove u loc s) := by
  unfold execRemove
  refine Ends.after ?_ (State.removeBy_ends ..) (by decide +kernel)
  exact Keeps.rfl

def execReturnUnit_touch : Nat := State.returnUnitBy_touch

theorem execReturnUnit_ends (u : UnitId) (loc : W64) (s : State) : Ends execReturnUnit_touch s (execReturnUnit u loc s)
    := by
  unfold execReturnUnit
  refine Ends.after ?_ (State.returnUnitBy_ends ..) (by decide +kernel)
  exact Keeps.rfl

def execUnitDrained_touch : Nat := State.setSvc_touch ||| State.gate_touch

theorem execUnitDrained_ends (u : UnitId) (s : State) : Ends execUnitDrained_touch s (execUnitDrained u s) := by
  unfold execUnitDrained
  refine Ends.ite ?_ ?_
  · refine Ends.next ?_
    exact Keeps.rfl
  · refine Ends.ite ?_ ?_
    · refine Ends.ite ?_ ?_
      · refine Ends.next ?_
        exact Keeps.rfl
      · refine Ends.next ?_
        refine Keeps.after ?_ (State.gate_keeps ..) (by decide +kernel)
        refine Keeps.after ?_ (State.setSvc_keeps ..) (by decide +kernel)
        exact Keeps.rfl
    · refine Ends.next ?_
      refine Keeps.after ?_ (State.setSvc_keeps ..) (by decide +kernel)
      exact Keeps.rfl

def execUnitSelfTestDone_touch : Nat := State.log_touch ||| State.returnUnitFailed_touch

theorem execUnitSelfTestDone_ends (u : UnitId) (signature : W64) (expected : W64) (tileFaults : ℕ) (s : State) : Ends
    execUnitSelfTestDone_touch s (execUnitSelfTestDone u signature expected tileFaults s) := by
  unfold execUnitSelfTestDone
  refine Ends.ite ?_ ?_
  · refine Ends.next ?_
    exact Keeps.rfl
  · extract_lets x1 x2 x3 x4 x5
    refine Ends.ite ?_ ?_
    · refine Ends.next ?_
      refine Keeps.after ?_ (State.log_keeps ..) (by decide +kernel)
      refine Keeps.after ?_ (State.returnUnitFailed_keeps ..) (by decide +kernel)
      exact Keeps.rfl
    · refine Ends.next ?_
      refine Keeps.after ?_ (State.setSvc_keeps ..) (by decide +kernel)
      refine Keeps.ite ?_ ?_
      · refine Keeps.ras ?_ (by decide +kernel) (Or.inl rfl)
        exact Keeps.rfl
      · exact Keeps.rfl

def execUnitShadowItem_touch : Nat := touchSet [] [.HG_RTS_PASSED] ||| State.log_touch ||| State.returnUnitFailed_touch

theorem execUnitShadowItem_ends (u : UnitId) (agree : Bool) (compared : Bool) (s : State) : Ends
    execUnitShadowItem_touch s (execUnitShadowItem u agree compared s) := by
  unfold execUnitShadowItem
  refine Ends.ite ?_ ?_
  · refine Ends.next ?_
    exact Keeps.rfl
  · extract_lets x1 x2 x3 x4
    refine Ends.ite ?_ ?_
    · refine Ends.ite ?_ ?_
      · refine Ends.next ?_
        refine Keeps.ras ?_ (by decide +kernel) (Or.inl rfl)
        refine Keeps.bump ?_ (by decide +kernel)
        refine Keeps.after ?_ (State.setSvc_keeps ..) (by decide +kernel)
        refine Keeps.setFld ?_ (svcReg_bit (by decide +kernel) _)
        exact Keeps.rfl
      · refine Ends.next ?_
        refine Keeps.setFld ?_ (svcReg_bit (by decide +kernel) _)
        exact Keeps.rfl
    · refine Ends.next ?_
      refine Keeps.after ?_ (State.log_keeps ..) (by decide +kernel)
      refine Keeps.after ?_ (State.returnUnitFailed_keeps ..) (by decide +kernel)
      exact Keeps.rfl

end Sys2Proof.Machine
end

