-- ==== Sys2Proof/Laws/KeepComposition.lean ====
section
/-! SUPPORT. What each operation of Machine/Composition.lean can change. -/

namespace Sys2Proof.Machine

set_option Elab.async false

def State.takeOwner_touch : Nat := touchSet [] [.BD_STATUS]

theorem State.takeOwner_keeps (g : ℕ) (s : State) : Keeps State.takeOwner_touch s (State.takeOwner g s) := by
  unfold State.takeOwner
  refine Keeps.setFld ?_ (by decide +kernel)
  exact Keeps.rfl

def State.commitBand_touch : Nat := touchSet [.ten] [.BD_STATUS, .TN_BAND] ||| State.gate_touch

theorem State.commitBand_keeps (g : ℕ) (s : State) : Keeps State.commitBand_touch s (State.commitBand g s) := by
  unfold State.commitBand
  extract_lets x1 x2 x3 x4 x5 x6
  refine Keeps.ite ?_ ?_
  · refine Keeps.setReg ?_ (by decide +kernel)
    exact Keeps.rfl
  · refine Keeps.ite ?_ ?_
    · refine Keeps.ten ?_ (by decide +kernel)
      refine Keeps.setFld ?_ (by decide +kernel)
      refine Keeps.setReg ?_ (by decide +kernel)
      exact Keeps.rfl
    · refine Keeps.after ?_ (State.wake_keeps ..) (by decide +kernel)
      refine Keeps.after ?_ (State.gate_keeps ..) (by decide +kernel)
      refine Keeps.after ?_ (State.takeOwner_keeps ..) (by decide +kernel)
      refine Keeps.setReg ?_ (by decide +kernel)
      exact Keeps.rfl

def State.commitCharges_touch : Nat := touchSet [] [.TN_QUOTA_USED]

theorem State.commitCharges_keeps (s : State) : Keeps State.commitCharges_touch s (State.commitCharges s) := by
  unfold State.commitCharges
  refine Keeps.forEach _ _ (fun a1 t1 => ?_) ?_
  · extract_lets x1 x2
    refine Keeps.ite ?_ ?_
    · refine Keeps.after ?_ (State.addCharge_keeps ..) (by decide +kernel)
      exact Keeps.rfl
    · refine Keeps.after ?_ (State.dropCharge_keeps ..) (by decide +kernel)
      exact Keeps.rfl
  · exact Keeps.rfl

def State.joinAll_touch : Nat := touchSet [] [.CF_SVC] ||| State.joinUnit_touch ||| State.joinReplicas_touch

theorem State.joinAll_keeps (epoch : ℕ) (s : State) : Keeps State.joinAll_touch s (State.joinAll epoch s) := by
  unfold State.joinAll
  extract_lets x1 x2
  refine Keeps.after ?_ (State.joinReplicas_keeps ..) (by decide +kernel)
  refine Keeps.forEach _ _ (fun a1 t1 => ?_) ?_
  · refine Keeps.setFld ?_ (by decide +kernel)
    exact Keeps.rfl
  · refine Keeps.forEach _ _ (fun a1 t1 => ?_) ?_
    · refine Keeps.after ?_ (State.joinUnit_keeps ..) (by decide +kernel)
      exact Keeps.rfl
    · exact Keeps.rfl

def State.nextEpoch_touch : Nat := touchSet [] [.TN_CMP_EPOCH]

theorem State.nextEpoch_keeps (s : State) : Keeps State.nextEpoch_touch s (State.nextEpoch s) := by
  unfold State.nextEpoch
  extract_lets x1
  refine Keeps.setFld ?_ (by decide +kernel)
  exact Keeps.rfl

def State.settleCommit_touch : Nat := touchSet [] [.TN_CMP_CTL, .TN_CMP_EPOCH]

theorem State.settleCommit_keeps (s : State) : Keeps State.settleCommit_touch s (State.settleCommit s) := by
  unfold State.settleCommit
  refine Keeps.ite ?_ ?_
  · refine Keeps.setFld ?_ (by decide +kernel)
    refine Keeps.setFld ?_ (by decide +kernel)
    exact Keeps.rfl
  · exact Keeps.rfl

def State.acceptCommit_touch : Nat := touchSet [] [.TN_CMP_COMMITS, .TN_PART] ||| State.resumeShadows_touch |||
  State.joinAll_touch ||| State.commitBand_touch ||| State.settleCommit_touch

theorem State.acceptCommit_keeps (s : State) : Keeps State.acceptCommit_touch s (State.acceptCommit s) := by
  unfold State.acceptCommit
  extract_lets x1 x2 x3 x4 x5 x6 x7
  refine Keeps.after ?_ (State.settleCommit_keeps ..) (by decide +kernel)
  refine Keeps.after ?_ (State.joinAll_keeps ..) (by decide +kernel)
  refine Keeps.forEach _ _ (fun a1 t1 => ?_) ?_
  · refine Keeps.after ?_ (State.resumeShadows_keeps ..) (by decide +kernel)
    refine Keeps.forEach _ _ (fun a2 t2 => ?_) ?_
    · refine Keeps.after ?_ (State.checkPressure_keeps ..) (by decide +kernel)
      exact Keeps.rfl
    · exact Keeps.rfl
  · refine Keeps.forEach _ _ (fun a1 t1 => ?_) ?_
    · refine Keeps.after ?_ (State.commitBand_keeps ..) (by decide +kernel)
      exact Keeps.rfl
    · refine Keeps.forEach _ _ (fun a1 t1 => ?_) ?_
      · refine Keeps.setReg ?_ (by decide +kernel)
        exact Keeps.rfl
      · refine Keeps.ten ?_ (by decide +kernel)
        refine Keeps.setFld ?_ (by decide +kernel)
        refine Keeps.setFld ?_ (by decide +kernel)
        refine Keeps.after ?_ (State.commitCharges_keeps ..) (by decide +kernel)
        refine Keeps.bump ?_ (by decide +kernel)
        refine Keeps.after ?_ (State.nextEpoch_keeps ..) (by decide +kernel)
        exact Keeps.rfl

def State.drainedBand_touch : Nat := touchSet [.ten] [.BD_STATUS] ||| State.settleCommit_touch ||| State.gate_touch

theorem State.drainedBand_keeps (g : ℕ) (s : State) : Keeps State.drainedBand_touch s (State.drainedBand g s) := by
  unfold State.drainedBand
  refine Keeps.ite ?_ ?_
  · extract_lets x1 x2
    refine Keeps.after ?_ (State.settleCommit_keeps ..) (by decide +kernel)
    refine Keeps.after ?_ (State.wake_keeps ..) (by decide +kernel)
    refine Keeps.after ?_ (State.gate_keeps ..) (by decide +kernel)
    refine Keeps.after ?_ (State.takeOwner_keeps ..) (by decide +kernel)
    refine Keeps.ten ?_ (by decide +kernel)
    exact Keeps.rfl
  · exact Keeps.rfl

def execAutoEpoch_touch : Nat := touchSet [.now] [.TN_CMP_AUTO, .TN_CMP_COMMITS, .TN_CMP_EPOCH] ||| State.joinAll_touch

theorem execAutoEpoch_ends (s : State) : Ends execAutoEpoch_touch s (execAutoEpoch s) := by
  unfold execAutoEpoch
  split
  · refine Ends.next ?_
    exact Keeps.rfl
  · refine Ends.ite ?_ ?_
    · refine Ends.next ?_
      exact Keeps.rfl
    · extract_lets x1 x2
      refine Ends.next ?_
      refine Keeps.after ?_ (State.joinAll_keeps ..) (by decide +kernel)
      refine Keeps.setFld ?_ (by decide +kernel)
      refine Keeps.bump ?_ (by decide +kernel)
      refine Keeps.bump ?_ (by decide +kernel)
      refine Keeps.after ?_ (State.nextEpoch_keeps ..) (by decide +kernel)
      refine Keeps.after ?_ (State.reach_keeps ..) (by decide +kernel)
      exact Keeps.rfl

def execBandDrained_touch : Nat := State.drainedBand_touch

theorem execBandDrained_ends (band : ℕ) (s : State) : Ends execBandDrained_touch s (execBandDrained band s) := by
  unfold execBandDrained
  refine Ends.next ?_
  refine Keeps.after ?_ (State.drainedBand_keeps ..) (by decide +kernel)
  exact Keeps.rfl

def execCommit_touch : Nat := touchSet [] [.TN_CMP_REFUSED] ||| State.acceptCommit_touch

theorem execCommit_ends (value : W64) (loc : W64) (s : State) : Ends execCommit_touch s (execCommit value loc s) := by
  unfold execCommit
  extract_lets x1
  split
  · extract_lets x2 x3 x4 x5
    refine Ends.next ?_
    refine Keeps.after ?_ (State.log_keeps ..) (by decide +kernel)
    refine Keeps.bump ?_ (by decide +kernel)
    refine Keeps.ite ?_ ?_
    · refine Keeps.ras ?_ (by decide +kernel) (Or.inl rfl)
      refine Keeps.setFld ?_ (by decide +kernel)
      refine Keeps.writeReg ?_ (by decide +kernel)
      exact Keeps.rfl
    · refine Keeps.setFld ?_ (by decide +kernel)
      refine Keeps.ras ?_ (by decide +kernel) (Or.inl rfl)
      refine Keeps.setFld ?_ (by decide +kernel)
      refine Keeps.writeReg ?_ (by decide +kernel)
      exact Keeps.rfl
  · refine Ends.next ?_
    refine Keeps.after ?_ (State.acceptCommit_keeps ..) (by decide +kernel)
    refine Keeps.writeReg ?_ (by decide +kernel)
    exact Keeps.rfl

end Sys2Proof.Machine
end

