-- ==== Sys2Proof/Laws/KeepDump.lean ====
section
/-! SUPPORT. What each operation of Machine/Dump.lean can change. -/

namespace Sys2Proof.Machine

set_option Elab.async false

def State.clearDump_touch : Nat := touchSet [.ras] [.DM_CTL, .DM_INFO]

theorem State.clearDump_keeps (s : State) : Keeps State.clearDump_touch s (State.clearDump s) := by
  unfold State.clearDump
  refine Keeps.ite ?_ ?_
  · exact Keeps.rfl
  · extract_lets x1 x2 x3
    refine Keeps.setReg ?_ (by decide +kernel)
    refine Keeps.setFld ?_ (by decide +kernel)
    refine Keeps.ras ?_ (by decide +kernel) (Or.inl rfl)
    exact Keeps.rfl

def State.dumpBytes_touch : Nat := touchSet [.freeCount] []

theorem State.dumpBytes_keeps (e : DumpEntry) (a : ℕ) (n : ℕ) (s : State) : Keeps2 State.dumpBytes_touch s
    (State.dumpBytes e a n s) := by
  unfold State.dumpBytes
  refine Keeps2.ite ?_ ?_
  · refine Keeps2.of ?_
    exact Keeps.rfl
  · refine Keeps2.of ?_
    refine Keeps.freeCount ?_ (by decide +kernel) (Nat.le_add_right ..)
    exact Keeps.rfl

def State.dumpDone_touch : Nat := touchSet [] [.DM_CTL, .DM_DUMPS, .DM_INFO] ||| State.log_touch

theorem State.dumpDone_keeps (s : State) : Keeps State.dumpDone_touch s (State.dumpDone s) := by
  unfold State.dumpDone
  extract_lets x1 x2 x3 x4
  refine Keeps.after ?_ (State.log_keeps ..) (by decide +kernel)
  refine Keeps.bump ?_ (by decide +kernel)
  refine Keeps.setFld ?_ (by decide +kernel)
  refine Keeps.setFld ?_ (by decide +kernel)
  refine Keeps.setFld ?_ (by decide +kernel)
  refine Keeps.setFld ?_ (by decide +kernel)
  exact Keeps.rfl

def State.dumpRecord_touch : Nat := touchSet [.ras] [.DM_MARKERS]

theorem State.dumpRecord_keeps (dstatus : ℕ) (addr : ℕ) (data : List Byte) (s : State) : Keeps State.dumpRecord_touch s
    (State.dumpRecord dstatus addr data s) := by
  unfold State.dumpRecord
  extract_lets x1 x2 x3 x4 x5
  refine Keeps.ite ?_ ?_
  · refine Keeps.ras ?_ (by decide +kernel) (Or.inl rfl)
    exact Keeps.rfl
  · refine Keeps.bump ?_ (by decide +kernel)
    refine Keeps.ras ?_ (by decide +kernel) (Or.inl rfl)
    exact Keeps.rfl

def State.dumpLimit_touch : Nat := touchSet [] [.DM_MARKERS] ||| State.dumpDone_touch

theorem State.dumpLimit_keeps (n : Nat) (s : State) : Keeps State.dumpLimit_touch s (State.dumpLimit n s) := by
  induction n generalizing s with
  | zero =>
    unfold State.dumpLimit
    refine Keeps.after ?_ (State.dumpDone_keeps ..) (by decide +kernel)
    exact Keeps.rfl
  | succ n ih =>
    unfold State.dumpLimit
    extract_lets x1
    split
    · refine Keeps.after ?_ (State.dumpDone_keeps ..) (by decide +kernel)
      exact Keeps.rfl
    · refine Keeps.after ?_ (ih _) (Nat.and_self _)
      refine Keeps.after ?_ (State.dumpRecord_keeps ..) (by decide +kernel)
      exact Keeps.rfl

def State.dumpRead_touch : Nat := touchSet [.freeCount] [] ||| State.dumpLimit_touch

theorem State.dumpRead_keeps (s : State) : Keeps State.dumpRead_touch s (State.dumpRead s) := by
  unfold State.dumpRead
  extract_lets x1
  split
  · refine Keeps.after ?_ (State.dumpDone_keeps ..) (by decide +kernel)
    exact Keeps.rfl
  · extract_lets x2 x3 x4 x5 x6 x7 x8
    refine Keeps.ite ?_ ?_
    · refine Keeps.after ?_ (State.dumpLimit_keeps ..) (by decide +kernel)
      exact Keeps.rfl
    · refine Keeps.ite ?_ ?_
      · refine Keeps.after ?_ (State.dumpRecord_keeps ..) (by decide +kernel)
        exact Keeps.rfl
      · refine Keeps.ite ?_ ?_
        · refine Keeps.after ?_ (State.dumpRecord_keeps ..) (by decide +kernel)
          exact Keeps.rfl
        · refine Keeps.ite ?_ ?_
          · refine Keeps.after ?_ (State.dumpRecord_keeps ..) (by decide +kernel)
            refine Keeps.ras ?_ (by decide +kernel) (Or.inl rfl)
            refine Keeps.after ?_ (State.dumpBytes_keeps ..) (by decide +kernel)
            exact Keeps.rfl
          · refine Keeps.ras ?_ (by decide +kernel) (Or.inl rfl)
            refine Keeps.after ?_ (State.dumpBytes_keeps ..) (by decide +kernel)
            exact Keeps.rfl

def State.dumpTimeout_touch : Nat := touchSet [.now] [] ||| State.dumpRecord_touch

theorem State.dumpTimeout_keeps (s : State) : Keeps State.dumpTimeout_touch s (State.dumpTimeout s) := by
  unfold State.dumpTimeout
  extract_lets x1
  split
  · refine Keeps.ite ?_ ?_
    · extract_lets x2 x3 x4
      refine Keeps.ras ?_ (by decide +kernel) (Or.inl rfl)
      refine Keeps.after ?_ (State.dumpRecord_keeps ..) (by decide +kernel)
      refine Keeps.after ?_ (State.reach_keeps ..) (by decide +kernel)
      exact Keeps.rfl
    · exact Keeps.rfl
  · exact Keeps.rfl

def State.dumpUncorr_touch : Nat := State.dumpRecord_touch

theorem State.dumpUncorr_keeps (u : UnitId) (s : State) : Keeps State.dumpUncorr_touch s (State.dumpUncorr u s) := by
  unfold State.dumpUncorr
  extract_lets x1
  split
  · refine Keeps.ite ?_ ?_
    · refine Keeps.after ?_ (State.dumpRecord_keeps ..) (by decide +kernel)
      exact Keeps.rfl
    · exact Keeps.rfl
  · exact Keeps.rfl

def State.loadDumpList_touch : Nat := touchSet [.ras] []

theorem State.loadDumpList_keeps (s : State) : Keeps State.loadDumpList_touch s (State.loadDumpList s) := by
  unfold State.loadDumpList
  extract_lets x1 x2 x3
  refine Keeps.ras ?_ (by decide +kernel) (Or.inl rfl)
  exact Keeps.rfl

def State.startDump_touch : Nat := touchSet [.ras] [.DM_CTL, .DM_REFUSED]

theorem State.startDump_keeps (forDomain : Option (ℕ × ℕ)) (s : State) : Keeps State.startDump_touch s (State.startDump
    forDomain s) := by
  unfold State.startDump
  extract_lets x1 x2 x3
  refine Keeps.ite ?_ ?_
  · refine Keeps.bump ?_ (by decide +kernel)
    exact Keeps.rfl
  · refine Keeps.setFld ?_ (by decide +kernel)
    refine Keeps.ras ?_ (by decide +kernel) (Or.inl rfl)
    exact Keeps.rfl

end Sys2Proof.Machine
end

