-- ==== Sys2Proof/Laws/KeepInvoke.lean ====
section
/-! SUPPORT. What each operation of Machine/Invoke.lean can change. -/

namespace Sys2Proof.Machine

set_option Elab.async false

def State.endInvoke_touch : Nat := touchSet [.dict] []

theorem State.endInvoke_keeps (index : ℕ) (sub : ℕ) (status : ℕ) (detail : ℕ) (result : List Byte) (s : State) : Keeps
    State.endInvoke_touch s (State.endInvoke index sub status detail result s) := by
  unfold State.endInvoke
  extract_lets x1 x2
  refine Keeps.dict ?_ (by decide +kernel)
  exact Keeps.rfl

def State.invokeOk_touch : Nat := touchSet [.dict] []

theorem State.invokeOk_keeps (index : ℕ) (sub : ℕ) (result : List Byte) (s : State) : Keeps State.invokeOk_touch s
    (State.invokeOk index sub result s) := by
  unfold State.invokeOk
  refine Keeps.after ?_ (State.endInvoke_keeps ..) (by decide +kernel)
  exact Keeps.rfl

def State.invokeRefused_touch : Nat := touchSet [.dict] []

theorem State.invokeRefused_keeps (index : ℕ) (sub : ℕ) (s : State) : Keeps State.invokeRefused_touch s
    (State.invokeRefused index sub s) := by
  unfold State.invokeRefused
  refine Keeps.after ?_ (State.endInvoke_keeps ..) (by decide +kernel)
  exact Keeps.rfl

end Sys2Proof.Machine
end

