-- ==== Sys2Proof/Laws/KeepScore.lean ====
section
/-! SUPPORT. What each operation of Machine/Score.lean can change. -/

namespace Sys2Proof.Machine

set_option Elab.async false

def State.answer_touch : Nat := touchSet [.fl] [.CF_ABSENT, .CF_CHANNEL_DOWN, .CF_NO_QUERY, .CF_UNREADABLE]

theorem State.answer_keeps (n : ℕ) (r : CandReq) (score : BitVec 32) (st : ℕ) (s : State) : Keeps State.answer_touch s
    (State.answer n r score st s) := by
  unfold State.answer
  extract_lets x1 x2 x3
  refine Keeps.ite ?_ ?_
  · refine Keeps.after ?_ (State.freeGranules_keeps ..) (by decide +kernel)
    refine Keeps.after ?_ (State.setChan_keeps ..) (by decide +kernel)
    exact Keeps.rfl
  · refine Keeps.fl ?_ (by decide +kernel)
    subst x2
    split
    · refine Keeps.bump ?_ (by decide +kernel)
      exact Keeps.rfl
    · refine Keeps.bump ?_ (by decide +kernel)
      exact Keeps.rfl
    · refine Keeps.bump ?_ (by decide +kernel)
      exact Keeps.rfl
    · refine Keeps.bump ?_ (by decide +kernel)
      exact Keeps.rfl
    · exact Keeps.rfl

def State.ctxUnreadable_touch : Nat := State.log_touch ||| State.answer_touch

theorem State.ctxUnreadable_keeps (n : ℕ) (i : ℕ) (x : ScCtx) (s : State) : Keeps State.ctxUnreadable_touch s
    (State.ctxUnreadable n i x s) := by
  unfold State.ctxUnreadable
  extract_lets x1 x2
  refine Keeps.forEach _ _ (fun a1 t1 => ?_) ?_
  · refine Keeps.after ?_ (State.answer_keeps ..) (by decide +kernel)
    exact Keeps.rfl
  · refine Keeps.after ?_ (State.log_keeps ..) (by decide +kernel)
    refine Keeps.after ?_ (State.progressed_keeps ..) (by decide +kernel)
    refine Keeps.after ?_ (State.setChan_keeps ..) (by decide +kernel)
    exact Keeps.rfl

def State.mismatch_touch : Nat := touchSet [] [.CF_HDR_MISMATCH] ||| State.log_touch

theorem State.mismatch_keeps (n : ℕ) (lsn : ℕ) (s : State) : Keeps State.mismatch_touch s (State.mismatch n lsn s) := by
  unfold State.mismatch
  refine Keeps.after ?_ (State.log_keeps ..) (by decide +kernel)
  refine Keeps.bump ?_ (by decide +kernel)
  exact Keeps.rfl

def State.serve_touch : Nat := touchSet [] [.CF_SCORED, .CF_SCORE_NAN, .TN_ACC_RR_RECORDS] ||| State.answer_touch

theorem State.serve_keeps (n : ℕ) (d : List Byte) (r : CandReq) (s : State) : Keeps State.serve_touch s (State.serve n d
    r s) := by
  unfold State.serve
  extract_lets x1 x2 x3 x4
  refine Keeps.ite ?_ ?_
  · refine Keeps.after ?_ (State.answer_keeps ..) (by decide +kernel)
    refine Keeps.ite ?_ ?_
    · refine Keeps.bump ?_ (by decide +kernel)
      refine Keeps.bump ?_ (by decide +kernel)
      refine Keeps.bump ?_ (by decide +kernel)
      exact Keeps.rfl
    · exact Keeps.rfl
  · refine Keeps.after ?_ (State.answer_keeps ..) (by decide +kernel)
    exact Keeps.rfl

def State.decoded_touch : Nat := touchSet [.freeCount] [] ||| State.serve_touch ||| State.mismatch_touch

theorem State.decoded_keeps (n : ℕ) (i : ℕ) (x : ScCtx) (s : State) : Keeps State.decoded_touch s (State.decoded n i x
    s) := by
  unfold State.decoded
  extract_lets x1 x2 x3 x4 x5 x6 x7 x8 x9
  refine Keeps.ite ?_ ?_
  · refine Keeps.after ?_ (State.progressed_keeps ..) (by decide +kernel)
    refine Keeps.after ?_ (State.setChan_keeps ..) (by decide +kernel)
    refine Keeps.forEach _ _ (fun a1 t1 => ?_) ?_
    · refine Keeps.after ?_ (State.serve_keeps ..) (by decide +kernel)
      exact Keeps.rfl
    · refine Keeps.ite ?_ ?_
      · refine Keeps.after ?_ (State.setChan_keeps ..) (by decide +kernel)
        refine Keeps.after ?_ (State.draw_keeps ..) (by decide +kernel)
        subst x1
        split
        · refine Keeps.ite ?_ ?_
          · refine Keeps.after ?_ (State.modSb_keeps ..) (by decide +kernel)
            exact Keeps.rfl
          · exact Keeps.rfl
        · exact Keeps.rfl
      · refine Keeps.after ?_ (State.mismatch_keeps ..) (by decide +kernel)
        refine Keeps.after ?_ (State.setChan_keeps ..) (by decide +kernel)
        refine Keeps.after ?_ (State.draw_keeps ..) (by decide +kernel)
        subst x1
        split
        · refine Keeps.ite ?_ ?_
          · refine Keeps.after ?_ (State.modSb_keeps ..) (by decide +kernel)
            exact Keeps.rfl
          · exact Keeps.rfl
        · exact Keeps.rfl
  · refine Keeps.after ?_ (State.setChan_keeps ..) (by decide +kernel)
    refine Keeps.forEach _ _ (fun a1 t1 => ?_) ?_
    · refine Keeps.after ?_ (State.serve_keeps ..) (by decide +kernel)
      exact Keeps.rfl
    · refine Keeps.ite ?_ ?_
      · refine Keeps.after ?_ (State.setChan_keeps ..) (by decide +kernel)
        refine Keeps.after ?_ (State.draw_keeps ..) (by decide +kernel)
        subst x1
        split
        · refine Keeps.ite ?_ ?_
          · refine Keeps.after ?_ (State.modSb_keeps ..) (by decide +kernel)
            exact Keeps.rfl
          · exact Keeps.rfl
        · exact Keeps.rfl
      · refine Keeps.after ?_ (State.mismatch_keeps ..) (by decide +kernel)
        refine Keeps.after ?_ (State.setChan_keeps ..) (by decide +kernel)
        refine Keeps.after ?_ (State.draw_keeps ..) (by decide +kernel)
        subst x1
        split
        · refine Keeps.ite ?_ ?_
          · refine Keeps.after ?_ (State.modSb_keeps ..) (by decide +kernel)
            exact Keeps.rfl
          · exact Keeps.rfl
        · exact Keeps.rfl

def State.openCtx_touch : Nat := touchSet [] [.CF_TL_MAP_MISS] ||| State.ctxUnreadable_touch

theorem State.openCtx_keeps (n : ℕ) (i : ℕ) (rs : List CandReq) (s : State) : Keeps State.openCtx_touch s (State.openCtx
    n i rs s) := by
  unfold State.openCtx
  split
  · exact Keeps.rfl
  · extract_lets x1 x2 x3 x4
    split
    · refine Keeps.forEach _ _ (fun a1 t1 => ?_) ?_
      · refine Keeps.after ?_ (State.answer_keeps ..) (by decide +kernel)
        exact Keeps.rfl
      · refine Keeps.after ?_ (State.translate_keeps ..) (by decide +kernel)
        exact Keeps.rfl
    · refine Keeps.after ?_ (State.ctxUnreadable_keeps ..) (by decide +kernel)
      refine Keeps.after ?_ (State.translate_keeps ..) (by decide +kernel)
      exact Keeps.rfl
    · extract_lets x5
      refine Keeps.after ?_ (State.queueOp_keeps ..) (by decide +kernel)
      refine Keeps.after ?_ (State.setChan_keeps ..) (by decide +kernel)
      refine Keeps.after ?_ (State.translate_keeps ..) (by decide +kernel)
      exact Keeps.rfl

def State.drainReqQ_touch : Nat := touchSet [] [.CF_JOINED, .TN_ACC_JOINED] ||| State.openCtx_touch

theorem State.drainReqQ_keeps (q n : Nat) (s : State) : Keeps State.drainReqQ_touch s (State.drainReqQ q n s) := by
  induction n generalizing s with
  | zero =>
    unfold State.drainReqQ
    exact Keeps.rfl
  | succ n ih =>
    unfold State.drainReqQ
    extract_lets x1
    split
    · extract_lets x2 x3 x4
      refine Keeps.after ?_ (ih _) (Nat.and_self _)
      refine Keeps.forEach _ _ (fun a1 t1 => ?_) ?_
      · refine Keeps.bump ?_ (by decide +kernel)
        exact Keeps.rfl
      · refine Keeps.after ?_ (State.openCtx_keeps ..) (by decide +kernel)
        refine Keeps.bump ?_ (by decide +kernel)
        refine Keeps.after ?_ (State.setChan_keeps ..) (by decide +kernel)
        exact Keeps.rfl
    · exact Keeps.rfl

def State.freePlane_touch : Nat := touchSet [.fl] []

theorem State.freePlane_keeps (n : ℕ) (kind : ℕ) (num : ℕ) (s : State) : Keeps State.freePlane_touch s (State.freePlane
    n kind num s) := by
  unfold State.freePlane
  extract_lets x1 x2 x3
  refine Keeps.after ?_ (State.setChan_keeps ..) (by decide +kernel)
  exact Keeps.rfl

def State.issueRead_touch : Nat := touchSet [] [.CF_READS, .TN_ACC_FLASH_READS] ||| State.readSb_touch

theorem State.issueRead_keeps (n : ℕ) (i : ℕ) (s : State) : Keeps State.issueRead_touch s (State.issueRead n i s) := by
  unfold State.issueRead
  extract_lets x1
  split
  · exact Keeps.rfl
  · extract_lets x2 x3 x4 x5
    split
    · refine Keeps.after ?_ (State.readSb_keeps ..) (by decide +kernel)
      refine Keeps.ite ?_ ?_
      · refine Keeps.bump ?_ (by decide +kernel)
        refine Keeps.bump ?_ (by decide +kernel)
        refine Keeps.after ?_ (State.setChan_keeps ..) (by decide +kernel)
        exact Keeps.rfl
      · refine Keeps.after ?_ (State.setChan_keeps ..) (by decide +kernel)
        exact Keeps.rfl
    · refine Keeps.ite ?_ ?_
      · refine Keeps.bump ?_ (by decide +kernel)
        refine Keeps.bump ?_ (by decide +kernel)
        refine Keeps.after ?_ (State.setChan_keeps ..) (by decide +kernel)
        exact Keeps.rfl
      · refine Keeps.after ?_ (State.setChan_keeps ..) (by decide +kernel)
        exact Keeps.rfl

def State.issueOp_touch : Nat := State.issueRead_touch

theorem State.issueOp_keeps (n : ℕ) (plane : ℕ) (op : PlaneOp) (s : State) : Keeps State.issueOp_touch s (State.issueOp
    n plane op s) := by
  unfold State.issueOp
  extract_lets x1 x2 x3 x4 x5 x6
  refine Keeps.ite ?_ ?_
  · refine Keeps.after ?_ (State.issueRead_keeps ..) (by decide +kernel)
    refine Keeps.after ?_ (State.setChan_keeps ..) (by decide +kernel)
    exact Keeps.rfl
  · refine Keeps.after ?_ (State.setChan_keeps ..) (by decide +kernel)
    exact Keeps.rfl

def State.issuePromo_touch : Nat := State.touch_touch ||| State.shape?_touch

theorem State.issuePromo_keeps (n : ℕ) (plane : ℕ) (op : PlaneOp) (s : State) : Keeps State.issuePromo_touch s
    (State.issuePromo n plane op s) := by
  unfold State.issuePromo
  extract_lets x1 x2
  refine Keeps.after ?_ (State.touch_keeps ..) (by decide +kernel)
  refine Keeps.after ?_ (State.setChan_keeps ..) (by decide +kernel)
  refine Keeps.ite ?_ ?_
  · refine KeepsO.getD ?_ ?_
    · refine KeepsO.after ?_ (State.shape?_keeps _ _ _ _) (by decide +kernel)
      exact Keeps.rfl
    · exact Keeps.rfl
  · exact Keeps.rfl

def State.reread_touch : Nat := touchSet [.fl] []

theorem State.reread_keeps (n : ℕ) (i : ℕ) (x : ScCtx) (s : State) : Keeps State.reread_touch s (State.reread n i x s)
    := by
  unfold State.reread
  extract_lets x1 x2
  refine Keeps.after ?_ (State.queueOp_keeps ..) (by decide +kernel)
  refine Keeps.after ?_ (State.setChan_keeps ..) (by decide +kernel)
  exact Keeps.rfl

def State.ladderStep_touch : Nat := touchSet [] [.CF_SOFT_DECODES, .CF_TL_RETRY_READS] ||| State.queueRefresh_touch

theorem State.ladderStep_keeps (n : ℕ) (i : ℕ) (x : ScCtx) (s : State) : Keeps State.ladderStep_touch s
    (State.ladderStep n i x s) := by
  unfold State.ladderStep
  extract_lets x1 x2 x3 x4 x5
  split
  · extract_lets x6
    split
    · refine Keeps.ite ?_ ?_
      · refine Keeps.after ?_ (State.queueRefresh_keeps ..) (by decide +kernel)
        refine Keeps.after ?_ (State.reread_keeps ..) (by decide +kernel)
        refine Keeps.bump ?_ (by decide +kernel)
        refine Keeps.after ?_ (State.setChan_keeps ..) (by decide +kernel)
        exact Keeps.rfl
      · refine Keeps.after ?_ (State.reread_keeps ..) (by decide +kernel)
        refine Keeps.bump ?_ (by decide +kernel)
        refine Keeps.after ?_ (State.setChan_keeps ..) (by decide +kernel)
        exact Keeps.rfl
    · refine Keeps.after ?_ (State.reread_keeps ..) (by decide +kernel)
      refine Keeps.bump ?_ (by decide +kernel)
      refine Keeps.after ?_ (State.setChan_keeps ..) (by decide +kernel)
      exact Keeps.rfl
  · refine Keeps.after ?_ (State.reread_keeps ..) (by decide +kernel)
    refine Keeps.bump ?_ (by decide +kernel)
    refine Keeps.after ?_ (State.setChan_keeps ..) (by decide +kernel)
    exact Keeps.rfl

def State.placeReq_touch : Nat := touchSet [] [.CF_HDR_MISMATCH, .CF_JOINED, .CF_LINGER_HITS, .TN_ACC_JOINED] |||
  State.openCtx_touch ||| State.serve_touch

theorem State.placeReq_keeps (n : ℕ) (r : CandReq) (s : State) : Keeps State.placeReq_touch s (State.placeReq n r s) :=
    by
  unfold State.placeReq
  extract_lets x1 x2 x3 x4
  refine Keeps.ite ?_ ?_
  · refine Keeps.after ?_ (State.answer_keeps ..) (by decide +kernel)
    exact Keeps.rfl
  · split
    · refine Keeps.ite ?_ ?_
      · refine Keeps.after ?_ (State.serve_keeps ..) (by decide +kernel)
        refine Keeps.ite ?_ ?_
        · refine Keeps.bump ?_ (by decide +kernel)
          refine Keeps.bump ?_ (by decide +kernel)
          refine Keeps.bump ?_ (by decide +kernel)
          exact Keeps.rfl
        · refine Keeps.after ?_ (State.mismatch_keeps ..) (by decide +kernel)
          refine Keeps.bump ?_ (by decide +kernel)
          refine Keeps.bump ?_ (by decide +kernel)
          refine Keeps.bump ?_ (by decide +kernel)
          exact Keeps.rfl
      · refine Keeps.after ?_ (State.setChan_keeps ..) (by decide +kernel)
        refine Keeps.bump ?_ (by decide +kernel)
        refine Keeps.bump ?_ (by decide +kernel)
        exact Keeps.rfl
    · split
      · refine Keeps.after ?_ (State.openCtx_keeps ..) (by decide +kernel)
        exact Keeps.rfl
      · refine Keeps.after ?_ (State.setChan_keeps ..) (by decide +kernel)
        exact Keeps.rfl

def State.popInbox_touch : Nat := touchSet [.fl] []

theorem State.popInbox_keeps (n : ℕ) (die : ℕ) (s : State) : Keeps State.popInbox_touch s (State.popInbox n die s) := by
  unfold State.popInbox
  extract_lets x1
  refine Keeps.after ?_ (State.setChan_keeps ..) (by decide +kernel)
  exact Keeps.rfl

def State.servePsum_touch : Nat := touchSet [] [.GE_MARKERS, .GE_REQ_SERVED] ||| State.noteDots_touch |||
  State.releaseTable_touch

theorem State.servePsum_keeps (conn : ℕ) (r : RxMsg) (v : ℕ) (rows : List ℕ) (badRows : List ℕ) (s : State) : Keeps
    State.servePsum_touch s (State.servePsum conn r v rows badRows s) := by
  unfold State.servePsum
  extract_lets x1 x2 x3 x4 x5 x6 x7 x8 x9 x10
  refine Keeps.after ?_ (State.releaseTable_keeps ..) (by decide +kernel)
  refine Keeps.after ?_ (State.post_keeps ..) (by decide +kernel)
  refine Keeps.bump ?_ (by decide +kernel)
  refine Keeps.bump ?_ (by decide +kernel)
  refine Keeps.after ?_ (State.noteDots_keeps ..) (by decide +kernel)
  refine Keeps.after ?_ (State.holdTable_keeps ..) (by decide +kernel)
  exact Keeps.rfl

def execCandidateRequest_touch : Nat := touchSet [] [.CF_REQ] ||| State.placeReq_touch ||| State.noteChan_touch

theorem execCandidateRequest_ends (ch : ℕ) (die : ℕ) (s : State) : Ends execCandidateRequest_touch s
    (execCandidateRequest ch die s) := by
  unfold execCandidateRequest
  extract_lets x1 x2
  split
  · refine Ends.ite ?_ ?_
    · refine Ends.next ?_
      exact Keeps.rfl
    · extract_lets x3
      refine Ends.next ?_
      refine Keeps.after ?_ (State.noteChan_keeps ..) (by decide +kernel)
      refine Keeps.ite ?_ ?_
      · refine Keeps.after ?_ (State.placeReq_keeps ..) (by decide +kernel)
        refine Keeps.bump ?_ (by decide +kernel)
        refine Keeps.after ?_ (State.popInbox_keeps ..) (by decide +kernel)
        exact Keeps.rfl
      · refine Keeps.after ?_ (State.answer_keeps ..) (by decide +kernel)
        refine Keeps.bump ?_ (by decide +kernel)
        refine Keeps.after ?_ (State.popInbox_keeps ..) (by decide +kernel)
        exact Keeps.rfl
  · refine Ends.next ?_
    exact Keeps.rfl

def execDegradedRead_touch : Nat := touchSet [] [.GE_DEG_FAIL, .GE_DEG_READS, .TN_ACC_FLASH_READS] |||
  State.touchStripe_touch

theorem execDegradedRead_ends (die : ℕ) (bad : List ℕ) (s : State) : Ends execDegradedRead_touch s (execDegradedRead die
    bad s) := by
  unfold execDegradedRead
  refine Ends.ite ?_ ?_
  · refine Ends.next ?_
    exact Keeps.rfl
  · split
    · refine Ends.next ?_
      exact Keeps.rfl
    · extract_lets x1 x2 x3 x4 x5 x6 x7 x8 x9 x10
      refine Ends.next ?_
      refine Keeps.fl ?_ (by decide +kernel)
      subst x8
      clear_value x4
      split
      · refine Keeps.ite ?_ ?_
        · refine Keeps.after ?_ (State.repairWrite_keeps ..) (by decide +kernel)
          refine Keeps.ite ?_ ?_
          · refine Keeps.ite ?_ ?_
            · refine Keeps.bump ?_ (by decide +kernel)
              refine Keeps.bump ?_ (by decide +kernel)
              refine Keeps.fl ?_ (by decide +kernel)
              exact Keeps.rfl
            · refine Keeps.after ?_ (State.touchStripe_keeps ..) (by decide +kernel)
              refine Keeps.bump ?_ (by decide +kernel)
              refine Keeps.bump ?_ (by decide +kernel)
              refine Keeps.fl ?_ (by decide +kernel)
              exact Keeps.rfl
          · refine Keeps.after ?_ (State.log_keeps ..) (by decide +kernel)
            refine Keeps.bump ?_ (by decide +kernel)
            refine Keeps.ite ?_ ?_
            · refine Keeps.bump ?_ (by decide +kernel)
              refine Keeps.bump ?_ (by decide +kernel)
              refine Keeps.fl ?_ (by decide +kernel)
              exact Keeps.rfl
            · refine Keeps.after ?_ (State.touchStripe_keeps ..) (by decide +kernel)
              refine Keeps.bump ?_ (by decide +kernel)
              refine Keeps.bump ?_ (by decide +kernel)
              refine Keeps.fl ?_ (by decide +kernel)
              exact Keeps.rfl
        · refine Keeps.ite ?_ ?_
          · refine Keeps.ite ?_ ?_
            · refine Keeps.bump ?_ (by decide +kernel)
              refine Keeps.bump ?_ (by decide +kernel)
              refine Keeps.fl ?_ (by decide +kernel)
              exact Keeps.rfl
            · refine Keeps.after ?_ (State.touchStripe_keeps ..) (by decide +kernel)
              refine Keeps.bump ?_ (by decide +kernel)
              refine Keeps.bump ?_ (by decide +kernel)
              refine Keeps.fl ?_ (by decide +kernel)
              exact Keeps.rfl
          · refine Keeps.after ?_ (State.log_keeps ..) (by decide +kernel)
            refine Keeps.bump ?_ (by decide +kernel)
            refine Keeps.ite ?_ ?_
            · refine Keeps.bump ?_ (by decide +kernel)
              refine Keeps.bump ?_ (by decide +kernel)
              refine Keeps.fl ?_ (by decide +kernel)
              exact Keeps.rfl
            · refine Keeps.after ?_ (State.touchStripe_keeps ..) (by decide +kernel)
              refine Keeps.bump ?_ (by decide +kernel)
              refine Keeps.bump ?_ (by decide +kernel)
              refine Keeps.fl ?_ (by decide +kernel)
              exact Keeps.rfl
      · refine Keeps.ite ?_ ?_
        · refine Keeps.ite ?_ ?_
          · refine Keeps.bump ?_ (by decide +kernel)
            refine Keeps.bump ?_ (by decide +kernel)
            refine Keeps.fl ?_ (by decide +kernel)
            exact Keeps.rfl
          · refine Keeps.after ?_ (State.touchStripe_keeps ..) (by decide +kernel)
            refine Keeps.bump ?_ (by decide +kernel)
            refine Keeps.bump ?_ (by decide +kernel)
            refine Keeps.fl ?_ (by decide +kernel)
            exact Keeps.rfl
        · refine Keeps.after ?_ (State.log_keeps ..) (by decide +kernel)
          refine Keeps.bump ?_ (by decide +kernel)
          refine Keeps.ite ?_ ?_
          · refine Keeps.bump ?_ (by decide +kernel)
            refine Keeps.bump ?_ (by decide +kernel)
            refine Keeps.fl ?_ (by decide +kernel)
            exact Keeps.rfl
          · refine Keeps.after ?_ (State.touchStripe_keeps ..) (by decide +kernel)
            refine Keeps.bump ?_ (by decide +kernel)
            refine Keeps.bump ?_ (by decide +kernel)
            refine Keeps.fl ?_ (by decide +kernel)
            exact Keeps.rfl

def execFp16Reduction_touch : Nat := State.reduceFp16_touch

theorem execFp16Reduction_ends (q : ℕ) (s : State) : Ends execFp16Reduction_touch s (execFp16Reduction q s) := by
  unfold execFp16Reduction
  split
  · refine Ends.next ?_
    refine Keeps.ite ?_ ?_
    · refine Keeps.after ?_ (State.reduceFp16_keeps ..) (by decide +kernel)
      exact Keeps.rfl
    · exact Keeps.rfl
  · refine Ends.next ?_
    exact Keeps.rfl

def execLingerExpiry_touch : Nat := touchSet [.now] [] ||| State.drainReqQ_touch ||| State.noteChan_touch

theorem execLingerExpiry_ends (ch : ℕ) (ctx : ℕ) (s : State) : Ends execLingerExpiry_touch s (execLingerExpiry ch ctx s)
    := by
  unfold execLingerExpiry
  extract_lets x1
  split
  · refine Ends.ite ?_ ?_
    · extract_lets x2
      refine Ends.next ?_
      refine Keeps.after ?_ (State.noteChan_keeps ..) (by decide +kernel)
      refine Keeps.after ?_ (State.drainReqQ_keeps ..) (by decide +kernel)
      refine Keeps.after ?_ (State.progressed_keeps ..) (by decide +kernel)
      refine Keeps.after ?_ (State.setChan_keeps ..) (by decide +kernel)
      refine Keeps.after ?_ (State.reach_keeps ..) (by decide +kernel)
      exact Keeps.rfl
    · refine Ends.next ?_
      exact Keeps.rfl
  · refine Ends.next ?_
    exact Keeps.rfl

def execPageDecode_touch : Nat := State.ladderStep_touch ||| State.decoded_touch ||| State.drainReqQ_touch

theorem execPageDecode_ends (ch : ℕ) (ctx : ℕ) (e : DecodeEnd) (s : State) : Ends execPageDecode_touch s (execPageDecode
    ch ctx e s) := by
  unfold execPageDecode
  split
  · refine Ends.next ?_
    exact Keeps.rfl
  · refine Ends.ite ?_ ?_
    · refine Ends.next ?_
      exact Keeps.rfl
    · extract_lets x1 x2 x3 x4 x5
      refine Ends.next ?_
      refine Keeps.after ?_ (State.noteChan_keeps ..) (by decide +kernel)
      refine Keeps.after ?_ (State.drainReqQ_keeps ..) (by decide +kernel)
      refine Keeps.ite ?_ ?_
      · refine Keeps.after ?_ (State.decoded_keeps ..) (by decide +kernel)
        refine Keeps.after ?_ (State.freePlane_keeps ..) (by decide +kernel)
        exact Keeps.rfl
      · refine Keeps.ite ?_ ?_
        · refine Keeps.after ?_ (State.ctxUnreadable_keeps ..) (by decide +kernel)
          refine Keeps.after ?_ (State.setChan_keeps ..) (by decide +kernel)
          refine Keeps.after ?_ (State.freePlane_keeps ..) (by decide +kernel)
          exact Keeps.rfl
        · refine Keeps.after ?_ (State.ladderStep_keeps ..) (by decide +kernel)
          refine Keeps.after ?_ (State.freePlane_keeps ..) (by decide +kernel)
          exact Keeps.rfl

def execPartialSumRequest_touch : Nat := State.drainRows_touch ||| State.servePsum_touch ||| State.refusePsum_touch

theorem execPartialSumRequest_ends (conn : ℕ) (badRows : List ℕ) (s : State) : Ends execPartialSumRequest_touch s
    (execPartialSumRequest conn badRows s) := by
  unfold execPartialSumRequest
  split
  · refine Ends.next ?_
    exact Keeps.rfl
  · extract_lets x1 x2 x3 x4
    split
    · refine Ends.next ?_
      refine Keeps.ite ?_ ?_
      · refine Keeps.after ?_ (State.servePsum_keeps ..) (by decide +kernel)
        refine Keeps.after ?_ (State.drainRows_keeps ..) (by decide +kernel)
        refine Keeps.after ?_ (KeepsP.get (by assumption) (State.takeSend_keeps _ _ _)) (by decide +kernel)
        exact Keeps.rfl
      · exact Keeps.rfl
    · refine Ends.next ?_
      refine Keeps.after ?_ (State.refusePsum_keeps ..) (by decide +kernel)
      refine Keeps.after ?_ (KeepsP.get (by assumption) (State.takeSend_keeps _ _ _)) (by decide +kernel)
      exact Keeps.rfl

def execPlaneOpIssue_touch : Nat := State.issuePromo_touch ||| State.issueOp_touch

theorem execPlaneOpIssue_ends (ch : ℕ) (plane : ℕ) (s : State) : Ends execPlaneOpIssue_touch s (execPlaneOpIssue ch
    plane s) := by
  unfold execPlaneOpIssue
  refine Ends.ite ?_ ?_
  · refine Ends.next ?_
    exact Keeps.rfl
  · split
    · refine Ends.next ?_
      refine Keeps.forEach _ _ (fun a1 t1 => ?_) ?_
      · refine Keeps.after ?_ (State.shapeWait_keeps ..) (by decide +kernel)
        exact Keeps.rfl
      · exact Keeps.rfl
    · refine Ends.ite ?_ ?_
      · refine Ends.next ?_
        refine Keeps.after ?_ (State.issuePromo_keeps ..) (by decide +kernel)
        exact Keeps.rfl
      · extract_lets x1 x2
        refine Ends.next ?_
        refine Keeps.forEach _ _ (fun a1 t1 => ?_) ?_
        · subst x2
          beta_reduce
          refine Keeps.ite ?_ ?_
          · exact Keeps.rfl
          · split
            · refine Keeps.ite ?_ ?_
              · refine Keeps.after ?_ (State.issueOp_keeps ..) (by decide +kernel)
                exact Keeps.rfl
              · exact Keeps.rfl
            · exact Keeps.rfl
        · refine Keeps.after ?_ (State.issueOp_keeps ..) (by decide +kernel)
          exact Keeps.rfl

def execQueryVectorLoad_touch : Nat := touchSet [.fl] [.CF_QV_LOADS]

theorem execQueryVectorLoad_ends (ch : ℕ) (die : ℕ) (s : State) : Ends execQueryVectorLoad_touch s (execQueryVectorLoad
    ch die s) := by
  unfold execQueryVectorLoad
  split
  · extract_lets x1 x2 x3
    refine Ends.next ?_
    refine Keeps.bump ?_ (by decide +kernel)
    refine Keeps.after ?_ (State.setChan_keeps ..) (by decide +kernel)
    refine Keeps.after ?_ (State.popInbox_keeps ..) (by decide +kernel)
    exact Keeps.rfl
  · refine Ends.next ?_
    exact Keeps.rfl

def execRebuiltSector_touch : Nat := touchSet [] [.BD_RR_REBUILT, .TN_ACC_RR_RECORDS, .TN_DL_LATE_RECORDS] |||
  State.scoreCand_touch

theorem execRebuiltSector_ends (die : ℕ) (s : State) : Ends execRebuiltSector_touch s (execRebuiltSector die s) := by
  unfold execRebuiltSector
  refine Ends.ite ?_ ?_
  · refine Ends.next ?_
    exact Keeps.rfl
  · split
    · refine Ends.next ?_
      exact Keeps.rfl
    · extract_lets x1 x2
      split
      · refine Ends.next ?_
        refine Keeps.after ?_ (State.late_keeps ..) (by decide +kernel)
        refine Keeps.fl ?_ (by decide +kernel)
        exact Keeps.rfl
      · refine Ends.ite ?_ ?_
        · refine Ends.next ?_
          refine Keeps.after ?_ (State.late_keeps ..) (by decide +kernel)
          refine Keeps.fl ?_ (by decide +kernel)
          exact Keeps.rfl
        · split
          · extract_lets x3
            refine Ends.next ?_
            refine Keeps.after ?_ (State.excludeCand_keeps ..) (by decide +kernel)
            refine Keeps.ite ?_ ?_
            · refine Keeps.fl ?_ (by decide +kernel)
              exact Keeps.rfl
            · refine Keeps.after ?_ (State.log_keeps ..) (by decide +kernel)
              refine Keeps.bump ?_ (by decide +kernel)
              refine Keeps.fl ?_ (by decide +kernel)
              exact Keeps.rfl
          · extract_lets x3 x4 x5 x6 x7
            refine Ends.next ?_
            refine Keeps.after ?_ (State.scoreCand_keeps ..) (by decide +kernel)
            refine Keeps.ite ?_ ?_
            · refine Keeps.after ?_ (State.setChan_keeps ..) (by decide +kernel)
              refine Keeps.bump ?_ (by decide +kernel)
              refine Keeps.bump ?_ (by decide +kernel)
              refine Keeps.fl ?_ (by decide +kernel)
              exact Keeps.rfl
            · refine Keeps.bump ?_ (by decide +kernel)
              refine Keeps.bump ?_ (by decide +kernel)
              refine Keeps.fl ?_ (by decide +kernel)
              exact Keeps.rfl

def execRerankBudgetEnd_touch : Nat := touchSet [.now] [] ||| State.budgetEnd_touch

theorem execRerankBudgetEnd_ends (q : ℕ) (s : State) : Ends execRerankBudgetEnd_touch s (execRerankBudgetEnd q s) := by
  unfold execRerankBudgetEnd
  split
  · refine Ends.next ?_
    refine Keeps.after ?_ (State.budgetEnd_keeps ..) (by decide +kernel)
    refine Keeps.after ?_ (State.reach_keeps ..) (by decide +kernel)
    exact Keeps.rfl
  · refine Ends.next ?_
    exact Keeps.rfl

def execScanDeadline_touch : Nat := touchSet [.now] [] ||| State.scanCut_touch

theorem execScanDeadline_ends (q : ℕ) (s : State) : Ends execScanDeadline_touch s (execScanDeadline q s) := by
  unfold execScanDeadline
  split
  · refine Ends.next ?_
    refine Keeps.after ?_ (State.scanCut_keeps ..) (by decide +kernel)
    refine Keeps.after ?_ (State.reach_keeps ..) (by decide +kernel)
    exact Keeps.rfl
  · refine Ends.next ?_
    exact Keeps.rfl

def execScoreRecord_touch : Nat := touchSet [] [.TN_DL_LATE_RECORDS] ||| State.scoreCand_touch

theorem execScoreRecord_ends (die : ℕ) (s : State) : Ends execScoreRecord_touch s (execScoreRecord die s) := by
  unfold execScoreRecord
  refine Ends.ite ?_ ?_
  · refine Ends.next ?_
    exact Keeps.rfl
  · split
    · refine Ends.next ?_
      exact Keeps.rfl
    · extract_lets x1 x2 x3
      refine Ends.next ?_
      refine Keeps.after ?_ (State.freeGranules_keeps ..) (by decide +kernel)
      subst x3
      split
      · refine Keeps.ite ?_ ?_
        · split
          · refine Keeps.after ?_ (State.scoreCand_keeps ..) (by decide +kernel)
            refine Keeps.fl ?_ (by decide +kernel)
            exact Keeps.rfl
          · refine Keeps.after ?_ (State.excludeCand_keeps ..) (by decide +kernel)
            refine Keeps.after ?_ (State.flashAbsent_keeps ..) (by decide +kernel)
            refine Keeps.fl ?_ (by decide +kernel)
            exact Keeps.rfl
          · refine Keeps.after ?_ (State.excludeCand_keeps ..) (by decide +kernel)
            refine Keeps.after ?_ (State.flashAbsent_keeps ..) (by decide +kernel)
            refine Keeps.fl ?_ (by decide +kernel)
            exact Keeps.rfl
          · refine Keeps.after ?_ (State.sendDegraded_keeps ..) (by decide +kernel)
            refine Keeps.fl ?_ (by decide +kernel)
            exact Keeps.rfl
        · refine Keeps.after ?_ (State.late_keeps ..) (by decide +kernel)
          refine Keeps.fl ?_ (by decide +kernel)
          exact Keeps.rfl
      · refine Keeps.after ?_ (State.late_keeps ..) (by decide +kernel)
        refine Keeps.fl ?_ (by decide +kernel)
        exact Keeps.rfl

def execShadowTimeout_touch : Nat := touchSet [.now] [] ||| State.endShadow_touch

theorem execShadowTimeout_ends (q : ℕ) (s : State) : Ends execShadowTimeout_touch s (execShadowTimeout q s) := by
  unfold execShadowTimeout
  split
  · refine Ends.ite ?_ ?_
    · refine Ends.next ?_
      refine Keeps.after ?_ (State.endShadow_keeps ..) (by decide +kernel)
      refine Keeps.after ?_ (State.reach_keeps ..) (by decide +kernel)
      exact Keeps.rfl
    · refine Ends.next ?_
      exact Keeps.rfl
  · refine Ends.next ?_
    exact Keeps.rfl

end Sys2Proof.Machine
end

