-- ==== Sys2Proof/Laws/KeepFlashChannel.lean ====
section
/-! SUPPORT. What each operation of Machine/FlashChannel.lean can change. -/

namespace Sys2Proof.Machine

set_option Elab.async false

def State.abortAttachBy_touch : Nat := touchSet [] [.CF_SVC] ||| State.discard_touch ||| State.downAll_touch

theorem State.abortAttachBy_ends (ch : ℕ) (loc : W64) (value : W64) (s : State) : Ends State.abortAttachBy_touch s
    (State.abortAttachBy ch loc value s) := by
  unfold State.abortAttachBy
  refine Ends.ite ?_ ?_
  · refine Ends.next ?_
    refine Keeps.after ?_ (State.powerDownCh_keeps ..) (by decide +kernel)
    refine Keeps.after ?_ (State.downAll_keeps ..) (by decide +kernel)
    exact Keeps.rfl
  · refine Ends.next ?_
    refine Keeps.after ?_ (State.discard_keeps ..) (by decide +kernel)
    exact Keeps.rfl

def State.resetShaper_touch : Nat := touchSet [.pol, .shadowRegs] [.PL_SHP_BYTES, .PL_SHP_CTL, .PL_SHP_RATE,
  .PL_SHP_SIZE, .PL_SHP_WAIT_NS]

theorem State.resetShaper_keeps (n : ℕ) (s : State) : Keeps State.resetShaper_touch s (State.resetShaper n s) := by
  unfold State.resetShaper
  extract_lets x1 x2
  refine Keeps.pol ?_ (by decide +kernel)
  refine Keeps.resetRegs ?_ (by decide +kernel) (by decide +kernel)
  exact Keeps.rfl

def State.resetCuff_touch : Nat := touchSet [] [.CF_ABSENT, .CF_CTL, .CF_HDR_MISMATCH, .CF_JOINED, .CF_LINGER_HITS,
  .CF_NO_QUERY, .CF_QV_LOADS, .CF_RD_CFG, .CF_READS, .CF_REBUILD_READS, .CF_REQ, .CF_SCORED, .CF_SCORE_NAN, .CF_SNAP,
  .CF_SOFT_DECODES, .CF_TL_CFG, .CF_TL_CKPT, .CF_TL_ERASES, .CF_TL_FOLDS, .CF_TL_GC_MOVES, .CF_TL_GC_ORPHANS,
  .CF_TL_HOST_BYTES, .CF_TL_MAP_MISS, .CF_TL_REFRESH, .CF_TL_RETIRED, .CF_TL_RETRY_READS, .CF_TL_TIME_REFUSED,
  .CF_TL_WL_MOVES, .CF_TL_WRITE_WAIT_NS, .CF_UNREADABLE] ||| State.replayCh_touch ||| State.resetShaper_touch |||
  State.downAll_touch

theorem State.resetCuff_keeps (n : ℕ) (powerLost : Bool) (s : State) : Keeps State.resetCuff_touch s (State.resetCuff n
    powerLost s) := by
  unfold State.resetCuff
  extract_lets x1 x2 x3 x4
  refine Keeps.after ?_ (State.setChan_keeps ..) (by decide +kernel)
  refine Keeps.after ?_ (State.resetShaper_keeps ..) (by decide +kernel)
  refine Keeps.after ?_ (State.replayCh_keeps ..) (by decide +kernel)
  refine Keeps.resetRegs ?_ (by decide +kernel) (by decide +kernel)
  refine Keeps.after ?_ (State.downAll_keeps ..) (by decide +kernel)
  exact Keeps.rfl

def State.attachBy_touch : Nat := touchSet [] [.CF_SVC] ||| State.resetCuff_touch

theorem State.attachBy_ends (ch : ℕ) (loc : W64) (value : W64) (s : State) : Ends State.attachBy_touch s (State.attachBy
    ch loc value s) := by
  unfold State.attachBy
  refine Ends.ite ?_ ?_
  · extract_lets x1 x2
    refine Ends.next ?_
    refine Keeps.setFld ?_ (by decide +kernel)
    refine Keeps.after ?_ (State.setChan_keeps ..) (by decide +kernel)
    refine Keeps.after ?_ (State.resetCuff_keeps ..) (by decide +kernel)
    exact Keeps.rfl
  · refine Ends.next ?_
    refine Keeps.after ?_ (State.discard_keeps ..) (by decide +kernel)
    exact Keeps.rfl

def State.detachBy_touch : Nat := State.discard_touch ||| State.departCh_touch

theorem State.detachBy_ends (ch : ℕ) (loc : W64) (value : W64) (s : State) : Ends State.detachBy_touch s (State.detachBy
    ch loc value s) := by
  unfold State.detachBy
  refine Ends.ite ?_ ?_
  · refine Ends.next ?_
    refine Keeps.after ?_ (State.departCh_keeps ..) (by decide +kernel)
    exact Keeps.rfl
  · refine Ends.next ?_
    refine Keeps.after ?_ (State.discard_keeps ..) (by decide +kernel)
    exact Keeps.rfl

def State.endFlush_touch : Nat := State.issueCopy_touch

theorem State.endFlush_keeps (n : ℕ) (s : State) : Keeps State.endFlush_touch s (State.endFlush n s) := by
  unfold State.endFlush
  extract_lets x1 x2
  refine Keeps.after ?_ (State.nextRefresh_keeps ..) (by decide +kernel)
  refine Keeps.after ?_ (State.issueCopy_keeps ..) (by decide +kernel)
  refine Keeps.setFld ?_ (by decide +kernel)
  refine Keeps.after ?_ (State.setChan_keeps ..) (by decide +kernel)
  exact Keeps.rfl

def State.noteStarved_touch : Nat := touchSet [.fl] []

theorem State.noteStarved_keeps (die : ℕ) (s : State) : Keeps State.noteStarved_touch s (State.noteStarved die s) := by
  unfold State.noteStarved
  extract_lets x1 x2 x3
  refine Keeps.fl ?_ (by decide +kernel)
  exact Keeps.rfl

def State.passWrite_touch : Nat := State.shape?_touch

theorem State.passWrite_keeps (s : State) (held : List (Nat × Nat)) (ws : List SWrite) :
    Keeps2 State.passWrite_touch s (s.passWrite held ws) := by
  induction ws generalizing held s with
  | nil => exact Keeps.rfl
  | cons w ws ih =>
    unfold State.passWrite
    extract_lets key
    refine Keeps2.ite (ih _ _) (Keeps2.ite (ih _ _) ?_)
    split
    · rename_i ht
      exact Keeps.after Keeps.rfl (KeepsO.get ht (State.shape?_keeps _ _ _ _)) (by decide +kernel)
    · exact Keeps.after (Keeps.after Keeps.rfl (State.shapeWait_keeps ..) (by decide +kernel)) (ih _ _) (Nat.and_self _)

def State.readPage_touch : Nat := touchSet [.fl, .freeCount] []

theorem State.readPage_keeps (n : ℕ) (s : State) : Keeps State.readPage_touch s (State.readPage n s) := by
  unfold State.readPage
  extract_lets x1 x2
  refine Keeps.after ?_ (State.setChan_keeps ..) (by decide +kernel)
  refine Keeps.after ?_ (State.draw_keeps ..) (by decide +kernel)
  refine Keeps.after ?_ (State.draw_keeps ..) (by decide +kernel)
  refine Keeps.after ?_ (State.draw_keeps ..) (by decide +kernel)
  refine Keeps.after ?_ (State.draw_keeps ..) (by decide +kernel)
  exact Keeps.rfl

def State.servedRebuild_touch : Nat := touchSet [] [.CF_REBUILD_READS] ||| State.touchStripe_touch

theorem State.servedRebuild_keeps (n : ℕ) (e : ℕ) (k : ℕ) (s : State) : Keeps State.servedRebuild_touch s
    (State.servedRebuild n e k s) := by
  unfold State.servedRebuild
  extract_lets x1
  refine Keeps.after ?_ (State.touchStripe_keeps ..) (by decide +kernel)
  refine Keeps.forEach _ _ (fun a1 t1 => ?_) ?_
  · subst x1
    beta_reduce
    extract_lets x1 x2
    refine Keeps.bump ?_ (by decide +kernel)
    refine Keeps.ite ?_ ?_
    · refine Keeps.after ?_ (State.setChan_keeps ..) (by decide +kernel)
      exact Keeps.rfl
    · exact Keeps.rfl
  · exact Keeps.rfl

def State.rebuildData_touch : Nat := touchSet [] [.CF_REBUILD_POS, .CF_TL_HOST_BYTES, .GE_REBUILD_LOST,
  .GE_REBUILD_SECTORS] ||| State.servedRebuild_touch

theorem State.rebuildData_keeps (n : ℕ) (c : ℕ) (bad : List ℕ) (s : State) : Keeps State.rebuildData_touch s
    (State.rebuildData n c bad s) := by
  unfold State.rebuildData
  extract_lets x1 x2 x3 x4
  split
  · refine Keeps.after ?_ (State.cuffFault_keeps ..) (by decide +kernel)
    refine Keeps.after ?_ (State.servedRebuild_keeps ..) (by decide +kernel)
    exact Keeps.rfl
  · extract_lets x5 x6
    refine Keeps.setFld ?_ (by decide +kernel)
    refine Keeps.setFld ?_ (by decide +kernel)
    subst x5
    split
    · refine Keeps.ite ?_ ?_
      · refine Keeps.bump ?_ (by decide +kernel)
        refine Keeps.after ?_ (State.servedRebuild_keeps ..) (by decide +kernel)
        exact Keeps.rfl
      · refine Keeps.bump ?_ (by decide +kernel)
        refine Keeps.after ?_ (State.writeSect_keeps ..) (by decide +kernel)
        refine Keeps.bump ?_ (by decide +kernel)
        refine Keeps.after ?_ (State.servedRebuild_keeps ..) (by decide +kernel)
        exact Keeps.rfl
    · refine Keeps.bump ?_ (by decide +kernel)
      refine Keeps.after ?_ (State.loseSect_keeps ..) (by decide +kernel)
      refine Keeps.after ?_ (State.servedRebuild_keeps ..) (by decide +kernel)
      exact Keeps.rfl

def State.recompute_touch : Nat := touchSet [] [.CF_TL_HOST_BYTES, .GE_PAR_UNPROTECTED] ||| State.log_touch |||
  State.writeSect_touch

theorem State.recompute_keeps (e : ℕ) (k : ℕ) (bad : List ℕ) (s : State) : Keeps State.recompute_touch s
    (State.recompute e k bad s) := by
  unfold State.recompute
  extract_lets x1 x2 x3 x4 x5 x6
  refine Keeps.ite ?_ ?_
  · refine Keeps.ite ?_ ?_
    · exact Keeps.rfl
    · refine Keeps.after ?_ (State.log_keeps ..) (by decide +kernel)
      refine Keeps.bump ?_ (by decide +kernel)
      exact Keeps.rfl
  · refine Keeps.bump ?_ (by decide +kernel)
    refine Keeps.after ?_ (State.writeSect_keeps ..) (by decide +kernel)
    refine Keeps.ite ?_ ?_
    · exact Keeps.rfl
    · refine Keeps.after ?_ (State.log_keeps ..) (by decide +kernel)
      refine Keeps.bump ?_ (by decide +kernel)
      exact Keeps.rfl

def State.returnFailed_touch : Nat := State.powerDownCh_touch

theorem State.returnFailed_keeps (n : ℕ) (s : State) : Keeps State.returnFailed_touch s (State.returnFailed n s) := by
  unfold State.returnFailed
  refine Keeps.after ?_ (State.powerDownCh_keeps ..) (by decide +kernel)
  refine Keeps.setFld ?_ (by decide +kernel)
  exact Keeps.rfl

def State.salvage_touch : Nat := touchSet [] [.GE_DEG_FAIL, .GE_DEG_READS] ||| State.touchStripe_touch

theorem State.salvage_keeps (n : ℕ) (dst : ℕ) (bad : List ℕ) (i : ℕ) (s : State) : Keeps State.salvage_touch s
    (State.salvage n dst bad i s) := by
  unfold State.salvage
  extract_lets x1 x2 x3 x4 x5 x6 x7 x8 x9
  refine Keeps.ite ?_ ?_
  · exact Keeps.rfl
  · clear_value x7
    split
    · extract_lets x9
      refine Keeps.after ?_ (State.modSb_keeps ..) (by decide +kernel)
      refine Keeps.after ?_ (State.touchStripe_keeps ..) (by decide +kernel)
      refine Keeps.bump ?_ (by decide +kernel)
      exact Keeps.rfl
    · refine Keeps.after ?_ (State.loseSect_keeps ..) (by decide +kernel)
      refine Keeps.after ?_ (State.log_keeps ..) (by decide +kernel)
      refine Keeps.bump ?_ (by decide +kernel)
      refine Keeps.after ?_ (State.touchStripe_keeps ..) (by decide +kernel)
      refine Keeps.bump ?_ (by decide +kernel)
      exact Keeps.rfl

def State.startFlush_touch : Nat := touchSet [.fl] [.CF_TL_STATUS]

theorem State.startFlush_keeps (n : ℕ) (s : State) : Keeps State.startFlush_touch s (State.startFlush n s) := by
  unfold State.startFlush
  extract_lets x1 x2 x3
  refine Keeps.after ?_ (State.noteFree_keeps ..) (by decide +kernel)
  refine Keeps.after ?_ (State.setChan_keeps ..) (by decide +kernel)
  exact Keeps.rfl

def execAbortAttach_touch : Nat := State.abortAttachBy_touch

theorem execAbortAttach_ends (ch : ℕ) (loc : W64) (s : State) : Ends execAbortAttach_touch s (execAbortAttach ch loc s)
    := by
  unfold execAbortAttach
  refine Ends.after ?_ (State.abortAttachBy_ends ..) (by decide +kernel)
  exact Keeps.rfl

def execAttach_touch : Nat := State.attachBy_touch

theorem execAttach_ends (ch : ℕ) (loc : W64) (s : State) : Ends execAttach_touch s (execAttach ch loc s) := by
  unfold execAttach
  refine Ends.after ?_ (State.attachBy_ends ..) (by decide +kernel)
  exact Keeps.rfl

def execCarrierPowerSettled_touch : Nat := touchSet [.fl, .now] []

theorem execCarrierPowerSettled_ends (ch : ℕ) (s : State) : Ends execCarrierPowerSettled_touch s
    (execCarrierPowerSettled ch s) := by
  unfold execCarrierPowerSettled
  extract_lets x1
  refine Ends.ite ?_ ?_
  · refine Ends.next ?_
    refine Keeps.after ?_ (State.setChan_keeps ..) (by decide +kernel)
    refine Keeps.after ?_ (State.reach_keeps ..) (by decide +kernel)
    exact Keeps.rfl
  · refine Ends.next ?_
    exact Keeps.rfl

def execCarrierPresenceChange_touch : Nat := State.cuffFault_touch

theorem execCarrierPresenceChange_ends (ch : ℕ) (present : Bool) (s : State) : Ends execCarrierPresenceChange_touch s
    (execCarrierPresenceChange ch present s) := by
  unfold execCarrierPresenceChange
  extract_lets x1
  refine Ends.ite ?_ ?_
  · refine Ends.next ?_
    refine Keeps.after ?_ (State.setChan_keeps ..) (by decide +kernel)
    exact Keeps.rfl
  · refine Ends.next ?_
    refine Keeps.after ?_ (State.cuffFault_keeps ..) (by decide +kernel)
    refine Keeps.after ?_ (State.setChan_keeps ..) (by decide +kernel)
    exact Keeps.rfl

def execChannelFault_touch : Nat := State.checkHealth_touch

theorem execChannelFault_ends (ch : ℕ) (cause : ℕ) (s : State) : Ends execChannelFault_touch s (execChannelFault ch
    cause s) := by
  unfold execChannelFault
  refine Ends.next ?_
  refine Keeps.ite ?_ ?_
  · refine Keeps.after ?_ (State.checkHealth_keeps ..) (by decide +kernel)
    exact Keeps.rfl
  · refine Keeps.after ?_ (State.cuffFault_keeps ..) (by decide +kernel)
    exact Keeps.rfl

def execChannelSelfTestDone_touch : Nat := touchSet [] [.CF_REBUILD_POS, .CF_SVC] ||| State.log_touch |||
  State.formatCh_touch

theorem execChannelSelfTestDone_ends (ch : ℕ) (pass : Bool) (goodUnits : ℕ) (s : State) : Ends
    execChannelSelfTestDone_touch s (execChannelSelfTestDone ch pass goodUnits s) := by
  unfold execChannelSelfTestDone
  refine Ends.ite ?_ ?_
  · refine Ends.ite ?_ ?_
    · extract_lets x1 x2
      refine Ends.next ?_
      refine Keeps.after ?_ (State.returnFailed_keeps ..) (by decide +kernel)
      refine Keeps.after ?_ (State.log_keeps ..) (by decide +kernel)
      refine Keeps.after ?_ (State.draw_keeps ..) (by decide +kernel)
      refine Keeps.after ?_ (State.draw_keeps ..) (by decide +kernel)
      exact Keeps.rfl
    · refine Ends.ite ?_ ?_
      · refine Ends.next ?_
        refine Keeps.after ?_ (State.returnFailed_keeps ..) (by decide +kernel)
        exact Keeps.rfl
      · extract_lets x1 x2
        refine Ends.next ?_
        refine Keeps.after ?_ (State.setChan_keeps ..) (by decide +kernel)
        refine Keeps.setFld ?_ (by decide +kernel)
        refine Keeps.setFld ?_ (by decide +kernel)
        refine Keeps.setFld ?_ (by decide +kernel)
        refine Keeps.after ?_ (State.formatCh_keeps ..) (by decide +kernel)
        refine Keeps.after ?_ (State.readPage_keeps ..) (by decide +kernel)
        exact Keeps.rfl
  · refine Ends.next ?_
    exact Keeps.rfl

def execChannelShadowRecord_touch : Nat := touchSet [] [.CF_SVC] ||| State.log_touch ||| State.downAll_touch

theorem execChannelShadowRecord_ends (ch : ℕ) (tag : ℕ) (s : State) : Ends execChannelShadowRecord_touch s
    (execChannelShadowRecord ch tag s) := by
  unfold execChannelShadowRecord
  extract_lets x1 x2 x3 x4
  split
  · refine Ends.ite ?_ ?_
    · refine Ends.ite ?_ ?_
      · refine Ends.next ?_
        refine Keeps.ras ?_ (by decide +kernel) (Or.inl rfl)
        refine Keeps.setFld ?_ (by decide +kernel)
        refine Keeps.after ?_ (State.setChan_keeps ..) (by decide +kernel)
        exact Keeps.rfl
      · refine Ends.next ?_
        refine Keeps.after ?_ (State.setChan_keeps ..) (by decide +kernel)
        exact Keeps.rfl
    · refine Ends.next ?_
      refine Keeps.after ?_ (State.returnFailed_keeps ..) (by decide +kernel)
      refine Keeps.after ?_ (State.downAll_keeps ..) (by decide +kernel)
      refine Keeps.after ?_ (State.log_keeps ..) (by decide +kernel)
      exact Keeps.rfl
  · refine Ends.next ?_
    exact Keeps.rfl

def execDetach_touch : Nat := State.detachBy_touch

theorem execDetach_ends (ch : ℕ) (loc : W64) (s : State) : Ends execDetach_touch s (execDetach ch loc s) := by
  unfold execDetach
  refine Ends.after ?_ (State.detachBy_ends ..) (by decide +kernel)
  exact Keeps.rfl

def execDetachDrainEnd_touch : Nat := touchSet [.now] [.CF_SVC] ||| State.downAll_touch

theorem execDetachDrainEnd_ends (ch : ℕ) (s : State) : Ends execDetachDrainEnd_touch s (execDetachDrainEnd ch s) := by
  unfold execDetachDrainEnd
  extract_lets x1 x2 x3 x4
  refine Ends.ite ?_ ?_
  · refine Ends.next ?_
    refine Keeps.after ?_ (State.powerDownCh_keeps ..) (by decide +kernel)
    refine Keeps.forEach _ _ (fun a1 t1 => ?_) ?_
    · refine Keeps.after ?_ (State.commitOpen_keeps ..) (by decide +kernel)
      exact Keeps.rfl
    · refine Keeps.after ?_ (State.downAll_keeps ..) (by decide +kernel)
      refine Keeps.ite ?_ ?_
      · exact Keeps.rfl
      · refine Keeps.after ?_ (State.reach_keeps ..) (by decide +kernel)
        exact Keeps.rfl
  · refine Ends.next ?_
    exact Keeps.rfl

def execFlashFormat_touch : Nat := touchSet [.dict] [.CF_CAP] ||| State.formatCh_touch

theorem execFlashFormat_ends (goodUnits : List ℕ) (s : State) : Ends execFlashFormat_touch s (execFlashFormat goodUnits
    s) := by
  unfold execFlashFormat
  refine Ends.ite ?_ ?_
  · refine Ends.next ?_
    refine Keeps.after ?_ (State.invokeRefused_keeps ..) (by decide +kernel)
    exact Keeps.rfl
  · extract_lets x1 x2 x3
    refine Ends.next ?_
    refine Keeps.after ?_ (State.invokeOk_keeps ..) (by decide +kernel)
    refine Keeps.forEach _ _ (fun a1 t1 => ?_) ?_
    · subst x3
      beta_reduce
      refine Keeps.after ?_ (State.formatCh_keeps ..) (by decide +kernel)
      refine Keeps.setFld ?_ (by decide +kernel)
      refine Keeps.setFld ?_ (by decide +kernel)
      exact Keeps.rfl
    · exact Keeps.rfl

def execFlashTimeRecord_touch : Nat := touchSet [.now] [] ||| State.journal_touch

theorem execFlashTimeRecord_ends (ch : ℕ) (s : State) : Ends execFlashTimeRecord_touch s (execFlashTimeRecord ch s) :=
    by
  unfold execFlashTimeRecord
  refine Ends.ite ?_ ?_
  · extract_lets x1 x2 x3
    refine Ends.next ?_
    refine Keeps.after ?_ (State.journal_keeps ..) (by decide +kernel)
    refine Keeps.after ?_ (State.setChan_keeps ..) (by decide +kernel)
    refine Keeps.after ?_ (State.reach_keeps ..) (by decide +kernel)
    exact Keeps.rfl
  · refine Ends.next ?_
    exact Keeps.rfl

def execFlashTimeSet_touch : Nat := touchSet [.dict] [.CF_TL_TIME_REFUSED] ||| State.journal_touch

theorem execFlashTimeSet_ends (time : ℕ) (s : State) : Ends execFlashTimeSet_touch s (execFlashTimeSet time s) := by
  unfold execFlashTimeSet
  extract_lets x1 x2 x3 x4
  refine Ends.next ?_
  refine Keeps.after ?_ (State.invokeOk_keeps ..) (by decide +kernel)
  refine Keeps.forEach _ _ (fun a1 t1 => ?_) ?_
  · subst x4
    beta_reduce
    refine Keeps.ite ?_ ?_
    · extract_lets x4 x5
      refine Keeps.setFld ?_ (by decide +kernel)
      refine Keeps.after ?_ (State.journal_keeps ..) (by decide +kernel)
      refine Keeps.after ?_ (State.setChan_keeps ..) (by decide +kernel)
      exact Keeps.rfl
    · refine Keeps.setFld ?_ (by decide +kernel)
      refine Keeps.bump ?_ (by decide +kernel)
      exact Keeps.rfl
  · exact Keeps.rfl

def execFlushComplete_touch : Nat := State.endFlush_touch

theorem execFlushComplete_ends (ch : ℕ) (s : State) : Ends execFlushComplete_touch s (execFlushComplete ch s) := by
  unfold execFlushComplete
  extract_lets x1 x2 x3 x4 x5
  refine Ends.ite ?_ ?_
  · refine Ends.next ?_
    refine Keeps.ite ?_ ?_
    · refine Keeps.after ?_ (State.endFlush_keeps ..) (by decide +kernel)
      refine Keeps.setFld ?_ (by decide +kernel)
      refine Keeps.after ?_ (State.programStaging_keeps ..) (by decide +kernel)
      refine Keeps.after ?_ (State.journal_keeps ..) (by decide +kernel)
      refine Keeps.after ?_ (State.setChan_keeps ..) (by decide +kernel)
      refine Keeps.after ?_ (State.flushStaging_keeps ..) (by decide +kernel)
      exact Keeps.rfl
    · refine Keeps.setFld ?_ (by decide +kernel)
      refine Keeps.after ?_ (State.programStaging_keeps ..) (by decide +kernel)
      refine Keeps.after ?_ (State.journal_keeps ..) (by decide +kernel)
      refine Keeps.after ?_ (State.setChan_keeps ..) (by decide +kernel)
      refine Keeps.after ?_ (State.flushStaging_keeps ..) (by decide +kernel)
      exact Keeps.rfl
  · refine Ends.next ?_
    exact Keeps.rfl

def execFold_touch : Nat := State.readSb_touch

theorem execFold_ends (ch unit : Nat) (s : State) : Ends execFold_touch s (execFold ch unit s) := by
  unfold execFold
  extract_lets c
  refine Ends.ite (Ends.next Keeps.rfl) ?_
  split
  · exact Ends.next Keeps.rfl
  · rename_i hf
    obtain ⟨b, _, e⟩ := List.exists_of_findSome?_eq_some hf
    obtain ⟨⟨sb, u⟩, hr, e⟩ := Option.map_eq_some_iff.mp e
    cases e
    have h1 := Keeps.after (m := execFold_touch) Keeps.rfl (KeepsP.get hr (State.target_keeps _ _ _ _)) (by decide +kernel)
    extract_lets t1 q x next t2
    have h2 : Keeps execFold_touch s t1 := by
      subst t1
      split
      · exact Keeps.after h1 (State.readSb_keeps ..) (by decide +kernel)
      · exact h1
    refine Ends.next ?_
    refine Keeps.after ?_ (State.checkGc_keeps ..) (by decide +kernel)
    refine Keeps.after ?_ (State.queueOp_keeps ..) (by decide +kernel)
    refine Keeps.after ?_ (State.setChan_keeps ..) (by decide +kernel)
    exact Keeps.after h2 (State.programUnit_keeps ..) (by decide +kernel)

def execFoldProgramStatus_touch : Nat := touchSet [] [.CF_TL_FOLDS] ||| State.programFailed_touch

theorem execFoldProgramStatus_ends (ch : ℕ) (unit : ℕ) (ok : Bool) (s : State) : Ends execFoldProgramStatus_touch s
    (execFoldProgramStatus ch unit ok s) := by
  unfold execFoldProgramStatus
  extract_lets x1 x2
  split
  · refine Ends.next ?_
    exact Keeps.rfl
  · refine Ends.ite ?_ ?_
    · refine Ends.next ?_
      exact Keeps.rfl
    · refine Ends.ite ?_ ?_
      · extract_lets x3 x4 x5
        refine Ends.next ?_
        refine Keeps.after ?_ (State.closeFull_keeps ..) (by decide +kernel)
        refine Keeps.after ?_ (State.setChan_keeps ..) (by decide +kernel)
        refine Keeps.bump ?_ (by decide +kernel)
        refine Keeps.after ?_ (State.setMap_keeps ..) (by decide +kernel)
        refine Keeps.after ?_ (State.journal_keeps ..) (by decide +kernel)
        refine Keeps.after ?_ (State.freePlane_keeps ..) (by decide +kernel)
        refine Keeps.after ?_ (State.setChan_keeps ..) (by decide +kernel)
        exact Keeps.rfl
      · refine Ends.next ?_
        refine Keeps.after ?_ (State.programFailed_keeps ..) (by decide +kernel)
        refine Keeps.after ?_ (State.freePlane_keeps ..) (by decide +kernel)
        refine Keeps.after ?_ (State.setChan_keeps ..) (by decide +kernel)
        exact Keeps.rfl

def execGcErase_touch : Nat := touchSet [] [.CF_TL_ERASES] ||| State.checkWear_touch ||| State.retireSb_touch

theorem execGcErase_ends (ch : ℕ) (sb : ℕ) (ok : Bool) (s : State) : Ends execGcErase_touch s (execGcErase ch sb ok s)
    := by
  unfold execGcErase
  extract_lets x1 x2 x3 x4 x5 x6
  refine Ends.ite ?_ ?_
  · refine Ends.next ?_
    exact Keeps.rfl
  · refine Ends.ite ?_ ?_
    · refine Ends.next ?_
      refine Keeps.after ?_ (State.checkHealth_keeps ..) (by decide +kernel)
      refine Keeps.after ?_ (State.checkWear_keeps ..) (by decide +kernel)
      refine Keeps.after ?_ (State.noteFree_keeps ..) (by decide +kernel)
      refine Keeps.bump ?_ (by decide +kernel)
      refine Keeps.after ?_ (State.journal_keeps ..) (by decide +kernel)
      refine Keeps.after ?_ (State.modSb_keeps ..) (by decide +kernel)
      exact Keeps.rfl
    · refine Ends.next ?_
      refine Keeps.after ?_ (State.retireSb_keeps ..) (by decide +kernel)
      refine Keeps.after ?_ (State.log_keeps ..) (by decide +kernel)
      refine Keeps.after ?_ (State.setChan_keeps ..) (by decide +kernel)
      exact Keeps.rfl

def execGcUnitCopy_touch : Nat := touchSet [] [.CF_TL_GC_ORPHANS] ||| State.salvage_touch ||| State.programFailed_touch

theorem execGcUnitCopy_ends (ch : ℕ) (r : UnitCopy) (s : State) : Ends execGcUnitCopy_touch s (execGcUnitCopy ch r s) :=
    by
  unfold execGcUnitCopy
  extract_lets x1
  split
  · split
    · refine Ends.ite ?_ ?_
      · refine Ends.next ?_
        exact Keeps.rfl
      · extract_lets x2 x3
        refine Ends.next ?_
        refine Keeps.after ?_ (State.nextRefresh_keeps ..) (by decide +kernel)
        refine Keeps.after ?_ (State.checkGc_keeps ..) (by decide +kernel)
        refine Keeps.after ?_ (State.issueCopy_keeps ..) (by decide +kernel)
        refine Keeps.after ?_ (State.closeFull_keeps ..) (by decide +kernel)
        refine Keeps.ite ?_ ?_
        · refine Keeps.after ?_ (State.programFailed_keeps ..) (by decide +kernel)
          refine Keeps.after ?_ (State.freePlane_keeps ..) (by decide +kernel)
          refine Keeps.after ?_ (State.setChan_keeps ..) (by decide +kernel)
          exact Keeps.rfl
        · refine Keeps.ite ?_ ?_
          · refine Keeps.forEach _ _ (fun a1 t1 => ?_) ?_
            · refine Keeps.after ?_ (State.salvage_keeps ..) (by decide +kernel)
              exact Keeps.rfl
            · refine Keeps.after ?_ (State.commitMove_keeps ..) (by decide +kernel)
              refine Keeps.after ?_ (State.freePlane_keeps ..) (by decide +kernel)
              refine Keeps.after ?_ (State.setChan_keeps ..) (by decide +kernel)
              exact Keeps.rfl
          · refine Keeps.bump ?_ (by decide +kernel)
            refine Keeps.after ?_ (State.freePlane_keeps ..) (by decide +kernel)
            refine Keeps.after ?_ (State.setChan_keeps ..) (by decide +kernel)
            exact Keeps.rfl
    · refine Ends.next ?_
      refine Keeps.after ?_ (State.nextRefresh_keeps ..) (by decide +kernel)
      refine Keeps.after ?_ (State.issueCopy_keeps ..) (by decide +kernel)
      exact Keeps.rfl
  · refine Ends.next ?_
    exact Keeps.rfl

def execHealthRecheck_touch : Nat := touchSet [.now] [] ||| State.checkHealth_touch

theorem execHealthRecheck_ends (ch : ℕ) (s : State) : Ends execHealthRecheck_touch s (execHealthRecheck ch s) := by
  unfold execHealthRecheck
  extract_lets x1 x2
  refine Ends.ite ?_ ?_
  · refine Ends.next ?_
    refine Keeps.after ?_ (State.checkHealth_keeps ..) (by decide +kernel)
    refine Keeps.after ?_ (State.setChan_keeps ..) (by decide +kernel)
    refine Keeps.after ?_ (State.reach_keeps ..) (by decide +kernel)
    exact Keeps.rfl
  · refine Ends.next ?_
    exact Keeps.rfl

def execHealthTemperatureSample_touch : Nat := touchSet [.fl] []

theorem execHealthTemperatureSample_ends (ch : ℕ) (temp : ℤ) (s : State) : Ends execHealthTemperatureSample_touch s
    (execHealthTemperatureSample ch temp s) := by
  unfold execHealthTemperatureSample
  extract_lets x1 x2 x3 x4 x5
  refine Ends.next ?_
  refine Keeps.after ?_ (State.setChan_keeps ..) (by decide +kernel)
  exact Keeps.rfl

def execOpenSectorTimeout_touch : Nat := touchSet [.fl, .now] []

theorem execOpenSectorTimeout_ends (ch : ℕ) (lsn : ℕ) (s : State) : Ends execOpenSectorTimeout_touch s
    (execOpenSectorTimeout ch lsn s) := by
  unfold execOpenSectorTimeout
  split
  · refine Ends.ite ?_ ?_
    · refine Ends.next ?_
      exact Keeps.rfl
    · refine Ends.next ?_
      refine Keeps.after ?_ (State.commitOpen_keeps ..) (by decide +kernel)
      refine Keeps.after ?_ (State.reach_keeps ..) (by decide +kernel)
      exact Keeps.rfl
  · refine Ends.next ?_
    exact Keeps.rfl

def execRebuildSector_touch : Nat := touchSet [] [.GE_PAR_UNPROTECTED] ||| State.rebuildData_touch

theorem execRebuildSector_ends (ch : ℕ) (bad : List ℕ) (s : State) : Ends execRebuildSector_touch s (execRebuildSector
    ch bad s) := by
  unfold execRebuildSector
  refine Ends.ite ?_ ?_
  · extract_lets x1 x2 x3 x4 x5
    refine Ends.ite ?_ ?_
    · refine Ends.next ?_
      refine Keeps.after ?_ (State.rebuildData_keeps ..) (by decide +kernel)
      exact Keeps.rfl
    · refine Ends.ite ?_ ?_
      · refine Ends.next ?_
        refine Keeps.setFld ?_ (by decide +kernel)
        refine Keeps.after ?_ (State.setChan_keeps ..) (by decide +kernel)
        refine Keeps.ite ?_ ?_
        · refine Keeps.after ?_ (State.recompute_keeps ..) (by decide +kernel)
          refine Keeps.after ?_ (State.servedRebuild_keeps ..) (by decide +kernel)
          exact Keeps.rfl
        · exact Keeps.rfl
      · refine Ends.next ?_
        refine Keeps.after ?_ (State.setChan_keeps ..) (by decide +kernel)
        refine Keeps.ite ?_ ?_
        · refine Keeps.after ?_ (State.recompute_keeps ..) (by decide +kernel)
          refine Keeps.after ?_ (State.servedRebuild_keeps ..) (by decide +kernel)
          exact Keeps.rfl
        · exact Keeps.rfl
  · refine Ends.next ?_
    exact Keeps.rfl

def execRecordAppend_touch : Nat := State.appendRecord_touch

theorem execRecordAppend_ends (die : ℕ) (s : State) : Ends execRecordAppend_touch s (execRecordAppend die s) := by
  unfold execRecordAppend
  refine Ends.ite ?_ ?_
  · refine Ends.next ?_
    exact Keeps.rfl
  · split
    · refine Ends.next ?_
      exact Keeps.rfl
    · refine Ends.ite ?_ ?_
      · refine Ends.next ?_
        exact Keeps.rfl
      · refine Ends.next ?_
        refine Keeps.after ?_ (State.appendRecord_keeps ..) (by decide +kernel)
        refine Keeps.fl ?_ (by decide +kernel)
        exact Keeps.rfl

def execRefreshAgeReached_touch : Nat := touchSet [.now] [] ||| State.queueRefresh_touch

theorem execRefreshAgeReached_ends (ch : ℕ) (sb : ℕ) (s : State) : Ends execRefreshAgeReached_touch s
    (execRefreshAgeReached ch sb s) := by
  unfold execRefreshAgeReached
  extract_lets x1 x2 x3
  refine Ends.ite ?_ ?_
  · refine Ends.next ?_
    refine Keeps.after ?_ (State.queueRefresh_keeps ..) (by decide +kernel)
    refine Keeps.after ?_ (State.reach_keeps ..) (by decide +kernel)
    exact Keeps.rfl
  · refine Ends.next ?_
    exact Keeps.rfl

def execStagingTimeout_touch : Nat := touchSet [.now] [] ||| State.programStaging_touch

theorem execStagingTimeout_ends (ch : ℕ) (s : State) : Ends execStagingTimeout_touch s (execStagingTimeout ch s) := by
  unfold execStagingTimeout
  split
  · refine Ends.next ?_
    refine Keeps.after ?_ (State.programStaging_keeps ..) (by decide +kernel)
    refine Keeps.after ?_ (State.reach_keeps ..) (by decide +kernel)
    exact Keeps.rfl
  · refine Ends.next ?_
    exact Keeps.rfl

def execStripeWrite_touch : Nat := State.runWrite_touch ||| State.passWrite_touch

theorem execStripeWrite_ends (die : Nat) (bad : List Nat) (s : State) : Ends execStripeWrite_touch s (execStripeWrite die bad s) := by
  unfold execStripeWrite
  refine Ends.ite (Ends.next Keeps.rfl) ?_
  extract_lets ws
  have h := State.passWrite_keeps s [] ws
  split
  · rename_i w t hw
    refine Ends.next ?_
    refine Keeps.after ?_ (State.runWrite_keeps ..) (by decide +kernel)
    refine Keeps.fl ?_ (by decide +kernel)
    exact Keeps.after Keeps.rfl (Keeps.snd hw h) (by decide +kernel)
  · rename_i t hw
    refine Ends.next ?_
    refine Keeps.after ?_ (State.noteStarved_keeps ..) (by decide +kernel)
    exact Keeps.after Keeps.rfl (Keeps.snd hw h) (by decide +kernel)

def execTlCheckpoint_touch : Nat := touchSet [.now] [.CF_TL_CKPT] ||| State.journal_touch

theorem execTlCheckpoint_ends (ch : ℕ) (s : State) : Ends execTlCheckpoint_touch s (execTlCheckpoint ch s) := by
  unfold execTlCheckpoint
  refine Ends.ite ?_ ?_
  · refine Ends.next ?_
    exact Keeps.rfl
  · extract_lets x1 x2 x3 x4 x5 x6 x7 x8
    refine Ends.next ?_
    refine Keeps.setFld ?_ (by decide +kernel)
    refine Keeps.bump ?_ (by decide +kernel)
    refine Keeps.bump ?_ (by decide +kernel)
    refine Keeps.after ?_ (State.setChan_keeps ..) (by decide +kernel)
    refine Keeps.after ?_ (State.flushStaging_keeps ..) (by decide +kernel)
    refine Keeps.after ?_ (State.journal_keeps ..) (by decide +kernel)
    refine Keeps.ite ?_ ?_
    · exact Keeps.rfl
    · refine Keeps.after ?_ (State.reach_keeps ..) (by decide +kernel)
      exact Keeps.rfl

end Sys2Proof.Machine
end

