-- ==== Sys2Proof/Laws/KeepObjects.lean ====
section
/-! SUPPORT. What each operation of Machine/Objects.lean can change. -/

namespace Sys2Proof.Machine

set_option Elab.async false

def State.setObj_touch : Nat := touchSet [.dict] []

theorem State.setObj_keeps (index : ℕ) (sub : ℕ) (v : List Byte) (s : State) : Keeps State.setObj_touch s (State.setObj
    index sub v s) := by
  unfold State.setObj
  refine Keeps.dict ?_ (by decide +kernel)
  exact Keeps.rfl

def State.applyStored_touch : Nat := touchSet [.dict] [] ||| anyReg ||| State.discard_touch

theorem State.applyStored_keeps (index : ℕ) (sub : ℕ) (v : List Byte) (s : State) : Keeps State.applyStored_touch s
    (State.applyStored index sub v s) := by
  unfold State.applyStored
  split
  · refine Keeps.after ?_ (State.discard_keeps ..) (by decide +kernel)
    exact Keeps.rfl
  · refine Keeps.ite ?_ ?_
    · refine Keeps.after ?_ (State.discard_keeps ..) (by decide +kernel)
      exact Keeps.rfl
    · split
      · refine Keeps.forEach _ _ (fun a1 t1 => ?_) ?_
        · refine Keeps.setFld ?_ (anyReg_bit (by decide +kernel) _)
          exact Keeps.rfl
        · exact Keeps.rfl
      · refine Keeps.forEach _ _ (fun a1 t1 => ?_) ?_
        · refine Keeps.writeReg ?_ (anyReg_bit (by decide +kernel) _)
          exact Keeps.rfl
        · exact Keeps.rfl
      · refine Keeps.forEach _ _ (fun a1 t1 => ?_) ?_
        · refine Keeps.writeReg ?_ (anyReg_bit (by decide +kernel) _)
          exact Keeps.rfl
        · exact Keeps.rfl
      · refine Keeps.forEach _ _ (fun a1 t1 => ?_) ?_
        · refine Keeps.writeReg ?_ (anyReg_bit (by decide +kernel) _)
          exact Keeps.rfl
        · exact Keeps.rfl
      · refine Keeps.after ?_ (State.setObj_keeps ..) (by decide +kernel)
        exact Keeps.rfl

end Sys2Proof.Machine
end

