-- ==== Sys2Proof/Laws/KeepTableCmds.lean ====
section
/-! SUPPORT. What each operation of Machine/TableCmds.lean can change. -/

namespace Sys2Proof.Machine

set_option Elab.async false

def State.readFailed_touch : Nat := State.finish_touch

theorem State.readFailed_keeps (c : ℕ) (m : Cmd) (s : State) : Keeps State.readFailed_touch s (State.readFailed c m s)
    := by
  unfold State.readFailed
  extract_lets x1 x2
  refine Keeps.after ?_ (State.finish_keeps ..) (by decide +kernel)
  refine Keeps.after ?_ (State.hostDmaErr_keeps ..) (by decide +kernel)
  refine Keeps.after ?_ (State.draw_keeps ..) (by decide +kernel)
  exact Keeps.rfl

def State.coalesce_touch : Nat := touchSet [] [.GE_HH_ADDS, .GE_HH_PROMOTIONS, .GE_STATUS]

theorem State.coalesce_keeps (w : Nat) (acc : List SumRow × State) (e : Nat × List (BitVec 32)) :
    Keeps2 State.coalesce_touch acc.2 (State.coalesce w acc e) := by
  obtain ⟨rows, s⟩ := acc
  unfold State.coalesce
  refine Keeps2.of (Keeps.ite ?_ ?_)
  · refine Keeps.setFld (Keeps.bump ?_ (by decide +kernel)) (by decide +kernel)
    exact Keeps.ite (Keeps.bump Keeps.rfl (by decide +kernel)) Keeps.rfl
  · exact Keeps.ite (Keeps.bump Keeps.rfl (by decide +kernel)) Keeps.rfl

def State.postRow_touch : Nat := touchSet [.tbl] [.GE_LOCK_WAIT]

theorem State.postRow_keeps (a : RowAccess) (s : State) : Keeps State.postRow_touch s (State.postRow a s) := by
  unfold State.postRow
  extract_lets x1 x2 x3 x4 x5
  refine Keeps.tbl ?_ (by decide +kernel)
  refine Keeps.ite ?_ ?_
  · refine Keeps.bump ?_ (by decide +kernel)
    exact Keeps.rfl
  · exact Keeps.rfl

def State.runBatch_touch : Nat := touchSet [] [.GE_LOCK_WAIT, .GE_UPD_ENTRIES] ||| State.settleBatch_touch |||
  State.coalesce_touch

theorem State.runBatch_keeps (c : ℕ) (t : ℕ) (v : ℕ) (m : Cmd) (rows : List ℕ) (s : State) : Keeps State.runBatch_touch
    s (State.runBatch c t v m rows s) := by
  unfold State.runBatch
  extract_lets x1 x2 x3
  split
  extract_lets x4 x5 x6 x7 x8
  refine Keeps.after ?_ (State.settleBatch_keeps ..) (by decide +kernel)
  refine Keeps.forEach _ _ (fun a1 t1 => ?_) ?_
  · subst x5
    beta_reduce
    refine Keeps.after ?_ (State.postRow_keeps ..) (by decide +kernel)
    exact Keeps.rfl
  · refine Keeps.after ?_ (State.holdTable_keeps ..) (by decide +kernel)
    refine Keeps.tbl ?_ (by decide +kernel)
    refine Keeps.snd (by assumption) ?_
    refine Keeps2.ite ?_ ?_
    · refine Keeps2.of ?_
      refine Keeps.forEach _ _ (fun a1 t1 => ?_) ?_
      · refine Keeps.bump ?_ (by decide +kernel)
        exact Keeps.rfl
      · exact Keeps.rfl
    · refine Keeps2.foldl _ _ (fun p1 a1 => ?_) ?_
      · refine Keeps2.after ?_ (State.coalesce_keeps _ _ _) (by decide +kernel)
        exact Keeps.rfl
      · refine Keeps.forEach _ _ (fun a1 t1 => ?_) ?_
        · refine Keeps.bump ?_ (by decide +kernel)
          exact Keeps.rfl
        · exact Keeps.rfl

def State.admitBatch_touch : Nat := State.runBatch_touch

theorem State.admitBatch_keeps (readOk : Bool) (c : ℕ) (m : Cmd) (s : State) : Keeps State.admitBatch_touch s
    (State.admitBatch readOk c m s) := by
  unfold State.admitBatch
  extract_lets x1 x2 x3
  refine Keeps.ite ?_ ?_
  · refine Keeps.after ?_ (State.finish_keeps ..) (by decide +kernel)
    exact Keeps.rfl
  · refine Keeps.ite ?_ ?_
    · refine Keeps.after ?_ (State.readFailed_keeps ..) (by decide +kernel)
      exact Keeps.rfl
    · split
      · refine Keeps.after ?_ (State.finish_keeps ..) (by decide +kernel)
        exact Keeps.rfl
      · refine Keeps.ite ?_ ?_
        · refine Keeps.after ?_ (State.finish_keeps ..) (by decide +kernel)
          exact Keeps.rfl
        · refine Keeps.after ?_ (State.runBatch_keeps ..) (by decide +kernel)
          exact Keeps.rfl

def State.writeBack_touch : Nat := touchSet [] [.GE_HP_WRITEBACKS] ||| State.writeRowFlash_touch

theorem State.writeBack_keeps (t : ℕ) (v : ℕ) (rows : Tbl RowRec) (s : State) : Keeps2 State.writeBack_touch s
    (State.writeBack t v rows s) := by
  unfold State.writeBack
  refine Keeps2.foldl _ _ (fun p1 a1 => ?_) ?_
  · refine Keeps2.ite ?_ ?_
    · extract_lets x1 x2 x3
      refine Keeps2.of ?_
      refine Keeps.ite ?_ ?_
      · refine Keeps.bump ?_ (by decide +kernel)
        refine Keeps.after ?_ (State.writeRowFlash_keeps ..) (by decide +kernel)
        exact Keeps.rfl
      · refine Keeps.after ?_ (State.writeRowFlash_keeps ..) (by decide +kernel)
        exact Keeps.rfl
    · refine Keeps2.of ?_
      exact Keeps.rfl
  · exact Keeps.rfl

def State.flushHatpin_touch : Nat := touchSet [.tbl] [] ||| State.writeBack_touch

theorem State.flushHatpin_keeps (s : State) : Keeps State.flushHatpin_touch s (State.flushHatpin s) := by
  unfold State.flushHatpin
  extract_lets x1 x2
  split
  · extract_lets x3
    refine Keeps.after ?_ (State.setHatpin_keeps ..) (by decide +kernel)
    refine Keeps.after ?_ (State.writeBack_keeps ..) (by decide +kernel)
    refine Keeps.after ?_ (State.writeBack_keeps ..) (by decide +kernel)
    exact Keeps.rfl
  · refine Keeps.after ?_ (State.setHatpin_keeps ..) (by decide +kernel)
    refine Keeps.after ?_ (State.writeBack_keeps ..) (by decide +kernel)
    exact Keeps.rfl

def State.admitFlush_touch : Nat := touchSet [] [.GE_HP_WRITEBACKS] ||| State.drainRows_touch

theorem State.admitFlush_keeps (c : ℕ) (m : Cmd) (s : State) : Keeps State.admitFlush_touch s (State.admitFlush c m s)
    := by
  unfold State.admitFlush
  extract_lets x1 x2 x3 x4 x5
  refine Keeps.ite ?_ ?_
  · refine Keeps.after ?_ (State.finish_keeps ..) (by decide +kernel)
    refine Keeps.after ?_ (State.drainRows_keeps ..) (by decide +kernel)
    exact Keeps.rfl
  · refine Keeps.ite ?_ ?_
    · refine Keeps.after ?_ (State.waitAtAdmission_keeps ..) (by decide +kernel)
      refine Keeps.after ?_ (State.drainRows_keeps ..) (by decide +kernel)
      exact Keeps.rfl
    · refine Keeps.after ?_ (State.gFinish_keeps ..) (by decide +kernel)
      refine Keeps.after ?_ (State.flushHatpin_keeps ..) (by decide +kernel)
      refine Keeps.after ?_ (State.drainRows_keeps ..) (by decide +kernel)
      exact Keeps.rfl

def State.admitRowWrite_touch : Nat := State.drainRows_touch ||| State.charge_touch

theorem State.admitRowWrite_keeps (readOk : Bool) (c : ℕ) (m : Cmd) (s : State) : Keeps State.admitRowWrite_touch s
    (State.admitRowWrite readOk c m s) := by
  unfold State.admitRowWrite
  extract_lets x1 x2 x3 x4 x5
  refine Keeps.ite ?_ ?_
  · refine Keeps.after ?_ (State.finish_keeps ..) (by decide +kernel)
    exact Keeps.rfl
  · refine Keeps.ite ?_ ?_
    · refine Keeps.after ?_ (State.readFailed_keeps ..) (by decide +kernel)
      exact Keeps.rfl
    · split
      · refine Keeps.after ?_ (State.finish_keeps ..) (by decide +kernel)
        exact Keeps.rfl
      · extract_lets x6 x7 x8 x9 x10 x11 x12 x13 x14 x15
        refine Keeps.ite ?_ ?_
        · refine Keeps.after ?_ (State.waitAtAdmission_keeps ..) (by decide +kernel)
          refine Keeps.after ?_ (State.drainRows_keeps ..) (by decide +kernel)
          exact Keeps.rfl
        · refine Keeps.ite ?_ ?_
          · refine Keeps.after ?_ (State.finish_keeps ..) (by decide +kernel)
            refine Keeps.after ?_ (State.charge_keeps ..) (by decide +kernel)
            refine Keeps.after ?_ (State.drainRows_keeps ..) (by decide +kernel)
            exact Keeps.rfl
          · refine Keeps.after ?_ (State.gFinish_keeps ..) (by decide +kernel)
            refine Keeps.after ?_ (State.releaseTable_keeps ..) (by decide +kernel)
            refine Keeps2.foldl _ _ (fun p1 a1 => ?_) ?_
            · refine Keeps2.of ?_
              refine Keeps.after ?_ (State.writeRow_keeps ..) (by decide +kernel)
              exact Keeps.rfl
            · refine Keeps.after ?_ (State.holdTable_keeps ..) (by decide +kernel)
              refine Keeps.tbl ?_ (by decide +kernel)
              refine Keeps.after ?_ (State.charge_keeps ..) (by decide +kernel)
              refine Keeps.after ?_ (State.drainRows_keeps ..) (by decide +kernel)
              exact Keeps.rfl

def State.admitRows_touch : Nat := State.drainRows_touch

theorem State.admitRows_keeps {w : Nat} {o : State} {k : ℕ → List ℕ → State → Res × State} {readOk : Bool} {c : ℕ} {m :
    Cmd} {s : State} (hw : State.admitRows_touch &&& w = State.admitRows_touch) (hk : ∀ a0 a1 u, Keeps2 w u (k a0 a1 u))
    (h : Keeps w o s) : Keeps w o (State.admitRows k readOk c m s) := by
  unfold State.admitRows
  extract_lets x1 x2
  refine Keeps.ite ?_ ?_
  · refine Keeps.after ?_ (State.finish_keeps ..) (touch_le (by decide +kernel) hw)
    assumption
  · refine Keeps.ite ?_ ?_
    · refine Keeps.after ?_ (State.readFailed_keeps ..) (touch_le (by decide +kernel) hw)
      assumption
    · split
      · refine Keeps.after ?_ (State.finish_keeps ..) (touch_le (by decide +kernel) hw)
        assumption
      · extract_lets x3 x4
        refine Keeps.ite ?_ ?_
        · refine Keeps.after ?_ (State.waitAtAdmission_keeps ..) (touch_le (by decide +kernel) hw)
          refine Keeps.after ?_ (State.drainRows_keeps ..) (touch_le (by decide +kernel) hw)
          assumption
        · refine Keeps.after ?_ (State.gFinish_keeps ..) (touch_le (by decide +kernel) hw)
          refine Keeps.after ?_ (State.releaseTable_keeps ..) (touch_le (by decide +kernel) hw)
          refine Keeps.after ?_ (hk ..) (Nat.and_self _)
          refine Keeps.after ?_ (State.holdTable_keeps ..) (touch_le (by decide +kernel) hw)
          refine Keeps.after ?_ (State.drainRows_keeps ..) (touch_le (by decide +kernel) hw)
          assumption

def State.beginSwap_touch : Nat := touchSet [.tbl] [.GE_HP_CTL, .GE_HP_LOADS] ||| State.noteRead_touch

theorem State.beginSwap_keeps (c : ℕ) (t : ℕ) (v : ℕ) (m : Cmd) (rows : List ℕ) (s : State) : Keeps
    State.beginSwap_touch s (State.beginSwap c t v m rows s) := by
  unfold State.beginSwap
  extract_lets x1 x2 x3 x4 x5 x6 x7 x8 x9 x10 x11 x12 x13 x14
  refine Keeps.setFld ?_ (by decide +kernel)
  refine Keeps.setFld ?_ (by decide +kernel)
  refine Keeps.setFld ?_ (by decide +kernel)
  refine Keeps.setFld ?_ (by decide +kernel)
  refine Keeps.after ?_ (State.setHatpin_keeps ..) (by decide +kernel)
  refine Keeps.forEach _ _ (fun a1 t1 => ?_) ?_
  · refine Keeps.bump ?_ (by decide +kernel)
    exact Keeps.rfl
  · refine Keeps.forEach _ _ (fun a1 t1 => ?_) ?_
    · refine Keeps.after ?_ (State.noteRead_keeps ..) (by decide +kernel)
      exact Keeps.rfl
    · exact Keeps.rfl

def State.admitSwap_touch : Nat := State.drainRows_touch ||| State.beginSwap_touch ||| State.charge_touch

theorem State.admitSwap_keeps (readOk : Bool) (c : ℕ) (m : Cmd) (s : State) : Keeps State.admitSwap_touch s
    (State.admitSwap readOk c m s) := by
  unfold State.admitSwap
  extract_lets x1 x2 x3 x4 x5 x6 x7 x8
  refine Keeps.ite ?_ ?_
  · refine Keeps.after ?_ (State.waitAtAdmission_keeps ..) (by decide +kernel)
    exact Keeps.rfl
  · refine Keeps.ite ?_ ?_
    · refine Keeps.after ?_ (State.finish_keeps ..) (by decide +kernel)
      exact Keeps.rfl
    · refine Keeps.ite ?_ ?_
      · refine Keeps.after ?_ (State.readFailed_keeps ..) (by decide +kernel)
        exact Keeps.rfl
      · split
        · refine Keeps.after ?_ (State.finish_keeps ..) (by decide +kernel)
          exact Keeps.rfl
        · extract_lets x9 x10 x11 x12
          refine Keeps.ite ?_ ?_
          · refine Keeps.after ?_ (State.finish_keeps ..) (by decide +kernel)
            exact Keeps.rfl
          · refine Keeps.ite ?_ ?_
            · refine Keeps.after ?_ (State.waitAtAdmission_keeps ..) (by decide +kernel)
              refine Keeps.after ?_ (State.drainRows_keeps ..) (by decide +kernel)
              exact Keeps.rfl
            · refine Keeps.ite ?_ ?_
              · refine Keeps.after ?_ (State.beginSwap_keeps ..) (by decide +kernel)
                refine Keeps.after ?_ (State.holdTable_keeps ..) (by decide +kernel)
                refine Keeps.after ?_ (State.setHatpin_keeps ..) (by decide +kernel)
                refine Keeps.after ?_ (State.charge_keeps ..) (by decide +kernel)
                refine Keeps.after ?_ (State.dropCharge_keeps ..) (by decide +kernel)
                refine Keeps.after ?_ (State.drainRows_keeps ..) (by decide +kernel)
                exact Keeps.rfl
              · refine Keeps.after ?_ (State.finish_keeps ..) (by decide +kernel)
                refine Keeps.bump ?_ (by decide +kernel)
                refine Keeps.after ?_ (State.drainRows_keeps ..) (by decide +kernel)
                exact Keeps.rfl

def State.admitTblRetire_touch : Nat := touchSet [.tbl] [.GE_TBL_CTL] ||| State.finish_touch

theorem State.admitTblRetire_keeps (c : ℕ) (m : Cmd) (s : State) : Keeps State.admitTblRetire_touch s
    (State.admitTblRetire c m s) := by
  unfold State.admitTblRetire
  extract_lets x1 x2
  split
  · refine Keeps.ite ?_ ?_
    · refine Keeps.after ?_ (State.finish_keeps ..) (by decide +kernel)
      exact Keeps.rfl
    · extract_lets x3 x4
      refine Keeps.tbl ?_ (by decide +kernel)
      refine Keeps.setFld ?_ (by decide +kernel)
      exact Keeps.rfl
  · refine Keeps.after ?_ (State.finish_keeps ..) (by decide +kernel)
    exact Keeps.rfl

def State.freeTable_touch : Nat := touchSet [.fl, .tbl] [.GE_HP_CTL, .GE_TBL_CTL, .TN_QUOTA_USED] |||
  State.gFinish_touch

theorem State.freeTable_keeps (t : ℕ) (v : ℕ) (s : State) : Keeps State.freeTable_touch s (State.freeTable t v s) := by
  unfold State.freeTable
  extract_lets x1 x2 x3 x4 x5 x6 x7 x8 x9 x10 x11
  split
  · refine Keeps.after ?_ (State.gFinish_keeps ..) (by decide +kernel)
    refine Keeps.setReg ?_ (by decide +kernel)
    refine Keeps.tbl ?_ (by decide +kernel)
    refine Keeps.ite ?_ ?_
    · refine Keeps.setFld ?_ (by decide +kernel)
      refine Keeps.after ?_ (State.setHatpin_keeps ..) (by decide +kernel)
      refine Keeps.after ?_ (State.dropCharge_keeps ..) (by decide +kernel)
      refine Keeps.forEach _ _ (fun a1 t1 => ?_) ?_
      · refine Keeps.after ?_ (State.queueWrite_keeps ..) (by decide +kernel)
        exact Keeps.rfl
      · exact Keeps.rfl
    · refine Keeps.after ?_ (State.setHatpin_keeps ..) (by decide +kernel)
      refine Keeps.after ?_ (State.dropCharge_keeps ..) (by decide +kernel)
      refine Keeps.forEach _ _ (fun a1 t1 => ?_) ?_
      · refine Keeps.after ?_ (State.queueWrite_keeps ..) (by decide +kernel)
        exact Keeps.rfl
      · exact Keeps.rfl
  · refine Keeps.setReg ?_ (by decide +kernel)
    refine Keeps.tbl ?_ (by decide +kernel)
    refine Keeps.ite ?_ ?_
    · refine Keeps.setFld ?_ (by decide +kernel)
      refine Keeps.after ?_ (State.setHatpin_keeps ..) (by decide +kernel)
      refine Keeps.after ?_ (State.dropCharge_keeps ..) (by decide +kernel)
      refine Keeps.forEach _ _ (fun a1 t1 => ?_) ?_
      · refine Keeps.after ?_ (State.queueWrite_keeps ..) (by decide +kernel)
        exact Keeps.rfl
      · exact Keeps.rfl
    · refine Keeps.after ?_ (State.setHatpin_keeps ..) (by decide +kernel)
      refine Keeps.after ?_ (State.dropCharge_keeps ..) (by decide +kernel)
      refine Keeps.forEach _ _ (fun a1 t1 => ?_) ?_
      · refine Keeps.after ?_ (State.queueWrite_keeps ..) (by decide +kernel)
        exact Keeps.rfl
      · exact Keeps.rfl

def gatherRows_touch : Nat := touchSet [] [.GE_MARKERS] ||| State.noteDots_touch

theorem gatherRows_keeps (c : ℕ) (m : Cmd) (badRows : List ℕ) (v : ℕ) (rows : List ℕ) (s : State) : Keeps2
    gatherRows_touch s (gatherRows c m badRows v rows s) := by
  unfold gatherRows
  extract_lets x1 x2 x3 x4 x5
  refine Keeps2.of ?_
  refine Keeps.bump ?_ (by decide +kernel)
  refine Keeps.after ?_ (State.noteDots_keeps ..) (by decide +kernel)
  exact Keeps.rfl

def execGatherDot_touch : Nat := State.admitRows_touch ||| State.admitBad_touch ||| gatherRows_touch

theorem execGatherDot_ends (c : ℕ) (readOk : Bool) (badRows : List ℕ) (s : State) : Ends execGatherDot_touch s
    (execGatherDot c readOk badRows s) := by
  unfold execGatherDot
  refine Ends.next ?_
  refine Keeps.after ?_ (State.admitBad_keeps ..) (by decide +kernel)
  refine State.admitFront_keeps (by decide +kernel) (fun a01 t1 => ?_) ?_
  · refine State.admitRows_keeps (by decide +kernel) (fun a02 a11 t2 => ?_) ?_
    · refine Keeps2.after ?_ (gatherRows_keeps _ _ _ _ _ _) (by decide +kernel)
      exact Keeps.rfl
    · exact Keeps.rfl
  · exact Keeps.rfl

def execHatpinDrainEnd_touch : Nat := touchSet [] [.GE_HP_CTL, .GE_HP_WRITEBACKS] ||| State.drainRows_touch

theorem execHatpinDrainEnd_ends (s : State) : Ends execHatpinDrainEnd_touch s (execHatpinDrainEnd s) := by
  unfold execHatpinDrainEnd
  split
  · refine Ends.next ?_
    exact Keeps.rfl
  · extract_lets x1 x2 x3 x4 x5 x6
    refine Ends.ite ?_ ?_
    · refine Ends.next ?_
      refine Keeps.after ?_ (State.drainRows_keeps ..) (by decide +kernel)
      exact Keeps.rfl
    · split
      · refine Ends.next ?_
        refine Keeps.after ?_ (State.gFinish_keeps ..) (by decide +kernel)
        refine Keeps.after ?_ (State.releaseTable_keeps ..) (by decide +kernel)
        refine Keeps.setFld ?_ (by decide +kernel)
        refine Keeps.after ?_ (State.setHatpin_keeps ..) (by decide +kernel)
        refine Keeps.after ?_ (State.writeBack_keeps ..) (by decide +kernel)
        refine Keeps.after ?_ (State.drainRows_keeps ..) (by decide +kernel)
        exact Keeps.rfl
      · refine Ends.next ?_
        refine Keeps.after ?_ (State.releaseTable_keeps ..) (by decide +kernel)
        refine Keeps.setFld ?_ (by decide +kernel)
        refine Keeps.after ?_ (State.setHatpin_keeps ..) (by decide +kernel)
        refine Keeps.after ?_ (State.writeBack_keeps ..) (by decide +kernel)
        refine Keeps.after ?_ (State.drainRows_keeps ..) (by decide +kernel)
        exact Keeps.rfl

def execHatpinFlush_touch : Nat := State.admitFlush_touch ||| State.admitBad_touch

theorem execHatpinFlush_ends (c : ℕ) (s : State) : Ends execHatpinFlush_touch s (execHatpinFlush c s) := by
  unfold execHatpinFlush
  refine Ends.next ?_
  refine Keeps.after ?_ (State.admitBad_keeps ..) (by decide +kernel)
  refine State.admitFront_keeps (by decide +kernel) (fun a01 t1 => ?_) ?_
  · refine Keeps.after ?_ (State.admitFlush_keeps ..) (by decide +kernel)
    exact Keeps.rfl
  · exact Keeps.rfl

def execHatpinSwap_touch : Nat := State.admitSwap_touch ||| State.admitBad_touch

theorem execHatpinSwap_ends (c : ℕ) (readOk : Bool) (s : State) : Ends execHatpinSwap_touch s (execHatpinSwap c readOk
    s) := by
  unfold execHatpinSwap
  refine Ends.next ?_
  refine Keeps.after ?_ (State.admitBad_keeps ..) (by decide +kernel)
  refine State.admitFront_keeps (by decide +kernel) (fun a01 t1 => ?_) ?_
  · refine Keeps.after ?_ (State.admitSwap_keeps ..) (by decide +kernel)
    exact Keeps.rfl
  · exact Keeps.rfl

def execRowLockGrant_touch : Nat := State.grantRow_touch

theorem execRowLockGrant_ends (die : ℕ) (s : State) : Ends execRowLockGrant_touch s (execRowLockGrant die s) := by
  unfold execRowLockGrant
  refine Ends.next ?_
  refine Keeps.after ?_ (State.grantRow_keeps ..) (by decide +kernel)
  exact Keeps.rfl

def readRows_touch : Nat := State.noteRead_touch

theorem readRows_keeps (c : ℕ) (m : Cmd) (badRows : List ℕ) (v : ℕ) (rows : List ℕ) (s : State) : Keeps2 readRows_touch
    s (readRows c m badRows v rows s) := by
  unfold readRows
  extract_lets x1 x2 x3 x4 x5
  refine Keeps2.of ?_
  refine Keeps.forEach _ _ (fun a1 t1 => ?_) ?_
  · refine Keeps.after ?_ (State.noteRead_keeps ..) (by decide +kernel)
    exact Keeps.rfl
  · exact Keeps.rfl

def execRowRead_touch : Nat := State.admitRows_touch ||| State.admitBad_touch

theorem execRowRead_ends (c : ℕ) (readOk : Bool) (badRows : List ℕ) (s : State) : Ends execRowRead_touch s (execRowRead
    c readOk badRows s) := by
  unfold execRowRead
  refine Ends.next ?_
  refine Keeps.after ?_ (State.admitBad_keeps ..) (by decide +kernel)
  refine State.admitFront_keeps (by decide +kernel) (fun a01 t1 => ?_) ?_
  · refine State.admitRows_keeps (by decide +kernel) (fun a02 a11 t2 => ?_) ?_
    · refine Keeps2.after ?_ (readRows_keeps _ _ _ _ _ _) (by decide +kernel)
      exact Keeps.rfl
    · exact Keeps.rfl
  · exact Keeps.rfl

def execRowWrite_touch : Nat := State.admitRowWrite_touch ||| State.admitBad_touch

theorem execRowWrite_ends (c : ℕ) (readOk : Bool) (s : State) : Ends execRowWrite_touch s (execRowWrite c readOk s) :=
    by
  unfold execRowWrite
  refine Ends.next ?_
  refine Keeps.after ?_ (State.admitBad_keeps ..) (by decide +kernel)
  refine State.admitFront_keeps (by decide +kernel) (fun a01 t1 => ?_) ?_
  · refine Keeps.after ?_ (State.admitRowWrite_keeps ..) (by decide +kernel)
    exact Keeps.rfl
  · exact Keeps.rfl

def execTableRetire_touch : Nat := State.admitBad_touch ||| State.admitTblRetire_touch

theorem execTableRetire_ends (c : ℕ) (s : State) : Ends execTableRetire_touch s (execTableRetire c s) := by
  unfold execTableRetire
  refine Ends.next ?_
  refine Keeps.after ?_ (State.admitBad_keeps ..) (by decide +kernel)
  refine State.admitFront_keeps (by decide +kernel) (fun a01 t1 => ?_) ?_
  · refine Keeps.after ?_ (State.admitTblRetire_keeps ..) (by decide +kernel)
    exact Keeps.rfl
  · exact Keeps.rfl

def execTableUpdate_touch : Nat := State.admitBatch_touch ||| State.admitBad_touch

theorem execTableUpdate_ends (c : ℕ) (readOk : Bool) (s : State) : Ends execTableUpdate_touch s (execTableUpdate c
    readOk s) := by
  unfold execTableUpdate
  refine Ends.next ?_
  refine Keeps.after ?_ (State.admitBad_keeps ..) (by decide +kernel)
  refine State.admitFront_keeps (by decide +kernel) (fun a01 t1 => ?_) ?_
  · refine Keeps.after ?_ (State.admitBatch_keeps ..) (by decide +kernel)
    exact Keeps.rfl
  · exact Keeps.rfl

def execTableVersionFree_touch : Nat := State.freeTable_touch

theorem execTableVersionFree_ends (t : ℕ) (v : ℕ) (s : State) : Ends execTableVersionFree_touch s (execTableVersionFree
    t v s) := by
  unfold execTableVersionFree
  refine Ends.ite ?_ ?_
  · refine Ends.next ?_
    refine Keeps.after ?_ (State.freeTable_keeps ..) (by decide +kernel)
    exact Keeps.rfl
  · refine Ends.next ?_
    exact Keeps.rfl

def execTableVersionSwitch_touch : Nat := touchSet [] [.GE_TBL_CTL] ||| State.discard_touch

theorem execTableVersionSwitch_ends (t : ℕ) (value : W64) (loc : W64) (s : State) : Ends execTableVersionSwitch_touch s
    (execTableVersionSwitch t value loc s) := by
  unfold execTableVersionSwitch
  extract_lets x1 x2 x3 x4
  refine Ends.ite ?_ ?_
  · refine Ends.next ?_
    refine Keeps.after ?_ (State.discard_keeps ..) (by decide +kernel)
    exact Keeps.rfl
  · refine Ends.next ?_
    refine Keeps.setReg ?_ (by decide +kernel)
    exact Keeps.rfl

end Sys2Proof.Machine
end

