-- ==== Sys2Proof/Laws/KeepUpdates.lean ====
section
/-! SUPPORT. What each operation of Machine/Updates.lean can change. -/

namespace Sys2Proof.Machine

set_option Elab.async false

def State.groupBlock_touch : Nat := State.serveEncodes_touch ||| State.encodeEntry_touch

theorem State.groupBlock_keeps (c : ℕ) (k : ℕ) (m : Cmd) (s : State) : Keeps2 State.groupBlock_touch s (State.groupBlock
    c k m s) := by
  unfold State.groupBlock
  extract_lets x1 x2 x3 x4 x5 x6 x7
  refine Keeps2.ite ?_ ?_
  · refine Keeps2.foldl _ _ (fun p1 a1 => ?_) ?_
    · refine Keeps2.ite ?_ ?_
      · extract_lets x8
        refine Keeps2.of ?_
        refine Keeps.after ?_ (State.encodeEntry_keeps ..) (by decide +kernel)
        exact Keeps.rfl
      · refine Keeps2.of ?_
        exact Keeps.rfl
    · refine Keeps.ite ?_ ?_
      · refine Keeps.after ?_ (State.serveEncodes_keeps ..) (by decide +kernel)
        exact Keeps.rfl
      · exact Keeps.rfl
  · refine Keeps2.of ?_
    refine Keeps.ite ?_ ?_
    · refine Keeps.after ?_ (State.serveEncodes_keeps ..) (by decide +kernel)
      exact Keeps.rfl
    · exact Keeps.rfl

def State.copyList_touch : Nat := touchSet [] [.HQ_UPD_COPIED] ||| State.copySlot_touch

theorem State.copyList_keeps (k k' cl : Nat) (reassign : Bool) (l : List (Nat × Code)) (acc : List (Nat × Nat))
    (s : State) : KeepsP State.copyList_touch s (State.copyList k k' cl reassign l acc s) := by
  induction l generalizing acc s with
  | nil => exact KeepsP.some Keeps.rfl
  | cons p l ih =>
    obtain ⟨ord, code⟩ := p
    unfold State.copyList
    split
    · exact KeepsP.none
    · rename_i h
      refine KeepsP.after (Keeps.bump ?_ (by decide +kernel)) (ih _ _) (Nat.and_self _)
      exact Keeps.after Keeps.rfl (KeepsP.get h (State.copySlot_keeps _ _ _ _ _ _ _)) (by decide +kernel)

def State.quotaRefused_touch : Nat := touchSet [] [.TN_QUOTA_REFUSED] ||| State.endPart_touch

theorem State.quotaRefused_keeps (c : ℕ) (m : Cmd) (s : State) (after : State) : Keeps State.quotaRefused_touch s
    (State.quotaRefused c m s after) := by
  unfold State.quotaRefused
  refine Keeps.after ?_ (State.endPart_keeps ..) (by decide +kernel)
  refine Keeps.after ?_ (State.noteRefused_keeps ..) (by decide +kernel)
  exact Keeps.rfl

def State.wantList_touch : Nat := State.takeover_touch

theorem State.wantList_keeps (t : ℕ) (k : ℕ) (cl : ℕ) (s : State) : Keeps2 State.wantList_touch s (State.wantList t k cl
    s) := by
  unfold State.wantList
  split
  · refine Keeps2.of ?_
    exact Keeps.rfl
  · refine Keeps2.of ?_
    exact Keeps.rfl
  · extract_lets x1
    refine Keeps2.ite ?_ ?_
    · refine Keeps2.of ?_
      refine Keeps.after ?_ (State.takeover_keeps ..) (by decide +kernel)
      exact Keeps.rfl
    · refine Keeps2.of ?_
      refine Keeps.bump ?_ (by decide +kernel)
      refine Keeps.after ?_ (State.takeover_keeps ..) (by decide +kernel)
      exact Keeps.rfl
  · extract_lets x1
    refine Keeps2.of ?_
    refine Keeps.after ?_ (State.startPromotion_keeps ..) (by decide +kernel)
    exact Keeps.rfl

def State.wantLists_touch : Nat := State.wantList_touch

theorem State.wantLists_keeps (t : ℕ) (ls : List (ℕ × ℕ)) (s : State) : Keeps2 State.wantLists_touch s (State.wantLists
    t ls s) := by
  unfold State.wantLists
  refine Keeps2.foldl _ _ (fun p1 a1 => ?_) ?_
  · extract_lets x1
    refine Keeps2.of ?_
    refine Keeps.after ?_ (State.wantList_keeps ..) (by decide +kernel)
    exact Keeps.rfl
  · exact Keeps.rfl

def State.runCopy_touch : Nat := State.quotaRefused_touch ||| State.wantLists_touch ||| State.copyList_touch

theorem State.runCopy_keeps (c : ℕ) (k : ℕ) (m : Cmd) (s : State) : Keeps State.runCopy_touch s (State.runCopy c k m s)
    := by
  unfold State.runCopy
  extract_lets x1 x2 x3 x4
  split
  · refine Keeps.after ?_ (State.endPart_keeps ..) (by decide +kernel)
    exact Keeps.rfl
  · refine Keeps.ite ?_ ?_
    · refine Keeps.after ?_ (State.quotaRefused_keeps ..) (by decide +kernel)
      exact Keeps.rfl
    · extract_lets x5
      split
      · split
        · refine Keeps.after ?_ (State.visible_keeps ..) (by decide +kernel)
          refine Keeps.after ?_ (State.releaseRef_keeps ..) (by decide +kernel)
          refine KeepsP.get (by assumption) ?_
          subst x4
          beta_reduce
          refine KeepsP.after ?_ (State.copyList_keeps _ _ _ _ _ _ _) (by decide +kernel)
          refine Keeps.after ?_ (State.holdRef_keeps ..) (by decide +kernel)
          refine Keeps.after ?_ (State.holdRef_keeps ..) (by decide +kernel)
          refine Keeps.after ?_ (State.wantLists_keeps ..) (by decide +kernel)
          exact Keeps.rfl
        · refine Keeps.after ?_ (State.endPart_keeps ..) (by decide +kernel)
          refine Keeps.after ?_ (State.wantLists_keeps ..) (by decide +kernel)
          exact Keeps.rfl
      · refine Keeps.after ?_ (State.waitAtAdmission_keeps ..) (by decide +kernel)
        refine Keeps.after ?_ (State.wantLists_keeps ..) (by decide +kernel)
        exact Keeps.rfl
      · refine Keeps.after ?_ (State.endPart_keeps ..) (by decide +kernel)
        refine Keeps.after ?_ (State.wantLists_keeps ..) (by decide +kernel)
        exact Keeps.rfl

def State.reserve_touch : Nat := touchSet [] [.TN_QUOTA_USED]

theorem State.reserve_keeps (p : Placed) (s : State) : Keeps State.reserve_touch s (State.reserve p s) := by
  unfold State.reserve
  refine Keeps.forEach _ _ (fun a1 t1 => ?_) ?_
  · refine Keeps.after ?_ (State.addCharge_keeps ..) (by decide +kernel)
    exact Keeps.rfl
  · exact Keeps.rfl

def State.startJob_touch : Nat := State.settleJob_touch

theorem State.startJob_keeps (c : ℕ) (k : ℕ) (m : Cmd) (count : ℕ) (retire : List ℕ) (p : Placed) (s : State) : Keeps
    State.startJob_touch s (State.startJob c k m count retire p s) := by
  unfold State.startJob
  extract_lets x1 x2 x3 x4 x5
  refine Keeps.after ?_ (State.settleJob_keeps ..) (by decide +kernel)
  refine Keeps.forEach _ _ (fun a1 t1 => ?_) ?_
  · extract_lets x6 x7 x8 x9
    refine Keeps.fl ?_ (by decide +kernel)
    exact Keeps.rfl
  · refine Keeps.after ?_ (State.writeReady_keeps ..) (by decide +kernel)
    refine Keeps.after ?_ (State.holdRef_keeps ..) (by decide +kernel)
    refine Keeps.idx ?_ (by decide +kernel)
    refine Keeps.after ?_ (State.reserve_keeps ..) (by decide +kernel)
    exact Keeps.rfl

def State.runMake_touch : Nat := touchSet [] [.HQ_UPD_RETIRE_WAIT, .HQ_UPD_SLOTS_NEW] ||| State.serveEncodes_touch |||
  State.placeEntries_touch

theorem State.runMake_keeps (c : ℕ) (k : ℕ) (m : Cmd) (s : State) : Keeps State.runMake_touch s (State.runMake c k m s)
    := by
  unfold State.runMake
  extract_lets x1 x2 x3 x4 x5 x6 x7 x8 x9 x10 x11 x12 x13 x14 x15
  refine Keeps.ite ?_ ?_
  · refine Keeps.after ?_ (State.quotaRefused_keeps ..) (by decide +kernel)
    refine Keeps.ite ?_ ?_
    · refine Keeps.after ?_ (State.serveEncodes_keeps ..) (by decide +kernel)
      exact Keeps.rfl
    · exact Keeps.rfl
  · refine Keeps.ite ?_ ?_
    · refine Keeps.after ?_ (State.endPart_keeps ..) (by decide +kernel)
      refine Keeps.ite ?_ ?_
      · refine Keeps.after ?_ (State.serveEncodes_keeps ..) (by decide +kernel)
        exact Keeps.rfl
      · exact Keeps.rfl
    · refine Keeps.ite ?_ ?_
      · refine Keeps.after ?_ (State.modCmd_keeps ..) (by decide +kernel)
        refine Keeps.ite ?_ ?_
        · refine Keeps.ite ?_ ?_
          · refine Keeps.after ?_ (State.serveEncodes_keeps ..) (by decide +kernel)
            exact Keeps.rfl
          · exact Keeps.rfl
        · refine Keeps.bump ?_ (by decide +kernel)
          refine Keeps.ite ?_ ?_
          · refine Keeps.after ?_ (State.serveEncodes_keeps ..) (by decide +kernel)
            exact Keeps.rfl
          · exact Keeps.rfl
      · split
        · split
          · refine Keeps.after ?_ (State.startJob_keeps ..) (by decide +kernel)
            refine KeepsP.get (by assumption) ?_
            subst x8
            beta_reduce
            refine KeepsP.after ?_ (State.placeEntries_keeps _ _ _ _ _ _ _ _) (by decide +kernel)
            refine Keeps.after ?_ (State.wantLists_keeps ..) (by decide +kernel)
            refine Keeps.ite ?_ ?_
            · refine Keeps.after ?_ (State.serveEncodes_keeps ..) (by decide +kernel)
              exact Keeps.rfl
            · exact Keeps.rfl
          · refine Keeps.after ?_ (State.endPart_keeps ..) (by decide +kernel)
            refine Keeps.after ?_ (State.wantLists_keeps ..) (by decide +kernel)
            refine Keeps.ite ?_ ?_
            · refine Keeps.after ?_ (State.serveEncodes_keeps ..) (by decide +kernel)
              exact Keeps.rfl
            · exact Keeps.rfl
        · refine Keeps.after ?_ (State.waitAtAdmission_keeps ..) (by decide +kernel)
          refine Keeps.after ?_ (State.wantLists_keeps ..) (by decide +kernel)
          refine Keeps.ite ?_ ?_
          · refine Keeps.after ?_ (State.serveEncodes_keeps ..) (by decide +kernel)
            exact Keeps.rfl
          · exact Keeps.rfl
        · refine Keeps.after ?_ (State.endPart_keeps ..) (by decide +kernel)
          refine Keeps.after ?_ (State.wantLists_keeps ..) (by decide +kernel)
          refine Keeps.ite ?_ ?_
          · refine Keeps.after ?_ (State.serveEncodes_keeps ..) (by decide +kernel)
            exact Keeps.rfl
          · exact Keeps.rfl

def State.tombOnce_touch : Nat := State.tombstone_touch

theorem State.tombOnce_keeps (k : ℕ) (ref : ℕ) (s : State) : Keeps State.tombOnce_touch s (State.tombOnce k ref s) := by
  unfold State.tombOnce
  refine Keeps.ite ?_ ?_
  · exact Keeps.rfl
  · refine Keeps.after ?_ (State.tombstone_keeps ..) (by decide +kernel)
    exact Keeps.rfl

def State.deleteOne_touch : Nat := touchSet [] [.HQ_UPD_MIRRORED] ||| State.tombOnce_touch

theorem State.deleteOne_keeps (k : ℕ) (ref : ℕ) (s : State) : Keeps State.deleteOne_touch s (State.deleteOne k ref s) :=
    by
  unfold State.deleteOne
  refine Keeps.ite ?_ ?_
  · refine Keeps.bump ?_ (by decide +kernel)
    exact Keeps.rfl
  · refine State.withMirror_keeps (by decide +kernel) (fun a01 a11 t1 => ?_) ?_
    · refine Keeps.after ?_ (State.tombOnce_keeps ..) (by decide +kernel)
      exact Keeps.rfl
    · exact Keeps.rfl

def State.runMarks_touch : Nat := touchSet [] [.HQ_UPD_MIRRORED] ||| State.visible_touch

theorem State.runMarks_keeps (c : ℕ) (k : ℕ) (m : Cmd) (s : State) : Keeps State.runMarks_touch s (State.runMarks c k m
    s) := by
  unfold State.runMarks
  extract_lets x1 x2 x3 x4
  refine Keeps.ite ?_ ?_
  · refine Keeps.after ?_ (State.endPart_keeps ..) (by decide +kernel)
    exact Keeps.rfl
  · refine Keeps.after ?_ (State.visible_keeps ..) (by decide +kernel)
    refine Keeps.forEach _ _ (fun a1 t1 => ?_) ?_
    · subst x4
      beta_reduce
      refine Keeps.ite ?_ ?_
      · refine Keeps.after ?_ (State.deleteOne_keeps ..) (by decide +kernel)
        exact Keeps.rfl
      · refine Keeps.ite ?_ ?_
        · refine State.withMirror_keeps (by decide +kernel) (fun a01 a11 t2 => ?_) ?_
          · refine Keeps.after ?_ (State.setStd_keeps ..) (by decide +kernel)
            exact Keeps.rfl
          · exact Keeps.rfl
        · refine State.withMirror_keeps (by decide +kernel) (fun a01 a11 t2 => ?_) ?_
          · refine Keeps.after ?_ (State.clearStd_keeps ..) (by decide +kernel)
            exact Keeps.rfl
          · exact Keeps.rfl
    · refine Keeps.after ?_ (State.holdRef_keeps ..) (by decide +kernel)
      exact Keeps.rfl

def State.updReadErr_touch : Nat := State.endPart_touch

theorem State.updReadErr_keeps (c : ℕ) (m : Cmd) (s : State) : Keeps State.updReadErr_touch s (State.updReadErr c m s)
    := by
  unfold State.updReadErr
  extract_lets x1 x2
  refine Keeps.after ?_ (State.endPart_keeps ..) (by decide +kernel)
  refine Keeps.after ?_ (State.hostDmaErr_keeps ..) (by decide +kernel)
  refine Keeps.after ?_ (State.draw_keeps ..) (by decide +kernel)
  exact Keeps.rfl

def State.runUpdate_touch : Nat := touchSet [] [.HQ_UPD_COPIED] ||| State.runMake_touch

theorem State.runUpdate_keeps (c : ℕ) (readOk : Bool) (m : Cmd) (s : State) : Keeps State.runUpdate_touch s
    (State.runUpdate c readOk m s) := by
  unfold State.runUpdate
  extract_lets x1 x2
  refine Keeps.ite ?_ ?_
  · refine Keeps.after ?_ (State.endPart_keeps ..) (by decide +kernel)
    exact Keeps.rfl
  · refine Keeps.ite ?_ ?_
    · refine Keeps.after ?_ (State.runCopy_keeps ..) (by decide +kernel)
      exact Keeps.rfl
    · refine Keeps.ite ?_ ?_
      · refine Keeps.after ?_ (State.updReadErr_keeps ..) (by decide +kernel)
        exact Keeps.rfl
      · refine Keeps.ite ?_ ?_
        · refine Keeps.after ?_ (State.runMake_keeps ..) (by decide +kernel)
          exact Keeps.rfl
        · refine Keeps.after ?_ (State.runMarks_keeps ..) (by decide +kernel)
          exact Keeps.rfl

def State.phaseUpdate_touch : Nat := State.runUpdate_touch

theorem State.phaseUpdate_keeps (g : GroupJob) (s : State) : Keeps State.phaseUpdate_touch s (State.phaseUpdate g s) :=
    by
  unfold State.phaseUpdate
  extract_lets x1 x2 x3 x4 x5 x6 x7 x8
  refine Keeps.after ?_ (State.settleGroup_keeps ..) (by decide +kernel)
  subst x8
  split
  · refine Keeps.after ?_ (State.runUpdate_keeps ..) (by decide +kernel)
    subst x7
    split
    · refine Keeps.after ?_ (State.park_keeps ..) (by decide +kernel)
      refine Keeps.forEach _ _ (fun a1 t1 => ?_) ?_
      · refine Keeps.after ?_ (State.postSend_keeps ..) (by decide +kernel)
        exact Keeps.rfl
      · refine Keeps.after ?_ (State.setGroup_keeps ..) (by decide +kernel)
        exact Keeps.rfl
    · refine Keeps.forEach _ _ (fun a1 t1 => ?_) ?_
      · refine Keeps.after ?_ (State.postSend_keeps ..) (by decide +kernel)
        exact Keeps.rfl
      · refine Keeps.after ?_ (State.setGroup_keeps ..) (by decide +kernel)
        exact Keeps.rfl
  · subst x7
    split
    · refine Keeps.after ?_ (State.park_keeps ..) (by decide +kernel)
      refine Keeps.forEach _ _ (fun a1 t1 => ?_) ?_
      · refine Keeps.after ?_ (State.postSend_keeps ..) (by decide +kernel)
        exact Keeps.rfl
      · refine Keeps.after ?_ (State.setGroup_keeps ..) (by decide +kernel)
        exact Keeps.rfl
    · refine Keeps.forEach _ _ (fun a1 t1 => ?_) ?_
      · refine Keeps.after ?_ (State.postSend_keeps ..) (by decide +kernel)
        exact Keeps.rfl
      · refine Keeps.after ?_ (State.setGroup_keeps ..) (by decide +kernel)
        exact Keeps.rfl

def State.admitGroupUpdate_touch : Nat := touchSet [] [.TN_LEASE_ACQUIRED] ||| State.phaseUpdate_touch

theorem State.admitGroupUpdate_keeps (c : ℕ) (readOk : Bool) (m : Cmd) (s : State) : Keeps State.admitGroupUpdate_touch
    s (State.admitGroupUpdate c readOk m s) := by
  unfold State.admitGroupUpdate
  extract_lets x1 x2 x3 x4 x5 x6 x7
  refine Keeps.ite ?_ ?_
  · refine Keeps.after ?_ (State.finish_keeps ..) (by decide +kernel)
    exact Keeps.rfl
  · refine Keeps.ite ?_ ?_
    · refine Keeps.after ?_ (State.updReadErr_keeps ..) (by decide +kernel)
      exact Keeps.rfl
    · refine Keeps.ite ?_ ?_
      · refine Keeps.after ?_ (State.finish_keeps ..) (by decide +kernel)
        exact Keeps.rfl
      · refine State.openGroup_keeps (by decide +kernel) (fun a01 t1 => ?_) ?_
        · refine Keeps.after ?_ (State.phaseUpdate_keeps ..) (by decide +kernel)
          exact Keeps.rfl
        · refine Keeps.after ?_ (State.groupBlock_keeps ..) (by decide +kernel)
          exact Keeps.rfl

def State.admitUpdate_touch : Nat := State.admitGroupUpdate_touch

theorem State.admitUpdate_keeps (readOk : Bool) (c : ℕ) (m : Cmd) (s : State) : Keeps State.admitUpdate_touch s
    (State.admitUpdate readOk c m s) := by
  unfold State.admitUpdate
  split
  · refine Keeps.after ?_ (State.runUpdate_keeps ..) (by decide +kernel)
    exact Keeps.rfl
  · refine Keeps.ite ?_ ?_
    · refine Keeps.after ?_ (State.admitGroupUpdate_keeps ..) (by decide +kernel)
      exact Keeps.rfl
    · refine Keeps.after ?_ (State.runUpdate_keeps ..) (by decide +kernel)
      exact Keeps.rfl

def State.updateFront_touch : Nat := State.admitUpdate_touch ||| State.admitBad_touch

theorem State.updateFront_keeps (c : ℕ) (op : ℕ) (readOk : Bool) (s : State) : Keeps State.updateFront_touch s
    (State.updateFront c op readOk s) := by
  unfold State.updateFront
  refine Keeps.after ?_ (State.admitBad_keeps ..) (by decide +kernel)
  refine State.admitFront_keeps (by decide +kernel) (fun a01 t1 => ?_) ?_
  · refine Keeps.after ?_ (State.admitUpdate_keeps ..) (by decide +kernel)
    exact Keeps.rfl
  · exact Keeps.rfl

def execBitsClear_touch : Nat := State.updateFront_touch

theorem execBitsClear_ends (c : ℕ) (readOk : Bool) (s : State) : Ends execBitsClear_touch s (execBitsClear c readOk s)
    := by
  unfold execBitsClear
  refine Ends.next ?_
  refine Keeps.after ?_ (State.updateFront_keeps ..) (by decide +kernel)
  exact Keeps.rfl

def execBitsSet_touch : Nat := State.updateFront_touch

theorem execBitsSet_ends (c : ℕ) (readOk : Bool) (s : State) : Ends execBitsSet_touch s (execBitsSet c readOk s) := by
  unfold execBitsSet
  refine Ends.next ?_
  refine Keeps.after ?_ (State.updateFront_keeps ..) (by decide +kernel)
  exact Keeps.rfl

def execDelete_touch : Nat := State.updateFront_touch

theorem execDelete_ends (c : ℕ) (readOk : Bool) (s : State) : Ends execDelete_touch s (execDelete c readOk s) := by
  unfold execDelete
  refine Ends.next ?_
  refine Keeps.after ?_ (State.updateFront_keeps ..) (by decide +kernel)
  exact Keeps.rfl

def execFlashRecordDurable_touch : Nat := State.settleJob_touch

theorem execFlashRecordDurable_ends (ch : ℕ) (s : State) : Ends execFlashRecordDurable_touch s (execFlashRecordDurable
    ch s) := by
  unfold execFlashRecordDurable
  extract_lets x1
  split
  · refine Ends.next ?_
    exact Keeps.rfl
  · extract_lets x2
    split
    · refine Ends.next ?_
      refine Keeps.after ?_ (State.setChan_keeps ..) (by decide +kernel)
      exact Keeps.rfl
    · split
      · refine Ends.next ?_
        refine Keeps.after ?_ (State.setChan_keeps ..) (by decide +kernel)
        exact Keeps.rfl
      · extract_lets x3
        refine Ends.next ?_
        refine Keeps.after ?_ (State.settleJob_keeps ..) (by decide +kernel)
        refine Keeps.after ?_ (State.writeReady_keeps ..) (by decide +kernel)
        refine Keeps.after ?_ (State.setChan_keeps ..) (by decide +kernel)
        exact Keeps.rfl

def execInsert_touch : Nat := State.updateFront_touch

theorem execInsert_ends (c : ℕ) (readOk : Bool) (s : State) : Ends execInsert_touch s (execInsert c readOk s) := by
  unfold execInsert
  refine Ends.next ?_
  refine Keeps.after ?_ (State.updateFront_keeps ..) (by decide +kernel)
  exact Keeps.rfl

def execListCopy_touch : Nat := State.updateFront_touch

theorem execListCopy_ends (c : ℕ) (s : State) : Ends execListCopy_touch s (execListCopy c s) := by
  unfold execListCopy
  refine Ends.next ?_
  refine Keeps.after ?_ (State.updateFront_keeps ..) (by decide +kernel)
  exact Keeps.rfl

def execRetireLateExpiry_touch : Nat := touchSet [.idx, .now] [.HQ_UPD_RETIRE_LATE]

theorem execRetireLateExpiry_ends (s : State) : Ends execRetireLateExpiry_touch s (execRetireLateExpiry s) := by
  unfold execRetireLateExpiry
  split
  · refine Ends.next ?_
    exact Keeps.rfl
  · extract_lets x1 x2 x3 x4 x5
    refine Ends.next ?_
    refine Keeps.bump ?_ (by decide +kernel)
    refine Keeps.idx ?_ (by decide +kernel)
    refine Keeps.after ?_ (State.reach_keeps ..) (by decide +kernel)
    exact Keeps.rfl

def execRetiredSlotTombstone_touch : Nat := touchSet [] [.HQ_UPD_MIRRORED] ||| State.releaseRef_touch |||
  State.tombOnce_touch

theorem execRetiredSlotTombstone_ends (s : State) : Ends execRetiredSlotTombstone_touch s (execRetiredSlotTombstone s)
    := by
  unfold execRetiredSlotTombstone
  split
  · refine Ends.next ?_
    exact Keeps.rfl
  · refine Ends.ite ?_ ?_
    · refine Ends.next ?_
      exact Keeps.rfl
    · extract_lets x1 x2
      refine Ends.next ?_
      refine Keeps.after ?_ (State.releaseRef_keeps ..) (by decide +kernel)
      refine State.withMirror_keeps (by decide +kernel) (fun a01 a11 t1 => ?_) ?_
      · refine Keeps.after ?_ (State.tombOnce_keeps ..) (by decide +kernel)
        exact Keeps.rfl
      · refine Keeps.idx ?_ (by decide +kernel)
        exact Keeps.rfl

def execRewrite_touch : Nat := State.updateFront_touch

theorem execRewrite_ends (c : ℕ) (readOk : Bool) (s : State) : Ends execRewrite_touch s (execRewrite c readOk s) := by
  unfold execRewrite
  refine Ends.next ?_
  refine Keeps.after ?_ (State.updateFront_keeps ..) (by decide +kernel)
  exact Keeps.rfl

end Sys2Proof.Machine
end

