-- ==== Sys2Proof/Laws/KeepBoot.lean ====
section
/-! SUPPORT. What each operation of Machine/Boot.lean can change. -/

namespace Sys2Proof.Machine

set_option Elab.async false

def State.applyConfig_touch : Nat := State.applyStored_touch

theorem State.applyConfig_keeps (rom : Bool) (s : State) : Keeps State.applyConfig_touch s (State.applyConfig rom s) :=
    by
  unfold State.applyConfig
  refine Keeps.forEach _ _ (fun a1 t1 => ?_) ?_
  · refine Keeps.after ?_ (State.applyStored_keeps ..) (by decide +kernel)
    exact Keeps.rfl
  · exact Keeps.rfl

def State.bootStatus_touch : Nat := touchSet [] [.HQ_START_STATUS]

theorem State.bootStatus_keeps (s : State) : Keeps State.bootStatus_touch s (State.bootStatus s) := by
  unfold State.bootStatus
  extract_lets x1
  refine Keeps.setFld ?_ (by decide +kernel)
  refine Keeps.setFld ?_ (by decide +kernel)
  refine Keeps.setFld ?_ (by decide +kernel)
  exact Keeps.rfl

def State.pushEntry_touch : Nat := touchSet [.boot] []

theorem State.pushEntry_keeps (e : HistEntry) (s : State) : Keeps State.pushEntry_touch s (State.pushEntry e s) := by
  unfold State.pushEntry
  refine Keeps.boot ?_ (by decide +kernel) (Nat.le_refl _) (Or.inr (List.length_take_le ..))
  exact Keeps.rfl

def State.enterMitten_touch : Nat := touchSet [.boot] [.HQ_START_STATUS]

theorem State.enterMitten_keeps (s : State) : Keeps State.enterMitten_touch s (State.enterMitten s) := by
  unfold State.enterMitten
  extract_lets x1 x2 x3
  refine Keeps.after ?_ (State.pushEntry_keeps ..) (by decide +kernel)
  refine Keeps.setFld ?_ (by decide +kernel)
  refine Keeps.after ?_ (State.bootStatus_keeps ..) (by decide +kernel)
  refine Keeps.setFld ?_ (by decide +kernel)
  exact Keeps.rfl

def State.modEntry_touch : Nat := touchSet [.boot] []

theorem State.modEntry_keeps (f : HistEntry → HistEntry) (s : State) : Keeps State.modEntry_touch s (State.modEntry f s) := by
  unfold State.modEntry
  split
  · exact Keeps.rfl
  · rename_i h
    refine Keeps.boot Keeps.rfl (by decide +kernel) (Nat.le_refl _) (Or.inl ?_)
    simp only [h, List.length_cons]

def State.beginStart_touch : Nat := touchSet [.start] [] ||| State.enterMitten_touch

theorem State.beginStart_keeps (s : State) : Keeps State.beginStart_touch s (State.beginStart s) := by
  unfold State.beginStart
  extract_lets x1 x2 x3 x4 x5 x6 x7 x8
  refine Keeps.ite ?_ ?_
  · refine Keeps.after ?_ (State.enterMitten_keeps ..) (by decide +kernel)
    refine Keeps.update (t := x1) ?_ rfl rfl
      (by intro p hp; cases p <;> first | rfl | exact Nat.le_refl _ | exact absurd hp (by decide +kernel))
      (Nat.le_refl _) (Nat.le_refl _) (State.sound_congr rfl rfl rfl (Or.inl rfl) (Or.inl rfl))
    refine Keeps.ite ?_ ?_
    · refine Keeps.after ?_ (State.modEntry_keeps ..) (by decide +kernel)
      exact Keeps.rfl
    · exact Keeps.rfl
  · refine Keeps.after ?_ (State.pushEntry_keeps ..) (by decide +kernel)
    refine Keeps.after ?_ (State.bootStatus_keeps ..) (by decide +kernel)
    refine Keeps.update (t := x5) ?_ rfl rfl
      (by intro p hp; cases p <;> first | rfl | exact Nat.le_refl _ | exact absurd hp (by decide +kernel))
      (Nat.le_refl _) (Nat.le_refl _) (State.sound_congr rfl rfl rfl (Or.inl rfl) (Or.inl rfl))
    refine Keeps.update (t := x1) ?_ rfl rfl
      (by intro p hp; cases p <;> first | rfl | exact Nat.le_refl _ | exact absurd hp (by decide +kernel))
      (Nat.le_refl _) (Nat.le_refl _) (State.sound_congr rfl rfl rfl (Or.inl rfl) (Or.inl rfl))
    refine Keeps.ite ?_ ?_
    · refine Keeps.after ?_ (State.modEntry_keeps ..) (by decide +kernel)
      exact Keeps.rfl
    · exact Keeps.rfl

def State.closeStart_touch : Nat := touchSet [.boot] []

theorem State.closeStart_keeps (outcome : ℕ) (reason : ℕ) (detail : ℕ) (s : State) : Keeps State.closeStart_touch s
    (State.closeStart outcome reason detail s) := by
  unfold State.closeStart
  extract_lets x1
  refine Keeps.after ?_ (State.modEntry_keeps ..) (by decide +kernel)
  exact Keeps.rfl

def State.resetAll_touch : Nat := touchSet [.dict, .dram, .fl, .hq, .idx, .net, .pol, .power, .qry, .ras, .shadowRegs,
  .start, .tbl, .ten] [] ||| anyReg

theorem State.resetAll_keeps (keepErr : Bool) (keepDram : Bool) (s : State) :
    Keeps State.resetAll_touch s (State.resetAll keepErr keepDram s) := by
  unfold State.resetAll
  extract_lets r kept chans z1 z2 z3 z4 z5 z6 z7 t held
  have h : Keeps State.resetAll_touch s t := by
    refine ⟨rfl, fun p hp => ?_, fun r i j hr => ?_, Nat.le_refl _, Nat.le_refl _, fun hs => ?_⟩
    · cases p <;> first | exact Nat.le_refl _ | exact absurd hp (by decide +kernel) | rfl
    · rw [anyReg_bit (by decide +kernel) r] at hr; exact absurd hr (by decide)
    · rw [State.sound_iff] at hs ⊢
      refine ⟨⟨Tbl.sorted_foldl_put kept rfl, hs.1.2.1, ?_⟩, ?_, hs.2.2⟩
      · cases keepDram
        · rfl
        · exact hs.1.2.2
      · cases keepErr
        · exact Nat.zero_le _
        · exact hs.2.1
  clear_value t held
  refine Keeps.ite (Keeps.setFld h ?_) h
  exact anyReg_bit (by decide +kernel) _

def State.tryStart_touch : Nat := touchSet [.ras] [] ||| State.beginStart_touch

theorem State.tryStart_keeps (s : State) : Keeps State.tryStart_touch s (State.tryStart s) := by
  unfold State.tryStart
  refine Keeps.ite ?_ ?_
  · refine Keeps.after ?_ (State.beginStart_keeps ..) (by decide +kernel)
    exact Keeps.rfl
  · refine Keeps.ras ?_ (by decide +kernel) (Or.inl rfl)
    exact Keeps.rfl

def State.failStart_touch : Nat := touchSet [.boot] [] ||| State.resetAll_touch

theorem State.failStart_keeps (reason : ℕ) (detail : ℕ) (s : State) : Keeps State.failStart_touch s (State.failStart
    reason detail s) := by
  unfold State.failStart
  extract_lets x1 x2 x3 x4 x5 x6
  refine Keeps.ite ?_ ?_
  · refine Keeps.after ?_ (State.enterMitten_keeps ..) (by decide +kernel)
    refine Keeps.setFld ?_ (by decide +kernel)
    refine Keeps.start ?_ (by decide +kernel)
    refine Keeps.after ?_ (State.resetAll_keeps ..) (by decide +kernel)
    refine Keeps.ite ?_ ?_
    · exact Keeps.rfl
    · refine Keeps.after ?_ (State.closeStart_keeps ..) (by decide +kernel)
      exact Keeps.rfl
  · refine Keeps.after ?_ (State.tryStart_keeps ..) (by decide +kernel)
    refine Keeps.start ?_ (by decide +kernel)
    refine Keeps.after ?_ (State.resetAll_keeps ..) (by decide +kernel)
    refine Keeps.ite ?_ ?_
    · exact Keeps.rfl
    · refine Keeps.after ?_ (State.closeStart_keeps ..) (by decide +kernel)
      exact Keeps.rfl

def State.nextStep_touch : Nat := touchSet [.boot, .start] [.HQ_START_STATUS]

theorem State.nextStep_keeps (s : State) : Keeps State.nextStep_touch s (State.nextStep s) := by
  unfold State.nextStep
  extract_lets x1 x2 x3
  refine Keeps.start ?_ (by decide +kernel)
  refine Keeps.after ?_ (State.modEntry_keeps ..) (by decide +kernel)
  refine Keeps.setFld ?_ (by decide +kernel)
  exact Keeps.rfl

def State.setSets_touch : Nat := touchSet [.start] []

theorem State.setSets_keeps (bit : ℕ) (s : State) : Keeps State.setSets_touch s (State.setSets bit s) := by
  unfold State.setSets
  refine Keeps.start ?_ (by decide +kernel)
  exact Keeps.rfl

def State.chooseSet_touch : Nat := State.failStart_touch

theorem State.chooseSet_keeps (a : ImageInfo) (b : ImageInfo) (s : State) : Keeps State.chooseSet_touch s
    (State.chooseSet a b s) := by
  unfold State.chooseSet
  extract_lets x1 x2 x3 x4
  refine Keeps.ite ?_ ?_
  · subst x4
    beta_reduce
    extract_lets x4 x5 x6
    refine Keeps.after ?_ (State.nextStep_keeps ..) (by decide +kernel)
    refine Keeps.start ?_ (by decide +kernel)
    refine Keeps.setFld ?_ (by decide +kernel)
    refine Keeps.setFld ?_ (by decide +kernel)
    refine Keeps.boot ?_ (by decide +kernel) (Nat.le_refl _) (Or.inl rfl)
    exact Keeps.rfl
  · refine Keeps.ite ?_ ?_
    · subst x4
      beta_reduce
      extract_lets x4 x5 x6
      refine Keeps.after ?_ (State.nextStep_keeps ..) (by decide +kernel)
      refine Keeps.start ?_ (by decide +kernel)
      refine Keeps.setFld ?_ (by decide +kernel)
      refine Keeps.setFld ?_ (by decide +kernel)
      refine Keeps.boot ?_ (by decide +kernel) (Nat.le_refl _) (Or.inl rfl)
      exact Keeps.rfl
    · refine Keeps.after ?_ (State.failStart_keeps ..) (by decide +kernel)
      refine Keeps.after ?_ (State.setSets_keeps ..) (by decide +kernel)
      refine Keeps.boot ?_ (by decide +kernel) (Nat.le_refl _) (Or.inl rfl)
      exact Keeps.rfl

def State.markBad_touch : Nat := touchSet [.start] []

theorem State.markBad_keeps (us : List UnitId) (s : State) : Keeps State.markBad_touch s (State.markBad us s) := by
  unfold State.markBad
  refine Keeps.start ?_ (by decide +kernel)
  exact Keeps.rfl

def State.noteBad_touch : Nat := touchSet [.freeCount, .start] [] ||| State.log_touch

theorem State.noteBad_keeps (us : List UnitId) (s : State) : Keeps State.noteBad_touch s (State.noteBad us s) := by
  unfold State.noteBad
  extract_lets x1
  refine Keeps.after ?_ (State.markBad_keeps ..) (by decide +kernel)
  refine Keeps.forEach _ _ (fun a1 t1 => ?_) ?_
  · subst x1
    beta_reduce
    extract_lets x1 x2
    refine Keeps.after ?_ (State.log_keeps ..) (by decide +kernel)
    refine Keeps.after ?_ (State.draw_keeps ..) (by decide +kernel)
    refine Keeps.after ?_ (State.draw_keeps ..) (by decide +kernel)
    exact Keeps.rfl
  · exact Keeps.rfl

def State.restoreDram_touch : Nat := anyReg ||| State.tombOnce_touch ||| State.settleCommit_touch

theorem State.restoreDram_keeps (s : State) : Keeps State.restoreDram_touch s (State.restoreDram s) := by
  unfold State.restoreDram
  extract_lets s1 s2 s3 s4 s5 s6 one q z1 s7 s8
  have h1 : Keeps State.restoreDram_touch s s1 := Keeps.regsFold Keeps.rfl (by decide +kernel)
  clear_value s1
  have h2 : Keeps State.restoreDram_touch s s2 :=
    Keeps.forEach _ _ (fun _ _ => Keeps.setFld Keeps.rfl (anyReg_bit (by decide +kernel) _)) h1
  clear_value s2
  have h3 : Keeps State.restoreDram_touch s s3 :=
    Keeps.forEach _ _ (fun _ _ => Keeps.setFld Keeps.rfl (anyReg_bit (by decide +kernel) _)) h2
  clear_value s3
  have h4 : Keeps State.restoreDram_touch s s4 :=
    Keeps.setFld (Keeps.setFld h3 (anyReg_bit (by decide +kernel) _)) (anyReg_bit (by decide +kernel) _)
  clear_value s4
  have h5 : Keeps State.restoreDram_touch s s5 := Keeps.after h4 (State.nextEpoch_keeps ..) (by decide +kernel)
  clear_value s5
  have h6 : Keeps State.restoreDram_touch s s6 :=
    Keeps.forEach _ _ (fun _ _ => Keeps.after Keeps.rfl (State.dropCharge_keeps ..) (by decide +kernel)) h5
  clear_value s6
  have h7 : Keeps State.restoreDram_touch s s7 := Keeps.idx h6 (by decide +kernel)
  clear_value s7
  have h8 : Keeps State.restoreDram_touch s s8 := by
    refine Keeps.forEach _ _ (fun _ _ => ?_) h7
    refine State.withMirror_keeps (by decide +kernel) (fun _ _ _ => ?_) Keeps.rfl
    exact Keeps.after Keeps.rfl (State.tombOnce_keeps ..) (by decide +kernel)
  clear_value s8
  exact Keeps.after h8 (State.settleCommit_keeps ..) (by decide +kernel)

def State.dramStarted_touch : Nat := State.failStart_touch ||| State.noteBad_touch

theorem State.dramStarted_keeps (failed : Bool) (ok bad : List UnitId) (s : State) :
    Keeps State.dramStarted_touch s (State.dramStarted failed ok bad s) := by
  unfold State.dramStarted
  extract_lets trained s1 c0
  have h1 : Keeps State.dramStarted_touch s s1 := Keeps.after Keeps.rfl (State.noteBad_keeps ..) (by decide +kernel)
  clear_value trained s1 c0
  refine Keeps.ite (Keeps.after Keeps.rfl (State.failStart_keeps ..) (by decide +kernel)) (Keeps.ite (Keeps.ite ?_ ?_) ?_)
  · refine Keeps.after ?_ (State.nextStep_keeps ..) (by decide +kernel)
    exact Keeps.after h1 (State.restoreDram_keeps ..) (by decide +kernel)
  · refine Keeps.after ?_ (State.nextStep_keeps ..) (by decide +kernel)
    refine Keeps.after ?_ (State.setSets_keeps ..) (by decide +kernel)
    refine Keeps.update h1 rfl rfl (fun p hp => ?_) (Nat.le_refl _) (Nat.le_refl _) (fun hs => ?_)
    · cases p <;> first | exact Nat.le_refl _ | exact absurd hp (by decide +kernel) | rfl
    · rw [State.sound_iff] at hs ⊢
      exact ⟨⟨hs.1.1, hs.1.2.1, rfl⟩, hs.2⟩
  · exact Keeps.after h1 (State.nextStep_keeps ..) (by decide +kernel)

def State.recomputeOpen_touch : Nat := touchSet [] [.GE_PAR_RECOMPUTE] ||| State.recompute_touch

theorem State.recomputeOpen_keeps (k : ℕ) (s : State) : Keeps State.recomputeOpen_touch s (State.recomputeOpen k s) :=
    by
  unfold State.recomputeOpen
  extract_lets x1 x2
  refine Keeps.forEach _ _ (fun a1 t1 => ?_) ?_
  · refine Keeps.bump ?_ (by decide +kernel)
    refine Keeps.after ?_ (State.recompute_keeps ..) (by decide +kernel)
    exact Keeps.rfl
  · exact Keeps.rfl

def State.flashStarted_touch : Nat := State.failStart_touch ||| State.noteBad_touch

theorem State.flashStarted_keeps (ok : List UnitId) (bad : List UnitId) (s : State) : Keeps State.flashStarted_touch s
    (State.flashStarted ok bad s) := by
  unfold State.flashStarted
  extract_lets x1 x2 x3 x4 x5
  refine Keeps.ite ?_ ?_
  · refine Keeps.after ?_ (State.failStart_keeps ..) (by decide +kernel)
    exact Keeps.rfl
  · refine Keeps.after ?_ (State.nextStep_keeps ..) (by decide +kernel)
    refine Keeps.start ?_ (by decide +kernel)
    refine Keeps.forEach _ _ (fun a1 t1 => ?_) ?_
    · refine Keeps.after ?_ (State.recomputeOpen_keeps ..) (by decide +kernel)
      exact Keeps.rfl
    · refine Keeps.forEach _ _ (fun a1 t1 => ?_) ?_
      · subst x2
        beta_reduce
        extract_lets x5 x6
        refine Keeps.setFld ?_ (by decide +kernel)
        refine Keeps.after ?_ (State.setChan_keeps ..) (by decide +kernel)
        refine Keeps.after ?_ (State.resetCuff_keeps ..) (by decide +kernel)
        exact Keeps.rfl
      · refine Keeps.after ?_ (State.noteBad_keeps ..) (by decide +kernel)
        exact Keeps.rfl

def State.flushed_touch : Nat := touchSet [] [.DM_CTL] ||| State.nextStep_touch

theorem State.flushed_keeps (s : State) : Keeps State.flushed_touch s (State.flushed s) := by
  unfold State.flushed
  extract_lets x1 x2 x3 x4
  refine Keeps.after ?_ (State.nextStep_keeps ..) (by decide +kernel)
  refine Keeps.ite ?_ ?_
  · refine Keeps.setFld ?_ (by decide +kernel)
    refine Keeps.boot ?_ (by decide +kernel) (Nat.le_refl _) (Or.inl rfl)
    exact Keeps.rfl
  · refine Keeps.boot ?_ (by decide +kernel) (Nat.le_refl _) (Or.inl rfl)
    exact Keeps.rfl

def State.lanesUp_touch : Nat := touchSet [.boot, .ras] [] ||| State.setSvc_touch

theorem State.lanesUp_keeps (d : ℕ) (s : State) : Keeps State.lanesUp_touch s (State.lanesUp d s) := by
  unfold State.lanesUp
  extract_lets spare free rec_ out s1
  have h1 : Keeps State.lanesUp_touch s s1 := Keeps.forEach _ _ (fun _ _ =>
    Keeps.ite Keeps.rfl (Keeps.after Keeps.rfl (State.setSvc_keeps ..) (by decide +kernel))) Keeps.rfl
  clear_value free out s1 spare
  split
  · extract_lets s2 s3
    have h2 : Keeps State.lanesUp_touch s s2 := Keeps.ras h1 (by decide +kernel) (Or.inl rfl)
    clear_value s2
    have h3 : Keeps State.lanesUp_touch s s3 := by
      refine Keeps.after ?_ (State.writeRepair_keeps ..) (by decide +kernel)
      exact Keeps.after h2 (State.setSvc_keeps ..) (by decide +kernel)
    clear_value s3
    exact Keeps.ite h3 (Keeps.after h3 (State.setSvc_keeps ..) (by decide +kernel))
  · exact h1

def State.openService_touch : Nat := touchSet [.boot, .power, .start] [] ||| State.applyConfig_touch |||
  State.flushHatpin_touch

theorem State.openService_fails {s t : State} (h : Keeps State.openService_touch s t) :
    Keeps State.openService_touch s { t with boot := { t.boot with fails := 0 } } :=
  Keeps.boot h (by decide +kernel) (Nat.le_refl _) (Or.inl rfl)

theorem State.openService_keeps (s : State) : Keeps State.openService_touch s (State.openService s) := by
  unfold State.openService
  extract_lets band s1 s2 cores s3 s4 z0 s4a z1 s5 s6
  have hb : ∀ g t, Keeps State.openService_touch t (band g t) := by
    intro g t
    subst band
    beta_reduce
    extract_lets t1 z1 t2
    have k1 : Keeps State.openService_touch t t1 := by
      refine Keeps.ite Keeps.rfl (Keeps.setFld ?_ (by decide +kernel))
      exact Keeps.after Keeps.rfl (State.setSvc_keeps ..) (by decide +kernel)
    clear_value t1
    have k2 : Keeps State.openService_touch t t2 := by
      refine Keeps.after ?_ (State.takeOwner_keeps ..) (by decide +kernel)
      exact Keeps.power k1 (by decide +kernel)
    clear_value t2
    exact Keeps.ite k2 (Keeps.after k2 (State.ungate_keeps ..) (by decide +kernel))
  have h1 : Keeps State.openService_touch s s1 := Keeps.forEach _ _ hb Keeps.rfl
  clear_value s1
  have h2 : Keeps State.openService_touch s s2 := by
    refine Keeps.after ?_ (State.lanesUp_keeps ..) (by decide +kernel)
    exact Keeps.after h1 (State.lanesUp_keeps ..) (by decide +kernel)
  clear_value s2
  have h3 : Keeps State.openService_touch s s3 := Keeps.forEach _ _ (fun _ _ =>
    Keeps.after Keeps.rfl (State.setSvc_keeps ..) (by decide +kernel)) h2
  clear_value s3
  have h4 : Keeps State.openService_touch s s4 := by
    refine Keeps.after ?_ (State.flushHatpin_keeps ..) (by decide +kernel)
    exact Keeps.after h3 (State.applyConfig_keeps ..) (by decide +kernel)
  clear_value s4
  have h4a : Keeps State.openService_touch s s4a := Keeps.after h4 (State.setHatpin_keeps ..) (by decide +kernel)
  clear_value s4a
  have h5 : Keeps State.openService_touch s s5 := State.openService_fails h4a
  clear_value s5
  have h6 : Keeps State.openService_touch s s6 := by
    refine Keeps.setFld (Keeps.setFld ?_ (by decide +kernel)) (by decide +kernel)
    exact Keeps.after h5 (State.closeStart_keeps ..) (by decide +kernel)
  clear_value s6
  exact Keeps.start h6 (by decide +kernel)

def State.repairTiles_touch : Nat := touchSet [.boot] [] ||| State.noteBad_touch

theorem State.repairTiles_keeps (g : ℕ) (mask : ℕ) (s : State) : Keeps State.repairTiles_touch s (State.repairTiles g
    mask s) := by
  unfold State.repairTiles
  extract_lets x1 x2
  refine Keeps.ite ?_ ?_
  · refine Keeps.ite ?_ ?_
    · exact Keeps.rfl
    · refine Keeps.after ?_ (State.noteBad_keeps ..) (by decide +kernel)
      exact Keeps.rfl
  · refine Keeps.forEach _ _ (fun a1 t1 => ?_) ?_
    · refine Keeps.after ?_ (State.writeRepair_keeps ..) (by decide +kernel)
      exact Keeps.rfl
    · exact Keeps.rfl

def State.sampleRefclk_touch : Nat := touchSet [.start] []

theorem State.sampleRefclk_keeps (s : State) : Keeps State.sampleRefclk_touch s (State.sampleRefclk s) := by
  unfold State.sampleRefclk
  refine Keeps.start ?_ (by decide +kernel)
  exact Keeps.rfl

def State.selfTested_touch : Nat := State.failStart_touch ||| State.repairTiles_touch

theorem State.selfTested_keeps (faults : List (ℕ × ℕ)) (ok : List UnitId) (bad : List UnitId) (s : State) : Keeps
    State.selfTested_touch s (State.selfTested faults ok bad s) := by
  unfold State.selfTested
  refine Keeps.ite ?_ ?_
  · refine Keeps.after ?_ (State.failStart_keeps ..) (by decide +kernel)
    exact Keeps.rfl
  · extract_lets x1 x2 x3 x4 x5
    refine Keeps.after ?_ (State.nextStep_keeps ..) (by decide +kernel)
    refine Keeps.forEach _ _ (fun a1 t1 => ?_) ?_
    · subst x5
      beta_reduce
      extract_lets x5 x6 x7
      refine Keeps.ite ?_ ?_
      · exact Keeps.rfl
      · refine Keeps.ras ?_ (by decide +kernel) (Or.inl rfl)
        exact Keeps.rfl
    · refine Keeps.forEach _ _ (fun a1 t1 => ?_) ?_
      · refine Keeps.after ?_ (State.repairTiles_keeps ..) (by decide +kernel)
        exact Keeps.rfl
      · refine Keeps.ite ?_ ?_
        · refine Keeps.after ?_ (State.noteBad_keeps ..) (by decide +kernel)
          exact Keeps.rfl
        · refine Keeps.after ?_ (State.setSets_keeps ..) (by decide +kernel)
          refine Keeps.boot ?_ (by decide +kernel) (Nat.le_refl _) (Or.inl rfl)
          refine Keeps.after ?_ (State.noteBad_keeps ..) (by decide +kernel)
          exact Keeps.rfl

def State.writeConfig_touch : Nat := touchSet [.boot] []

theorem State.writeConfig_keeps (s : State) : Keeps State.writeConfig_touch s (State.writeConfig s) := by
  unfold State.writeConfig
  refine Keeps.boot ?_ (by decide +kernel) (Nat.le_refl _) (Or.inl rfl)
  exact Keeps.rfl

def execAttest_touch : Nat := touchSet [.dict] []

theorem execAttest_ends (nonce : List Byte) (s : State) : Ends execAttest_touch s (execAttest nonce s) := by
  unfold execAttest
  refine Ends.ite ?_ ?_
  · refine Ends.next ?_
    refine Keeps.after ?_ (State.invokeOk_keeps ..) (by decide +kernel)
    exact Keeps.rfl
  · refine Ends.next ?_
    refine Keeps.after ?_ (State.invokeRefused_keeps ..) (by decide +kernel)
    exact Keeps.rfl

def execConfigReset_touch : Nat := touchSet [.boot, .dict] []

theorem execConfigReset_ends (s : State) : Ends execConfigReset_touch s (execConfigReset s) := by
  unfold execConfigReset
  refine Ends.ite ?_ ?_
  · refine Ends.next ?_
    refine Keeps.after ?_ (State.invokeRefused_keeps ..) (by decide +kernel)
    exact Keeps.rfl
  · extract_lets x1 x2 x3
    refine Ends.next ?_
    refine Keeps.after ?_ (State.invokeOk_keeps ..) (by decide +kernel)
    refine Keeps.after ?_ (State.writeConfig_keeps ..) (by decide +kernel)
    refine Keeps.update (t := s) ?_ rfl rfl
      (by intro p hp; cases p <;> first | rfl | exact Nat.le_refl _ | exact absurd hp (by decide +kernel))
      (Nat.le_refl _) (Nat.le_refl _) (State.sound_congr rfl rfl rfl (Or.inl rfl) (Or.inl rfl))
    exact Keeps.rfl

def execImageVerify_touch : Nat := touchSet [.dict] []

theorem execImageVerify_ends (set : ℕ) (s : State) : Ends execImageVerify_touch s (execImageVerify set s) := by
  unfold execImageVerify
  refine Ends.ite ?_ ?_
  · refine Ends.next ?_
    refine Keeps.after ?_ (State.invokeRefused_keeps ..) (by decide +kernel)
    exact Keeps.rfl
  · refine Ends.next ?_
    refine Keeps.after ?_ (State.invokeOk_keeps ..) (by decide +kernel)
    exact Keeps.rfl

def execImageWrite_touch : Nat := touchSet [.boot, .dict] []

theorem execImageWrite_ends (set : ℕ) (image : ImageInfo) (s : State) : Ends execImageWrite_touch s (execImageWrite set image s) := by
  unfold execImageWrite
  refine Ends.ite (Ends.next (Keeps.after Keeps.rfl (State.invokeRefused_keeps ..) (by decide +kernel))) ?_
  extract_lets z1 b
  refine Ends.next (Keeps.after ?_ (State.invokeOk_keeps ..) (by decide +kernel))
  have hb : b.secFloor = s.boot.secFloor ∧ b.history = s.boot.history := by subst b; split <;> exact ⟨rfl, rfl⟩
  clear_value b
  exact Keeps.boot Keeps.rfl (by decide +kernel) (Nat.le_of_eq hb.1.symm) (Or.inl (congrArg _ hb.2))

def execPowerOn_touch : Nat := touchSet [.boot, .now, .pins, .time] [] ||| State.resetAll_touch

theorem execPowerOn_ends (s : State) : Ends execPowerOn_touch s (execPowerOn s) := by
  unfold execPowerOn
  extract_lets pins t
  refine Ends.next ?_
  refine Keeps.after ?_ (State.tryStart_keeps ..) (by decide +kernel)
  refine Keeps.start ?_ (by decide +kernel)
  subst t
  refine Keeps.update (t := s.resetAll false false) ?_ rfl rfl (fun p hp => ?_) (Nat.le_refl _) (Nat.le_refl _)
    (fun hs => State.sound_congr rfl rfl rfl (Or.inl rfl) (Or.inl rfl) hs)
  · exact Keeps.after Keeps.rfl (State.resetAll_keeps ..) (by decide +kernel)
  · cases p <;> first | exact absurd hp (by decide +kernel) | rfl

def execPreferredSet_touch : Nat := touchSet [.boot, .ras] []

theorem execPreferredSet_ends (set : ℕ) (s : State) : Ends execPreferredSet_touch s (execPreferredSet set s) := by
  unfold execPreferredSet
  refine Ends.ite (Ends.next (Keeps.ras Keeps.rfl (by decide +kernel) (Or.inl rfl))) ?_
  extract_lets z1 b
  have hb : b.secFloor = s.boot.secFloor ∧ b.history = s.boot.history := by subst b; split <;> exact ⟨rfl, rfl⟩
  clear_value b
  exact Ends.next (Keeps.boot Keeps.rfl (by decide +kernel) (Nat.le_of_eq hb.1.symm) (Or.inl (congrArg _ hb.2)))

def execProvision_touch : Nat := touchSet [.boot, .out, .ras] []

theorem execProvision_ends (s : State) : Ends execProvision_touch s (execProvision s) := by
  unfold execProvision
  refine Ends.ite ?_ ?_
  · refine Ends.next ?_
    refine Keeps.ras ?_ (by decide +kernel) (Or.inl rfl)
    exact Keeps.rfl
  · extract_lets x1 x2
    refine Ends.next ?_
    refine Keeps.after ?_ (State.emit_keeps ..) (by decide +kernel)
    refine Keeps.boot ?_ (by decide +kernel) (Nat.le_refl _) (Or.inl rfl)
    exact Keeps.rfl

def execSecverCommit_touch : Nat := touchSet [.boot, .dict] [.HQ_START_STATUS]

theorem execSecverCommit_ends (s : State) : Ends execSecverCommit_touch s (execSecverCommit s) := by
  unfold execSecverCommit
  refine Ends.ite (Ends.next (Keeps.after Keeps.rfl (State.invokeRefused_keeps ..) (by decide +kernel))) ?_
  extract_lets v z1 s1
  have h1 : Keeps execSecverCommit_touch s s1 := by
    refine Keeps.after ?_ (State.writeConfig_keeps ..) (by decide +kernel)
    exact Keeps.boot Keeps.rfl (by decide +kernel) (Nat.le_max_left ..) (Or.inl rfl)
  clear_value v s1
  refine Ends.next (Keeps.after ?_ (State.invokeOk_keeps ..) (by decide +kernel))
  exact Keeps.setFld h1 (by decide +kernel)

def execStartRetry_touch : Nat := touchSet [.boot] [] ||| State.resetAll_touch

theorem execStartRetry_ends (set : ℕ) (s : State) : Ends execStartRetry_touch s (execStartRetry set s) := by
  unfold execStartRetry
  refine Ends.ite ?_ ?_
  · refine Ends.next ?_
    refine Keeps.after ?_ (State.invokeRefused_keeps ..) (by decide +kernel)
    exact Keeps.rfl
  · extract_lets x1 x2 x3 x4
    refine Ends.next ?_
    refine Keeps.after ?_ (State.tryStart_keeps ..) (by decide +kernel)
    refine Keeps.start ?_ (by decide +kernel)
    refine Keeps.after ?_ (State.resetAll_keeps ..) (by decide +kernel)
    refine Keeps.after ?_ (State.invokeOk_keeps ..) (by decide +kernel)
    refine Keeps.boot ?_ (by decide +kernel) (Nat.le_refl _) (Or.inl rfl)
    exact Keeps.rfl

def execStartStepComplete_touch : Nat := State.selfTested_touch

theorem execStartStepComplete_ends (failed : Bool) (a : ImageInfo) (b : ImageInfo) (okUnits : List UnitId) (found :
    StepFaults) (s : State) : Ends execStartStepComplete_touch s (execStartStepComplete failed a b okUnits found s) :=
    by
  unfold execStartStepComplete
  extract_lets x1
  refine Ends.ite ?_ ?_
  · refine Ends.next ?_
    exact Keeps.rfl
  · split
    · refine Ends.ite ?_ ?_
      · refine Ends.next ?_
        refine Keeps.after ?_ (State.nextStep_keeps ..) (by decide +kernel)
        refine Keeps.after ?_ (State.sampleRefclk_keeps ..) (by decide +kernel)
        refine Keeps.after ?_ (State.markBad_keeps ..) (by decide +kernel)
        exact Keeps.rfl
      · refine Ends.next ?_
        refine Keeps.after ?_ (State.failStart_keeps ..) (by decide +kernel)
        exact Keeps.rfl
    · refine Ends.ite ?_ ?_
      · refine Ends.next ?_
        refine Keeps.after ?_ (State.failStart_keeps ..) (by decide +kernel)
        exact Keeps.rfl
      · refine Ends.next ?_
        refine Keeps.after ?_ (State.nextStep_keeps ..) (by decide +kernel)
        refine Keeps.setFld ?_ (by decide +kernel)
        exact Keeps.rfl
    · refine Ends.ite ?_ ?_
      · refine Ends.next ?_
        refine Keeps.after ?_ (State.nextStep_keeps ..) (by decide +kernel)
        refine Keeps.after ?_ (State.bootStatus_keeps ..) (by decide +kernel)
        refine Keeps.after ?_ (State.applyConfig_keeps ..) (by decide +kernel)
        exact Keeps.rfl
      · refine Ends.next ?_
        refine Keeps.after ?_ (State.failStart_keeps ..) (by decide +kernel)
        exact Keeps.rfl
    · refine Ends.next ?_
      refine Keeps.after ?_ (State.chooseSet_keeps ..) (by decide +kernel)
      exact Keeps.rfl
    · refine Ends.ite ?_ ?_
      · refine Ends.next ?_
        refine Keeps.after ?_ (State.failStart_keeps ..) (by decide +kernel)
        exact Keeps.rfl
      · refine Ends.next ?_
        refine Keeps.after ?_ (State.nextStep_keeps ..) (by decide +kernel)
        refine Keeps.after ?_ (State.loadDumpList_keeps ..) (by decide +kernel)
        exact Keeps.rfl
    · refine Ends.next ?_
      refine Keeps.after ?_ (State.selfTested_keeps ..) (by decide +kernel)
      exact Keeps.rfl
    · refine Ends.next ?_
      refine Keeps.after ?_ (State.dramStarted_keeps ..) (by decide +kernel)
      exact Keeps.rfl
    · refine Ends.next ?_
      refine Keeps.after ?_ (State.flashStarted_keeps ..) (by decide +kernel)
      exact Keeps.rfl
    · refine Ends.next ?_
      refine Keeps.after ?_ (State.nextStep_keeps ..) (by decide +kernel)
      refine Keeps.after ?_ (State.noteBad_keeps ..) (by decide +kernel)
      exact Keeps.rfl
    · refine Ends.next ?_
      refine Keeps.after ?_ (State.flushed_keeps ..) (by decide +kernel)
      exact Keeps.rfl
    · refine Ends.next ?_
      refine Keeps.after ?_ (State.openService_keeps ..) (by decide +kernel)
      exact Keeps.rfl

def execStepTimeout_touch : Nat := touchSet [.now] [] ||| State.failStart_touch

theorem execStepTimeout_ends (s : State) : Ends execStepTimeout_touch s (execStepTimeout s) := by
  unfold execStepTimeout
  extract_lets x1
  refine Ends.ite ?_ ?_
  · refine Ends.next ?_
    refine Keeps.after ?_ (State.failStart_keeps ..) (by decide +kernel)
    refine Keeps.after ?_ (State.reach_keeps ..) (by decide +kernel)
    exact Keeps.rfl
  · refine Ends.next ?_
    exact Keeps.rfl

end Sys2Proof.Machine
end

