-- ==== Sys2Proof/Laws/KeepBuilds.lean ====
section
/-! SUPPORT. What each operation of Machine/Builds.lean can change. -/

namespace Sys2Proof.Machine

set_option Elab.async false

def State.buildVersion_touch : Nat := touchSet [.freeCount, .idx] [.HQ_IDX_CTL, .HQ_IDX_LIM, .HQ_IDX_VER,
  .TN_QUOTA_USED]

theorem State.buildVersion_keeps (n : ℕ) (v : ℕ) (u : ℕ) (num : ℕ) (tenant : ℕ) (cents : List Code) (place : List ℕ)
    (std : BitVec 16) (s : State) : Keeps State.buildVersion_touch s (State.buildVersion n v u num tenant cents place
    std s) := by
  unfold State.buildVersion
  extract_lets x1 x2 x3 x4 x5 x6 x7 x8 x9
  refine Keeps.setFld ?_ (by decide +kernel)
  refine Keeps.setFld ?_ (by decide +kernel)
  refine Keeps.setFld ?_ (by decide +kernel)
  refine Keeps.setFld ?_ (by decide +kernel)
  refine Keeps.after ?_ (State.setVersion_keeps ..) (by decide +kernel)
  refine Keeps.after ?_ (State.addCharge_keeps ..) (by decide +kernel)
  refine Keeps.after ?_ (State.draws_keeps ..) (by decide +kernel)
  exact Keeps.rfl

def State.makeSuccessor_touch : Nat := touchSet [.freeCount, .idx] [.TN_QUOTA_USED]

theorem State.makeSuccessor_keeps (n : ℕ) (v : ℕ) (v' : ℕ) (reassign : Bool) (s : State) : Keeps
    State.makeSuccessor_touch s (State.makeSuccessor n v v' reassign s) := by
  unfold State.makeSuccessor
  extract_lets x1 x2 x3
  refine Keeps.after ?_ (State.draws_keeps ..) (by decide +kernel)
  refine Keeps.after ?_ (State.setVersion_keeps ..) (by decide +kernel)
  refine Keeps.after ?_ (State.addCharge_keeps ..) (by decide +kernel)
  exact Keeps.rfl

def State.orQuota_touch : Nat := touchSet [] [.TN_QUOTA_REFUSED] ||| State.gFinish_touch

theorem State.orQuota_keeps {w : Nat} {o : State} {c : Nat} {m : Cmd} {r : Res} {s after : State}
    (hw : State.orQuota_touch &&& w = State.orQuota_touch) (hs : Keeps w o s) (ha : Keeps w o after) :
    Keeps w o (State.orQuota c m r s after) := by
  unfold State.orQuota
  refine Keeps.ite ?_ ?_
  · exact Keeps.after ha (State.gFinish_keeps ..) (touch_le (by decide +kernel) hw)
  · refine Keeps.after ?_ (State.finish_keeps ..) (touch_le (by decide +kernel) hw)
    exact Keeps.after hs (State.noteRefused_keeps ..) (touch_le (by decide +kernel) hw)

def State.admitBuild_touch : Nat := State.orQuota_touch ||| State.buildVersion_touch

theorem State.admitBuild_keeps (readOk : Bool) (c : ℕ) (m : Cmd) (s : State) : Keeps State.admitBuild_touch s
    (State.admitBuild readOk c m s) := by
  unfold State.admitBuild
  extract_lets x1 x2 x3 x4 x5 x6 x7 x8 x9 x10 x11 x12 x13 x14 x15 x16 x17 x18 x19 x20
  refine Keeps.ite ?_ ?_
  · refine Keeps.after ?_ (State.finish_keeps ..) (by decide +kernel)
    exact Keeps.rfl
  · refine Keeps.ite ?_ ?_
    · refine Keeps.after ?_ (State.finish_keeps ..) (by decide +kernel)
      refine Keeps.after ?_ (State.hostDmaErr_keeps ..) (by decide +kernel)
      refine Keeps.after ?_ (State.draw_keeps ..) (by decide +kernel)
      exact Keeps.rfl
    · clear_value x15
      split
      · refine Keeps.after ?_ (State.finish_keeps ..) (by decide +kernel)
        exact Keeps.rfl
      · extract_lets x20 x21 x22
        refine State.orQuota_keeps (by decide +kernel) ?_ ?_
        · exact Keeps.rfl
        · refine Keeps.ite ?_ ?_
          · refine Keeps.after ?_ (State.makeSuccessor_keeps ..) (by decide +kernel)
            refine Keeps.after ?_ (State.buildVersion_keeps ..) (by decide +kernel)
            exact Keeps.rfl
          · refine Keeps.after ?_ (State.buildVersion_keeps ..) (by decide +kernel)
            exact Keeps.rfl

def State.defineStd_touch : Nat := touchSet [.freeCount, .idx] [.TN_QUOTA_USED]

theorem State.defineStd_keeps (j : ℕ) (k : ℕ) (s : State) : Keeps State.defineStd_touch s (State.defineStd j k s) := by
  unfold State.defineStd
  extract_lets x1 x2 x3
  refine Keeps.ite ?_ ?_
  · exact Keeps.rfl
  · refine Keeps.after ?_ (State.draws_keeps ..) (by decide +kernel)
    refine Keeps.after ?_ (State.setVersion_keeps ..) (by decide +kernel)
    refine Keeps.after ?_ (State.addCharge_keeps ..) (by decide +kernel)
    exact Keeps.rfl

def State.withBitmap_touch : Nat := State.defineStd_touch

theorem State.withBitmap_keeps (j : ℕ) (k : ℕ) (s : State) : Keeps State.withBitmap_touch s (State.withBitmap j k s) :=
    by
  unfold State.withBitmap
  split
  · refine Keeps.after ?_ (State.defineStd_keeps ..) (by decide +kernel)
    refine Keeps.after ?_ (State.defineStd_keeps ..) (by decide +kernel)
    exact Keeps.rfl
  · refine Keeps.after ?_ (State.defineStd_keeps ..) (by decide +kernel)
    exact Keeps.rfl

def State.admitDefine_touch : Nat := State.orQuota_touch ||| State.withBitmap_touch

theorem State.admitDefine_keeps (c : ℕ) (m : Cmd) (s : State) : Keeps State.admitDefine_touch s (State.admitDefine c m
    s) := by
  unfold State.admitDefine
  extract_lets x1
  refine Keeps.ite ?_ ?_
  · refine Keeps.after ?_ (State.finish_keeps ..) (by decide +kernel)
    exact Keeps.rfl
  · refine State.orQuota_keeps (by decide +kernel) ?_ ?_
    · exact Keeps.rfl
    · refine Keeps.after ?_ (State.withBitmap_keeps ..) (by decide +kernel)
      exact Keeps.rfl

def State.commitVersion_touch : Nat := touchSet [.fl] []

theorem State.commitVersion_keeps (k : ℕ) (s : State) : Keeps State.commitVersion_touch s (State.commitVersion k s) :=
    by
  unfold State.commitVersion
  refine Keeps.forEach _ _ (fun a1 t1 => ?_) ?_
  · refine Keeps.forEach _ _ (fun a2 t2 => ?_) ?_
    · refine Keeps.after ?_ (State.commitOpen_keeps ..) (by decide +kernel)
      exact Keeps.rfl
    · exact Keeps.rfl
  · exact Keeps.rfl

def State.admitRetire_touch : Nat := touchSet [.fl, .idx] [.HQ_IDX_CTL] ||| State.finish_touch

theorem State.admitRetire_keeps (c : ℕ) (m : Cmd) (s : State) : Keeps State.admitRetire_touch s (State.admitRetire c m
    s) := by
  unfold State.admitRetire
  extract_lets x1 x2
  split
  · refine Keeps.ite ?_ ?_
    · refine Keeps.after ?_ (State.finish_keeps ..) (by decide +kernel)
      exact Keeps.rfl
    · extract_lets x3
      refine Keeps.after ?_ (State.commitVersion_keeps ..) (by decide +kernel)
      refine Keeps.after ?_ (State.modVersion_keeps ..) (by decide +kernel)
      refine Keeps.setFld ?_ (by decide +kernel)
      exact Keeps.rfl
  · refine Keeps.after ?_ (State.finish_keeps ..) (by decide +kernel)
    exact Keeps.rfl

def State.dropSuccessor_touch : Nat := touchSet [.idx] [.TN_QUOTA_USED]

theorem State.dropSuccessor_keeps (k : ℕ) (v : ℕ) (s : State) : Keeps State.dropSuccessor_touch s (State.dropSuccessor k
    v s) := by
  unfold State.dropSuccessor
  extract_lets x1
  refine Keeps.ite ?_ ?_
  · refine Keeps.after ?_ (State.setVersion_keeps ..) (by decide +kernel)
    refine Keeps.after ?_ (State.dropCharge_keeps ..) (by decide +kernel)
    exact Keeps.rfl
  · exact Keeps.rfl

def State.freeList_touch : Nat := touchSet [.fl] [.TN_QUOTA_USED] ||| State.finish_touch

theorem State.freeList_keeps (k : ℕ) (l : IList) (s : State) : Keeps State.freeList_touch s (State.freeList k l s) := by
  unfold State.freeList
  extract_lets x1 x2 x3 x4 x5 x6
  refine Keeps.forEach _ _ (fun a1 t1 => ?_) ?_
  · refine Keeps.after ?_ (State.finish_keeps ..) (by decide +kernel)
    exact Keeps.rfl
  · refine Keeps.ite ?_ ?_
    · refine Keeps.forEach _ _ (fun a1 t1 => ?_) ?_
      · refine Keeps.after ?_ (State.releaseLsns_keeps ..) (by decide +kernel)
        exact Keeps.rfl
      · refine Keeps.after ?_ (State.dropCharge_keeps ..) (by decide +kernel)
        refine Keeps.after ?_ (State.dropCharge_keeps ..) (by decide +kernel)
        refine Keeps.ite ?_ ?_
        · exact Keeps.rfl
        · refine Keeps.after ?_ (State.dropCharge_keeps ..) (by decide +kernel)
          exact Keeps.rfl
    · refine Keeps.after ?_ (State.dropCharge_keeps ..) (by decide +kernel)
      refine Keeps.after ?_ (State.dropCharge_keeps ..) (by decide +kernel)
      refine Keeps.ite ?_ ?_
      · exact Keeps.rfl
      · refine Keeps.after ?_ (State.dropCharge_keeps ..) (by decide +kernel)
        exact Keeps.rfl

def State.freeSector_touch : Nat := touchSet [.fl, .idx] [.TN_QUOTA_USED]

theorem State.freeSector_keeps (k : ℕ) (sec : ℕ × ℕ) (s : State) : Keeps State.freeSector_touch s (State.freeSector k
    sec s) := by
  unfold State.freeSector
  extract_lets x1 x2 x3
  clear_value x2
  split
  · extract_lets x3
    refine Keeps.after ?_ (State.modVersion_keeps ..) (by decide +kernel)
    refine Keeps.after ?_ (State.addCharge_keeps ..) (by decide +kernel)
    refine Keeps.after ?_ (State.dropCharge_keeps ..) (by decide +kernel)
    exact Keeps.rfl
  · refine Keeps.after ?_ (State.releaseLsns_keeps ..) (by decide +kernel)
    refine Keeps.after ?_ (State.dropCharge_keeps ..) (by decide +kernel)
    exact Keeps.rfl

def State.freeVersion_touch : Nat := touchSet [.idx] [.HQ_IDX_CTL, .SY_VAL] ||| State.freeList_touch

theorem State.freeVersion_keeps (n : ℕ) (v : ℕ) (s : State) : Keeps State.freeVersion_touch s (State.freeVersion n v s)
    := by
  unfold State.freeVersion
  extract_lets x1 x2 x3 x4 x5 x6 x7 x8 x9 x10
  split
  · refine Keeps.after ?_ (State.gFinish_keeps ..) (by decide +kernel)
    refine Keeps.setReg ?_ (by decide +kernel)
    refine Keeps.idx ?_ (by decide +kernel)
    refine Keeps.forEach _ _ (fun a1 t1 => ?_) ?_
    · refine Keeps.after ?_ (State.dropSuccessor_keeps ..) (by decide +kernel)
      exact Keeps.rfl
    · refine Keeps.after ?_ (State.dropCharge_keeps ..) (by decide +kernel)
      refine Keeps.forEach _ _ (fun a1 t1 => ?_) ?_
      · refine Keeps.after ?_ (State.freeSector_keeps ..) (by decide +kernel)
        exact Keeps.rfl
      · refine Keeps.forEach _ _ (fun a1 t1 => ?_) ?_
        · refine Keeps.after ?_ (State.freeList_keeps ..) (by decide +kernel)
          exact Keeps.rfl
        · exact Keeps.rfl
  · refine Keeps.setReg ?_ (by decide +kernel)
    refine Keeps.idx ?_ (by decide +kernel)
    refine Keeps.forEach _ _ (fun a1 t1 => ?_) ?_
    · refine Keeps.after ?_ (State.dropSuccessor_keeps ..) (by decide +kernel)
      exact Keeps.rfl
    · refine Keeps.after ?_ (State.dropCharge_keeps ..) (by decide +kernel)
      refine Keeps.forEach _ _ (fun a1 t1 => ?_) ?_
      · refine Keeps.after ?_ (State.freeSector_keeps ..) (by decide +kernel)
        exact Keeps.rfl
      · refine Keeps.forEach _ _ (fun a1 t1 => ?_) ?_
        · refine Keeps.after ?_ (State.freeList_keeps ..) (by decide +kernel)
          exact Keeps.rfl
        · exact Keeps.rfl

def execDefineBitmap_touch : Nat := State.admitBad_touch ||| State.admitDefine_touch

theorem execDefineBitmap_ends (c : ℕ) (s : State) : Ends execDefineBitmap_touch s (execDefineBitmap c s) := by
  unfold execDefineBitmap
  refine Ends.next ?_
  refine Keeps.after ?_ (State.admitBad_keeps ..) (by decide +kernel)
  refine State.admitFront_keeps (by decide +kernel) (fun a01 t1 => ?_) ?_
  · refine Keeps.after ?_ (State.admitDefine_keeps ..) (by decide +kernel)
    exact Keeps.rfl
  · exact Keeps.rfl

def execIndexBuild_touch : Nat := State.admitBuild_touch ||| State.admitBad_touch

theorem execIndexBuild_ends (c : ℕ) (readOk : Bool) (s : State) : Ends execIndexBuild_touch s (execIndexBuild c readOk
    s) := by
  unfold execIndexBuild
  refine Ends.next ?_
  refine Keeps.after ?_ (State.admitBad_keeps ..) (by decide +kernel)
  refine State.admitFront_keeps (by decide +kernel) (fun a01 t1 => ?_) ?_
  · refine Keeps.after ?_ (State.admitBuild_keeps ..) (by decide +kernel)
    exact Keeps.rfl
  · exact Keeps.rfl

def execIndexRetire_touch : Nat := State.admitBad_touch ||| State.admitRetire_touch

theorem execIndexRetire_ends (c : ℕ) (s : State) : Ends execIndexRetire_touch s (execIndexRetire c s) := by
  unfold execIndexRetire
  refine Ends.next ?_
  refine Keeps.after ?_ (State.admitBad_keeps ..) (by decide +kernel)
  refine State.admitFront_keeps (by decide +kernel) (fun a01 t1 => ?_) ?_
  · refine Keeps.after ?_ (State.admitRetire_keeps ..) (by decide +kernel)
    exact Keeps.rfl
  · exact Keeps.rfl

def execIndexVersionSwitch_touch : Nat := touchSet [] [.HQ_IDX_CTL] ||| State.discard_touch

theorem execIndexVersionSwitch_ends (n : ℕ) (value : W64) (loc : W64) (s : State) : Ends execIndexVersionSwitch_touch s
    (execIndexVersionSwitch n value loc s) := by
  unfold execIndexVersionSwitch
  extract_lets x1 x2 x3 x4
  refine Ends.ite ?_ ?_
  · refine Ends.next ?_
    refine Keeps.after ?_ (State.discard_keeps ..) (by decide +kernel)
    exact Keeps.rfl
  · refine Ends.next ?_
    refine Keeps.setReg ?_ (by decide +kernel)
    exact Keeps.rfl

def execVersionFree_touch : Nat := State.freeVersion_touch

theorem execVersionFree_ends (n : ℕ) (v : ℕ) (s : State) : Ends execVersionFree_touch s (execVersionFree n v s) := by
  unfold execVersionFree
  refine Ends.ite ?_ ?_
  · refine Ends.next ?_
    refine Keeps.after ?_ (State.freeVersion_keeps ..) (by decide +kernel)
    exact Keeps.rfl
  · refine Ends.next ?_
    exact Keeps.rfl

end Sys2Proof.Machine
end

