-- ==== Sys2Proof/Laws/KeepScan.lean ====
section
/-! SUPPORT. What each operation of Machine/Scan.lean can change. -/

namespace Sys2Proof.Machine

set_option Elab.async false

def State.noteBand_touch : Nat := touchSet [] [.BD_STATUS]

theorem State.noteBand_keeps (b : ℕ) (s : State) : Keeps State.noteBand_touch s (State.noteBand b s) := by
  unfold State.noteBand
  extract_lets x1
  refine Keeps.setFld ?_ (by decide +kernel)
  refine Keeps.setFld ?_ (by decide +kernel)
  refine Keeps.setFld ?_ (by decide +kernel)
  exact Keeps.rfl

def State.setTask_touch : Nat := touchSet [.qry] []

theorem State.setTask_keeps (t : Task) (s : State) : Keeps State.setTask_touch s (State.setTask t s) := by
  unfold State.setTask
  refine Keeps.qry ?_ (by decide +kernel)
  exact Keeps.rfl

def State.drainTask_touch : Nat := touchSet [.qry] [.BD_STATUS]

theorem State.drainTask_keeps (t : Task) (s : State) : Keeps State.drainTask_touch s (State.drainTask t s) := by
  unfold State.drainTask
  extract_lets x1 x2 x3 x4 x5
  refine Keeps.after ?_ (State.noteBand_keeps ..) (by decide +kernel)
  refine Keeps.qry ?_ (by decide +kernel)
  refine Keeps.after ?_ (State.setTask_keeps ..) (by decide +kernel)
  exact Keeps.rfl

def State.advance_touch : Nat := State.drainTask_touch

theorem State.advance_keeps (id : ℕ) (s : State) : Keeps State.advance_touch s (State.advance id s) := by
  unfold State.advance
  split
  · exact Keeps.rfl
  · extract_lets x1
    refine Keeps.ite ?_ ?_
    · refine Keeps.after ?_ (State.drainTask_keeps ..) (by decide +kernel)
      exact Keeps.rfl
    · refine Keeps.after ?_ (State.setTask_keeps ..) (by decide +kernel)
      exact Keeps.rfl

def State.bindAll_touch : Nat := State.drainTask_touch

theorem State.bindAll_keeps (b : Nat) (l : List Task) (s : State) : Keeps State.bindAll_touch s (State.bindAll b l s) :=
    by
  induction l generalizing s with
  | nil =>
    unfold State.bindAll
    exact Keeps.rfl
  | cons x l ih =>
    unfold State.bindAll
    refine Keeps.ite ?_ ?_
    · extract_lets x1 x2
      refine Keeps.after ?_ (ih _) (Nat.and_self _)
      refine Keeps.ite ?_ ?_
      · refine Keeps.after ?_ (State.drainTask_keeps ..) (by decide +kernel)
        refine Keeps.after ?_ (State.noteBand_keeps ..) (by decide +kernel)
        refine Keeps.after ?_ (State.setTask_keeps ..) (by decide +kernel)
        exact Keeps.rfl
      · refine Keeps.after ?_ (State.noteBand_keeps ..) (by decide +kernel)
        refine Keeps.after ?_ (State.setTask_keeps ..) (by decide +kernel)
        exact Keeps.rfl
    · exact Keeps.rfl

def State.countDisabled_touch : Nat := touchSet [] [.BD_THR_CYC]

theorem State.countDisabled_keeps (t : Task) (n : ℕ) (s : State) : Keeps State.countDisabled_touch s
    (State.countDisabled t n s) := by
  unfold State.countDisabled
  extract_lets x1
  refine Keeps.bump ?_ (by decide +kernel)
  exact Keeps.rfl

def State.countPair_touch : Nat := touchSet [.qry] [.BD_GQ_LATE, .BD_GQ_PAIRS_LAUNCHED, .BD_GQ_WAIT_NS]

theorem State.countPair_keeps (die : ℕ) (p : Pair) (s : State) : Keeps State.countPair_touch s (State.countPair die p s)
    := by
  unfold State.countPair
  split
  · exact Keeps.rfl
  · extract_lets x1
    refine Keeps.after ?_ (State.setQuery_keeps ..) (by decide +kernel)
    refine Keeps.bump ?_ (by decide +kernel)
    refine Keeps.bump ?_ (by decide +kernel)
    refine Keeps.bump ?_ (by decide +kernel)
    exact Keeps.rfl

def State.countScanRead_touch : Nat := touchSet [] [.BD_BYTES_READ, .TN_ACC_DRAM_BYTES]

theorem State.countScanRead_keeps (band : ℕ) (pn : ℕ) (n : ℕ) (s : State) : Keeps State.countScanRead_touch s
    (State.countScanRead band pn n s) := by
  unfold State.countScanRead
  refine Keeps.bump ?_ (by decide +kernel)
  refine Keeps.bump ?_ (by decide +kernel)
  exact Keeps.rfl

def State.countPass_touch : Nat := touchSet [] [.BD_CAND_EMIT, .BD_LANE_CYC, .BD_PLANES_SKIP, .BD_SEG_SKIP,
  .BD_SLOTS_ABANDONED, .BD_SLOTS_DONE, .BD_TILE_CYC, .TN_ACC_TILE_CYC] ||| State.countScanRead_touch

theorem State.countPass_keeps (t : Task) (p : Pass) (aliases : Bool) (idReads : ℕ) (s : State) : Keeps
    State.countPass_touch s (State.countPass t p aliases idReads s) := by
  unfold State.countPass
  extract_lets x1 x2 x3 x4 x5 x6 x7 x8 x9 x10 x11 x12 x13 x14
  refine Keeps.bump ?_ (by decide +kernel)
  refine Keeps.bump ?_ (by decide +kernel)
  refine Keeps.bump ?_ (by decide +kernel)
  refine Keeps.bump ?_ (by decide +kernel)
  refine Keeps.bump ?_ (by decide +kernel)
  refine Keeps.bump ?_ (by decide +kernel)
  refine Keeps.bump ?_ (by decide +kernel)
  refine Keeps.bump ?_ (by decide +kernel)
  refine Keeps.after ?_ (State.countScanRead_keeps ..) (by decide +kernel)
  exact Keeps.rfl

def State.dropHold_touch : Nat := touchSet [.idx] []

theorem State.dropHold_keeps (k : ℕ) (cl : ℕ) (s : State) : Keeps State.dropHold_touch s (State.dropHold k cl s) := by
  unfold State.dropHold
  refine Keeps.after ?_ (State.modList_keeps ..) (by decide +kernel)
  exact Keeps.rfl

def State.dropTask_touch : Nat := touchSet [.qry] []

theorem State.dropTask_keeps (id : ℕ) (s : State) : Keeps State.dropTask_touch s (State.dropTask id s) := by
  unfold State.dropTask
  refine Keeps.qry ?_ (by decide +kernel)
  exact Keeps.rfl

def State.giveBack_touch : Nat := touchSet [.qry] [.BD_STATUS]

theorem State.giveBack_keeps (t : Task) (s : State) : Keeps State.giveBack_touch s (State.giveBack t s) := by
  unfold State.giveBack
  extract_lets x1 x2
  refine Keeps.after ?_ (State.noteBand_keeps ..) (by decide +kernel)
  refine Keeps.after ?_ (State.setGq_keeps ..) (by decide +kernel)
  refine Keeps.after ?_ (State.setTask_keeps ..) (by decide +kernel)
  exact Keeps.rfl

def State.holdList_touch : Nat := touchSet [.idx] []

theorem State.holdList_keeps (k : ℕ) (cl : ℕ) (s : State) : Keeps State.holdList_touch s (State.holdList k cl s) := by
  unfold State.holdList
  refine Keeps.after ?_ (State.modList_keeps ..) (by decide +kernel)
  exact Keeps.rfl

def State.loadTask_touch : Nat := touchSet [.qry] [.BD_REMOTE_TASKS, .BD_STATUS, .BD_TASKS]

theorem State.loadTask_keeps (t : Task) (band : ℕ) (s : State) : Keeps State.loadTask_touch s (State.loadTask t band s)
    := by
  unfold State.loadTask
  extract_lets x1 x2 x3 x4 x5
  refine Keeps.after ?_ (State.noteBand_keeps ..) (by decide +kernel)
  refine Keeps.bump ?_ (by decide +kernel)
  refine Keeps.bump ?_ (by decide +kernel)
  refine Keeps.qry ?_ (by decide +kernel)
  exact Keeps.rfl

def State.launchPairs_touch : Nat := touchSet [] [.BD_GQ_LAUNCH_DEADLINE, .BD_GQ_LAUNCH_FILL, .BD_GQ_LAUNCH_PRESSURE,
  .BD_GQ_LAUNCH_WINDOW, .BD_GQ_NOCTX_NS] ||| State.settleScan_touch ||| State.countPair_touch ||| State.loadTask_touch
  ||| State.dramUncorrAt_touch ||| State.countScanRead_touch

theorem State.launchPairs_keeps (g : GQueue) (tr : Trig) (band : ℕ) (dirErr : Option (ℕ × ℕ)) (s : State) : Keeps
    State.launchPairs_touch s (State.launchPairs g tr band dirErr s) := by
  unfold State.launchPairs
  extract_lets x1 x2 x3 x4 x5 x6 x7 x8 x9 x10
  split
  · extract_lets x11
    refine Keeps.forEach _ _ (fun a1 t1 => ?_) ?_
    · refine Keeps.after ?_ (State.settleScan_keeps ..) (by decide +kernel)
      refine Keeps.after ?_ (State.pairGone_keeps ..) (by decide +kernel)
      exact Keeps.rfl
    · refine Keeps.after ?_ (State.dramUncorrAt_keeps ..) (by decide +kernel)
      refine Keeps.after ?_ (State.resumeShadows_keeps ..) (by decide +kernel)
      refine Keeps.after ?_ (State.checkPressure_keeps ..) (by decide +kernel)
      refine Keeps.after ?_ (State.checkQueue_keeps ..) (by decide +kernel)
      refine Keeps.after ?_ (State.setGq_keeps ..) (by decide +kernel)
      refine Keeps.forEach _ _ (fun a1 t1 => ?_) ?_
      · refine Keeps.after ?_ (State.countPair_keeps ..) (by decide +kernel)
        exact Keeps.rfl
      · refine Keeps.bump ?_ (by decide +kernel)
        refine Keeps.bump ?_ (by unfold Trig.counter; split <;> decide +kernel)
        exact Keeps.rfl
  · refine Keeps.after ?_ (State.holdList_keeps ..) (by decide +kernel)
    refine Keeps.after ?_ (State.countScanRead_keeps ..) (by decide +kernel)
    refine Keeps.after ?_ (State.loadTask_keeps ..) (by decide +kernel)
    refine Keeps.after ?_ (State.resumeShadows_keeps ..) (by decide +kernel)
    refine Keeps.after ?_ (State.checkPressure_keeps ..) (by decide +kernel)
    refine Keeps.after ?_ (State.checkQueue_keeps ..) (by decide +kernel)
    refine Keeps.after ?_ (State.setGq_keeps ..) (by decide +kernel)
    refine Keeps.forEach _ _ (fun a1 t1 => ?_) ?_
    · refine Keeps.after ?_ (State.countPair_keeps ..) (by decide +kernel)
      exact Keeps.rfl
    · refine Keeps.bump ?_ (by decide +kernel)
      refine Keeps.bump ?_ (by unfold Trig.counter; split <;> decide +kernel)
      exact Keeps.rfl

def State.queueReductions_touch : Nat := touchSet [.qry] []

theorem State.queueReductions_keeps (id : ℕ) (s : State) : Keeps State.queueReductions_touch s (State.queueReductions id
    s) := by
  unfold State.queueReductions
  split
  · exact Keeps.rfl
  · extract_lets x1 x2 x3 x4
    refine Keeps.after ?_ (State.setTask_keeps ..) (by decide +kernel)
    refine Keeps.qry ?_ (by decide +kernel)
    exact Keeps.rfl

def State.readWords_touch : Nat := touchSet [] [.BD_FLT_QBM_BYTES] ||| State.countScanRead_touch

theorem State.readWords_keeps (t : Task) (b : Block) (s : State) : Keeps2 State.readWords_touch s (State.readWords t b
    s) := by
  unfold State.readWords
  extract_lets x1 x2
  refine Keeps2.foldl _ _ (fun p1 a1 => ?_) ?_
  · extract_lets x3 x4
    split
    · refine Keeps2.ite ?_ ?_
      · extract_lets x5
        refine Keeps2.of ?_
        refine Keeps.after ?_ (State.countScanRead_keeps ..) (by decide +kernel)
        refine Keeps.bump ?_ (by decide +kernel)
        exact Keeps.rfl
      · exact Keeps.rfl
    · exact Keeps.rfl
  · refine Keeps.after ?_ (State.countScanRead_keeps ..) (by decide +kernel)
    exact Keeps.rfl

def State.reduceLane_touch : Nat := touchSet [.qry] [.BD_REDUCE, .SE_DUP_DROPPED, .SE_REDUCE_ELEMS,
  .SE_REDUCE_QWAIT_CYC, .SE_REFILL_PASSES]

theorem State.reduceLane_keeps (t : Task) (i : ℕ) (s : State) : Keeps State.reduceLane_touch s (State.reduceLane t i s)
    := by
  unfold State.reduceLane
  split
  · exact Keeps.rfl
  · extract_lets x1 x2 x3 x4 x5 x6 x7
    refine Keeps.after ?_ (State.setTask_keeps ..) (by decide +kernel)
    refine Keeps.bump ?_ (by decide +kernel)
    refine Keeps.bump ?_ (by decide +kernel)
    refine Keeps.bump ?_ (by decide +kernel)
    refine Keeps.bump ?_ (by decide +kernel)
    refine Keeps.bump ?_ (by decide +kernel)
    exact Keeps.rfl

def State.scanBlock_touch : Nat := touchSet [.qry] [.BD_SKIP_WORD, .BD_THR_CYC] ||| State.countPass_touch |||
  State.dramUncorrFree_touch

theorem State.scanBlock_keeps (t : Task) (x : Version) (b : Block) (idBad : List ℕ) (s : State) : Keeps
    State.scanBlock_touch s (State.scanBlock t x b idBad s) := by
  unfold State.scanBlock
  extract_lets x1 x2 x3 x4 x5 x6 x7 x8 x9 x10 x11 x12 x13
  refine Keeps.after ?_ (State.queueReductions_keeps ..) (by decide +kernel)
  refine Keeps.after ?_ (State.setTask_keeps ..) (by decide +kernel)
  refine Keeps.forEach _ _ (fun a1 t1 => ?_) ?_
  · refine Keeps.after ?_ (State.dramUncorrFree_keeps ..) (by decide +kernel)
    exact Keeps.rfl
  · refine Keeps.forEach _ _ (fun a1 t1 => ?_) ?_
    · extract_lets x14
      refine Keeps.ite ?_ ?_
      · exact Keeps.rfl
      · refine Keeps.after ?_ (State.modQuery_keeps ..) (by decide +kernel)
        exact Keeps.rfl
    · refine Keeps.ite ?_ ?_
      · refine Keeps.bump ?_ (by decide +kernel)
        exact Keeps.rfl
      · refine Keeps.after ?_ (State.countDisabled_keeps ..) (by decide +kernel)
        refine Keeps.after ?_ (State.countPass_keeps ..) (by decide +kernel)
        exact Keeps.rfl

def State.skipBlock_touch : Nat := touchSet [.qry] [.BD_SKIP_ERROR]

theorem State.skipBlock_keeps (t : Task) (n : ℕ) (s : State) : Keeps State.skipBlock_touch s (State.skipBlock t n s) :=
    by
  unfold State.skipBlock
  refine Keeps.forEach _ _ (fun a1 t1 => ?_) ?_
  · refine Keeps.after ?_ (State.modQuery_keeps ..) (by decide +kernel)
    exact Keeps.rfl
  · refine Keeps.bump ?_ (by decide +kernel)
    exact Keeps.rfl

def execBlockScan_touch : Nat := touchSet [] [.BD_BLOCKS, .BD_FLT_QBM_BYTES, .BD_SKIP_ERROR, .BD_SKIP_SUMMARY,
  .BD_STATUS] ||| State.scanBlock_touch

theorem execBlockScan_ends (task : ℕ) (err : ScanErr) (s : State) : Ends execBlockScan_touch s (execBlockScan task err
    s) := by
  unfold execBlockScan
  split
  · refine Ends.next ?_
    exact Keeps.rfl
  · extract_lets x1 x2 x3
    split
    · refine Ends.next ?_
      exact Keeps.rfl
    · refine Ends.ite ?_ ?_
      · refine Ends.next ?_
        exact Keeps.rfl
      · extract_lets x4 x5
        split
        · refine Ends.next ?_
          refine Keeps.after ?_ (State.advance_keeps ..) (by decide +kernel)
          refine Keeps.after ?_ (State.skipBlock_keeps ..) (by decide +kernel)
          refine Keeps.after ?_ (State.dramUncorrAt_keeps ..) (by decide +kernel)
          refine Keeps.after ?_ (State.countScanRead_keeps ..) (by decide +kernel)
          refine Keeps.bump ?_ (by decide +kernel)
          exact Keeps.rfl
        · refine Ends.ite ?_ ?_
          · refine Ends.next ?_
            refine Keeps.after ?_ (State.advance_keeps ..) (by decide +kernel)
            refine Keeps.after ?_ (State.skipBlock_keeps ..) (by decide +kernel)
            refine Keeps.after ?_ (State.log_keeps ..) (by decide +kernel)
            refine Keeps.after ?_ (State.countScanRead_keeps ..) (by decide +kernel)
            refine Keeps.bump ?_ (by decide +kernel)
            exact Keeps.rfl
          · refine Ends.ite ?_ ?_
            · refine Ends.next ?_
              refine Keeps.after ?_ (State.advance_keeps ..) (by decide +kernel)
              refine Keeps.bump ?_ (by decide +kernel)
              refine Keeps.after ?_ (State.countScanRead_keeps ..) (by decide +kernel)
              refine Keeps.bump ?_ (by decide +kernel)
              exact Keeps.rfl
            · refine Ends.next ?_
              refine Keeps.after ?_ (State.advance_keeps ..) (by decide +kernel)
              refine Keeps.after ?_ (State.scanBlock_keeps ..) (by decide +kernel)
              refine Keeps.after ?_ (State.readWords_keeps ..) (by decide +kernel)
              refine Keeps.after ?_ (State.countScanRead_keeps ..) (by decide +kernel)
              refine Keeps.bump ?_ (by decide +kernel)
              exact Keeps.rfl

def execCheckpointDurable_touch : Nat := State.giveBack_touch

theorem execCheckpointDurable_ends (task : ℕ) (s : State) : Ends execCheckpointDurable_touch s (execCheckpointDurable
    task s) := by
  unfold execCheckpointDurable
  split
  · refine Ends.ite ?_ ?_
    · refine Ends.next ?_
      refine Keeps.after ?_ (State.giveBack_keeps ..) (by decide +kernel)
      exact Keeps.rfl
    · refine Ends.next ?_
      exact Keeps.rfl
  · refine Ends.next ?_
    exact Keeps.rfl

def execDieMergeFlush_touch : Nat := touchSet [.qry] [.SE_MG_FLUSHES, .SE_MG_STATUS] ||| State.noteSelect_touch

theorem execDieMergeFlush_ends (die : ℕ) (q : ℕ) (s : State) : Ends execDieMergeFlush_touch s (execDieMergeFlush die q
    s) := by
  unfold execDieMergeFlush
  refine Ends.ite ?_ ?_
  · refine Ends.next ?_
    exact Keeps.rfl
  · split
    · refine Ends.next ?_
      exact Keeps.rfl
    · refine Ends.ite ?_ ?_
      · extract_lets x1 x2 x3
        refine Ends.next ?_
        refine Keeps.after ?_ (State.noteMerge_keeps ..) (by decide +kernel)
        refine Keeps.after ?_ (State.setQuery_keeps ..) (by decide +kernel)
        refine Keeps.after ?_ (State.noteSelect_keeps ..) (by decide +kernel)
        refine Keeps.bump ?_ (by decide +kernel)
        exact Keeps.rfl
      · refine Ends.next ?_
        exact Keeps.rfl

def execDieMergePartial_touch : Nat := touchSet [.qry] [.SE_MG_ROWS, .SE_MG_STATUS] ||| State.noteSelect_touch

theorem execDieMergePartial_ends (die : ℕ) (s : State) : Ends execDieMergePartial_touch s (execDieMergePartial die s) :=
    by
  unfold execDieMergePartial
  refine Ends.ite ?_ ?_
  · refine Ends.next ?_
    exact Keeps.rfl
  · split
    · refine Ends.next ?_
      exact Keeps.rfl
    · extract_lets x1 x2
      split
      · refine Ends.next ?_
        refine Keeps.qry ?_ (by decide +kernel)
        exact Keeps.rfl
      · extract_lets x3 x4 x5 x6 x7 x8 x9 x10
        refine Ends.next ?_
        refine Keeps.after ?_ (State.noteMerge_keeps ..) (by decide +kernel)
        refine Keeps.ite ?_ ?_
        · refine Keeps.after ?_ (State.setQuery_keeps ..) (by decide +kernel)
          refine Keeps.after ?_ (State.progressed_keeps ..) (by decide +kernel)
          refine Keeps.bump ?_ (by decide +kernel)
          refine Keeps.qry ?_ (by decide +kernel)
          exact Keeps.rfl
        · refine Keeps.after ?_ (State.setQuery_keeps ..) (by decide +kernel)
          refine Keeps.after ?_ (State.noteSelect_keeps ..) (by decide +kernel)
          refine Keeps.bump ?_ (by decide +kernel)
          refine Keeps.after ?_ (State.progressed_keeps ..) (by decide +kernel)
          refine Keeps.bump ?_ (by decide +kernel)
          refine Keeps.qry ?_ (by decide +kernel)
          exact Keeps.rfl

def execHeldPairPost_touch : Nat := State.joinQueue_touch

theorem execHeldPairPost_ends (die : ℕ) (s : State) : Ends execHeldPairPost_touch s (execHeldPairPost die s) := by
  unfold execHeldPairPost
  extract_lets x1 x2
  split
  · refine Ends.next ?_
    exact Keeps.rfl
  · extract_lets x3
    refine Ends.next ?_
    refine Keeps.after ?_ (State.joinQueue_keeps ..) (by decide +kernel)
    refine Keeps.qry ?_ (by decide +kernel)
    exact Keeps.rfl

def execHomeMerge_touch : Nat := State.afterMerge_touch

theorem execHomeMerge_ends (q : ℕ) (sidecarErr : List ℕ) (idErr : List ℕ) (s : State) : Ends execHomeMerge_touch s
    (execHomeMerge q sidecarErr idErr s) := by
  unfold execHomeMerge
  split
  · refine Ends.next ?_
    exact Keeps.rfl
  · refine Ends.ite ?_ ?_
    · refine Ends.next ?_
      exact Keeps.rfl
    · refine Ends.ite ?_ ?_
      · refine Ends.next ?_
        refine Keeps.after ?_ (State.afterMerge_keeps ..) (by decide +kernel)
        exact Keeps.rfl
      · extract_lets x1 x2
        refine Ends.ite ?_ ?_
        · refine Ends.next ?_
          refine Keeps.after ?_ (State.afterMerge_keeps ..) (by decide +kernel)
          refine Keeps.after ?_ (State.setQuery_keeps ..) (by decide +kernel)
          refine Keeps.after ?_ (State.noteSelect_keeps ..) (by decide +kernel)
          exact Keeps.rfl
        · refine Ends.next ?_
          refine Keeps.after ?_ (State.afterMerge_keeps ..) (by decide +kernel)
          refine Keeps.after ?_ (State.setQuery_keeps ..) (by decide +kernel)
          exact Keeps.rfl

def execLaneReduction_touch : Nat := State.reduceLane_touch

theorem execLaneReduction_ends (band : ℕ) (s : State) : Ends execLaneReduction_touch s (execLaneReduction band s) := by
  unfold execLaneReduction
  split
  · refine Ends.next ?_
    exact Keeps.rfl
  · extract_lets x1 x2
    split
    · refine Ends.next ?_
      refine Keeps.after ?_ (State.reduceLane_keeps ..) (by decide +kernel)
      refine Keeps.qry ?_ (by decide +kernel)
      exact Keeps.rfl
    · refine Ends.next ?_
      refine Keeps.qry ?_ (by decide +kernel)
      exact Keeps.rfl

def execLaunchByExpiry_touch : Nat := touchSet [.now, .qry] []

theorem execLaunchByExpiry_ends (die : ℕ) (k : GKey) (s : State) : Ends execLaunchByExpiry_touch s (execLaunchByExpiry
    die k s) := by
  unfold execLaunchByExpiry
  split
  · refine Ends.next ?_
    refine Keeps.after ?_ (State.checkQueue_keeps ..) (by decide +kernel)
    refine Keeps.after ?_ (State.reach_keeps ..) (by decide +kernel)
    exact Keeps.rfl
  · refine Ends.next ?_
    exact Keeps.rfl

def execQueueLaunch_touch : Nat := touchSet [] [.BD_GQ_RESUMED] ||| State.launchPairs_touch

theorem execQueueLaunch_ends (die : ℕ) (k : GKey) (dirErr : Option (ℕ × ℕ)) (s : State) : Ends execQueueLaunch_touch s
    (execQueueLaunch die k dirErr s) := by
  unfold execQueueLaunch
  extract_lets x1
  split
  · refine Ends.next ?_
    exact Keeps.rfl
  · split
    · split
      · extract_lets x2
        refine Ends.next ?_
        refine Keeps.bump ?_ (by decide +kernel)
        refine Keeps.after ?_ (State.loadTask_keeps ..) (by decide +kernel)
        refine Keeps.after ?_ (State.setGq_keeps ..) (by decide +kernel)
        exact Keeps.rfl
      · refine Ends.next ?_
        refine Keeps.after ?_ (State.setGq_keeps ..) (by decide +kernel)
        exact Keeps.rfl
    · split
      · refine Ends.ite ?_ ?_
        · refine Ends.next ?_
          refine Keeps.after ?_ (State.launchPairs_keeps ..) (by decide +kernel)
          exact Keeps.rfl
        · refine Ends.next ?_
          exact Keeps.rfl
      · refine Ends.next ?_
        exact Keeps.rfl

def execTaskCheckpoint_touch : Nat := touchSet [] [.BD_CHECKPOINTS, .BD_STATUS, .TN_ACC_PREEMPT] |||
  State.reduceLane_touch

theorem execTaskCheckpoint_ends (task : ℕ) (s : State) : Ends execTaskCheckpoint_touch s (execTaskCheckpoint task s) :=
    by
  unfold execTaskCheckpoint
  split
  · refine Ends.next ?_
    exact Keeps.rfl
  · refine Ends.ite ?_ ?_
    · refine Ends.next ?_
      exact Keeps.rfl
    · split
      · refine Ends.next ?_
        refine Keeps.after ?_ (State.giveBack_keeps ..) (by decide +kernel)
        exact Keeps.rfl
      · extract_lets x1 x2 x3 x4 x5 x6 x7
        refine Ends.next ?_
        refine Keeps.bump ?_ (by decide +kernel)
        refine Keeps.bump ?_ (by decide +kernel)
        refine Keeps.after ?_ (State.noteBand_keeps ..) (by decide +kernel)
        refine Keeps.after ?_ (State.setTask_keeps ..) (by decide +kernel)
        refine Keeps.qry ?_ (by decide +kernel)
        refine Keeps.forEach _ _ (fun a1 t1 => ?_) ?_
        · split
          · refine Keeps.after ?_ (State.reduceLane_keeps ..) (by decide +kernel)
            exact Keeps.rfl
          · exact Keeps.rfl
        · exact Keeps.rfl
      · refine Ends.next ?_
        exact Keeps.rfl

def execTaskComplete_touch : Nat := touchSet [] [.BD_FLT_ALLOWED, .BD_STATUS] ||| State.report_touch

theorem execTaskComplete_ends (task : ℕ) (s : State) : Ends execTaskComplete_touch s (execTaskComplete task s) := by
  unfold execTaskComplete
  split
  · refine Ends.next ?_
    exact Keeps.rfl
  · refine Ends.ite ?_ ?_
    · refine Ends.next ?_
      exact Keeps.rfl
    · extract_lets x1 x2 x3 x4 x5 x6 x7
      refine Ends.next ?_
      refine Keeps.after ?_ (State.noteBand_keeps ..) (by decide +kernel)
      refine Keeps.forEach _ _ (fun a1 t1 => ?_) ?_
      · refine Keeps.after ?_ (State.report_keeps ..) (by decide +kernel)
        exact Keeps.rfl
      · refine Keeps.bump ?_ (by decide +kernel)
        refine Keeps.qry ?_ (by decide +kernel)
        refine Keeps.after ?_ (State.dropHold_keeps ..) (by decide +kernel)
        refine Keeps.after ?_ (State.dropTask_keeps ..) (by decide +kernel)
        exact Keeps.rfl

def execTileBind_touch : Nat := State.bindAll_touch

theorem execTileBind_ends (band : ℕ) (s : State) : Ends execTileBind_touch s (execTileBind band s) := by
  unfold execTileBind
  extract_lets x1
  refine Ends.next ?_
  refine Keeps.after ?_ (State.bindAll_keeps ..) (by decide +kernel)
  exact Keeps.rfl

end Sys2Proof.Machine
end

