-- ==== Sys2Proof/Laws/KeepEngines.lean ====
section
/-! SUPPORT. What each operation of Machine/Engines.lean can change. -/

namespace Sys2Proof.Machine

set_option Elab.async false

def State.rejoin_touch : Nat := touchSet [.qry] []

theorem State.rejoin_keeps (q : ℕ) (s : State) : Keeps State.rejoin_touch s (State.rejoin q s) := by
  unfold State.rejoin
  split
  · exact Keeps.rfl
  · refine Keeps.ite ?_ ?_
    · exact Keeps.rfl
    · refine Keeps.after ?_ (State.begin__keeps ..) (by decide +kernel)
      exact Keeps.rfl

def State.setEngine_touch : Nat := touchSet [.ras] []

theorem State.setEngine_keeps (e : ℕ) (i : ℕ) (x : Engine) (s : State) : Keeps State.setEngine_touch s (State.setEngine
    e i x s) := by
  unfold State.setEngine
  refine Keeps.ras ?_ (by decide +kernel) (Or.inl rfl)
  exact Keeps.rfl

def State.runParked_touch : Nat := touchSet [.idx, .ras] [] ||| State.loadTask_touch

theorem State.runParked_keeps (e : ℕ) (g : ℕ) (set : List ℕ) (id : ℕ) (s : State) : Keeps State.runParked_touch s
    (State.runParked e g set id s) := by
  unfold State.runParked
  split
  · exact Keeps.rfl
  · extract_lets x1 x2 x3 x4 x5
    refine Keeps.ite ?_ ?_
    · refine Keeps.after ?_ (State.dropHold_keeps ..) (by decide +kernel)
      refine Keeps.after ?_ (State.dropTask_keeps ..) (by decide +kernel)
      refine Keeps.after ?_ (State.setEngine_keeps ..) (by decide +kernel)
      exact Keeps.rfl
    · refine Keeps.ite ?_ ?_
      · exact Keeps.rfl
      · refine Keeps.ite ?_ ?_
        · refine Keeps.after ?_ (State.loadTask_keeps ..) (by decide +kernel)
          refine Keeps.after ?_ (State.setEngine_keeps ..) (by decide +kernel)
          exact Keeps.rfl
        · refine Keeps.after ?_ (State.holdList_keeps ..) (by decide +kernel)
          refine Keeps.after ?_ (State.loadTask_keeps ..) (by decide +kernel)
          refine Keeps.after ?_ (State.setTask_keeps ..) (by decide +kernel)
          exact Keeps.rfl

def State.runJobs_touch : Nat := State.drainReqQ_touch ||| State.runParked_touch

theorem State.runJobs_keeps (e : ℕ) (i : ℕ) (set : List ℕ) (s : State) : Keeps State.runJobs_touch s (State.runJobs e i
    set s) := by
  unfold State.runJobs
  split
  · refine Keeps.forEach _ _ (fun a1 t1 => ?_) ?_
    · refine Keeps.after ?_ (State.runParked_keeps ..) (by decide +kernel)
      exact Keeps.rfl
    · exact Keeps.rfl
  · refine Keeps.forEach _ _ (fun a1 t1 => ?_) ?_
    · refine Keeps.after ?_ (State.runParked_keeps ..) (by decide +kernel)
      exact Keeps.rfl
    · exact Keeps.rfl
  · refine Keeps.forEach _ _ (fun a1 t1 => ?_) ?_
    · refine Keeps.after ?_ (State.rejoin_keeps ..) (by decide +kernel)
      exact Keeps.rfl
    · exact Keeps.rfl
  · extract_lets x1 x2
    refine Keeps.qry ?_ (by decide +kernel)
    exact Keeps.rfl
  · refine Keeps.qry ?_ (by decide +kernel)
    exact Keeps.rfl
  · refine Keeps.after ?_ (State.drainReqQ_keeps ..) (by decide +kernel)
    exact Keeps.rfl
  · exact Keeps.rfl

def State.beginSet_touch : Nat := State.runJobs_touch

theorem State.beginSet_keeps (e : ℕ) (i : ℕ) (s : State) : Keeps State.beginSet_touch s (State.beginSet e i s) := by
  unfold State.beginSet
  split
  · exact Keeps.rfl
  · refine Keeps.after ?_ (State.runJobs_keeps ..) (by decide +kernel)
    exact Keeps.rfl

def State.markReplayed_touch : Nat := touchSet [.qry] [.HG_REPLAYED] ||| State.modCmd_touch

theorem State.markReplayed_keeps (q : ℕ) (s : State) : Keeps State.markReplayed_touch s (State.markReplayed q s) := by
  unfold State.markReplayed
  extract_lets x1 x2
  split
  · refine Keeps.after ?_ (State.modCmd_keeps ..) (by decide +kernel)
    refine Keeps.after ?_ (State.modQuery_keeps ..) (by decide +kernel)
    refine Keeps.bump ?_ (by decide +kernel)
    exact Keeps.rfl
  · refine Keeps.after ?_ (State.modQuery_keeps ..) (by decide +kernel)
    refine Keeps.bump ?_ (by decide +kernel)
    exact Keeps.rfl

def State.setSets'_touch : Nat := touchSet [.ras] []

theorem State.setSets'_keeps (e : ℕ) (i : ℕ) (sets : List (List ℕ)) (s : State) : Keeps State.setSets'_touch s
    (State.setSets' e i sets s) := by
  unfold State.setSets'
  refine Keeps.after ?_ (State.setEngine_keeps ..) (by decide +kernel)
  exact Keeps.rfl

def State.endSet_touch : Nat := State.beginSet_touch ||| State.markReplayed_touch

theorem State.endSet_keeps (e : ℕ) (i : ℕ) (t : List ℕ) (rest : List (List ℕ)) (s : State) : Keeps State.endSet_touch s
    (State.endSet e i t rest s) := by
  unfold State.endSet
  refine Keeps.after ?_ (State.beginSet_keeps ..) (by decide +kernel)
  refine Keeps.after ?_ (State.setSets'_keeps ..) (by decide +kernel)
  refine Keeps.forEach _ _ (fun a1 t1 => ?_) ?_
  · refine Keeps.after ?_ (State.markReplayed_keeps ..) (by decide +kernel)
    exact Keeps.rfl
  · exact Keeps.rfl

def State.parkBand_touch : Nat := touchSet [.qry, .ras] [.BD_STATUS]

theorem State.parkBand_keeps (e : ℕ) (g : ℕ) (s : State) : Keeps State.parkBand_touch s (State.parkBand e g s) := by
  unfold State.parkBand
  extract_lets x1 x2 x3 x4 x5 x6
  refine Keeps.after ?_ (State.noteBand_keeps ..) (by decide +kernel)
  refine Keeps.qry ?_ (by decide +kernel)
  refine Keeps.after ?_ (State.setEngine_keeps ..) (by decide +kernel)
  refine Keeps.forEach _ _ (fun a1 t1 => ?_) ?_
  · subst x2
    beta_reduce
    refine Keeps.after ?_ (State.setTask_keeps ..) (by decide +kernel)
    exact Keeps.rfl
  · exact Keeps.rfl

def State.purgeFlash_touch : Nat := touchSet [.fl] []

theorem State.purgeFlash_keeps (q : ℕ) (s : State) : Keeps State.purgeFlash_touch s (State.purgeFlash q s) := by
  unfold State.purgeFlash
  extract_lets x1 x2 x3
  refine Keeps.fl ?_ (by decide +kernel)
  exact Keeps.rfl

def State.withdraw_touch : Nat := touchSet [.fl] [.SE_MG_STATUS, .XT_RGN_CTL] ||| State.clearWork_touch

theorem State.withdraw_keeps (q : ℕ) (s : State) : Keeps State.withdraw_touch s (State.withdraw q s) := by
  unfold State.withdraw
  split
  · exact Keeps.rfl
  · extract_lets x1 x2
    refine Keeps.forEach _ _ (fun a1 t1 => ?_) ?_
    · refine Keeps.after ?_ (State.noteMerge_keeps ..) (by decide +kernel)
      exact Keeps.rfl
    · refine Keeps.after ?_ (State.setQuery_keeps ..) (by decide +kernel)
      refine Keeps.after ?_ (State.closeRegion_keeps ..) (by decide +kernel)
      refine Keeps.after ?_ (State.purgeFlash_keeps ..) (by decide +kernel)
      refine Keeps.after ?_ (State.clearWork_keeps ..) (by decide +kernel)
      exact Keeps.rfl

def State.parkJobs_touch : Nat := touchSet [.net, .tbl] [.BD_STATUS] ||| State.replayCh_touch ||| State.withdraw_touch
  ||| State.noteChan_touch

theorem State.parkJobs_keeps (e : ℕ) (i : ℕ) (jobs : List ℕ) (s : State) : Keeps State.parkJobs_touch s (State.parkJobs
    e i jobs s) := by
  unfold State.parkJobs
  split
  · refine Keeps.after ?_ (State.parkBand_keeps ..) (by decide +kernel)
    exact Keeps.rfl
  · refine Keeps.after ?_ (State.parkBand_keeps ..) (by decide +kernel)
    exact Keeps.rfl
  · refine Keeps.forEach _ _ (fun a1 t1 => ?_) ?_
    · refine Keeps.after ?_ (State.withdraw_keeps ..) (by decide +kernel)
      exact Keeps.rfl
    · exact Keeps.rfl
  · refine Keeps.qry ?_ (by decide +kernel)
    exact Keeps.rfl
  · refine Keeps.qry ?_ (by decide +kernel)
    exact Keeps.rfl
  · refine Keeps.tbl ?_ (by decide +kernel)
    exact Keeps.rfl
  · extract_lets x1 x2 x3
    refine Keeps.after ?_ (State.noteChan_keeps ..) (by decide +kernel)
    refine Keeps.after ?_ (State.setChan_keeps ..) (by decide +kernel)
    exact Keeps.rfl
  · extract_lets x1 x2 x3
    refine Keeps.after ?_ (State.setChan_keeps ..) (by decide +kernel)
    refine Keeps.after ?_ (State.replayCh_keeps ..) (by decide +kernel)
    exact Keeps.rfl
  · exact Keeps.rfl
  · extract_lets x1 x2 x3 x4
    refine Keeps.net ?_ (by decide +kernel)
    exact Keeps.rfl

def State.prepareReplay_touch : Nat := State.parkJobs_touch

theorem State.prepareReplay_keeps (e : ℕ) (i : ℕ) (jobs : List ℕ) (s : State) : Keeps State.prepareReplay_touch s
    (State.prepareReplay e i jobs s) := by
  unfold State.prepareReplay
  refine Keeps.after ?_ (State.setSets'_keeps ..) (by decide +kernel)
  refine Keeps.after ?_ (State.parkJobs_keeps ..) (by decide +kernel)
  exact Keeps.rfl

def State.engineMiss_touch : Nat := touchSet [] [.HG_MISSES] ||| State.prepareReplay_touch ||| State.beginSet_touch

theorem State.engineMiss_keeps (e : ℕ) (i : ℕ) (s : State) : Keeps State.engineMiss_touch s (State.engineMiss e i s) :=
    by
  unfold State.engineMiss
  extract_lets x1 x2 x3 x4
  refine Keeps.after ?_ (State.beginSet_keeps ..) (by decide +kernel)
  refine Keeps.after ?_ (State.prepareReplay_keeps ..) (by decide +kernel)
  refine Keeps.bump ?_ (by decide +kernel)
  refine Keeps.after ?_ (State.log_keeps ..) (by decide +kernel)
  exact Keeps.rfl

def State.sampleOne_touch : Nat := State.engineMiss_touch

theorem State.sampleOne_keeps (e : ℕ) (i : ℕ) (s : State) : Keeps State.sampleOne_touch s (State.sampleOne e i s) := by
  unfold State.sampleOne
  extract_lets x1 x2 x3 x4
  refine Keeps.ite ?_ ?_
  · refine Keeps.after ?_ (State.engineMiss_keeps ..) (by decide +kernel)
    refine Keeps.after ?_ (State.setEngine_keeps ..) (by decide +kernel)
    exact Keeps.rfl
  · refine Keeps.after ?_ (State.setEngine_keeps ..) (by decide +kernel)
    exact Keeps.rfl

def State.splitSet_touch : Nat := touchSet [] [.HG_MISSES, .HG_TORN] ||| State.tearJobFor_touch ||| State.beginSet_touch
  ||| State.parkJobs_touch

theorem State.splitSet_keeps (e : ℕ) (i : ℕ) (live : List ℕ) (rest : List (List ℕ)) (s : State) : Keeps
    State.splitSet_touch s (State.splitSet e i live rest s) := by
  unfold State.splitSet
  extract_lets x1 x2 x3 x4 x5 x6
  split
  · extract_lets x7 x8 x9 x10
    refine Keeps.after ?_ (State.beginSet_keeps ..) (by decide +kernel)
    refine Keeps.after ?_ (State.setSets'_keeps ..) (by decide +kernel)
    refine Keeps.after ?_ (State.tearJobFor_keeps ..) (by decide +kernel)
    refine Keeps.bump ?_ (by decide +kernel)
    refine Keeps.after ?_ (State.log_keeps ..) (by decide +kernel)
    refine Keeps.after ?_ (State.parkJobs_keeps ..) (by decide +kernel)
    refine Keeps.bump ?_ (by decide +kernel)
    exact Keeps.rfl
  · refine Keeps.after ?_ (State.beginSet_keeps ..) (by decide +kernel)
    refine Keeps.after ?_ (State.setSets'_keeps ..) (by decide +kernel)
    refine Keeps.after ?_ (State.parkJobs_keeps ..) (by decide +kernel)
    refine Keeps.bump ?_ (by decide +kernel)
    exact Keeps.rfl

def execWatchdogSample_touch : Nat := touchSet [.now] [] ||| State.sampleOne_touch

theorem execWatchdogSample_ends (e : ℕ) (s : State) : Ends execWatchdogSample_touch s (execWatchdogSample e s) := by
  unfold execWatchdogSample
  refine Ends.ite ?_ ?_
  · refine Ends.next ?_
    exact Keeps.rfl
  · extract_lets x1 x2 x3
    refine Ends.next ?_
    refine Keeps.forEach _ _ (fun a1 t1 => ?_) ?_
    · refine Keeps.after ?_ (State.sampleOne_keeps ..) (by decide +kernel)
      exact Keeps.rfl
    · refine Keeps.ras ?_ (by decide +kernel) (Or.inl rfl)
      refine Keeps.after ?_ (State.reach_keeps ..) (by decide +kernel)
      exact Keeps.rfl

end Sys2Proof.Machine
end

