-- ==== Sys2Proof/Laws/KeepGauntlet.lean ====
section
/-! SUPPORT. What each operation of Machine/Gauntlet.lean can change. -/

namespace Sys2Proof.Machine

set_option Elab.async false

def State.logGauntlet_touch : Nat := State.log_touch

theorem State.logGauntlet_keeps (key : W64) (origin : ℕ) (status : ℕ) (s : State) : Keeps State.logGauntlet_touch s
    (State.logGauntlet key origin status s) := by
  unfold State.logGauntlet
  refine Keeps.after ?_ (State.log_keeps ..) (by decide +kernel)
  exact Keeps.rfl

def State.abortGroup_touch : Nat := State.tearGroup_touch

theorem State.abortGroup_keeps (conn : ℕ) (g : GroupJob) (origin : ℕ) (status : ℕ) (s : State) : Keeps
    State.abortGroup_touch s (State.abortGroup conn g origin status s) := by
  unfold State.abortGroup
  extract_lets x1 x2 x3
  refine Keeps.after ?_ (State.tearGroup_keeps ..) (by decide +kernel)
  refine Keeps.after ?_ (State.setGroup_keeps ..) (by decide +kernel)
  refine Keeps.forEach _ _ (fun a1 t1 => ?_) ?_
  · refine Keeps.after ?_ (State.sendGauntlet_keeps ..) (by decide +kernel)
    exact Keeps.rfl
  · refine Keeps.after ?_ (State.logGauntlet_keeps ..) (by decide +kernel)
    exact Keeps.rfl

def State.dropHeld_touch : Nat := touchSet [.ten] []

theorem State.dropHeld_keeps (key : W64) (s : State) : Keeps State.dropHeld_touch s (State.dropHeld key s) := by
  unfold State.dropHeld
  extract_lets x1 x2
  refine Keeps.ten ?_ (by decide +kernel)
  exact Keeps.rfl

def State.enterAborted_touch : Nat := touchSet [.ras] []

theorem State.enterAborted_keeps (key : W64) (s : State) : Keeps State.enterAborted_touch s (State.enterAborted key s)
    := by
  unfold State.enterAborted
  extract_lets x1 x2
  refine Keeps.ras ?_ (by decide +kernel) (Or.inl rfl)
  exact Keeps.rfl

def State.abortPart_touch : Nat := State.tearCmd_touch

theorem State.abortPart_keeps (key : W64) (origin : ℕ) (status : ℕ) (s : State) : Keeps State.abortPart_touch s
    (State.abortPart key origin status s) := by
  unfold State.abortPart
  refine Keeps.ite ?_ ?_
  · exact Keeps.rfl
  · extract_lets x1 x2
    refine Keeps.after ?_ (State.dropHeld_keeps ..) (by decide +kernel)
    refine Keeps.after ?_ (State.undoKept_keeps ..) (by decide +kernel)
    refine Keeps.forEach _ _ (fun a1 t1 => ?_) ?_
    · refine Keeps.after ?_ (State.tearCmd_keeps ..) (by decide +kernel)
      exact Keeps.rfl
    · refine Keeps.after ?_ (State.logGauntlet_keeps ..) (by decide +kernel)
      refine Keeps.after ?_ (State.enterAborted_keeps ..) (by decide +kernel)
      exact Keeps.rfl

def State.gauntletIn_touch : Nat := touchSet [] [.HG_GAUNTLET_RX] ||| State.abortPart_touch

theorem State.gauntletIn_keeps (conn : ℕ) (data : List Byte) (s : State) : Keeps State.gauntletIn_touch s
    (State.gauntletIn conn data s) := by
  unfold State.gauntletIn
  extract_lets x1 x2 x3 x4 x5
  refine Keeps.ite ?_ ?_
  · refine Keeps.after ?_ (State.dropKept_keeps ..) (by decide +kernel)
    refine Keeps.bump ?_ (by decide +kernel)
    exact Keeps.rfl
  · refine Keeps.ite ?_ ?_
    · split
      · refine Keeps.after ?_ (State.abortGroup_keeps ..) (by decide +kernel)
        refine Keeps.bump ?_ (by decide +kernel)
        exact Keeps.rfl
      · refine Keeps.ite ?_ ?_
        · refine Keeps.after ?_ (State.logGauntlet_keeps ..) (by decide +kernel)
          refine Keeps.bump ?_ (by decide +kernel)
          exact Keeps.rfl
        · refine Keeps.after ?_ (State.abortPart_keeps ..) (by decide +kernel)
          refine Keeps.bump ?_ (by decide +kernel)
          exact Keeps.rfl
    · refine Keeps.bump ?_ (by decide +kernel)
      exact Keeps.rfl

def execAbortedKeyExpiry_touch : Nat := touchSet [.now, .ras] []

theorem execAbortedKeyExpiry_ends (s : State) : Ends execAbortedKeyExpiry_touch s (execAbortedKeyExpiry s) := by
  unfold execAbortedKeyExpiry
  split
  · refine Ends.next ?_
    exact Keeps.rfl
  · extract_lets x1 x2
    refine Ends.next ?_
    refine Keeps.ras ?_ (by decide +kernel) (Or.inl rfl)
    refine Keeps.after ?_ (State.reach_keeps ..) (by decide +kernel)
    exact Keeps.rfl

end Sys2Proof.Machine
end

