-- ==== Sys2Proof/Laws/KeepTiers.lean ====
section
/-! SUPPORT. What each operation of Machine/Tiers.lean can change. -/

namespace Sys2Proof.Machine

set_option Elab.async false

def State.joinMove_touch : Nat := touchSet [.idx] []

theorem State.joinMove_keeps (c : ℕ) (k : ℕ) (cl : ℕ) (m : Cmd) (s : State) : Keeps State.joinMove_touch s
    (State.joinMove c k cl m s) := by
  unfold State.joinMove
  refine Keeps.after ?_ (State.modList_keeps ..) (by decide +kernel)
  exact Keeps.rfl

def State.admitDemote_touch : Nat := touchSet [] [.TN_RES_OVERRIDDEN] ||| State.gFinish_touch |||
  State.beginDemotion_touch

theorem State.admitDemote_keeps (c : ℕ) (m : Cmd) (s : State) : Keeps State.admitDemote_touch s (State.admitDemote c m
    s) := by
  unfold State.admitDemote
  extract_lets x1 x2 x3 x4 x5 x6 x7 x8
  refine Keeps.ite ?_ ?_
  · refine Keeps.after ?_ (State.finish_keeps ..) (by decide +kernel)
    exact Keeps.rfl
  · split
    · refine Keeps.ite ?_ ?_
      · refine Keeps.after ?_ (State.beginDemotion_keeps ..) (by decide +kernel)
        exact Keeps.rfl
      · refine Keeps.after ?_ (State.finish_keeps ..) (by decide +kernel)
        refine Keeps.after ?_ (State.beginDemotion_keeps ..) (by decide +kernel)
        exact Keeps.rfl
    · refine Keeps.after ?_ (State.gFinish_keeps ..) (by decide +kernel)
      refine Keeps.bump ?_ (by decide +kernel)
      exact Keeps.rfl
    · refine Keeps.after ?_ (State.joinMove_keeps ..) (by decide +kernel)
      exact Keeps.rfl
    · refine Keeps.after ?_ (State.gFinish_keeps ..) (by decide +kernel)
      exact Keeps.rfl

def State.logGrant_touch : Nat := touchSet [.freeCount] [] ||| State.log_touch

theorem State.logGrant_keeps (g : ℕ) (s : State) : Keeps State.logGrant_touch s (State.logGrant g s) := by
  unfold State.logGrant
  refine Keeps.after ?_ (State.log_keeps ..) (by decide +kernel)
  refine Keeps.after ?_ (State.draw_keeps ..) (by decide +kernel)
  exact Keeps.rfl

def State.promoteLost_touch : Nat := touchSet [] [.TN_PF_FAILED] ||| State.finish_touch

theorem State.promoteLost_keeps (c : ℕ) (seq : ℕ) (t : ℕ) (l : IList) (s : State) : Keeps State.promoteLost_touch s
    (State.promoteLost c seq t l s) := by
  unfold State.promoteLost
  extract_lets x1
  refine Keeps.after ?_ (State.finish_keeps ..) (by decide +kernel)
  refine Keeps.after ?_ (State.logGrant_keeps ..) (by decide +kernel)
  refine Keeps.bump ?_ (by decide +kernel)
  refine Keeps.after ?_ (State.draw_keeps ..) (by decide +kernel)
  exact Keeps.rfl

def State.admitPromote_touch : Nat := touchSet [] [.TN_PF_FAILED] ||| State.takeover_touch

theorem State.admitPromote_keeps (c : ℕ) (m : Cmd) (s : State) : Keeps State.admitPromote_touch s (State.admitPromote c
    m s) := by
  unfold State.admitPromote
  extract_lets x1 x2 x3 x4 x5 x6
  refine Keeps.ite ?_ ?_
  · refine Keeps.after ?_ (State.finish_keeps ..) (by decide +kernel)
    exact Keeps.rfl
  · split
    · refine Keeps.after ?_ (State.gFinish_keeps ..) (by decide +kernel)
      exact Keeps.rfl
    · refine Keeps.after ?_ (State.joinMove_keeps ..) (by decide +kernel)
      exact Keeps.rfl
    · refine Keeps.ite ?_ ?_
      · refine Keeps.after ?_ (State.gFinish_keeps ..) (by decide +kernel)
        refine Keeps.after ?_ (State.takeover_keeps ..) (by decide +kernel)
        exact Keeps.rfl
      · refine Keeps.after ?_ (State.finish_keeps ..) (by decide +kernel)
        refine Keeps.bump ?_ (by decide +kernel)
        refine Keeps.after ?_ (State.takeover_keeps ..) (by decide +kernel)
        exact Keeps.rfl
    · refine Keeps.ite ?_ ?_
      · refine Keeps.after ?_ (State.promoteLost_keeps ..) (by decide +kernel)
        exact Keeps.rfl
      · refine Keeps.ite ?_ ?_
        · refine Keeps.after ?_ (State.joinMove_keeps ..) (by decide +kernel)
          refine Keeps.after ?_ (State.startPromotion_keeps ..) (by decide +kernel)
          exact Keeps.rfl
        · refine Keeps.after ?_ (State.finish_keeps ..) (by decide +kernel)
          refine Keeps.after ?_ (State.startPromotion_keeps ..) (by decide +kernel)
          exact Keeps.rfl

def State.admitSchedule_touch : Nat := touchSet [.idx] [] ||| State.gFinish_touch

theorem State.admitSchedule_keeps (readOk : Bool) (c : ℕ) (m : Cmd) (s : State) : Keeps State.admitSchedule_touch s
    (State.admitSchedule readOk c m s) := by
  unfold State.admitSchedule
  extract_lets x1 x2 x3 x4 x5 x6 x7
  refine Keeps.ite ?_ ?_
  · refine Keeps.after ?_ (State.finish_keeps ..) (by decide +kernel)
    exact Keeps.rfl
  · refine Keeps.ite ?_ ?_
    · refine Keeps.after ?_ (State.finish_keeps ..) (by decide +kernel)
      refine Keeps.after ?_ (State.hostDmaErr_keeps ..) (by decide +kernel)
      refine Keeps.after ?_ (State.draw_keeps ..) (by decide +kernel)
      exact Keeps.rfl
    · refine Keeps.ite ?_ ?_
      · refine Keeps.after ?_ (State.gFinish_keeps ..) (by decide +kernel)
        refine Keeps.after ?_ (State.modVersion_keeps ..) (by decide +kernel)
        exact Keeps.rfl
      · refine Keeps.after ?_ (State.finish_keeps ..) (by decide +kernel)
        exact Keeps.rfl

def State.clearWrs_touch : Nat := touchSet [.idx, .net] []

theorem State.clearWrs_keeps (k : ℕ) (cl : ℕ) (s : State) : Keeps State.clearWrs_touch s (State.clearWrs k cl s) := by
  unfold State.clearWrs
  extract_lets x1 x2 x3
  refine Keeps.after ?_ (State.modList_keeps ..) (by decide +kernel)
  refine Keeps.net ?_ (by decide +kernel)
  exact Keeps.rfl

def State.becomeResident_touch : Nat := touchSet [] [.GE_PF_BYTES_UP, .GE_PF_WAIT_NS, .TN_ACC_DRAM_BYTES,
  .TN_ACC_FLASH_READS, .TN_ACC_REMOTE_BYTES] ||| State.endMovers_touch

theorem State.becomeResident_keeps (k : ℕ) (cl : ℕ) (blocks : List Block) (s : State) : Keeps State.becomeResident_touch
    s (State.becomeResident k cl blocks s) := by
  unfold State.becomeResident
  extract_lets x1 x2 x3 x4 x5 x6 x7 x8 x9
  refine Keeps.after ?_ (State.endMovers_keeps ..) (by decide +kernel)
  refine Keeps.ite ?_ ?_
  · refine Keeps.bump ?_ (by decide +kernel)
    refine Keeps.bump ?_ (by decide +kernel)
    refine Keeps.bump ?_ (by decide +kernel)
    refine Keeps.bump ?_ (by decide +kernel)
    refine Keeps.after ?_ (State.modList_keeps ..) (by decide +kernel)
    refine Keeps.after ?_ (State.rewriteHeaders_keeps ..) (by decide +kernel)
    refine Keeps.after ?_ (State.clearWrs_keeps ..) (by decide +kernel)
    refine Keeps.after ?_ (State.modList_keeps ..) (by decide +kernel)
    exact Keeps.rfl
  · refine Keeps.bump ?_ (by decide +kernel)
    refine Keeps.bump ?_ (by decide +kernel)
    refine Keeps.bump ?_ (by decide +kernel)
    refine Keeps.bump ?_ (by decide +kernel)
    refine Keeps.after ?_ (State.modList_keeps ..) (by decide +kernel)
    refine Keeps.after ?_ (State.rewriteHeaders_keeps ..) (by decide +kernel)
    refine Keeps.after ?_ (State.clearWrs_keeps ..) (by decide +kernel)
    refine Keeps.after ?_ (State.modList_keeps ..) (by decide +kernel)
    exact Keeps.rfl

def State.removeListPairs_touch : Nat := touchSet [] [.BD_GQ_NOCTX_NS] ||| State.settleScan_touch

theorem State.removeListPairs_keeps (k : ℕ) (cl : ℕ) (s : State) : Keeps State.removeListPairs_touch s
    (State.removeListPairs k cl s) := by
  unfold State.removeListPairs
  extract_lets x1 x2 x3 x4 x5
  refine Keeps.forEach _ _ (fun a1 t1 => ?_) ?_
  · refine Keeps.after ?_ (State.resumeShadows_keeps ..) (by decide +kernel)
    exact Keeps.rfl
  · refine Keeps.forEach _ _ (fun a1 t1 => ?_) ?_
    · refine Keeps.after ?_ (State.settleScan_keeps ..) (by decide +kernel)
      refine Keeps.after ?_ (State.pairGone_keeps ..) (by decide +kernel)
      exact Keeps.rfl
    · refine Keeps.after ?_ (State.takeOut_keeps ..) (by decide +kernel)
      refine Keeps.qry ?_ (by decide +kernel)
      exact Keeps.rfl

def State.loseLists_touch : Nat := touchSet [] [.TN_RG_LISTS_LOST] ||| State.removeListPairs_touch

theorem State.loseLists_keeps (g : ℕ) (s : State) : Keeps State.loseLists_touch s (State.loseLists g s) := by
  unfold State.loseLists
  extract_lets x1
  refine Keeps.forEach _ _ (fun a1 t1 => ?_) ?_
  · refine Keeps.after ?_ (State.removeListPairs_keeps ..) (by decide +kernel)
    refine Keeps.bump ?_ (by decide +kernel)
    refine Keeps.after ?_ (State.modList_keeps ..) (by decide +kernel)
    exact Keeps.rfl
  · exact Keeps.rfl

def State.failGrant_touch : Nat := touchSet [] [.TN_RG, .TN_RG_FAILED] ||| State.loseLists_touch

theorem State.failGrant_keeps (g : ℕ) (cause : ℕ) (s : State) : Keeps State.failGrant_touch s (State.failGrant g cause
    s) := by
  unfold State.failGrant
  refine Keeps.ite ?_ ?_
  · extract_lets x1
    refine Keeps.after ?_ (State.loseLists_keeps ..) (by decide +kernel)
    refine Keeps.bump ?_ (by decide +kernel)
    refine Keeps.after ?_ (State.log_keeps ..) (by decide +kernel)
    refine Keeps.setFld ?_ (by decide +kernel)
    exact Keeps.rfl
  · exact Keeps.rfl

def State.failGrants_touch : Nat := State.failGrant_touch

theorem State.failGrants_keeps (p : ℕ → Bool) (s : State) : Keeps State.failGrants_touch s (State.failGrants p s) := by
  unfold State.failGrants
  refine Keeps.forEach _ _ (fun a1 t1 => ?_) ?_
  · refine Keeps.after ?_ (State.failGrant_keeps ..) (by decide +kernel)
    refine Keeps.after ?_ (State.draw_keeps ..) (by decide +kernel)
    exact Keeps.rfl
  · exact Keeps.rfl

def State.logPromo_touch : Nat := State.dramUncorrFree_touch

theorem State.logPromo_keeps (l : IList) (f : ℕ) (s : State) : Keeps State.logPromo_touch s (State.logPromo l f s) := by
  unfold State.logPromo
  extract_lets x1
  refine Keeps.ite ?_ ?_
  · refine Keeps.after ?_ (State.dramUncorrFree_keeps ..) (by decide +kernel)
    exact Keeps.rfl
  · refine Keeps.ite ?_ ?_
    · refine Keeps.after ?_ (State.log_keeps ..) (by decide +kernel)
      exact Keeps.rfl
    · refine Keeps.after ?_ (State.log_keeps ..) (by decide +kernel)
      exact Keeps.rfl

def State.noteLow_touch : Nat := State.noteDegraded_touch

theorem State.noteLow_keeps (tenant : ℕ) (ch : ℕ) (lsn : ℕ) (s : State) : Keeps State.noteLow_touch s (State.noteLow
    tenant ch lsn s) := by
  unfold State.noteLow
  extract_lets x1 x2 x3
  refine Keeps.ite ?_ ?_
  · refine Keeps.ite ?_ ?_
    · refine Keeps.after ?_ (State.touch_keeps ..) (by decide +kernel)
      refine Keeps.after ?_ (State.setChan_keeps ..) (by decide +kernel)
      exact Keeps.rfl
    · exact Keeps.rfl
  · refine Keeps.after ?_ (State.noteDegraded_keeps ..) (by decide +kernel)
    refine Keeps.ite ?_ ?_
    · refine Keeps.after ?_ (State.touch_keeps ..) (by decide +kernel)
      refine Keeps.after ?_ (State.setChan_keeps ..) (by decide +kernel)
      exact Keeps.rfl
    · exact Keeps.rfl

def State.noteLows_touch : Nat := State.noteLow_touch

theorem State.noteLows_keeps (k : ℕ) (l : IList) (s : State) : Keeps State.noteLows_touch s (State.noteLows k l s) := by
  unfold State.noteLows
  extract_lets x1
  refine Keeps.forEach _ _ (fun a1 t1 => ?_) ?_
  · refine Keeps.forEach _ _ (fun a2 t2 => ?_) ?_
    · refine Keeps.after ?_ (State.noteLow_keeps ..) (by decide +kernel)
      exact Keeps.rfl
    · exact Keeps.rfl
  · exact Keeps.rfl

def State.promotionFailed_touch : Nat := touchSet [] [.TN_PF_FAILED, .TN_RG_LISTS_LOST] ||| State.removeListPairs_touch
  ||| State.logPromo_touch

theorem State.promotionFailed_keeps (k : ℕ) (cl : ℕ) (known : Bool) (s : State) : Keeps State.promotionFailed_touch s
    (State.promotionFailed k cl known s) := by
  unfold State.promotionFailed
  extract_lets x1 x2 x3 x4 x5 x6 x7 x8
  refine Keeps.after ?_ (State.endMovers_keeps ..) (by decide +kernel)
  refine Keeps.after ?_ (State.removeListPairs_keeps ..) (by decide +kernel)
  refine Keeps.after ?_ (State.rewriteHeaders_keeps ..) (by decide +kernel)
  refine Keeps.after ?_ (State.modList_keeps ..) (by decide +kernel)
  refine Keeps.after ?_ (State.clearWrs_keeps ..) (by decide +kernel)
  refine Keeps.ite ?_ ?_
  · refine Keeps.bump ?_ (by decide +kernel)
    refine Keeps.bump ?_ (by decide +kernel)
    refine Keeps.after ?_ (State.dropCharge_keeps ..) (by decide +kernel)
    refine Keeps.ite ?_ ?_
    · refine Keeps.after ?_ (State.logGrant_keeps ..) (by decide +kernel)
      refine Keeps.after ?_ (State.draw_keeps ..) (by decide +kernel)
      exact Keeps.rfl
    · refine Keeps.ite ?_ ?_
      · refine Keeps.after ?_ (State.draw_keeps ..) (by decide +kernel)
        exact Keeps.rfl
      · refine Keeps.after ?_ (State.logPromo_keeps ..) (by decide +kernel)
        refine Keeps.after ?_ (State.draw_keeps ..) (by decide +kernel)
        exact Keeps.rfl
  · refine Keeps.bump ?_ (by decide +kernel)
    refine Keeps.after ?_ (State.dropCharge_keeps ..) (by decide +kernel)
    refine Keeps.ite ?_ ?_
    · refine Keeps.after ?_ (State.logGrant_keeps ..) (by decide +kernel)
      refine Keeps.after ?_ (State.draw_keeps ..) (by decide +kernel)
      exact Keeps.rfl
    · refine Keeps.ite ?_ ?_
      · refine Keeps.after ?_ (State.draw_keeps ..) (by decide +kernel)
        exact Keeps.rfl
      · refine Keeps.after ?_ (State.logPromo_keeps ..) (by decide +kernel)
        refine Keeps.after ?_ (State.draw_keeps ..) (by decide +kernel)
        exact Keeps.rfl

def State.stopDemotion_touch : Nat := State.endMovers_touch

theorem State.stopDemotion_keeps (k : ℕ) (cl : ℕ) (status : ℕ) (some' : Bool) (s : State) : Keeps
    State.stopDemotion_touch s (State.stopDemotion k cl status some' s) := by
  unfold State.stopDemotion
  extract_lets x1 x2
  refine Keeps.after ?_ (State.endMovers_keeps ..) (by decide +kernel)
  refine Keeps.after ?_ (State.modList_keeps ..) (by decide +kernel)
  refine Keeps.after ?_ (State.pruneWrs_keeps ..) (by decide +kernel)
  exact Keeps.rfl

def execDemote_touch : Nat := State.admitDemote_touch ||| State.admitBad_touch

theorem execDemote_ends (c : ℕ) (s : State) : Ends execDemote_touch s (execDemote c s) := by
  unfold execDemote
  refine Ends.next ?_
  refine Keeps.after ?_ (State.admitBad_keeps ..) (by decide +kernel)
  refine State.admitFront_keeps (by decide +kernel) (fun a01 t1 => ?_) ?_
  · refine Keeps.after ?_ (State.admitDemote_keeps ..) (by decide +kernel)
    exact Keeps.rfl
  · exact Keeps.rfl

def execDemotionComplete_touch : Nat := touchSet [] [.TN_QUOTA_USED] ||| State.endMovers_touch

theorem execDemotionComplete_ends (n : ℕ) (v : ℕ) (cluster : ℕ) (refused : Option ℕ) (s : State) : Ends
    execDemotionComplete_touch s (execDemotionComplete n v cluster refused s) := by
  unfold execDemotionComplete
  extract_lets x1 x2 x3 x4 x5 x6
  refine Ends.ite ?_ ?_
  · refine Ends.next ?_
    exact Keeps.rfl
  · split
    · refine Ends.next ?_
      refine Keeps.after ?_ (State.stopDemotion_keeps ..) (by decide +kernel)
      exact Keeps.rfl
    · refine Ends.ite ?_ ?_
      · refine Ends.next ?_
        refine Keeps.after ?_ (State.stopDemotion_keeps ..) (by decide +kernel)
        exact Keeps.rfl
      · refine Ends.ite ?_ ?_
        · refine Ends.next ?_
          exact Keeps.rfl
        · refine Ends.next ?_
          refine Keeps.after ?_ (State.endMovers_keeps ..) (by decide +kernel)
          refine Keeps.after ?_ (State.clearWrs_keeps ..) (by decide +kernel)
          refine Keeps.after ?_ (State.modList_keeps ..) (by decide +kernel)
          refine Keeps.after ?_ (State.dropCharge_keeps ..) (by decide +kernel)
          refine Keeps.after ?_ (State.rewriteHeaders_keeps ..) (by decide +kernel)
          exact Keeps.rfl

def execGrantFailed_touch : Nat := State.failGrant_touch

theorem execGrantFailed_ends (g : ℕ) (how : GrantEnd) (s : State) : Ends execGrantFailed_touch s (execGrantFailed g how
    s) := by
  unfold execGrantFailed
  split
  · refine Ends.next ?_
    refine Keeps.ite ?_ ?_
    · refine Keeps.setFld ?_ (by decide +kernel)
      exact Keeps.rfl
    · exact Keeps.rfl
  · refine Ends.next ?_
    refine Keeps.after ?_ (State.failGrant_keeps ..) (by decide +kernel)
    exact Keeps.rfl

def execHeatHalving_touch : Nat := touchSet [.idx, .now] []

theorem execHeatHalving_ends (tenant : ℕ) (s : State) : Ends execHeatHalving_touch s (execHeatHalving tenant s) := by
  unfold execHeatHalving
  extract_lets x1 x2 x3 x4
  refine Ends.next ?_
  refine Keeps.idx ?_ (by decide +kernel)
  refine Keeps.after ?_ (State.reach_keeps ..) (by decide +kernel)
  exact Keeps.rfl

def execPatrolScrub_touch : Nat := touchSet [.freeCount] [.EL_ECC_CORR] ||| State.dramUncorrAt_touch

theorem execPatrolScrub_ends (stack : ℕ) (addr : ℕ) (corrected : ℕ) (uncorrectable : Bool) (s : State) : Ends
    execPatrolScrub_touch s (execPatrolScrub stack addr corrected uncorrectable s) := by
  unfold execPatrolScrub
  extract_lets x1 x2
  refine Ends.ite ?_ ?_
  · refine Ends.next ?_
    refine Keeps.after ?_ (State.dramUncorrAt_keeps ..) (by decide +kernel)
    refine Keeps.after ?_ (State.draw_keeps ..) (by decide +kernel)
    refine Keeps.ite ?_ ?_
    · exact Keeps.rfl
    · refine Keeps.after ?_ (State.log_keeps ..) (by decide +kernel)
      refine Keeps.bump ?_ (by decide +kernel)
      exact Keeps.rfl
  · refine Ends.next ?_
    refine Keeps.ite ?_ ?_
    · exact Keeps.rfl
    · refine Keeps.after ?_ (State.log_keeps ..) (by decide +kernel)
      refine Keeps.bump ?_ (by decide +kernel)
      exact Keeps.rfl

def execPromote_touch : Nat := State.admitPromote_touch ||| State.admitBad_touch

theorem execPromote_ends (c : ℕ) (s : State) : Ends execPromote_touch s (execPromote c s) := by
  unfold execPromote
  refine Ends.next ?_
  refine Keeps.after ?_ (State.admitBad_keeps ..) (by decide +kernel)
  refine State.admitFront_keeps (by decide +kernel) (fun a01 t1 => ?_) ?_
  · refine Keeps.after ?_ (State.admitPromote_keeps ..) (by decide +kernel)
    exact Keeps.rfl
  · exact Keeps.rfl

def execPromotionComplete_touch : Nat := State.promotionFailed_touch ||| State.noteLows_touch |||
  State.becomeResident_touch

theorem execPromotionComplete_ends (n : ℕ) (v : ℕ) (cluster : ℕ) (ok : Bool) (s : State) : Ends
    execPromotionComplete_touch s (execPromotionComplete n v cluster ok s) := by
  unfold execPromotionComplete
  extract_lets x1 x2
  refine Ends.ite ?_ ?_
  · refine Ends.next ?_
    exact Keeps.rfl
  · refine Ends.ite ?_ ?_
    · refine Ends.ite ?_ ?_
      · refine Ends.next ?_
        exact Keeps.rfl
      · split
        · refine Ends.next ?_
          refine Keeps.after ?_ (State.becomeResident_keeps ..) (by decide +kernel)
          refine Keeps.after ?_ (State.noteLows_keeps ..) (by decide +kernel)
          exact Keeps.rfl
        · refine Ends.next ?_
          refine Keeps.after ?_ (State.promotionFailed_keeps ..) (by decide +kernel)
          refine Keeps.after ?_ (State.noteLows_keeps ..) (by decide +kernel)
          exact Keeps.rfl
    · refine Ends.next ?_
      refine Keeps.after ?_ (State.promotionFailed_keeps ..) (by decide +kernel)
      exact Keeps.rfl

def execPromotionRetry_touch : Nat := State.demand_touch

theorem execPromotionRetry_ends (n : ℕ) (v : ℕ) (cluster : ℕ) (tenant : ℕ) (s : State) : Ends execPromotionRetry_touch s
    (execPromotionRetry n v cluster tenant s) := by
  unfold execPromotionRetry
  extract_lets x1 x2 x3
  refine Ends.ite ?_ ?_
  · refine Ends.next ?_
    refine Keeps.after ?_ (State.demand_keeps ..) (by decide +kernel)
    exact Keeps.rfl
  · refine Ends.next ?_
    exact Keeps.rfl

def execQuotaLimitWrite_touch : Nat := touchSet [] [.TN_QUOTA_LIMIT] ||| State.discard_touch

theorem execQuotaLimitWrite_ends (tenant : ℕ) (tier : ℕ) (value : W64) (loc : W64) (s : State) : Ends
    execQuotaLimitWrite_touch s (execQuotaLimitWrite tenant tier value loc s) := by
  unfold execQuotaLimitWrite
  extract_lets x1 x2
  refine Ends.ite ?_ ?_
  · refine Ends.next ?_
    refine Keeps.after ?_ (State.discard_keeps ..) (by decide +kernel)
    exact Keeps.rfl
  · refine Ends.next ?_
    refine Keeps.writeReg ?_ (by decide +kernel)
    exact Keeps.rfl

def execScheduleLoad_touch : Nat := State.admitBad_touch ||| State.admitSchedule_touch

theorem execScheduleLoad_ends (c : ℕ) (readOk : Bool) (s : State) : Ends execScheduleLoad_touch s (execScheduleLoad c
    readOk s) := by
  unfold execScheduleLoad
  refine Ends.next ?_
  refine Keeps.after ?_ (State.admitBad_keeps ..) (by decide +kernel)
  refine State.admitFront_keeps (by decide +kernel) (fun a01 t1 => ?_) ?_
  · refine Keeps.after ?_ (State.admitSchedule_keeps ..) (by decide +kernel)
    exact Keeps.rfl
  · exact Keeps.rfl

def execSchedulePromotion_touch : Nat := touchSet [] [.TN_PF_FAILED, .TN_PF_SCHEDULE] ||| State.startPromotion_touch

theorem execSchedulePromotion_ends (n : ℕ) (v : ℕ) (s : State) : Ends execSchedulePromotion_touch s
    (execSchedulePromotion n v s) := by
  unfold execSchedulePromotion
  extract_lets x1 x2 x3
  split
  · refine Ends.next ?_
    exact Keeps.rfl
  · extract_lets x4 x5
    refine Ends.ite ?_ ?_
    · refine Ends.next ?_
      subst x3
      beta_reduce
      refine Keeps.after ?_ (State.modVersion_keeps ..) (by decide +kernel)
      exact Keeps.rfl
    · refine Ends.ite ?_ ?_
      · refine Ends.next ?_
        subst x3
        beta_reduce
        refine Keeps.after ?_ (State.modVersion_keeps ..) (by decide +kernel)
        refine Keeps.bump ?_ (by decide +kernel)
        exact Keeps.rfl
      · refine Ends.ite ?_ ?_
        · refine Ends.next ?_
          exact Keeps.rfl
        · refine Ends.ite ?_ ?_
          · refine Ends.next ?_
            subst x3
            beta_reduce
            refine Keeps.after ?_ (State.modVersion_keeps ..) (by decide +kernel)
            refine Keeps.bump ?_ (by decide +kernel)
            refine Keeps.after ?_ (State.startPromotion_keeps ..) (by decide +kernel)
            exact Keeps.rfl
          · refine Ends.next ?_
            refine Keeps.after ?_ (State.startPromotion_keeps ..) (by decide +kernel)
            exact Keeps.rfl

end Sys2Proof.Machine
end

