-- ==== Sys2Proof/Laws/KeepTransport.lean ====
section
/-! SUPPORT. What each operation of Machine/Transport.lean can change. -/

namespace Sys2Proof.Machine

set_option Elab.async false

def State.lateSum_touch : Nat := touchSet [] [.TN_DL_LATE_RECORDS]

theorem State.lateSum_keeps (r : ℕ) (s : State) : Keeps State.lateSum_touch s (State.lateSum r s) := by
  unfold State.lateSum
  split
  · refine Keeps.bump ?_ (by decide +kernel)
    exact Keeps.rfl
  · exact Keeps.rfl

def State.modConn_touch : Nat := touchSet [.net] []

theorem State.modConn_keeps (c : ℕ) (f : Conn → Conn) (s : State) : Keeps State.modConn_touch s (State.modConn c f s) :=
    by
  unfold State.modConn
  refine Keeps.after ?_ (State.setConn_keeps ..) (by decide +kernel)
  exact Keeps.rfl

def State.freePool_touch : Nat := touchSet [.net] []

theorem State.freePool_keeps (c : ℕ) (m : RxMsg) (s : State) : Keeps State.freePool_touch s (State.freePool c m s) := by
  unfold State.freePool
  extract_lets x1 x2
  refine Keeps.ite ?_ ?_
  · refine Keeps.net ?_ (by decide +kernel)
    exact Keeps.rfl
  · exact Keeps.rfl

def State.refuseMsg_touch : Nat := touchSet [] [.XT_REFUSED_ACCESS, .XT_REFUSED_REVOKED] ||| State.sendCtl_touch

theorem State.refuseMsg_keeps (c : ℕ) (msn : ℕ) (st : ℕ) (s : State) : Keeps State.refuseMsg_touch s (State.refuseMsg c
    msn st s) := by
  unfold State.refuseMsg
  extract_lets x1 x2
  refine Keeps.after ?_ (State.sendCtl_keeps ..) (by decide +kernel)
  refine Keeps.ite ?_ ?_
  · refine Keeps.bump ?_ (by decide +kernel)
    exact Keeps.rfl
  · refine Keeps.bump ?_ (by decide +kernel)
    exact Keeps.rfl

def State.takeEffect_touch : Nat := touchSet [] [.GE_REQ_REFUSED, .SY_VAL] ||| State.receiveCmd_touch |||
  State.refuseMsg_touch

theorem State.takeEffect_keeps (c : ℕ) (m : RxMsg) (s : State) : Keeps State.takeEffect_touch s (State.takeEffect c m s)
    := by
  unfold State.takeEffect
  split
  · refine Keeps.ite ?_ ?_
    · refine Keeps.after ?_ (State.receiveCmd_keeps ..) (by decide +kernel)
      refine Keeps.after ?_ (State.freePool_keeps ..) (by decide +kernel)
      exact Keeps.rfl
    · split
      · refine Keeps.after ?_ (State.refusePsum_keeps ..) (by decide +kernel)
        refine Keeps.after ?_ (State.freePool_keeps ..) (by decide +kernel)
        exact Keeps.rfl
      · refine Keeps.after ?_ (State.modConn_keeps ..) (by decide +kernel)
        exact Keeps.rfl
  · refine Keeps.ite ?_ ?_
    · refine Keeps.after ?_ (State.signal_keeps ..) (by decide +kernel)
      exact Keeps.rfl
    · refine Keeps.after ?_ (State.refuseMsg_keeps ..) (by decide +kernel)
      exact Keeps.rfl
  · extract_lets x1
    refine Keeps.after ?_ (State.queueMsg_keeps ..) (by decide +kernel)
    exact Keeps.rfl

def State.settleWaiting_touch : Nat := State.takeEffect_touch

theorem State.settleWaiting_keeps (c : ℕ) (s : State) : Keeps State.settleWaiting_touch s (State.settleWaiting c s) :=
    by
  unfold State.settleWaiting
  refine Keeps.forEach _ _ (fun a1 t1 => ?_) ?_
  · refine Keeps.ite ?_ ?_
    · refine Keeps.after ?_ (State.takeEffect_keeps ..) (by decide +kernel)
      refine Keeps.after ?_ (State.modConn_keeps ..) (by decide +kernel)
      exact Keeps.rfl
    · exact Keeps.rfl
  · exact Keeps.rfl

def State.msgIsDone_touch : Nat := State.settleWaiting_touch

theorem State.msgIsDone_keeps (c : ℕ) (m : ℕ) (s : State) : Keeps State.msgIsDone_touch s (State.msgIsDone c m s) := by
  unfold State.msgIsDone
  refine Keeps.after ?_ (State.settleWaiting_keeps ..) (by decide +kernel)
  refine Keeps.after ?_ (State.modConn_keeps ..) (by decide +kernel)
  exact Keeps.rfl

def State.admitWrite_touch : Nat := touchSet [] [.TN_DL_LATE_RECORDS] ||| State.msgIsDone_touch

theorem State.admitWrite_keeps (c : ℕ) (mp : Bool) (p : Pkt) (s : State) : Keeps State.admitWrite_touch s
    (State.admitWrite c mp p s) := by
  unfold State.admitWrite
  extract_lets x1 x2 x3 x4 x5
  refine Keeps.ite ?_ ?_
  · refine Keeps.after ?_ (State.modConn_keeps ..) (by decide +kernel)
    exact Keeps.rfl
  · refine Keeps.after ?_ (State.msgIsDone_keeps ..) (by decide +kernel)
    refine Keeps.after ?_ (State.refuseMsg_keeps ..) (by decide +kernel)
    refine Keeps.ite ?_ ?_
    · refine Keeps.after ?_ (State.lateSum_keeps ..) (by decide +kernel)
      refine Keeps.after ?_ (State.modConn_keeps ..) (by decide +kernel)
      exact Keeps.rfl
    · refine Keeps.after ?_ (State.modConn_keeps ..) (by decide +kernel)
      exact Keeps.rfl

def State.rspPkt_touch : Nat := touchSet [.dram] [] ||| State.completeWR_touch

theorem State.rspPkt_keeps (c : ℕ) (p : Pkt) (s : State) : Keeps State.rspPkt_touch s (State.rspPkt c p s) := by
  unfold State.rspPkt
  split
  · exact Keeps.rfl
  · extract_lets x1 x2 x3 x4 x5 x6 x7
    refine Keeps.ite ?_ ?_
    · refine Keeps.after ?_ (State.completeWR_keeps ..) (by decide +kernel)
      refine Keeps.after ?_ (State.setWR_keeps ..) (by decide +kernel)
      refine Keeps.ite ?_ ?_
      · refine Keeps.net ?_ (by decide +kernel)
        exact Keeps.rfl
      · refine Keeps.after ?_ (State.wrDram_keeps ..) (by decide +kernel)
        exact Keeps.rfl
    · refine Keeps.after ?_ (State.setWR_keeps ..) (by decide +kernel)
      refine Keeps.ite ?_ ?_
      · refine Keeps.net ?_ (by decide +kernel)
        exact Keeps.rfl
      · refine Keeps.after ?_ (State.wrDram_keeps ..) (by decide +kernel)
        exact Keeps.rfl

def State.sendPkt_touch : Nat := touchSet [] [.XT_BUSY] ||| State.msgIsDone_touch

theorem State.sendPkt_keeps (c : ℕ) (p : Pkt) (s : State) : Keeps State.sendPkt_touch s (State.sendPkt c p s) := by
  unfold State.sendPkt
  extract_lets x1 x2 x3 x4 x5 x6 x7 x8 x9
  split
  · refine Keeps.ite ?_ ?_
    · exact Keeps.rfl
    · refine Keeps.ite ?_ ?_
      · refine Keeps.after ?_ (State.msgIsDone_keeps ..) (by decide +kernel)
        refine Keeps.after ?_ (State.sendCtl_keeps ..) (by decide +kernel)
        refine Keeps.bump ?_ (by decide +kernel)
        refine Keeps.after ?_ (State.modConn_keeps ..) (by decide +kernel)
        exact Keeps.rfl
      · refine Keeps.net ?_ (by decide +kernel)
        refine Keeps.after ?_ (State.modConn_keeps ..) (by decide +kernel)
        exact Keeps.rfl
  · extract_lets x10
    refine Keeps.ite ?_ ?_
    · refine Keeps.after ?_ (State.msgIsDone_keeps ..) (by decide +kernel)
      refine Keeps.after ?_ (State.modConn_keeps ..) (by decide +kernel)
      refine Keeps.ite ?_ ?_
      · exact Keeps.rfl
      · refine Keeps.ite ?_ ?_
        · refine Keeps.after ?_ (State.msgIsDone_keeps ..) (by decide +kernel)
          refine Keeps.after ?_ (State.sendCtl_keeps ..) (by decide +kernel)
          refine Keeps.bump ?_ (by decide +kernel)
          refine Keeps.after ?_ (State.modConn_keeps ..) (by decide +kernel)
          exact Keeps.rfl
        · refine Keeps.net ?_ (by decide +kernel)
          refine Keeps.after ?_ (State.modConn_keeps ..) (by decide +kernel)
          exact Keeps.rfl
    · refine Keeps.after ?_ (State.modConn_keeps ..) (by decide +kernel)
      refine Keeps.ite ?_ ?_
      · exact Keeps.rfl
      · refine Keeps.ite ?_ ?_
        · refine Keeps.after ?_ (State.msgIsDone_keeps ..) (by decide +kernel)
          refine Keeps.after ?_ (State.sendCtl_keeps ..) (by decide +kernel)
          refine Keeps.bump ?_ (by decide +kernel)
          refine Keeps.after ?_ (State.modConn_keeps ..) (by decide +kernel)
          exact Keeps.rfl
        · refine Keeps.net ?_ (by decide +kernel)
          refine Keeps.after ?_ (State.modConn_keeps ..) (by decide +kernel)
          exact Keeps.rfl

def State.waitPkt_touch : Nat := State.msgIsDone_touch

theorem State.waitPkt_keeps (c : ℕ) (p : Pkt) (s : State) : Keeps State.waitPkt_touch s (State.waitPkt c p s) := by
  unfold State.waitPkt
  extract_lets x1 x2
  refine Keeps.ite ?_ ?_
  · refine Keeps.after ?_ (State.msgIsDone_keeps ..) (by decide +kernel)
    refine Keeps.after ?_ (State.refuseMsg_keeps ..) (by decide +kernel)
    exact Keeps.rfl
  · refine Keeps.after ?_ (State.msgIsDone_keeps ..) (by decide +kernel)
    refine Keeps.after ?_ (State.modConn_keeps ..) (by decide +kernel)
    exact Keeps.rfl

def State.completeWrite_touch : Nat := touchSet [] [.TN_DL_LATE_RECORDS] ||| State.msgIsDone_touch

theorem State.completeWrite_keeps (c : ℕ) (e : RxMsg) (s : State) : Keeps State.completeWrite_touch s
    (State.completeWrite c e s) := by
  unfold State.completeWrite
  extract_lets x1 x2 x3
  refine Keeps.after ?_ (State.msgIsDone_keeps ..) (by decide +kernel)
  refine Keeps.after ?_ (State.modConn_keeps ..) (by decide +kernel)
  refine Keeps.ite ?_ ?_
  · refine Keeps.after ?_ (State.sendCtl_keeps ..) (by decide +kernel)
    refine Keeps.ite ?_ ?_
    · refine Keeps.ite ?_ ?_
      · refine Keeps.after ?_ (State.lateSum_keeps ..) (by decide +kernel)
        refine Keeps.after ?_ (State.signal_keeps ..) (by decide +kernel)
        exact Keeps.rfl
      · refine Keeps.after ?_ (State.signal_keeps ..) (by decide +kernel)
        exact Keeps.rfl
    · exact Keeps.rfl
  · refine Keeps.ite ?_ ?_
    · refine Keeps.ite ?_ ?_
      · refine Keeps.after ?_ (State.lateSum_keeps ..) (by decide +kernel)
        refine Keeps.after ?_ (State.signal_keeps ..) (by decide +kernel)
        exact Keeps.rfl
      · refine Keeps.after ?_ (State.signal_keeps ..) (by decide +kernel)
        exact Keeps.rfl
    · exact Keeps.rfl

def State.place_touch : Nat := touchSet [.dram] []

theorem State.place_keeps (e : RxMsg) (p : Pkt) (s : State) : Keeps State.place_touch s (State.place e p s) := by
  unfold State.place
  refine Keeps.after ?_ (State.wrDram_keeps ..) (by decide +kernel)
  exact Keeps.rfl

def State.writePkt_touch : Nat := touchSet [.dram] [] ||| State.completeWrite_touch

theorem State.writePkt_keeps (c : ℕ) (p : Pkt) (s : State) : Keeps State.writePkt_touch s (State.writePkt c p s) := by
  unfold State.writePkt
  split
  · exact Keeps.rfl
  · extract_lets x1 x2 x3 x4
    refine Keeps.ite ?_ ?_
    · refine Keeps.after ?_ (State.modConn_keeps ..) (by decide +kernel)
      exact Keeps.rfl
    · refine Keeps.ite ?_ ?_
      · refine Keeps.after ?_ (State.completeWrite_keeps ..) (by decide +kernel)
        refine Keeps.after ?_ (State.modConn_keeps ..) (by decide +kernel)
        refine Keeps.after ?_ (State.place_keeps ..) (by decide +kernel)
        exact Keeps.rfl
      · refine Keeps.after ?_ (State.modConn_keeps ..) (by decide +kernel)
        refine Keeps.after ?_ (State.place_keeps ..) (by decide +kernel)
        exact Keeps.rfl

def State.deliver_touch : Nat := touchSet [] [.XT_BUSY] ||| State.gauntletIn_touch ||| State.writePkt_touch

theorem State.deliver_keeps (c : ℕ) (p : Pkt) (s : State) : Keeps State.deliver_touch s (State.deliver c p s) := by
  unfold State.deliver
  split
  · extract_lets x1
    refine Keeps.after ?_ (State.writePkt_keeps ..) (by decide +kernel)
    refine Keeps.ite ?_ ?_
    · refine Keeps.after ?_ (State.admitWrite_keeps ..) (by decide +kernel)
      exact Keeps.rfl
    · exact Keeps.rfl
  · extract_lets x1
    refine Keeps.after ?_ (State.writePkt_keeps ..) (by decide +kernel)
    refine Keeps.ite ?_ ?_
    · refine Keeps.after ?_ (State.admitWrite_keeps ..) (by decide +kernel)
      exact Keeps.rfl
    · exact Keeps.rfl
  · refine Keeps.after ?_ (State.waitPkt_keeps ..) (by decide +kernel)
    exact Keeps.rfl
  · refine Keeps.after ?_ (State.waitPkt_keeps ..) (by decide +kernel)
    exact Keeps.rfl
  · refine Keeps.after ?_ (State.rspPkt_keeps ..) (by decide +kernel)
    exact Keeps.rfl
  · refine Keeps.after ?_ (State.sendPkt_keeps ..) (by decide +kernel)
    exact Keeps.rfl
  · refine Keeps.after ?_ (State.msgIsDone_keeps ..) (by decide +kernel)
    refine Keeps.after ?_ (State.gauntletIn_keeps ..) (by decide +kernel)
    exact Keeps.rfl
  · exact Keeps.rfl

def State.acceptPkt_touch : Nat := touchSet [] [.XT_RX_PKTS] ||| State.deliver_touch

theorem State.acceptPkt_keeps (c : ℕ) (p : Pkt) (s : State) : Keeps State.acceptPkt_touch s (State.acceptPkt c p s) :=
    by
  unfold State.acceptPkt
  extract_lets x1 x2 x3
  refine Keeps.ite ?_ ?_
  · refine Keeps.after ?_ (State.sendAck_keeps ..) (by decide +kernel)
    refine Keeps.after ?_ (State.deliver_keeps ..) (by decide +kernel)
    refine Keeps.after ?_ (State.modConn_keeps ..) (by decide +kernel)
    refine Keeps.bump ?_ (by decide +kernel)
    exact Keeps.rfl
  · refine Keeps.after ?_ (State.deliver_keeps ..) (by decide +kernel)
    refine Keeps.after ?_ (State.modConn_keeps ..) (by decide +kernel)
    refine Keeps.bump ?_ (by decide +kernel)
    exact Keeps.rfl

def State.armBy_touch : Nat := State.discard_touch ||| State.armWR_touch

theorem State.armBy_ends (slot : ℕ) (loc : W64) (value : W64) (s : State) : Ends State.armBy_touch s (State.armBy slot
    loc value s) := by
  unfold State.armBy
  extract_lets x1
  refine Ends.ite ?_ ?_
  · refine Ends.next ?_
    refine Keeps.after ?_ (State.armWR_keeps ..) (by decide +kernel)
    exact Keeps.rfl
  · refine Ends.next ?_
    refine Keeps.after ?_ (State.discard_keeps ..) (by decide +kernel)
    exact Keeps.rfl

def State.connectBy_touch : Nat := touchSet [.net] [.XT_CONN_CC, .XT_CONN_CFG] ||| State.discard_touch

theorem State.connectBy_ends (conn : ℕ) (loc : W64) (value : W64) (s : State) : Ends State.connectBy_touch s
    (State.connectBy conn loc value s) := by
  unfold State.connectBy
  refine Ends.ite ?_ ?_
  · extract_lets x1 x2 x3
    refine Ends.next ?_
    refine Keeps.ite ?_ ?_
    · refine Keeps.setFld ?_ (by decide +kernel)
      refine Keeps.setFld ?_ (by decide +kernel)
      refine Keeps.after ?_ (State.setConn_keeps ..) (by decide +kernel)
      exact Keeps.rfl
    · refine Keeps.setFld ?_ (by decide +kernel)
      refine Keeps.after ?_ (State.setConn_keeps ..) (by decide +kernel)
      exact Keeps.rfl
  · refine Ends.next ?_
    refine Keeps.after ?_ (State.discard_keeps ..) (by decide +kernel)
    exact Keeps.rfl

def State.cover_touch : Nat := touchSet [.net] []

theorem State.cover_keeps (c : ℕ) (f : TxPkt → Bool) (s : State) : Keeps State.cover_touch s (State.cover c f s) := by
  unfold State.cover
  extract_lets x1
  refine Keeps.ite ?_ ?_
  · refine Keeps.after ?_ (State.setConn_keeps ..) (by decide +kernel)
    exact Keeps.rfl
  · exact Keeps.rfl

def State.depart_touch : Nat := touchSet [] [.XT_RESEND_PKTS] ||| State.sendOut_touch

theorem State.depart_keeps (c : ℕ) (t : TxPkt) (s : State) : Keeps State.depart_touch s (State.depart c t s) := by
  unfold State.depart
  extract_lets x1 x2
  refine Keeps.after ?_ (State.sendOut_keeps ..) (by decide +kernel)
  refine Keeps.after ?_ (State.modConn_keeps ..) (by decide +kernel)
  refine Keeps.ite ?_ ?_
  · refine Keeps.bump ?_ (by decide +kernel)
    exact Keeps.rfl
  · exact Keeps.rfl

def State.disarmBy_touch : Nat := touchSet [.net] [.XT_TWR_CTL] ||| State.discard_touch

theorem State.disarmBy_ends (slot : ℕ) (loc : W64) (value : W64) (s : State) : Ends State.disarmBy_touch s
    (State.disarmBy slot loc value s) := by
  unfold State.disarmBy
  split
  · extract_lets x1 x2 x3
    refine Ends.next ?_
    refine Keeps.setFld ?_ (by decide +kernel)
    refine Keeps.net ?_ (by decide +kernel)
    exact Keeps.rfl
  · refine Ends.next ?_
    refine Keeps.after ?_ (State.discard_keeps ..) (by decide +kernel)
    exact Keeps.rfl
  · refine Ends.next ?_
    exact Keeps.rfl

def State.drainKept_touch : Nat := State.acceptPkt_touch

theorem State.drainKept_keeps (c n : Nat) (s : State) : Keeps State.drainKept_touch s (State.drainKept c n s) := by
  induction n generalizing s with
  | zero =>
    unfold State.drainKept
    exact Keeps.rfl
  | succ n ih =>
    unfold State.drainKept
    extract_lets x1
    split
    · exact Keeps.rfl
    · refine Keeps.after ?_ (ih _) (Nat.and_self _)
      refine Keeps.after ?_ (State.acceptPkt_keeps ..) (by decide +kernel)
      refine Keeps.after ?_ (State.modConn_keeps ..) (by decide +kernel)
      exact Keeps.rfl

def State.dropConnLog_touch : Nat := touchSet [.idx] [] ||| State.logGauntlet_touch

theorem State.dropConnLog_keeps (c : ℕ) (s : State) : Keeps State.dropConnLog_touch s (State.dropConnLog c s) := by
  unfold State.dropConnLog
  extract_lets x1 x2 x3
  refine Keeps.idx ?_ (by decide +kernel)
  refine Keeps.forEach _ _ (fun a1 t1 => ?_) ?_
  · refine Keeps.after ?_ (State.logGauntlet_keeps ..) (by decide +kernel)
    exact Keeps.rfl
  · exact Keeps.rfl

def State.grantRefused_touch : Nat := State.failGrants_touch

theorem State.grantRefused_keeps (w : WR) (st : ℕ) (s : State) : Keeps State.grantRefused_touch s (State.grantRefused w
    st s) := by
  unfold State.grantRefused
  refine Keeps.ite ?_ ?_
  · refine Keeps.after ?_ (State.failGrants_keeps ..) (by decide +kernel)
    exact Keeps.rfl
  · exact Keeps.rfl

def State.loseConn_touch : Nat := State.fp16Lost_touch ||| State.connError_touch ||| State.failGrants_touch

theorem State.loseConn_keeps (c : ℕ) (cause : ℕ) (s : State) : Keeps State.loseConn_touch s (State.loseConn c cause s)
    := by
  unfold State.loseConn
  refine Keeps.ite ?_ ?_
  · extract_lets x1
    refine Keeps.after ?_ (State.failGrants_keeps ..) (by decide +kernel)
    refine Keeps.after ?_ (State.dropConnLog_keeps ..) (by decide +kernel)
    refine Keeps.after ?_ (State.fp16Lost_keeps ..) (by decide +kernel)
    refine Keeps.after ?_ (State.connError_keeps ..) (by decide +kernel)
    exact Keeps.rfl
  · exact Keeps.rfl

def State.noteMp_touch : Nat := touchSet [.net] [.XT_RX_PKTS]

theorem State.noteMp_keeps (c : ℕ) (p : Pkt) (s : State) : Keeps State.noteMp_touch s (State.noteMp c p s) := by
  unfold State.noteMp
  refine Keeps.after ?_ (State.modConn_keeps ..) (by decide +kernel)
  refine Keeps.bump ?_ (by decide +kernel)
  exact Keeps.rfl

def State.rspMp_touch : Nat := State.rspPkt_touch ||| State.sendCtl_touch

theorem State.rspMp_keeps (c : ℕ) (p : Pkt) (s : State) : Keeps State.rspMp_touch s (State.rspMp c p s) := by
  unfold State.rspMp
  split
  · exact Keeps.rfl
  · extract_lets x1 x2 x3 x4
    refine Keeps.ite ?_ ?_
    · refine Keeps.after ?_ (State.modConn_keeps ..) (by decide +kernel)
      refine Keeps.after ?_ (State.sendCtl_keeps ..) (by decide +kernel)
      refine Keeps.after ?_ (State.rspPkt_keeps ..) (by decide +kernel)
      refine Keeps.after ?_ (State.modConn_keeps ..) (by decide +kernel)
      exact Keeps.rfl
    · refine Keeps.after ?_ (State.rspPkt_keeps ..) (by decide +kernel)
      refine Keeps.after ?_ (State.modConn_keeps ..) (by decide +kernel)
      exact Keeps.rfl

def State.multipath_touch : Nat := touchSet [] [.XT_HOLD_FILLED, .XT_MP_DUP, .XT_MP_TABLE_FULL, .XT_RX_PKTS] |||
  State.writePkt_touch

theorem State.multipath_keeps (c : ℕ) (p : Pkt) (s : State) : Keeps State.multipath_touch s (State.multipath c p s) :=
    by
  unfold State.multipath
  extract_lets x1 x2 x3 x4 x5 x6 x7 x8 x9
  split
  · refine Keeps.ite ?_ ?_
    · refine Keeps.bump ?_ (by decide +kernel)
      exact Keeps.rfl
    · subst x5
      beta_reduce
      refine Keeps.ite ?_ ?_
      · refine Keeps.bump ?_ (by decide +kernel)
        subst x6
        beta_reduce
        refine Keeps.ite ?_ ?_
        · refine Keeps.after ?_ (State.rspMp_keeps ..) (by decide +kernel)
          refine Keeps.after ?_ (State.noteMp_keeps ..) (by decide +kernel)
          exact Keeps.rfl
        · refine Keeps.after ?_ (State.writePkt_keeps ..) (by decide +kernel)
          refine Keeps.after ?_ (State.noteMp_keeps ..) (by decide +kernel)
          exact Keeps.rfl
      · subst x6
        beta_reduce
        refine Keeps.ite ?_ ?_
        · refine Keeps.after ?_ (State.rspMp_keeps ..) (by decide +kernel)
          refine Keeps.after ?_ (State.noteMp_keeps ..) (by decide +kernel)
          exact Keeps.rfl
        · refine Keeps.after ?_ (State.writePkt_keeps ..) (by decide +kernel)
          refine Keeps.after ?_ (State.noteMp_keeps ..) (by decide +kernel)
          exact Keeps.rfl
  · refine Keeps.ite ?_ ?_
    · refine Keeps.bump ?_ (by decide +kernel)
      exact Keeps.rfl
    · refine Keeps.ite ?_ ?_
      · refine Keeps.bump ?_ (by decide +kernel)
        exact Keeps.rfl
      · refine Keeps.ite ?_ ?_
        · subst x6
          beta_reduce
          refine Keeps.ite ?_ ?_
          · refine Keeps.after ?_ (State.rspMp_keeps ..) (by decide +kernel)
            refine Keeps.after ?_ (State.modConn_keeps ..) (by decide +kernel)
            refine Keeps.after ?_ (State.noteMp_keeps ..) (by decide +kernel)
            exact Keeps.rfl
          · refine Keeps.after ?_ (State.writePkt_keeps ..) (by decide +kernel)
            refine Keeps.after ?_ (State.modConn_keeps ..) (by decide +kernel)
            refine Keeps.after ?_ (State.noteMp_keeps ..) (by decide +kernel)
            exact Keeps.rfl
        · subst x6
          beta_reduce
          refine Keeps.ite ?_ ?_
          · refine Keeps.after ?_ (State.rspMp_keeps ..) (by decide +kernel)
            refine Keeps.after ?_ (State.admitWrite_keeps ..) (by decide +kernel)
            refine Keeps.after ?_ (State.noteMp_keeps ..) (by decide +kernel)
            exact Keeps.rfl
          · refine Keeps.after ?_ (State.writePkt_keeps ..) (by decide +kernel)
            refine Keeps.after ?_ (State.admitWrite_keeps ..) (by decide +kernel)
            refine Keeps.after ?_ (State.noteMp_keeps ..) (by decide +kernel)
            exact Keeps.rfl

def State.path0_touch : Nat := touchSet [] [.XT_HOLD_FILLED, .XT_REORDER_FULL] ||| State.drainKept_touch

theorem State.path0_keeps (c : ℕ) (p : Pkt) (s : State) : Keeps State.path0_touch s (State.path0 c p s) := by
  unfold State.path0
  extract_lets x1 x2 x3 x4 x5 x6 x7
  refine Keeps.ite ?_ ?_
  · refine Keeps.ite ?_ ?_
    · refine Keeps.after ?_ (State.modConn_keeps ..) (by decide +kernel)
      refine Keeps.bump ?_ (by decide +kernel)
      refine Keeps.after ?_ (State.drainKept_keeps ..) (by decide +kernel)
      refine Keeps.after ?_ (State.acceptPkt_keeps ..) (by decide +kernel)
      exact Keeps.rfl
    · refine Keeps.after ?_ (State.drainKept_keeps ..) (by decide +kernel)
      refine Keeps.after ?_ (State.acceptPkt_keeps ..) (by decide +kernel)
      exact Keeps.rfl
  · refine Keeps.ite ?_ ?_
    · refine Keeps.after ?_ (State.sendAck_keeps ..) (by decide +kernel)
      exact Keeps.rfl
    · refine Keeps.ite ?_ ?_
      · refine Keeps.after ?_ (State.modConn_keeps ..) (by decide +kernel)
        exact Keeps.rfl
      · refine Keeps.ite ?_ ?_
        · refine Keeps.after ?_ (State.modConn_keeps ..) (by decide +kernel)
          refine Keeps.after ?_ (State.modConn_keeps ..) (by decide +kernel)
          exact Keeps.rfl
        · refine Keeps.bump ?_ (by decide +kernel)
          refine Keeps.after ?_ (State.modConn_keeps ..) (by decide +kernel)
          exact Keeps.rfl

def State.policeIn_touch : Nat := touchSet [] [.PL_UNMAPPED] ||| State.police_touch

theorem State.policeIn_keeps (p : Pkt) (s : State) : Keeps2 State.policeIn_touch s (State.policeIn p s) := by
  unfold State.policeIn
  extract_lets x1 x2 x3
  refine Keeps2.ite ?_ ?_
  · refine Keeps2.of ?_
    refine Keeps.after ?_ (State.police_keeps ..) (by decide +kernel)
    exact Keeps.rfl
  · refine Keeps2.of ?_
    refine Keeps.bump ?_ (by decide +kernel)
    exact Keeps.rfl

def State.receive_touch : Nat := touchSet [.net] [.XT_RX_BAD] ||| State.policeIn_touch

theorem State.receive_keeps {w : Nat} {o : State} {p : Pkt} {policed : Bool} {f : State → State} {s : State} (hw :
    State.receive_touch &&& w = State.receive_touch) (hk : ∀ u, Keeps w u (f u)) (h : Keeps w o s) : Keeps w o
    (State.receive p policed f s) := by
  unfold State.receive
  refine Keeps.ite ?_ ?_
  · extract_lets x1 x2
    refine Keeps.ite ?_ ?_
    · refine Keeps.ite ?_ ?_
      · refine Keeps.after ?_ (hk ..) (Nat.and_self _)
        refine Keeps.after ?_ (State.policeIn_keeps ..) (touch_le (by decide +kernel) hw)
        refine Keeps.after ?_ (State.modConn_keeps ..) (touch_le (by decide +kernel) hw)
        assumption
      · refine Keeps.after ?_ (State.policeIn_keeps ..) (touch_le (by decide +kernel) hw)
        refine Keeps.after ?_ (State.modConn_keeps ..) (touch_le (by decide +kernel) hw)
        assumption
    · refine Keeps.after ?_ (hk ..) (Nat.and_self _)
      refine Keeps.after ?_ (State.modConn_keeps ..) (touch_le (by decide +kernel) hw)
      assumption
  · refine Keeps.bump ?_ (touch_bit (by decide +kernel) hw)
    assumption

def State.revokeBy_touch : Nat := touchSet [] [.XT_RGN_CTL] ||| State.discard_touch ||| State.signal_touch

theorem State.revokeBy_ends (r : ℕ) (loc : W64) (value : W64) (s : State) : Ends State.revokeBy_touch s (State.revokeBy
    r loc value s) := by
  unfold State.revokeBy
  split
  · refine Ends.next ?_
    refine Keeps.after ?_ (State.signal_keeps ..) (by decide +kernel)
    exact Keeps.rfl
  · refine Ends.next ?_
    refine Keeps.setFld ?_ (by decide +kernel)
    exact Keeps.rfl
  · refine Ends.next ?_
    refine Keeps.after ?_ (State.discard_keeps ..) (by decide +kernel)
    exact Keeps.rfl

def State.rxAck_touch : Nat := touchSet [] [.XT_RX_PKTS] ||| State.receive_touch

theorem State.rxAck_keeps {w : Nat} {o : State} {p : Pkt} {f : ℕ → State → State} {s : State} (hw : State.rxAck_touch
    &&& w = State.rxAck_touch) (hk : ∀ a0 u, Keeps w u (f a0 u)) (h : Keeps w o s) : Keeps w o (State.rxAck p f s) := by
  unfold State.rxAck
  refine State.receive_keeps (touch_le (by decide +kernel) hw) (fun t1 => ?_) ?_
  · refine Keeps.after ?_ (hk ..) (Nat.and_self _)
    refine Keeps.bump ?_ (touch_bit (by decide +kernel) hw)
    exact Keeps.rfl
  · assumption

def State.rxControl_touch : Nat := State.path0_touch ||| State.receive_touch

theorem State.rxControl_keeps (p : Pkt) (s : State) : Keeps State.rxControl_touch s (State.rxControl p s) := by
  unfold State.rxControl
  refine State.receive_keeps (by decide +kernel) (fun t1 => ?_) ?_
  · refine Keeps.after ?_ (State.path0_keeps ..) (by decide +kernel)
    exact Keeps.rfl
  · exact Keeps.rfl

def State.rxData_touch : Nat := State.path0_touch ||| State.receive_touch ||| State.multipath_touch

theorem State.rxData_keeps (p : Pkt) (s : State) : Keeps State.rxData_touch s (State.rxData p s) := by
  unfold State.rxData
  refine State.receive_keeps (by decide +kernel) (fun t1 => ?_) ?_
  · refine Keeps.ite ?_ ?_
    · refine Keeps.after ?_ (State.multipath_keeps ..) (by decide +kernel)
      exact Keeps.rfl
    · refine Keeps.after ?_ (State.path0_keeps ..) (by decide +kernel)
      exact Keeps.rfl
  · exact Keeps.rfl

def State.shapeOut_touch : Nat := touchSet [] [.PL_UNMAPPED] ||| State.shape?_touch

theorem State.shapeOut_keeps (c : ℕ) (p : Pkt) (s : State) : KeepsO State.shapeOut_touch s (State.shapeOut c p s) := by
  unfold State.shapeOut
  extract_lets x1 x2
  refine KeepsO.ite ?_ ?_
  · refine KeepsO.after ?_ (State.shape?_keeps _ _ _ _) (by decide +kernel)
    exact Keeps.rfl
  · refine KeepsO.some ?_
    refine Keeps.bump ?_ (by decide +kernel)
    exact Keeps.rfl

def State.validateBy_touch : Nat := touchSet [] [.XT_RGN_CTL] ||| State.discard_touch

theorem State.validateBy_ends (r : ℕ) (loc : W64) (value : W64) (s : State) : Ends State.validateBy_touch s
    (State.validateBy r loc value s) := by
  unfold State.validateBy
  refine Ends.ite ?_ ?_
  · refine Ends.next ?_
    refine Keeps.setFld ?_ (by decide +kernel)
    exact Keeps.rfl
  · refine Ends.next ?_
    refine Keeps.after ?_ (State.discard_keeps ..) (by decide +kernel)
    exact Keeps.rfl

def execAck_touch : Nat := touchSet [] [.XT_CONN_CC] ||| State.rxAck_touch ||| State.settleWRs_touch

theorem execAck_ends (p : Pkt) (s : State) : Ends execAck_touch s (execAck p s) := by
  unfold execAck
  refine Ends.next ?_
  refine State.rxAck_keeps (by decide +kernel) (fun a01 t1 => ?_) ?_
  · refine Keeps.after ?_ (State.settleWRs_keeps ..) (by decide +kernel)
    refine Keeps.after ?_ (State.ccAck_keeps ..) (by decide +kernel)
    refine Keeps.after ?_ (State.cover_keeps ..) (by decide +kernel)
    exact Keeps.rfl
  · exact Keeps.rfl

def execAckDelayExpiry_touch : Nat := touchSet [.now] [] ||| State.sendAck_touch

theorem execAckDelayExpiry_ends (conn : ℕ) (s : State) : Ends execAckDelayExpiry_touch s (execAckDelayExpiry conn s) :=
    by
  unfold execAckDelayExpiry
  split
  · refine Ends.next ?_
    exact Keeps.rfl
  · refine Ends.next ?_
    refine Keeps.after ?_ (State.sendAck_keeps ..) (by decide +kernel)
    refine Keeps.after ?_ (State.reach_keeps ..) (by decide +kernel)
    exact Keeps.rfl

def execArm_touch : Nat := State.armBy_touch

theorem execArm_ends (slot : ℕ) (loc : W64) (s : State) : Ends execArm_touch s (execArm slot loc s) := by
  unfold execArm
  refine Ends.after ?_ (State.armBy_ends ..) (by decide +kernel)
  exact Keeps.rfl

def execBusy_touch : Nat := State.rxAck_touch

theorem execBusy_ends (p : Pkt) (s : State) : Ends execBusy_touch s (execBusy p s) := by
  unfold execBusy
  refine Ends.next ?_
  refine State.rxAck_keeps (by decide +kernel) (fun a01 t1 => ?_) ?_
  · split
    · exact Keeps.rfl
    · extract_lets x1
      refine Keeps.after ?_ (State.modConn_keeps ..) (by decide +kernel)
      exact Keeps.rfl
  · exact Keeps.rfl

def execBusyResend_touch : Nat := touchSet [.net, .now] []

theorem execBusyResend_ends (conn : ℕ) (msn : ℕ) (s : State) : Ends execBusyResend_touch s (execBusyResend conn msn s)
    := by
  unfold execBusyResend
  split
  · extract_lets x1 x2
    refine Ends.next ?_
    refine Keeps.after ?_ (State.queueMsg_keeps ..) (by decide +kernel)
    refine Keeps.after ?_ (State.modConn_keeps ..) (by decide +kernel)
    refine Keeps.after ?_ (State.reach_keeps ..) (by decide +kernel)
    exact Keeps.rfl
  · refine Ends.next ?_
    exact Keeps.rfl

def execConnect_touch : Nat := State.connectBy_touch

theorem execConnect_ends (conn : ℕ) (loc : W64) (s : State) : Ends execConnect_touch s (execConnect conn loc s) := by
  unfold execConnect
  refine Ends.after ?_ (State.connectBy_ends ..) (by decide +kernel)
  exact Keeps.rfl

def execConnectionReset_touch : Nat := touchSet [] [.XT_CONN_CFG, .XT_RGN_DRAIN_TORN, .XT_TWR_FAILED] |||
  State.fp16Lost_touch

theorem execConnectionReset_ends (conn : ℕ) (s : State) : Ends execConnectionReset_touch s (execConnectionReset conn s)
    := by
  unfold execConnectionReset
  extract_lets x1 x2 x3
  refine Ends.next ?_
  refine Keeps.after ?_ (State.fp16Lost_keeps ..) (by decide +kernel)
  refine Keeps.setFld ?_ (by decide +kernel)
  refine Keeps.after ?_ (State.dropPartial_keeps ..) (by decide +kernel)
  refine Keeps.after ?_ (State.failConnWRs_keeps ..) (by decide +kernel)
  refine Keeps.after ?_ (State.tearAdmitted_keeps ..) (by decide +kernel)
  refine Keeps.ite ?_ ?_
  · refine Keeps.setFld ?_ (by decide +kernel)
    exact Keeps.rfl
  · exact Keeps.rfl

def execDisarm_touch : Nat := State.disarmBy_touch

theorem execDisarm_ends (slot : ℕ) (loc : W64) (s : State) : Ends execDisarm_touch s (execDisarm slot loc s) := by
  unfold execDisarm
  refine Ends.after ?_ (State.disarmBy_ends ..) (by decide +kernel)
  exact Keeps.rfl

def execGauntletAbort_touch : Nat := State.rxControl_touch

theorem execGauntletAbort_ends (p : Pkt) (s : State) : Ends execGauntletAbort_touch s (execGauntletAbort p s) := by
  unfold execGauntletAbort
  refine Ends.next ?_
  refine Keeps.after ?_ (State.rxControl_keeps ..) (by decide +kernel)
  exact Keeps.rfl

def execGauntletRelease_touch : Nat := State.rxControl_touch

theorem execGauntletRelease_ends (p : Pkt) (s : State) : Ends execGauntletRelease_touch s (execGauntletRelease p s) :=
    by
  unfold execGauntletRelease
  refine Ends.next ?_
  refine Keeps.after ?_ (State.rxControl_keeps ..) (by decide +kernel)
  exact Keeps.rfl

def execKeepalive_touch : Nat := State.rxControl_touch

theorem execKeepalive_ends (p : Pkt) (s : State) : Ends execKeepalive_touch s (execKeepalive p s) := by
  unfold execKeepalive
  refine Ends.next ?_
  refine Keeps.after ?_ (State.rxControl_keeps ..) (by decide +kernel)
  exact Keeps.rfl

def execKeepaliveLoss_touch : Nat := touchSet [.now] [] ||| State.loseConn_touch

theorem execKeepaliveLoss_ends (conn : ℕ) (s : State) : Ends execKeepaliveLoss_touch s (execKeepaliveLoss conn s) := by
  unfold execKeepaliveLoss
  refine Ends.ite ?_ ?_
  · refine Ends.next ?_
    refine Keeps.after ?_ (State.loseConn_keeps ..) (by decide +kernel)
    refine Keeps.after ?_ (State.reach_keeps ..) (by decide +kernel)
    exact Keeps.rfl
  · refine Ends.next ?_
    exact Keeps.rfl

def execKeepaliveSend_touch : Nat := touchSet [.now] [] ||| State.sendOut_touch

theorem execKeepaliveSend_ends (conn : ℕ) (s : State) : Ends execKeepaliveSend_touch s (execKeepaliveSend conn s) := by
  unfold execKeepaliveSend
  extract_lets x1 x2 x3 x4 x5
  refine Ends.ite ?_ ?_
  · refine Ends.next ?_
    refine Keeps.after ?_ (State.sendOut_keeps ..) (by decide +kernel)
    refine Keeps.after ?_ (State.modConn_keeps ..) (by decide +kernel)
    refine Keeps.after ?_ (State.reach_keeps ..) (by decide +kernel)
    exact Keeps.rfl
  · refine Ends.next ?_
    exact Keeps.rfl

def execMessageHoldExpiry_touch : Nat := touchSet [.now] [.XT_NAK_MSG] ||| State.sendCtl_touch

theorem execMessageHoldExpiry_ends (conn : ℕ) (msn : ℕ) (s : State) : Ends execMessageHoldExpiry_touch s
    (execMessageHoldExpiry conn msn s) := by
  unfold execMessageHoldExpiry
  split
  · refine Ends.next ?_
    exact Keeps.rfl
  · extract_lets x1
    refine Ends.next ?_
    refine Keeps.bump ?_ (by decide +kernel)
    refine Keeps.after ?_ (State.sendCtl_keeps ..) (by decide +kernel)
    refine Keeps.after ?_ (State.modConn_keeps ..) (by decide +kernel)
    refine Keeps.after ?_ (State.reach_keeps ..) (by decide +kernel)
    exact Keeps.rfl

def execMsgDone_touch : Nat := touchSet [] [.XT_CONN_CC] ||| State.rxAck_touch ||| State.settleWRs_touch

theorem execMsgDone_ends (p : Pkt) (s : State) : Ends execMsgDone_touch s (execMsgDone p s) := by
  unfold execMsgDone
  refine Ends.next ?_
  refine State.rxAck_keeps (by decide +kernel) (fun a01 t1 => ?_) ?_
  · refine Keeps.after ?_ (State.settleWRs_keeps ..) (by decide +kernel)
    refine Keeps.after ?_ (State.ccAck_keeps ..) (by decide +kernel)
    refine Keeps.after ?_ (State.cover_keeps ..) (by decide +kernel)
    exact Keeps.rfl
  · exact Keeps.rfl

def execNakMsg_touch : Nat := touchSet [] [.XT_CONN_CC] ||| State.rxAck_touch

theorem execNakMsg_ends (p : Pkt) (s : State) : Ends execNakMsg_touch s (execNakMsg p s) := by
  unfold execNakMsg
  refine Ends.next ?_
  refine State.rxAck_keeps (by decide +kernel) (fun a01 t1 => ?_) ?_
  · extract_lets x1
    refine Keeps.after ?_ (State.ccLoss_keeps ..) (by decide +kernel)
    refine Keeps.after ?_ (State.modConn_keeps ..) (by decide +kernel)
    exact Keeps.rfl
  · exact Keeps.rfl

def execNakSeq_touch : Nat := touchSet [] [.XT_CONN_CC] ||| State.rxAck_touch ||| State.settleWRs_touch

theorem execNakSeq_ends (p : Pkt) (s : State) : Ends execNakSeq_touch s (execNakSeq p s) := by
  unfold execNakSeq
  refine Ends.next ?_
  refine State.rxAck_keeps (by decide +kernel) (fun a01 t1 => ?_) ?_
  · extract_lets x1
    refine Keeps.after ?_ (State.ccLoss_keeps ..) (by decide +kernel)
    refine Keeps.after ?_ (State.modConn_keeps ..) (by decide +kernel)
    refine Keeps.after ?_ (State.settleWRs_keeps ..) (by decide +kernel)
    refine Keeps.after ?_ (State.cover_keeps ..) (by decide +kernel)
    exact Keeps.rfl
  · exact Keeps.rfl

def execNakStatus_touch : Nat := touchSet [] [.XT_TWR_FAILED] ||| State.fp16Refused_touch ||| State.rxAck_touch |||
  State.grantRefused_touch

theorem execNakStatus_ends (p : Pkt) (s : State) : Ends execNakStatus_touch s (execNakStatus p s) := by
  unfold execNakStatus
  refine Ends.next ?_
  refine State.rxAck_keeps (by decide +kernel) (fun a01 t1 => ?_) ?_
  · split
    · exact Keeps.rfl
    · extract_lets x1
      refine Keeps.after ?_ (State.grantRefused_keeps ..) (by decide +kernel)
      refine Keeps.after ?_ (State.fp16Refused_keeps ..) (by decide +kernel)
      refine Keeps.after ?_ (State.failWR_keeps ..) (by decide +kernel)
      refine Keeps.after ?_ (State.modConn_keeps ..) (by decide +kernel)
      exact Keeps.rfl
  · exact Keeps.rfl

def execOpsEntryGrant_touch : Nat := touchSet [.net] [.XT_OPS_FULL_NS]

theorem execOpsEntryGrant_ends (s : State) : Ends execOpsEntryGrant_touch s (execOpsEntryGrant s) := by
  unfold execOpsEntryGrant
  extract_lets x1 x2
  clear_value x2
  split
  · refine Ends.next ?_
    exact Keeps.rfl
  · refine Ends.ite ?_ ?_
    · refine Ends.next ?_
      refine Keeps.after ?_ (State.takeOp_keeps ..) (by decide +kernel)
      refine Keeps.bump ?_ (by decide +kernel)
      exact Keeps.rfl
    · refine Ends.next ?_
      exact Keeps.rfl

def execPacketDepart_touch : Nat := touchSet [.now] [] ||| State.shapeOut_touch ||| State.depart_touch

theorem execPacketDepart_ends (conn : ℕ) (s : State) : Ends execPacketDepart_touch s (execPacketDepart conn s) := by
  unfold execPacketDepart
  extract_lets x1 x2 x3 x4
  split
  · refine Ends.next ?_
    exact Keeps.rfl
  · refine Ends.ite ?_ ?_
    · refine Ends.next ?_
      exact Keeps.rfl
    · refine Ends.ite ?_ ?_
      · refine Ends.next ?_
        refine Keeps.after ?_ (State.depart_keeps ..) (by decide +kernel)
        exact Keeps.rfl
      · refine Ends.ite ?_ ?_
        · refine Ends.next ?_
          exact Keeps.rfl
        · split
          · refine Ends.next ?_
            refine Keeps.after ?_ (State.shapeWait_keeps ..) (by decide +kernel)
            refine Keeps.ite ?_ ?_
            · refine Keeps.after ?_ (State.reach_keeps ..) (by decide +kernel)
              exact Keeps.rfl
            · exact Keeps.rfl
          · extract_lets x5 x6
            refine Ends.next ?_
            refine Keeps.after ?_ (State.modConn_keeps ..) (by decide +kernel)
            refine Keeps.after ?_ (State.depart_keeps ..) (by decide +kernel)
            refine Keeps.after ?_ (KeepsO.get (by assumption) (State.shapeOut_keeps _ _ _)) (by decide +kernel)
            refine Keeps.ite ?_ ?_
            · refine Keeps.after ?_ (State.reach_keeps ..) (by decide +kernel)
              exact Keeps.rfl
            · exact Keeps.rfl

def execPacketHoldExpiry_touch : Nat := touchSet [.now] [.XT_NAK_SEQ] ||| State.sendCtl_touch

theorem execPacketHoldExpiry_ends (conn : ℕ) (s : State) : Ends execPacketHoldExpiry_touch s (execPacketHoldExpiry conn
    s) := by
  unfold execPacketHoldExpiry
  split
  · refine Ends.next ?_
    exact Keeps.rfl
  · extract_lets x1
    refine Ends.next ?_
    refine Keeps.bump ?_ (by decide +kernel)
    refine Keeps.after ?_ (State.sendCtl_keeps ..) (by decide +kernel)
    refine Keeps.after ?_ (State.modConn_keeps ..) (by decide +kernel)
    refine Keeps.after ?_ (State.reach_keeps ..) (by decide +kernel)
    exact Keeps.rfl

def execPfcPause_touch : Nat := touchSet [.net] [.XT_PFC_RX_NS]

theorem execPfcPause_ends (die : ℕ) (port : ℕ) (cls : ℕ) (durationNs : ℕ) (s : State) : Ends execPfcPause_touch s
    (execPfcPause die port cls durationNs s) := by
  unfold execPfcPause
  extract_lets x1 x2 x3 x4 x5
  refine Ends.ite ?_ ?_
  · refine Ends.next ?_
    exact Keeps.rfl
  · refine Ends.ite ?_ ?_
    · refine Ends.next ?_
      refine Keeps.net ?_ (by decide +kernel)
      refine Keeps.bump ?_ (by decide +kernel)
      exact Keeps.rfl
    · refine Ends.next ?_
      refine Keeps.net ?_ (by decide +kernel)
      exact Keeps.rfl

def execPfcPauseExpiry_touch : Nat := touchSet [.net, .now] [.XT_PFC_RX_NS]

theorem execPfcPauseExpiry_ends (die : ℕ) (port : ℕ) (cls : ℕ) (s : State) : Ends execPfcPauseExpiry_touch s
    (execPfcPauseExpiry die port cls s) := by
  unfold execPfcPauseExpiry
  split
  · refine Ends.next ?_
    exact Keeps.rfl
  · extract_lets x1 x2
    refine Ends.next ?_
    refine Keeps.net ?_ (by decide +kernel)
    refine Keeps.bump ?_ (by decide +kernel)
    refine Keeps.after ?_ (State.reach_keeps ..) (by decide +kernel)
    exact Keeps.rfl

def execReadReq_touch : Nat := State.rxData_touch

theorem execReadReq_ends (p : Pkt) (s : State) : Ends execReadReq_touch s (execReadReq p s) := by
  unfold execReadReq
  refine Ends.next ?_
  refine Keeps.after ?_ (State.rxData_keeps ..) (by decide +kernel)
  exact Keeps.rfl

def execReadRsp_touch : Nat := State.rxData_touch

theorem execReadRsp_ends (p : Pkt) (s : State) : Ends execReadRsp_touch s (execReadRsp p s) := by
  unfold execReadRsp
  refine Ends.next ?_
  refine Keeps.after ?_ (State.rxData_keeps ..) (by decide +kernel)
  exact Keeps.rfl

def execRetransmitTimeout_touch : Nat := touchSet [.now] [.XT_CONN_CC, .XT_RTO] ||| State.loseConn_touch

theorem execRetransmitTimeout_ends (conn : ℕ) (s : State) : Ends execRetransmitTimeout_touch s (execRetransmitTimeout
    conn s) := by
  unfold execRetransmitTimeout
  split
  · refine Ends.next ?_
    exact Keeps.rfl
  · refine Ends.ite ?_ ?_
    · extract_lets x1 x2 x3 x4
      refine Ends.ite ?_ ?_
      · refine Ends.next ?_
        refine Keeps.after ?_ (State.loseConn_keeps ..) (by decide +kernel)
        refine Keeps.bump ?_ (by decide +kernel)
        refine Keeps.after ?_ (State.reach_keeps ..) (by decide +kernel)
        exact Keeps.rfl
      · refine Ends.next ?_
        refine Keeps.after ?_ (State.ccLoss_keeps ..) (by decide +kernel)
        refine Keeps.after ?_ (State.modConn_keeps ..) (by decide +kernel)
        refine Keeps.bump ?_ (by decide +kernel)
        refine Keeps.after ?_ (State.reach_keeps ..) (by decide +kernel)
        exact Keeps.rfl
    · refine Ends.next ?_
      exact Keeps.rfl

def execRevocationComplete_touch : Nat := touchSet [] [.XT_RGN_REVOKES] ||| State.retryFp16_touch

theorem execRevocationComplete_ends (r : ℕ) (s : State) : Ends execRevocationComplete_touch s (execRevocationComplete r
    s) := by
  unfold execRevocationComplete
  refine Ends.ite ?_ ?_
  · extract_lets x1 x2
    refine Ends.next ?_
    refine Keeps.after ?_ (State.retryFp16_keeps ..) (by decide +kernel)
    refine Keeps.after ?_ (State.signal_keeps ..) (by decide +kernel)
    refine Keeps.bump ?_ (by decide +kernel)
    refine Keeps.setFld ?_ (by decide +kernel)
    refine Keeps.setFld ?_ (by decide +kernel)
    exact Keeps.rfl
  · refine Ends.next ?_
    exact Keeps.rfl

def execRevoke_touch : Nat := State.revokeBy_touch

theorem execRevoke_ends (r : ℕ) (loc : W64) (s : State) : Ends execRevoke_touch s (execRevoke r loc s) := by
  unfold execRevoke
  refine Ends.after ?_ (State.revokeBy_ends ..) (by decide +kernel)
  exact Keeps.rfl

def execSend_touch : Nat := State.rxData_touch

theorem execSend_ends (p : Pkt) (s : State) : Ends execSend_touch s (execSend p s) := by
  unfold execSend
  refine Ends.next ?_
  refine Keeps.after ?_ (State.rxData_keeps ..) (by decide +kernel)
  exact Keeps.rfl

def execSignal_touch : Nat := State.rxData_touch

theorem execSignal_ends (p : Pkt) (s : State) : Ends execSignal_touch s (execSignal p s) := by
  unfold execSignal
  refine Ends.next ?_
  refine Keeps.after ?_ (State.rxData_keeps ..) (by decide +kernel)
  exact Keeps.rfl

def execSyAdd_touch : Nat := State.signal_touch

theorem execSyAdd_ends (i : ℕ) (value : W64) (s : State) : Ends execSyAdd_touch s (execSyAdd i value s) := by
  unfold execSyAdd
  refine Ends.next ?_
  refine Keeps.after ?_ (State.signal_keeps ..) (by decide +kernel)
  exact Keeps.rfl

def execSyValWrite_touch : Nat := touchSet [] [.SY_VAL] ||| State.releaseTriggers_touch

theorem execSyValWrite_ends (i : ℕ) (value : W64) (s : State) : Ends execSyValWrite_touch s (execSyValWrite i value s)
    := by
  unfold execSyValWrite
  refine Ends.next ?_
  refine Keeps.after ?_ (State.releaseTriggers_keeps ..) (by decide +kernel)
  refine Keeps.setReg ?_ (by decide +kernel)
  exact Keeps.rfl

def execValidate_touch : Nat := State.validateBy_touch

theorem execValidate_ends (r : ℕ) (loc : W64) (s : State) : Ends execValidate_touch s (execValidate r loc s) := by
  unfold execValidate
  refine Ends.after ?_ (State.validateBy_ends ..) (by decide +kernel)
  exact Keeps.rfl

def execWrite_touch : Nat := State.rxData_touch

theorem execWrite_ends (p : Pkt) (s : State) : Ends execWrite_touch s (execWrite p s) := by
  unfold execWrite
  refine Ends.next ?_
  refine Keeps.after ?_ (State.rxData_keeps ..) (by decide +kernel)
  exact Keeps.rfl

def execWriteSignal_touch : Nat := State.rxData_touch

theorem execWriteSignal_ends (p : Pkt) (s : State) : Ends execWriteSignal_touch s (execWriteSignal p s) := by
  unfold execWriteSignal
  refine Ends.next ?_
  refine Keeps.after ?_ (State.rxData_keeps ..) (by decide +kernel)
  exact Keeps.rfl

end Sys2Proof.Machine
end

