-- ==== Sys2Proof/Laws/KeepLeases.lean ====
section
/-! SUPPORT. What each operation of Machine/Leases.lean can change. -/

namespace Sys2Proof.Machine

set_option Elab.async false

def State.dropPoolLease_touch : Nat := touchSet [.ten] []

theorem State.dropPoolLease_keeps (key : W64) (s : State) : Keeps State.dropPoolLease_touch s (State.dropPoolLease key
    s) := by
  unfold State.dropPoolLease
  refine Keeps.ten ?_ (by decide +kernel)
  exact Keeps.rfl

def State.setPoolLease_touch : Nat := touchSet [.ten] [.TN_POOL_RECORDS_MAX]

theorem State.setPoolLease_keeps (l : PoolLease) (s : State) : Keeps State.setPoolLease_touch s (State.setPoolLease l s)
    := by
  unfold State.setPoolLease
  extract_lets x1 x2 x3
  refine Keeps.raise ?_ (by decide +kernel)
  refine Keeps.ten ?_ (by decide +kernel)
  exact Keeps.rfl

def State.extendLease_touch : Nat := State.setPoolLease_touch

theorem State.extendLease_keeps (key : W64) (s : State) : Keeps State.extendLease_touch s (State.extendLease key s) :=
    by
  unfold State.extendLease
  split
  · refine Keeps.after ?_ (State.setPoolLease_keeps ..) (by decide +kernel)
    exact Keeps.rfl
  · exact Keeps.rfl

def State.firstPhase_touch : Nat := State.phaseUpdate_touch

theorem State.firstPhase_keeps (g : GroupJob) (s : State) : Keeps State.firstPhase_touch s (State.firstPhase g s) := by
  unfold State.firstPhase
  refine Keeps.ite ?_ ?_
  · refine Keeps.after ?_ (State.phaseSearch_keeps ..) (by decide +kernel)
    exact Keeps.rfl
  · refine Keeps.after ?_ (State.phaseUpdate_keeps ..) (by decide +kernel)
    exact Keeps.rfl

def State.leaseConfirmed_touch : Nat := touchSet [] [.TN_LEASE_ACQUIRED] ||| State.firstPhase_touch

theorem State.leaseConfirmed_keeps (l : HeadLease) (s : State) : Keeps State.leaseConfirmed_touch s
    (State.leaseConfirmed l s) := by
  unfold State.leaseConfirmed
  extract_lets x1 x2 x3 x4
  refine Keeps.ite ?_ ?_
  · split
    · refine Keeps.ite ?_ ?_
      · refine Keeps.ite ?_ ?_
        · refine Keeps.after ?_ (State.park_keeps ..) (by decide +kernel)
          refine Keeps.after ?_ (State.settleGroup_keeps ..) (by decide +kernel)
          refine Keeps.ite ?_ ?_
          · refine Keeps.bump ?_ (by decide +kernel)
            refine Keeps.after ?_ (State.setLease_keeps ..) (by decide +kernel)
            exact Keeps.rfl
          · refine Keeps.after ?_ (State.setLease_keeps ..) (by decide +kernel)
            exact Keeps.rfl
        · refine Keeps.after ?_ (State.settleGroup_keeps ..) (by decide +kernel)
          refine Keeps.ite ?_ ?_
          · refine Keeps.bump ?_ (by decide +kernel)
            refine Keeps.after ?_ (State.setLease_keeps ..) (by decide +kernel)
            exact Keeps.rfl
          · refine Keeps.after ?_ (State.setLease_keeps ..) (by decide +kernel)
            exact Keeps.rfl
      · refine Keeps.after ?_ (State.firstPhase_keeps ..) (by decide +kernel)
        refine Keeps.ite ?_ ?_
        · refine Keeps.bump ?_ (by decide +kernel)
          refine Keeps.after ?_ (State.setLease_keeps ..) (by decide +kernel)
          exact Keeps.rfl
        · refine Keeps.after ?_ (State.setLease_keeps ..) (by decide +kernel)
          exact Keeps.rfl
    · refine Keeps.ite ?_ ?_
      · refine Keeps.bump ?_ (by decide +kernel)
        refine Keeps.after ?_ (State.setLease_keeps ..) (by decide +kernel)
        exact Keeps.rfl
      · refine Keeps.after ?_ (State.setLease_keeps ..) (by decide +kernel)
        exact Keeps.rfl
  · refine Keeps.after ?_ (State.setLease_keeps ..) (by decide +kernel)
    exact Keeps.rfl

def State.loseLease_touch : Nat := touchSet [] [.TN_LEASE_LOST] ||| State.tearGroup_touch

theorem State.loseLease_keeps (l : HeadLease) (met : ℕ) (s : State) : Keeps State.loseLease_touch s (State.loseLease l
    met s) := by
  unfold State.loseLease
  extract_lets x1 x2
  split
  · refine Keeps.after ?_ (State.dropLease_keeps ..) (by decide +kernel)
    exact Keeps.rfl
  · extract_lets x3
    refine Keeps.after ?_ (State.tearGroup_keeps ..) (by decide +kernel)
    refine Keeps.after ?_ (State.log_keeps ..) (by decide +kernel)
    refine Keeps.bump ?_ (by decide +kernel)
    refine Keeps.after ?_ (State.dropLease_keeps ..) (by decide +kernel)
    exact Keeps.rfl

def State.poolYields_touch : Nat := touchSet [] [.TN_LEASE_CONFLICT] ||| State.log_touch ||| State.setPoolLease_touch

theorem State.poolYields_keeps (r : PoolLease) (m : LeaseMsg) (s : State) : Keeps State.poolYields_touch s
    (State.poolYields r m s) := by
  unfold State.poolYields
  refine Keeps.after ?_ (State.log_keeps ..) (by decide +kernel)
  refine Keeps.bump ?_ (by decide +kernel)
  refine Keeps.after ?_ (State.setPoolLease_keeps ..) (by decide +kernel)
  exact Keeps.rfl

def State.replyLease_touch : Nat := State.postSend_touch

theorem State.replyLease_keeps (conn : ℕ) (m : LeaseMsg) (ok : Bool) (s : State) : Keeps State.replyLease_touch s
    (State.replyLease conn m ok s) := by
  unfold State.replyLease
  split
  · refine Keeps.after ?_ (State.postSend_keeps ..) (by decide +kernel)
    exact Keeps.rfl
  · refine Keeps.after ?_ (State.postSend_keeps ..) (by decide +kernel)
    exact Keeps.rfl

def State.poolAct_touch : Nat := State.poolYields_touch ||| State.replyLease_touch

theorem State.poolAct_keeps (conn : ℕ) (m : LeaseMsg) (r : PoolLease) (s : State) : Keeps State.poolAct_touch s
    (State.poolAct conn m r s) := by
  unfold State.poolAct
  split
  · refine Keeps.ite ?_ ?_
    · refine Keeps.after ?_ (State.replyLease_keeps ..) (by decide +kernel)
      refine Keeps.after ?_ (State.extendLease_keeps ..) (by decide +kernel)
      exact Keeps.rfl
    · refine Keeps.ite ?_ ?_
      · refine Keeps.after ?_ (State.replyLease_keeps ..) (by decide +kernel)
        refine Keeps.after ?_ (State.extendLease_keeps ..) (by decide +kernel)
        refine Keeps.after ?_ (State.poolYields_keeps ..) (by decide +kernel)
        exact Keeps.rfl
      · refine Keeps.after ?_ (State.replyLease_keeps ..) (by decide +kernel)
        exact Keeps.rfl
  · refine Keeps.ite ?_ ?_
    · refine Keeps.after ?_ (State.replyLease_keeps ..) (by decide +kernel)
      refine Keeps.after ?_ (State.setPoolLease_keeps ..) (by decide +kernel)
      exact Keeps.rfl
    · refine Keeps.ite ?_ ?_
      · refine Keeps.after ?_ (State.replyLease_keeps ..) (by decide +kernel)
        refine Keeps.after ?_ (State.poolYields_keeps ..) (by decide +kernel)
        exact Keeps.rfl
      · refine Keeps.after ?_ (State.replyLease_keeps ..) (by decide +kernel)
        exact Keeps.rfl
  · refine Keeps.ite ?_ ?_
    · refine Keeps.after ?_ (State.replyLease_keeps ..) (by decide +kernel)
      refine Keeps.after ?_ (State.extendLease_keeps ..) (by decide +kernel)
      refine Keeps.after ?_ (State.setPoolLease_keeps ..) (by decide +kernel)
      exact Keeps.rfl
    · refine Keeps.after ?_ (State.replyLease_keeps ..) (by decide +kernel)
      exact Keeps.rfl
  · refine Keeps.after ?_ (State.dropPoolLease_keeps ..) (by decide +kernel)
    exact Keeps.rfl
  · exact Keeps.rfl

def State.takeLease_touch : Nat := touchSet [.net] []

theorem State.takeLease_keeps (conn : ℕ) (lop : ℕ) (s : State) : KeepsP State.takeLease_touch s (State.takeLease conn
    lop s) := by
  unfold State.takeLease
  extract_lets x1 x2
  split
  · refine KeepsP.ite ?_ ?_
    · extract_lets x3
      refine KeepsP.some ?_
      refine Keeps.after ?_ (State.setConn_keeps ..) (by decide +kernel)
      refine Keeps.after ?_ (State.freePool_keeps ..) (by decide +kernel)
      exact Keeps.rfl
    · exact KeepsP.none
  · exact KeepsP.none

def State.poolMsg_touch : Nat := State.poolAct_touch

theorem State.poolMsg_keeps (conn : ℕ) (lop : ℕ) (s : State) : Keeps State.poolMsg_touch s (State.poolMsg conn lop s) :=
    by
  unfold State.poolMsg
  split
  · exact Keeps.rfl
  · split
    · refine Keeps.after ?_ (State.poolAct_keeps ..) (by decide +kernel)
      refine Keeps.after ?_ (KeepsP.get (by assumption) (State.takeLease_keeps _ _ _)) (by decide +kernel)
      exact Keeps.rfl
    · refine Keeps.after ?_ (State.replyLease_keeps ..) (by decide +kernel)
      refine Keeps.after ?_ (KeepsP.get (by assumption) (State.takeLease_keeps _ _ _)) (by decide +kernel)
      exact Keeps.rfl

def execAcquire_touch : Nat := State.replyLease_touch ||| State.setPoolLease_touch

theorem execAcquire_ends (conn : ℕ) (s : State) : Ends execAcquire_touch s (execAcquire conn s) := by
  unfold execAcquire
  split
  · refine Ends.next ?_
    exact Keeps.rfl
  · split
    · refine Ends.ite ?_ ?_
      · refine Ends.next ?_
        refine Keeps.after ?_ (State.replyLease_keeps ..) (by decide +kernel)
        refine Keeps.after ?_ (State.extendLease_keeps ..) (by decide +kernel)
        refine Keeps.after ?_ (KeepsP.get (by assumption) (State.takeLease_keeps _ _ _)) (by decide +kernel)
        exact Keeps.rfl
      · refine Ends.next ?_
        refine Keeps.after ?_ (State.replyLease_keeps ..) (by decide +kernel)
        refine Keeps.after ?_ (KeepsP.get (by assumption) (State.takeLease_keeps _ _ _)) (by decide +kernel)
        exact Keeps.rfl
    · refine Ends.ite ?_ ?_
      · refine Ends.next ?_
        refine Keeps.after ?_ (State.replyLease_keeps ..) (by decide +kernel)
        refine Keeps.after ?_ (State.setPoolLease_keeps ..) (by decide +kernel)
        refine Keeps.after ?_ (KeepsP.get (by assumption) (State.takeLease_keeps _ _ _)) (by decide +kernel)
        exact Keeps.rfl
      · refine Ends.next ?_
        refine Keeps.after ?_ (State.replyLease_keeps ..) (by decide +kernel)
        refine Keeps.after ?_ (KeepsP.get (by assumption) (State.takeLease_keeps _ _ _)) (by decide +kernel)
        exact Keeps.rfl

def execClaim_touch : Nat := State.poolMsg_touch

theorem execClaim_ends (conn : ℕ) (s : State) : Ends execClaim_touch s (execClaim conn s) := by
  unfold execClaim
  refine Ends.next ?_
  refine Keeps.after ?_ (State.poolMsg_keeps ..) (by decide +kernel)
  exact Keeps.rfl

def execLeaseExpiry_touch : Nat := touchSet [.now] [] ||| State.loseLease_touch

theorem execLeaseExpiry_ends (key : W64) (s : State) : Ends execLeaseExpiry_touch s (execLeaseExpiry key s) := by
  unfold execLeaseExpiry
  split
  · refine Ends.next ?_
    refine Keeps.after ?_ (State.loseLease_keeps ..) (by decide +kernel)
    refine Keeps.after ?_ (State.reach_keeps ..) (by decide +kernel)
    exact Keeps.rfl
  · refine Ends.next ?_
    exact Keeps.rfl

def execLeaseRenewTimer_touch : Nat := touchSet [.now] [] ||| State.sendLease_touch

theorem execLeaseRenewTimer_ends (key : W64) (s : State) : Ends execLeaseRenewTimer_touch s (execLeaseRenewTimer key s)
    := by
  unfold execLeaseRenewTimer
  split
  · refine Ends.ite ?_ ?_
    · refine Ends.next ?_
      refine Keeps.after ?_ (State.sendLease_keeps ..) (by decide +kernel)
      refine Keeps.after ?_ (State.reach_keeps ..) (by decide +kernel)
      exact Keeps.rfl
    · refine Ends.next ?_
      exact Keeps.rfl
  · refine Ends.next ?_
    exact Keeps.rfl

def execPark_touch : Nat := State.poolMsg_touch

theorem execPark_ends (conn : ℕ) (s : State) : Ends execPark_touch s (execPark conn s) := by
  unfold execPark
  refine Ends.next ?_
  refine Keeps.after ?_ (State.poolMsg_keeps ..) (by decide +kernel)
  exact Keeps.rfl

def execPoolLeaseExpiry_touch : Nat := touchSet [.now, .ten] []

theorem execPoolLeaseExpiry_ends (key : W64) (s : State) : Ends execPoolLeaseExpiry_touch s (execPoolLeaseExpiry key s)
    := by
  unfold execPoolLeaseExpiry
  split
  · refine Ends.next ?_
    refine Keeps.after ?_ (State.dropPoolLease_keeps ..) (by decide +kernel)
    refine Keeps.after ?_ (State.reach_keeps ..) (by decide +kernel)
    exact Keeps.rfl
  · refine Ends.next ?_
    exact Keeps.rfl

def execRelease_touch : Nat := State.poolMsg_touch

theorem execRelease_ends (conn : ℕ) (s : State) : Ends execRelease_touch s (execRelease conn s) := by
  unfold execRelease
  refine Ends.next ?_
  refine Keeps.after ?_ (State.poolMsg_keeps ..) (by decide +kernel)
  exact Keeps.rfl

def execRenew_touch : Nat := State.poolMsg_touch

theorem execRenew_ends (conn : ℕ) (s : State) : Ends execRenew_touch s (execRenew conn s) := by
  unfold execRenew
  refine Ends.next ?_
  refine Keeps.after ?_ (State.poolMsg_keeps ..) (by decide +kernel)
  exact Keeps.rfl

def execReply_touch : Nat := touchSet [] [.TN_LEASE_CONFLICT] ||| State.leaseConfirmed_touch ||| State.loseLease_touch

theorem execReply_ends (conn : ℕ) (s : State) : Ends execReply_touch s (execReply conn s) := by
  unfold execReply
  split
  · refine Ends.next ?_
    exact Keeps.rfl
  · split
    · refine Ends.next ?_
      refine Keeps.after ?_ (KeepsP.get (by assumption) (State.takeLease_keeps _ _ _)) (by decide +kernel)
      exact Keeps.rfl
    · extract_lets x1
      refine Ends.ite ?_ ?_
      · refine Ends.next ?_
        refine Keeps.after ?_ (State.loseLease_keeps ..) (by decide +kernel)
        refine Keeps.after ?_ (KeepsP.get (by assumption) (State.takeLease_keeps _ _ _)) (by decide +kernel)
        exact Keeps.rfl
      · refine Ends.ite ?_ ?_
        · refine Ends.next ?_
          refine Keeps.after ?_ (State.leaseConfirmed_keeps ..) (by decide +kernel)
          refine Keeps.after ?_ (KeepsP.get (by assumption) (State.takeLease_keeps _ _ _)) (by decide +kernel)
          exact Keeps.rfl
        · refine Ends.ite ?_ ?_
          · refine Ends.next ?_
            refine Keeps.after ?_ (State.log_keeps ..) (by decide +kernel)
            refine Keeps.bump ?_ (by decide +kernel)
            refine Keeps.after ?_ (State.setLease_keeps ..) (by decide +kernel)
            refine Keeps.after ?_ (KeepsP.get (by assumption) (State.takeLease_keeps _ _ _)) (by decide +kernel)
            exact Keeps.rfl
          · refine Ends.next ?_
            refine Keeps.after ?_ (KeepsP.get (by assumption) (State.takeLease_keeps _ _ _)) (by decide +kernel)
            exact Keeps.rfl

end Sys2Proof.Machine
end

