-- ==== Sys2Proof/Laws/KeepRegisters.lean ====
section
/-! SUPPORT. What each operation of Machine/Registers.lean can change. -/

namespace Sys2Proof.Machine

set_option Elab.async false

def State.badWidth_touch : Nat := State.log_touch

theorem State.badWidth_keeps (width : ℕ) (loc : W64) (s : State) : Keeps State.badWidth_touch s (State.badWidth width
    loc s) := by
  unfold State.badWidth
  refine Keeps.after ?_ (State.log_keeps ..) (by decide +kernel)
  exact Keeps.rfl

def State.captureReg_touch : Nat := touchSet [.shadowRegs] []

theorem State.captureReg_keeps (c : RegName × ℕ × ℕ) (s : State) : Keeps State.captureReg_touch s (State.captureReg c s)
    := by
  unfold State.captureReg
  extract_lets x1
  refine Keeps.shadowRegs ?_ (by decide +kernel)
  exact Keeps.rfl

def State.writeBind_touch : Nat := touchSet [] [.HQ_CG_CTL, .HQ_CTX_BIND] ||| State.discard_touch

theorem State.writeBind_keeps (c : ℕ) (value : W64) (loc : W64) (s : State) : Keeps State.writeBind_touch s
    (State.writeBind c value loc s) := by
  unfold State.writeBind
  extract_lets x1 x2
  refine Keeps.ite ?_ ?_
  · refine Keeps.after ?_ (State.discard_keeps ..) (by decide +kernel)
    exact Keeps.rfl
  · refine Keeps.ite ?_ ?_
    · refine Keeps.setFld ?_ (by decide +kernel)
      refine Keeps.setReg ?_ (by decide +kernel)
      exact Keeps.rfl
    · refine Keeps.setReg ?_ (by decide +kernel)
      exact Keeps.rfl

def State.writeCg_touch : Nat := execTake_touch

theorem State.writeCg_keeps (g : ℕ) (value : W64) (loc : W64) (s : State) : Keeps State.writeCg_touch s (State.writeCg g
    value loc s) := by
  unfold State.writeCg
  refine Keeps.ite ?_ ?_
  · refine Keeps.ite ?_ ?_
    · refine Keeps.outAfter ?_
      refine Ends.after ?_ (execTake_ends ..) (by decide +kernel)
      exact Keeps.rfl
    · refine Keeps.after ?_ (State.discard_keeps ..) (by decide +kernel)
      exact Keeps.rfl
  · refine Keeps.setFld ?_ (by decide +kernel)
    exact Keeps.rfl

def State.writeChSvc_touch : Nat := State.attachBy_touch

theorem State.writeChSvc_keeps (n : ℕ) (value : W64) (loc : W64) (s : State) : Keeps State.writeChSvc_touch s
    (State.writeChSvc n value loc s) := by
  unfold State.writeChSvc
  split
  · refine Keeps.outAfter ?_
    refine Ends.after ?_ (State.detachBy_ends ..) (by decide +kernel)
    exact Keeps.rfl
  · refine Keeps.outAfter ?_
    refine Ends.after ?_ (State.attachBy_ends ..) (by decide +kernel)
    exact Keeps.rfl
  · refine Keeps.outAfter ?_
    refine Ends.after ?_ (State.abortAttachBy_ends ..) (by decide +kernel)
    exact Keeps.rfl
  · exact Keeps.rfl

def State.writeExcept_touch : Nat := anyReg ||| State.discard_touch

theorem State.writeExcept_keeps (closed : Bool) (fs : List Fld) (r : RegName) (i : ℕ) (j : ℕ) (value : W64) (loc : W64)
    (s : State) : Keeps State.writeExcept_touch s (State.writeExcept closed fs r i j value loc s) := by
  unfold State.writeExcept
  extract_lets x1 x2
  refine Keeps.ite ?_ ?_
  · refine Keeps.setReg ?_ (anyReg_bit (by decide +kernel) _)
    refine Keeps.after ?_ (State.discard_keeps ..) (by decide +kernel)
    exact Keeps.rfl
  · refine Keeps.setReg ?_ (anyReg_bit (by decide +kernel) _)
    exact Keeps.rfl

def State.writeConn_touch : Nat := State.writeExcept_touch ||| execConnectionReset_touch

theorem State.writeConn_keeps (c : ℕ) (value : W64) (loc : W64) (s : State) : Keeps State.writeConn_touch s
    (State.writeConn c value loc s) := by
  unfold State.writeConn
  extract_lets x1 x2
  split
  · refine Keeps.outAfter ?_
    refine Ends.after ?_ (State.connectBy_ends ..) (by decide +kernel)
    refine Keeps.after ?_ (State.writeExcept_keeps ..) (by decide +kernel)
    exact Keeps.rfl
  · refine Keeps.outAfter ?_
    refine Ends.after ?_ (execConnectionReset_ends ..) (by decide +kernel)
    refine Keeps.after ?_ (State.writeExcept_keeps ..) (by decide +kernel)
    exact Keeps.rfl
  · refine Keeps.after ?_ (State.writeExcept_keeps ..) (by decide +kernel)
    exact Keeps.rfl

def State.writeDims_touch : Nat := anyReg ||| State.discard_touch

theorem State.writeDims_keeps (fmt : RrFmt) (n : ℕ) (per : ℕ) (r : RegName) (i : ℕ) (j : ℕ) (value : W64) (loc : W64) (s
    : State) : Keeps State.writeDims_touch s (State.writeDims fmt n per r i j value loc s) := by
  unfold State.writeDims
  refine Keeps.ite ?_ ?_
  · refine Keeps.after ?_ (State.discard_keeps ..) (by decide +kernel)
    exact Keeps.rfl
  · refine Keeps.ite ?_ ?_
    · exact Keeps.rfl
    · refine Keeps.ite ?_ ?_
      · refine Keeps.writeReg ?_ (anyReg_bit (by decide +kernel) _)
        exact Keeps.rfl
      · refine Keeps.writeReg ?_ (anyReg_bit (by decide +kernel) _)
        exact Keeps.rfl

def State.writeDump_touch : Nat := touchSet [] [.DM_INFO] ||| State.startDump_touch

theorem State.writeDump_keeps (value : W64) (s : State) : Keeps State.writeDump_touch s (State.writeDump value s) := by
  unfold State.writeDump
  extract_lets x1 x2
  refine Keeps.ite ?_ ?_
  · refine Keeps.after ?_ (State.startDump_keeps ..) (by decide +kernel)
    refine Keeps.ite ?_ ?_
    · refine Keeps.after ?_ (State.clearDump_keeps ..) (by decide +kernel)
      refine Keeps.writeReg ?_ (by decide +kernel)
      exact Keeps.rfl
    · refine Keeps.writeReg ?_ (by decide +kernel)
      exact Keeps.rfl
  · refine Keeps.ite ?_ ?_
    · refine Keeps.after ?_ (State.clearDump_keeps ..) (by decide +kernel)
      refine Keeps.writeReg ?_ (by decide +kernel)
      exact Keeps.rfl
    · refine Keeps.writeReg ?_ (by decide +kernel)
      exact Keeps.rfl

def State.writeFmt_touch : Nat := anyReg ||| State.discard_touch

theorem State.writeFmt_keeps (r : RegName) (i : ℕ) (j : ℕ) (value : W64) (loc : W64) (s : State) : Keeps
    State.writeFmt_touch s (State.writeFmt r i j value loc s) := by
  unfold State.writeFmt
  extract_lets x1 x2 x3 x4 x5
  refine Keeps.ite ?_ ?_
  · refine Keeps.after ?_ (State.discard_keeps ..) (by decide +kernel)
    exact Keeps.rfl
  · refine Keeps.setReg ?_ (anyReg_bit (by decide +kernel) _)
    exact Keeps.rfl

def State.writeMailbox_touch : Nat := touchSet [] [.HQ_MB_CTL] ||| State.discard_touch

theorem State.writeMailbox_keeps (p : ℕ) (value : W64) (loc : W64) (s : State) : Keeps State.writeMailbox_touch s
    (State.writeMailbox p value loc s) := by
  unfold State.writeMailbox
  extract_lets x1 x2
  refine Keeps.writeReg ?_ (by decide +kernel)
  refine Keeps.ite ?_ ?_
  · refine Keeps.after ?_ (State.discard_keeps ..) (by decide +kernel)
    exact Keeps.rfl
  · exact Keeps.rfl

def State.writeMat_touch : Nat := touchSet [] [.PJ_MAT] ||| State.discard_touch

theorem State.writeMat_keeps (i : ℕ) (j : ℕ) (value : W64) (loc : W64) (s : State) : Keeps State.writeMat_touch s
    (State.writeMat i j value loc s) := by
  unfold State.writeMat
  refine Keeps.ite ?_ ?_
  · refine Keeps.after ?_ (State.discard_keeps ..) (by decide +kernel)
    exact Keeps.rfl
  · extract_lets x1 x2 x3
    refine Keeps.setReg ?_ (by decide +kernel)
    exact Keeps.rfl

def State.writeRgn_touch : Nat := touchSet [.net] [] ||| State.writeExcept_touch

theorem State.writeRgn_keeps (r : ℕ) (value : W64) (loc : W64) (s : State) : Keeps State.writeRgn_touch s
    (State.writeRgn r value loc s) := by
  unfold State.writeRgn
  extract_lets x1 x2
  split
  · refine Keeps.outAfter ?_
    refine Ends.after ?_ (State.validateBy_ends ..) (by decide +kernel)
    refine Keeps.after ?_ (State.writeExcept_keeps ..) (by decide +kernel)
    exact Keeps.rfl
  · refine Keeps.outAfter ?_
    refine Ends.after ?_ (State.revokeBy_ends ..) (by decide +kernel)
    refine Keeps.after ?_ (State.writeExcept_keeps ..) (by decide +kernel)
    exact Keeps.rfl
  · refine Keeps.after ?_ (State.writeExcept_keeps ..) (by decide +kernel)
    exact Keeps.rfl

def State.writeSnap_touch : Nat := touchSet [.shadowRegs] [] ||| anyReg

theorem State.writeSnap_keeps (r : RegName) (i : ℕ) (value : W64) (s : State) : Keeps State.writeSnap_touch s
    (State.writeSnap r i value s) := by
  unfold State.writeSnap
  extract_lets x1 x2
  refine Keeps.ite ?_ ?_
  · refine Keeps.setFld ?_ (anyReg_bit (by decide +kernel) _)
    refine Keeps.forEach _ _ (fun a1 t1 => ?_) ?_
    · refine Keeps.after ?_ (State.captureReg_keeps ..) (by decide +kernel)
      exact Keeps.rfl
    · refine Keeps.setFld ?_ (anyReg_bit (by decide +kernel) _)
      refine Keeps.writeReg ?_ (anyReg_bit (by decide +kernel) _)
      exact Keeps.rfl
  · refine Keeps.writeReg ?_ (anyReg_bit (by decide +kernel) _)
    exact Keeps.rfl

def State.writeSvc_touch : Nat := touchSet [] [.BD_GATED_NS] ||| State.removeBy_touch

theorem State.writeSvc_keeps (u : UnitId) (value : W64) (loc : W64) (s : State) : Keeps State.writeSvc_touch s
    (State.writeSvc u value loc s) := by
  unfold State.writeSvc
  split
  · refine Keeps.outAfter ?_
    refine Ends.after ?_ (State.removeBy_ends ..) (by decide +kernel)
    exact Keeps.rfl
  · refine Keeps.outAfter ?_
    refine Ends.after ?_ (State.returnUnitBy_ends ..) (by decide +kernel)
    exact Keeps.rfl
  · refine Keeps.outAfter ?_
    refine Ends.after ?_ (State.abortReturnBy_ends ..) (by decide +kernel)
    exact Keeps.rfl
  · exact Keeps.rfl

def State.writeTwr_touch : Nat := State.armBy_touch

theorem State.writeTwr_keeps (slot : ℕ) (value : W64) (loc : W64) (s : State) : Keeps State.writeTwr_touch s
    (State.writeTwr slot value loc s) := by
  unfold State.writeTwr
  split
  · refine Keeps.outAfter ?_
    refine Ends.after ?_ (State.armBy_ends ..) (by decide +kernel)
    exact Keeps.rfl
  · refine Keeps.outAfter ?_
    refine Ends.after ?_ (State.disarmBy_ends ..) (by decide +kernel)
    exact Keeps.rfl
  · exact Keeps.rfl

def State.writeUnless_touch : Nat := anyReg ||| State.discard_touch

theorem State.writeUnless_keeps (bad : Bool) (r : RegName) (i : ℕ) (j : ℕ) (value : W64) (loc : W64) (s : State) : Keeps
    State.writeUnless_touch s (State.writeUnless bad r i j value loc s) := by
  unfold State.writeUnless
  refine Keeps.ite ?_ ?_
  · refine Keeps.after ?_ (State.discard_keeps ..) (by decide +kernel)
    exact Keeps.rfl
  · refine Keeps.writeReg ?_ (anyReg_bit (by decide +kernel) _)
    exact Keeps.rfl

def State.writeAny_touch : Nat := touchSet [.tbl] [] ||| State.writeConn_touch ||| execCommit_touch |||
  State.writeChSvc_touch

theorem State.writeAny_keeps (r : RegName) (i : ℕ) (j : ℕ) (value : W64) (loc : W64) (s : State) : Keeps
    State.writeAny_touch s (State.writeAny r i j value loc s) := by
  unfold State.writeAny
  split
  · refine Keeps.outAfter ?_
    refine Ends.after ?_ (execIndexVersionSwitch_ends ..) (by decide +kernel)
    exact Keeps.rfl
  · refine Keeps.after ?_ (State.writeUnless_keeps ..) (by decide +kernel)
    exact Keeps.rfl
  · refine Keeps.after ?_ (State.writeUnless_keeps ..) (by decide +kernel)
    exact Keeps.rfl
  · refine Keeps.after ?_ (State.writeFmt_keeps ..) (by decide +kernel)
    exact Keeps.rfl
  · refine Keeps.after ?_ (State.writeFmt_keeps ..) (by decide +kernel)
    exact Keeps.rfl
  · refine Keeps.after ?_ (State.writeMat_keeps ..) (by decide +kernel)
    exact Keeps.rfl
  · refine Keeps.after ?_ (State.writeDims_keeps ..) (by decide +kernel)
    exact Keeps.rfl
  · refine Keeps.after ?_ (State.writeDims_keeps ..) (by decide +kernel)
    exact Keeps.rfl
  · refine Keeps.after ?_ (State.writeDims_keeps ..) (by decide +kernel)
    exact Keeps.rfl
  · refine Keeps.outAfter ?_
    refine Ends.after ?_ (execTableVersionSwitch_ends ..) (by decide +kernel)
    exact Keeps.rfl
  · extract_lets x1
    refine Keeps.ite ?_ ?_
    · refine Keeps.after ?_ (State.discard_keeps ..) (by decide +kernel)
      exact Keeps.rfl
    · refine Keeps.setReg ?_ (by decide +kernel)
      exact Keeps.rfl
  · refine Keeps.after ?_ (State.writeUnless_keeps ..) (by decide +kernel)
    exact Keeps.rfl
  · refine Keeps.after ?_ (State.writeUnless_keeps ..) (by decide +kernel)
    exact Keeps.rfl
  · refine Keeps.after ?_ (State.writeExcept_keeps ..) (by decide +kernel)
    exact Keeps.rfl
  · refine Keeps.outAfter ?_
    refine Ends.after ?_ (execQuotaLimitWrite_ends ..) (by decide +kernel)
    exact Keeps.rfl
  · refine Keeps.ite ?_ ?_
    · refine Keeps.after ?_ (State.discard_keeps ..) (by decide +kernel)
      exact Keeps.rfl
    · refine Keeps.setFld ?_ (by decide +kernel)
      refine Keeps.writeReg ?_ (by decide +kernel)
      exact Keeps.rfl
  · refine Keeps.after ?_ (State.writeBind_keeps ..) (by decide +kernel)
    exact Keeps.rfl
  · refine Keeps.ite ?_ ?_
    · refine Keeps.outAfter ?_
      refine Ends.after ?_ (execContextOpen_ends ..) (by decide +kernel)
      exact Keeps.rfl
    · refine Keeps.outAfter ?_
      refine Ends.after ?_ (execContextClose_ends ..) (by decide +kernel)
      exact Keeps.rfl
  · refine Keeps.after ?_ (State.writeShard_keeps ..) (by decide +kernel)
    exact Keeps.rfl
  · refine Keeps.after ?_ (State.writeUnless_keeps ..) (by decide +kernel)
    exact Keeps.rfl
  · refine Keeps.after ?_ (State.writeUnless_keeps ..) (by decide +kernel)
    exact Keeps.rfl
  · refine Keeps.outAfter ?_
    refine Ends.after ?_ (execSqDoorbell_ends ..) (by decide +kernel)
    exact Keeps.rfl
  · refine Keeps.outAfter ?_
    refine Ends.after ?_ (execCqDoorbell_ends ..) (by decide +kernel)
    exact Keeps.rfl
  · refine Keeps.after ?_ (State.writeCg_keeps ..) (by decide +kernel)
    exact Keeps.rfl
  · refine Keeps.after ?_ (State.writeMailbox_keeps ..) (by decide +kernel)
    exact Keeps.rfl
  · refine Keeps.after ?_ (State.writeConn_keeps ..) (by decide +kernel)
    exact Keeps.rfl
  · refine Keeps.after ?_ (State.writeExcept_keeps ..) (by decide +kernel)
    exact Keeps.rfl
  · refine Keeps.after ?_ (State.writeUnless_keeps ..) (by decide +kernel)
    exact Keeps.rfl
  · refine Keeps.after ?_ (State.writeRgn_keeps ..) (by decide +kernel)
    exact Keeps.rfl
  · refine Keeps.after ?_ (State.writeTwr_keeps ..) (by decide +kernel)
    exact Keeps.rfl
  · refine Keeps.after ?_ (State.writeUnless_keeps ..) (by decide +kernel)
    exact Keeps.rfl
  · refine Keeps.after ?_ (State.writeExcept_keeps ..) (by decide +kernel)
    exact Keeps.rfl
  · refine Keeps.outAfter ?_
    refine Ends.after ?_ (execSyValWrite_ends ..) (by decide +kernel)
    exact Keeps.rfl
  · refine Keeps.outAfter ?_
    refine Ends.after ?_ (execSyAdd_ends ..) (by decide +kernel)
    exact Keeps.rfl
  · refine Keeps.outAfter ?_
    refine Ends.after ?_ (execPolicerCommit_ends ..) (by decide +kernel)
    exact Keeps.rfl
  · refine Keeps.outAfter ?_
    refine Ends.after ?_ (execStrictCommit_ends ..) (by decide +kernel)
    exact Keeps.rfl
  · refine Keeps.outAfter ?_
    refine Ends.after ?_ (execShaperCommit_ends ..) (by decide +kernel)
    exact Keeps.rfl
  · refine Keeps.ite ?_ ?_
    · refine Keeps.outAfter ?_
      refine Ends.after ?_ (execCommit_ends ..) (by decide +kernel)
      exact Keeps.rfl
    · refine Keeps.writeReg ?_ (by decide +kernel)
      exact Keeps.rfl
  · refine Keeps.after ?_ (State.writeDump_keeps ..) (by decide +kernel)
    exact Keeps.rfl
  · refine Keeps.after ?_ (State.writeSvc_keeps ..) (by decide +kernel)
    exact Keeps.rfl
  · refine Keeps.after ?_ (State.writeSvc_keeps ..) (by decide +kernel)
    exact Keeps.rfl
  · refine Keeps.after ?_ (State.writeSvc_keeps ..) (by decide +kernel)
    exact Keeps.rfl
  · refine Keeps.after ?_ (State.writeChSvc_keeps ..) (by decide +kernel)
    exact Keeps.rfl
  · refine Keeps.after ?_ (State.writeSnap_keeps ..) (by decide +kernel)
    exact Keeps.rfl
  · refine Keeps.after ?_ (State.writeSnap_keeps ..) (by decide +kernel)
    exact Keeps.rfl
  · refine Keeps.after ?_ (State.writeSnap_keeps ..) (by decide +kernel)
    exact Keeps.rfl
  · refine Keeps.after ?_ (State.writeSnap_keeps ..) (by decide +kernel)
    exact Keeps.rfl
  · refine Keeps.after ?_ (State.writeSnap_keeps ..) (by decide +kernel)
    exact Keeps.rfl
  · refine Keeps.after ?_ (State.writeSnap_keeps ..) (by decide +kernel)
    exact Keeps.rfl
  · refine Keeps.writeReg ?_ (anyReg_bit (by decide +kernel) _)
    exact Keeps.rfl

def execAccessWidthRead_touch : Nat := touchSet [.readData] [] ||| State.badWidth_touch

theorem execAccessWidthRead_ends (reg : RegName) (i : ℕ) (j : ℕ) (width : ℕ) (aligned : Bool) (loc : W64) (s : State) :
    Ends execAccessWidthRead_touch s (execAccessWidthRead reg i j width aligned loc s) := by
  unfold execAccessWidthRead
  refine Ends.ite ?_ ?_
  · refine Ends.next ?_
    refine Keeps.readData ?_ (by decide +kernel)
    exact Keeps.rfl
  · refine Ends.ite ?_ ?_
    · refine Ends.next ?_
      refine Keeps.readData ?_ (by decide +kernel)
      exact Keeps.rfl
    · refine Ends.next ?_
      refine Keeps.after ?_ (State.badWidth_keeps ..) (by decide +kernel)
      refine Keeps.readData ?_ (by decide +kernel)
      exact Keeps.rfl

def execReadClear_touch : Nat := touchSet [.readData, .shadowRegs] [] ||| anyReg

theorem execReadClear_ends (reg : RegName) (i : ℕ) (j : ℕ) (inc : ℕ) (s : State) : Ends execReadClear_touch s
    (execReadClear reg i j inc s) := by
  unfold execReadClear
  extract_lets x1 x2
  refine Ends.ite ?_ ?_
  · refine Ends.next ?_
    refine Keeps.readData ?_ (by decide +kernel)
    exact Keeps.rfl
  · refine Ends.ite ?_ ?_
    · refine Ends.next ?_
      refine Keeps.bump ?_ (anyReg_bit (by decide +kernel) _)
      refine Keeps.shadowRegs ?_ (by decide +kernel)
      refine Keeps.readData ?_ (by decide +kernel)
      exact Keeps.rfl
    · refine Ends.next ?_
      refine Keeps.setReg ?_ (anyReg_bit (by decide +kernel) _)
      refine Keeps.readData ?_ (by decide +kernel)
      exact Keeps.rfl

def execSnap_touch : Nat := State.writeSnap_touch

theorem execSnap_ends (reg : RegName) (i : ℕ) (value : W64) (s : State) : Ends execSnap_touch s (execSnap reg i value s)
    := by
  unfold execSnap
  refine Ends.next ?_
  refine Keeps.after ?_ (State.writeSnap_keeps ..) (by decide +kernel)
  exact Keeps.rfl

end Sys2Proof.Machine
end

