-- ==== Sys2Proof/Laws/KeepSelfTest.lean ====
section
/-! SUPPORT. What each operation of Machine/SelfTest.lean can change. -/

namespace Sys2Proof.Machine

set_option Elab.async false

def State.endTest_touch : Nat := touchSet [.dict] [] ||| State.log_touch ||| State.gate_touch

theorem State.endTest_keeps (t : Test) (signature : W64) (expected : W64) (verdict : ℕ) (repairs : ℕ) (tileFaults : ℕ)
    (s : State) : Keeps State.endTest_touch s (State.endTest t signature expected verdict repairs tileFaults s) := by
  unfold State.endTest
  extract_lets x1 x2 x3 x4 x5
  refine Keeps.after ?_ (State.invokeOk_keeps ..) (by decide +kernel)
  refine Keeps.ite ?_ ?_
  · refine Keeps.after ?_ (State.gate_keeps ..) (by decide +kernel)
    refine Keeps.ite ?_ ?_
    · refine Keeps.power ?_ (by decide +kernel)
      exact Keeps.rfl
    · refine Keeps.after ?_ (State.log_keeps ..) (by decide +kernel)
      refine Keeps.power ?_ (by decide +kernel)
      exact Keeps.rfl
  · refine Keeps.ite ?_ ?_
    · refine Keeps.power ?_ (by decide +kernel)
      exact Keeps.rfl
    · refine Keeps.after ?_ (State.log_keeps ..) (by decide +kernel)
      refine Keeps.power ?_ (by decide +kernel)
      exact Keeps.rfl

def State.abortTests_touch : Nat := touchSet [.freeCount] [] ||| State.endTest_touch

theorem State.abortTests_keeps (p : UnitId → Bool) (s : State) : Keeps State.abortTests_touch s (State.abortTests p s)
    := by
  unfold State.abortTests
  refine Keeps.forEach _ _ (fun a1 t1 => ?_) ?_
  · refine Keeps.after ?_ (State.endTest_keeps ..) (by decide +kernel)
    refine Keeps.after ?_ (State.draw_keeps ..) (by decide +kernel)
    refine Keeps.after ?_ (State.draw_keeps ..) (by decide +kernel)
    exact Keeps.rfl
  · exact Keeps.rfl

def execSelfTest_touch : Nat := touchSet [.dict] [] ||| State.ungate_touch

theorem execSelfTest_ends (u : UnitId) (test : ℕ) (s : State) : Ends execSelfTest_touch s (execSelfTest u test s) := by
  unfold execSelfTest
  refine Ends.ite ?_ ?_
  · refine Ends.next ?_
    refine Keeps.after ?_ (State.invokeRefused_keeps ..) (by decide +kernel)
    exact Keeps.rfl
  · extract_lets x1 x2 x3
    refine Ends.next ?_
    refine Keeps.power ?_ (by decide +kernel)
    refine Keeps.ite ?_ ?_
    · refine Keeps.after ?_ (State.ungate_keeps ..) (by decide +kernel)
      exact Keeps.rfl
    · exact Keeps.rfl

def execSelfTestComplete_touch : Nat := touchSet [.now] [] ||| State.endTest_touch

theorem execSelfTestComplete_ends (u : UnitId) (signature : W64) (expected : W64) (verdict : ℕ) (repairs : ℕ)
    (tileFaults : ℕ) (s : State) : Ends execSelfTestComplete_touch s (execSelfTestComplete u signature expected verdict
    repairs tileFaults s) := by
  unfold execSelfTestComplete
  split
  · refine Ends.next ?_
    exact Keeps.rfl
  · extract_lets x1 x2
    refine Ends.next ?_
    refine Keeps.after ?_ (State.endTest_keeps ..) (by decide +kernel)
    refine Keeps.after ?_ (State.reach_keeps ..) (by decide +kernel)
    exact Keeps.rfl

end Sys2Proof.Machine
end

