-- ==== Sys2Proof/Laws/KeepResets.lean ====
section
/-! SUPPORT. What each operation of Machine/Resets.lean can change. -/

namespace Sys2Proof.Machine

set_option Elab.async false

def State.beginCrown_touch : Nat := touchSet [] [.HG_REPLAYED] ||| State.tearJob_touch

theorem State.beginCrown_keeps (d : ℕ) (s : State) : Keeps State.beginCrown_touch s (State.beginCrown d s) := by
  unfold State.beginCrown
  extract_lets x1 x2 x3 x4 x5 x6 x7
  refine Keeps.ras ?_ (by decide +kernel) (Or.inl rfl)
  refine Keeps.forEach _ _ (fun a1 t1 => ?_) ?_
  · refine Keeps.after ?_ (State.dropHold_keeps ..) (by decide +kernel)
    refine Keeps.after ?_ (State.dropTask_keeps ..) (by decide +kernel)
    exact Keeps.rfl
  · refine Keeps.forEach _ _ (fun a1 t1 => ?_) ?_
    · subst x2
      beta_reduce
      refine Keeps.ite ?_ ?_
      · refine Keeps.after ?_ (State.tearQuery_keeps ..) (by decide +kernel)
        exact Keeps.rfl
      · refine Keeps.after ?_ (State.rejoin_keeps ..) (by decide +kernel)
        refine Keeps.after ?_ (State.markReplayed_keeps ..) (by decide +kernel)
        refine Keeps.after ?_ (State.withdraw_keeps ..) (by decide +kernel)
        exact Keeps.rfl
    · refine Keeps.forEach _ _ (fun a1 t1 => ?_) ?_
      · refine Keeps.after ?_ (State.tearJob_keeps ..) (by decide +kernel)
        exact Keeps.rfl
      · exact Keeps.rfl

def State.beginReset_touch : Nat := touchSet [] [.CF_CHANNEL_DOWN] ||| State.loseConn_touch |||
  State.prepareReplay_touch ||| State.beginCrown_touch ||| State.abortTests_touch

theorem State.beginReset_keeps (domain : ℕ) (num : ℕ) (byCommand : Bool) (s : State) : Keeps State.beginReset_touch s
    (State.beginReset domain num byCommand s) := by
  unfold State.beginReset
  extract_lets x1 x2 x3
  split
  · refine Keeps.after ?_ (State.prepareReplay_keeps ..) (by decide +kernel)
    refine Keeps.after ?_ (State.abortTests_keeps ..) (by decide +kernel)
    refine Keeps.ras ?_ (by decide +kernel) (Or.inl rfl)
    exact Keeps.rfl
  · refine Keeps.after ?_ (State.downAll_keeps ..) (by decide +kernel)
    refine Keeps.after ?_ (State.abortTests_keeps ..) (by decide +kernel)
    refine Keeps.ras ?_ (by decide +kernel) (Or.inl rfl)
    exact Keeps.rfl
  · refine Keeps.after ?_ (State.beginCrown_keeps ..) (by decide +kernel)
    refine Keeps.after ?_ (State.abortTests_keeps ..) (by decide +kernel)
    refine Keeps.ras ?_ (by decide +kernel) (Or.inl rfl)
    exact Keeps.rfl
  · refine Keeps.forEach _ _ (fun a1 t1 => ?_) ?_
    · refine Keeps.after ?_ (State.loseConn_keeps ..) (by decide +kernel)
      exact Keeps.rfl
    · refine Keeps.after ?_ (State.abortTests_keeps ..) (by decide +kernel)
      refine Keeps.ras ?_ (by decide +kernel) (Or.inl rfl)
      exact Keeps.rfl
  · refine Keeps.after ?_ (State.abortTests_keeps ..) (by decide +kernel)
    refine Keeps.ras ?_ (by decide +kernel) (Or.inl rfl)
    exact Keeps.rfl

def State.resetDomains_touch : Nat := touchSet [.freeCount, .out] [] ||| State.resetAll_touch

theorem State.resetDomains_keeps (s : State) : Keeps State.resetDomains_touch s (State.resetDomains s) := by
  unfold State.resetDomains
  extract_lets x1 x2 x3 x4 x5 x6 x7 x8
  refine Keeps.ras ?_ (by decide +kernel) (Or.inl rfl)
  refine Keeps.after ?_ (State.resetAll_keeps ..) (by decide +kernel)
  refine Keeps.start ?_ (by decide +kernel)
  refine Keeps.after ?_ (State.log_keeps ..) (by decide +kernel)
  refine Keeps.after ?_ (State.draw_keeps ..) (by decide +kernel)
  exact Keeps.rfl

def State.endContexts_touch : Nat := touchSet [.hostMem] [] ||| State.resetDomains_touch

theorem State.endContexts_keeps (s : State) : Keeps State.endContexts_touch s (State.endContexts s) := by
  unfold State.endContexts
  extract_lets x1 x2
  refine Keeps.ite ?_ ?_
  · refine Keeps.after ?_ (State.resetDomains_keeps ..) (by decide +kernel)
    refine Keeps.forEach _ _ (fun a1 t1 => ?_) ?_
    · refine Keeps.ite ?_ ?_
      · refine Keeps.after ?_ (State.settleClosing_keeps ..) (by decide +kernel)
        refine Keeps.after ?_ (State.tearAll_keeps ..) (by decide +kernel)
        refine Keeps.setFld ?_ (by decide +kernel)
        refine Keeps.setFld ?_ (by decide +kernel)
        exact Keeps.rfl
      · exact Keeps.rfl
    · exact Keeps.rfl
  · refine Keeps.ras ?_ (by decide +kernel) (Or.inl rfl)
    refine Keeps.forEach _ _ (fun a1 t1 => ?_) ?_
    · refine Keeps.ite ?_ ?_
      · refine Keeps.after ?_ (State.settleClosing_keeps ..) (by decide +kernel)
        refine Keeps.after ?_ (State.tearAll_keeps ..) (by decide +kernel)
        refine Keeps.setFld ?_ (by decide +kernel)
        refine Keeps.setFld ?_ (by decide +kernel)
        exact Keeps.rfl
      · exact Keeps.rfl
    · exact Keeps.rfl

def State.afterDump_touch : Nat := State.endContexts_touch

theorem State.afterDump_keeps (s : State) : Keeps State.afterDump_touch s (State.afterDump s) := by
  unfold State.afterDump
  refine Keeps.ite ?_ ?_
  · exact Keeps.rfl
  · split
    · exact Keeps.rfl
    · extract_lets x1 x2 x3
      refine Keeps.ite ?_ ?_
      · refine Keeps.after ?_ (State.endContexts_keeps ..) (by decide +kernel)
        refine Keeps.ras ?_ (by decide +kernel) (Or.inl rfl)
        exact Keeps.rfl
      · refine Keeps.ite ?_ ?_
        · refine Keeps.ras ?_ (by decide +kernel) (Or.inl rfl)
          exact Keeps.rfl
        · refine Keeps.after ?_ (State.beginReset_keeps ..) (by decide +kernel)
          refine Keeps.ras ?_ (by decide +kernel) (Or.inl rfl)
          exact Keeps.rfl

def State.resetBandRegs_touch : Nat := touchSet [.shadowRegs] [.BD_BLOCKS, .BD_BYTES_READ, .BD_CAND_EMIT,
  .BD_CHECKPOINTS, .BD_CTL, .BD_EMIT_STALL_CYC, .BD_FLT_ALLOWED, .BD_FLT_QBM_BYTES, .BD_GATED_NS, .BD_LANE_CYC,
  .BD_PLANES_SKIP, .BD_REDUCE, .BD_REMOTE_TASKS, .BD_RR_REBUILT, .BD_SEG_SKIP, .BD_SKIP_ERROR, .BD_SKIP_SUMMARY,
  .BD_SKIP_WORD, .BD_SLOTS_ABANDONED, .BD_SLOTS_DONE, .BD_SNAP, .BD_STATUS, .BD_TASKS, .BD_THR_CYC, .BD_TILE_CYC,
  .SE_DUP_DROPPED, .SE_REDUCE_ELEMS, .SE_REDUCE_QWAIT_CYC, .SE_REFILL_PASSES]

theorem State.resetBandRegs_keeps (g : ℕ) (s : State) : Keeps State.resetBandRegs_touch s (State.resetBandRegs g s) :=
    by
  unfold State.resetBandRegs
  refine Keeps.after ?_ (State.noteBand_keeps ..) (by decide +kernel)
  refine Keeps.resetRegs ?_ (by decide +kernel) (by decide +kernel)
  exact Keeps.rfl

def State.resetCrownRegs_touch : Nat := touchSet [.power, .ras, .shadowRegs] [.BD_BLOCKS, .BD_BYTES_READ, .BD_CAND_EMIT,
  .BD_CHECKPOINTS, .BD_CTL, .BD_EMIT_STALL_CYC, .BD_FLT_ALLOWED, .BD_FLT_QBM_BYTES, .BD_GATED_NS, .BD_GQ_CFG,
  .BD_GQ_LATE, .BD_GQ_LAUNCH_DEADLINE, .BD_GQ_LAUNCH_FILL, .BD_GQ_LAUNCH_PRESSURE, .BD_GQ_LAUNCH_WINDOW,
  .BD_GQ_NOCTX_NS, .BD_GQ_PAIRS_LAUNCHED, .BD_GQ_POOL_HOLD, .BD_GQ_POOL_MAX, .BD_GQ_POSTED, .BD_GQ_RESUMED,
  .BD_GQ_WAIT_NS, .BD_LANE_CYC, .BD_PLANES_SKIP, .BD_PR_CFG, .BD_PR_CYC, .BD_PR_PASSES, .BD_PR_QUERIES, .BD_REDUCE,
  .BD_REMOTE_TASKS, .BD_RR_REBUILT, .BD_SEG_SKIP, .BD_SKIP_ERROR, .BD_SKIP_SUMMARY, .BD_SKIP_WORD, .BD_SLOTS_ABANDONED,
  .BD_SLOTS_DONE, .BD_SNAP, .BD_STATUS, .BD_TASKS, .BD_THR_CYC, .BD_TILE_CYC, .BD_WD_CEIL_STOP, .BD_WD_DEADLINE_STOP,
  .BD_WD_PAIRS, .BD_WD_QUERIES, .BD_WD_STEPS, .EL_ECC_CORR, .EL_ECC_PPR_PENDING, .EL_ECC_UNCORR, .GE_ABSENT,
  .GE_DEG_FAIL, .GE_DEG_READS, .GE_DEG_REPAIRED, .GE_DOT_PINNED, .GE_DOT_ROWS, .GE_HH_ADDS, .GE_HH_CFG,
  .GE_HH_PROMOTIONS, .GE_HP_DIRTY_MAX, .GE_HP_LOADS, .GE_HP_WRITEBACKS, .GE_LOCK_WAIT, .GE_LOCK_WAIT_NS, .GE_MARKERS,
  .GE_PAR_ONLY, .GE_PAR_RECOMPUTE, .GE_PAR_UNPROTECTED, .GE_PAR_WRITES, .GE_PF_BYTES_DOWN, .GE_PF_BYTES_UP,
  .GE_PF_WAIT_NS, .GE_REBUILD_LOST, .GE_REBUILD_SECTORS, .GE_REQ_REFUSED, .GE_REQ_SERVED, .GE_REQ_UNREACHABLE, .GE_SNAP,
  .GE_SR_DRAWS, .GE_SR_NAN, .GE_SR_SAT, .GE_STATUS, .GE_STRIPE_WAIT_NS, .GE_UPD_ENTRIES, .GE_UPD_STEPS, .PJ_BUSY_CYC,
  .PJ_CLAMP_LEVEL, .PJ_CLAMP_QUERY, .PJ_CLAMP_TSCALE, .PJ_CLAMP_USCALE, .PJ_ENC_INSERT, .PJ_ENC_QUERY, .PJ_MAT_LOADS,
  .PJ_SIGN_NAN, .PJ_SR_DRAWS, .SE_DUP_DROPPED, .SE_DUP_DROPPED_DIE, .SE_MG_APPROX, .SE_MG_BUSY_CYC,
  .SE_MG_FILTER_WAIT_CYC, .SE_MG_FLUSHES, .SE_MG_KEY_PASSES, .SE_MG_PIECES, .SE_MG_REPEAT_PASSES, .SE_MG_ROWS,
  .SE_MG_SHORT, .SE_MG_STATUS, .SE_NAN, .SE_REDUCE_ELEMS, .SE_REDUCE_QWAIT_CYC, .SE_REFILL_PASSES,
  .SE_REFILL_PASSES_DIE, .SE_SNAP] ||| State.resetLanes_touch

theorem State.resetCrownRegs_keeps (d : ℕ) (s : State) : Keeps State.resetCrownRegs_touch s (State.resetCrownRegs d s)
    := by
  unfold State.resetCrownRegs
  extract_lets x1 x2 x3 x4 x5 x6 x7 x8
  refine Keeps.forEach _ _ (fun a1 t1 => ?_) ?_
  · refine Keeps.after ?_ (State.noteBand_keeps ..) (by decide +kernel)
    exact Keeps.rfl
  · refine Keeps.power ?_ (by decide +kernel)
    refine Keeps.after ?_ (State.resetLanes_keeps ..) (by decide +kernel)
    refine Keeps.ras ?_ (by decide +kernel) (Or.inl rfl)
    refine Keeps.resetRegs ?_ (by decide +kernel) (by decide +kernel)
    refine Keeps.resetRegs ?_ (by decide +kernel) (by decide +kernel)
    refine Keeps.resetRegs ?_ (by decide +kernel) (by decide +kernel)
    exact Keeps.rfl

def State.resetFabricRegs_touch : Nat := touchSet [] [.PL_GREEN, .PL_PD_TENANT, .PL_POL_BURST, .PL_POL_CIR, .PL_POL_CTL,
  .PL_POL_PIR, .PL_RED, .PL_RED_BYTES, .PL_UNMAPPED, .PL_YELLOW, .XT_BUSY, .XT_CFG, .XT_CONN_ERRORS, .XT_HOLD_FILLED,
  .XT_MP_DUP, .XT_MP_TABLE_FULL, .XT_NAK_MSG, .XT_NAK_SEQ, .XT_PFC_RX_NS, .XT_PORT_IP_HI, .XT_PORT_IP_LO, .XT_PORT_MAC,
  .XT_PORT_VLAN, .XT_REFUSED_ACCESS, .XT_REFUSED_REVOKED, .XT_REL_CFG, .XT_REORDER_FULL, .XT_RESEND_PKTS, .XT_RTO,
  .XT_RX_BAD, .XT_RX_PKTS, .XT_SNAP, .XT_TC_MAP, .XT_TX_PKTS] ||| State.resetShaper_touch

theorem State.resetFabricRegs_keeps (d : ℕ) (s : State) : Keeps State.resetFabricRegs_touch s (State.resetFabricRegs d
    s) := by
  unfold State.resetFabricRegs
  extract_lets x1 x2 x3 x4 x5
  refine Keeps.pol ?_ (by decide +kernel)
  refine Keeps.after ?_ (State.resetShaper_keeps ..) (by decide +kernel)
  refine Keeps.resetRegs ?_ (by decide +kernel) (by decide +kernel)
  refine Keeps.resetRegs ?_ (by decide +kernel) (by decide +kernel)
  refine Keeps.resetRegs ?_ (by decide +kernel) (by decide +kernel)
  exact Keeps.rfl

def State.tileReset_touch : Nat := touchSet [.boot] [.HG_TILE_FAILED] ||| State.leaveService_touch

theorem State.tileReset_keeps (num : ℕ) (s : State) : Keeps State.tileReset_touch s (State.tileReset num s) := by
  unfold State.tileReset
  extract_lets x1 x2 x3 x4 x5 x6
  refine Keeps.ite ?_ ?_
  · subst x4
    beta_reduce
    refine Keeps.ras ?_ (by decide +kernel) (Or.inl rfl)
    exact Keeps.rfl
  · refine Keeps.ite ?_ ?_
    · refine Keeps.after ?_ (State.writeRepair_keeps ..) (by decide +kernel)
      subst x4
      beta_reduce
      refine Keeps.ras ?_ (by decide +kernel) (Or.inl rfl)
      refine Keeps.bump ?_ (by decide +kernel)
      exact Keeps.rfl
    · refine Keeps.after ?_ (State.leaveService_keeps ..) (by decide +kernel)
      subst x4
      beta_reduce
      refine Keeps.ras ?_ (by decide +kernel) (Or.inl rfl)
      refine Keeps.bump ?_ (by decide +kernel)
      exact Keeps.rfl

def State.afterReset_touch : Nat := touchSet [] [.TN_ACC_JOINED] ||| State.resetCrownRegs_touch |||
  State.retryFp16_touch ||| State.resetFabricRegs_touch ||| State.resetCuff_touch ||| State.tileReset_touch |||
  State.beginStart_touch

theorem State.afterReset_keeps (domain : ℕ) (num : ℕ) (s : State) : Keeps State.afterReset_touch s (State.afterReset
    domain num s) := by
  unfold State.afterReset
  split
  · refine Keeps.after ?_ (State.tileReset_keeps ..) (by decide +kernel)
    exact Keeps.rfl
  · refine Keeps.after ?_ (State.beginSet_keeps ..) (by decide +kernel)
    refine Keeps.after ?_ (State.resetBandRegs_keeps ..) (by decide +kernel)
    exact Keeps.rfl
  · refine Keeps.after ?_ (State.resetCuff_keeps ..) (by decide +kernel)
    exact Keeps.rfl
  · refine Keeps.after ?_ (State.retryFp16_keeps ..) (by decide +kernel)
    refine Keeps.after ?_ (State.resetCrownRegs_keeps ..) (by decide +kernel)
    exact Keeps.rfl
  · refine Keeps.after ?_ (State.resetFabricRegs_keeps ..) (by decide +kernel)
    exact Keeps.rfl
  · refine Keeps.after ?_ (State.beginStart_keeps ..) (by decide +kernel)
    exact Keeps.rfl

def State.deviceReset_touch : Nat := touchSet [.boot] [] ||| State.endContexts_touch

theorem State.deviceReset_keeps (byCommand : Bool) (s : State) : Keeps State.deviceReset_touch s (State.deviceReset
    byCommand s) := by
  unfold State.deviceReset
  refine Keeps.ite ?_ ?_
  · exact Keeps.rfl
  · refine Keeps.ite ?_ ?_
    · refine Keeps.ite ?_ ?_
      · refine Keeps.after ?_ (State.failStart_keeps ..) (by decide +kernel)
        exact Keeps.rfl
      · exact Keeps.rfl
    · extract_lets x1 x2 x3
      refine Keeps.ite ?_ ?_
      · refine Keeps.ite ?_ ?_
        · refine Keeps.after ?_ (State.startDump_keeps ..) (by decide +kernel)
          refine Keeps.ras ?_ (by decide +kernel) (Or.inl rfl)
          exact Keeps.rfl
        · refine Keeps.after ?_ (State.endContexts_keeps ..) (by decide +kernel)
          refine Keeps.after ?_ (State.startDump_keeps ..) (by decide +kernel)
          refine Keeps.ras ?_ (by decide +kernel) (Or.inl rfl)
          exact Keeps.rfl
      · refine Keeps.after ?_ (State.endContexts_keeps ..) (by decide +kernel)
        refine Keeps.ras ?_ (by decide +kernel) (Or.inl rfl)
        exact Keeps.rfl

def State.requestReset_touch : Nat := State.deviceReset_touch

theorem State.requestReset_keeps (domain : ℕ) (num : ℕ) (byCommand : Bool) (s : State) : Keeps State.requestReset_touch
    s (State.requestReset domain num byCommand s) := by
  unfold State.requestReset
  refine Keeps.ite ?_ ?_
  · refine Keeps.after ?_ (State.deviceReset_keeps ..) (by decide +kernel)
    exact Keeps.rfl
  · refine Keeps.ite ?_ ?_
    · exact Keeps.rfl
    · refine Keeps.ite ?_ ?_
      · extract_lets x1
        refine Keeps.ite ?_ ?_
        · refine Keeps.after ?_ (State.startDump_keeps ..) (by decide +kernel)
          exact Keeps.rfl
        · refine Keeps.after ?_ (State.beginReset_keeps ..) (by decide +kernel)
          refine Keeps.after ?_ (State.startDump_keeps ..) (by decide +kernel)
          exact Keeps.rfl
      · refine Keeps.after ?_ (State.beginReset_keeps ..) (by decide +kernel)
        exact Keeps.rfl

def dropReset_touch : Nat := touchSet [.ras] []

theorem dropReset_keeps (domain : ℕ) (num : ℕ) (s : State) : Keeps dropReset_touch s (dropReset domain num s) := by
  unfold dropReset
  refine Keeps.ras ?_ (by decide +kernel) (Or.inl rfl)
  exact Keeps.rfl

def State.escalate_touch : Nat := State.requestReset_touch

theorem State.escalate_keeps (domain : ℕ) (num : ℕ) (s : State) : Keeps State.escalate_touch s (State.escalate domain
    num s) := by
  unfold State.escalate
  extract_lets x1 x2 x3 x4 x5
  split
  · refine Keeps.after ?_ (State.requestReset_keeps ..) (by decide +kernel)
    subst x3
    beta_reduce
    refine Keeps.after ?_ (State.log_keeps ..) (by decide +kernel)
    refine Keeps.bump ?_ (by decide +kernel)
    refine Keeps.after ?_ (dropReset_keeps ..) (by decide +kernel)
    exact Keeps.rfl
  · refine Keeps.after ?_ (State.requestReset_keeps ..) (by decide +kernel)
    refine Keeps.after ?_ (State.leaveService_keeps ..) (by decide +kernel)
    subst x3
    beta_reduce
    refine Keeps.after ?_ (State.log_keeps ..) (by decide +kernel)
    refine Keeps.bump ?_ (by decide +kernel)
    refine Keeps.after ?_ (dropReset_keeps ..) (by decide +kernel)
    exact Keeps.rfl
  · refine Keeps.after ?_ (State.setChan_keeps ..) (by decide +kernel)
    refine Keeps.ite ?_ ?_
    · refine Keeps.after ?_ (State.cuffFault_keeps ..) (by decide +kernel)
      refine Keeps.bump ?_ (by decide +kernel)
      refine Keeps.after ?_ (dropReset_keeps ..) (by decide +kernel)
      exact Keeps.rfl
    · refine Keeps.after ?_ (State.cuffFault_keeps ..) (by decide +kernel)
      subst x3
      beta_reduce
      refine Keeps.after ?_ (State.log_keeps ..) (by decide +kernel)
      refine Keeps.bump ?_ (by decide +kernel)
      refine Keeps.after ?_ (dropReset_keeps ..) (by decide +kernel)
      exact Keeps.rfl
  · refine Keeps.after ?_ (State.deviceReset_keeps ..) (by decide +kernel)
    subst x3
    beta_reduce
    refine Keeps.after ?_ (State.log_keeps ..) (by decide +kernel)
    refine Keeps.bump ?_ (by decide +kernel)
    refine Keeps.after ?_ (dropReset_keeps ..) (by decide +kernel)
    exact Keeps.rfl
  · refine Keeps.after ?_ (State.deviceReset_keeps ..) (by decide +kernel)
    subst x3
    beta_reduce
    refine Keeps.after ?_ (State.log_keeps ..) (by decide +kernel)
    refine Keeps.bump ?_ (by decide +kernel)
    refine Keeps.after ?_ (dropReset_keeps ..) (by decide +kernel)
    exact Keeps.rfl
  · refine Keeps.after ?_ (State.deviceReset_keeps ..) (by decide +kernel)
    refine Keeps.bump ?_ (by decide +kernel)
    refine Keeps.after ?_ (dropReset_keeps ..) (by decide +kernel)
    exact Keeps.rfl

def State.idle_touch : Nat := touchSet [.now] [] ||| State.afterDump_touch

theorem State.idle_keeps (s : State) : Keeps State.idle_touch s (State.idle s) := by
  unfold State.idle
  extract_lets x1
  refine Keeps.ite ?_ ?_
  · refine Keeps.after ?_ (State.afterDump_keeps ..) (by decide +kernel)
    refine Keeps.after ?_ (State.dumpRead_keeps ..) (by decide +kernel)
    refine Keeps.now ?_ (by decide +kernel) (Nat.le_add_right ..)
    exact Keeps.rfl
  · refine Keeps.now ?_ (by decide +kernel) (Nat.le_add_right ..)
    exact Keeps.rfl

def State.releaseStart_touch : Nat := touchSet [.ras] [] ||| State.beginStart_touch

theorem State.releaseStart_keeps (s : State) : Keeps State.releaseStart_touch s (State.releaseStart s) := by
  unfold State.releaseStart
  refine Keeps.ite ?_ ?_
  · exact Keeps.rfl
  · split
    · refine Keeps.ite ?_ ?_
      · refine Keeps.after ?_ (State.beginStart_keeps ..) (by decide +kernel)
        refine Keeps.ras ?_ (by decide +kernel) (Or.inl rfl)
        exact Keeps.rfl
      · refine Keeps.ite ?_ ?_
        · refine Keeps.ras ?_ (by decide +kernel) (Or.inl rfl)
          exact Keeps.rfl
        · exact Keeps.rfl
    · exact Keeps.rfl

def execClear_touch : Nat := State.clearDump_touch

theorem execClear_ends (s : State) : Ends execClear_touch s (execClear s) := by
  unfold execClear
  refine Ends.next ?_
  refine Keeps.after ?_ (State.clearDump_keeps ..) (by decide +kernel)
  exact Keeps.rfl

def execCommitDrainLate_touch : Nat := touchSet [.now] [.TN_CMP_LATE] ||| State.engineMiss_touch

theorem execCommitDrainLate_ends (band : ℕ) (s : State) : Ends execCommitDrainLate_touch s (execCommitDrainLate band s)
    := by
  unfold execCommitDrainLate
  refine Ends.ite ?_ ?_
  · extract_lets x1
    refine Ends.ite ?_ ?_
    · refine Ends.next ?_
      refine Keeps.bump ?_ (by decide +kernel)
      refine Keeps.after ?_ (State.reach_keeps ..) (by decide +kernel)
      exact Keeps.rfl
    · refine Ends.next ?_
      refine Keeps.after ?_ (State.engineMiss_keeps ..) (by decide +kernel)
      refine Keeps.bump ?_ (by decide +kernel)
      refine Keeps.after ?_ (State.reach_keeps ..) (by decide +kernel)
      exact Keeps.rfl
  · refine Ends.next ?_
    exact Keeps.rfl

def execDump_touch : Nat := State.startDump_touch

theorem execDump_ends (s : State) : Ends execDump_touch s (execDump s) := by
  unfold execDump
  refine Ends.next ?_
  refine Keeps.after ?_ (State.startDump_keeps ..) (by decide +kernel)
  exact Keeps.rfl

def execDumpLimitExpiry_touch : Nat := touchSet [.now] [] ||| State.afterDump_touch

theorem execDumpLimitExpiry_ends (s : State) : Ends execDumpLimitExpiry_touch s (execDumpLimitExpiry s) := by
  unfold execDumpLimitExpiry
  extract_lets x1 x2
  refine Ends.ite ?_ ?_
  · refine Ends.next ?_
    refine Keeps.after ?_ (State.afterDump_keeps ..) (by decide +kernel)
    refine Keeps.after ?_ (State.dumpLimit_keeps ..) (by decide +kernel)
    refine Keeps.after ?_ (State.reach_keeps ..) (by decide +kernel)
    exact Keeps.rfl
  · refine Ends.next ?_
    exact Keeps.rfl

def execDumpReadTimeout_touch : Nat := touchSet [.now] [] ||| State.afterDump_touch

theorem execDumpReadTimeout_ends (s : State) : Ends execDumpReadTimeout_touch s (execDumpReadTimeout s) := by
  unfold execDumpReadTimeout
  refine Ends.next ?_
  refine Keeps.after ?_ (State.afterDump_keeps ..) (by decide +kernel)
  refine Keeps.after ?_ (State.dumpTimeout_keeps ..) (by decide +kernel)
  exact Keeps.rfl

def execErrorIrqHoldoff_touch : Nat := touchSet [.now] [] ||| State.errIrq_touch

theorem execErrorIrqHoldoff_ends (s : State) : Ends execErrorIrqHoldoff_touch s (execErrorIrqHoldoff s) := by
  unfold execErrorIrqHoldoff
  refine Ends.ite ?_ ?_
  · extract_lets x1 x2
    refine Ends.next ?_
    refine Keeps.after ?_ (State.errIrq_keeps ..) (by decide +kernel)
    refine Keeps.ras ?_ (by decide +kernel) (Or.inl rfl)
    refine Keeps.after ?_ (State.reach_keeps ..) (by decide +kernel)
    exact Keeps.rfl
  · refine Ends.next ?_
    exact Keeps.rfl

def execErrorWindowClose_touch : Nat := touchSet [.now] [] ||| State.closeErrWin_touch

theorem execErrorWindowClose_ends (kind : ℕ) (num : ℕ) (code : ℕ) (s : State) : Ends execErrorWindowClose_touch s
    (execErrorWindowClose kind num code s) := by
  unfold execErrorWindowClose
  split
  · refine Ends.next ?_
    refine Keeps.after ?_ (State.closeErrWin_keeps ..) (by decide +kernel)
    refine Keeps.after ?_ (State.reach_keeps ..) (by decide +kernel)
    exact Keeps.rfl
  · refine Ends.next ?_
    exact Keeps.rfl

def execPllLossOfLock_touch : Nat := State.escalate_touch

theorem execPllLossOfLock_ends (u : UnitId) (s : State) : Ends execPllLossOfLock_touch s (execPllLossOfLock u s) := by
  unfold execPllLossOfLock
  split
  · refine Ends.next ?_
    refine Keeps.after ?_ (State.escalate_keeps ..) (by decide +kernel)
    exact Keeps.rfl
  · refine Ends.next ?_
    refine Keeps.after ?_ (State.escalate_keeps ..) (by decide +kernel)
    exact Keeps.rfl
  · refine Ends.next ?_
    refine Keeps.after ?_ (State.escalate_keeps ..) (by decide +kernel)
    exact Keeps.rfl
  · refine Ends.next ?_
    refine Keeps.after ?_ (State.escalate_keeps ..) (by decide +kernel)
    exact Keeps.rfl
  · refine Ends.next ?_
    refine Keeps.after ?_ (State.escalate_keeps ..) (by decide +kernel)
    exact Keeps.rfl
  · refine Ends.next ?_
    refine Keeps.after ?_ (State.escalate_keeps ..) (by decide +kernel)
    exact Keeps.rfl
  · refine Ends.next ?_
    refine Keeps.after ?_ (State.deviceReset_keeps ..) (by decide +kernel)
    exact Keeps.rfl

def execPwrLossAssert_touch : Nat := touchSet [.boot, .pins] [] ||| State.abortTests_touch ||| State.startFlush_touch

theorem execPwrLossAssert_ends (s : State) : Ends execPwrLossAssert_touch s (execPwrLossAssert s) := by
  unfold execPwrLossAssert
  refine Ends.ite ?_ ?_
  · refine Ends.next ?_
    exact Keeps.rfl
  · extract_lets x1 x2 x3 x4
    refine Ends.next ?_
    refine Keeps.ite ?_ ?_
    · refine Keeps.after ?_ (State.closeStart_keeps ..) (by decide +kernel)
      refine Keeps.forEach _ _ (fun a1 t1 => ?_) ?_
      · refine Keeps.after ?_ (State.startFlush_keeps ..) (by decide +kernel)
        exact Keeps.rfl
      · refine Keeps.after ?_ (State.abortTests_keeps ..) (by decide +kernel)
        refine Keeps.pins ?_ (by decide +kernel)
        exact Keeps.rfl
    · refine Keeps.forEach _ _ (fun a1 t1 => ?_) ?_
      · refine Keeps.after ?_ (State.startFlush_keeps ..) (by decide +kernel)
        exact Keeps.rfl
      · refine Keeps.after ?_ (State.abortTests_keeps ..) (by decide +kernel)
        refine Keeps.pins ?_ (by decide +kernel)
        exact Keeps.rfl

def execPwrLossDeassert_touch : Nat := touchSet [.pins] [] ||| State.endFlush_touch

theorem execPwrLossDeassert_ends (s : State) : Ends execPwrLossDeassert_touch s (execPwrLossDeassert s) := by
  unfold execPwrLossDeassert
  extract_lets x1 x2
  refine Ends.next ?_
  refine Keeps.forEach _ _ (fun a1 t1 => ?_) ?_
  · refine Keeps.after ?_ (State.endFlush_keeps ..) (by decide +kernel)
    exact Keeps.rfl
  · refine Keeps.pins ?_ (by decide +kernel)
    exact Keeps.rfl

def execReplay_touch : Nat := State.requestReset_touch

theorem execReplay_ends (e : ℕ) (inst : ℕ) (missed : Bool) (s : State) : Ends execReplay_touch s (execReplay e inst
    missed s) := by
  unfold execReplay
  split
  · refine Ends.next ?_
    exact Keeps.rfl
  · extract_lets x1 x2
    refine Ends.ite ?_ ?_
    · refine Ends.next ?_
      exact Keeps.rfl
    · refine Ends.ite ?_ ?_
      · refine Ends.ite ?_ ?_
        · refine Ends.next ?_
          refine Keeps.after ?_ (State.requestReset_keeps ..) (by decide +kernel)
          refine Keeps.after ?_ (State.setSets'_keeps ..) (by decide +kernel)
          exact Keeps.rfl
        · refine Ends.next ?_
          refine Keeps.after ?_ (State.splitSet_keeps ..) (by decide +kernel)
          exact Keeps.rfl
      · refine Ends.ite ?_ ?_
        · refine Ends.next ?_
          refine Keeps.after ?_ (State.endSet_keeps ..) (by decide +kernel)
          exact Keeps.rfl
        · refine Ends.next ?_
          exact Keeps.rfl

def execReset_touch : Nat := State.requestReset_touch

theorem execReset_ends (u : UnitId) (s : State) : Ends execReset_touch s (execReset u s) := by
  unfold execReset
  extract_lets x1
  clear_value x1
  split
  · refine Ends.next ?_
    refine Keeps.after ?_ (State.requestReset_keeps ..) (by decide +kernel)
    exact Keeps.rfl
  · refine Ends.next ?_
    refine Keeps.after ?_ (State.invokeRefused_keeps ..) (by decide +kernel)
    exact Keeps.rfl

def execResetComplete_touch : Nat := touchSet [.dict] [.HG_RESETS] ||| State.afterReset_touch

theorem execResetComplete_ends (domain : ℕ) (num : ℕ) (s : State) : Ends execResetComplete_touch s (execResetComplete
    domain num s) := by
  unfold execResetComplete
  extract_lets x1 x2 x3
  refine Ends.ite ?_ ?_
  · refine Ends.ite ?_ ?_
    · refine Ends.next ?_
      exact Keeps.rfl
    · refine Ends.next ?_
      refine Keeps.after ?_ (State.afterReset_keeps ..) (by decide +kernel)
      subst x2
      beta_reduce
      extract_lets x3
      refine Keeps.bump ?_ (by decide +kernel)
      refine Keeps.after ?_ (State.log_keeps ..) (by decide +kernel)
      refine Keeps.after ?_ (State.draw_keeps ..) (by decide +kernel)
      exact Keeps.rfl
  · split
    · refine Ends.next ?_
      exact Keeps.rfl
    · refine Ends.ite ?_ ?_
      · refine Ends.next ?_
        exact Keeps.rfl
      · refine Ends.next ?_
        refine Keeps.ite ?_ ?_
        · refine Keeps.after ?_ (State.invokeOk_keeps ..) (by decide +kernel)
          refine Keeps.after ?_ (State.afterReset_keeps ..) (by decide +kernel)
          subst x2
          beta_reduce
          extract_lets x3
          refine Keeps.bump ?_ (by decide +kernel)
          refine Keeps.after ?_ (State.log_keeps ..) (by decide +kernel)
          refine Keeps.after ?_ (State.draw_keeps ..) (by decide +kernel)
          refine Keeps.after ?_ (dropReset_keeps ..) (by decide +kernel)
          exact Keeps.rfl
        · refine Keeps.after ?_ (State.afterReset_keeps ..) (by decide +kernel)
          subst x2
          beta_reduce
          extract_lets x3
          refine Keeps.bump ?_ (by decide +kernel)
          refine Keeps.after ?_ (State.log_keeps ..) (by decide +kernel)
          refine Keeps.after ?_ (State.draw_keeps ..) (by decide +kernel)
          refine Keeps.after ?_ (dropReset_keeps ..) (by decide +kernel)
          exact Keeps.rfl

def execResetFlushWaitExpiry_touch : Nat := touchSet [.now] [] ||| State.resetDomains_touch

theorem execResetFlushWaitExpiry_ends (s : State) : Ends execResetFlushWaitExpiry_touch s (execResetFlushWaitExpiry s)
    := by
  unfold execResetFlushWaitExpiry
  split
  · refine Ends.next ?_
    refine Keeps.after ?_ (State.resetDomains_keeps ..) (by decide +kernel)
    refine Keeps.after ?_ (State.reach_keeps ..) (by decide +kernel)
    exact Keeps.rfl
  · refine Ends.next ?_
    exact Keeps.rfl

def execResetNAssert_touch : Nat := touchSet [.pins] [] ||| State.deviceReset_touch

theorem execResetNAssert_ends (s : State) : Ends execResetNAssert_touch s (execResetNAssert s) := by
  unfold execResetNAssert
  refine Ends.ite ?_ ?_
  · refine Ends.next ?_
    exact Keeps.rfl
  · refine Ends.next ?_
    refine Keeps.after ?_ (State.deviceReset_keeps ..) (by decide +kernel)
    refine Keeps.pins ?_ (by decide +kernel)
    exact Keeps.rfl

def execResetNDeassert_touch : Nat := touchSet [.pins] [] ||| State.releaseStart_touch

theorem execResetNDeassert_ends (s : State) : Ends execResetNDeassert_touch s (execResetNDeassert s) := by
  unfold execResetNDeassert
  refine Ends.next ?_
  refine Keeps.after ?_ (State.releaseStart_keeps ..) (by decide +kernel)
  refine Keeps.pins ?_ (by decide +kernel)
  exact Keeps.rfl

def execResetWindowExpiry_touch : Nat := touchSet [.now] [] ||| State.escalate_touch

theorem execResetWindowExpiry_ends (domain : ℕ) (num : ℕ) (s : State) : Ends execResetWindowExpiry_touch s
    (execResetWindowExpiry domain num s) := by
  unfold execResetWindowExpiry
  refine Ends.ite ?_ ?_
  · refine Ends.next ?_
    refine Keeps.ite ?_ ?_
    · refine Keeps.after ?_ (State.escalate_keeps ..) (by decide +kernel)
      exact Keeps.rfl
    · exact Keeps.rfl
  · refine Ends.ite ?_ ?_
    · refine Ends.next ?_
      exact Keeps.rfl
    · split
      · refine Ends.next ?_
        refine Keeps.after ?_ (State.escalate_keeps ..) (by decide +kernel)
        refine Keeps.after ?_ (State.reach_keeps ..) (by decide +kernel)
        exact Keeps.rfl
      · refine Ends.next ?_
        exact Keeps.rfl

def execSpStartTimeout_touch : Nat := touchSet [.now, .pins, .ras] []

theorem execSpStartTimeout_ends (s : State) : Ends execSpStartTimeout_touch s (execSpStartTimeout s) := by
  unfold execSpStartTimeout
  split
  · refine Ends.ite ?_ ?_
    · extract_lets x1 x2 x3
      refine Ends.next ?_
      refine Keeps.update (t := x1) ?_ rfl rfl
        (by intro p hp; cases p <;> first | rfl | exact Nat.le_refl _ | exact absurd hp (by decide +kernel))
        (Nat.le_refl _) (Nat.le_refl _) (State.sound_congr rfl rfl rfl (Or.inl rfl) (Or.inl rfl))
      refine Keeps.after ?_ (State.reach_keeps ..) (by decide +kernel)
      exact Keeps.rfl
    · refine Ends.next ?_
      exact Keeps.rfl
  · refine Ends.next ?_
    exact Keeps.rfl

def execSramUncorrectable_touch : Nat := State.requestReset_touch

theorem execSramUncorrectable_ends (u : UnitId) (array : ℕ) (word : ℕ) (job : Option ℕ) (s : State) : Ends
    execSramUncorrectable_touch s (execSramUncorrectable u array word job s) := by
  unfold execSramUncorrectable
  extract_lets x1 x2 x3 x4 x5
  split
  · extract_lets x6 x7 x8
    refine Ends.next ?_
    refine Keeps.after ?_ (State.tearJobFor_keeps ..) (by decide +kernel)
    refine Keeps.after ?_ (State.log_keeps ..) (by decide +kernel)
    refine Keeps.after ?_ (State.dumpUncorr_keeps ..) (by decide +kernel)
    exact Keeps.rfl
  · refine Ends.next ?_
    refine Keeps.after ?_ (State.requestReset_keeps ..) (by decide +kernel)
    refine Keeps.after ?_ (State.log_keeps ..) (by decide +kernel)
    refine Keeps.after ?_ (State.dumpUncorr_keeps ..) (by decide +kernel)
    exact Keeps.rfl

def execSysclkLoss_touch : Nat := touchSet [.pins] [] ||| State.deviceReset_touch

theorem execSysclkLoss_ends (s : State) : Ends execSysclkLoss_touch s (execSysclkLoss s) := by
  unfold execSysclkLoss
  refine Ends.ite ?_ ?_
  · refine Ends.next ?_
    exact Keeps.rfl
  · refine Ends.next ?_
    refine Keeps.after ?_ (State.deviceReset_keeps ..) (by decide +kernel)
    refine Keeps.pins ?_ (by decide +kernel)
    exact Keeps.rfl

def execSysclkRestored_touch : Nat := touchSet [.pins] [] ||| State.releaseStart_touch

theorem execSysclkRestored_ends (s : State) : Ends execSysclkRestored_touch s (execSysclkRestored s) := by
  unfold execSysclkRestored
  refine Ends.next ?_
  refine Keeps.after ?_ (State.releaseStart_keeps ..) (by decide +kernel)
  refine Keeps.pins ?_ (by decide +kernel)
  exact Keeps.rfl

def execThermtrip_touch : Nat := touchSet [.pins, .power, .ras] [.DM_CTL]

theorem execThermtrip_ends (u : UnitId) (s : State) : Ends execThermtrip_touch s (execThermtrip u s) := by
  unfold execThermtrip
  extract_lets x1 x2 x3 x4
  refine Ends.ite ?_ ?_
  · refine Ends.next ?_
    refine Keeps.setFld ?_ (by decide +kernel)
    refine Keeps.ras ?_ (by decide +kernel) (Or.inl rfl)
    refine Keeps.update (t := s) ?_ rfl rfl
      (by intro p hp; cases p <;> first | rfl | exact Nat.le_refl _ | exact absurd hp (by decide +kernel))
      (Nat.le_refl _) (Nat.le_refl _) (State.sound_congr rfl rfl rfl (Or.inl rfl) (Or.inl rfl))
    exact Keeps.rfl
  · refine Ends.next ?_
    refine Keeps.update (t := s) ?_ rfl rfl
      (by intro p hp; cases p <;> first | rfl | exact Nat.le_refl _ | exact absurd hp (by decide +kernel))
      (Nat.le_refl _) (Nat.le_refl _) (State.sound_congr rfl rfl rfl (Or.inl rfl) (Or.inl rfl))
    exact Keeps.rfl

end Sys2Proof.Machine
end

