-- ==== Sys2Proof/Laws/KeepValues.lean ====
section
/-! SUPPORT. What each operation of Machine/Values.lean can change. -/

namespace Sys2Proof.Machine

set_option Elab.async false

def State.markPending_touch : Nat := touchSet [.dict] []

theorem State.markPending_keeps (index : ℕ) (sub : ℕ) (b : List Byte) (s : State) : Keeps State.markPending_touch s
    (State.markPending index sub b s) := by
  unfold State.markPending
  extract_lets x1 x2
  refine Keeps.dict ?_ (by decide +kernel)
  exact Keeps.rfl

def State.writeFormat_touch : Nat := State.writeAny_touch

theorem State.writeFormat_keeps (k : ℕ) (b : List Byte) (loc : W64) (s : State) : Keeps State.writeFormat_touch s
    (State.writeFormat k b loc s) := by
  unfold State.writeFormat
  extract_lets x1 x2 x3 x4
  refine Keeps.forEach _ _ (fun a1 t1 => ?_) ?_
  · subst x4
    beta_reduce
    extract_lets x4
    refine Keeps.forEach _ _ (fun a2 t2 => ?_) ?_
    · subst x2
      beta_reduce
      refine Keeps.after ?_ (State.writeAny_keeps ..) (by decide +kernel)
      exact Keeps.rfl
    · subst x4
      subst x2
      beta_reduce
      refine Keeps.after ?_ (State.writeAny_keeps ..) (by decide +kernel)
      exact Keeps.rfl
  · refine Keeps.forEach _ _ (fun a1 t1 => ?_) ?_
    · subst x3
      beta_reduce
      extract_lets x4 x5
      refine Keeps.forEach _ _ (fun a2 t2 => ?_) ?_
      · subst x2
        beta_reduce
        refine Keeps.after ?_ (State.writeAny_keeps ..) (by decide +kernel)
        exact Keeps.rfl
      · refine Keeps.forEach _ _ (fun a2 t2 => ?_) ?_
        · subst x2
          beta_reduce
          refine Keeps.after ?_ (State.writeAny_keeps ..) (by decide +kernel)
          exact Keeps.rfl
        · subst x4
          subst x2
          beta_reduce
          refine Keeps.after ?_ (State.writeAny_keeps ..) (by decide +kernel)
          exact Keeps.rfl
    · exact Keeps.rfl

def State.writeCalc_touch : Nat := touchSet [.dict] [] ||| State.writeFormat_touch

theorem State.writeCalc_keeps (index : ℕ) (sub : ℕ) (b : List Byte) (s : State) : Keeps State.writeCalc_touch s
    (State.writeCalc index sub b s) := by
  unfold State.writeCalc
  refine Keeps.ite ?_ ?_
  · extract_lets x1 x2 x3
    refine Keeps.after ?_ (State.setChan_keeps ..) (by decide +kernel)
    exact Keeps.rfl
  · split
    · refine Keeps.outAfter ?_
      refine Ends.after ?_ (execPreferredSet_ends ..) (by decide +kernel)
      exact Keeps.rfl
    · refine Keeps.after ?_ (State.writeFormat_keeps ..) (by decide +kernel)
      exact Keeps.rfl
    · refine Keeps.ras ?_ (by decide +kernel) (Or.inl rfl)
      exact Keeps.rfl
    · refine Keeps.after ?_ (State.setObj_keeps ..) (by decide +kernel)
      exact Keeps.rfl

def State.objWrite_touch : Nat := State.writeCalc_touch

theorem State.objWrite_keeps (r : ObjRow) (index : ℕ) (sub : ℕ) (b : List Byte) (s : State) : Keeps State.objWrite_touch
    s (State.objWrite r index sub b s) := by
  unfold State.objWrite
  split
  · refine Keeps.after ?_ (State.setObj_keeps ..) (by decide +kernel)
    exact Keeps.rfl
  · refine Keeps.after ?_ (State.writeCalc_keeps ..) (by decide +kernel)
    exact Keeps.rfl
  · exact Keeps.rfl
  · refine Keeps.forEach _ _ (fun a1 t1 => ?_) ?_
    · refine Keeps.setFld ?_ (anyReg_bit (by decide +kernel) _)
      exact Keeps.rfl
    · exact Keeps.rfl
  · refine Keeps.forEach _ _ (fun a1 t1 => ?_) ?_
    · refine Keeps.after ?_ (State.writeAny_keeps ..) (by decide +kernel)
      exact Keeps.rfl
    · exact Keeps.rfl

def State.saveConfig_touch : Nat := touchSet [.boot, .dict] []

theorem State.saveConfig_keeps (s : State) : Keeps State.saveConfig_touch s (State.saveConfig s) := by
  unfold State.saveConfig
  extract_lets x1 x2 x3
  refine Keeps.dict ?_ (by decide +kernel)
  refine Keeps.after ?_ (State.writeConfig_keeps ..) (by decide +kernel)
  refine Keeps.boot ?_ (by decide +kernel) (Nat.le_refl _) (Or.inl rfl)
  exact Keeps.rfl

def execConfigSaveTimer_touch : Nat := touchSet [.now] [] ||| State.saveConfig_touch

theorem execConfigSaveTimer_ends (s : State) : Ends execConfigSaveTimer_touch s (execConfigSaveTimer s) := by
  unfold execConfigSaveTimer
  split
  · refine Ends.next ?_
    exact Keeps.rfl
  · refine Ends.next ?_
    refine Keeps.after ?_ (State.saveConfig_keeps ..) (by decide +kernel)
    refine Keeps.after ?_ (State.reach_keeps ..) (by decide +kernel)
    exact Keeps.rfl

def execSave_touch : Nat := State.saveConfig_touch

theorem execSave_ends (s : State) : Ends execSave_touch s (execSave s) := by
  unfold execSave
  refine Ends.next ?_
  refine Keeps.after ?_ (State.invokeOk_keeps ..) (by decide +kernel)
  refine Keeps.after ?_ (State.saveConfig_keeps ..) (by decide +kernel)
  exact Keeps.rfl

end Sys2Proof.Machine
end

