-- ==== Sys2Proof/Laws/KeepNirrex.lean ====
section
/-! SUPPORT. What each operation of Machine/Nirrex.lean can change. -/

namespace Sys2Proof.Machine

set_option Elab.async false

def State.putWords_touch : Nat := touchSet [] [.HQ_MB_REQ, .HQ_MB_RSP]

theorem State.putWords_keeps (r : RegName) (port : Nat) (b : List Byte) (s : State)
    (hr : Nat.testBit State.putWords_touch (regBit r) = true := by decide +kernel) : Keeps State.putWords_touch s (State.putWords r port b s) := by
  unfold State.putWords
  exact Keeps.forEach _ _ (fun _ _ => Keeps.setReg Keeps.rfl hr) Keeps.rfl

def State.respond_touch : Nat := touchSet [.out] [.HQ_MB_CTL] ||| State.putWords_touch

theorem State.respond_keeps (m : NxMsg) (auth : Bool) (op : ℕ) (status : ℕ) (detail : ℕ) (last : Bool) (pending : Bool)
    (data : List Byte) (s : State) : Keeps State.respond_touch s (State.respond m auth op status detail last pending
    data s) := by
  unfold State.respond
  extract_lets x1 x2 x3 x4 x5 x6
  refine Keeps.ite ?_ ?_
  · refine Keeps.after ?_ (State.emit_keeps ..) (by decide +kernel)
    exact Keeps.rfl
  · refine Keeps.ite ?_ ?_
    · refine Keeps.after ?_ (State.emit_keeps ..) (by decide +kernel)
      refine Keeps.setFld ?_ (by decide +kernel)
      refine Keeps.setFld ?_ (by decide +kernel)
      refine Keeps.setFld ?_ (by decide +kernel)
      refine Keeps.after ?_ (State.putWords_keeps ..) (by decide +kernel)
      exact Keeps.rfl
    · refine Keeps.setFld ?_ (by decide +kernel)
      refine Keeps.setFld ?_ (by decide +kernel)
      refine Keeps.setFld ?_ (by decide +kernel)
      refine Keeps.after ?_ (State.putWords_keeps ..) (by decide +kernel)
      exact Keeps.rfl

def State.acceptNx_touch : Nat := State.respond_touch

theorem State.acceptNx_keeps (m : NxMsg) (auth : Bool) (last : Bool) (pending : Bool) (data : List Byte) (s : State) :
    Keeps State.acceptNx_touch s (State.acceptNx m auth last pending data s) := by
  unfold State.acceptNx
  refine Keeps.after ?_ (State.respond_keeps ..) (by decide +kernel)
  exact Keeps.rfl

def State.count_touch : Nat := touchSet [.dict] []

theorem State.count_keeps (which : ℕ) (path : ℕ) (s : State) : Keeps State.count_touch s (State.count which path s) :=
    by
  unfold State.count
  refine Keeps.dict ?_ (by decide +kernel)
  exact Keeps.rfl

def State.dropRunning_touch : Nat := touchSet [.dict] []

theorem State.dropRunning_keeps (m : NxMsg) (s : State) : Keeps State.dropRunning_touch s (State.dropRunning m s) := by
  unfold State.dropRunning
  refine Keeps.dict ?_ (by decide +kernel)
  exact Keeps.rfl

def State.answerRunning_touch : Nat := touchSet [.dict] [] ||| State.acceptNx_touch

theorem State.answerRunning_keeps (m : NxMsg) (x : Running) (s : State) : Keeps State.answerRunning_touch s
    (State.answerRunning m x s) := by
  unfold State.answerRunning
  refine Keeps.ite ?_ ?_
  · refine Keeps.after ?_ (State.acceptNx_keeps ..) (by decide +kernel)
    exact Keeps.rfl
  · extract_lets x1 x2 x3 x4
    refine Keeps.after ?_ (State.respond_keeps ..) (by decide +kernel)
    refine Keeps.ite ?_ ?_
    · refine Keeps.ite ?_ ?_
      · refine Keeps.after ?_ (State.dropRunning_keeps ..) (by decide +kernel)
        exact Keeps.rfl
      · exact Keeps.rfl
    · refine Keeps.after ?_ (State.count_keeps ..) (by decide +kernel)
      refine Keeps.ite ?_ ?_
      · refine Keeps.after ?_ (State.dropRunning_keeps ..) (by decide +kernel)
        exact Keeps.rfl
      · exact Keeps.rfl

def State.dropXfer_touch : Nat := touchSet [.dict] []

theorem State.dropXfer_keeps (m : NxMsg) (s : State) : Keeps State.dropXfer_touch s (State.dropXfer m s) := by
  unfold State.dropXfer
  refine Keeps.dict ?_ (by decide +kernel)
  exact Keeps.rfl

def State.refuseNx_touch : Nat := touchSet [.dict] [] ||| State.respond_touch

theorem State.refuseNx_keeps (m : NxMsg) (auth : Bool) (detail : ℕ) (s : State) : Keeps State.refuseNx_touch s
    (State.refuseNx m auth detail s) := by
  unfold State.refuseNx
  extract_lets x1 x2 x3
  refine Keeps.after ?_ (State.respond_keeps ..) (by decide +kernel)
  refine Keeps.ite ?_ ?_
  · refine Keeps.after ?_ (State.count_keeps ..) (by decide +kernel)
    refine Keeps.after ?_ (State.count_keeps ..) (by decide +kernel)
    exact Keeps.rfl
  · refine Keeps.after ?_ (State.count_keeps ..) (by decide +kernel)
    exact Keeps.rfl

def State.applyWrite_touch : Nat := State.objWrite_touch

theorem State.applyWrite_keeps (r : ObjRow) (m : NxMsg) (b : List Byte) (s : State) : Keeps State.applyWrite_touch s
    (State.applyWrite r m b s) := by
  unfold State.applyWrite
  extract_lets x1 x2
  refine Keeps.ite ?_ ?_
  · refine Keeps.after ?_ (State.refuseNx_keeps ..) (by decide +kernel)
    exact Keeps.rfl
  · refine Keeps.ite ?_ ?_
    · refine Keeps.after ?_ (State.refuseNx_keeps ..) (by decide +kernel)
      exact Keeps.rfl
    · refine Keeps.ite ?_ ?_
      · refine Keeps.after ?_ (State.refuseNx_keeps ..) (by decide +kernel)
        exact Keeps.rfl
      · refine Keeps.ite ?_ ?_
        · refine Keeps.after ?_ (State.refuseNx_keeps ..) (by decide +kernel)
          exact Keeps.rfl
        · refine Keeps.after ?_ (State.acceptNx_keeps ..) (by decide +kernel)
          refine Keeps.after ?_ (State.dropXfer_keeps ..) (by decide +kernel)
          refine Keeps.ite ?_ ?_
          · refine Keeps.after ?_ (State.markPending_keeps ..) (by decide +kernel)
            refine Keeps.after ?_ (State.objWrite_keeps ..) (by decide +kernel)
            exact Keeps.rfl
          · refine Keeps.after ?_ (State.objWrite_keeps ..) (by decide +kernel)
            exact Keeps.rfl

def State.keepXfer_touch : Nat := touchSet [.dict] []

theorem State.keepXfer_keeps (m : NxMsg) (b : List Byte) (s : State) : Keeps State.keepXfer_touch s (State.keepXfer m b
    s) := by
  unfold State.keepXfer
  extract_lets x1 x2 x3
  refine Keeps.dict ?_ (by decide +kernel)
  refine Keeps.after ?_ (State.dropXfer_keeps ..) (by decide +kernel)
  exact Keeps.rfl

def State.mctpAnswer_touch : Nat := touchSet [.out] []

theorem State.mctpAnswer_keeps (port : ℕ) (kind : ℕ) (data : List Byte) (s : State) : Keeps State.mctpAnswer_touch s
    (State.mctpAnswer port kind data s) := by
  unfold State.mctpAnswer
  refine Keeps.ite ?_ ?_
  · refine Keeps.after ?_ (State.emit_keeps ..) (by decide +kernel)
    exact Keeps.rfl
  · exact Keeps.rfl

def State.runCommand_touch : Nat := execReset_touch

theorem State.runCommand_keeps (index : ℕ) (sub : ℕ) (b : List Byte) (s : State) : Keeps State.runCommand_touch s
    (State.runCommand index sub b s) := by
  unfold State.runCommand
  split
  · refine Keeps.outAfter ?_
    refine Ends.after ?_ (execAttest_ends ..) (by decide +kernel)
    exact Keeps.rfl
  · refine Keeps.ite ?_ ?_
    · refine Keeps.outAfter ?_
      refine Ends.after ?_ (execImageVerify_ends ..) (by decide +kernel)
      exact Keeps.rfl
    · exact Keeps.rfl
  · refine Keeps.outAfter ?_
    refine Ends.after ?_ (execSecverCommit_ends ..) (by decide +kernel)
    exact Keeps.rfl
  · refine Keeps.outAfter ?_
    refine Ends.after ?_ (execStartRetry_ends ..) (by decide +kernel)
    exact Keeps.rfl
  · refine Keeps.outAfter ?_
    refine Ends.after ?_ (execConfigReset_ends ..) (by decide +kernel)
    exact Keeps.rfl
  · refine Keeps.outAfter ?_
    refine Ends.after ?_ (execSave_ends ..) (by decide +kernel)
    exact Keeps.rfl
  · refine Keeps.outAfter ?_
    refine Ends.after ?_ (execFlashTimeSet_ends ..) (by decide +kernel)
    exact Keeps.rfl
  · refine Keeps.outAfter ?_
    refine Ends.after ?_ (execReset_ends ..) (by decide +kernel)
    exact Keeps.rfl
  · refine Keeps.ite ?_ ?_
    · refine Keeps.outAfter ?_
      refine Ends.after ?_ (execSelfTest_ends ..) (by decide +kernel)
      exact Keeps.rfl
    · refine Keeps.after ?_ (State.invokeRefused_keeps ..) (by decide +kernel)
      exact Keeps.rfl
  · exact Keeps.rfl

def State.serveInvoke_touch : Nat := State.runCommand_touch

theorem State.serveInvoke_keeps (m : NxMsg) (s : State) : Keeps State.serveInvoke_touch s (State.serveInvoke m s) := by
  unfold State.serveInvoke
  split
  · refine Keeps.after ?_ (State.refuseNx_keeps ..) (by decide +kernel)
    exact Keeps.rfl
  · extract_lets x1 x2 x3 x4 x5 x6
    refine Keeps.ite ?_ ?_
    · refine Keeps.after ?_ (State.acceptNx_keeps ..) (by decide +kernel)
      refine Keeps.after ?_ (State.keepXfer_keeps ..) (by decide +kernel)
      exact Keeps.rfl
    · refine Keeps.ite ?_ ?_
      · refine Keeps.after ?_ (State.refuseNx_keeps ..) (by decide +kernel)
        exact Keeps.rfl
      · refine Keeps.ite ?_ ?_
        · refine Keeps.after ?_ (State.refuseNx_keeps ..) (by decide +kernel)
          exact Keeps.rfl
        · refine Keeps.ite ?_ ?_
          · refine Keeps.after ?_ (State.runCommand_keeps ..) (by decide +kernel)
            refine Keeps.after ?_ (State.acceptNx_keeps ..) (by decide +kernel)
            refine Keeps.after ?_ (State.dropXfer_keeps ..) (by decide +kernel)
            exact Keeps.rfl
          · split
            · refine Keeps.after ?_ (State.answerRunning_keeps ..) (by decide +kernel)
              refine Keeps.after ?_ (State.runCommand_keeps ..) (by decide +kernel)
              refine Keeps.dict ?_ (by decide +kernel)
              refine Keeps.after ?_ (State.dropRunning_keeps ..) (by decide +kernel)
              refine Keeps.after ?_ (State.dropXfer_keeps ..) (by decide +kernel)
              exact Keeps.rfl
            · refine Keeps.after ?_ (State.acceptNx_keeps ..) (by decide +kernel)
              refine Keeps.after ?_ (State.runCommand_keeps ..) (by decide +kernel)
              refine Keeps.dict ?_ (by decide +kernel)
              refine Keeps.after ?_ (State.dropRunning_keeps ..) (by decide +kernel)
              refine Keeps.after ?_ (State.dropXfer_keeps ..) (by decide +kernel)
              exact Keeps.rfl

def State.servePoll_touch : Nat := State.refuseNx_touch

theorem State.servePoll_keeps (m : NxMsg) (s : State) : Keeps State.servePoll_touch s (State.servePoll m s) := by
  unfold State.servePoll
  split
  · refine Keeps.after ?_ (State.refuseNx_keeps ..) (by decide +kernel)
    exact Keeps.rfl
  · refine Keeps.ite ?_ ?_
    · refine Keeps.after ?_ (State.refuseNx_keeps ..) (by decide +kernel)
      exact Keeps.rfl
    · refine Keeps.after ?_ (State.answerRunning_keeps ..) (by decide +kernel)
      exact Keeps.rfl

def State.serveRead_touch : Nat := State.refuseNx_touch

theorem State.serveRead_keeps (r : ObjRow) (m : NxMsg) (s : State) : Keeps State.serveRead_touch s (State.serveRead r m
    s) := by
  unfold State.serveRead
  extract_lets x1
  refine Keeps.ite ?_ ?_
  · refine Keeps.after ?_ (State.refuseNx_keeps ..) (by decide +kernel)
    exact Keeps.rfl
  · refine Keeps.after ?_ (State.acceptNx_keeps ..) (by decide +kernel)
    exact Keeps.rfl

def State.serveWrite_touch : Nat := State.applyWrite_touch

theorem State.serveWrite_keeps (r : ObjRow) (m : NxMsg) (s : State) : Keeps State.serveWrite_touch s (State.serveWrite r
    m s) := by
  unfold State.serveWrite
  split
  · refine Keeps.after ?_ (State.refuseNx_keeps ..) (by decide +kernel)
    exact Keeps.rfl
  · refine Keeps.ite ?_ ?_
    · refine Keeps.after ?_ (State.applyWrite_keeps ..) (by decide +kernel)
      exact Keeps.rfl
    · refine Keeps.after ?_ (State.acceptNx_keeps ..) (by decide +kernel)
      refine Keeps.after ?_ (State.keepXfer_keeps ..) (by decide +kernel)
      exact Keeps.rfl

def State.serveNx_touch : Nat := State.serveInvoke_touch

theorem State.serveNx_keeps (m : NxMsg) (s : State) : Keeps State.serveNx_touch s (State.serveNx m s) := by
  unfold State.serveNx
  refine Keeps.ite ?_ ?_
  · exact Keeps.rfl
  · refine Keeps.ite ?_ ?_
    · refine Keeps.after ?_ (State.count_keeps ..) (by decide +kernel)
      exact Keeps.rfl
    · extract_lets x1 x2 x3 x4 x5
      clear_value x2
      split
      · refine Keeps.after ?_ (State.refuseNx_keeps ..) (by decide +kernel)
        refine Keeps.ite ?_ ?_
        · refine Keeps.dict ?_ (by decide +kernel)
          refine Keeps.after ?_ (State.count_keeps ..) (by decide +kernel)
          exact Keeps.rfl
        · refine Keeps.after ?_ (State.count_keeps ..) (by decide +kernel)
          exact Keeps.rfl
      · split
        · refine Keeps.after ?_ (State.serveRead_keeps ..) (by decide +kernel)
          refine Keeps.ite ?_ ?_
          · refine Keeps.dict ?_ (by decide +kernel)
            refine Keeps.after ?_ (State.count_keeps ..) (by decide +kernel)
            exact Keeps.rfl
          · refine Keeps.after ?_ (State.count_keeps ..) (by decide +kernel)
            exact Keeps.rfl
        · refine Keeps.after ?_ (State.serveWrite_keeps ..) (by decide +kernel)
          refine Keeps.ite ?_ ?_
          · refine Keeps.dict ?_ (by decide +kernel)
            refine Keeps.after ?_ (State.count_keeps ..) (by decide +kernel)
            exact Keeps.rfl
          · refine Keeps.after ?_ (State.count_keeps ..) (by decide +kernel)
            exact Keeps.rfl
        · refine Keeps.after ?_ (State.acceptNx_keeps ..) (by decide +kernel)
          refine Keeps.ite ?_ ?_
          · refine Keeps.dict ?_ (by decide +kernel)
            refine Keeps.after ?_ (State.count_keeps ..) (by decide +kernel)
            exact Keeps.rfl
          · refine Keeps.after ?_ (State.count_keeps ..) (by decide +kernel)
            exact Keeps.rfl
        · refine Keeps.after ?_ (State.serveInvoke_keeps ..) (by decide +kernel)
          refine Keeps.ite ?_ ?_
          · refine Keeps.dict ?_ (by decide +kernel)
            refine Keeps.after ?_ (State.count_keeps ..) (by decide +kernel)
            exact Keeps.rfl
          · refine Keeps.after ?_ (State.count_keeps ..) (by decide +kernel)
            exact Keeps.rfl
        · refine Keeps.after ?_ (State.servePoll_keeps ..) (by decide +kernel)
          refine Keeps.ite ?_ ?_
          · refine Keeps.dict ?_ (by decide +kernel)
            refine Keeps.after ?_ (State.count_keeps ..) (by decide +kernel)
            exact Keeps.rfl
          · refine Keeps.after ?_ (State.count_keeps ..) (by decide +kernel)
            exact Keeps.rfl

def State.takeGo_touch : Nat := State.serveNx_touch

theorem State.takeGo_keeps (port : ℕ) (m : NxMsg) (s : State) : Keeps State.takeGo_touch s (State.takeGo port m s) := by
  unfold State.takeGo
  refine Keeps.after ?_ (State.serveNx_keeps ..) (by decide +kernel)
  refine Keeps.setFld ?_ (by decide +kernel)
  exact Keeps.rfl

def State.registerWritten_touch : Nat := State.takeGo_touch

theorem State.registerWritten_keeps (r : RegName) (i : ℕ) (j : ℕ) (width : ℕ) (value : W64) (loc : W64) (s : State) :
    Keeps State.registerWritten_touch s (State.registerWritten r i j width value loc s) := by
  unfold State.registerWritten
  refine Keeps.ite ?_ ?_
  · extract_lets x1
    refine Keeps.after ?_ (State.takeGo_keeps ..) (by decide +kernel)
    refine Keeps.after ?_ (State.writeAny_keeps ..) (by decide +kernel)
    exact Keeps.rfl
  · refine Keeps.ite ?_ ?_
    · extract_lets x1
      refine Keeps.ite ?_ ?_
      · refine Keeps.writeReg ?_ (anyReg_bit (by decide +kernel) _)
        refine Keeps.writeReg ?_ (anyReg_bit (by decide +kernel) _)
        exact Keeps.rfl
      · refine Keeps.writeReg ?_ (anyReg_bit (by decide +kernel) _)
        exact Keeps.rfl
    · refine Keeps.after ?_ (State.writeAny_keeps ..) (by decide +kernel)
      exact Keeps.rfl

def execArpRequest_touch : Nat := touchSet [.out] []

theorem execArpRequest_ends (ipv4 : ℕ) (senderIp : ℕ) (senderMac : ℕ) (s : State) : Ends execArpRequest_touch s
    (execArpRequest ipv4 senderIp senderMac s) := by
  unfold execArpRequest
  extract_lets x1
  refine Ends.ite ?_ ?_
  · refine Ends.next ?_
    refine Keeps.after ?_ (State.emit_keeps ..) (by decide +kernel)
    exact Keeps.rfl
  · refine Ends.next ?_
    exact Keeps.rfl

def execDescribe_touch : Nat := State.serveNx_touch

theorem execDescribe_ends (m : NxMsg) (s : State) : Ends execDescribe_touch s (execDescribe m s) := by
  unfold execDescribe
  refine Ends.next ?_
  refine Keeps.after ?_ (State.serveNx_keeps ..) (by decide +kernel)
  exact Keeps.rfl

def execGetEndpointId_touch : Nat := touchSet [.out] []

theorem execGetEndpointId_ends (port : ℕ) (s : State) : Ends execGetEndpointId_touch s (execGetEndpointId port s) := by
  unfold execGetEndpointId
  refine Ends.next ?_
  refine Keeps.after ?_ (State.mctpAnswer_keeps ..) (by decide +kernel)
  exact Keeps.rfl

def execGetMctpVersionSupport_touch : Nat := touchSet [.out] []

theorem execGetMctpVersionSupport_ends (port : ℕ) (s : State) : Ends execGetMctpVersionSupport_touch s
    (execGetMctpVersionSupport port s) := by
  unfold execGetMctpVersionSupport
  refine Ends.next ?_
  refine Keeps.after ?_ (State.mctpAnswer_keeps ..) (by decide +kernel)
  exact Keeps.rfl

def execGetMessageTypeSupport_touch : Nat := touchSet [.out] []

theorem execGetMessageTypeSupport_ends (port : ℕ) (s : State) : Ends execGetMessageTypeSupport_touch s
    (execGetMessageTypeSupport port s) := by
  unfold execGetMessageTypeSupport
  refine Ends.next ?_
  refine Keeps.after ?_ (State.mctpAnswer_keeps ..) (by decide +kernel)
  exact Keeps.rfl

def execGetVendorDefinedMessageSupport_touch : Nat := touchSet [.out] []

theorem execGetVendorDefinedMessageSupport_ends (port : ℕ) (s : State) : Ends execGetVendorDefinedMessageSupport_touch s
    (execGetVendorDefinedMessageSupport port s) := by
  unfold execGetVendorDefinedMessageSupport
  refine Ends.next ?_
  refine Keeps.after ?_ (State.mctpAnswer_keeps ..) (by decide +kernel)
  exact Keeps.rfl

def execGo_touch : Nat := State.takeGo_touch

theorem execGo_ends (port : ℕ) (m : NxMsg) (loc : W64) (s : State) : Ends execGo_touch s (execGo port m loc s) := by
  unfold execGo
  refine Ends.ite ?_ ?_
  · refine Ends.next ?_
    exact Keeps.rfl
  · refine Ends.ite ?_ ?_
    · refine Ends.next ?_
      refine Keeps.after ?_ (State.discard_keeps ..) (by decide +kernel)
      exact Keeps.rfl
    · refine Ends.next ?_
      refine Keeps.after ?_ (State.takeGo_keeps ..) (by decide +kernel)
      refine Keeps.after ?_ (State.putWords_keeps ..) (by decide +kernel)
      exact Keeps.rfl

def execInvoke_touch : Nat := State.serveNx_touch

theorem execInvoke_ends (m : NxMsg) (s : State) : Ends execInvoke_touch s (execInvoke m s) := by
  unfold execInvoke
  refine Ends.next ?_
  refine Keeps.after ?_ (State.serveNx_keeps ..) (by decide +kernel)
  exact Keeps.rfl

def execNeighbourSolicitation_touch : Nat := touchSet [.out] []

theorem execNeighbourSolicitation_ends (target : ℕ) (sender : ℕ) (s : State) : Ends execNeighbourSolicitation_touch s
    (execNeighbourSolicitation target sender s) := by
  unfold execNeighbourSolicitation
  refine Ends.ite ?_ ?_
  · refine Ends.next ?_
    refine Keeps.after ?_ (State.emit_keeps ..) (by decide +kernel)
    exact Keeps.rfl
  · refine Ends.next ?_
    exact Keeps.rfl

def execNirrexWrite_touch : Nat := State.serveNx_touch

theorem execNirrexWrite_ends (m : NxMsg) (s : State) : Ends execNirrexWrite_touch s (execNirrexWrite m s) := by
  unfold execNirrexWrite
  refine Ends.next ?_
  refine Keeps.after ?_ (State.serveNx_keeps ..) (by decide +kernel)
  exact Keeps.rfl

def execPlcaBeacon_touch : Nat := touchSet [.dict] []

theorem execPlcaBeacon_ends (s : State) : Ends execPlcaBeacon_touch s (execPlcaBeacon s) := by
  unfold execPlcaBeacon
  refine Ends.ite ?_ ?_
  · extract_lets x1 x2
    refine Ends.next ?_
    refine Keeps.after ?_ (State.setObj_keeps ..) (by decide +kernel)
    refine Keeps.dict ?_ (by decide +kernel)
    exact Keeps.rfl
  · refine Ends.next ?_
    exact Keeps.rfl

def execPoll_touch : Nat := State.serveNx_touch

theorem execPoll_ends (m : NxMsg) (s : State) : Ends execPoll_touch s (execPoll m s) := by
  unfold execPoll
  refine Ends.next ?_
  refine Keeps.after ?_ (State.serveNx_keeps ..) (by decide +kernel)
  exact Keeps.rfl

def execRead_touch : Nat := State.serveNx_touch

theorem execRead_ends (m : NxMsg) (s : State) : Ends execRead_touch s (execRead m s) := by
  unfold execRead
  refine Ends.next ?_
  refine Keeps.after ?_ (State.serveNx_keeps ..) (by decide +kernel)
  exact Keeps.rfl

def execRegisterWrite_touch : Nat := State.registerWritten_touch

theorem execRegisterWrite_ends (reg : RegName) (i : ℕ) (j : ℕ) (width : ℕ) (aligned : Bool) (value : W64) (loc : W64) (s
    : State) : Ends execRegisterWrite_touch s (execRegisterWrite reg i j width aligned value loc s) := by
  unfold execRegisterWrite
  refine Ends.ite ?_ ?_
  · refine Ends.next ?_
    exact Keeps.rfl
  · refine Ends.ite ?_ ?_
    · refine Ends.next ?_
      refine Keeps.after ?_ (State.registerWritten_keeps ..) (by decide +kernel)
      exact Keeps.rfl
    · refine Ends.next ?_
      refine Keeps.after ?_ (State.badWidth_keeps ..) (by decide +kernel)
      exact Keeps.rfl

def execResultHoldExpiry_touch : Nat := touchSet [.dict, .now] []

theorem execResultHoldExpiry_ends (index : ℕ) (sub : ℕ) (s : State) : Ends execResultHoldExpiry_touch s
    (execResultHoldExpiry index sub s) := by
  unfold execResultHoldExpiry
  extract_lets x1
  split
  · split
    · extract_lets x2 x3
      refine Ends.next ?_
      refine Keeps.dict ?_ (by decide +kernel)
      refine Keeps.after ?_ (State.reach_keeps ..) (by decide +kernel)
      exact Keeps.rfl
    · refine Ends.next ?_
      exact Keeps.rfl
  · refine Ends.next ?_
    exact Keeps.rfl

def execSegmentTimeout_touch : Nat := touchSet [.dict, .now] []

theorem execSegmentTimeout_ends (path : ℕ) (index : ℕ) (sub : ℕ) (s : State) : Ends execSegmentTimeout_touch s
    (execSegmentTimeout path index sub s) := by
  unfold execSegmentTimeout
  extract_lets x1
  split
  · refine Ends.next ?_
    exact Keeps.rfl
  · extract_lets x2 x3
    refine Ends.next ?_
    refine Keeps.dict ?_ (by decide +kernel)
    refine Keeps.after ?_ (State.reach_keeps ..) (by decide +kernel)
    exact Keeps.rfl

def execSetEndpointId_touch : Nat := touchSet [.dict, .out] []

theorem execSetEndpointId_ends (port : ℕ) (eid : ℕ) (s : State) : Ends execSetEndpointId_touch s (execSetEndpointId port
    eid s) := by
  unfold execSetEndpointId
  refine Ends.ite ?_ ?_
  · refine Ends.next ?_
    refine Keeps.after ?_ (State.mctpAnswer_keeps ..) (by decide +kernel)
    refine Keeps.after ?_ (State.setObj_keeps ..) (by decide +kernel)
    exact Keeps.rfl
  · refine Ends.next ?_
    exact Keeps.rfl

end Sys2Proof.Machine
end

