-- ==== Sys2Proof/Laws/KeepPower.lean ====
section
/-! SUPPORT. What each operation of Machine/Power.lean can change. -/

namespace Sys2Proof.Machine

set_option Elab.async false

def State.setLevel_touch : Nat := touchSet [] [.BD_THR]

theorem State.setLevel_keeps (b : ℕ) (s : State) : Keeps State.setLevel_touch s (State.setLevel b s) := by
  unfold State.setLevel
  extract_lets x1 x2
  refine Keeps.setFld ?_ (by decide +kernel)
  refine Keeps.setFld ?_ (by decide +kernel)
  refine Keeps.setFld ?_ (by decide +kernel)
  exact Keeps.rfl

def State.controlTick_touch : Nat := touchSet [.power] [.BD_THR]

theorem State.controlTick_keeps (powerMw : ℕ) (s : State) : Keeps State.controlTick_touch s (State.controlTick powerMw
    s) := by
  unfold State.controlTick
  extract_lets x1 x2 x3
  split
  extract_lets x4
  refine Keeps.forEach _ _ (fun a1 t1 => ?_) ?_
  · refine Keeps.after ?_ (State.setLevel_keeps ..) (by decide +kernel)
    exact Keeps.rfl
  · refine Keeps.power ?_ (by decide +kernel)
    exact Keeps.rfl

def State.tapLoad_touch : Nat := touchSet [.out, .power] []

theorem State.tapLoad_keeps (n : ℕ) (s : State) : Keeps State.tapLoad_touch s (State.tapLoad n s) := by
  unfold State.tapLoad
  extract_lets x1 x2
  refine Keeps.ite ?_ ?_
  · refine Keeps.power ?_ (by decide +kernel)
    exact Keeps.rfl
  · refine Keeps.after ?_ (State.emit_keeps ..) (by decide +kernel)
    refine Keeps.power ?_ (by decide +kernel)
    exact Keeps.rfl

def execBypass_touch : Nat := State.tapLoad_touch

theorem execBypass_ends (s : State) : Ends execBypass_touch s (execBypass s) := by
  unfold execBypass
  refine Ends.next ?_
  refine Keeps.after ?_ (State.tapLoad_keeps ..) (by decide +kernel)
  exact Keeps.rfl

def execClamp_touch : Nat := State.tapLoad_touch

theorem execClamp_ends (s : State) : Ends execClamp_touch s (execClamp s) := by
  unfold execClamp
  refine Ends.next ?_
  refine Keeps.after ?_ (State.tapLoad_keeps ..) (by decide +kernel)
  exact Keeps.rfl

def execExtest_touch : Nat := State.tapLoad_touch

theorem execExtest_ends (s : State) : Ends execExtest_touch s (execExtest s) := by
  unfold execExtest
  refine Ends.next ?_
  refine Keeps.after ?_ (State.tapLoad_keeps ..) (by decide +kernel)
  exact Keeps.rfl

def execExtestPulse_touch : Nat := State.tapLoad_touch

theorem execExtestPulse_ends (s : State) : Ends execExtestPulse_touch s (execExtestPulse s) := by
  unfold execExtestPulse
  refine Ends.next ?_
  refine Keeps.after ?_ (State.tapLoad_keeps ..) (by decide +kernel)
  exact Keeps.rfl

def execExtestTrain_touch : Nat := State.tapLoad_touch

theorem execExtestTrain_ends (s : State) : Ends execExtestTrain_touch s (execExtestTrain s) := by
  unfold execExtestTrain
  refine Ends.next ?_
  refine Keeps.after ?_ (State.tapLoad_keeps ..) (by decide +kernel)
  exact Keeps.rfl

def execHighz_touch : Nat := State.tapLoad_touch

theorem execHighz_ends (s : State) : Ends execHighz_touch s (execHighz s) := by
  unfold execHighz
  refine Ends.next ?_
  refine Keeps.after ?_ (State.tapLoad_keeps ..) (by decide +kernel)
  exact Keeps.rfl

def execIdcode_touch : Nat := State.tapLoad_touch

theorem execIdcode_ends (s : State) : Ends execIdcode_touch s (execIdcode s) := by
  unfold execIdcode
  refine Ends.next ?_
  refine Keeps.after ?_ (State.emit_keeps ..) (by decide +kernel)
  refine Keeps.after ?_ (State.tapLoad_keeps ..) (by decide +kernel)
  exact Keeps.rfl

def execMr4Sample_touch : Nat := touchSet [.power] []

theorem execMr4Sample_ends (stack : ℕ) (code : ℕ) (s : State) : Ends execMr4Sample_touch s (execMr4Sample stack code s)
    := by
  unfold execMr4Sample
  refine Ends.ite ?_ ?_
  · refine Ends.next ?_
    exact Keeps.rfl
  · refine Ends.next ?_
    refine Keeps.power ?_ (by decide +kernel)
    exact Keeps.rfl

def execPowerTick_touch : Nat := State.controlTick_touch

theorem execPowerTick_ends (r : PowerReading) (s : State) : Ends execPowerTick_touch s (execPowerTick r s) := by
  unfold execPowerTick
  extract_lets x1
  refine Ends.next ?_
  refine Keeps.ite ?_ ?_
  · refine Keeps.after ?_ (State.controlTick_keeps ..) (by decide +kernel)
    refine Keeps.power ?_ (by decide +kernel)
    exact Keeps.rfl
  · refine Keeps.power ?_ (by decide +kernel)
    exact Keeps.rfl

def execSamplePreload_touch : Nat := State.tapLoad_touch

theorem execSamplePreload_ends (s : State) : Ends execSamplePreload_touch s (execSamplePreload s) := by
  unfold execSamplePreload
  refine Ends.next ?_
  refine Keeps.after ?_ (State.tapLoad_keeps ..) (by decide +kernel)
  exact Keeps.rfl

def execTapReset_touch : Nat := touchSet [.power] []

theorem execTapReset_ends (s : State) : Ends execTapReset_touch s (execTapReset s) := by
  unfold execTapReset
  refine Ends.next ?_
  refine Keeps.power ?_ (by decide +kernel)
  exact Keeps.rfl

end Sys2Proof.Machine
end

