-- ==== Sys2Proof/Laws/KeepExec.lean ====
section
/-! SUPPORT. What each command can change, and that every command answers a next state. -/

namespace Sys2Proof.Machine

set_option Elab.async false

/-- What a command can change. -/
def touchOf (c : Instr) : Nat :=
  match c with
  | .registerWrite .. => execRegisterWrite_touch
  | .readClear .. => execReadClear_touch
  | .snap .. => execSnap_touch
  | .sqDoorbell .. => execSqDoorbell_touch
  | .cqDoorbell .. => execCqDoorbell_touch
  | .contextOpen .. => execContextOpen_touch
  | .contextClose .. => execContextClose_touch
  | .functionLevelReset .. => execFunctionLevelReset_touch
  | .descriptorFetch .. => execDescriptorFetch_touch
  | .nop .. => execNop_touch
  | .search .. => execSearch_touch
  | .cancel .. => execCancel_touch
  | .logRead .. => execLogRead_touch
  | .insert .. => execInsert_touch
  | .delete .. => execDelete_touch
  | .rewrite .. => execRewrite_touch
  | .bitsSet .. => execBitsSet_touch
  | .bitsClear .. => execBitsClear_touch
  | .listCopy .. => execListCopy_touch
  | .defineBitmap .. => execDefineBitmap_touch
  | .indexBuild .. => execIndexBuild_touch
  | .indexRetire .. => execIndexRetire_touch
  | .scheduleLoad .. => execScheduleLoad_touch
  | .promote .. => execPromote_touch
  | .demote .. => execDemote_touch
  | .tableUpdate .. => execTableUpdate_touch
  | .gatherDot .. => execGatherDot_touch
  | .rowRead .. => execRowRead_touch
  | .rowWrite .. => execRowWrite_touch
  | .hatpinSwap .. => execHatpinSwap_touch
  | .hatpinDrainEnd => execHatpinDrainEnd_touch
  | .hatpinFlush .. => execHatpinFlush_touch
  | .tableRetire .. => execTableRetire_touch
  | .msixCoalesceTimeout .. => execMsixCoalesceTimeout_touch
  | .take .. => execTake_touch
  | .perstAssert .. => execPerstAssert_touch
  | .subQuery .. => execSubQuery_touch
  | .groupAnswer .. => execGroupAnswer_touch
  | .groupAnswerTimeout .. => execGroupAnswerTimeout_touch
  | .memberLost .. => execMemberLost_touch
  | .queryEncode .. => execQueryEncode_touch
  | .probePassLaunch .. => execProbePassLaunch_touch
  | .probePassComplete .. => execProbePassComplete_touch
  | .heldPairPost .. => execHeldPairPost_touch
  | .launchByExpiry .. => execLaunchByExpiry_touch
  | .queueLaunch .. => execQueueLaunch_touch
  | .tileBind .. => execTileBind_touch
  | .blockScan .. => execBlockScan_touch
  | .laneReduction .. => execLaneReduction_touch
  | .taskComplete .. => execTaskComplete_touch
  | .taskCheckpoint .. => execTaskCheckpoint_touch
  | .checkpointDurable .. => execCheckpointDurable_touch
  | .dieMergePartial .. => execDieMergePartial_touch
  | .dieMergeFlush .. => execDieMergeFlush_touch
  | .homeMerge .. => execHomeMerge_touch
  | .shadowTimeout .. => execShadowTimeout_touch
  | .queryVectorLoad .. => execQueryVectorLoad_touch
  | .candidateRequest .. => execCandidateRequest_touch
  | .planeOpIssue .. => execPlaneOpIssue_touch
  | .pageDecode .. => execPageDecode_touch
  | .lingerExpiry .. => execLingerExpiry_touch
  | .scoreRecord .. => execScoreRecord_touch
  | .partialSumRequest .. => execPartialSumRequest_touch
  | .fp16Reduction .. => execFp16Reduction_touch
  | .degradedRead .. => execDegradedRead_touch
  | .rebuiltSector .. => execRebuiltSector_touch
  | .scanDeadline .. => execScanDeadline_touch
  | .rerankBudgetEnd .. => execRerankBudgetEnd_touch
  | .flashRecordDurable .. => execFlashRecordDurable_touch
  | .retiredSlotTombstone => execRetiredSlotTombstone_touch
  | .retireLateExpiry => execRetireLateExpiry_touch
  | .versionFree .. => execVersionFree_touch
  | .tableVersionFree .. => execTableVersionFree_touch
  | .indexVersionSwitch .. => execIndexVersionSwitch_touch
  | .tableVersionSwitch .. => execTableVersionSwitch_touch
  | .shardCopyStream .. => execShardCopyStream_touch
  | .shardListLanded .. => execShardListLanded_touch
  | .rowLockGrant .. => execRowLockGrant_touch
  | .stripeWrite .. => execStripeWrite_touch
  | .recordAppend .. => execRecordAppend_touch
  | .openSectorTimeout .. => execOpenSectorTimeout_touch
  | .detach .. => execDetach_touch
  | .channelFault .. => execChannelFault_touch
  | .detachDrainEnd .. => execDetachDrainEnd_touch
  | .attach .. => execAttach_touch
  | .abortAttach .. => execAbortAttach_touch
  | .channelSelfTestDone .. => execChannelSelfTestDone_touch
  | .rebuildSector .. => execRebuildSector_touch
  | .channelShadowRecord .. => execChannelShadowRecord_touch
  | .carrierPresenceChange .. => execCarrierPresenceChange_touch
  | .stagingTimeout .. => execStagingTimeout_touch
  | .fold .. => execFold_touch
  | .tlCheckpoint .. => execTlCheckpoint_touch
  | .gcUnitCopy .. => execGcUnitCopy_touch
  | .gcErase .. => execGcErase_touch
  | .healthRecheck .. => execHealthRecheck_touch
  | .flashTimeRecord .. => execFlashTimeRecord_touch
  | .flashFormat .. => execFlashFormat_touch
  | .flashTimeSet .. => execFlashTimeSet_touch
  | .pwrLossAssert => execPwrLossAssert_touch
  | .flushComplete .. => execFlushComplete_touch
  | .pwrLossDeassert => execPwrLossDeassert_touch
  | .promotionComplete .. => execPromotionComplete_touch
  | .demotionComplete .. => execDemotionComplete_touch
  | .schedulePromotion .. => execSchedulePromotion_touch
  | .promotionRetry .. => execPromotionRetry_touch
  | .heatHalving .. => execHeatHalving_touch
  | .quotaLimitWrite .. => execQuotaLimitWrite_touch
  | .grantFailed .. => execGrantFailed_touch
  | .patrolScrub .. => execPatrolScrub_touch
  | .write .. => execWrite_touch
  | .writeSignal .. => execWriteSignal_touch
  | .readReq .. => execReadReq_touch
  | .readRsp .. => execReadRsp_touch
  | .send .. => execSend_touch
  | .signal .. => execSignal_touch
  | .ack .. => execAck_touch
  | .msgDone .. => execMsgDone_touch
  | .nakSeq .. => execNakSeq_touch
  | .nakMsg .. => execNakMsg_touch
  | .nakStatus .. => execNakStatus_touch
  | .busy .. => execBusy_touch
  | .busyResend .. => execBusyResend_touch
  | .keepalive .. => execKeepalive_touch
  | .keepaliveSend .. => execKeepaliveSend_touch
  | .keepaliveLoss .. => execKeepaliveLoss_touch
  | .packetHoldExpiry .. => execPacketHoldExpiry_touch
  | .messageHoldExpiry .. => execMessageHoldExpiry_touch
  | .ackDelayExpiry .. => execAckDelayExpiry_touch
  | .retransmitTimeout .. => execRetransmitTimeout_touch
  | .packetDepart .. => execPacketDepart_touch
  | .pfcPause .. => execPfcPause_touch
  | .connect .. => execConnect_touch
  | .connectionReset .. => execConnectionReset_touch
  | .validate .. => execValidate_touch
  | .revoke .. => execRevoke_touch
  | .revocationComplete .. => execRevocationComplete_touch
  | .syValWrite .. => execSyValWrite_touch
  | .syAdd .. => execSyAdd_touch
  | .arm .. => execArm_touch
  | .disarm .. => execDisarm_touch
  | .opsEntryGrant => execOpsEntryGrant_touch
  | .policerCommit .. => execPolicerCommit_touch
  | .strictCommit .. => execStrictCommit_touch
  | .shaperCommit .. => execShaperCommit_touch
  | .bucketRefill => execBucketRefill_touch
  | .commit .. => execCommit_touch
  | .bandDrained .. => execBandDrained_touch
  | .commitDrainLate .. => execCommitDrainLate_touch
  | .autoEpoch => execAutoEpoch_touch
  | .acquire .. => execAcquire_touch
  | .renew .. => execRenew_touch
  | .park .. => execPark_touch
  | .claim .. => execClaim_touch
  | .release .. => execRelease_touch
  | .reply .. => execReply_touch
  | .leaseRenewTimer .. => execLeaseRenewTimer_touch
  | .leaseExpiry .. => execLeaseExpiry_touch
  | .poolLeaseExpiry .. => execPoolLeaseExpiry_touch
  | .watchdogSample .. => execWatchdogSample_touch
  | .replay .. => execReplay_touch
  | .reset .. => execReset_touch
  | .resetComplete .. => execResetComplete_touch
  | .resetWindowExpiry .. => execResetWindowExpiry_touch
  | .spStartTimeout => execSpStartTimeout_touch
  | .sramUncorrectable .. => execSramUncorrectable_touch
  | .dump => execDump_touch
  | .clear => execClear_touch
  | .dumpReadTimeout => execDumpReadTimeout_touch
  | .dumpLimitExpiry => execDumpLimitExpiry_touch
  | .errorWindowClose .. => execErrorWindowClose_touch
  | .errorIrqHoldoff => execErrorIrqHoldoff_touch
  | .gauntletAbort .. => execGauntletAbort_touch
  | .gauntletRelease .. => execGauntletRelease_touch
  | .abortedKeyExpiry => execAbortedKeyExpiry_touch
  | .remove .. => execRemove_touch
  | .unitDrained .. => execUnitDrained_touch
  | .returnUnit .. => execReturnUnit_touch
  | .unitSelfTestDone .. => execUnitSelfTestDone_touch
  | .unitShadowItem .. => execUnitShadowItem_touch
  | .abortReturn .. => execAbortReturn_touch
  | .coreWatchdog .. => execCoreWatchdog_touch
  | .laneFailed .. => execLaneFailed_touch
  | .powerOn => execPowerOn_touch
  | .startStepComplete .. => execStartStepComplete_touch
  | .stepTimeout => execStepTimeout_touch
  | .provision => execProvision_touch
  | .attest .. => execAttest_touch
  | .imageWrite .. => execImageWrite_touch
  | .imageVerify .. => execImageVerify_touch
  | .secverCommit => execSecverCommit_touch
  | .startRetry .. => execStartRetry_touch
  | .configReset => execConfigReset_touch
  | .preferredSet .. => execPreferredSet_touch
  | .read .. => execRead_touch
  | .nirrexWrite .. => execNirrexWrite_touch
  | .describe .. => execDescribe_touch
  | .invoke .. => execInvoke_touch
  | .poll .. => execPoll_touch
  | .segmentTimeout .. => execSegmentTimeout_touch
  | .resultHoldExpiry .. => execResultHoldExpiry_touch
  | .save => execSave_touch
  | .configSaveTimer => execConfigSaveTimer_touch
  | .go .. => execGo_touch
  | .setEndpointId .. => execSetEndpointId_touch
  | .getEndpointId .. => execGetEndpointId_touch
  | .getMctpVersionSupport .. => execGetMctpVersionSupport_touch
  | .getMessageTypeSupport .. => execGetMessageTypeSupport_touch
  | .getVendorDefinedMessageSupport .. => execGetVendorDefinedMessageSupport_touch
  | .arpRequest .. => execArpRequest_touch
  | .neighbourSolicitation .. => execNeighbourSolicitation_touch
  | .powerTick .. => execPowerTick_touch
  | .criticalTemperature .. => execCriticalTemperature_touch
  | .thermtrip .. => execThermtrip_touch
  | .pllLossOfLock .. => execPllLossOfLock_touch
  | .sysclkLoss => execSysclkLoss_touch
  | .resetNAssert => execResetNAssert_touch
  | .resetNDeassert => execResetNDeassert_touch
  | .bandWake .. => execBandWake_touch
  | .selfTest .. => execSelfTest_touch
  | .selfTestComplete .. => execSelfTestComplete_touch
  | .bypass => execBypass_touch
  | .idcode => execIdcode_touch
  | .samplePreload => execSamplePreload_touch
  | .extest => execExtest_touch
  | .extestPulse => execExtestPulse_touch
  | .extestTrain => execExtestTrain_touch
  | .clamp => execClamp_touch
  | .highz => execHighz_touch
  | .perstDeassert .. => execPerstDeassert_touch
  | .accessWidthRead .. => execAccessWidthRead_touch
  | .completionTimeout .. => execCompletionTimeout_touch
  | .foldProgramStatus .. => execFoldProgramStatus_touch
  | .refreshAgeReached .. => execRefreshAgeReached_touch
  | .healthTemperatureSample .. => execHealthTemperatureSample_touch
  | .mr4Sample .. => execMr4Sample_touch
  | .sysclkRestored => execSysclkRestored_touch
  | .carrierPowerSettled .. => execCarrierPowerSettled_touch
  | .plcaBeacon => execPlcaBeacon_touch
  | .pfcPauseExpiry .. => execPfcPauseExpiry_touch
  | .tapReset => execTapReset_touch
  | .resetFlushWaitExpiry => execResetFlushWaitExpiry_touch

/-- Every command answers a next state, which keeps all that the command does not touch. -/
theorem exec_ends (c : Instr) (s : State) : Ends (touchOf c) s (exec c s) := by
  cases c with
  | registerWrite => exact execRegisterWrite_ends ..
  | readClear => exact execReadClear_ends ..
  | snap => exact execSnap_ends ..
  | sqDoorbell c tail port func loc => exact execSqDoorbell_ends c tail port func loc s
  | cqDoorbell c head port func loc => exact execCqDoorbell_ends c head port func loc s
  | contextOpen => exact execContextOpen_ends ..
  | contextClose => exact execContextClose_ends ..
  | functionLevelReset => exact execFunctionLevelReset_ends ..
  | descriptorFetch => exact execDescriptorFetch_ends ..
  | nop => exact execNop_ends ..
  | search => exact execSearch_ends ..
  | cancel => exact execCancel_ends ..
  | logRead => exact execLogRead_ends ..
  | insert => exact execInsert_ends ..
  | delete => exact execDelete_ends ..
  | rewrite => exact execRewrite_ends ..
  | bitsSet => exact execBitsSet_ends ..
  | bitsClear => exact execBitsClear_ends ..
  | listCopy => exact execListCopy_ends ..
  | defineBitmap => exact execDefineBitmap_ends ..
  | indexBuild => exact execIndexBuild_ends ..
  | indexRetire => exact execIndexRetire_ends ..
  | scheduleLoad => exact execScheduleLoad_ends ..
  | promote => exact execPromote_ends ..
  | demote => exact execDemote_ends ..
  | tableUpdate => exact execTableUpdate_ends ..
  | gatherDot => exact execGatherDot_ends ..
  | rowRead => exact execRowRead_ends ..
  | rowWrite => exact execRowWrite_ends ..
  | hatpinSwap => exact execHatpinSwap_ends ..
  | hatpinDrainEnd => exact execHatpinDrainEnd_ends ..
  | hatpinFlush => exact execHatpinFlush_ends ..
  | tableRetire => exact execTableRetire_ends ..
  | msixCoalesceTimeout => exact execMsixCoalesceTimeout_ends ..
  | take => exact execTake_ends ..
  | perstAssert => exact execPerstAssert_ends ..
  | subQuery => exact execSubQuery_ends ..
  | groupAnswer => exact execGroupAnswer_ends ..
  | groupAnswerTimeout => exact execGroupAnswerTimeout_ends ..
  | memberLost => exact execMemberLost_ends ..
  | queryEncode => exact execQueryEncode_ends ..
  | probePassLaunch => exact execProbePassLaunch_ends ..
  | probePassComplete => exact execProbePassComplete_ends ..
  | heldPairPost => exact execHeldPairPost_ends ..
  | launchByExpiry => exact execLaunchByExpiry_ends ..
  | queueLaunch => exact execQueueLaunch_ends ..
  | tileBind => exact execTileBind_ends ..
  | blockScan => exact execBlockScan_ends ..
  | laneReduction => exact execLaneReduction_ends ..
  | taskComplete => exact execTaskComplete_ends ..
  | taskCheckpoint => exact execTaskCheckpoint_ends ..
  | checkpointDurable => exact execCheckpointDurable_ends ..
  | dieMergePartial => exact execDieMergePartial_ends ..
  | dieMergeFlush => exact execDieMergeFlush_ends ..
  | homeMerge => exact execHomeMerge_ends ..
  | shadowTimeout => exact execShadowTimeout_ends ..
  | queryVectorLoad => exact execQueryVectorLoad_ends ..
  | candidateRequest => exact execCandidateRequest_ends ..
  | planeOpIssue => exact execPlaneOpIssue_ends ..
  | pageDecode => exact execPageDecode_ends ..
  | lingerExpiry => exact execLingerExpiry_ends ..
  | scoreRecord => exact execScoreRecord_ends ..
  | partialSumRequest => exact execPartialSumRequest_ends ..
  | fp16Reduction => exact execFp16Reduction_ends ..
  | degradedRead => exact execDegradedRead_ends ..
  | rebuiltSector => exact execRebuiltSector_ends ..
  | scanDeadline => exact execScanDeadline_ends ..
  | rerankBudgetEnd => exact execRerankBudgetEnd_ends ..
  | flashRecordDurable => exact execFlashRecordDurable_ends ..
  | retiredSlotTombstone => exact execRetiredSlotTombstone_ends ..
  | retireLateExpiry => exact execRetireLateExpiry_ends ..
  | versionFree => exact execVersionFree_ends ..
  | tableVersionFree => exact execTableVersionFree_ends ..
  | indexVersionSwitch => exact execIndexVersionSwitch_ends ..
  | tableVersionSwitch => exact execTableVersionSwitch_ends ..
  | shardCopyStream => exact execShardCopyStream_ends ..
  | shardListLanded => exact execShardListLanded_ends ..
  | rowLockGrant => exact execRowLockGrant_ends ..
  | stripeWrite => exact execStripeWrite_ends ..
  | recordAppend => exact execRecordAppend_ends ..
  | openSectorTimeout => exact execOpenSectorTimeout_ends ..
  | detach => exact execDetach_ends ..
  | channelFault => exact execChannelFault_ends ..
  | detachDrainEnd => exact execDetachDrainEnd_ends ..
  | attach => exact execAttach_ends ..
  | abortAttach => exact execAbortAttach_ends ..
  | channelSelfTestDone => exact execChannelSelfTestDone_ends ..
  | rebuildSector => exact execRebuildSector_ends ..
  | channelShadowRecord => exact execChannelShadowRecord_ends ..
  | carrierPresenceChange => exact execCarrierPresenceChange_ends ..
  | stagingTimeout => exact execStagingTimeout_ends ..
  | fold => exact execFold_ends ..
  | tlCheckpoint => exact execTlCheckpoint_ends ..
  | gcUnitCopy => exact execGcUnitCopy_ends ..
  | gcErase => exact execGcErase_ends ..
  | healthRecheck => exact execHealthRecheck_ends ..
  | flashTimeRecord => exact execFlashTimeRecord_ends ..
  | flashFormat => exact execFlashFormat_ends ..
  | flashTimeSet => exact execFlashTimeSet_ends ..
  | pwrLossAssert => exact execPwrLossAssert_ends ..
  | flushComplete => exact execFlushComplete_ends ..
  | pwrLossDeassert => exact execPwrLossDeassert_ends ..
  | promotionComplete => exact execPromotionComplete_ends ..
  | demotionComplete => exact execDemotionComplete_ends ..
  | schedulePromotion => exact execSchedulePromotion_ends ..
  | promotionRetry => exact execPromotionRetry_ends ..
  | heatHalving => exact execHeatHalving_ends ..
  | quotaLimitWrite => exact execQuotaLimitWrite_ends ..
  | grantFailed => exact execGrantFailed_ends ..
  | patrolScrub => exact execPatrolScrub_ends ..
  | write => exact execWrite_ends ..
  | writeSignal => exact execWriteSignal_ends ..
  | readReq => exact execReadReq_ends ..
  | readRsp => exact execReadRsp_ends ..
  | send => exact execSend_ends ..
  | signal => exact execSignal_ends ..
  | ack => exact execAck_ends ..
  | msgDone => exact execMsgDone_ends ..
  | nakSeq => exact execNakSeq_ends ..
  | nakMsg => exact execNakMsg_ends ..
  | nakStatus => exact execNakStatus_ends ..
  | busy => exact execBusy_ends ..
  | busyResend => exact execBusyResend_ends ..
  | keepalive => exact execKeepalive_ends ..
  | keepaliveSend => exact execKeepaliveSend_ends ..
  | keepaliveLoss => exact execKeepaliveLoss_ends ..
  | packetHoldExpiry => exact execPacketHoldExpiry_ends ..
  | messageHoldExpiry => exact execMessageHoldExpiry_ends ..
  | ackDelayExpiry => exact execAckDelayExpiry_ends ..
  | retransmitTimeout => exact execRetransmitTimeout_ends ..
  | packetDepart => exact execPacketDepart_ends ..
  | pfcPause => exact execPfcPause_ends ..
  | connect => exact execConnect_ends ..
  | connectionReset => exact execConnectionReset_ends ..
  | validate => exact execValidate_ends ..
  | revoke => exact execRevoke_ends ..
  | revocationComplete => exact execRevocationComplete_ends ..
  | syValWrite => exact execSyValWrite_ends ..
  | syAdd => exact execSyAdd_ends ..
  | arm => exact execArm_ends ..
  | disarm => exact execDisarm_ends ..
  | opsEntryGrant => exact execOpsEntryGrant_ends ..
  | policerCommit => exact execPolicerCommit_ends ..
  | strictCommit => exact execStrictCommit_ends ..
  | shaperCommit => exact execShaperCommit_ends ..
  | bucketRefill => exact execBucketRefill_ends ..
  | commit => exact execCommit_ends ..
  | bandDrained => exact execBandDrained_ends ..
  | commitDrainLate => exact execCommitDrainLate_ends ..
  | autoEpoch => exact execAutoEpoch_ends ..
  | acquire => exact execAcquire_ends ..
  | renew => exact execRenew_ends ..
  | park => exact execPark_ends ..
  | claim => exact execClaim_ends ..
  | release => exact execRelease_ends ..
  | reply => exact execReply_ends ..
  | leaseRenewTimer => exact execLeaseRenewTimer_ends ..
  | leaseExpiry => exact execLeaseExpiry_ends ..
  | poolLeaseExpiry => exact execPoolLeaseExpiry_ends ..
  | watchdogSample => exact execWatchdogSample_ends ..
  | replay => exact execReplay_ends ..
  | reset => exact execReset_ends ..
  | resetComplete => exact execResetComplete_ends ..
  | resetWindowExpiry => exact execResetWindowExpiry_ends ..
  | spStartTimeout => exact execSpStartTimeout_ends ..
  | sramUncorrectable => exact execSramUncorrectable_ends ..
  | dump => exact execDump_ends ..
  | clear => exact execClear_ends ..
  | dumpReadTimeout => exact execDumpReadTimeout_ends ..
  | dumpLimitExpiry => exact execDumpLimitExpiry_ends ..
  | errorWindowClose => exact execErrorWindowClose_ends ..
  | errorIrqHoldoff => exact execErrorIrqHoldoff_ends ..
  | gauntletAbort => exact execGauntletAbort_ends ..
  | gauntletRelease => exact execGauntletRelease_ends ..
  | abortedKeyExpiry => exact execAbortedKeyExpiry_ends ..
  | remove => exact execRemove_ends ..
  | unitDrained => exact execUnitDrained_ends ..
  | returnUnit => exact execReturnUnit_ends ..
  | unitSelfTestDone => exact execUnitSelfTestDone_ends ..
  | unitShadowItem => exact execUnitShadowItem_ends ..
  | abortReturn => exact execAbortReturn_ends ..
  | coreWatchdog => exact execCoreWatchdog_ends ..
  | laneFailed => exact execLaneFailed_ends ..
  | powerOn => exact execPowerOn_ends ..
  | startStepComplete => exact execStartStepComplete_ends ..
  | stepTimeout => exact execStepTimeout_ends ..
  | provision => exact execProvision_ends ..
  | attest => exact execAttest_ends ..
  | imageWrite => exact execImageWrite_ends ..
  | imageVerify => exact execImageVerify_ends ..
  | secverCommit => exact execSecverCommit_ends ..
  | startRetry => exact execStartRetry_ends ..
  | configReset => exact execConfigReset_ends ..
  | preferredSet => exact execPreferredSet_ends ..
  | read => exact execRead_ends ..
  | nirrexWrite => exact execNirrexWrite_ends ..
  | describe => exact execDescribe_ends ..
  | invoke => exact execInvoke_ends ..
  | poll => exact execPoll_ends ..
  | segmentTimeout => exact execSegmentTimeout_ends ..
  | resultHoldExpiry => exact execResultHoldExpiry_ends ..
  | save => exact execSave_ends ..
  | configSaveTimer => exact execConfigSaveTimer_ends ..
  | go => exact execGo_ends ..
  | setEndpointId => exact execSetEndpointId_ends ..
  | getEndpointId => exact execGetEndpointId_ends ..
  | getMctpVersionSupport => exact execGetMctpVersionSupport_ends ..
  | getMessageTypeSupport => exact execGetMessageTypeSupport_ends ..
  | getVendorDefinedMessageSupport => exact execGetVendorDefinedMessageSupport_ends ..
  | arpRequest => exact execArpRequest_ends ..
  | neighbourSolicitation => exact execNeighbourSolicitation_ends ..
  | powerTick => exact execPowerTick_ends ..
  | criticalTemperature => exact execCriticalTemperature_ends ..
  | thermtrip => exact execThermtrip_ends ..
  | pllLossOfLock => exact execPllLossOfLock_ends ..
  | sysclkLoss => exact execSysclkLoss_ends ..
  | resetNAssert => exact execResetNAssert_ends ..
  | resetNDeassert => exact execResetNDeassert_ends ..
  | bandWake => exact execBandWake_ends ..
  | selfTest => exact execSelfTest_ends ..
  | selfTestComplete => exact execSelfTestComplete_ends ..
  | bypass => exact execBypass_ends ..
  | idcode => exact execIdcode_ends ..
  | samplePreload => exact execSamplePreload_ends ..
  | extest => exact execExtest_ends ..
  | extestPulse => exact execExtestPulse_ends ..
  | extestTrain => exact execExtestTrain_ends ..
  | clamp => exact execClamp_ends ..
  | highz => exact execHighz_ends ..
  | perstDeassert => exact execPerstDeassert_ends ..
  | accessWidthRead => exact execAccessWidthRead_ends ..
  | completionTimeout => exact execCompletionTimeout_ends ..
  | foldProgramStatus => exact execFoldProgramStatus_ends ..
  | refreshAgeReached => exact execRefreshAgeReached_ends ..
  | healthTemperatureSample => exact execHealthTemperatureSample_ends ..
  | mr4Sample => exact execMr4Sample_ends ..
  | sysclkRestored => exact execSysclkRestored_ends ..
  | carrierPowerSettled => exact execCarrierPowerSettled_ends ..
  | plcaBeacon => exact execPlcaBeacon_ends ..
  | pfcPauseExpiry => exact execPfcPauseExpiry_ends ..
  | tapReset => exact execTapReset_ends ..
  | resetFlushWaitExpiry => exact execResetFlushWaitExpiry_ends ..

/-- The touch that `partsOf` and `regsOf` allow a command. -/
def allowed (c : Instr) : Nat :=
  match regsOf c with
  | some rs => touchSet (partsOf c) rs
  | none => touchSet (partsOf c) [] ||| anyReg

/-- Every command stays within what Safety.lean names for it. -/
theorem touchOf_allowed (c : Instr) : touchOf c &&& allowed c = touchOf c := by
  cases c <;> (simp only [allowed, regsOf, partsOf, touchOf]; decide +kernel)

end Sys2Proof.Machine
end

