-- ==== Sys2Proof/Laws/State.lean ====
section
/-! SUPPORT. Reading the state after one update: a field of State that the update leaves as it was, and what the named reads
answer after the named writes. -/

set_option Elab.async false

namespace Sys2Proof.Machine

/-! ### A register written -/

@[simp] theorem State.pending_setReg (s : State) (r : RegName) (i j : Nat) (v : W64) : (s.setReg r i j v).pending = s.pending := rfl
@[simp] theorem State.now_setReg (s : State) (r : RegName) (i j : Nat) (v : W64) : (s.setReg r i j v).now = s.now := rfl
@[simp] theorem State.freeCount_setReg (s : State) (r : RegName) (i j : Nat) (v : W64) : (s.setReg r i j v).freeCount = s.freeCount := rfl
@[simp] theorem State.shadowRegs_setReg (s : State) (r : RegName) (i j : Nat) (v : W64) : (s.setReg r i j v).shadowRegs = s.shadowRegs := rfl
@[simp] theorem State.readData_setReg (s : State) (r : RegName) (i j : Nat) (v : W64) : (s.setReg r i j v).readData = s.readData := rfl
@[simp] theorem State.hostMem_setReg (s : State) (r : RegName) (i j : Nat) (v : W64) : (s.setReg r i j v).hostMem = s.hostMem := rfl
@[simp] theorem State.dram_setReg (s : State) (r : RegName) (i j : Nat) (v : W64) : (s.setReg r i j v).dram = s.dram := rfl
@[simp] theorem State.out_setReg (s : State) (r : RegName) (i j : Nat) (v : W64) : (s.setReg r i j v).out = s.out := rfl
@[simp] theorem State.hq_setReg (s : State) (r : RegName) (i j : Nat) (v : W64) : (s.setReg r i j v).hq = s.hq := rfl
@[simp] theorem State.qry_setReg (s : State) (r : RegName) (i j : Nat) (v : W64) : (s.setReg r i j v).qry = s.qry := rfl
@[simp] theorem State.idx_setReg (s : State) (r : RegName) (i j : Nat) (v : W64) : (s.setReg r i j v).idx = s.idx := rfl
@[simp] theorem State.tbl_setReg (s : State) (r : RegName) (i j : Nat) (v : W64) : (s.setReg r i j v).tbl = s.tbl := rfl
@[simp] theorem State.fl_setReg (s : State) (r : RegName) (i j : Nat) (v : W64) : (s.setReg r i j v).fl = s.fl := rfl
@[simp] theorem State.net_setReg (s : State) (r : RegName) (i j : Nat) (v : W64) : (s.setReg r i j v).net = s.net := rfl
@[simp] theorem State.pol_setReg (s : State) (r : RegName) (i j : Nat) (v : W64) : (s.setReg r i j v).pol = s.pol := rfl
@[simp] theorem State.ten_setReg (s : State) (r : RegName) (i j : Nat) (v : W64) : (s.setReg r i j v).ten = s.ten := rfl
@[simp] theorem State.ras_setReg (s : State) (r : RegName) (i j : Nat) (v : W64) : (s.setReg r i j v).ras = s.ras := rfl
@[simp] theorem State.boot_setReg (s : State) (r : RegName) (i j : Nat) (v : W64) : (s.setReg r i j v).boot = s.boot := rfl
@[simp] theorem State.start_setReg (s : State) (r : RegName) (i j : Nat) (v : W64) : (s.setReg r i j v).start = s.start := rfl
@[simp] theorem State.dict_setReg (s : State) (r : RegName) (i j : Nat) (v : W64) : (s.setReg r i j v).dict = s.dict := rfl
@[simp] theorem State.power_setReg (s : State) (r : RegName) (i j : Nat) (v : W64) : (s.setReg r i j v).power = s.power := rfl
@[simp] theorem State.pins_setReg (s : State) (r : RegName) (i j : Nat) (v : W64) : (s.setReg r i j v).pins = s.pins := rfl

/-! ### A field written -/

@[simp] theorem State.pending_setFld (s : State) (f : Fld) (i j n : Nat) : (s.setFld f i j n).pending = s.pending := rfl
@[simp] theorem State.now_setFld (s : State) (f : Fld) (i j n : Nat) : (s.setFld f i j n).now = s.now := rfl
@[simp] theorem State.freeCount_setFld (s : State) (f : Fld) (i j n : Nat) : (s.setFld f i j n).freeCount = s.freeCount := rfl
@[simp] theorem State.shadowRegs_setFld (s : State) (f : Fld) (i j n : Nat) : (s.setFld f i j n).shadowRegs = s.shadowRegs := rfl
@[simp] theorem State.readData_setFld (s : State) (f : Fld) (i j n : Nat) : (s.setFld f i j n).readData = s.readData := rfl
@[simp] theorem State.hostMem_setFld (s : State) (f : Fld) (i j n : Nat) : (s.setFld f i j n).hostMem = s.hostMem := rfl
@[simp] theorem State.dram_setFld (s : State) (f : Fld) (i j n : Nat) : (s.setFld f i j n).dram = s.dram := rfl
@[simp] theorem State.out_setFld (s : State) (f : Fld) (i j n : Nat) : (s.setFld f i j n).out = s.out := rfl
@[simp] theorem State.hq_setFld (s : State) (f : Fld) (i j n : Nat) : (s.setFld f i j n).hq = s.hq := rfl
@[simp] theorem State.qry_setFld (s : State) (f : Fld) (i j n : Nat) : (s.setFld f i j n).qry = s.qry := rfl
@[simp] theorem State.idx_setFld (s : State) (f : Fld) (i j n : Nat) : (s.setFld f i j n).idx = s.idx := rfl
@[simp] theorem State.tbl_setFld (s : State) (f : Fld) (i j n : Nat) : (s.setFld f i j n).tbl = s.tbl := rfl
@[simp] theorem State.fl_setFld (s : State) (f : Fld) (i j n : Nat) : (s.setFld f i j n).fl = s.fl := rfl
@[simp] theorem State.net_setFld (s : State) (f : Fld) (i j n : Nat) : (s.setFld f i j n).net = s.net := rfl
@[simp] theorem State.pol_setFld (s : State) (f : Fld) (i j n : Nat) : (s.setFld f i j n).pol = s.pol := rfl
@[simp] theorem State.ten_setFld (s : State) (f : Fld) (i j n : Nat) : (s.setFld f i j n).ten = s.ten := rfl
@[simp] theorem State.ras_setFld (s : State) (f : Fld) (i j n : Nat) : (s.setFld f i j n).ras = s.ras := rfl
@[simp] theorem State.boot_setFld (s : State) (f : Fld) (i j n : Nat) : (s.setFld f i j n).boot = s.boot := rfl
@[simp] theorem State.start_setFld (s : State) (f : Fld) (i j n : Nat) : (s.setFld f i j n).start = s.start := rfl
@[simp] theorem State.dict_setFld (s : State) (f : Fld) (i j n : Nat) : (s.setFld f i j n).dict = s.dict := rfl
@[simp] theorem State.power_setFld (s : State) (f : Fld) (i j n : Nat) : (s.setFld f i j n).power = s.power := rfl
@[simp] theorem State.pins_setFld (s : State) (f : Fld) (i j n : Nat) : (s.setFld f i j n).pins = s.pins := rfl

/-! ### A counter raised -/

@[simp] theorem State.pending_bump (s : State) (r : RegName) (i j n : Nat) : (s.bump r i j n).pending = s.pending := rfl
@[simp] theorem State.now_bump (s : State) (r : RegName) (i j n : Nat) : (s.bump r i j n).now = s.now := rfl
@[simp] theorem State.freeCount_bump (s : State) (r : RegName) (i j n : Nat) : (s.bump r i j n).freeCount = s.freeCount := rfl
@[simp] theorem State.shadowRegs_bump (s : State) (r : RegName) (i j n : Nat) : (s.bump r i j n).shadowRegs = s.shadowRegs := rfl
@[simp] theorem State.readData_bump (s : State) (r : RegName) (i j n : Nat) : (s.bump r i j n).readData = s.readData := rfl
@[simp] theorem State.hostMem_bump (s : State) (r : RegName) (i j n : Nat) : (s.bump r i j n).hostMem = s.hostMem := rfl
@[simp] theorem State.dram_bump (s : State) (r : RegName) (i j n : Nat) : (s.bump r i j n).dram = s.dram := rfl
@[simp] theorem State.out_bump (s : State) (r : RegName) (i j n : Nat) : (s.bump r i j n).out = s.out := rfl
@[simp] theorem State.hq_bump (s : State) (r : RegName) (i j n : Nat) : (s.bump r i j n).hq = s.hq := rfl
@[simp] theorem State.qry_bump (s : State) (r : RegName) (i j n : Nat) : (s.bump r i j n).qry = s.qry := rfl
@[simp] theorem State.idx_bump (s : State) (r : RegName) (i j n : Nat) : (s.bump r i j n).idx = s.idx := rfl
@[simp] theorem State.tbl_bump (s : State) (r : RegName) (i j n : Nat) : (s.bump r i j n).tbl = s.tbl := rfl
@[simp] theorem State.fl_bump (s : State) (r : RegName) (i j n : Nat) : (s.bump r i j n).fl = s.fl := rfl
@[simp] theorem State.net_bump (s : State) (r : RegName) (i j n : Nat) : (s.bump r i j n).net = s.net := rfl
@[simp] theorem State.pol_bump (s : State) (r : RegName) (i j n : Nat) : (s.bump r i j n).pol = s.pol := rfl
@[simp] theorem State.ten_bump (s : State) (r : RegName) (i j n : Nat) : (s.bump r i j n).ten = s.ten := rfl
@[simp] theorem State.ras_bump (s : State) (r : RegName) (i j n : Nat) : (s.bump r i j n).ras = s.ras := rfl
@[simp] theorem State.boot_bump (s : State) (r : RegName) (i j n : Nat) : (s.bump r i j n).boot = s.boot := rfl
@[simp] theorem State.start_bump (s : State) (r : RegName) (i j n : Nat) : (s.bump r i j n).start = s.start := rfl
@[simp] theorem State.dict_bump (s : State) (r : RegName) (i j n : Nat) : (s.bump r i j n).dict = s.dict := rfl
@[simp] theorem State.power_bump (s : State) (r : RegName) (i j n : Nat) : (s.bump r i j n).power = s.power := rfl
@[simp] theorem State.pins_bump (s : State) (r : RegName) (i j n : Nat) : (s.bump r i j n).pins = s.pins := rfl

/-! ### Host memory written -/

@[simp] theorem State.pending_wrHost (s : State) (p a : Nat) (b : List Byte) : (s.wrHost p a b).pending = s.pending := rfl
@[simp] theorem State.now_wrHost (s : State) (p a : Nat) (b : List Byte) : (s.wrHost p a b).now = s.now := rfl
@[simp] theorem State.freeCount_wrHost (s : State) (p a : Nat) (b : List Byte) : (s.wrHost p a b).freeCount = s.freeCount := rfl
@[simp] theorem State.regs_wrHost (s : State) (p a : Nat) (b : List Byte) : (s.wrHost p a b).regs = s.regs := rfl
@[simp] theorem State.shadowRegs_wrHost (s : State) (p a : Nat) (b : List Byte) : (s.wrHost p a b).shadowRegs = s.shadowRegs := rfl
@[simp] theorem State.readData_wrHost (s : State) (p a : Nat) (b : List Byte) : (s.wrHost p a b).readData = s.readData := rfl
@[simp] theorem State.dram_wrHost (s : State) (p a : Nat) (b : List Byte) : (s.wrHost p a b).dram = s.dram := rfl
@[simp] theorem State.out_wrHost (s : State) (p a : Nat) (b : List Byte) : (s.wrHost p a b).out = s.out := rfl
@[simp] theorem State.hq_wrHost (s : State) (p a : Nat) (b : List Byte) : (s.wrHost p a b).hq = s.hq := rfl
@[simp] theorem State.qry_wrHost (s : State) (p a : Nat) (b : List Byte) : (s.wrHost p a b).qry = s.qry := rfl
@[simp] theorem State.idx_wrHost (s : State) (p a : Nat) (b : List Byte) : (s.wrHost p a b).idx = s.idx := rfl
@[simp] theorem State.tbl_wrHost (s : State) (p a : Nat) (b : List Byte) : (s.wrHost p a b).tbl = s.tbl := rfl
@[simp] theorem State.fl_wrHost (s : State) (p a : Nat) (b : List Byte) : (s.wrHost p a b).fl = s.fl := rfl
@[simp] theorem State.net_wrHost (s : State) (p a : Nat) (b : List Byte) : (s.wrHost p a b).net = s.net := rfl
@[simp] theorem State.pol_wrHost (s : State) (p a : Nat) (b : List Byte) : (s.wrHost p a b).pol = s.pol := rfl
@[simp] theorem State.ten_wrHost (s : State) (p a : Nat) (b : List Byte) : (s.wrHost p a b).ten = s.ten := rfl
@[simp] theorem State.ras_wrHost (s : State) (p a : Nat) (b : List Byte) : (s.wrHost p a b).ras = s.ras := rfl
@[simp] theorem State.boot_wrHost (s : State) (p a : Nat) (b : List Byte) : (s.wrHost p a b).boot = s.boot := rfl
@[simp] theorem State.start_wrHost (s : State) (p a : Nat) (b : List Byte) : (s.wrHost p a b).start = s.start := rfl
@[simp] theorem State.dict_wrHost (s : State) (p a : Nat) (b : List Byte) : (s.wrHost p a b).dict = s.dict := rfl
@[simp] theorem State.power_wrHost (s : State) (p a : Nat) (b : List Byte) : (s.wrHost p a b).power = s.power := rfl
@[simp] theorem State.pins_wrHost (s : State) (p a : Nat) (b : List Byte) : (s.wrHost p a b).pins = s.pins := rfl

/-! ### DRAM written -/

@[simp] theorem State.pending_wrDram (s : State) (d a : Nat) (b : List Byte) : (s.wrDram d a b).pending = s.pending := rfl
@[simp] theorem State.now_wrDram (s : State) (d a : Nat) (b : List Byte) : (s.wrDram d a b).now = s.now := rfl
@[simp] theorem State.freeCount_wrDram (s : State) (d a : Nat) (b : List Byte) : (s.wrDram d a b).freeCount = s.freeCount := rfl
@[simp] theorem State.regs_wrDram (s : State) (d a : Nat) (b : List Byte) : (s.wrDram d a b).regs = s.regs := rfl
@[simp] theorem State.shadowRegs_wrDram (s : State) (d a : Nat) (b : List Byte) : (s.wrDram d a b).shadowRegs = s.shadowRegs := rfl
@[simp] theorem State.readData_wrDram (s : State) (d a : Nat) (b : List Byte) : (s.wrDram d a b).readData = s.readData := rfl
@[simp] theorem State.hostMem_wrDram (s : State) (d a : Nat) (b : List Byte) : (s.wrDram d a b).hostMem = s.hostMem := rfl
@[simp] theorem State.out_wrDram (s : State) (d a : Nat) (b : List Byte) : (s.wrDram d a b).out = s.out := rfl
@[simp] theorem State.hq_wrDram (s : State) (d a : Nat) (b : List Byte) : (s.wrDram d a b).hq = s.hq := rfl
@[simp] theorem State.qry_wrDram (s : State) (d a : Nat) (b : List Byte) : (s.wrDram d a b).qry = s.qry := rfl
@[simp] theorem State.idx_wrDram (s : State) (d a : Nat) (b : List Byte) : (s.wrDram d a b).idx = s.idx := rfl
@[simp] theorem State.tbl_wrDram (s : State) (d a : Nat) (b : List Byte) : (s.wrDram d a b).tbl = s.tbl := rfl
@[simp] theorem State.fl_wrDram (s : State) (d a : Nat) (b : List Byte) : (s.wrDram d a b).fl = s.fl := rfl
@[simp] theorem State.net_wrDram (s : State) (d a : Nat) (b : List Byte) : (s.wrDram d a b).net = s.net := rfl
@[simp] theorem State.pol_wrDram (s : State) (d a : Nat) (b : List Byte) : (s.wrDram d a b).pol = s.pol := rfl
@[simp] theorem State.ten_wrDram (s : State) (d a : Nat) (b : List Byte) : (s.wrDram d a b).ten = s.ten := rfl
@[simp] theorem State.ras_wrDram (s : State) (d a : Nat) (b : List Byte) : (s.wrDram d a b).ras = s.ras := rfl
@[simp] theorem State.boot_wrDram (s : State) (d a : Nat) (b : List Byte) : (s.wrDram d a b).boot = s.boot := rfl
@[simp] theorem State.start_wrDram (s : State) (d a : Nat) (b : List Byte) : (s.wrDram d a b).start = s.start := rfl
@[simp] theorem State.dict_wrDram (s : State) (d a : Nat) (b : List Byte) : (s.wrDram d a b).dict = s.dict := rfl
@[simp] theorem State.power_wrDram (s : State) (d a : Nat) (b : List Byte) : (s.wrDram d a b).power = s.power := rfl
@[simp] theorem State.pins_wrDram (s : State) (d a : Nat) (b : List Byte) : (s.wrDram d a b).pins = s.pins := rfl

/-! ### Device time reached -/

@[simp] theorem State.pending_reach (s : State) (x : Nat) : (s.reach x).pending = s.pending := rfl
@[simp] theorem State.freeCount_reach (s : State) (x : Nat) : (s.reach x).freeCount = s.freeCount := rfl
@[simp] theorem State.regs_reach (s : State) (x : Nat) : (s.reach x).regs = s.regs := rfl
@[simp] theorem State.shadowRegs_reach (s : State) (x : Nat) : (s.reach x).shadowRegs = s.shadowRegs := rfl
@[simp] theorem State.readData_reach (s : State) (x : Nat) : (s.reach x).readData = s.readData := rfl
@[simp] theorem State.hostMem_reach (s : State) (x : Nat) : (s.reach x).hostMem = s.hostMem := rfl
@[simp] theorem State.dram_reach (s : State) (x : Nat) : (s.reach x).dram = s.dram := rfl
@[simp] theorem State.out_reach (s : State) (x : Nat) : (s.reach x).out = s.out := rfl
@[simp] theorem State.hq_reach (s : State) (x : Nat) : (s.reach x).hq = s.hq := rfl
@[simp] theorem State.qry_reach (s : State) (x : Nat) : (s.reach x).qry = s.qry := rfl
@[simp] theorem State.idx_reach (s : State) (x : Nat) : (s.reach x).idx = s.idx := rfl
@[simp] theorem State.tbl_reach (s : State) (x : Nat) : (s.reach x).tbl = s.tbl := rfl
@[simp] theorem State.fl_reach (s : State) (x : Nat) : (s.reach x).fl = s.fl := rfl
@[simp] theorem State.net_reach (s : State) (x : Nat) : (s.reach x).net = s.net := rfl
@[simp] theorem State.pol_reach (s : State) (x : Nat) : (s.reach x).pol = s.pol := rfl
@[simp] theorem State.ten_reach (s : State) (x : Nat) : (s.reach x).ten = s.ten := rfl
@[simp] theorem State.ras_reach (s : State) (x : Nat) : (s.reach x).ras = s.ras := rfl
@[simp] theorem State.boot_reach (s : State) (x : Nat) : (s.reach x).boot = s.boot := rfl
@[simp] theorem State.start_reach (s : State) (x : Nat) : (s.reach x).start = s.start := rfl
@[simp] theorem State.dict_reach (s : State) (x : Nat) : (s.reach x).dict = s.dict := rfl
@[simp] theorem State.power_reach (s : State) (x : Nat) : (s.reach x).power = s.power := rfl
@[simp] theorem State.pins_reach (s : State) (x : Nat) : (s.reach x).pins = s.pins := rfl

/-! ### A free value drawn -/

@[simp] theorem State.pending_draw (s : State) : (s.draw).pending = s.pending := rfl
@[simp] theorem State.now_draw (s : State) : (s.draw).now = s.now := rfl
@[simp] theorem State.regs_draw (s : State) : (s.draw).regs = s.regs := rfl
@[simp] theorem State.shadowRegs_draw (s : State) : (s.draw).shadowRegs = s.shadowRegs := rfl
@[simp] theorem State.readData_draw (s : State) : (s.draw).readData = s.readData := rfl
@[simp] theorem State.hostMem_draw (s : State) : (s.draw).hostMem = s.hostMem := rfl
@[simp] theorem State.dram_draw (s : State) : (s.draw).dram = s.dram := rfl
@[simp] theorem State.out_draw (s : State) : (s.draw).out = s.out := rfl
@[simp] theorem State.hq_draw (s : State) : (s.draw).hq = s.hq := rfl
@[simp] theorem State.qry_draw (s : State) : (s.draw).qry = s.qry := rfl
@[simp] theorem State.idx_draw (s : State) : (s.draw).idx = s.idx := rfl
@[simp] theorem State.tbl_draw (s : State) : (s.draw).tbl = s.tbl := rfl
@[simp] theorem State.fl_draw (s : State) : (s.draw).fl = s.fl := rfl
@[simp] theorem State.net_draw (s : State) : (s.draw).net = s.net := rfl
@[simp] theorem State.pol_draw (s : State) : (s.draw).pol = s.pol := rfl
@[simp] theorem State.ten_draw (s : State) : (s.draw).ten = s.ten := rfl
@[simp] theorem State.ras_draw (s : State) : (s.draw).ras = s.ras := rfl
@[simp] theorem State.boot_draw (s : State) : (s.draw).boot = s.boot := rfl
@[simp] theorem State.start_draw (s : State) : (s.draw).start = s.start := rfl
@[simp] theorem State.dict_draw (s : State) : (s.draw).dict = s.dict := rfl
@[simp] theorem State.power_draw (s : State) : (s.draw).power = s.power := rfl
@[simp] theorem State.pins_draw (s : State) : (s.draw).pins = s.pins := rfl

/-! ### A message sent -/

@[simp] theorem State.pending_emit (s : State) (m : OutMsg) : (s.emit m).pending = s.pending := rfl
@[simp] theorem State.now_emit (s : State) (m : OutMsg) : (s.emit m).now = s.now := rfl
@[simp] theorem State.freeCount_emit (s : State) (m : OutMsg) : (s.emit m).freeCount = s.freeCount := rfl
@[simp] theorem State.regs_emit (s : State) (m : OutMsg) : (s.emit m).regs = s.regs := rfl
@[simp] theorem State.shadowRegs_emit (s : State) (m : OutMsg) : (s.emit m).shadowRegs = s.shadowRegs := rfl
@[simp] theorem State.readData_emit (s : State) (m : OutMsg) : (s.emit m).readData = s.readData := rfl
@[simp] theorem State.hostMem_emit (s : State) (m : OutMsg) : (s.emit m).hostMem = s.hostMem := rfl
@[simp] theorem State.dram_emit (s : State) (m : OutMsg) : (s.emit m).dram = s.dram := rfl
@[simp] theorem State.hq_emit (s : State) (m : OutMsg) : (s.emit m).hq = s.hq := rfl
@[simp] theorem State.qry_emit (s : State) (m : OutMsg) : (s.emit m).qry = s.qry := rfl
@[simp] theorem State.idx_emit (s : State) (m : OutMsg) : (s.emit m).idx = s.idx := rfl
@[simp] theorem State.tbl_emit (s : State) (m : OutMsg) : (s.emit m).tbl = s.tbl := rfl
@[simp] theorem State.fl_emit (s : State) (m : OutMsg) : (s.emit m).fl = s.fl := rfl
@[simp] theorem State.net_emit (s : State) (m : OutMsg) : (s.emit m).net = s.net := rfl
@[simp] theorem State.pol_emit (s : State) (m : OutMsg) : (s.emit m).pol = s.pol := rfl
@[simp] theorem State.ten_emit (s : State) (m : OutMsg) : (s.emit m).ten = s.ten := rfl
@[simp] theorem State.ras_emit (s : State) (m : OutMsg) : (s.emit m).ras = s.ras := rfl
@[simp] theorem State.boot_emit (s : State) (m : OutMsg) : (s.emit m).boot = s.boot := rfl
@[simp] theorem State.start_emit (s : State) (m : OutMsg) : (s.emit m).start = s.start := rfl
@[simp] theorem State.dict_emit (s : State) (m : OutMsg) : (s.emit m).dict = s.dict := rfl
@[simp] theorem State.power_emit (s : State) (m : OutMsg) : (s.emit m).power = s.power := rfl
@[simp] theorem State.pins_emit (s : State) (m : OutMsg) : (s.emit m).pins = s.pins := rfl

/-! ### A flash channel replaced -/

@[simp] theorem State.pending_setChan (s : State) (n : Nat) (x : Chan) : (s.setChan n x).pending = s.pending := rfl
@[simp] theorem State.now_setChan (s : State) (n : Nat) (x : Chan) : (s.setChan n x).now = s.now := rfl
@[simp] theorem State.freeCount_setChan (s : State) (n : Nat) (x : Chan) : (s.setChan n x).freeCount = s.freeCount := rfl
@[simp] theorem State.regs_setChan (s : State) (n : Nat) (x : Chan) : (s.setChan n x).regs = s.regs := rfl
@[simp] theorem State.shadowRegs_setChan (s : State) (n : Nat) (x : Chan) : (s.setChan n x).shadowRegs = s.shadowRegs := rfl
@[simp] theorem State.readData_setChan (s : State) (n : Nat) (x : Chan) : (s.setChan n x).readData = s.readData := rfl
@[simp] theorem State.hostMem_setChan (s : State) (n : Nat) (x : Chan) : (s.setChan n x).hostMem = s.hostMem := rfl
@[simp] theorem State.dram_setChan (s : State) (n : Nat) (x : Chan) : (s.setChan n x).dram = s.dram := rfl
@[simp] theorem State.out_setChan (s : State) (n : Nat) (x : Chan) : (s.setChan n x).out = s.out := rfl
@[simp] theorem State.hq_setChan (s : State) (n : Nat) (x : Chan) : (s.setChan n x).hq = s.hq := rfl
@[simp] theorem State.qry_setChan (s : State) (n : Nat) (x : Chan) : (s.setChan n x).qry = s.qry := rfl
@[simp] theorem State.idx_setChan (s : State) (n : Nat) (x : Chan) : (s.setChan n x).idx = s.idx := rfl
@[simp] theorem State.tbl_setChan (s : State) (n : Nat) (x : Chan) : (s.setChan n x).tbl = s.tbl := rfl
@[simp] theorem State.net_setChan (s : State) (n : Nat) (x : Chan) : (s.setChan n x).net = s.net := rfl
@[simp] theorem State.pol_setChan (s : State) (n : Nat) (x : Chan) : (s.setChan n x).pol = s.pol := rfl
@[simp] theorem State.ten_setChan (s : State) (n : Nat) (x : Chan) : (s.setChan n x).ten = s.ten := rfl
@[simp] theorem State.ras_setChan (s : State) (n : Nat) (x : Chan) : (s.setChan n x).ras = s.ras := rfl
@[simp] theorem State.boot_setChan (s : State) (n : Nat) (x : Chan) : (s.setChan n x).boot = s.boot := rfl
@[simp] theorem State.start_setChan (s : State) (n : Nat) (x : Chan) : (s.setChan n x).start = s.start := rfl
@[simp] theorem State.dict_setChan (s : State) (n : Nat) (x : Chan) : (s.setChan n x).dict = s.dict := rfl
@[simp] theorem State.power_setChan (s : State) (n : Nat) (x : Chan) : (s.setChan n x).power = s.power := rfl
@[simp] theorem State.pins_setChan (s : State) (n : Nat) (x : Chan) : (s.setChan n x).pins = s.pins := rfl

/-! ### A context replaced -/

@[simp] theorem State.pending_setCtx (s : State) (c : Nat) (x : Ctx) : (s.setCtx c x).pending = s.pending := rfl
@[simp] theorem State.now_setCtx (s : State) (c : Nat) (x : Ctx) : (s.setCtx c x).now = s.now := rfl
@[simp] theorem State.freeCount_setCtx (s : State) (c : Nat) (x : Ctx) : (s.setCtx c x).freeCount = s.freeCount := rfl
@[simp] theorem State.shadowRegs_setCtx (s : State) (c : Nat) (x : Ctx) : (s.setCtx c x).shadowRegs = s.shadowRegs := rfl
@[simp] theorem State.readData_setCtx (s : State) (c : Nat) (x : Ctx) : (s.setCtx c x).readData = s.readData := rfl
@[simp] theorem State.hostMem_setCtx (s : State) (c : Nat) (x : Ctx) : (s.setCtx c x).hostMem = s.hostMem := rfl
@[simp] theorem State.dram_setCtx (s : State) (c : Nat) (x : Ctx) : (s.setCtx c x).dram = s.dram := rfl
@[simp] theorem State.out_setCtx (s : State) (c : Nat) (x : Ctx) : (s.setCtx c x).out = s.out := rfl
@[simp] theorem State.qry_setCtx (s : State) (c : Nat) (x : Ctx) : (s.setCtx c x).qry = s.qry := rfl
@[simp] theorem State.idx_setCtx (s : State) (c : Nat) (x : Ctx) : (s.setCtx c x).idx = s.idx := rfl
@[simp] theorem State.tbl_setCtx (s : State) (c : Nat) (x : Ctx) : (s.setCtx c x).tbl = s.tbl := rfl
@[simp] theorem State.fl_setCtx (s : State) (c : Nat) (x : Ctx) : (s.setCtx c x).fl = s.fl := rfl
@[simp] theorem State.net_setCtx (s : State) (c : Nat) (x : Ctx) : (s.setCtx c x).net = s.net := rfl
@[simp] theorem State.pol_setCtx (s : State) (c : Nat) (x : Ctx) : (s.setCtx c x).pol = s.pol := rfl
@[simp] theorem State.ten_setCtx (s : State) (c : Nat) (x : Ctx) : (s.setCtx c x).ten = s.ten := rfl
@[simp] theorem State.ras_setCtx (s : State) (c : Nat) (x : Ctx) : (s.setCtx c x).ras = s.ras := rfl
@[simp] theorem State.boot_setCtx (s : State) (c : Nat) (x : Ctx) : (s.setCtx c x).boot = s.boot := rfl
@[simp] theorem State.start_setCtx (s : State) (c : Nat) (x : Ctx) : (s.setCtx c x).start = s.start := rfl
@[simp] theorem State.dict_setCtx (s : State) (c : Nat) (x : Ctx) : (s.setCtx c x).dict = s.dict := rfl
@[simp] theorem State.power_setCtx (s : State) (c : Nat) (x : Ctx) : (s.setCtx c x).power = s.power := rfl
@[simp] theorem State.pins_setCtx (s : State) (c : Nat) (x : Ctx) : (s.setCtx c x).pins = s.pins := rfl

/-! ### A query replaced -/

@[simp] theorem State.pending_setQuery (s : State) (q : Nat) (x : Query) : (s.setQuery q x).pending = s.pending := rfl
@[simp] theorem State.now_setQuery (s : State) (q : Nat) (x : Query) : (s.setQuery q x).now = s.now := rfl
@[simp] theorem State.freeCount_setQuery (s : State) (q : Nat) (x : Query) : (s.setQuery q x).freeCount = s.freeCount := rfl
@[simp] theorem State.regs_setQuery (s : State) (q : Nat) (x : Query) : (s.setQuery q x).regs = s.regs := rfl
@[simp] theorem State.shadowRegs_setQuery (s : State) (q : Nat) (x : Query) : (s.setQuery q x).shadowRegs = s.shadowRegs := rfl
@[simp] theorem State.readData_setQuery (s : State) (q : Nat) (x : Query) : (s.setQuery q x).readData = s.readData := rfl
@[simp] theorem State.hostMem_setQuery (s : State) (q : Nat) (x : Query) : (s.setQuery q x).hostMem = s.hostMem := rfl
@[simp] theorem State.dram_setQuery (s : State) (q : Nat) (x : Query) : (s.setQuery q x).dram = s.dram := rfl
@[simp] theorem State.out_setQuery (s : State) (q : Nat) (x : Query) : (s.setQuery q x).out = s.out := rfl
@[simp] theorem State.hq_setQuery (s : State) (q : Nat) (x : Query) : (s.setQuery q x).hq = s.hq := rfl
@[simp] theorem State.idx_setQuery (s : State) (q : Nat) (x : Query) : (s.setQuery q x).idx = s.idx := rfl
@[simp] theorem State.tbl_setQuery (s : State) (q : Nat) (x : Query) : (s.setQuery q x).tbl = s.tbl := rfl
@[simp] theorem State.fl_setQuery (s : State) (q : Nat) (x : Query) : (s.setQuery q x).fl = s.fl := rfl
@[simp] theorem State.net_setQuery (s : State) (q : Nat) (x : Query) : (s.setQuery q x).net = s.net := rfl
@[simp] theorem State.pol_setQuery (s : State) (q : Nat) (x : Query) : (s.setQuery q x).pol = s.pol := rfl
@[simp] theorem State.ten_setQuery (s : State) (q : Nat) (x : Query) : (s.setQuery q x).ten = s.ten := rfl
@[simp] theorem State.ras_setQuery (s : State) (q : Nat) (x : Query) : (s.setQuery q x).ras = s.ras := rfl
@[simp] theorem State.boot_setQuery (s : State) (q : Nat) (x : Query) : (s.setQuery q x).boot = s.boot := rfl
@[simp] theorem State.start_setQuery (s : State) (q : Nat) (x : Query) : (s.setQuery q x).start = s.start := rfl
@[simp] theorem State.dict_setQuery (s : State) (q : Nat) (x : Query) : (s.setQuery q x).dict = s.dict := rfl
@[simp] theorem State.power_setQuery (s : State) (q : Nat) (x : Query) : (s.setQuery q x).power = s.power := rfl
@[simp] theorem State.pins_setQuery (s : State) (q : Nat) (x : Query) : (s.setQuery q x).pins = s.pins := rfl

/-! ### A query gone -/

@[simp] theorem State.pending_delQuery (s : State) (q : Nat) : (s.delQuery q).pending = s.pending := rfl
@[simp] theorem State.now_delQuery (s : State) (q : Nat) : (s.delQuery q).now = s.now := rfl
@[simp] theorem State.freeCount_delQuery (s : State) (q : Nat) : (s.delQuery q).freeCount = s.freeCount := rfl
@[simp] theorem State.regs_delQuery (s : State) (q : Nat) : (s.delQuery q).regs = s.regs := rfl
@[simp] theorem State.shadowRegs_delQuery (s : State) (q : Nat) : (s.delQuery q).shadowRegs = s.shadowRegs := rfl
@[simp] theorem State.readData_delQuery (s : State) (q : Nat) : (s.delQuery q).readData = s.readData := rfl
@[simp] theorem State.hostMem_delQuery (s : State) (q : Nat) : (s.delQuery q).hostMem = s.hostMem := rfl
@[simp] theorem State.dram_delQuery (s : State) (q : Nat) : (s.delQuery q).dram = s.dram := rfl
@[simp] theorem State.out_delQuery (s : State) (q : Nat) : (s.delQuery q).out = s.out := rfl
@[simp] theorem State.hq_delQuery (s : State) (q : Nat) : (s.delQuery q).hq = s.hq := rfl
@[simp] theorem State.idx_delQuery (s : State) (q : Nat) : (s.delQuery q).idx = s.idx := rfl
@[simp] theorem State.tbl_delQuery (s : State) (q : Nat) : (s.delQuery q).tbl = s.tbl := rfl
@[simp] theorem State.fl_delQuery (s : State) (q : Nat) : (s.delQuery q).fl = s.fl := rfl
@[simp] theorem State.net_delQuery (s : State) (q : Nat) : (s.delQuery q).net = s.net := rfl
@[simp] theorem State.pol_delQuery (s : State) (q : Nat) : (s.delQuery q).pol = s.pol := rfl
@[simp] theorem State.ten_delQuery (s : State) (q : Nat) : (s.delQuery q).ten = s.ten := rfl
@[simp] theorem State.ras_delQuery (s : State) (q : Nat) : (s.delQuery q).ras = s.ras := rfl
@[simp] theorem State.boot_delQuery (s : State) (q : Nat) : (s.delQuery q).boot = s.boot := rfl
@[simp] theorem State.start_delQuery (s : State) (q : Nat) : (s.delQuery q).start = s.start := rfl
@[simp] theorem State.dict_delQuery (s : State) (q : Nat) : (s.delQuery q).dict = s.dict := rfl
@[simp] theorem State.power_delQuery (s : State) (q : Nat) : (s.delQuery q).power = s.power := rfl
@[simp] theorem State.pins_delQuery (s : State) (q : Nat) : (s.delQuery q).pins = s.pins := rfl

/-! ### A version replaced -/

@[simp] theorem State.pending_setVersion (s : State) (k : Nat) (x : Version) : (s.setVersion k x).pending = s.pending := rfl
@[simp] theorem State.now_setVersion (s : State) (k : Nat) (x : Version) : (s.setVersion k x).now = s.now := rfl
@[simp] theorem State.freeCount_setVersion (s : State) (k : Nat) (x : Version) : (s.setVersion k x).freeCount = s.freeCount := rfl
@[simp] theorem State.regs_setVersion (s : State) (k : Nat) (x : Version) : (s.setVersion k x).regs = s.regs := rfl
@[simp] theorem State.shadowRegs_setVersion (s : State) (k : Nat) (x : Version) : (s.setVersion k x).shadowRegs = s.shadowRegs := rfl
@[simp] theorem State.readData_setVersion (s : State) (k : Nat) (x : Version) : (s.setVersion k x).readData = s.readData := rfl
@[simp] theorem State.hostMem_setVersion (s : State) (k : Nat) (x : Version) : (s.setVersion k x).hostMem = s.hostMem := rfl
@[simp] theorem State.dram_setVersion (s : State) (k : Nat) (x : Version) : (s.setVersion k x).dram = s.dram := rfl
@[simp] theorem State.out_setVersion (s : State) (k : Nat) (x : Version) : (s.setVersion k x).out = s.out := rfl
@[simp] theorem State.hq_setVersion (s : State) (k : Nat) (x : Version) : (s.setVersion k x).hq = s.hq := rfl
@[simp] theorem State.qry_setVersion (s : State) (k : Nat) (x : Version) : (s.setVersion k x).qry = s.qry := rfl
@[simp] theorem State.tbl_setVersion (s : State) (k : Nat) (x : Version) : (s.setVersion k x).tbl = s.tbl := rfl
@[simp] theorem State.fl_setVersion (s : State) (k : Nat) (x : Version) : (s.setVersion k x).fl = s.fl := rfl
@[simp] theorem State.net_setVersion (s : State) (k : Nat) (x : Version) : (s.setVersion k x).net = s.net := rfl
@[simp] theorem State.pol_setVersion (s : State) (k : Nat) (x : Version) : (s.setVersion k x).pol = s.pol := rfl
@[simp] theorem State.ten_setVersion (s : State) (k : Nat) (x : Version) : (s.setVersion k x).ten = s.ten := rfl
@[simp] theorem State.ras_setVersion (s : State) (k : Nat) (x : Version) : (s.setVersion k x).ras = s.ras := rfl
@[simp] theorem State.boot_setVersion (s : State) (k : Nat) (x : Version) : (s.setVersion k x).boot = s.boot := rfl
@[simp] theorem State.start_setVersion (s : State) (k : Nat) (x : Version) : (s.setVersion k x).start = s.start := rfl
@[simp] theorem State.dict_setVersion (s : State) (k : Nat) (x : Version) : (s.setVersion k x).dict = s.dict := rfl
@[simp] theorem State.power_setVersion (s : State) (k : Nat) (x : Version) : (s.setVersion k x).power = s.power := rfl
@[simp] theorem State.pins_setVersion (s : State) (k : Nat) (x : Version) : (s.setVersion k x).pins = s.pins := rfl

/-! ### A connection replaced -/

@[simp] theorem State.pending_setConn (s : State) (c : Nat) (x : Conn) : (s.setConn c x).pending = s.pending := rfl
@[simp] theorem State.now_setConn (s : State) (c : Nat) (x : Conn) : (s.setConn c x).now = s.now := rfl
@[simp] theorem State.freeCount_setConn (s : State) (c : Nat) (x : Conn) : (s.setConn c x).freeCount = s.freeCount := rfl
@[simp] theorem State.regs_setConn (s : State) (c : Nat) (x : Conn) : (s.setConn c x).regs = s.regs := rfl
@[simp] theorem State.shadowRegs_setConn (s : State) (c : Nat) (x : Conn) : (s.setConn c x).shadowRegs = s.shadowRegs := rfl
@[simp] theorem State.readData_setConn (s : State) (c : Nat) (x : Conn) : (s.setConn c x).readData = s.readData := rfl
@[simp] theorem State.hostMem_setConn (s : State) (c : Nat) (x : Conn) : (s.setConn c x).hostMem = s.hostMem := rfl
@[simp] theorem State.dram_setConn (s : State) (c : Nat) (x : Conn) : (s.setConn c x).dram = s.dram := rfl
@[simp] theorem State.out_setConn (s : State) (c : Nat) (x : Conn) : (s.setConn c x).out = s.out := rfl
@[simp] theorem State.hq_setConn (s : State) (c : Nat) (x : Conn) : (s.setConn c x).hq = s.hq := rfl
@[simp] theorem State.qry_setConn (s : State) (c : Nat) (x : Conn) : (s.setConn c x).qry = s.qry := rfl
@[simp] theorem State.idx_setConn (s : State) (c : Nat) (x : Conn) : (s.setConn c x).idx = s.idx := rfl
@[simp] theorem State.tbl_setConn (s : State) (c : Nat) (x : Conn) : (s.setConn c x).tbl = s.tbl := rfl
@[simp] theorem State.fl_setConn (s : State) (c : Nat) (x : Conn) : (s.setConn c x).fl = s.fl := rfl
@[simp] theorem State.pol_setConn (s : State) (c : Nat) (x : Conn) : (s.setConn c x).pol = s.pol := rfl
@[simp] theorem State.ten_setConn (s : State) (c : Nat) (x : Conn) : (s.setConn c x).ten = s.ten := rfl
@[simp] theorem State.ras_setConn (s : State) (c : Nat) (x : Conn) : (s.setConn c x).ras = s.ras := rfl
@[simp] theorem State.boot_setConn (s : State) (c : Nat) (x : Conn) : (s.setConn c x).boot = s.boot := rfl
@[simp] theorem State.start_setConn (s : State) (c : Nat) (x : Conn) : (s.setConn c x).start = s.start := rfl
@[simp] theorem State.dict_setConn (s : State) (c : Nat) (x : Conn) : (s.setConn c x).dict = s.dict := rfl
@[simp] theorem State.power_setConn (s : State) (c : Nat) (x : Conn) : (s.setConn c x).power = s.power := rfl
@[simp] theorem State.pins_setConn (s : State) (c : Nat) (x : Conn) : (s.setConn c x).pins = s.pins := rfl

/-! ### What was written -/

@[simp] theorem State.reg_setReg_self (s : State) (r : RegName) (i j : Nat) (v : W64) : (s.setReg r i j v).reg r i j = v :=
  Tbl.getD_wr_self _ _ _ _

theorem State.reg_setReg_other (s : State) {r q : RegName} (h : q ≠ r) (i j a b : Nat) (v : W64) :
    (s.setReg r i j v).reg q a b = s.reg q a b := Tbl.getD_wr_other s.regs _ _ v (regKey_ne h i j a b)

theorem State.reg_setReg_copy (s : State) (r : RegName) {i j a b : Nat} (h : (a, b) ≠ (i, j)) (v : W64) :
    (s.setReg r i j v).reg r a b = s.reg r a b :=
  Tbl.getD_wr_other s.regs _ _ v fun e => h (by
    simp only [regKey, Nat.pair_eq_pair] at e
    rw [e.2.1, e.2.2])

theorem State.fld_setFld_other (s : State) {f g : Fld} (h : g.reg ≠ f.reg) (i j n a b : Nat) :
    (s.setFld f i j n).fld g a b = s.fld g a b := congrArg (Fld.get g) (s.reg_setReg_other h i j a b _)

@[simp] theorem State.chan_setChan_self (s : State) (n : Nat) (x : Chan) : (s.setChan n x).chan n = x := by
  simp only [State.chan, State.setChan, Tbl.getD, Tbl.get?_put_self, Option.getD_some]

theorem State.chan_setChan_ne (s : State) {n m : Nat} (h : m ≠ n) (x : Chan) : (s.setChan n x).chan m = s.chan m := by
  simp only [State.chan, State.setChan, Tbl.getD, Tbl.get?_put_ne _ _ h]

@[simp] theorem State.ctx_setCtx_self (s : State) (c : Nat) (x : Ctx) : (s.setCtx c x).ctx c = x := by
  show Tbl.getD (Tbl.put s.hq.ctxs c x) {} c = x
  simp only [Tbl.getD, Tbl.get?_put_self, Option.getD_some]

theorem State.ctx_setCtx_ne (s : State) {c d : Nat} (h : d ≠ c) (x : Ctx) : (s.setCtx c x).ctx d = s.ctx d := by
  show Tbl.getD (Tbl.put s.hq.ctxs c x) {} d = _
  simp only [State.ctx, Tbl.getD, Tbl.get?_put_ne _ _ h]

@[simp] theorem State.query_setQuery_self (s : State) (q : Nat) (x : Query) : (s.setQuery q x).query q = some x :=
  Tbl.get?_put_self _ _ _

theorem State.query_setQuery_ne (s : State) {q p : Nat} (h : p ≠ q) (x : Query) : (s.setQuery q x).query p = s.query p :=
  Tbl.get?_put_ne _ _ h

@[simp] theorem State.query_delQuery_self (s : State) (q : Nat) : (s.delQuery q).query q = none := Tbl.get?_del_self _ _

theorem State.query_delQuery_ne (s : State) {q p : Nat} (h : p ≠ q) : (s.delQuery q).query p = s.query p :=
  Tbl.get?_del_ne _ h

@[simp] theorem State.version_setVersion_self (s : State) (k : Nat) (x : Version) : (s.setVersion k x).version k = x := by
  simp only [State.version, State.setVersion, Tbl.getD, Tbl.get?_put_self, Option.getD_some]

theorem State.version_setVersion_ne (s : State) {k l : Nat} (h : l ≠ k) (x : Version) :
    (s.setVersion k x).version l = s.version l := by
  simp only [State.version, State.setVersion, Tbl.getD, Tbl.get?_put_ne _ _ h]

@[simp] theorem State.conn_setConn_self (s : State) (c : Nat) (x : Conn) : (s.setConn c x).conn c = x := by
  simp only [State.conn, State.setConn, Tbl.getD, Tbl.get?_put_self, Option.getD_some]

theorem State.conn_setConn_ne (s : State) {c d : Nat} (h : d ≠ c) (x : Conn) : (s.setConn c x).conn d = s.conn d := by
  simp only [State.conn, State.setConn, Tbl.getD, Tbl.get?_put_ne _ _ h]

end Sys2Proof.Machine
end

