-- ==== Sys2Proof/Tests/Slice0.lean ====
section
/-! SUPPORT. Tests: an ill-formed command for each check of WellFormed.lean; for each obligation with hypotheses, a state and
operands that meet them; and single steps whose outcome the spec states. -/

set_option Elab.async false

namespace Sys2Proof.Tests

open Sys2Proof Sys2Proof.Machine

/-! ### Small states -/

/-- Several fields of registers at once. -/
def putFlds (l : List (Fld × Nat × Nat × Nat)) (s : State) : State :=
  l.foldl (fun t e => t.setFld e.1 e.2.1 e.2.2.1 e.2.2.2) s

/-- A serving device. -/
def serving : State := State.reset.setFld fHQ_START_STATUS_MODE 0 0 1

/-- Context 3 OPEN on port 1, function 2, tenant 7, partition 5; rings of 16 entries at host pages 16 and 32. -/
def openCtx : State :=
  putFlds [(fHQ_CTX_BIND_V, 3, 0, 1), (fHQ_CTX_BIND_PORT, 3, 0, 1), (fHQ_CTX_BIND_FUNC, 3, 0, 2), (fHQ_CTX_BIND_TENANT, 3, 0, 7),
    (fHQ_CTX_BIND_PN, 3, 0, 5), (fHQ_SQ_BASE_BASE, 3, 0, 16), (fHQ_CQ_BASE_BASE, 3, 0, 32), (fHQ_CTX_STATUS_STATE, 3, 0, 1),
    (fHQ_CTX_CTL_OPEN, 3, 0, 1)] serving

/-- Bytes of a descriptor of 64 bytes: its opcode, and fields as (offset, size, value). -/
def desc (op : Nat) (fs : List (Nat × Nat × Nat)) : List Byte :=
  fs.foldl (fun b f => b.take f.1 ++ leBytes f.2.1 f.2.2 ++ b.drop (f.1 + f.2.1)) (leBytes 1 op ++ List.replicate 63 0)

/-- A command waits in context 3, with number 9. -/
def withCmd (b : List Byte) (s : State) : State :=
  s.setCtx 3 { s.ctx 3 with cmds := (s.ctx 3).cmds ++ [{ seq := 9, bytes := b }] }

/-! ### States and operands that meet the hypotheses of each obligation -/

/-- What one command leaves. -/
def after (c : Instr) (s : State) : State :=
  match exec c s with
  | .next t => t
  | _ => s

/-- The front command of context 3, admitted, meets a condition. -/
def admits (op : Nat) (s : State) (f : Cmd → State → Bool) : Bool :=
  s.allDefined 3 && s.toRing 3 && (s.admission 3 op).any fun r => f r.1 r.2

theorem test_hyp_AnEmptyQueueIdles : State.reset.pending = [] ∧ State.reset.dumpState ≠ 1 := by decide +kernel

theorem test_hyp_Steps : State.reset.sound = true ∧ (∃ t, step State.reset = .next t) ∧
    State.reset.pending.head? ≠ some .powerOn := ⟨by decide +kernel, ⟨_, rfl⟩, by decide +kernel⟩

theorem test_hyp_EveryCommandKeepsItsFrame : (∃ t, exec (.validate 65535 0) State.reset = .next t) ∧
    (∃ p, p ∉ partsOf (.validate 65535 0)) ∧ ∃ rs, regsOf (.validate 65535 0) = some rs ∧ RegName.SY_VAL ∉ rs :=
  ⟨⟨_, rfl⟩, ⟨.hostMem, by decide +kernel⟩, ⟨_, rfl, by decide +kernel⟩⟩

theorem test_hyp_RegisterWritesFollowTheAccessCodes : RegName.fields .HQ_CTX_CTL ≠ [] ∧
    (RegName.fields .EL_CTL).any (·.acc == .RW) = true := by decide +kernel

theorem test_hyp_RegisterAccesses :
    (copyExists .EL_CTL 0 0 = true ∧ serving.barServes .EL_CTL 0 (2 ^ 61) = true ∧
      widthOk .EL_CTL (RegName.width .EL_CTL) true = true ∧ RegName.EL_CTL ∉ ownRule) ∧
    (copyExists .HQ_MB_REQ 1 131 = true ∧ widthOk .HQ_MB_REQ 64 true = true ∧ widthOk .HQ_MB_REQ 32 true = true) ∧
    (widthOk .EL_CTL 8 true = false ∧ widthOk .EL_CTL 32 false = false ∧
      State.reset.ras.errWins.find? (ErrWin.hasKey · 4 0 1) = none) ∧
    (readClears .BD_BLOCKS = false ∧ readClears .BD_GQ_POOL_MAX = true ∧ serving.viewed .BD_GQ_POOL_MAX 4 = false) ∧
    Fld.get (fSnap .XT_SNAP) (2 ^ 31) = 1 := by decide +kernel

theorem test_hyp_Doorbells :
    (openCtx.fromOwner 3 1 2 = true ∧ openCtx.ctxState 3 = 1 ∧ 15 < openCtx.sqSize 3) ∧ openCtx.sqSize 3 = 16 ∧
    (15 < openCtx.cqSize 3 ∧ ringDist (openCtx.cqSize 3) ((openCtx.setCtx 3 { cqTail := 15 }).ctx 3).cqHead 15 ≤
      ringDist (openCtx.cqSize 3) 0 ((openCtx.setCtx 3 { cqTail := 15 }).ctx 3).cqTail) ∧
    openCtx.fromOwner 3 1 0 = false ∧ openCtx.fromOwner 4 1 2 = false := by decide +kernel

theorem test_hyp_ContextsOpenAndClose :
    (let s := openCtx.setFld fHQ_CTX_STATUS_STATE 3 0 0
     s.ctxState 3 = 0 ∧ s.mode = 1 ∧ s.isOn fHQ_CTX_BIND_V 3 0 = true ∧ s.reaches .HQ_CTX_CTL 3 (2 ^ 61 + 2 ^ 55 + 8) = true ∧
      ringsOk (s.nextCtl 3 (2 ^ 31 + Fld.put fHQ_CTX_CTL_SQ_SZ 0 12 + Fld.put fHQ_CTX_CTL_CQ_SZ 0 12)) = true ∧
      ringsOk (s.nextCtl 3 (2 ^ 31 + Fld.put fHQ_CTX_CTL_SQ_SZ 0 12)) = false ∧
      s.reaches .HQ_CTX_CTL 3 (2 ^ 61 + 2 ^ 55) = false ∧ s.reaches .HQ_CTX_CTL 3 (2 ^ 55 + 8) = false) ∧
    let s := withCmd (desc 0 []) openCtx
    s.ctxState 3 = 1 ∧ s.toRing 3 = true ∧ s.reaches .HQ_CTX_CTL 3 (2 ^ 62) = true ∧ ((s.ctx 3).cmds.map (·.seq)).Nodup ∧ (s.ctx 3).cmds ≠ [] ∧
    ∀ m ∈ (s.ctx 3).cmds, s.group? m.seq = none ∧ s.job? m.seq = none ∧ s.query m.seq = none ∧
      s.tbl.tblJobs.find? (·.seq == m.seq) = none := by decide +kernel

theorem test_hyp_PortsResetAndHandOver :
    ((∀ c, c < 256 → openCtx.fromOwner c 1 2 = true → (openCtx.ctx c).cmds = []) ∧ openCtx.fromOwner 3 1 2 = true) ∧
    (∀ c, c < 256 → openCtx.isOn fHQ_CTX_BIND_V c 0 = true → openCtx.ctxPort c = 1 → (openCtx.ctx c).cmds = []) ∧
    let s := openCtx.setFld fHQ_CG_CTL_HANDOVER_EN 0 0 1
    1 ≠ s.fld fHQ_CG_CTL_ACTIVE_PORT 0 0 ∧ Fld.get fHQ_CG_CTL_CMD (Fld.put fHQ_CG_CTL_CMD 0 1) = 1 ∧
    s.isOn fHQ_CG_CTL_HANDOVER_EN 0 0 = true ∧ s.fld fHQ_CG_CTL_STATE 0 0 = 0 ∧ s.fld fHQ_CTX_BIND_CG 3 0 = 0 ∧
    Fld.get fHQ_CG_CTL_NEW_FUNC (Fld.put fHQ_CG_CTL_CMD 0 1) = 0 ∧ s.isFabric 3 = false ∧
    (∀ c, c < 256 → State.reset.isOn fHQ_CTX_BIND_V c 0 = false) := by decide +kernel

/-- The host has placed a NOP at entry 15 of the ring of context 3. -/
def tailMoved : State := openCtx.setCtx 3 { sqHead := 15, sqTail := 0 }

theorem test_hyp_FetchingAndInterrupts :
    (tailMoved.mayFetch 3 = true ∧ tailMoved.allDefined 3 = true ∧
      definedOp (dOpcode (tailMoved.rdN (tailMoved.ctxPort 3) (tailMoved.fld fHQ_SQ_BASE_BASE 3 0 * 4096 + 64 * 15) 64)) = true) ∧
    (let s := withCmd (desc 1 []) openCtx
     (s.cmd? 3 9).isSome = true ∧ s.query 9 = none ∧ s.group? 9 = none ∧ s.job? 9 = none ∧ s.toRing 3 = true) ∧
    let s := (openCtx.setFld fHQ_CTX_CTL_COAL_US8 3 0 1).setCtx 3 { irqCount := 1 }
    0 < (s.ctx 3).irqCount ∧ (s.ctx 3).silent = false ∧ 0 < s.fld fHQ_CTX_CTL_COAL_US8 3 0 := by decide +kernel

/-- A CANCEL of the command with identifier 6, numbered 9; and a search with that identifier, numbered 8, before it. -/
def cancelling : State := withCmd (desc 2 [(0x14, 4, 6)]) openCtx
def cancelBehind : State :=
  let m : Cmd := { seq := 8, bytes := desc 1 [(2, 2, 6), (8, 8, 64)], policed := true }
  withCmd (desc 2 [(0x14, 4, 6)]) (openCtx.setCtx 3 { cmds := [m] })

/-- The CANCEL numbered 9 is admitted, and what it finds meets a condition. -/
def cancels (s : State) (f : Option Cmd → Bool) : Bool :=
  s.cancelTurn 3 9 && s.allDefined 3 && s.toRing 3 &&
  (((s.ctx 3).cmds.find? fun y => y.seq == 9 && dOpcode y.bytes == 0x02 && y.admitted.isNone).bind (s.admitted? 3)).any
    fun r => generalOk r.1.bytes && decide (gCount r.1.bytes < 65536) && f (r.2.cancelTarget 3 9 (gCount r.1.bytes))

theorem test_hyp_CommandsThatEndAtOnce :
    (let s := withCmd (desc 0 [(2, 2, 65535)]) openCtx
     admits 0x00 s (fun m _ => (m.bytes.drop 16).all (· == 0)) = true ∧
      s.fld fHQ_CQ_BASE_BASE 3 0 * 4096 + 32 * (s.ctx 3).cqTail + 32 ≤ 2 ^ 64) ∧
    cancels cancelling Option.isNone = true ∧
    cancels cancelBehind (·.any fun y => dOpcode y.bytes == 0x01 && y.admitted.isNone) = true ∧
    admits 0x03 (withCmd (desc 3 [(8, 8, 64), (0x14, 4, 64)]) openCtx) (fun m _ => generalOk m.bytes &&
      decide (0 < gCount m.bytes) && decide (gCount m.bytes ≤ 64)) = true := by decide +kernel

/-! ### Queries -/

/-- A list of cluster 1 on die 0: one block with two slots, codes 0 and all ones in the low 128 bits. -/
def aList : IList :=
  { die := 0, blocks := [{ seq := 0, ordBase := 0, taken := 2, fill := 2, codes := [(0, 0), (1, 2 ^ 128 - 1)] }] }

/-- Index 15 with version 4 in slot 3, CURRENT, four clusters; band 9 of die 0 is partition 5's. -/
def indexed (s : State) : State :=
  putFlds [(fHQ_IDX_CTL_ENABLE, 15, 0, 1), (fHQ_IDX_CTL_VALID, 15, 0, 8), (fHQ_IDX_CTL_CURRENT, 15, 0, 3),
    (fHQ_IDX_VER_VERSION, 15, 3, 4), (fTN_BAND_V, 9, 0, 1), (fTN_BAND_PN, 9, 0, 5), (fBD_STATUS_IN_SERVICE, 9, 0, 1),
    (fBD_SVC_STATE, 9, 0, 0), (fBD_THR_GATED, 9, 0, 0)]
    (s.setVersion 63 {
      holds := true, owner := 7, cents := [0, 1, 3, 7], place := [0, 0, 0, 0],
      ordHi := [65536, 65536, 65536, 65536, 65536], ordNext := [256, 0, 0, 0, 0], lists := [(1, aList)] })

/-- A search of index 15: N_PROBE 1, K 1, no stage, its block at host address 4096. -/
def searchBytes (more : List (Nat × Nat × Nat)) : List Byte :=
  desc 1 ([(8, 8, 64), (0x10, 1, 15), (0x14, 2, 1), (0x30, 8, 4096)] ++ more)

def searching : State := withCmd (searchBytes []) (indexed openCtx)

/-- A sub-query of the same search waits on connection 8191, to which fabric context 4 is bound. -/
def subSearch : State :=
  let s := putFlds [(fHQ_CTX_BIND_V, 4, 0, 1), (fHQ_CTX_BIND_FABRIC, 4, 0, 1), (fHQ_CTX_BIND_CONN, 4, 0, 8191),
    (fHQ_CTX_BIND_PN, 4, 0, 5), (fHQ_CTX_STATUS_STATE, 4, 0, 1)] (indexed openCtx)
  s.setConn 8191 { inbox := [{
    msn := 0, opcode := 5, len := 200, sendType := 0,
    data := leBytes 8 77 ++ desc 1 [(0x10, 1, 15), (0x14, 2, 1)] ++ List.replicate 128 0 }] }

theorem test_hyp_SearchesAreAdmitted :
    admits 0x01 searching (fun m t => t.searchAlone 3 m && (t.checkSearch 3 m).1 == 0 && !m.cancelled && !dGroup m.bytes) = true ∧
    ((subSearch.takeSend 8191 0).any fun r =>
      let p := r.2.receiveCmd 8191 r.1
      p.1 == some 4 && p.2.allDefined 4 && (p.2.admission 4 0x01).any fun e =>
        e.2.searchAlone 4 e.1 && (e.2.checkSearch 4 e.1).1 == 0 && !dGroup e.1.bytes) = true ∧
    admits 0x01 (withCmd (searchBytes [(0x14, 2, 5)]) (indexed openCtx)) (fun m t => t.searchAlone 3 m &&
      (t.checkSearch 3 m).1 == stInvalid) = true ∧
    admits 0x01 (putFlds [(fHQ_CTX_BIND_GROUP_EP, 3, 0, 1), (fHQ_GRP_CTL_EN, 0, 0, 1), (fTN_LEASE_CFG_EN, 0, 0, 1),
        (fTN_LEASE_CFG_REMOTE, 0, 0, 1)]
      (withCmd (searchBytes [(1, 1, 128)]) (indexed openCtx))) (fun m t => t.searchAlone 3 m &&
      (t.checkSearch 3 m).1 == 0 && dGroup m.bytes && t.leased) = true := by decide +kernel

/-- A query of context 3 with number 9 on that version. -/
def aQuery : Query := { ctx := 3, commandId := 0, tenant := 7, pn := 5, index := 15, vslot := 3, home := 0 }

def querying (x : Query) (s : State) : State := (withCmd (searchBytes []) (indexed s)).setQuery 9 x

theorem test_hyp_QueriesAreEncodedAndProbed :
    (let s := { querying { aQuery with stage := .encode } openCtx with
      qry := { queries := [(9, { aQuery with stage := .encode })], encodeQ := [(0, [9])] } }
     s.dieReset 0 = false ∧ s.nextEncode 0 = some 9 ∧ (s.query 9).any (·.group.isNone) = true) ∧
    (let s := { querying aQuery openCtx with now := 10 ^ 9, qry := { queries := [(9, aQuery)], probe := [(0, { waiting := [(9, 0)] })] } }
     (s.qry.probe.getD {} 0).pass = [] ∧
     firstBatch ((s.probeBatches 0).filter fun b => decide (128 ≤ b.2.length) ||
       decide (oldestOf b.2 + us * s.fld fBD_PR_CFG_PROBE_WINDOW_US 0 0 ≤ s.now)) = some (63, [(9, 0)])) ∧
    let s := { querying aQuery openCtx with qry := { queries := [(9, aQuery)], probe := [(4, { pass := [9] })] } }
    s.dieReset 4 = false ∧ (s.qry.probe.getD {} 4).pass = [9] ∧ (s.query 9).isSome = true := by decide +kernel

def aKey : GKey := { pn := 5, index := 15, vslot := 3, cluster := 1 }
def aPair : Pair := { q := 9, rank := 0, tPost := 0, lb := 1000, byDeadline := false, filter := 0 }

/-- The query is in its scan, its pair waiting in the queue of cluster 1. -/
def gathering (g : GQueue) : State :=
  let s := querying { aQuery with stage := .scan, outstanding := [0], ranks := [1] } openCtx
  { s with qry := { s.qry with gqueues := [g] } }

def aQueue : GQueue := { die := 0, key := aKey, pairs := [aPair] }

/-- A task of that queue on band 9. -/
def aTask : Task := { id := 0, band := 9, die := 0, key := aKey, blockCount := 1, classes := [(0, 0)],
                      lanes := [{ q := 9, rank := 0, cls := 0, tau := 128 }] }

def tasking (y : Task) : State :=
  let s := querying { aQuery with stage := .scan, outstanding := [0], ranks := [1] } openCtx
  { s with qry := { s.qry with tasks := [y], nextTask := 1 } }

theorem test_hyp_PairsGatherAndLaunch :
    (let s := { gathering aQueue with qry := { (gathering aQueue).qry with held := [(4, [{ q := 9, rank := 1, die := 0, key := aKey }])] } }
     ((s.qry.held.getD [] 4).find? fun h => decide ((s.pairPool h.die h.key.pn).length < s.poolSize h.key.pn)).any
       (fun h => (s.query h.q).isSome) = true) ∧
    lowestLb ((gathering aQueue).gq 0 aKey).pairs = some aPair ∧
    (let s := tasking { aTask with band := noBand, st := .checkpointed }
     let s := { s with qry := { s.qry with gqueues := [{ die := 0, key := aKey, resumable := [0] }] } }
     s.launchBand 5 0 = some 9 ∧ (s.gq 0 aKey).resumable = [0] ∧ (s.task? 0).isSome = true) ∧
    (let s := gathering { aQueue with trig := some .window }
     s.launchBand 5 0 = some 9 ∧ (s.gq 0 aKey).resumable = [] ∧ (s.gq 0 aKey).trig = some .window ∧ (s.gq 0 aKey).pairs ≠ [] ∧
     ((s.version (keyVer aKey)).list 1).isResident = true) ∧
    let s := tasking aTask
    sortBy (fun (a b : Task) => decide (a.order < b.order)) ((s.onBand 9).filter (·.st == .loading)) = [aTask] ∧
    (s.qry.tasks.map (·.id)).Nodup ∧ s.tilesBound 9 + aTask.need ≤ 16 ∧ aTask.nextSeq < aTask.blockCount := by decide +kernel

theorem test_hyp_TasksScanTheirBlocks :
    (let s := tasking { aTask with st := .running, bound := 1 }
     (s.task? 0).isSome = true ∧ ((s.version (keyVer aKey)).list 1).blocks.any (·.seq == 0) = true ∧ s.bandLeaving 9 = false ∧
     s.bandReset 9 = false ∧ (s.task? 0).all s.rowsRoom = true) ∧
    let s := { tasking { aTask with st := .draining } with qry := { (tasking { aTask with st := .draining }).qry with redQ := [(9, [(0, 0)])] } }
    s.qry.redQ.getD [] 9 = [(0, 0)] ∧ (s.task? 0).any (fun y => y.lanes.length == 1) = true := by decide +kernel

theorem test_hyp_TasksEndOrAreCheckpointed :
    (let s := tasking { aTask with st := .draining }
     (s.task? 0).isSome = true ∧ ((s.qry.redQ.getD [] 9).any (·.1 == 0)) = false) ∧
    (let s := (tasking { aTask with st := .running }).setFld fBD_SVC_STATE 9 0 1
     s.bandLeaving 9 = true ∧ (s.task? 0).any (·.st == .running) = true) ∧
    (let s := { tasking aTask with ten := { departing := [(9, none)] } }
     s.bandLeaving 9 = true ∧ (s.task? 0).any (·.st == .loading) = true) ∧
    ((tasking { aTask with st := .checkpointed }).task? 0).any (fun y => y.st == .checkpointed && y.band != noBand) = true := by
  decide +kernel

def anElem : Elem := { score := 128, canon := 0, order := 0, rank := 0 }

theorem test_hyp_ListsMerge :
    (let s := { querying aQuery openCtx with qry := {
      queries := [(9, aQuery)],
      partials := [(4, [{ die := 4, band := 49, q := 9, rank := 0, elems := [anElem] }])] } }
     s.dieReset 4 = false ∧ (s.qry.partials.getD [] 4).any (fun p => p.q == 9 && p.elems.length == 1) = true ∧
     (s.query 9).any (fun x => decide ((x.dieRows.getD [] 4).length + 1 - x.dieReduced.getD 0 4 < 2 ^ 20)) = true) ∧
    (let s := querying { aQuery with stage := .flush, flushing := [4], dieRows := [(4, [anElem])] } openCtx
     (s.query 9).any (·.flushing.contains 4) = true ∧ ((s.qry.partials.getD [] 4).any (·.q == 9)) = false) ∧
    let s := querying { aQuery with stage := .homeReady, dieLists := [(4, [anElem])] } openCtx
    (s.query 9).any (fun x => x.stage == .homeReady && !x.flashStage && !x.fp16Stage && !x.isShadow && !x.sampled && x.group.isNone)
      = true ∧ (s.cmd? 3 9).any (fun m => dOpcode m.bytes == 0x01) = true ∧ s.toRing 3 = true := by decide +kernel

theorem test_hyp_DeadlinesOfAQuery :
    (let s := querying { aQuery with stage := .encode, tSd := some 5 } openCtx
     (s.query 9).any (fun x => x.tSd == some 5 && x.stage == .encode && !x.isShadow && x.group.isNone && !x.cancelCut) = true ∧
     (s.cmd? 3 9).isSome = true ∧ s.toRing 3 = true ∧ 9 ≠ s.hq.nextSeq) ∧
    (let s := querying { aQuery with stage := .scan, tSd := some 5, reported := 1, outstanding := [0] } openCtx
     (s.query 9).any (fun x => x.tSd == some 5 && x.stage == .scan && x.reported != 0 && !x.isShadow) = true) ∧
    (let s := querying { aQuery with stage := .flash, flashStage := true, tRr := some 7 } openCtx
     (s.query 9).any (fun x => x.tRr == some 7 && x.stage == .flash && !x.isShadow && x.group.isNone && !x.sampled) = true ∧
     (s.cmd? 3 9).isSome = true ∧ s.toRing 3 = true) ∧
    ((querying { aQuery with isShadow := true } openCtx).query 9).any (·.isShadow) = true := by decide +kernel


/-! ### Flash -/

/-- Channel 31 in service, with 1,000 data sectors. -/
def channelUp (s : State) : State :=
  putFlds [(fCF_SVC_STATE, 31, 0, 0), (fCF_CAP_DATA_SECTORS, 31, 0, 1000), (fCF_RD_CFG_RETRY_MAX, 31, 0, 2)] s

def aReq : CandReq :=
  { q := 9, cand := 0, tenant := 7, pn := 5, word := candWord (sidecarOf 31 999 48) 4 3 15 3 1 }

def aScorer : ScCtx := { lsn := 999, st := .reading, joined := [aReq] }

def withChan (x : Chan) : State := (channelUp openCtx).setChan 31 x

/-- An operation waits on plane 3 of channel 31, where context 7 is open. -/
def issuing (op : PlaneOp) : State := withChan { planeQ := [(3, [op])], ctxs := [(7, { aScorer with st := .queued })] }

theorem test_hyp_CuffDiesTakeRequests :
    (let s := withChan { inbox := [(4, [.load 9 3 (vectorEntry 0x3C00 15 3 (zeros 128))])] }
     ((s.chan 31).inbox.getD [] 4).length = 1) ∧
    (let s := ((withChan { inbox := [(4, [.req aReq])] }).setFld fCF_SVC_STATE 31 0 2)
     (s.chan 31).inbox.getD [] 4 = [.req aReq] ∧ (s.chan 31).reqQ.length < 4096 ∧ s.chServes 31 = false ∧ s.chState 31 ≠ 5 ∧
      aReq.shadow = false) ∧
    (let s := withChan { inbox := [(4, [.req aReq])], ctxs := [(7, { aScorer with joined := [] })] }
     (s.chan 31).inbox.getD [] 4 = [.req aReq] ∧ s.chServes 31 = true ∧ aReq.lsn < s.dataSectors 31 ∧ aScorer.st ≠ .linger ∧
     ((s.chan 31).ctxs.find? fun e => e.2.lsn == aReq.lsn && decide (e.2.joined.length < 128)) = some (7, { aScorer with joined := [] })) ∧
    (let op : PlaneOp := { cls := 1, kind := 0, num := 7 }
     let s := issuing op
     (s.chan 31).planeBusy.get? 3 = none ∧ s.nextOp 31 3 = some op ∧ ((s.chan 31).ctx? 7).isSome = true ∧
     (∀ p, p ≠ 3 → (s.chan 31).planeQ.getD [] p = []) ∧ s.nextOp 31 2 = none) ∧
    (let op : PlaneOp := { cls := 3, kind := 2, num := 7 }
     (issuing op).nextOp 31 3 = some op) ∧
    let op : PlaneOp := { cls := 2, kind := 3, num := 999 }
    let s := issuing op
    s.nextOp 31 3 = some op ∧ (s.chan 31).lost.contains 999 = false ∧ (s.chan 31).jIndex.get? 999 = none := by
  refine ⟨by decide +kernel, by decide +kernel, by decide +kernel, ⟨by decide +kernel, by decide +kernel, by decide +kernel, ?_, by
    decide +kernel⟩, by decide +kernel, by decide +kernel⟩
  intro p h
  have e : ((issuing { cls := 1, kind := 0, num := 7 }).chan 31).planeQ = [(3, [{ cls := 1, kind := 0, num := 7 }])] := by
    decide +kernel
  rw [e]
  simp [Tbl.getD, Tbl.get?, h]

/-- A sector whose header agrees with the format of the version that `aReq` names. -/
def agreeing (s : State) : List Byte := (s.cfFmt 31 63).headBytes 15 3

theorem test_hyp_SectorsAreDecoded :
    (let x := { aScorer with data := agreeing (channelUp openCtx) }
     let s := withChan { ctxs := [(7, x)] }
     (s.chan 31).ctx? 7 = some x ∧ x.joined.all (s.agrees 31 x.data) = true) ∧
    (let x := { aScorer with data := [1] }
     let s := withChan { ctxs := [(7, x)] }
     (s.chan 31).ctx? 7 = some x ∧ x.joined ≠ [] ∧ x.joined.any (s.agrees 31 x.data) = false ∧ (s.chan 31).reqQ = []) ∧
    (let s := withChan { levels := 3, ctxs := [(7, { aScorer with retries := 1 })] }
     ((ladder (s.chan 31).levels 0)[1]?).isSome = true ∧ 1 < s.fld fCF_RD_CFG_RETRY_MAX 31 0 ∧ (s.chan 31).reqQ = []) ∧
    (let s := withChan { ctxs := [(7, { aScorer with retries := 2 })] }
     s.fld fCF_RD_CFG_RETRY_MAX 31 0 ≤ 2 ∧ (s.chan 31).ctx? 7 = some { aScorer with retries := 2 }) ∧
    let s := withChan { ctxs := [(7, { aScorer with soft := true }), (8, { aScorer with st := .linger, lingerAt := 5 })] }
    (s.chan 31).ctx? 7 = some { aScorer with soft := true } ∧ (s.chan 31).ctx? 8 = some { aScorer with st := .linger, lingerAt := 5 } := by
  decide +kernel

def aScore (rstatus : Nat) : ScoreRec := aReq.record 31 77 rstatus
def aCand : Cand := { elem := anElem }
def flashQuery : Query := { aQuery with stage := .flash, flashStage := true, home := 4, cands := [aCand, aCand] }
def aDeg : DegRead := { q := 9, cand := 0, die := 4, pn := 5, tenant := 7, ch := 31, lsn := 999, owner := 7, offset := 48, index := 15, vslot := 3 }

/-- A FP16 request on connection 8191 for table 2 of partition 5, version 6 in slot 1. -/
def sumRequest : State :=
  let s := putFlds [(fGE_TBL_CTL_ENABLE, 2, 0, 1), (fGE_TBL_CTL_PN, 2, 0, 5), (fGE_TBL_CTL_VALID, 2, 0, 2),
    (fGE_TBL_VER_VERSION, 2, 1, 6)] (indexed openCtx)
  s.setConn 8191 { inbox := [{
    msn := 0, opcode := 5, len := 64, sendType := 2, data := leBytes 8 (2 + 2 ^ 16 * 6 + 2 ^ 32 * 1) ++ List.replicate 56 0 }] }

/-- The request is taken, and what it finds meets a condition. -/
def sumTaken (s : State) (f : List Byte → State → Bool) : Bool := (s.takeSend 8191 2).any fun r => f r.1.data r.2

theorem test_hyp_ScoresComeHome :
    (let s := { openCtx with fl := { openCtx.fl with scores := [(4, [aScore 0])] } }
     s.dieReset 4 = false ∧ s.fl.scores.getD [] 4 = [aScore 0] ∧ s.query 9 = none) ∧
    (∀ n, n < 5 → (aScore n).rstatus = n ∧
     let s := querying flashQuery openCtx
     let s := { s with fl := { s.fl with scores := [(4, [aScore n])] } }
     s.fl.scores.getD [] 4 = [aScore n] ∧ (s.query 9).any (fun x => x.awaits 0 && x.cands[1]?.any (fun c => c.st != 1 && c.st != 2)) = true) ∧
    (let s := { openCtx with fl := { openCtx.fl with degQ := [(4, [aDeg])] } }
     s.dieReset 4 = false ∧ s.fl.degQ.getD [] 4 = [aDeg] ∧ s.degraded 31 999 (some (0xF1E6, 7, 7)) [3] = none) ∧
    (let s := querying flashQuery (putFlds [(fPJ_RR_FMT_DIMS, 4, 63, 128)] openCtx)
     let f := s.pjFmt 4 63
     let d := f.headBytes 15 3 ++ leBytes 40 1 ++ List.replicate 4048 0
     let s := { s with fl := { s.fl with degDone := [(4, [{ aDeg with result := some d, offset := f.codeOff 0 }])] } }
     (s.query 9).any (fun x => x.awaits 0 && (s.rebuiltScore x { aDeg with result := some d, offset := f.codeOff 0 } d).isSome) = true) ∧
    sumTaken sumRequest (fun b t => (t.psumRefusal b).isNone && (t.captureTbl (fieldAt b 0 1 % 32) true (fieldAt b 2 2)).isSome
      && (let rows := reqRows (t.tblW (fieldAt b 0 1 % 32)) (fieldAt b 4 4) b; (t.drainRows rows).rowsFree rows)
      && t.net.wrs.all fun w => decide (w.id < t.net.twrOrder)) = true ∧
    sumTaken { sumRequest with ras := { resets := [{ domain := 5, num := 0, since := 0 }] } } (fun b t =>
      (t.psumRefusal b).isNone && (t.captureTbl (fieldAt b 0 1 % 32) true (fieldAt b 2 2)).isSome
      && (let rows := reqRows (t.tblW (fieldAt b 0 1 % 32)) (fieldAt b 4 4) b; !(t.drainRows rows).rowsFree rows)) = true ∧
    sumTaken (sumRequest.setFld fGE_TBL_CTL_ENABLE 2 0 0) (fun b t => (t.psumRefusal b).isSome) = true ∧
    let s := querying { aQuery with stage := .fp16, fp16Stage := true, region := some 1 } openCtx
    (s.query 9).any (fun x => s.fp16Ready x && !x.isShadow && x.group.isNone && !x.sampled) = true ∧ (s.cmd? 3 9).isSome = true ∧
    s.toRing 3 = true := by decide +kernel

/-! ### Updates -/

/-- An update command of context 3: opcode, with fields, against index 15. -/
def updating (op : Nat) (fs : List (Nat × Nat × Nat)) (s : State) : State := withCmd (desc op fs) (indexed s)

/-- Slot 0 of cluster 1 stands in host memory at address 8192. -/
def named (op : Nat) (fs : List (Nat × Nat × Nat)) (s : State) : State :=
  (updating op ([(0x10, 1, 15), (0x14, 4, 1), (0x18, 8, 8192)] ++ fs) s).wrHost 1 8192 (leBytes 8 (mkRef 1 0))

/-- Quotas of tenant 7 in DRAM and flash. -/
def allowed (s : State) : State :=
  putFlds [(fTN_QUOTA_LIMIT_LIMIT, 7, 0, 100000), (fTN_QUOTA_LIMIT_LIMIT, 7, 1, 100000), (fCF_CAP_DATA_SECTORS, 0, 0, 1000)] s

/-- An INSERT of one ready-made slot (FORM 1, code zero) into cluster 1, external ID 55. -/
def inserting (op : Nat) (s : State) : State :=
  (updating op [(8, 8, 64), (0x10, 1, 15), (0x14, 4, 1), (0x18, 8, 8192), (0x20, 1, 1)] (allowed s)).wrHost 1 8192
    (if op = 0x10 then leBytes 8 55 ++ leBytes 4 (2 ^ 31 + 1) ++ leBytes 12 0 ++ leBytes 8 4096
     else leBytes 8 (mkRef 1 0) ++ leBytes 8 refNone ++ leBytes 4 (2 ^ 31 + 1) ++ leBytes 4 0 ++ leBytes 8 4096)

/-- The version has records of 128 dimensions on flash. -/
def recorded (s : State) : State := putFlds [(fPJ_RR_FMT_CODE, 0, 63, 2), (fPJ_RR_FMT_DIMS, 0, 63, 128)] s

theorem test_hyp_InsertsAndRewrites :
    (∀ op, op = 0x10 ∨ op = 0x12 → admits op (inserting op openCtx) (fun m t => t.updateFits 3 op m &&
      (t.placesAll? 3 m).any fun r => r.1.slots.all (·.durable)) = true) ∧
    ∀ op, op = 0x10 ∨ op = 0x12 → admits op (recorded (inserting op openCtx)) (fun m t => t.updateFits 3 op m &&
      (t.placesAll? 3 m).any fun r => !(readySlots r.1.slots).all (·.written)) = true := by
  constructor <;> rintro op (rfl | rfl) <;> decide +kernel

/-- Bitmap 15 is defined in the version. -/
def withStd (s : State) : State := s.modVersion 63 fun x => { x with stdMask := 0x8000 }

theorem test_hyp_DeletesAndBitWrites :
    admits 0x11 (named 0x11 [] openCtx) (fun m t => t.updateFits 3 0x11 m &&
      (t.namedRefs 3 m).all (t.version (t.updStatus 3 m).2).refIn && (t.version (t.updStatus 3 m).2).succ.isNone) = true ∧
    admits 0x13 (withStd (named 0x13 [(0x21, 1, 15)] openCtx)) (fun m t => t.updateFits 3 0x13 m &&
      (t.namedRefs 3 m).all (t.version (t.updStatus 3 m).2).refIn && (t.version (t.updStatus 3 m).2).succ.isNone) = true ∧
    admits 0x14 (withStd (named 0x14 [(0x21, 1, 15)] openCtx)) (fun m t => t.updateFits 3 0x14 m &&
      (t.namedRefs 3 m).all (t.version (t.updStatus 3 m).2).refIn) = true := by decide +kernel

/-- Version slot 0 holds the successor, number 5, with no list yet. -/
def succeeded (s : State) : State :=
  let x := s.version 63
  ((s.setVersion 63 { x with succ := some 0 }).setVersion 60 { x with lists := [] })

def aRetired : Retired := { ver := 63, ref := mkRef 1 0, vis := 5 }

def aSlot : NewSlot :=
  { ver := 63, entry := 0, cluster := 1, ord := 2, seq := 0, slot := 2, canon := 2, isAlias := false, extId := 55, std := 0, code := 0,
    record := [], durable := false, sidecar := 0, written := false }

def aJob : UpdJob := { seq := 9, ctx := 3, ver := 63, opcode := 0x10, count := 1, slots := [aSlot] }

theorem test_hyp_RecordsRetirementsAndCopies :
    admits 0x15 (succeeded (updating 0x15 [(8, 8, 64), (0x10, 1, 15), (0x14, 4, 1)] (allowed openCtx))) (fun m t =>
      let k := (t.updStatus 3 m).2
      let k' := verKey (k / 4) (((t.version k).succ).getD 0)
      t.updateFits 3 0x15 m &&
      (t.copyList k k' (uCount m.bytes) (uReassign m.bytes) (slotsOfList ((t.version k).list (uCount m.bytes))) []).any (fun r =>
        chargesFit t r.2 && r.1.all fun p => ((t.version k').list (refCluster p.2)).rstate == 0) &&
      (((t.holdRef k).holdRef k').copyList k k' (uCount m.bytes) (uReassign m.bytes)
        (slotsOfList ((t.version k).list (uCount m.bytes))) []).isSome) = true ∧
    admits 0x11 (updating 0x11 [(0x10, 1, 15)] openCtx) (fun m t => !dGroup m.bytes && (t.group? m.seq).isNone &&
      (t.updStatus 3 m).1 != 0) = true ∧
    (let s := withCmd (desc 0x10 []) (withChan { acks := [(9, 0, 1)] })
     let s := { s with idx := { s.idx with updates := [aJob] } }
     (s.chan 31).acks = [(9, 0, 1)] ∧ (s.job? 9).any (fun j => j.slots.length == 1 && (readySlots
       (j.slots.set 0 { aSlot with durable := true, sidecar := 1 })).all (·.written)) = true ∧ (s.cmd? 3 9).isSome = true ∧
     (s.version 63).succ = none ∧ s.group? 9 = none ∧ s.toRing 3 = true) ∧
    (let s := withCmd (desc 0x10 []) (withChan { acks := [(9, 1, 1)] })
     let s := { s with idx := { s.idx with updates := [{ aJob with slots := [aSlot, { aSlot with ord := 3, slot := 3 }] }] } }
     (s.chan 31).acks = [(9, 1, 1)] ∧ (s.job? 9).any (fun j => j.slots.length == 2 && !(readySlots
       (j.slots.set 1 { aSlot with ord := 3, slot := 3, durable := true, sidecar := 1 })).all (·.written)) = true) ∧
    let s := { openCtx with idx := { openCtx.idx with retireQ := [aRetired] } }
    (aRetired.waits.all fun q => (s.query q).isNone) = true ∧ (s.idx.retireQ.find? fun r => !r.late) = some aRetired := by
  decide +kernel

theorem test_hyp_VersionsAreBuilt :
    admits 0x18 (updating 0x18 [(0x10, 1, 15), (0x28, 4, 15)] (allowed openCtx)) (fun m t => generalOk m.bytes &&
      (t.capture (gTarget m.bytes) (gNamed m.bytes) (gVersion m.bytes)).any fun v =>
        !(t.version (verKey (gTarget m.bytes) v)).stdMask.getLsbD (gArg m.bytes) &&
        (t.version (verKey (gTarget m.bytes) v)).succ.isNone &&
        chargesFit t (t.defineStd (gArg m.bytes) (verKey (gTarget m.bytes) v))) = true ∧
    admits 0x18 (updating 0x18 [(0x10, 1, 15), (0x28, 4, 15)] openCtx) (fun m t =>
      (t.capture (gTarget m.bytes) (gNamed m.bytes) (gVersion m.bytes)).any fun v =>
        !chargesFit t (t.defineStd (gArg m.bytes) (verKey (gTarget m.bytes) v))) = true ∧
    admits 0x1B (updating 0x1B [(0x10, 1, 15), (0x14, 4, 2), (0x18, 8, 8192)] openCtx) (fun m t => (t.namedVersion m).2 == 0 &&
      decide (gCount m.bytes ≤ 65536) &&
      (((List.range (gCount m.bytes)).map fun i => leNat (t.rdN (t.ctxPort 3) (gAddrA m.bytes + 4 * i) 4)).all fun w =>
        bits w 30 20 == 0 && decide (bits w 19 0 < (t.version (t.namedVersion m).1).count))) = true := by decide +kernel

theorem test_hyp_VersionsAreRetiredAndSwitched :
    admits 0x1A ((updating 0x1A [(0x10, 1, 15), (0x12, 2, 4)] openCtx).setFld fHQ_IDX_CTL_CURRENT 15 0 0) (fun m t =>
      generalOk m.bytes && (firstFit (fun v => (t.version (verKey (gTarget m.bytes) v)).holds &&
        t.fld fHQ_IDX_VER_VERSION (gTarget m.bytes) v == gVersion m.bytes && !t.idxRetiring (gTarget m.bytes) v) 4).any fun v =>
        !(t.idxValid (gTarget m.bytes) v && t.fld fHQ_IDX_CTL_CURRENT (gTarget m.bytes) 0 == v)) = true ∧
    (let s := (updating 0x1A [] openCtx).setFld fHQ_IDX_CTL_RETIRING 15 0 8
     let s := s.modVersion 63 fun x => { x with retireCmd := some 9 }
     s.idxRetiring 15 3 = true ∧ s.syVal (s.fld fHQ_IDX_VER_REF_SYNC 15 3) = 0 ∧
     ((s.version (verKey 15 3)).retireCmd.bind s.ownerOf).any (fun p => p.1 == 3 && (s.cmd? 3 p.2.seq).isSome) = true ∧
     s.syVal ((s.setReg .SY_VAL 0 0 1).fld fHQ_IDX_VER_REF_SYNC 15 3) = 0) ∧
    (let s := (indexed openCtx).setReg .SY_VAL (openCtx.fld fHQ_IDX_VER_REF_SYNC 15 3) 0 1
     s.syVal (s.fld fHQ_IDX_VER_REF_SYNC 15 3) ≠ 0) ∧
    (let s := indexed openCtx
     let v := Fld.put fHQ_IDX_CTL_CODE_LEN (s.reg .HQ_IDX_CTL 15 0) 0
     s.switchBad 15 (s.reg .HQ_IDX_CTL 15 0) (writeValue .HQ_IDX_CTL (s.reg .HQ_IDX_CTL 15 0) v) = false) ∧
    let s := indexed openCtx
    let v := Fld.put fHQ_IDX_CTL_CURRENT (s.reg .HQ_IDX_CTL 15 0) 2
    s.switchBad 15 (s.reg .HQ_IDX_CTL 15 0) (writeValue .HQ_IDX_CTL (s.reg .HQ_IDX_CTL 15 0) v) = true := by decide +kernel

/-- The list of cluster 1 in state `st`, its lower copy on flash. -/
def inState (st : Nat) (s : State) : State :=
  s.modList 63 1 fun l => { l with rstate := st, lowTier := 1, residency := if st = 3 then 1 else 0, holder := 7 }

/-- The list of cluster 1 has a lower copy on flash, as new as its block. -/
def lowFresh (s : State) : State :=
  s.modList 63 1 fun l => { l with lowTier := 1, blocks := l.blocks.map fun b => { b with low := some 5, lowFresh := true } }

/-- The list's grant has failed. -/
def lostList (s : State) : State := s.modList 63 1 fun l => { l with lost := true }

/-- The list's lower copy lies in grant 5 of a peer, whose answers have come. -/
def readable (s : State) : State :=
  let s := putFlds [(fTN_RG_V, 5, 0, 1), (fTN_RG_TENANT, 5, 0, 7), (fTN_RG_CONN, 5, 0, 8191), (fXT_CONN_CFG_STATE, 8191, 0, 1)] s
  let s := s.modList 63 1 fun l => { l with lowTier := 2, lowGrant := 5, residency := 3, wrs := [(0, 8)], blocks := l.blocks.map fun b =>
    { b with low := some 5 } }
  { s with net := { s.net with staging := [(8, zeros 16)] } }

theorem test_hyp_ListsMoveBetweenTiers :
    admits 0x1C (updating 0x1C [(0x10, 1, 15), (0x28, 4, 1)] openCtx) (fun m t => (t.namedVersion m).2 == 0 &&
      decide (gArg m.bytes < (t.version (t.namedVersion m).1).count) &&
      ((t.version (t.namedVersion m).1).list (gArg m.bytes)).rstate == 0) = true ∧
    admits 0x1C (inState 3 (updating 0x1C [(0x10, 1, 15), (0x28, 4, 1)] (allowed openCtx))) (fun m t =>
      ((t.version (t.namedVersion m).1).list (gArg m.bytes)).rstate == 3 &&
      (t.startPromotion (t.namedVersion m).1 (gArg m.bytes) (t.ctxTenant 3) 2 false false).1) = true ∧
    admits 0x1C (lostList (inState 3 (updating 0x1C [(0x10, 1, 15), (0x28, 4, 1)] openCtx))) (fun m t =>
      ((t.version (t.namedVersion m).1).list (gArg m.bytes)).rstate == 3 &&
      ((t.version (t.namedVersion m).1).list (gArg m.bytes)).lost) = true ∧
    admits 0x1D (lowFresh (updating 0x1D [(0x10, 1, 15), (0x28, 4, 2 ^ 20 + 1)] (allowed openCtx))) (fun m t => (t.namedVersion m).2 == 0 &&
      decide (bits (gArg m.bytes) 19 0 < (t.version (t.namedVersion m).1).count) && bits (gArg m.bytes) 21 20 == 1 &&
      t.ctxTenant 3 == (t.version (t.namedVersion m).1).owner &&
      ((t.version (t.namedVersion m).1).list (bits (gArg m.bytes) 19 0)).rstate == 0 &&
      (t.beginDemotion (t.namedVersion m).1 (bits (gArg m.bytes) 19 0) (bits (gArg m.bytes) 21 20)
          (bits (gArg m.bytes) 27 22) [(3, m.seq)]).1 == 0) = true ∧
    (∀ n, n = 1 ∨ n = 3 → admits 0x1D (inState n (updating 0x1D [(0x10, 1, 15), (0x28, 4, 2 ^ 20 + 1)] openCtx)) (fun m t =>
      (t.namedVersion m).2 == 0 && decide (bits (gArg m.bytes) 19 0 < (t.version (t.namedVersion m).1).count) &&
      bits (gArg m.bytes) 21 20 == 1 && t.ctxTenant 3 == (t.version (t.namedVersion m).1).owner &&
      ((t.version (t.namedVersion m).1).list (bits (gArg m.bytes) 19 0)).rstate == n) = true) ∧
    (let s := readable (inState 1 (indexed openCtx))
     let l := (s.version (verKey 15 3)).list 1
     l.rstate = 1 ∧ s.grantGone (verKey 15 3) l = false ∧ s.wrFailed l = none ∧ s.wrPending l = false ∧ l.lowTier ≠ 1 ∧
     (l.blocks.mapM (s.readBack (s.codeBits (verKey 15 3 / 4)) l)).isSome = true) ∧
    (let s := inState 1 (indexed openCtx)
     let l := (s.version (verKey 15 3)).list 1
     l.rstate = 1 ∧ s.grantGone (verKey 15 3) l = false ∧ s.wrFailed l = none ∧ s.wrPending l = false ∧
     l.blocks.mapM (s.readBack (s.codeBits (verKey 15 3 / 4)) l) = none ∧
     (s.qry.gqueues.all fun g => !waitsFor (verKey 15 3) 1 g.key) = true ∧
     (s.qry.held.all fun e => e.2.all fun h => !waitsFor (verKey 15 3) 1 h.key) = true) ∧
    let s := inState 2 (indexed openCtx)
    let l := (s.version (verKey 15 3)).list 1
    l.rstate = 2 ∧ s.wrFailed l = none ∧ s.grantGone (verKey 15 3) l = false ∧ l.holds = 0 ∧
    s.lowPending (verKey 15 3) l = false ∧ s.wrPending l = false := by
  refine ⟨by decide +kernel, by decide +kernel, by decide +kernel, by decide +kernel, ?_, by decide +kernel, by decide +kernel,
    by decide +kernel⟩
  rintro n (rfl | rfl) <;> decide +kernel

theorem test_hyp_PrefetchAndHeat :
    (let s := (inState 3 (indexed (allowed openCtx))).setFld fTN_TIER_CFG_POOL_MIB 7 0 1
     let s := s.modVersion 63 fun x => { x with schedule := [(1, true)] }
     (s.version (verKey 15 3)).schedule[(s.version (verKey 15 3)).schedPos]? = some (1, true) ∧
     ((s.version (verKey 15 3)).list 1).rstate = 3 ∧ ((s.version (verKey 15 3)).list 1).lost = false ∧
     s.promoUsed 7 + s.listUnits (verKey 15 3) ((s.version (verKey 15 3)).list 1) ≤ s.promoPool 7 ∧
     (s.startPromotion (verKey 15 3) 1 7 4 true true).1 = true) ∧
    (((indexed openCtx).version 63).list 1).rstate ≠ 3 ∧ (((lostList (inState 3 (indexed openCtx))).version 63).list 1).lost = true ∧
    let s := (inState 3 (gathering aQueue)).setFld fTN_TIER_CFG_POOL_MIB 7 0 1
    let s := allowed s
    ((s.version (verKey 15 3)).list 1).rstate = 3 ∧ ((s.version (verKey 15 3)).list 1).lost = false ∧
    (s.qry.gqueues.any fun g => waitsFor (verKey 15 3) 1 g.key && g.pairs.any fun p => (s.query p.q).any fun x => x.tenant == 7)
      = true ∧ (s.startPromotion (verKey 15 3) 1 7 2 true false).1 = true := by decide +kernel

theorem test_hyp_QuotasGrantsAndScrubbing :
    (let s := indexed openCtx
     s.limit 255 0 < Fld.get fTN_QUOTA_LIMIT_LIMIT (Fld.put fTN_QUOTA_LIMIT_LIMIT 0 5) ∧
     (List.range 256).foldl (fun n i => n + if i = 255 then 5 else s.limit i 0) 0 ≤ s.tierCapacity 0) ∧
    (let s := indexed openCtx
     s.limit 255 2 < 5 ∧ s.tierCapacity 2 < (List.range 256).foldl (fun n i => n + if i = 255 then 5 else s.limit i 2) 0) ∧
    (let s := putFlds [(fTN_RG_V, 63, 0, 1)] openCtx
     s.isOn fTN_RG_V 63 0 = true ∧ s.fld fTN_RG_STATE 63 0 = 0) ∧
    (openCtx.setFld fTN_RG_STATE 63 0 2).fld fTN_RG_STATE 63 0 = 2 := by decide +kernel

theorem chargesFit_congr {s a b : State} (hs : a.start = b.start) (hp : a.power = b.power)
    (h : ∀ f : Fld, f.reg ≠ .HQ_IDX_CTL → f.reg ≠ .HQ_IDX_VER → f.reg ≠ .HQ_IDX_LIM → ∀ i j, a.fld f i j = b.fld f i j) :
    chargesFit s a = chargesFit s b := by
  have hu : a.used = b.used := funext fun x => funext fun y => h fTN_QUOTA_USED_USED (by decide) (by decide) (by decide) x y
  have hl : a.limit = b.limit := funext fun x => funext fun y => h fTN_QUOTA_LIMIT_LIMIT (by decide) (by decide) (by decide) x y
  have hb : a.isBad = b.isBad := funext fun x => funext fun y => by simp only [State.isBad, hs]
  have hq : a.dieUp = b.dieUp := funext fun d => by simp only [State.dieUp, hb, hp]
  have hd : a.diesUp = b.diesUp := by simp only [State.diesUp, hq]
  have hk : a.dieCapacity = b.dieCapacity := funext fun d => by simp only [State.dieCapacity, State.stackUp, hb, hq]
  have hc : a.tierCapacity = b.tierCapacity := funext fun y => by
    unfold State.tierCapacity State.isOn
    simp only [hd, hk, h fCF_CAP_DATA_SECTORS (by decide) (by decide) (by decide),
      h fTN_RG_V (by decide) (by decide) (by decide), h fTN_RG_SIZE (by decide) (by decide) (by decide)]
  unfold chargesFit refusedIn State.tierUsed
  rw [hu, hl, hc]

/-- What an INDEX_BUILD without a successor charges is the version's own units. -/
theorem buildCharged_eq (t : State) (c : Nat) (m : Cmd) (v : Nat) (h : gOptA m.bytes = false) :
    t.buildCharged c m v = chargesFit t (t.addCharge (t.ctxTenant c) 0
      (buildUnits (gArg m.bytes / 2 ^ 14) (t.buildCents c m).length (popcount16 (t.buildStd m)))) := by
  simp only [State.buildCharged, h]
  refine chargesFit_congr (by simp only [State.buildVersion]; rfl) (by simp only [State.buildVersion]; rfl)
    fun f h1 h2 h3 i j => ?_
  show State.fld (State.buildVersion _ _ _ _ _ _ _ _ _) f i j = _
  simp only [State.buildVersion]
  rw [State.fld_setFld_other _ h1, State.fld_setFld_other _ h3, State.fld_setFld_other _ h2, State.fld_setFld_other _ h2]
  rfl

def building : State :=
  updating 0x19 [(0x10, 1, 15), (0x12, 2, 9), (0x14, 4, 2), (0x18, 8, 8192), (0x28, 4, 2 ^ 14)] (allowed openCtx)

theorem test_hyp_VersionsAreBuilt_build : building.allDefined 3 = true ∧ building.toRing 3 = true ∧ ∃ m t v,
    building.admission 3 0x19 = some (m, t) ∧ t.buildSlot? 3 m = some v ∧ t.buildCharged 3 m v = true := by
  refine ⟨by decide +kernel, by decide +kernel, ?_⟩
  have h : (building.admission 3 0x19).any (fun r => !gOptA r.1.bytes && (r.2.buildSlot? 3 r.1).isSome &&
      chargesFit r.2 (r.2.addCharge (r.2.ctxTenant 3) 0
        (buildUnits (gArg r.1.bytes / 2 ^ 14) (r.2.buildCents 3 r.1).length (popcount16 (r.2.buildStd r.1))))) = true := by
    decide +kernel
  obtain ⟨⟨m, t⟩, he, h⟩ := (Option.any_eq_true _ _).mp h
  simp only [Bool.and_eq_true, Bool.not_eq_true'] at h
  obtain ⟨v, hv⟩ := Option.isSome_iff_exists.mp h.1.2
  exact ⟨m, t, v, he, hv, (buildCharged_eq t 3 m v h.1.1).trans h.2⟩

/-! ### Tables -/

/-- Table 31: SGD rows of 64 elements, slice 0 of two, version 6 in slot 3, 10 rows; context 3 sends it one command. -/
def tabled (s : State) : State :=
  putFlds [(fGE_TBL_CTL_ENABLE, 31, 0, 1), (fGE_TBL_CTL_VALID, 31, 0, 8), (fGE_TBL_CTL_CURRENT, 31, 0, 3), (fGE_TBL_CTL_PN, 31, 0, 5),
    (fGE_TBL_VER_VERSION, 31, 3, 6), (fGE_TBL_ROWS_ROWS, 31, 3, 10), (fGE_TBL_GEOM_TYPE, 31, 0, 1), (fGE_TBL_GEOM_W, 31, 0, 64),
    (fGE_TBL_GEOM_COLS, 31, 0, 64), (fGE_TBL_GEOM_G_M1, 31, 0, 1), (fGE_TBL_GEOM_ROW_BITS, 31, 0, 4), (fTN_PART_TENANT, 5, 0, 7)] s

/-- Host address 8192 names row 9 and then row 0. -/
def rowCmd (op : Nat) (fs : List (Nat × Nat × Nat)) (s : State) : State :=
  (withCmd (desc op ([(0x10, 1, 31), (0x14, 4, 1), (0x18, 8, 8192)] ++ fs)) (tabled s)).wrHost 1 8192 (leBytes 8 9)

def anAccess : RowAccess :=
  { cmd := 9, ctx := 3, tbl := 31, vslot := 3, row := 9, eta := 0, b1 := 0, b2 := 0, eps := 0, grad := [], since := 0 }

def stepping (n : Nat) : State :=
  let s := withCmd (desc 0x20 []) (tabled openCtx)
  { s with tbl := { s.tbl with rowQ := [(4, [anAccess])], tblJobs := [{ seq := 9, ctx := 3, tbl := 31, vslot := 3, remaining := n }] } }

/-- Every channel is IN_SERVICE. -/
def channelsIn (s : State) : State := forEach (List.range 32) (fun n t => t.setFld fCF_SVC_STATE n 0 0) s

/-- Row 9 is pinned. -/
def pinned9 (s : State) : State :=
  let h : Hatpin := { rows := [(9, { bytes := List.replicate 128 0, dirty := true })], table := 31, vslot := 3 }
  { s with tbl := { s.tbl with hatpin := h } }

/-- The PLLs of crown die 4, which owns row 9, have stopped. -/
def dark4 (s : State) : State := { s with power := { s.power with tripped := [⟨1, 4⟩] } }

theorem test_hyp_TableUpdatesAndRowLocks :
    admits 0x20 (rowCmd 0x20 [] openCtx) (fun m t => (t.tblStatus m (2 ^ 20)).2 == 0 && gCount m.bytes != 0 &&
      t.tblType (gTarget m.bytes) != 0 &&
      (t.rowList 3 (gTarget m.bytes) (t.tblStatus m (2 ^ 20)).1 m).any (fun rows => decide (rows.eraseDups.length ≤ 65536)) &&
      (t.tbl.tblJobs.find? (·.seq == m.seq)).isNone) = true ∧
    (let s := pinned9 (stepping 1)
     s.rowsOf 4 = [anAccess] ∧ s.writeGoes 31 3 9 (s.rowOwner anAccess) = true ∧
       (match s.readRow 31 3 9 s.chMask [] with | .row _ => true | _ => false) = true ∧
       (s.tbl.tblJobs.find? (·.seq == 9)).any (fun j => j.remaining == 1 && j.ctx == 3) = true ∧ (s.cmd? 3 9).isSome = true ∧
       s.toRing 3 = true) ∧
    (let s := dark4 (stepping 1)
     s.rowsOf 4 = [anAccess] ∧ s.writeGoes 31 3 9 (s.rowOwner anAccess) = false) ∧
    ((pinned9 (stepping 2)).tbl.tblJobs.find? (·.seq == 9)).any (fun j => decide (1 < j.remaining)) = true := by decide +kernel

theorem test_hyp_RowsAreReadAndWritten :
    admits 0x21 (pinned9 (rowCmd 0x21 [(8, 8, 64)] openCtx)) (fun m t => (t.tblStatus m 4096).2 == 0 &&
      (t.tbl.tblJobs.find? (·.seq == m.seq)).isNone && (List.range 5).all (fun d => (t.rowsOf d).isEmpty) &&
      (t.rowList 3 (gTarget m.bytes) (t.tblStatus m 4096).1 m).any fun rows => (t.drainRows rows).rowsFree rows &&
        rows.all fun r => (t.pinned (gTarget m.bytes) (t.tblStatus m 4096).1 r).isSome) = true ∧
    admits 0x22 (pinned9 (rowCmd 0x22 [(8, 8, 64)] openCtx)) (fun m t => (t.tblStatus m 4096).2 == 0 &&
      (t.tbl.tblJobs.find? (·.seq == m.seq)).isNone && (List.range 5).all (fun d => (t.rowsOf d).isEmpty) &&
      (t.rowList 3 (gTarget m.bytes) (t.tblStatus m 4096).1 m).any fun rows => (t.drainRows rows).rowsFree rows &&
        rows.all fun r => (t.pinned (gTarget m.bytes) (t.tblStatus m 4096).1 r).isSome) = true ∧
    admits 0x22 (dark4 (rowCmd 0x22 [(8, 8, 64)] openCtx)) (fun m t => (t.tblStatus m 4096).2 == 0 &&
      (t.tbl.tblJobs.find? (·.seq == m.seq)).isNone &&
      (t.rowList 3 (gTarget m.bytes) (t.tblStatus m 4096).1 m).any fun rows => !(t.drainRows rows).rowsFree rows) = true ∧
    admits 0x23 (pinned9 (rowCmd 0x23 [] (allowed openCtx))) (fun m t => (t.tblStatus m (2 ^ 32)).2 == 0 &&
      (t.tbl.tblJobs.find? (·.seq == m.seq)).isNone &&
      (t.rowList 3 (gTarget m.bytes) (t.tblStatus m (2 ^ 32)).1 m).any fun rows =>
        let k := (t.tblStatus m (2 ^ 32)).1
        let t1 := t.drainRows rows
        rows == [9] && (t1.pinned (gTarget m.bytes) k 9).isSome && !rows.any t1.rowWaits &&
        (rows.all fun r => t1.writeGoes (gTarget m.bytes) k r
          (t1.tbl.tblOwner.getD (t1.ctxTenant 3) (4 * gTarget m.bytes + k))) &&
        t1.fits (t1.tbl.tblOwner.getD (t1.ctxTenant 3) (4 * gTarget m.bytes + k)) 1 (t1.newSectors (gTarget m.bytes) k rows)) = true := by
  decide +kernel

def swapping : State :=
  let s := withCmd (desc 0x24 []) (tabled (channelsIn openCtx))
  let row : RowRec := { bytes := List.replicate 128 0, dirty := true }
  let w : Swap := { seq := 9, ctx := 3, tbl := 31, vslot := 3, oldTbl := 31, oldVslot := 3, leaving := [(9, row)], loaded := 0 }
  { s.setFld fGE_HP_CTL_SWAP_BUSY 0 0 1 with tbl := { s.tbl with hatpin := { s.tbl.hatpin with swap := some w } } }

theorem test_hyp_TheHatpinSetIsSwapped :
    admits 0x24 ((putFlds [(fGE_HP_CTL_ENABLE, 0, 0, 1), (fGE_HP_CTL_CAP_SLOTS, 0, 0, 1)] (rowCmd 0x24 [] (indexed (allowed openCtx)))))
      (fun m t => t.tbl.hatpin.swap.isNone && (t.tblStatus m (2 ^ 32)).2 == 0 && t.isOn fGE_HP_CTL_ENABLE 0 0 &&
        decide (t.fld fGE_HP_CTL_CAP_SLOTS 0 0 * t.rowBytes (gTarget m.bytes) ≤ 2 ^ 36) &&
        (t.rowList 3 (gTarget m.bytes) (t.tblStatus m (2 ^ 32)).1 m).any (fun rows =>
          rows.eraseDups.length == rows.length && decide (rows.length ≤ t.fld fGE_HP_CTL_CAP_SLOTS 0 0)) &&
        (t.rowList 3 (gTarget m.bytes) (t.tblStatus m (2 ^ 32)).1 m).any (fun rows =>
          let enter := t.swapEnters (gTarget m.bytes) (t.tblStatus m (2 ^ 32)).1 rows
          let t1 := t.drainRows enter
          enter == [9] && decide (enter.length + t.tbl.hatpin.rows.length ≤ t.fld fGE_HP_CTL_CAP_SLOTS 0 0) && t1.rowsFree enter &&
          ((t1.dropCharge t1.tbl.hatpin.chargedTo 0 t1.tbl.hatpin.charged).charge
            (t.fld fTN_PART_TENANT (t.fld fGE_TBL_CTL_PN (gTarget m.bytes) 0) 0) 0 (t.hatpinUnits (gTarget m.bytes))).1) &&
        (t.tbl.tblJobs.find? (·.seq == m.seq)).isNone) = true ∧
    (let s1 := swapping.drainRows [9]
     (swapping.tbl.hatpin.swap.map fun w => (w.leaving.filter (·.2.dirty)).map (·.1)) = some [9] ∧
     swapping.isOn fGE_HP_CTL_SWAP_BUSY 0 0 = true ∧ s1.backGoes 31 3 ((s1.tbl.hatpin.swap.map (·.leaving)).getD []) = true ∧
     (s1.cmd? 3 9).isSome = true ∧ swapping.toRing 3 = true) ∧
    admits 0x25 (pinned9 (withCmd (desc 0x25 []) (tabled (channelsIn openCtx)))) (fun m t =>
      let t1 := t.drainRows (t.tbl.hatpin.dirty.map (·.1))
      let h := t1.tbl.hatpin
      generalOk m.bytes && t1.backGoes h.table h.vslot h.rows && (h.swap.all fun w => t1.backGoes w.oldTbl w.oldVslot w.leaving) &&
      (t.tbl.tblJobs.find? (·.seq == m.seq)).isNone && h.swap.isNone && h.dirty.map (·.1) == [9] &&
      (t1.tblData 31 3 (9 / t1.rps 31) t1.chMask).isSome) = true ∧
    admits 0x25 (withCmd (desc 0x25 []) (tabled openCtx)) (fun m t =>
      let h := (t.drainRows (t.tbl.hatpin.dirty.map (·.1))).tbl.hatpin
      generalOk m.bytes && h.dirty.isEmpty && h.swap.isNone) = true := by decide +kernel

theorem test_hyp_TableVersions :
    admits 0x26 ((withCmd (desc 0x26 [(0x10, 1, 31), (0x12, 2, 6)]) (tabled openCtx)).setFld fGE_TBL_CTL_CURRENT 31 0 0) (fun m t =>
      generalOk m.bytes && (firstFit (fun v => t.tblValid (gTarget m.bytes) v && !t.tblRetiring (gTarget m.bytes) v &&
        t.fld fGE_TBL_VER_VERSION (gTarget m.bytes) v == gVersion m.bytes) 4).any fun v =>
        t.fld fGE_TBL_CTL_CURRENT (gTarget m.bytes) 0 != v) = true ∧
    (let s := (withCmd (desc 0x26 []) (tabled openCtx)).setFld fGE_TBL_CTL_RETIRING 31 0 8
     let s := { s with tbl := { s.tbl with tblRetire := [(127, 9)] } }
     s.tblRetiring 31 3 = true ∧ s.syVal (s.fld fGE_TBL_VER_REF_SYNC 31 3) = 0 ∧
     ((s.tbl.tblRetire.get? (4 * 31 + 3)).bind s.ownerOf).any (fun p => p.1 == 3 && (s.cmd? 3 p.2.seq).isSome) = true) ∧
    (let s := (tabled openCtx).setReg .SY_VAL 0 0 1
     s.syVal (s.fld fGE_TBL_VER_REF_SYNC 31 3) ≠ 0) ∧
    (let s := tabled openCtx
     let v := Fld.put fGE_TBL_CTL_ENABLE (s.reg .GE_TBL_CTL 31 0) 0
     s.tblSwitchBad 31 (s.reg .GE_TBL_CTL 31 0) (writeValue .GE_TBL_CTL (s.reg .GE_TBL_CTL 31 0) v) = false) ∧
    let s := tabled openCtx
    let v := Fld.put fGE_TBL_CTL_CURRENT (s.reg .GE_TBL_CTL 31 0) 2
    s.tblSwitchBad 31 (s.reg .GE_TBL_CTL 31 0) (writeValue .GE_TBL_CTL (s.reg .GE_TBL_CTL 31 0) v) = true := by decide +kernel

/-! ### Groups, leases, composition and service states -/

def aGroup : GroupJob :=
  { seq := 9, ctx := 3, commandId := 0, opcode := 1, tenant := 7, admitTime := 0, tRr := some 5, awaited := [(15, [0])], shards := [0],
    key := 77, fanned := true }

/-- This head awaits member 15, whose answer waits on connection 8191. -/
def answered (g : GroupJob) : State :=
  let s := withCmd (searchBytes []) openCtx
  let s := putFlds [(fHQ_GRP_MEMBER_V, 15, 0, 1), (fHQ_GRP_MEMBER_CONN, 15, 0, 8191)] s
  let s := { s with hq := { s.hq with groups := [g] } }
  s.setConn 8191 { inbox := [{ msn := 0, opcode := 5, len := 64, sendType := 1, data := leBytes 8 77 ++ List.replicate 56 0 }] }

/-- The group update has ended; member 15, a copying replica of shard 63, answers it with no records. -/
def answeredCopy : State :=
  let s := putFlds [(fHQ_GRP_SHARD_V, 63, 0, 1), (fHQ_GRP_SHARD_R2_STATE, 63, 0, 2), (fHQ_GRP_SHARD_R2_MEMBER, 63, 0, 15)]
    (answered { aGroup with key := 78 })
  { s with hq := { s.hq with copyWaits := [{ key := 77, shard := 63, records := [1], members := [15] }] } }

theorem test_hyp_GroupAnswers :
    (let s := answered { aGroup with key := 78 }
     (s.takeSend 8191 1).any (fun r => (s.hq.groups.find? (·.key == BitVec.ofNat 64 (fieldAt r.1.data 0 8))).isNone &&
       s.hq.copyWaits.all fun w => w.key != BitVec.ofNat 64 (fieldAt r.1.data 0 8)) = true) ∧
    ((answeredCopy.takeSend 8191 1).any (fun r =>
       (answeredCopy.hq.groups.find? (·.key == BitVec.ofNat 64 (fieldAt r.1.data 0 8))).isNone &&
       (answeredCopy.hq.copyWaits.find? fun w => w.key == BitVec.ofNat 64 (fieldAt r.1.data 0 8) && w.members.contains 15).any fun w =>
         w.shard == 63 && (parseAnswer 0x10 15 r.1.data).records != w.records) = true ∧
     answeredCopy.memberOf 8191 = some 15 ∧ answeredCopy.slotOfMember 63 15 = some 2) ∧
    (let g := { aGroup with awaited := [(15, [0]), (14, [1])] }
     let s := answered g
     (s.takeSend 8191 1).any (fun r => (s.hq.groups.find? (·.key == BitVec.ofNat 64 (fieldAt r.1.data 0 8))) == some g &&
       fieldAt r.1.data 10 1 == 0) = true ∧
     s.group? 9 = some g ∧ s.memberOf 8191 = some 15) ∧
    (let s := answered aGroup
     (s.takeSend 8191 1).any (fun r => (s.hq.groups.find? (·.key == BitVec.ofNat 64 (fieldAt r.1.data 0 8))) == some aGroup) = true ∧
     s.memberOf 8191 = some 15 ∧ s.mayAct aGroup = true ∧ (s.cmd? 3 9).isSome = true ∧ s.toRing 3 = true ∧ s.group? 9 = some aGroup) ∧
    let s := putFlds [(fHQ_GRP_SHARD_V, 63, 0, 1)] openCtx
    s.hq.groups = [] ∧ s.isOn fHQ_GRP_SHARD_V 63 0 = true := by decide +kernel

/-- Bytes of a SEND of type 3 on connection 8191: JOB KEY, descriptor. -/
def copying (op : Nat) : State :=
  (putFlds [(fHQ_CTX_BIND_V, 4, 0, 1), (fHQ_CTX_BIND_FABRIC, 4, 0, 1), (fHQ_CTX_BIND_CONN, 4, 0, 8191), (fHQ_CTX_STATUS_STATE, 4, 0, 1)]
    (indexed openCtx)).setConn 8191 { inbox := [{
      msn := 0, opcode := 5, len := 72, sendType := 3, data := leBytes 8 77 ++ desc op [(0x10, 1, 15), (0x14, 4, 1)] }] }

/-- A copy of all lists of version 63 arrives on connection 8191. -/
def copied (op : Nat) : State :=
  { copying op with ten := { (copying op).ten with shardCopies := [{ conn := 8191, ver := 63, total := 4 }] } }

/-- Shard 63: live at this device, copying at member 15. -/
def sourcing : W64 :=
  Fld.put fHQ_GRP_SHARD_R1_MEMBER (Fld.put fHQ_GRP_SHARD_R1_STATE (Fld.put fHQ_GRP_SHARD_R0_STATE (Fld.put fHQ_GRP_SHARD_V 0 1) 1) 2) 15

theorem test_hyp_ShardsAreCopied :
    ((copying 0x15).takeSend 8191 3).any (fun r => dOpcode ((r.1.data.drop 8).take 64) == 0x15 &&
      (r.2.updVersion ((r.1.data.drop 8).take 64)).isSome) = true ∧
    ((copying 0x10).takeSend 8191 3).any (fun r => dOpcode ((r.1.data.drop 8).take 64) != 0x15 && (r.2.fabricCtx 8191).isSome &&
      ((r.2.updVersion ((r.1.data.drop 8).take 64)).bind ((copying 0x10).shardCopy? 8191)).isNone &&
      !r.2.keyAborted (BitVec.ofNat 64 (fieldAt r.1.data 0 8))) = true ∧
    ((copied 0x10).takeSend 8191 3).any (fun r => dOpcode ((r.1.data.drop 8).take 64) != 0x15 &&
      (((r.2.updVersion ((r.1.data.drop 8).take 64)).bind ((copied 0x10).shardCopy? 8191)).any fun x =>
        x.held.isEmpty && (r.2.updLists x.ver r.1.data).any fun l => !x.landed.contains l)) = true ∧
    ((copied 0x10).ten.shardCopies.find? fun x => x.conn == 8191 && (x.incoming.any (·.1 == 3) || !x.landed.contains 3)).any
      (fun x => x.held.isEmpty) = true ∧
    (copyExists .HQ_GRP_SHARD 63 0 = true ∧ (indexed openCtx).barServes .HQ_GRP_SHARD 63 (2 ^ 61) = true) ∧
    (let w := (indexed openCtx).writeReg .HQ_GRP_SHARD 63 0 sourcing
     w.isOn fHQ_GRP_SHARD_V 63 0 = true ∧ ((w.liveReplicas 63).head?.any fun r => (w.replica 63 r).2 == w.selfMember) = true ∧
     w.copyMembers 63 = [15] ∧ w.selfMember ≠ 15 ∧ (indexed openCtx).idxValid 15 3 = true) := by decide +kernel

/-- A lease message waits on connection 8191. -/
def leasing (lop lstatus holder epoch : Nat) (s : State) : State :=
  s.setConn 8191 { inbox := [{
    msn := 0, opcode := 5, len := 24, sendType := 4,
    data := leBytes 1 lop ++ leBytes 1 lstatus ++ leBytes 1 holder ++ leBytes 1 0 ++ leBytes 4 epoch ++ leBytes 8 77 }] }

def pooled (s : State) : State :=
  { s with ten := { s.ten with poolLeases := [{ key := 77, epoch := 3, holder := 15, expiry := 9 }] } }

theorem test_hyp_PoolsKeepLeases :
    (let s := (leasing 1 0 15 0 openCtx).setFld fTN_POOL_CTL_EN 0 0 1
     (s.takeLease 8191 1).any (fun r => (s.poolLease? r.1.key).isNone) = true ∧ s.isOn fTN_POOL_CTL_EN 0 0 = true) ∧
    (let s := pooled (leasing 2 0 15 3 openCtx)
     (s.takeLease 8191 2).any (fun r => (s.poolLease? r.1.key).any fun p => p.epoch == r.1.epoch && p.holder == r.1.holder) = true) ∧
    (let s := pooled (leasing 3 0 14 4 openCtx)
     (s.takeLease 8191 3).any (fun r => (s.poolLease? r.1.key).any fun p => r.1.epoch == p.epoch + 1) = true) ∧
    (let s := pooled (leasing 4 0 14 4 openCtx)
     (s.takeLease 8191 4).any (fun r => (s.poolLease? r.1.key).isSome) = true) ∧
    (let s := pooled (leasing 5 0 15 3 openCtx)
     (s.takeLease 8191 5).any (fun r => (s.poolLease? r.1.key).isSome) = true) ∧
    ((pooled openCtx).poolLease? 77).isSome = true := by decide +kernel

def aLease : HeadLease := { key := 77, st := 1, epoch := 3, pendingEpoch := 3, lastSent := 5, confirmed := 5, seq := 9 }

/-- The head keeps that lease for a group command of context 3. -/
def heading (l : HeadLease) (s : State) : State :=
  { s with ten := { s.ten with headLeases := [l] }, hq := { s.hq with groups := [aGroup] } }

theorem test_hyp_HeadsHoldLeases :
    (let s := heading aLease (leasing 6 0 0 3 (withCmd (searchBytes []) openCtx))
     (s.takeLease 8191 6).any (fun r => (s.lease? r.1.key).any fun l => r.1.lstatus == 0 && r.1.epoch == l.pendingEpoch &&
       r.1.holder == s.selfMember) = true) ∧
    (let s := { heading { aLease with st := 0, seq := 8 } (leasing 6 0 0 3 openCtx) with hq := { openCtx.hq with groups := [] } }
     (s.takeLease 8191 6).any (fun r => (s.lease? r.1.key).any fun l => l.st == 0 && r.1.lstatus == 0 && r.1.epoch == l.pendingEpoch &&
       r.1.holder == s.selfMember) = true ∧ s.group? 8 = none) ∧
    (let s := (heading { aLease with st := 2 } (leasing 6 0 15 3 openCtx)).setFld fTN_LEASE_CFG_POOL_MEMBER 0 0 15
     (s.takeLease 8191 6).any (fun r => (s.lease? r.1.key).any fun l => l.st == 2 && r.1.lstatus == 0 && r.1.epoch == l.pendingEpoch &&
       r.1.holder == s.fld fTN_LEASE_CFG_POOL_MEMBER 0 0) = true) ∧
    (let s := heading aLease (leasing 6 1 0 3 (withCmd (searchBytes []) openCtx))
     (s.takeLease 8191 6).any (fun r => r.1.lstatus != 0 && (s.lease? r.1.key).isSome) = true ∧ s.group? 9 = some aGroup ∧
     (s.cmd? 3 9).isSome = true ∧ s.toRing 3 = true) ∧
    (heading aLease openCtx).lease? 77 = some aLease ∧ aLease.st = 1 ∧ aLease.lastSent = aLease.confirmed := by decide +kernel

/-- Band 49 departs from partition 5. -/
def departing (s : State) : State :=
  let s := putFlds [(fTN_BAND_V, 49, 0, 1), (fTN_BAND_PN, 49, 0, 5)] s
  { s with ten := { s.ten with departing := [(49, some 6)] } }

theorem test_hyp_CompositionEpochs :
    (State.reset.writeReg .TN_CMP_CTL 0 0 1).commitCause = none ∧
    (((putFlds [(fTN_CMP_BAND_V, 49, 0, 1), (fTN_CMP_BAND_PN, 49, 0, 63)] State.reset).writeReg .TN_CMP_CTL 0 0 1).commitCause).isSome
      = true ∧
    ((Tbl.get? (departing openCtx).ten.departing 49).isSome = true ∧ (departing openCtx).onBand 49 = []) ∧
    Tbl.get? openCtx.ten.departing 49 = none ∧
    let s := { (putFlds [(fState 2, 49, 0, 5), (fTN_CMP_CTL_AUTO_EPOCH_MS, 0, 0, 1)] openCtx) with
      ras := { openCtx.ras with unitPending := [(Nat.pair 2 49, 5)] } }
    s.autoAt.isSome = true ∧ s.applying = false := by decide +kernel

theorem test_hyp_UnitsLeaveService :
    (let u : UnitId := ⟨2, 49⟩
     let s := openCtx.setFld fBD_SVC_STATE 49 0 0
     svcUnit u = true ∧ s.svc u = 0 ∧ s.testing u = false) ∧
    (let s := putFlds [(fState 8, 3, 0, 0), (fState 8, 2, 0, 6), (fState 7, 17, 0, 6)] openCtx
     s.svc ⟨8, 3⟩ = 0 ∧ s.spareOf ⟨8, 3⟩ = some 2 ∧ s.testing ⟨8, 3⟩ = false ∧ s.svc ⟨7, 17⟩ = 6 ∧ svcUnit ⟨7, 17⟩ = true) ∧
    (let u : UnitId := ⟨2, 49⟩
     let s := openCtx.setFld fBD_SVC_STATE 49 0 1
     svcUnit u = true ∧ s.svc u = 1 ∧ s.onBand 49 = []) ∧
    ((tasking { aTask with band := 49 }).onBand 49 ≠ []) ∧
    (let s := putFlds [((fState 8), 3, 0, 0), ((fState 8), 2, 0, 6), ((fState 7), 17, 0, 0), ((fState 7), 9, 0, 6)] openCtx
     s.svc ⟨8, 3⟩ = 0 ∧ s.spareOf ⟨8, 3⟩ = some 2 ∧ s.svc ⟨7, 17⟩ = 0 ∧ s.spareOf ⟨7, 17⟩ = some 9) ∧
    (let s := openCtx.setFld (fState 2) 49 0 0
     s.svc ⟨2, 10 * 4 + 9⟩ = 0) := by decide +kernel

theorem test_hyp_UnitsReturnToService :
    (let s := putFlds [((fState 2), 49, 0, 2)] openCtx
     svcUnit ⟨2, 49⟩ = true ∧ s.svc ⟨2, 49⟩ = 2 ∧ s.testing ⟨2, 49⟩ = false ∧
     s.crownTemp (dieOf 49) < 4 * (s.throttleC : Int)) ∧
    (putFlds [((fState 2), 49, 0, 3)] openCtx).svc ⟨2, 49⟩ = 3 ∧ (putFlds [((fState 2), 49, 0, 4)] openCtx).svc ⟨2, 49⟩ = 4 ∧
    ({ openCtx with power := { openCtx.power with waking := [(49, 5)] } }.power.waking.get? 49).isSome = true := by decide +kernel

/-! ### The transport -/

/-- Connection 8191 READY, incarnation 2, peer 6, domain 4, on port 0 of die 1; region 9 VALID in its domain. -/
def connected (s : State) : State :=
  putFlds [(fXT_CONN_CFG_STATE, 8191, 0, 1), (fXT_CONN_CFG_INC, 8191, 0, 2), (fXT_CONN_CFG_PEER_CONN, 8191, 0, 6),
    (fXT_CONN_CFG_X_DIE, 8191, 0, 1), (fXT_CONN_CFG_PD, 8191, 0, 4), (fXT_CONN_CC_WINDOW, 8191, 0, 16), (fXT_RGN_CTL_STATE, 9, 0, 1),
    (fXT_RGN_CTL_PD, 9, 0, 4), (fXT_RGN_CTL_WR, 9, 0, 1), (fXT_RGN_CTL_RD, 9, 0, 1), (fXT_RGN_CTL_SIZE_4K, 9, 0, 1),
    (fXT_CFG_KA_MS, 1, 0, 3)] s

def aPkt : Pkt :=
  { die := 1, port := 0, frameBytes := 100, frameOk := true, dei := false, ver := 1, opcode := 1, rsvSet := false, mp := false,
    ackReq := false, dstConn := 8191, srcConn := 6, inc := 2, psn := 0, msn := 0, offset := 0, msgLen := 2, txTs := 0, handle := 9,
    addr := 4094, sync := 16383, value := 1, sendType := 0, ackPsn := 1, ackMsn := 0, nakOffset := 0, status := 5, kind := 0, echoTs := 0,
    payload := [1, 2] }

theorem test_hyp_PacketsAreCheckedAndOrdered :
    ({ aPkt with ver := 2 }.ver ≠ 1 ∧ aPkt.inc ≠ openCtx.fld fXT_CONN_CFG_INC 8191 0) ∧
    (let s := (connected openCtx).setConn 8191 { rxPsn := 5 }
     s.pktOk { aPkt with opcode := 5 } = true ∧ (s.policeIn aPkt).1 = true ∧ seqLt aPkt.psn (s.conn 8191).rxPsn = true) ∧
    (let s := connected openCtx
     let p := { aPkt with psn := 4 }
     s.pktOk { p with opcode := 5 } = true ∧ (s.policeIn p).1 = true ∧ seqLt p.psn (s.conn 8191).rxPsn = false ∧
     p.psn ≠ (s.conn 8191).rxPsn ∧ (s.conn 8191).kept.any (·.psn == p.psn) = false ∧ s.reorderUsed (s.connDie 8191) < 512) ∧
    (let s := (connected openCtx).setConn 8191 { kept := List.replicate 512 { aPkt with psn := 5 } }
     (s.conn 8191).kept.any (·.psn == 4) = false ∧ 512 ≤ s.reorderUsed (s.connDie 8191)) ∧
    (let s := (connected openCtx).setConn 8191 { rx := [{ msn := 0, opcode := 1, len := 2, mp := true, got := [(0, 1)] }] }
     let p := { aPkt with mp := true }
     s.pktOk { p with opcode := 1 } = true ∧ (s.policeIn p).1 = true ∧
     ((s.conn 8191).rx? p.msn false).any (fun e => e.got.any (·.1 == p.offset)) = true) ∧
    (connected openCtx).accepts { aPkt with opcode := 0x12 } = true := by decide +kernel

theorem test_hyp_WritesReachTheirRegion :
    (let s := putFlds [(fSY_CFG_REMOTE, 16383, 0, 1), (fSY_CFG_PD, 16383, 0, 4)] (connected openCtx)
     s.inOrder { aPkt with opcode := 1 } = true ∧ s.admitStatus 8191 { aPkt with opcode := 1 } = 0 ∧
     s.inOrder { aPkt with opcode := 2 } = true ∧ s.admitStatus 8191 { aPkt with opcode := 2 } = 0 ∧
     noWrap (s.rgnAddr (handleRegion aPkt.handle) (aPkt.addr + aPkt.offset)) 2 = true) ∧
    (let s := (connected openCtx).setConn 8191 { rx := [{ msn := 0, opcode := 1, len := 4, region := 9 }] }
     s.accepts { aPkt with opcode := 1 } = true ∧
     ((s.conn 8191).rx? 0 false).any (fun e => e.refused.isNone && noWrap (s.rgnAddr e.region (e.addr + 0)) 2) = true) ∧
    (let s := connected openCtx
     let p := { aPkt with mp := true }
     s.opensMp { p with opcode := 1 } = true ∧ s.admitStatus 8191 { p with opcode := 1 } = 0) ∧
    let s := connected openCtx
    let p := { aPkt with addr := 4095 }
    s.inOrder { p with opcode := 1 } = true ∧ s.admitStatus 8191 { p with opcode := 1 } = stAccess ∧ (s.conn 8191).waiting = [] := by
  decide +kernel

def aWr : WR := { id := 3, op := 3, conn := 8191, len := 2, lRegion := 9, issued := true, hasOp := true, msgs := [(0, 0)], left := 2, slot := 32767 }

def requesting (w : WR) (s : State) : State :=
  { connected s with net := { (connected s).net with wrs := [w], twrOrder := 4 } }

theorem test_hyp_ReadsSendsAndSignalsAreTaken :
    (let s := connected openCtx
     s.inOrder { aPkt with opcode := 3, mp := false } = true ∧ s.admitStatus 8191 { aPkt with opcode := 3, mp := false } = 0) ∧
    (let s := requesting aWr openCtx
     s.accepts { aPkt with opcode := 4 } = true ∧
     (s.net.wrs.find? fun w => w.conn == 8191 && w.op == 3 && w.hasOp && w.msgs.any (·.1 == aPkt.msn)) = some aWr ∧
     ((aWr.msgs.find? (·.1 == aPkt.msn)).map (·.2)) = some 0 ∧ noWrap (s.rgnAddr aWr.lRegion (aWr.lAddr + (0 + 0))) 2 = true) ∧
    (let s := connected openCtx
     s.inOrder { aPkt with opcode := 5, mp := false } = true ∧ s.inOrder { aPkt with opcode := 6, mp := false } = true ∧
     (s.conn 8191).rx = [] ∧ (s.conn 8191).refusedSends = [] ∧ s.syncOpen 8191 0 = false ∧
     s.net.poolBytes.getD 0 (s.connDie 8191) + 2 ≤ 2 ^ 24 ∧ aPkt.sendType ≠ 3) ∧
    (let s := { connected openCtx with net := { (connected openCtx).net with poolBytes := [(1, 2 ^ 24)] } }
     s.inOrder { aPkt with opcode := 5, mp := false } = true ∧
     2 ^ 24 < s.net.poolBytes.getD 0 (s.connDie 8191) + aPkt.msgLen) ∧
    (let s := tabled (indexed (connected openCtx))
     let p := { aPkt with opcode := 5, mp := false, sendType := 2, payload := [31, 0, 6, 0] }
     s.inOrder p = true ∧ s.psumRefusal p.payload = none ∧ s.psumRefusal [31, 0, 5, 0] = some stBadVersion ∧
     s.inOrder { p with payload := [31, 0, 5, 0] } = true) ∧
    (putFlds [(fSY_CFG_REMOTE, 16383, 0, 1), (fSY_CFG_PD, 16383, 0, 4)] (connected openCtx)).syncOpen 8191 16383 = true ∧
    let s := connected openCtx
    s.inOrder { aPkt with opcode := 0x20, mp := false, payload := leBytes 8 77 ++ [1] } = true ∧
    s.inOrder { aPkt with opcode := 0x20, mp := false, payload := leBytes 8 77 ++ [0] } = true ∧
    s.hq.groups = [] ∧ s.isOn fHQ_GRP_CTL_EN 0 0 = false := by decide +kernel

/-- A request that carries a block of a list to the region of grant 63. -/
def aCarry : WR := { aWr with op := 1, rHandle := 9 }

def aTx : TxPkt := { pkt := { aPkt with opcode := 5 }, wr := some 3, sent := true, sentAt := 5 }

theorem test_hyp_AcknowledgementsFreePackets :
    (let s := (requesting { aWr with op := 5 } openCtx).setConn 8191 { txq := [aTx] }
     s.pktOk { aPkt with opcode := 0x10 } = true ∧ s.pktOk { aPkt with opcode := 0x11 } = true ∧
     (s.conn 8191).txq.any (belowPsn aPkt.ackPsn) = true ∧ s.wrOfMsn 8191 aPkt.ackMsn = some { aWr with op := 5 } ∧
     (s.wr? aWr.id) = some { aWr with op := 5 } ∧
     (s.qry.queries.find? fun e => e.2.reqWrs.contains aWr.id && e.2.stage == .fp16) = none ∧ s.tierWR aWr.id = false) ∧
    (let s := (requesting { aWr with op := 1 } openCtx).setConn 8191 { txq := [{ aTx with pkt := { aTx.pkt with mp := true } }] }
     (s.conn 8191).txq.any (fun x => x.pkt.mp && x.pkt.msn == aPkt.ackMsn) = true) ∧
    (let s := putFlds [(fTN_RG_V, 63, 0, 1), (fTN_RG_CONN, 63, 0, 8191), (fTN_RG_REGION, 63, 0, 9)] (requesting aCarry openCtx)
     let s := s.setVersion 63 { holds := true, lists := [(1, { aList with wrs := [(0, 3)] })] }
     s.wrOfMsn 8191 aPkt.ackMsn = some aCarry ∧ s.tierWR 3 = true ∧ s.isOn fTN_RG_V 63 0 = true ∧ s.fld fTN_RG_STATE 63 0 ≠ 2 ∧
     s.fld fTN_RG_CONN 63 0 = aCarry.conn ∧ s.fld fTN_RG_REGION 63 0 = aCarry.rHandle) ∧
    let s := (requesting { aWr with op := 5 } openCtx).setConn 8191 { busy := [(0, 9)] }
    (s.conn 8191).busy.get? 0 = some 9 ∧ s.wrOfMsn 8191 0 = some { aWr with op := 5 } := by decide +kernel

theorem test_hyp_ConnectionsKeepTime :
    (let s := connected openCtx
     s.ready 8191 = true ∧ s.kaNs 8191 ≠ 0 ∧ (s.conn 8191).txq = []) ∧
    (let s := (connected openCtx).setConn 8191 {
       hold := some 5, firstUnacked := some 6, rx := [{ msn := 7, opcode := 1, len := 2, hold := some 8 }], txq := [aTx] }
     (s.conn 8191).hold = some 5 ∧ ((s.conn 8191).rx.find? fun e => e.msn == 7 && e.hold.isSome).isSome = true ∧
     (s.conn 8191).firstUnacked = some 6 ∧ (s.conn 8191).stalledSince = some 5 ∧ s.ready 8191 = true) ∧
    (let s := (connected openCtx).setConn 8191 { txq := [{ aTx with sent := false }] }
     let s := forEach (List.range 18) (fun l t => t.setFld (fState 7) l 0 0) s
     (s.conn 8191).txq.find? (fun x => !x.sent) = some { aTx with sent := false } ∧ s.portUp 1 0 = true ∧
     s.isOn fXT_CONN_CFG_CC_MODE 8191 0 = false ∧ (s.conn 8191).inFlight < s.fld fXT_CONN_CC_WINDOW 8191 0 ∧ s.paused 8191 = false ∧
     (s.shapeOut 8191 aTx.pkt).isSome = true) ∧
    ({ openCtx with net := { openCtx.net with pfc := [(pfcKey 1 3 1, (5, 9))] } }.net.pfc.get? (pfcKey 1 3 1)).isSome = true := by
  decide +kernel

/-- Bytes of a work request in slot 32767: a WRITE of no bytes on connection 8191 from region 9. -/
def armed (fl : Nat) (s : State) : State :=
  (((connected s).setReg .XT_TWR_WIN 32767 0 (BitVec.ofNat 64 (1 + 256 * fl + 65536 * 8191 + 2 ^ 32 * 16383))).setReg .XT_TWR_WIN 32767 1
    (BitVec.ofNat 64 fl)).setReg .XT_TWR_WIN 32767 5 9

theorem test_hyp_ConnectionsAndTriggers :
    (let s := putFlds [(fXT_ADDR_MAC_V, 0, 0, 1), (fXT_CONN_CC_WINDOW, 8191, 0, 1024), (fXT_CONN_CC_TARGET_100NS, 8191, 0, 20)] openCtx
     s.fld fXT_CONN_CFG_STATE 8191 0 = 0 ∧ s.mayConnect 8191 = true) ∧
    (openCtx.mayConnect 8191 = false ∧ (connected openCtx).ready 8191 = true) ∧
    (let s := { openCtx with net := { openCtx.net with wrs := [{ aWr with triggered := true, issued := false, trigSync := 16383, trigVal := 4 }] } }
     s.net.wrs.any (fun w => !w.issued && w.triggered && w.trigSync == 16383 && decide (w.trigVal.toNat ≤ (4 : W64).toNat)) = true) ∧
    (let s := armed 0 openCtx
     s.fld fXT_TWR_CTL_STATE 32767 0 = 0 ∧ s.armOk (s.slotBytes 32767) = true ∧ s.wr? s.net.twrOrder = none ∧
     s.trigMet (parseWR 32767 (s.slotBytes 32767)) = true) ∧
    (let s := (armed 1 openCtx).setFld fSY_CFG_PD 16383 0 4
     s.armOk (s.slotBytes 32767) = true ∧ s.trigMet (parseWR 32767 (s.slotBytes 32767)) = false) ∧
    openCtx.armOk (openCtx.slotBytes 32767) = false ∧ (openCtx.setFld fXT_TWR_CTL_STATE 32767 0 1).fld fXT_TWR_CTL_STATE 32767 0 = 1 ∧
    (let s := { openCtx with net := { openCtx.net with wrs := [{ aWr with hasOp := false }] } }
     s.net.wrs.any (fun w => w.issued && !w.hasOp) = true ∧ s.opsUsed < 65536) := by decide +kernel

theorem test_hyp_RegionsAreRevokedAsTabled :
    (connected openCtx).fld fXT_RGN_CTL_STATE 9 0 = 1 ∧
    (let s := openCtx.setFld fXT_RGN_CTL_STATE 65535 0 2
     s.fld fXT_RGN_CTL_STATE 65535 0 = 2 ∧ s.admitted 65535 = false) ∧
    (let s := { openCtx.setFld fXT_RGN_CTL_STATE 65535 0 2 with net := { openCtx.net with wrs := [{ aWr with lRegion := 65535 }] } }
     s.fld fXT_RGN_CTL_STATE 65535 0 = 2 ∧ s.admitted 65535 = true) ∧
    openCtx.fld fXT_RGN_CTL_STATE 65535 0 = 0 := by decide +kernel

theorem test_hyp_DomainsWithoutATenantAreFree :
    (let s := connected openCtx
     s.pktOk { aPkt with opcode := 1 } = true ∧ s.isOn fPL_PD_TENANT_V (s.connDie 8191) (s.connPd 8191) = false) ∧
    (let s := (connected openCtx).setFld fPL_PD_TENANT_V 1 4 1
     s.isOn fPL_PD_TENANT_V (s.connDie 8191) (s.connPd 8191) = true ∧
     (s.police (1 + s.connDie 8191) (s.fld fPL_PD_TENANT_TENANT (s.connDie 8191) (s.connPd 8191)) .green 100).1 ≠ .red) ∧
    let s := ((connected openCtx).setFld fPL_PD_TENANT_V 1 4 1).setConn 8191 { txq := [{ aTx with sent := false }] }
    let s := forEach (List.range 18) (fun l t => t.setFld (fState 7) l 0 0) s
    (s.conn 8191).txq.find? (fun x => !x.sent) = some { aTx with sent := false } ∧ s.portUp 1 0 = true ∧
    isData aTx.pkt.opcode = true ∧ (s.conn 8191).inFlight < s.fld fXT_CONN_CC_WINDOW 8191 0 ∧ s.paused 8191 = false := by decide +kernel

theorem test_hyp_BucketsAreCommittedAndRefilled :
    policerOk 0 0 1 0 1 0 = true ∧ policerOk 2 0 1 0 8191 0 = false ∧
    (let v := Fld.put fPL_STRICT_CTL_EN 0 1
     let s := putFlds [(fPL_STRICT_CTL_EN, 7, 0, 1)] openCtx
     Fld.get fPL_STRICT_CTL_EN v = 1 ∧ ((List.range 8).any fun j => j != 0 && s.isOn fPL_STRICT_CTL_EN j 0 &&
       s.fld fPL_STRICT_CTL_TENANT j 0 == Fld.get fPL_STRICT_CTL_TENANT v) = true) ∧
    (let s := putFlds [(fPL_STRICT_RATE_RATE, 7, 0, 1), (fPL_STRICT_RATE_RATE, 7, 1, 1), (fPL_STRICT_RATE_RATE, 7, 2, 1),
       (fPL_STRICT_SIZE_SIZE, 7, 0, 1), (fPL_STRICT_SIZE_SIZE, 7, 1, 8192), (fPL_STRICT_SIZE_SIZE, 7, 2, 8192)] openCtx
     ∀ p, p < 3 → 0 < s.fld fPL_STRICT_RATE_RATE 7 p ∧ 0 < s.fld fPL_STRICT_SIZE_SIZE 7 p ∧ (p ≠ 0 → 8192 ≤ s.fld fPL_STRICT_SIZE_SIZE 7 p)) ∧
    (let s := putFlds [(fPL_SHP_RATE_RATE, 1, 255, 1000), (fPL_SHP_SIZE_SIZE, 1, 255, 8192)] openCtx
     1000 ≤ s.fld fPL_SHP_RATE_RATE 1 255 ∧ s.fld fPL_SHP_RATE_RATE 1 255 ≤ 50000000000 ∧ 8192 ≤ s.fld fPL_SHP_SIZE_SIZE 1 255) ∧
    { openCtx with ras := { openCtx.ras with abortedKeys := [(77, 5)] } }.ras.abortedKeys ≠ [] := by decide +kernel

/-! ### Flash writes, services, resets, start, dictionary, power -/

def aWrite : SWrite := { ch := 31, lsn := 999, data := [1], old := none, tenant := 7 }
def anOpen : OpenSect := { lsn := 999, ver := 63, cluster := 1, data := [1], records := 1, first := 5, mirrors := [0], tenant := 7 }
def anAppend : AppendReq := { seq := 9, slotIx := 0, ver := 63, cluster := 1, die := 4, tenant := 7, record := [1] }

/-- Every channel IN_SERVICE, with channel 31 as given. -/
def flashUp (x : Chan) : State :=
  (forEach (List.range 32) (fun n t => t.setFld fCF_SVC_STATE n 0 0) (channelUp openCtx)).setChan 31 x

/-- Parity of the stripe of sector 999 of channel 31 lies in the journal of its channel. -/
def parityAt (s : State) : State :=
  let k := parityCh 31 999
  let x := s.parityIx k (stripeSet 999)
  s.setChan k { journal := [{ jseq := 1, pay := .sector x [2] (some 3) }], jIndex := [(x, 1)], jNext := 2 }

/-- That sector waits at stripe engine 4 to be written, with its old data. -/
def writing : State :=
  let s := parityAt (flashUp {})
  { s with fl := { s.fl with swrites := [(4, [{ aWrite with old := some [3] }])] } }

theorem test_hyp_SectorsAreWrittenAndMoved :
    (let s := writing
     let k := parityCh 31 999
     let x := s.parityIx k (stripeSet 999)
     k ≠ 31 ∧ s.dieReset 4 = false ∧ s.chAccepts 31 = true ∧ s.chAccepts k = true ∧ (s.shaper (2 + 31) 7).en = false ∧
     s.chTakes 31 999 = true ∧ s.chTakes k x = true ∧ ((s.chan k).journal.all fun r => decide (r.jseq < (s.chan k).jNext)) = true ∧
     ((s.chan 31).journal.all fun r => decide (r.jseq < (s.chan 31).jNext)) = true ∧
     (s.oldData { aWrite with old := some [3] } []).isSome = true ∧ (s.chan k).look x = .data [2] 3 ∧ [k].contains k = true) ∧
    (let s := (flashUp {}).setFld fCF_SVC_STATE 31 0 2
     s.chTakes 31 999 = false ∧ s.chTakes (parityCh 31 999) (s.parityIx (parityCh 31 999) (stripeSet 999)) = true ∧
     s.oldData aWrite [0] = none) ∧
    (let s := { flashUp {} with fl := { (flashUp {}).fl with swrites := [(4, [aWrite])], appendQ := [(4, [anAppend])] } }
     s.dieReset 4 = false ∧ s.fl.swrites.getD [] 4 = [aWrite] ∧ s.chAccepts 31 = true ∧ s.chAccepts (parityCh 31 999) = true ∧
     (s.shaper (2 + 31) 7).en = false ∧ s.chTakes 31 999 = true ∧ s.pickChannel.isSome = true ∧
     ((List.range 32).all s.chAccepts) = true ∧
     (({ s with fl := { s.fl with appendQ := s.fl.appendQ.put 4 [] } }).openFor anAppend).isSome = true) ∧
    ((flashUp { openS := [anOpen] }).openAt 31 999 = some anOpen ∧ anOpen.closing = false) ∧
    (((flashUp { journal := [{ jseq := 1, pay := .time 5 }] }).chan 31).journal.find? (·.staged)).isSome = true ∧
    (let s := flashUp {
       health := { s0 := 200, goodUnits := 200 * 1536 }, jIndex := (List.range 16).map fun i => (16 + i, 1 + i),
       journal := (List.range 16).map fun i => { jseq := 1 + i, pay := .sector (16 + i) [1] none, atTime := 5 }, jNext := 17 }
     s.tlUp 31 = true ∧ s.chState 31 < 2 ∧ (s.chan 31).flushing = false ∧ (s.chan 31).foldPending.get? 1 = none ∧ (s.chan 31).foldable 1 = true ∧
     ((s.foldLuns 31).findSome? fun l => (s.target 31 l 1).map fun r => (l, r)).isSome = true) ∧
    (let s := flashUp { foldPending := [(1, (4096, 1))], planeBusy := [(0, { cls := 3, kind := 1, num := 1 })] }
     (s.chan 31).foldPending.get? 1 = some (4096, 1) ∧ ((s.chan 31).planeBusy.any fun e => e.2.kind == 1 && e.2.num == 1) = true) ∧
    (let s := flashUp { collect := [{ kind := 0, lun := 0, victim := 1, pend := some (1, 5, 6) }], map := [(1, 5)],
                        planeBusy := [(0, { cls := 3, kind := 2, num := 1 })] }
     ((s.chan 31).planeBusy.any fun e => e.2.kind == 2 && e.2.num == 1) = true ∧ (s.chan 31).map.get? 1 = some 5 ∧
     ({ s.chan 31 with map := [(1, 7)] } : Chan).map.get? 1 ≠ some 5) ∧
    (let s := flashUp { sbs := [(1, { st := 3 })] }
     s.tlUp 31 = true ∧ (s.chan 31).flushing = false ∧ (s.chan 31).erasable 1 = true) ∧
    (let s := flashUp { sbs := [(1, { st := 3 })], collect := [{ kind := 2, lun := 0, victim := 2 }] }
     s.tlUp 31 = true ∧ ((s.chan 31).sbs.getD {} 1).st = 3 ∧ (s.chan 31).refreshQ.contains 1 = false ∧
     (s.chan 31).collect.any (·.victim == 1) = false ∧ (s.chan 31).collect.any (·.kind == 2) = true ∧ (s.chan 31).refreshQ = []) ∧
    State.reset.flashInUse = false ∧ (tabled openCtx).flashInUse = true ∧ State.reset.pins.pwrLossN = true ∧
    (let s := flashUp { flushing := true }
     (s.chan 31).flushing = true ∧ s.isOn fCF_TL_STATUS_FLUSH_DONE 31 0 = false ∧ (s.chan 31).journal = []) ∧
    ((flashUp { flushing := true }).setFld fCF_TL_STATUS_FLUSH_DONE 31 0 1).isOn fCF_TL_STATUS_FLUSH_DONE 31 0 = true := by
  decide +kernel

/-- A lost-sector table with no room. -/
theorem test_lost_full : Chan.lostFull { lost := List.replicate 65536 0 } = true :=
  decide_eq_true (le_of_eq List.length_replicate.symm)

theorem test_hyp_ChannelsLeaveAndReturn :
    (let s := flashUp {}
     s.chIn 31 = true ∧ ((List.range 32).all fun m => m == 31 || s.chIn m) = true ∧ s.testing ⟨3, 31⟩ = false ∧ s.sparePct 31 = 0) ∧
    (let s := (flashUp { present := false }).setFld fCF_SVC_STATE 31 0 2
     s.chIn 31 = false ∧ s.chState 31 = 2 ∧ (s.chan 31).present = false) ∧
    (let s := (flashUp {}).setFld fCF_SVC_STATE 31 0 1
     s.chState 31 = 1) ∧
    (let s := (flashUp { pwrEn := true }).setFld fCF_SVC_STATE 31 0 3
     (s.chan 31).pwrEn = true ∧ s.chState 31 = 3 ∧ (s.chan 31).onfiUp = false) ∧
    (let s := (flashUp { pwrEn := true, onfiUp := true }).setFld fCF_SVC_STATE 31 0 3
     s.chState 31 = 3 ∧ (s.chan 31).onfiUp = true ∧ 100 * s.neededUnits 31 ≤ 72 * 87) ∧
    (let s := (flashUp {}).setFld fCF_SVC_STATE 31 0 4
     let u := s.servedRebuild 31 (stripeSet 0) (parityCh 31 0)
     s.chState 31 = 4 ∧ s.chAccepts 31 = true ∧ ((List.range 32).any fun m => m != 31 && s.rebuildHeld m) = false ∧
     s.fld fCF_REBUILD_POS_CURSOR 31 0 = 0 ∧ 0 < s.dataSectors 31 ∧ (s.chan 31).journal = [] ∧
     u.rebuild 31 0 none [0] = none ∧ (s.chan 31).lostFull = false) ∧
    ((((flashUp {}).setFld fCF_SVC_STATE 31 0 4).setChan 0 {
      jIndex := [(0, 1)], journal := [{ jseq := 1, pay := .sector 0 [] none }], jNext := 2 }).servedRebuild 31 (stripeSet 0) (parityCh 31 0)
      |>.rebuild 31 0 none []).isSome = true ∧
    (let s := (((flashUp {}).setFld fCF_SVC_STATE 31 0 4).setFld fCF_REBUILD_POS_CURSOR 31 0 1000).setFld fCF_CAP_PARITY_SECTORS 31 0 16
     let s := s.setChan 0 { jIndex := [(30, 1)], journal := [{ jseq := 1, pay := .sector 30 [3] none }], jNext := 2 }
     s.chState 31 = 4 ∧ s.dataSectors 31 ≤ s.fld fCF_REBUILD_POS_CURSOR 31 0 ∧ s.chAccepts 31 = true ∧
     ((List.range 32).any fun m => m != 31 && s.rebuildHeld m) = false ∧ (s.chan 31).journal = [] ∧
     (s.chan 31).parityPos < s.fld fCF_CAP_PARITY_SECTORS 31 0 ∧
     ((s.servedRebuild 31 0 31).sumOf [] (others 32 0 31)).2 ≠ 0) ∧
    (let s := (flashUp { shadowWant := [(5, 1)], shadowGot := [(5, 1)] }).setFld fCF_SVC_STATE 31 0 5
     s.chState 31 = 5 ∧ (s.chan 31).shadowWant.get? 5 = some 1 ∧ (s.chan 31).shadowGot.get? 5 = some 1) ∧
    ((flashUp { health := { heldNow := true } }).chan 31).health.heldNow = true := by decide +kernel

def resetting (d n phase : Nat) : State :=
  { serving with ras := { serving.ras with resets := [{ domain := d, num := n, since := 5, phase := phase }] } }

def dumping (st : Nat) (f : Dump → Dump) : State :=
  let s := serving.setFld fDM_CTL_STATE 0 0 st
  { s with ras := { s.ras with dumpEng := f s.ras.dumpEng } }

def anErr : ErrRec := { seq := 1, cls := 0, srcKind := 4, srcNum := 0, code := 1, time := 5 }

/-- A device reset takes no dump first. -/
def noDump (s : State) : State := s.setFld fDM_CTL_ON_RESET 0 0 0

/-- Engine 9 of class 0 has two suspects to run again, in one set. -/
def replaying : State :=
  let s := querying aQuery openCtx
  let s := s.setCtx 3 { s.ctx 3 with cmds := (s.ctx 3).cmds ++ [{ seq := 8, bytes := searchBytes [] }] }
  { s with ras := { s.ras with engines := [(Nat.pair 0 9, { replaySets := [[9, 8]] })] } }

theorem test_hyp_HangsResetsAndDumps :
    (let s := (tasking { aTask with st := .running }).setFld fHG_WIN_EN 0 0 1
     let s := { s with ras := { s.ras with engines := [(Nat.pair 0 9, { sampled := s.progress 0 9, heldWork := true })] } }
     s.isOn fHG_WIN_EN 0 0 = true ∧ s.holdsWork 0 9 = true ∧ (s.engine 0 9).heldWork = true ∧ (s.engine 0 9).sampled = s.progress 0 9 ∧
     (s.engine 0 9).replaySets = [] ∧ s.engineReset 0 9 = false ∧ ((List.range 50).all fun j => j == 9 || !(s.engine 0 j).heldWork) = true) ∧
    (let s := querying aQuery openCtx
     let s := { s with ras := { s.ras with engines := [(Nat.pair 0 9, { replaySets := [[9]] })] } }
     (s.engine 0 9).replaySets = [[9]] ∧ s.engineReset 0 9 = false ∧ s.setRun 0 9 [9] = true ∧ [9].filter s.jobLives = [9]) ∧
    (replaying.engine 0 9).replaySets = [[9, 8]] ∧ replaying.engineReset 0 9 = false ∧ [9, 8].filter replaying.jobLives = [9, 8] ∧
    (let s := departing (tasking { aTask with band := 49 })
     (s.ten.departing.get? 49).isSome = true ∧ s.onBand 49 ≠ []) ∧
    (let s := querying aQuery openCtx
     (s.query 9).any (fun x => !x.isShadow && x.group.isNone && x.ctx == 3) = true ∧ (s.cmd? 3 9).isSome = true ∧ s.toRing 3 = true ∧
     s.group? 9 = none ∧ s.job? 9 = none ∧ (s.tbl.tblJobs.find? (·.seq == 9)) = none) ∧
    (serving.covered 1 49 = false ∧ UnitId.exists ⟨2, 49⟩ = true ∧ serving.isOn fDM_CTL_ON_DIE 0 0 = false ∧ (noDump serving).mayRestart = true) ∧
    ((resetting 3 4 0).ras.resets.find? fun r => r.domain == 3 && r.num == 4).isSome = true ∧
    (noDump (resetting 3 4 0)).mayRestart = true ∧ (resetting 5 0 2).mayStart = true ∧
    ((resetting 5 0 1).ras.resets.find? fun r => r.domain == 5 && r.phase == 1).isSome = true ∧
    ((resetting 3 4 0).covered 3 4 = true ∧ (resetting 1 49 0).covered 3 (dieOf 49) = false ∧ serving.chState 31 ≠ 0) ∧
    (dumping 1 id).dumpState = 1 ∧ (dumping 2 id).dumpState = 2 ∧ (dumping 2 id).isOn fDM_CTL_OVERWRITE 0 0 = false ∧
    (let s := dumping 1 fun d => { d with list := [{ space := 0, unitKind := 4, unitNum := 0, length := 8, addr := 0 }] }
     s.ras.dumpEng.list[s.ras.dumpEng.pos]?.isSome = true ∧ s.ras.dumpEng.forDomain = none ∧ s.ras.dumpEng.pos ≤ s.ras.dumpEng.list.length) ∧
    (let w : ErrWin := { kind := 4, num := 0, code := 1, opened := 5, seq := 1, more := 1, first := some anErr }
     (([w] : List ErrWin).find? fun w => w.hasKey 4 0 1) = some w) ∧
    (let s := { serving.setFld fEL_CTL_IRQ_EN 0 0 1 with ras := { serving.ras with irqPending := true } }
     s.ras.irqPending = true ∧ s.isOn fEL_CTL_IRQ_EN 0 0 = true) ∧
    serving.pins.sysclk = true ∧ serving.pins.resetN = true := by decide +kernel

/-- A start stands in step `n`. -/
def starting (n : Nat) : State :=
  let s := State.reset.setFld fHQ_START_STATUS_STEP 0 0 n
  { s with start := { s.start with running := true },
           boot := { s.boot with identity := { seqA := 1, okA := true }, config := { seqA := 1, okA := true } } }

/-- An image set with SEC_VERSION 0 whose components, of no bytes, are all there; signed or not. -/
def anImage (signed : Bool) : ImageInfo :=
  { header := leBytes 2 0xF1E8 ++ leBytes 2 1 ++ zeros 0xCC ++ ((List.range 7).flatMap fun n => leBytes 2 (n + 1) ++ zeros 94)
      ++ zeros (4096 - 0xD0 - 7 * 96),
    certOk := true, sigOk := signed, same := List.replicate 32 true }

/-- Every unit of kinds 1, 3, 6 and 8. -/
def allUnits : List UnitId :=
  ((List.range 5).map (⟨1, ·⟩)) ++ ((List.range 32).map (⟨3, ·⟩)) ++ ((List.range 20).map (⟨6, ·⟩)) ++ (List.range 4).map (⟨8, ·⟩)

theorem test_hyp_StartsAndBootRecords :
    (imageBits (some (anImage true)) 0 = 0 ∧ imageBits (some (anImage false)) 0 ≠ 0 ∧ (starting 3).boot.secFloor = 0) ∧
    (allUnits.any (fun u => u.kind == 8) = true ∧ allUnits.any (fun u => u.kind == 1) = true ∧
     allUnits.contains ⟨6, 4 * 4 + 3⟩ = true ∧ (starting 6).isBad 1 4 = false ∧
     31 ≤ ((List.range 32).filter fun n => allUnits.contains ⟨3, n⟩).length) ∧
    ((starting 6).start.copy = [] ∧ ((starting 7).setFld fCF_CAP_DATA_SECTORS 0 0 16).fld fCF_CAP_DATA_SECTORS 0 0 ≠ 0) ∧
    ((List.range 11).all fun n => (starting n).start.running && (starting n).startStep == n) = true ∧
    (starting 1).boot.identity.valid = true ∧ (starting 2).boot.config.valid = true ∧ (starting 5).newestOutcome ≠ 3 ∧
    { (starting 1) with boot := {} }.boot.identity.valid = false ∧ (starting 3).firstSet = 0 ∧
    State.reset.mode = 0 ∧ serving.mode = 1 ∧ (State.reset.setFld fHQ_START_STATUS_MODE 0 0 2).mode = 2 ∧ State.reset.mayStart = true := by
  decide +kernel

def aMsg : NxMsg :=
  { path := 1, op := 1, last := true, auth := false, tag := 0, index := 0x1000, sub := 0, offset := 0, data := [], rsvSet := false,
    requester := 0, seq := 0, mac := [] }

/-- An operation of the dictionary on a host path reaches an object of this kind. -/
def reaches (s : State) (m : NxMsg) (f : ObjRow → Bool) : Bool :=
  s.serverUp && s.arrives m && (m.path != 3 || m.exact) && match s.firstFail m with
    | .inl _ => false
    | .inr r => f r

/-- The management port is on, at IPv4 address 5, with a MAC address of zeros. -/
def managed : State :=
  { serving with dict := { serving.dict with
      objs := [(objKey 0xD010 0, [1]), (objKey 0xD010 6, zeros 6), (objKey 0xD010 7, leBytes 4 5)] } }

/-- A datagram to it whose UDP length is not that of its message. -/
def inexact : NxMsg := { aMsg with path := 3, dstIp := 5, dstPort := 0xC3A6, exact := false }

/-- An invocation of the attestation, another of its path that has ended, and a transfer wait. -/
def invoking : State :=
  { serving with dict := { serving.dict with running :=
    [{ path := 2, index := 0x1001, sub := 0, since := 0 }, { path := 1, index := 0x1001, sub := 0, since := 0, ended := some 7 }] } }

theorem test_hyp_TheDictionaryServes :
    ((resetting 5 0 2).serverUp = false ∧ serving.arrives { aMsg with path := 2, port := 2 } = false ∧
      (managed.serverUp = true ∧ managed.mpOn = true ∧ managed.arrives inexact = true ∧ inexact.exact = false ∧
       managed.objNat 0xD010 7 0 ≠ 0) ∧ serving.mctpOn 1 = true ∧ (match serving.firstFail { aMsg with rsvSet := true } with | .inl _ => true | .inr _ => false) = true) ∧
    reaches serving aMsg (fun _ => true) = true ∧ reaches serving { aMsg with op := 3 } (fun _ => true) = true ∧
    reaches serving { aMsg with op := 2, index := 0xC010, data := leBytes 1 90 } (fun r => r.src == .val && r.persist == 1 &&
      !r.lengthBad 0xC010 0 (leBytes 1 90) && !serving.rangeBad r 0xC010 0 (leBytes 1 90) && !serving.ownRefusal 0xC010 0 (leBytes 1 90)) = true ∧
    reaches serving { aMsg with op := 4, index := 0x1001, data := List.replicate 32 0 } (fun _ => true) = true ∧
    reaches serving { aMsg with op := 5, index := 0x1001 } (fun _ => true) = true ∧
    (serving.isOn fHQ_START_STATUS_KEY_OK 0 0 = false ∧ serving.dict.running = [] ∧
     (invoking.dict.running.any fun x => Running.isFor x { aMsg with index := 0x1001 } && x.ended.isNone) = true ∧
     (invoking.dict.running.find? fun x => Running.isFor x { aMsg with index := 0x1001 } && x.path == 1).any (·.ended == some 7) = true ∧
     (invoking.dict.running.find? fun x => Running.isFor x { aMsg with index := 0x1001 } && x.path == 2).any (·.ended.isNone) = true ∧
     argOk 0x1001 0 [] = false ∧ argOk 0x1001 0 (List.replicate 32 0) = true) ∧
    (serving.isOn fHQ_MB_CTL_BUSY 1 0 = false ∧ serving.isOn fHQ_MB_CTL_DONE 1 0 = false ∧ serving.serverUp = true) ∧
    (let d : Dict := { xfers := [{ path := 1, index := 5, sub := 6, data := [], atTime := 7 }],
                       running := [{ path := 1, index := 5, sub := 6, since := 0, ended := some 7 }], pending := some (1, 2) }
     (d.xfers.find? fun x => x.path == 1 && x.index == 5 && x.sub == 6).isSome = true ∧
     (d.running.find? fun x => x.index == 5 && x.sub == 6).any (·.ended == some 7) = true ∧ d.pending = some (1, 2)) := by decide +kernel

theorem test_hyp_PowerTestsAndTheAccessPort :
    ((starting 4).pins.pwrLossN = true ∧ (starting 4).mode ≠ 2 ∧ (starting 4).startStep = 4 ∧ (starting 3).startStep < 4) ∧ serving.limitMw = 640000 ∧
    (testUs 2 3 ≠ 0 ∧ (serving.setFld fBD_SVC_STATE 49 0 2).mayTest ⟨2, 49⟩ = true ∧ serving.testing ⟨2, 49⟩ = false) ∧
    (([{ unit := ⟨2, 49⟩, test := 3, since := 5 }] : List Test).find? (·.unit == ⟨2, 49⟩)).isSome = true := by decide +kernel

/-! ### WellFormed: each check accepts the last value of its range and refuses the next -/

theorem test_wf_ctxNum : Instr.wf (.nop 255) = true ∧ Instr.wf (.nop 256) = false := by decide +kernel
theorem test_wf_crownNum : Instr.wf (.queryEncode 4) = true ∧ Instr.wf (.queryEncode 5) = false := by decide +kernel
theorem test_wf_bandNum : Instr.wf (.tileBind 49) = true ∧ Instr.wf (.tileBind 50) = false := by decide +kernel
theorem test_wf_chanNum : Instr.wf (.healthRecheck 31) = true ∧ Instr.wf (.healthRecheck 32) = false := by decide +kernel
theorem test_wf_fabricNum : Instr.wf (.pfcPause 1 7 7 0) = true ∧ Instr.wf (.pfcPause 2 7 7 0) = false ∧
    Instr.wf (.pfcPause 1 8 7 0) = false := by decide +kernel
theorem test_wf_portNum : Instr.wf (.perstAssert 1) = true ∧ Instr.wf (.perstAssert 2) = false := by decide +kernel
theorem test_wf_tenantNum : Instr.wf (.heatHalving 255) = true ∧ Instr.wf (.heatHalving 256) = false := by decide +kernel
theorem test_wf_indexNum : Instr.wf (.versionFree 15 3) = true ∧ Instr.wf (.versionFree 16 3) = false := by decide +kernel
theorem test_wf_slotNum : Instr.wf (.versionFree 15 4) = false := by decide +kernel
theorem test_wf_tableNum : Instr.wf (.tableVersionFree 31 3) = true ∧ Instr.wf (.tableVersionFree 32 3) = false := by decide +kernel
theorem test_wf_memberNum : Instr.wf (.memberLost 63) = true ∧ Instr.wf (.memberLost 64) = false := by decide +kernel
theorem test_wf_connNum : Instr.wf (.connectionReset 8191) = true ∧ Instr.wf (.connectionReset 8192) = false := by decide +kernel
theorem test_wf_syncNum : Instr.wf (.syAdd 16383 1) = true ∧ Instr.wf (.syAdd 16384 1) = false := by decide +kernel
theorem test_wf_twrNum : Instr.wf (.arm 32767 0) = true ∧ Instr.wf (.arm 32768 0) = false := by decide +kernel
theorem test_wf_regionNum : Instr.wf (.revoke 65535 0) = true ∧ Instr.wf (.revoke 65536 0) = false := by decide +kernel
theorem test_wf_unit : Instr.wf (.thermtrip ⟨3, 31⟩) = true ∧ Instr.wf (.thermtrip ⟨3, 32⟩) = false ∧
    Instr.wf (.thermtrip ⟨10, 0⟩) = false := by decide +kernel
theorem test_wf_regCopy : Instr.wf (.readClear .BD_GQ_POOL_MAX 4 49 0) = true ∧ Instr.wf (.readClear .BD_GQ_POOL_MAX 5 49 0) = false := by
  decide +kernel
theorem test_wf_regValue : Instr.wf (.commit 0xFFFFFFFF 0) = true ∧ Instr.wf (.commit 0x100000000 0) = false := by decide +kernel
theorem test_wf_accessWidth : Instr.wf (.registerWrite .EL_CTL 0 0 32 true 1 0) = true ∧
    Instr.wf (.registerWrite .EL_CTL 0 0 24 true 1 0) = false := by decide +kernel
theorem test_wf_wordFits : Instr.wf (.registerWrite .EL_CTL 0 0 8 true 256 0) = false ∧
    Instr.wf (.sqDoorbell 0 65536 0 0 0) = false ∧ Instr.wf (.functionLevelReset 0 128) = false := by decide +kernel
theorem test_wf_pkt : Instr.wf (.write aPkt) = true ∧ Instr.wf (.write { aPkt with psn := 2 ^ 32 }) = false ∧
    Instr.wf (.write { aPkt with die := 2 }) = false := by decide +kernel
theorem test_wf_nxMsg : Instr.wf (.read aMsg) = true ∧ Instr.wf (.read { aMsg with path := 4 }) = false ∧
    Instr.wf (.read { aMsg with auth := true }) = false := by decide +kernel
theorem test_wf_gKey : Instr.wf (.queueLaunch 4 { aKey with pn := 63 } none) = true ∧
    Instr.wf (.queueLaunch 4 { aKey with pn := 64 } none) = false := by decide +kernel
theorem test_wf_image : ImageInfo.wf { anImage true with header := [] } = false ∧
    ImageInfo.wf { anImage true with same := List.replicate 33 true } = false := by decide +kernel

/-! ### Single steps -/

/-- A block has no word for a command: the table gives no row bits. -/
theorem test_no_words : decodeTableWord 64 0 = none ∧ State.reset.withFetchWord 64 5 = State.reset := by decide +kernel

/-- On an empty queue a nanosecond passes (log entry 1). -/
theorem test_idle : (match step State.reset with
    | .next t => t == { State.reset with now := 1 }
    | _ => false) = true := by decide +kernel

/-- The front command runs and leaves the queue; IDCODE shows version 1, part 0x7A09, manufacturer 0x2E3 (R392). -/
theorem test_front : (match step { serving with pending := [.idcode, .bypass] } with
    | .next t => t.pending == [.bypass] && t.out.getLast? == some (.tdo (0x1 * 2 ^ 28 + 0x7A09 * 2 ^ 12 + 0x2E3 * 2 + 1))
    | _ => false) = true := by decide +kernel

/-- A write through BAR 0 takes a field at a value its row defines, and a read of the register's width answers it (R7, R8). -/
theorem test_registerWrite : let t := after (.registerWrite .EL_CTL 0 0 32 true (2 ^ 19 * 3) (2 ^ 62)) serving
    t.reg .EL_CTL 0 0 = BitVec.ofNat 64 (2 ^ 19 * 3) ∧ (after (.accessWidthRead .EL_CTL 0 0 32 true (2 ^ 62)) t).readData = BitVec.ofNat 64 (2 ^ 19 * 3) := by
  decide +kernel

/-- A doorbell moves TAIL, from its owner only (R242). -/
theorem test_doorbell : ((after (.sqDoorbell 3 15 1 2 0) openCtx).ctx 3).sqTail = 15 ∧
    ((after (.sqDoorbell 3 15 0 2 0) openCtx).ctx 3).sqTail = 0 := by decide +kernel

/-- SIGNAL adds to a sync object, modulo 2^64 (R286). -/
theorem test_syAdd_wraps : (after (.syAdd 16383 2) (serving.setReg .SY_VAL 16383 0 (BitVec.ofNat 64 (2 ^ 64 - 1)))).reg .SY_VAL 16383 0 = 1 := by
  decide +kernel

/-- MR4 keeps five bits of the stack's answer (R386). -/
theorem test_mr4 : (after (.mr4Sample 19 0xFF) serving).power.mr4.get? 19 = some 31 := by decide +kernel

/-- CRC-32C of the nine bytes 31h to 39h, the check value of the polynomial that R37 names. -/
theorem test_crc32c : crc32c [0x31, 0x32, 0x33, 0x34, 0x35, 0x36, 0x37, 0x38, 0x39] = 0xE3069283 := by decide +kernel

/-- A refused region write leaves DRAM alone; an accepted one stores its bytes at the last two bytes of the region (R283). -/
theorem test_write : (after (.write aPkt) (connected openCtx)).rdDram 0 4094 2 = [1, 2] ∧
    (after (.write { aPkt with addr := 4095 }) (connected openCtx)).dram = [] := by decide +kernel

end Sys2Proof.Tests
end

section
/-! SUPPORT. Fields of registers: what a field reads after it, or a field apart from it, has been written; and the frame of an
operation from what it keeps. -/

namespace Sys2Proof.Machine

/-! ### Fields of a register -/

/-- The bits of the field lie in a word, in order. -/
def Fld.fits (f : Fld) : Bool := decide (f.lo ≤ f.hi) && decide (f.hi < 64)

/-- Two fields share no bit: they stand in different registers, or one ends below the other. -/
def Fld.apart (f g : Fld) : Bool := f.reg != g.reg || decide (f.hi < g.lo) || decide (g.hi < f.lo)

/-- The values that a field can hold lie below this. -/
def Fld.bound (f : Fld) : Nat := 2 ^ (f.hi + 1 - f.lo)

theorem Fld.fits_iff (f : Fld) : Fld.fits f = true ↔ f.lo ≤ f.hi ∧ f.hi < 64 := by
  simp only [Fld.fits, Bool.and_eq_true, decide_eq_true_eq]

theorem Fld.apart_iff (f g : Fld) : Fld.apart f g = true ↔ f.reg ≠ g.reg ∨ f.hi < g.lo ∨ g.hi < f.lo := by
  simp only [Fld.apart, Bool.or_eq_true, bne_iff_ne, decide_eq_true_eq, or_assoc]

theorem Fld.get_lt (f : Fld) (v : W64) : Fld.get f v < Fld.bound f := Nat.mod_lt _ (Nat.two_pow_pos _)

theorem Fld.testBit_get (f : Fld) (v : W64) (k : Nat) :
    (Fld.get f v).testBit k = (decide (k < f.hi + 1 - f.lo) && v.toNat.testBit (f.lo + k)) := by
  simp only [Fld.get, bits, Nat.testBit_mod_two_pow, Nat.testBit_div_two_pow, Nat.add_comm]

theorem Fld.two_pow_hi {f : Fld} (hf : Fld.fits f = true) : 2 ^ (f.hi + 1) = 2 ^ f.lo * Fld.bound f := by
  obtain ⟨hlo, -⟩ := (Fld.fits_iff f).mp hf
  rw [Fld.bound, ← Nat.pow_add, Nat.add_sub_cancel' (by omega)]

/-- A word cut at the two ends of a field. -/
theorem Fld.toNat_eq {f : Fld} (hf : Fld.fits f = true) (v : W64) :
    v.toNat = 2 ^ f.lo * (Fld.bound f * (v.toNat / 2 ^ (f.hi + 1)) + Fld.get f v) + v.toNat % 2 ^ f.lo := by
  rw [Fld.two_pow_hi hf, ← Nat.div_div_eq_div_mul, Fld.get, bits, ← Fld.bound, Nat.div_add_mod, Nat.div_add_mod]

theorem Fld.toNat_put {f : Fld} (hf : Fld.fits f = true) (v : W64) (n : Nat) :
    (Fld.put f v n).toNat =
      2 ^ f.lo * (Fld.bound f * (v.toNat / 2 ^ (f.hi + 1)) + n % Fld.bound f) + v.toNat % 2 ^ f.lo := by
  have hv := Fld.toNat_eq hf v
  have hx : n % Fld.bound f < Fld.bound f := Nat.mod_lt _ (Nat.two_pow_pos _)
  have hl : v.toNat % 2 ^ f.lo < 2 ^ f.lo := Nat.mod_lt _ (Nat.two_pow_pos _)
  have htop : 2 ^ f.lo * Fld.bound f * (v.toNat / 2 ^ (f.hi + 1) + 1) ≤ 2 ^ 64 := by
    obtain ⟨-, h64⟩ := (Fld.fits_iff f).mp hf
    have hcut : 2 ^ 64 = 2 ^ (f.hi + 1) * 2 ^ (63 - f.hi) := by rw [← Nat.pow_add]; congr 1; omega
    rw [← Fld.two_pow_hi hf, hcut]
    refine Nat.mul_le_mul_left _ (Nat.div_lt_of_lt_mul ?_)
    rw [← hcut]
    exact v.isLt
  have hold : 2 ^ f.lo * (Fld.bound f * (v.toNat / 2 ^ (f.hi + 1)) + Fld.get f v) =
      2 ^ f.lo * (Fld.bound f * (v.toNat / 2 ^ (f.hi + 1))) + Fld.get f v * 2 ^ f.lo := by ring
  have hnew : 2 ^ f.lo * (Fld.bound f * (v.toNat / 2 ^ (f.hi + 1)) + n % Fld.bound f) =
      2 ^ f.lo * (Fld.bound f * (v.toNat / 2 ^ (f.hi + 1))) + n % Fld.bound f * 2 ^ f.lo := by ring
  have hfull : 2 ^ f.lo * Fld.bound f * (v.toNat / 2 ^ (f.hi + 1) + 1) =
      2 ^ f.lo * (Fld.bound f * (v.toNat / 2 ^ (f.hi + 1))) + Fld.bound f * 2 ^ f.lo := by ring
  have hfit : (n % Fld.bound f + 1) * 2 ^ f.lo ≤ Fld.bound f * 2 ^ f.lo := Nat.mul_le_mul_right _ hx
  rw [Nat.add_mul] at hfit
  rw [Fld.put, ← Fld.get, ← Fld.bound, BitVec.toNat_ofNat, Nat.mod_eq_of_lt] <;> omega

/-- What a word holds after a field of it has been replaced, bit by bit. -/
theorem Fld.testBit_put {f : Fld} (hf : Fld.fits f = true) (v : W64) (n j : Nat) :
    (Fld.put f v n).toNat.testBit j =
      if f.lo ≤ j ∧ j ≤ f.hi then n.testBit (j - f.lo) else v.toNat.testBit j := by
  obtain ⟨hlo, -⟩ := (Fld.fits_iff f).mp hf
  rw [Fld.toNat_put hf, Nat.testBit_two_pow_mul_add _ (Nat.mod_lt _ (Nat.two_pow_pos _)),
    Fld.bound, Nat.testBit_two_pow_mul_add _ (Nat.mod_lt _ (Nat.two_pow_pos _))]
  by_cases hj : j < f.lo
  · rw [if_pos hj, if_neg (by omega), Nat.testBit_mod_two_pow, decide_eq_true hj, Bool.true_and]
  · by_cases hk : j ≤ f.hi
    · rw [if_neg hj, if_pos (by omega), if_pos (by omega), Nat.testBit_mod_two_pow,
        decide_eq_true (by omega), Bool.true_and]
    · rw [if_neg hj, if_neg (by omega), if_neg (by omega), Nat.testBit_div_two_pow]
      congr 1
      omega

theorem Fld.get_put_self {f : Fld} (hf : Fld.fits f = true) (v : W64) (n : Nat) :
    Fld.get f (Fld.put f v n) = n % Fld.bound f := by
  refine Nat.eq_of_testBit_eq fun k => ?_
  rw [Fld.testBit_get, Fld.testBit_put hf, Fld.bound, Nat.testBit_mod_two_pow]
  by_cases hk : k < f.hi + 1 - f.lo
  · rw [if_pos (by omega), Nat.add_sub_cancel_left]
  · rw [decide_eq_false hk, Bool.false_and, Bool.false_and]

theorem Fld.get_put_apart {f g : Fld} (hf : Fld.fits f = true) (h : f.hi < g.lo ∨ g.hi < f.lo) (v : W64) (n : Nat) :
    Fld.get g (Fld.put f v n) = Fld.get g v := by
  refine Nat.eq_of_testBit_eq fun k => ?_
  rw [Fld.testBit_get, Fld.testBit_get, Fld.testBit_put hf]
  by_cases hk : k < g.hi + 1 - g.lo
  · rw [if_neg (by omega)]
  · rw [decide_eq_false hk, Bool.false_and, Bool.false_and]

/-! ### Fields of the registers of a state -/

/-- A field reads the same in two states whose copies of its register agree. -/
theorem State.fld_congr {s t : State} {f : Fld} {i j : Nat} (h : t.reg f.reg i j = s.reg f.reg i j) :
    t.fld f i j = s.fld f i j := congrArg (Fld.get f) h

theorem State.fld_of_regs {s t : State} (h : t.regs = s.regs) (f : Fld) (i j : Nat) : t.fld f i j = s.fld f i j :=
  State.fld_congr (by rw [State.reg, State.reg, h])

theorem State.fld_setFld_self (s : State) {f : Fld} (hf : Fld.fits f = true) (i j n : Nat) :
    (s.setFld f i j n).fld f i j = n % Fld.bound f := by
  rw [State.fld, State.setFld, State.reg_setReg_self, Fld.get_put_self hf]

/-- A field written with what it reads in a word reads so. -/
theorem State.fld_setFld_get (s : State) {f : Fld} (hf : Fld.fits f = true) (i j : Nat) (v : W64) :
    (s.setFld f i j (Fld.get f v)).fld f i j = Fld.get f v := by
  rw [State.fld_setFld_self s hf, Nat.mod_eq_of_lt (Fld.get_lt f v)]

/-- A field keeps its value when a field that shares no bit with it is written, in any copy. -/
theorem State.fld_setFld_apart (s : State) {f g : Fld} (hf : Fld.fits f = true) (h : Fld.apart f g = true)
    (i j n a b : Nat) : (s.setFld f i j n).fld g a b = s.fld g a b := by
  by_cases hr : g.reg = f.reg
  · have hbits := ((Fld.apart_iff f g).mp h).resolve_left fun e => e hr.symm
    by_cases hc : (a, b) = (i, j)
    · obtain ⟨rfl, rfl⟩ := Prod.mk.inj hc
      rw [State.fld, State.setFld, hr, State.reg_setReg_self, Fld.get_put_apart hf hbits, State.fld, hr]
    · exact State.fld_congr (by rw [State.setFld, hr, State.reg_setReg_copy _ _ hc])
  · exact State.fld_setFld_other s hr i j n a b

/-- Replacing a context writes its in-flight count, and no other field. -/
theorem State.fld_setCtx (s : State) {f : Fld} (h : Fld.apart fHQ_CTX_STATUS_IN_FLIGHT f = true) (c : Nat) (x : Ctx)
    (a b : Nat) : (s.setCtx c x).fld f a b = s.fld f a b :=
  State.fld_setFld_apart _ (by decide) h c 0 _ a b

/-! ### Frames -/

theorem testBit_foldl_or {α : Type} (f : α → Nat) (xs : List α) (m i : Nat) :
    (xs.foldl (fun m x => m ||| 2 ^ f x) m).testBit i = (m.testBit i || xs.any (f · == i)) := by
  induction xs generalizing m with
  | nil => rw [List.foldl_nil, List.any_nil, Bool.or_false]
  | cons x xs ih =>
    rw [List.foldl_cons, ih, Nat.testBit_or, Nat.testBit_two_pow, List.any_cons, Bool.or_assoc]
    rfl

/-- The bits of a touch are those of its parts and its registers. -/
theorem testBit_touchSet (ps : List Part) (rs : List RegName) (i : Nat) :
    (touchSet ps rs).testBit i = (ps.any (Part.bit · == i) || rs.any (regBit · == i)) := by
  rw [touchSet, testBit_foldl_or, testBit_foldl_or, Nat.zero_testBit, Bool.false_or]

theorem Part.bit_lt (p : Part) : p.bit < 32 := by cases p <;> decide

theorem Part.bit_inj {p q : Part} (h : p.bit = q.bit) : p = q := by
  have hofNat : ∀ x : Part, x = Part.ofNat x.ctorIdx := by intro x; cases x <;> rfl
  rw [hofNat p, hofNat q]
  exact congrArg Part.ofNat h

theorem testBit_touchSet_part {ps : List Part} {rs : List RegName} {p : Part} (h : p ∉ ps) :
    (touchSet ps rs).testBit p.bit = false := by
  rw [testBit_touchSet, Bool.or_eq_false_iff, List.any_eq_false, List.any_eq_false]
  constructor
  · intro q hq he
    exact h (Part.bit_inj (beq_iff_eq.mp he) ▸ hq)
  · intro r _ he
    have hlt := Part.bit_lt p
    rw [← beq_iff_eq.mp he, regBit] at hlt
    omega

theorem testBit_touchSet_reg {ps : List Part} {rs : List RegName} {r : RegName} :
    (touchSet ps rs).testBit (regBit r) = decide (r ∈ rs) := by
  rw [testBit_touchSet, Bool.eq_iff_iff, Bool.or_eq_true, List.any_eq_true, List.any_eq_true, decide_eq_true_eq]
  constructor
  · rintro (⟨p, -, he⟩ | ⟨q, hq, he⟩)
    · have hlt := Part.bit_lt p
      rw [beq_iff_eq.mp he, regBit] at hlt
      omega
    · have hidx : q.ctorIdx = r.ctorIdx := Nat.add_left_cancel (beq_iff_eq.mp he)
      exact RegName.ctorIdx_inj hidx ▸ hq
  · exact fun hr => Or.inr ⟨r, hr, beq_self_eq_true _⟩

/-- What an operation keeps, as the frame of the parts and registers it touches. -/
theorem Keeps.frame {m : Nat} {ps : List Part} {rs : List RegName} {s t : State} (h : Keeps m s t)
    (hm : m &&& touchSet ps rs = m) : Frame ps rs s t := by
  refine ⟨h.pending, fun p hp => h.parts p (testBit_of_within hm (testBit_touchSet_part hp)), fun r hr i j => ?_⟩
  exact h.regs r i j (testBit_of_within hm (by rw [testBit_touchSet_reg, decide_eq_false hr]))

theorem Keeps.fld {m : Nat} {s t : State} {f : Fld} (h : Keeps m s t) (hm : m.testBit (regBit f.reg) = false)
    (i j : Nat) : t.fld f i j = s.fld f i j := State.fld_congr (h.regs _ i j hm)

end Sys2Proof.Machine
end

section
/-! What a write leaves in each field of a register (R8, R10), and the registers after reset (R11). -/

namespace Sys2Proof.Machine

/-! ### A write by access codes (R8, R10) -/

/-- The field that a row of a register map describes. -/
def rowFld (r : RegName) (f : FieldRow) : Fld := ⟨r, f.hi, f.lo⟩

/-- The rows of a register map lie in a word and apart, from the highest bit down. -/
def rowsApart (fs : List FieldRow) : Prop :=
  (∀ f ∈ fs, f.lo ≤ f.hi ∧ f.hi < 64) ∧ fs.Pairwise fun f g => g.hi < f.lo

theorem rowsApart_fields (r : RegName) : rowsApart (RegName.fields r) := by
  unfold rowsApart
  cases r <;> decide

/-- What a write of `x` leaves in a field that holds `o` (R8, R10). -/
def FieldRow.written (f : FieldRow) (o x : Nat) : Nat :=
  match f.acc with
  | .RW => if FieldRow.defined f x then x else o
  | .W1C => o - (o &&& x)
  | .W1S => o ||| x
  | _ => o

theorem get_writeField_self {r : RegName} {f : FieldRow} (hf : Fld.fits (rowFld r f) = true) (v acc : W64) :
    Fld.get (rowFld r f) (writeField r v acc f) =
      FieldRow.written f (Fld.get (rowFld r f) acc) (Fld.get (rowFld r f) v) := by
  have ho := Fld.get_lt (rowFld r f) acc
  have hx := Fld.get_lt (rowFld r f) v
  have put : ∀ n, n < Fld.bound (rowFld r f) → Fld.get (rowFld r f) (Fld.put (rowFld r f) acc n) = n :=
    fun n hn => by rw [Fld.get_put_self hf, Nat.mod_eq_of_lt hn]
  unfold writeField FieldRow.written
  rw [← rowFld]
  cases f.acc with
  | RW =>
    dsimp only
    split
    · exact put _ hx
    · rfl
  | W1C => exact put _ (by omega)
  | W1S => exact put _ (Nat.or_lt_two_pow ho hx)
  | RO | WO | RC | RSV => rfl

theorem get_writeField_apart {r : RegName} {f : FieldRow} {d : Fld} (hf : Fld.fits (rowFld r f) = true)
    (h : f.hi < d.lo ∨ d.hi < f.lo) (v acc : W64) : Fld.get d (writeField r v acc f) = Fld.get d acc := by
  have put : ∀ n, Fld.get d (Fld.put (rowFld r f) acc n) = Fld.get d acc := Fld.get_put_apart hf h acc
  unfold writeField
  rw [← rowFld]
  cases f.acc with
  | RW =>
    dsimp only
    split
    · exact put _
    · rfl
  | W1C => exact put _
  | W1S => exact put _
  | RO | WO | RC | RSV => rfl

theorem fits_rowFld {r : RegName} {f : FieldRow} (hf : f.lo ≤ f.hi ∧ f.hi < 64) : Fld.fits (rowFld r f) = true :=
  (Fld.fits_iff _).mpr hf

theorem get_foldl_writeField_apart {r : RegName} {fs : List FieldRow} {d : Fld}
    (hfs : ∀ f ∈ fs, f.lo ≤ f.hi ∧ f.hi < 64) (h : ∀ f ∈ fs, f.hi < d.lo) (v acc : W64) :
    Fld.get d (fs.foldl (writeField r v) acc) = Fld.get d acc := by
  induction fs generalizing acc with
  | nil => rfl
  | cons g fs ih =>
    obtain ⟨hg, hfs⟩ := List.forall_mem_cons.mp hfs
    obtain ⟨hgd, h⟩ := List.forall_mem_cons.mp h
    rw [List.foldl_cons, ih hfs h, get_writeField_apart (fits_rowFld hg) (Or.inl hgd)]

/-- Each field of a register is written by its own row alone. -/
theorem get_foldl_writeField {r : RegName} {fs : List FieldRow} (hfs : rowsApart fs) {f : FieldRow} (hf : f ∈ fs)
    (v acc : W64) :
    Fld.get (rowFld r f) (fs.foldl (writeField r v) acc) =
      FieldRow.written f (Fld.get (rowFld r f) acc) (Fld.get (rowFld r f) v) := by
  obtain ⟨hfit, hsep⟩ := hfs
  induction fs generalizing acc with
  | nil => exact absurd hf List.not_mem_nil
  | cons g fs ih =>
    obtain ⟨hg, hrest⟩ := List.forall_mem_cons.mp hfit
    obtain ⟨hbelow, hseps⟩ := List.pairwise_cons.mp hsep
    rw [List.foldl_cons]
    rcases List.mem_cons.mp hf with rfl | hf
    · rw [get_foldl_writeField_apart hrest hbelow, get_writeField_self (fits_rowFld hg)]
    · rw [ih hf _ hrest hseps, get_writeField_apart (fits_rowFld hg) (Or.inr (hbelow f hf))]

theorem get_writeValue {r : RegName} {f : FieldRow} (hf : f ∈ RegName.fields r) (old v : W64) :
    Fld.get (rowFld r f) (writeValue r old v) =
      FieldRow.written f (Fld.get (rowFld r f) old) (Fld.get (rowFld r f) v) :=
  get_foldl_writeField (rowsApart_fields r) hf v old

/-- Settles O10: the rows of a register map lie apart, so that each field is written by its own row alone. -/
theorem registerWritesFollowTheAccessCodes : Obligations.RegisterWritesFollowTheAccessCodes := by
  unfold Obligations.RegisterWritesFollowTheAccessCodes
  intro r old v f hf
  exact (get_writeValue hf old v).trans (by unfold FieldRow.written; cases f.acc <;> rfl)

/-- Settles O9: State.reset stores no register copy, so that each reads as its reset value. -/
theorem resetLeavesEveryRegisterAtItsResetValue : Obligations.ResetLeavesEveryRegisterAtItsResetValue := by
  unfold Obligations.ResetLeavesEveryRegisterAtItsResetValue
  exact ⟨fun _ _ _ => rfl, rfl, rfl, rfl, rfl, rfl, rfl, by decide⟩

end Sys2Proof.Machine
end

section
/-! Accesses of a register: writes and reads of its width, those of another width, and snapshots (R7 to R9, R72, R319). -/

namespace Sys2Proof.Machine

/-! ### The newest record of the error log (R320, R321) -/

@[simp] theorem State.errLog_errIrq (cls : Nat) (s : State) : (s.errIrq cls).ras.errLog = s.ras.errLog := by
  unfold State.errIrq
  split
  · split <;> rfl
  · rfl

theorem State.errLog_writeErr (e : ErrRec) (s : State) :
    (s.writeErr e).ras.errLog = ({ e with seq := s.fld fEL_SEQ_NEXT 0 0 } :: s.ras.errLog).take 8192 := by
  unfold State.writeErr
  rw [State.errLog_errIrq]
  split <;> rfl

/-- An occurrence of a class below 4 whose window is not open is written to the log at once (R320). -/
theorem State.errLog_log_opens {e : ErrRec} {s : State} (hcls : e.cls < 4)
    (hwin : s.ras.errWins.find? (ErrWin.hasKey · e.srcKind e.srcNum e.code) = none) :
    (s.log e).ras.errLog =
      ({ e with time := s.now, seq := s.fld fEL_SEQ_NEXT 0 0 } :: s.ras.errLog).take 8192 := by
  unfold State.log State.logSeq
  simp only [if_neg (Nat.not_le.mpr hcls), hwin]
  rw [State.errLog_writeErr]
  rfl

/-- ACCESS_WIDTH, logged in a new window, is the newest record. -/
theorem State.newest_badWidth {s : State} (hwin : s.ras.errWins.find? (ErrWin.hasKey · 4 0 1) = none) (w : Nat) (loc : W64) :
    ((s.badWidth w loc).ras.errLog.head?.map (·.code)) = some 1 := by
  have hlog := State.errLog_log_opens (e := mkErr 0x0001 4 0 loc.toNat w 0 0) (show errClass 0x0001 < 4 by decide) hwin
  rw [State.badWidth, hlog]
  rfl

theorem State.badWidth_frame (w : Nat) (loc : W64) (s : State) : Frame [.out, .ras] logRegs s (s.badWidth w loc) :=
  (State.badWidth_keeps w loc s).frame (by decide +kernel)

/-! ### Writes and reads of a register (R7, R8) -/

/-- Every case of a write but the last is that of a register with a rule of its own. -/
theorem State.writeAny_of_not_ownRule {r : RegName} (h : r ∉ ownRule) (i j : Nat) (v loc : W64) (s : State) :
    s.writeAny r i j v loc = s.writeReg r i j v := by
  unfold State.writeAny
  split <;> simp [ownRule] at h
  rfl

theorem State.registerWritten_of_not_ownRule {r : RegName} (h : r ∉ ownRule) {w : Nat} (hw : r = .HQ_MB_REQ → w = 32)
    (i j : Nat) (v loc : W64) (s : State) : s.registerWritten r i j w v loc = s.writeReg r i j v := by
  have hctl : r ≠ .HQ_MB_CTL := fun e => h (e ▸ by decide)
  have hreq : ¬(r = .HQ_MB_REQ ∧ w = 64) := fun ⟨e, e'⟩ => absurd (hw e) (by omega)
  rw [State.registerWritten, if_neg fun e => hctl e.1, if_neg hreq, State.writeAny_of_not_ownRule h]

/-! ### Snapshots (R72) -/

/-- The snapshot registers. -/
def snapRegs : List RegName := [.BD_SNAP, .SE_SNAP, .GE_SNAP, .CF_SNAP, .XT_SNAP, .TN_ACC_SNAP]

theorem mem_copiesAt {rs : List RegName} {i : Nat} {q : RegName} {a b : Nat} (h : (q, a, b) ∈ copiesAt rs i) : q ∈ rs := by
  simp only [copiesAt, List.mem_flatMap, List.mem_map, Prod.mk.injEq] at h
  obtain ⟨x, hx, -, -, rfl, -⟩ := h
  exact hx

/-- No snapshot captures a snapshot register. -/
theorem State.snapped_not_snapReg {s : State} {r : RegName} {i : Nat} {q : RegName} {a b : Nat}
    (h : (q, a, b) ∈ s.snapped r i) : q ∉ snapRegs := by
  have hnone : ∀ {rs : List RegName} {k : Nat}, (rs.all fun x => x ∉ snapRegs) = true → (q, a, b) ∈ copiesAt rs k →
      q ∉ snapRegs := fun hall hq => of_decide_eq_true (List.all_eq_true.mp hall q (mem_copiesAt hq))
  unfold State.snapped at h
  split at h
  · rcases List.mem_append.mp h with h | h
    · exact hnone (by decide) h
    · exact hnone (by decide) h
  · exact hnone (by decide) h
  · exact hnone (by decide) h
  · exact hnone (by decide) h
  · exact hnone (by decide) h
  · exact hnone (by decide) h
  · exact absurd h List.not_mem_nil

/-- What a snapshot captures depends on no register but the tenant that TN_ACC_SNAP names. -/
theorem State.snapped_congr {s t : State} (h : t.fld fTN_ACC_SNAP_TENANT 0 0 = s.fld fTN_ACC_SNAP_TENANT 0 0)
    (r : RegName) (i : Nat) : t.snapped r i = s.snapped r i := by
  unfold State.snapped
  rw [h]

theorem regKey_inj {x y : RegName × Nat × Nat} (h : regKey x.1 x.2.1 x.2.2 = regKey y.1 y.2.1 y.2.2) : x = y := by
  simp only [regKey, Nat.pair_eq_pair] at h
  obtain ⟨hr, hi, hj⟩ := h
  exact Prod.ext (RegName.ctorIdx_inj hr) (Prod.ext hi hj)

/-- The shadow copy of a register. -/
def State.shadowReg (s : State) (x : RegName × Nat × Nat) : W64 := s.shadowRegs.getD 0 (regKey x.1 x.2.1 x.2.2)

theorem State.shadowReg_setFld (s : State) (f : Fld) (i j n : Nat) (x : RegName × Nat × Nat) :
    (s.setFld f i j n).shadowReg x = s.shadowReg x := rfl

theorem State.shadowReg_captureReg_self (s : State) (x : RegName × Nat × Nat) :
    (s.captureReg x).shadowReg x = s.reg x.1 x.2.1 x.2.2 := Tbl.getD_wr_self _ _ _ _

theorem State.shadowReg_captureReg_ne (s : State) {x y : RegName × Nat × Nat} (h : y ≠ x) :
    (s.captureReg x).shadowReg y = s.shadowReg y := Tbl.getD_wr_ne _ _ _ fun e => h (regKey_inj e)

/-- A captured copy, and one whose shadow copy is already as new, shows what the register holds. -/
theorem State.shadowReg_capture (xs : List (RegName × Nat × Nat)) (s : State) (y : RegName × Nat × Nat)
    (h : y ∈ xs ∨ s.shadowReg y = s.reg y.1 y.2.1 y.2.2) :
    (forEach xs State.captureReg s).shadowReg y = s.reg y.1 y.2.1 y.2.2 := by
  induction xs generalizing s with
  | nil => exact h.resolve_left List.not_mem_nil
  | cons x xs ih =>
    refine ih (s.captureReg x) ?_
    by_cases hy : y = x
    · subst hy
      exact Or.inr (s.shadowReg_captureReg_self y)
    · rcases h with h | h
      · exact Or.inl ((List.mem_cons.mp h).resolve_left hy)
      · exact Or.inr ((s.shadowReg_captureReg_ne hy).trans h)

/-- The state after SNAP: the register written, and its copies captured between two writes of SNAP_DONE. -/
theorem State.writeSnap_of_snap {v : W64} {r : RegName} (h : Fld.get (fSnap r) v = 1) (i : Nat) (s : State) :
    s.writeSnap r i v =
      (forEach ((s.writeReg r i 0 v).snapped r i) State.captureReg ((s.writeReg r i 0 v).setFld (fSnapDone r) i 0 0)).setFld
        (fSnapDone r) i 0 1 := by
  have hten : Fld.apart (fSnapDone r) fTN_ACC_SNAP_TENANT = true :=
    (Fld.apart_iff _ _).mpr (Or.inr (Or.inr (show 7 < 30 by decide)))
  have hsame := (s.writeReg r i 0 v).fld_setFld_apart (f := fSnapDone r) rfl hten i 0 0 0 0
  rw [State.writeSnap]
  simp only [h, if_true, State.snapped_congr hsame]

theorem State.writeSnap_frame {v : W64} {r : RegName} (h : Fld.get (fSnap r) v = 1) (i : Nat) (s : State) :
    Frame [.shadowRegs] [r] s (s.writeSnap r i v) := by
  have hr : (touchSet [.shadowRegs] [r]).testBit (regBit r) = true := by
    rw [testBit_touchSet_reg]; exact decide_eq_true List.mem_cons_self
  have hshadow : (touchSet [.shadowRegs] [r]).testBit (Part.bit .shadowRegs) = true := by
    rw [testBit_touchSet]; rfl
  have hkeeps : Keeps (touchSet [.shadowRegs] [r]) s (s.writeSnap r i v) := by
    rw [State.writeSnap_of_snap h]
    refine Keeps.setFld (Keeps.forEach _ _ (fun x t => ?_) ?_) hr
    · exact Keeps.rfl.shadowRegs hshadow
    · exact (Keeps.rfl.writeReg hr).setFld hr
  exact hkeeps.frame (Nat.and_self _)

theorem State.shadowReg_writeSnap {v : W64} {r : RegName} (hr : r ∈ snapRegs) (h : Fld.get (fSnap r) v = 1) {i : Nat}
    {s : State} {q : RegName} {a b : Nat} (hq : (q, a, b) ∈ (s.writeReg r i 0 v).snapped r i) :
    (s.writeSnap r i v).shadowReg (q, a, b) = s.reg q a b := by
  have hne : q ≠ r := fun e => State.snapped_not_snapReg hq (e ▸ hr)
  rw [State.writeSnap_of_snap h, State.shadowReg_setFld, State.shadowReg_capture _ _ _ (Or.inl hq)]
  exact (State.reg_setReg_other _ hne _ _ _ _ _).trans (State.reg_setReg_other _ hne _ _ _ _ _)

/-- Settles O11, by the access: each clause names the state that its command leaves. -/
theorem registerAccesses : Obligations.RegisterAccesses := by
  unfold Obligations.RegisterAccesses
  refine ⟨?write, ?badWrite, ?readClear, ?read, ?badRead, ?snap⟩
  case write =>
    intro r i j w v loc s hcopy hbar hwidth hr hreq
    show execRegisterWrite r i j w true v loc s = _
    rw [execRegisterWrite, hcopy, hbar, hwidth, State.registerWritten_of_not_ownRule hr hreq]
    rfl
  case badWrite =>
    intro r i j w al v loc s hcopy hbar hwidth hwin
    refine ⟨s.badWidth w loc, ?_, State.newest_badWidth hwin w loc, State.badWidth_frame w loc s⟩
    show execRegisterWrite r i j w al v loc s = _
    rw [execRegisterWrite, hcopy, hbar, hwidth]
    rfl
  case readClear =>
    intro r i j n s hclears hview
    show execReadClear r i j n s = _
    simp only [execReadClear, State.readReg, hclears, hview, Bool.not_true, Bool.false_eq_true, if_false]
  case read =>
    intro r i j n s hclears
    show execReadClear r i j n s = _
    rw [execReadClear, hclears]
    rfl
  case badRead =>
    intro r i j w al loc s hbar hwidth
    have hlog := State.badWidth_keeps w loc { s with readData := 0 }
    refine ⟨State.badWidth w loc { s with readData := 0 }, ?_, ?_, ?_⟩
    · show execAccessWidthRead r i j w al loc s = _
      rw [execAccessWidthRead, hbar, hwidth]
      rfl
    · exact hlog.parts .readData (by decide +kernel)
    · have hread : Keeps (touchSet [.readData] []) s { s with readData := 0 } := Keeps.rfl.readData (by decide)
      exact (Keeps.after (hread.widen (by decide +kernel)) hlog (by decide +kernel)).frame (Nat.and_self _)
  case snap =>
    intro r i v s hv hr
    refine ⟨s.writeSnap r i v, rfl, ?_, State.writeSnap_frame hv i s, fun q a b hq => State.shadowReg_writeSnap hr hv hq⟩
    rw [State.writeSnap_of_snap hv, State.fld_setFld_self _ rfl]
    rfl

end Sys2Proof.Machine
end

section
/-! SUPPORT. What the end of a command does to its context, and the closing of a context whose commands run no job (R241,
R243, R244, R255). -/

namespace Sys2Proof.Machine

/-! ### Contexts of the host side -/

theorem State.ctx_congr {s t : State} (h : t.hq = s.hq) (c : Nat) : t.ctx c = s.ctx c := by
  rw [State.ctx, State.ctx, h]

theorem State.ctx_setFld (s : State) (f : Fld) (i j n c : Nat) : (s.setFld f i j n).ctx c = s.ctx c :=
  State.ctx_congr (s.hq_setFld f i j n) c

/-- On the host side at most context `c` has changed. -/
structure OnlyCtx (c : Nat) (s t : State) : Prop where
  groups : t.hq.groups = s.hq.groups
  others : ∀ d, d ≠ c → t.ctx d = s.ctx d

theorem OnlyCtx.of_hq {c : Nat} {s t : State} (h : t.hq = s.hq) : OnlyCtx c s t :=
  ⟨by rw [h], fun d _ => State.ctx_congr h d⟩

theorem OnlyCtx.trans {c : Nat} {s t u : State} (h : OnlyCtx c s t) (k : OnlyCtx c t u) : OnlyCtx c s u :=
  ⟨k.groups.trans h.groups, fun d hd => (k.others d hd).trans (h.others d hd)⟩

theorem OnlyCtx.setCtx (c : Nat) (x : Ctx) (s : State) : OnlyCtx c s (s.setCtx c x) :=
  ⟨rfl, fun _ hd => s.ctx_setCtx_ne hd x⟩

theorem State.ctxState_setCtx (s : State) (c : Nat) (x : Ctx) (d : Nat) : (s.setCtx c x).ctxState d = s.ctxState d :=
  s.fld_setCtx (by decide) c x d 0

theorem State.ctx_modCtx_self (s : State) (c : Nat) (f : Ctx → Ctx) : (s.modCtx c f).ctx c = f (s.ctx c) :=
  s.ctx_setCtx_self c _

theorem OnlyCtx.modCtx (c : Nat) (f : Ctx → Ctx) (s : State) : OnlyCtx c s (s.modCtx c f) := OnlyCtx.setCtx c _ s

theorem State.fld_modCtx (s : State) {f : Fld} (h : Fld.apart fHQ_CTX_STATUS_IN_FLIGHT f = true) (c : Nat)
    (g : Ctx → Ctx) (a b : Nat) : (s.modCtx c g).fld f a b = s.fld f a b := s.fld_setCtx h c _ a b

theorem State.ctxState_modCtx (s : State) (c : Nat) (f : Ctx → Ctx) (d : Nat) : (s.modCtx c f).ctxState d = s.ctxState d :=
  s.ctxState_setCtx c _ d

/-! ### Completion entries (R243, R244) -/

/-- At most the interrupt counts of context `c` have changed on the host side, and no context's STATE. -/
structure IrqNoted (c : Nat) (s t : State) : Prop where
  only : OnlyCtx c s t
  ctx : ∃ n f, t.ctx c = { s.ctx c with irqCount := n, irqFirst := f }
  state : ∀ d, t.ctxState d = s.ctxState d

theorem IrqNoted.refl (c : Nat) (s : State) : IrqNoted c s s := ⟨OnlyCtx.of_hq rfl, ⟨_, _, rfl⟩, fun _ => rfl⟩

theorem IrqNoted.trans {c : Nat} {s t u : State} (h : IrqNoted c s t) (k : IrqNoted c t u) : IrqNoted c s u := by
  obtain ⟨n, f, hst⟩ := h.ctx
  obtain ⟨n', f', htu⟩ := k.ctx
  exact ⟨h.only.trans k.only, ⟨n', f', by rw [htu, hst]⟩, fun d => (k.state d).trans (h.state d)⟩

theorem IrqNoted.emit (c : Nat) (m : OutMsg) (s : State) : IrqNoted c s (s.emit m) :=
  ⟨OnlyCtx.of_hq rfl, ⟨_, _, rfl⟩, fun _ => rfl⟩

theorem IrqNoted.modCtx (c : Nat) {f : Ctx → Ctx} (s : State)
    (hf : ∃ n t, f (s.ctx c) = { s.ctx c with irqCount := n, irqFirst := t }) : IrqNoted c s (s.modCtx c f) := by
  obtain ⟨n, t, hf⟩ := hf
  exact ⟨OnlyCtx.modCtx c f s, ⟨n, t, (s.ctx_modCtx_self c f).trans hf⟩, s.ctxState_modCtx c f⟩

theorem State.sendIrq_noted (c : Nat) (s : State) : IrqNoted c s (s.sendIrq c) :=
  (IrqNoted.emit c _ s).trans (IrqNoted.modCtx c _ ⟨_, _, rfl⟩)

theorem State.noteIrq_noted (c : Nat) (s : State) : IrqNoted c s (s.noteIrq c) := by
  unfold State.noteIrq
  extract_lets n u
  have hu : IrqNoted c s u := IrqNoted.modCtx c s ⟨_, _, rfl⟩
  split
  · split
    · exact hu.trans (State.sendIrq_noted c u)
    · exact hu
  · exact IrqNoted.refl c s

theorem State.hq_putHost (p a : Nat) (b : List Byte) (s : State) : (s.putHost p a b).hq = s.hq :=
  (State.putHost_keeps p a b s).parts .hq (by decide +kernel)

theorem State.ctxState_putHost (p a : Nat) (b : List Byte) (s : State) (d : Nat) :
    (s.putHost p a b).ctxState d = s.ctxState d := (State.putHost_keeps p a b s).fld (by decide +kernel) d 0

/-- What a written entry does to its context: it is one more completion not yet acknowledged. -/
structure EntryWritten (c : Nat) (d : DoneCmd) (s t : State) : Prop where
  only : OnlyCtx c s t
  cmds : (t.ctx c).cmds = (s.ctx c).cmds
  done : (t.ctx c).done = (s.ctx c).done ++ [d]
  silent : (t.ctx c).silent = (s.ctx c).silent
  state : t.ctxState c = s.ctxState c

theorem State.writeEntry_written (c : Nat) (d : DoneCmd) (s : State) : EntryWritten c d s (s.writeEntry c d) := by
  unfold State.writeEntry
  extract_lets x a u w last y
  have hw : w.hq = s.hq := (State.hq_putHost ..).trans (State.hq_putHost ..)
  have hst : w.ctxState c = s.ctxState c := (State.ctxState_putHost ..).trans (State.ctxState_putHost ..)
  have hbump : IrqNoted c (w.setCtx c y) ((w.setCtx c y).bump .HQ_CPL_WRITTEN 0 0 1) :=
    ⟨OnlyCtx.of_hq (State.hq_bump ..), ⟨_, _, State.ctx_congr (State.hq_bump ..) c⟩,
      fun _ => State.fld_congr (State.reg_setReg_other _ (by decide) ..)⟩
  have hnoted := hbump.trans (State.noteIrq_noted c _)
  obtain ⟨n, f, hctx⟩ := hnoted.ctx
  rw [State.ctx_setCtx_self] at hctx
  refine ⟨(OnlyCtx.of_hq hw).trans ((OnlyCtx.setCtx c y w).trans hnoted.only), ?_, ?_, ?_, ?_⟩
  · rw [hctx]
  · rw [hctx]
  · rw [hctx]
  · rw [hnoted.state, State.ctxState_setCtx, hst]

/-! ### The end of a command on a ring (R241, R243, R255) -/

theorem State.ctx_settleClosing (c : Nat) (s : State) (d : Nat) : (s.settleClosing c).ctx d = s.ctx d :=
  State.ctx_congr ((State.settleClosing_keeps c s).parts .hq (by decide +kernel)) d

theorem OnlyCtx.settleClosing (c : Nat) (s : State) : OnlyCtx c s (s.settleClosing c) :=
  OnlyCtx.of_hq ((State.settleClosing_keeps c s).parts .hq (by decide +kernel))

theorem State.ctxState_settleClosing (c : Nat) (s : State) :
    (s.settleClosing c).ctxState c = if s.ctxState c = 2 ∧ (s.ctx c).cmds = [] then 0 else s.ctxState c := by
  unfold State.settleClosing
  split
  · exact State.fld_setFld_self s (by decide) c 0 0
  · rfl

/-- A context without one of its commands. -/
def Ctx.without (q : Nat) (x : Ctx) : Ctx := { x with cmds := x.cmds.filter fun y => y.seq != q }

/-- What the end of a command touches beside its context: counters, and host memory. -/
def State.result_touch : Nat :=
  touchSet [] [.HQ_CMD_INVALID, .HQ_CMD_POLICED] ||| State.countSearch_touch ||| State.putHost_touch

/-- A command whose context answers through its ring ends with one completion entry. -/
theorem State.finish_ring {s : State} {c q : Nat} {m : Cmd} (hm : s.cmd? c q = some m) (hring : s.toRing c = true) (r : Res) :
    ∃ u, Keeps State.result_touch (s.modCtx c (Ctx.without q)) u ∧
      s.finish c q r = (u.writeEntry c (doneOf m r.settle)).settleClosing c := by
  simp only [State.toRing, Bool.and_eq_true, Bool.not_eq_true'] at hring
  obtain ⟨hfab, hsil⟩ := hring
  unfold State.finish
  split
  · next hnone => rw [hm] at hnone; cases hnone
  · next m' hsome =>
    obtain rfl : m = m' := Option.some.inj (hm.symm.trans hsome)
    extract_lets r' u u1 u2 v
    have hcount : Keeps State.result_touch u u2 :=
      have hpol : Keeps _ u u1 := Keeps.ite (Keeps.bump Keeps.rfl (by decide +kernel)) Keeps.rfl
      Keeps.ite (Keeps.bump hpol (by decide +kernel)) hpol
    have hctx : u2.ctx c = Ctx.without q (s.ctx c) :=
      (State.ctx_congr (hcount.parts .hq (by decide +kernel)) c).trans (s.ctx_modCtx_self c _)
    have hsil2 : ¬(u2.ctx c).silent = true := by rw [hctx]; exact ne_true_of_eq_false hsil
    have hfab2 : ¬u2.isFabric c = true := by
      rw [State.isFabric, State.isOn, hcount.fld (by decide +kernel), State.fld_modCtx _ (by decide)]
      exact ne_true_of_eq_false hfab
    refine ⟨_, ?_, congrArg (State.settleClosing c) ((if_neg hsil2).trans (if_neg hfab2))⟩
    have hsearch : Keeps State.result_touch u (State.countSearch c m r' u2) :=
      hcount.after (State.countSearch_keeps ..) (by decide +kernel)
    refine Keeps.ite hsearch ?_
    refine Keeps.after ?_ (State.putHost_keeps ..) (by decide +kernel)
    refine Keeps.after ?_ (State.putHost_keeps ..) (by decide +kernel)
    exact Keeps.after hsearch (State.putHost_keeps ..) (by decide +kernel)

/-- What the end of the command `m` with a result does to its context. -/
structure CmdEnded (c : Nat) (m : Cmd) (r : Res) (s t : State) : Prop where
  only : OnlyCtx c s t
  cmds : (t.ctx c).cmds = (s.ctx c).cmds.filter fun y => y.seq != m.seq
  done : (t.ctx c).done = (s.ctx c).done ++ [doneOf m r.settle]
  silent : (t.ctx c).silent = (s.ctx c).silent
  state : t.ctxState c = if s.ctxState c = 2 ∧ (t.ctx c).cmds = [] then 0 else s.ctxState c

theorem State.finish_ended {s : State} {c : Nat} {m : Cmd} (hm : s.cmd? c m.seq = some m) (hring : s.toRing c = true)
    (r : Res) : CmdEnded c m r s (s.finish c m.seq r) := by
  obtain ⟨u, hu, hfin⟩ := State.finish_ring hm hring r
  have hw := State.writeEntry_written c (doneOf m r.settle) u
  have hhq := hu.parts .hq (by decide +kernel)
  have hctx : u.ctx c = Ctx.without m.seq (s.ctx c) := (State.ctx_congr hhq c).trans (s.ctx_modCtx_self c _)
  have hst : u.ctxState c = s.ctxState c := (hu.fld (by decide +kernel) c 0).trans (s.ctxState_modCtx c _ c)
  rw [hfin]
  refine ⟨?_, ?_, ?_, ?_, ?_⟩
  · exact (OnlyCtx.modCtx c _ s).trans ((OnlyCtx.of_hq hhq).trans (hw.only.trans (OnlyCtx.settleClosing c _)))
  · rw [State.ctx_settleClosing, hw.cmds, hctx, Ctx.without]
  · rw [State.ctx_settleClosing, hw.done, hctx, Ctx.without]
  · rw [State.ctx_settleClosing, hw.silent, hctx, Ctx.without]
  · rw [State.ctx_settleClosing, State.ctxState_settleClosing, hw.state, hst]

/-! ### Closing a context (R241) -/

/-- No group command, update, query or table batch runs for the fetched command with this number. -/
def State.noJob (s : State) (q : Nat) : Prop :=
  s.group? q = none ∧ s.job? q = none ∧ s.query q = none ∧ s.tbl.tblJobs.find? (·.seq == q) = none

theorem State.tearCmd_of_noJob {s : State} {q : Nat} (h : s.noJob q) (c status : Nat) :
    s.tearCmd c q status = s.finish c q (Res.of status) := by
  obtain ⟨hgroup, hjob, hquery, htbl⟩ := h
  simp only [State.tearCmd, hgroup, hjob, hquery, htbl, Option.isSome_none, Bool.false_eq_true, if_false]

theorem State.noJob_congr {s t : State} {q : Nat} (hgroups : t.hq.groups = s.hq.groups) (hidx : t.idx = s.idx)
    (hqry : t.qry = s.qry) (htbl : t.tbl = s.tbl) (h : s.noJob q) : t.noJob q := by
  unfold State.noJob State.group? State.job? State.query at h ⊢
  rw [hgroups, hidx, hqry, htbl]
  exact h

theorem State.noJob_finish {s : State} {c : Nat} {m : Cmd} {r : Res} (h : CmdEnded c m r s (s.finish c m.seq r)) {q : Nat}
    (hq : s.noJob q) : (s.finish c m.seq r).noJob q :=
  have hk := State.finish_keeps c m.seq r s
  State.noJob_congr h.only.groups (hk.parts .idx (by decide +kernel)) (hk.parts .qry (by decide +kernel))
    (hk.parts .tbl (by decide +kernel)) hq

/-- A context on its way to CLOSED: its completions go to its ring, and no job runs for any of its commands `ms`. -/
structure Closing (c : Nat) (ms : List Cmd) (s : State) : Prop where
  cmds : (s.ctx c).cmds = ms
  nodup : (ms.map (·.seq)).Nodup
  ring : s.toRing c = true
  noJob : ∀ m ∈ ms, s.noJob m.seq
  state : s.ctxState c = 2 ∨ s.ctxState c = 0

/-- One command of a closing context torn down. -/
theorem Closing.finish_head {c : Nat} {m : Cmd} {ms : List Cmd} {s : State} (h : Closing c (m :: ms) s) (r : Res) :
    CmdEnded c m r s (s.finish c m.seq r) ∧ Closing c ms (s.finish c m.seq r) := by
  obtain ⟨hne, hnodup⟩ := List.nodup_cons.mp h.nodup
  have hm : s.cmd? c m.seq = some m := by rw [State.cmd?, h.cmds, List.find?_cons_of_pos (by exact beq_self_eq_true _)]
  have hend := State.finish_ended hm h.ring r
  have hcmds : ((s.finish c m.seq r).ctx c).cmds = ms := by
    rw [hend.cmds, h.cmds, List.filter_cons_of_neg (by simp), List.filter_eq_self]
    exact fun y hy => bne_iff_ne.mpr fun e => hne (List.mem_map.mpr ⟨y, hy, e⟩)
  refine ⟨hend, hcmds, hnodup, ?_, fun y hy => State.noJob_finish hend (h.noJob y (List.mem_cons_of_mem _ hy)), ?_⟩
  · have hfab : (s.finish c m.seq r).isFabric c = s.isFabric c :=
      congrArg (· == 1) ((State.finish_keeps c m.seq r s).fld (by decide +kernel) c 0)
    rw [State.toRing, hfab, hend.silent]
    exact h.ring
  · rw [hend.state]
    split
    · exact Or.inr rfl
    · exact h.state

/-- The commands of a closing context torn down: each has completed with the status given. -/
theorem Closing.tearAll {c : Nat} {ms : List Cmd} {s : State} (h : Closing c ms s) (status : Nat) :
    Closing c [] (s.tearAll c status) ∧ OnlyCtx c s (s.tearAll c status) ∧
      ((s.tearAll c status).ctx c).done = (s.ctx c).done ++ ms.map fun m => doneOf m (Res.of status).settle := by
  rw [State.tearAll, h.cmds]
  induction ms generalizing s with
  | nil => exact ⟨h, OnlyCtx.of_hq rfl, (List.append_nil _).symm⟩
  | cons m ms ih =>
    obtain ⟨hend, hnext⟩ := h.finish_head (Res.of status)
    obtain ⟨hclosing, honly, hdone⟩ := ih hnext
    rw [← State.tearCmd_of_noJob (h.noJob m List.mem_cons_self) c status] at hclosing honly hdone hend
    refine ⟨hclosing, hend.only.trans honly, hdone.trans ?_⟩
    rw [hend.done, List.append_assoc]
    rfl

end Sys2Proof.Machine
end

section
/-! Opening and closing a context: writes of HQ_CTX_CTL, and the context they leave (R10, R240, R241). -/

namespace Sys2Proof.Machine

/-! ### Writes of HQ_CTX_CTL (R10, R240) -/

/-- The part of a write of HQ_CTX_CTL that concerns the ring sizes. -/
def State.writeCtlSizes (c : Nat) (v loc : W64) (s : State) : State :=
  let new := s.nextCtl c v
  if s.ctxState c == 0 || s.ctxState c == 3 then
    (s.setFld fHQ_CTX_CTL_CQ_SZ c 0 (Fld.get fHQ_CTX_CTL_CQ_SZ new)).setFld fHQ_CTX_CTL_SQ_SZ c 0
      (Fld.get fHQ_CTX_CTL_SQ_SZ new)
  else if Fld.get fHQ_CTX_CTL_SQ_SZ new == s.fld fHQ_CTX_CTL_SQ_SZ c 0
    && Fld.get fHQ_CTX_CTL_CQ_SZ new == s.fld fHQ_CTX_CTL_CQ_SZ c 0 then s
  else s.discard loc v

/-- A write of HQ_CTX_CTL writes its ring sizes, then its four interrupt fields. -/
theorem State.writeCtxCtl_eq (c : Nat) (v loc : W64) (s : State) :
    s.writeCtxCtl c v loc =
      ((((s.writeCtlSizes c v loc).setFld fHQ_CTX_CTL_COAL_US8 c 0 (Fld.get fHQ_CTX_CTL_COAL_US8 (s.nextCtl c v))).setFld
        fHQ_CTX_CTL_COAL_COUNT c 0 (Fld.get fHQ_CTX_CTL_COAL_COUNT (s.nextCtl c v))).setFld
        fHQ_CTX_CTL_VECTOR c 0 (Fld.get fHQ_CTX_CTL_VECTOR (s.nextCtl c v))).setFld
        fHQ_CTX_CTL_IRQ_EN c 0 (Fld.get fHQ_CTX_CTL_IRQ_EN (s.nextCtl c v)) := rfl

theorem State.fld_writeCtlSizes_open (c : Nat) (v loc : W64) (s : State) :
    (s.writeCtlSizes c v loc).fld fHQ_CTX_CTL_OPEN c 0 = s.fld fHQ_CTX_CTL_OPEN c 0 := by
  unfold State.writeCtlSizes
  extract_lets new
  split
  · rw [State.fld_setFld_apart _ (by decide) (by decide), State.fld_setFld_apart _ (by decide) (by decide)]
  · split
    · rfl
    · exact (State.discard_keeps loc v s).fld (by decide +kernel) c 0

/-- The interrupt fields of HQ_CTX_CTL. -/
def ctlIrqFlds : List Fld :=
  [fHQ_CTX_CTL_COAL_US8, fHQ_CTX_CTL_COAL_COUNT, fHQ_CTX_CTL_VECTOR, fHQ_CTX_CTL_IRQ_EN]

/-- A field apart from the interrupt fields reads as the ring sizes' part of the write leaves it. -/
theorem State.fld_writeCtxCtl_apart {f : Fld} (hf : ∀ g ∈ ctlIrqFlds, Fld.apart g f = true) (c : Nat) (v loc : W64)
    (s : State) : (s.writeCtxCtl c v loc).fld f c 0 = (s.writeCtlSizes c v loc).fld f c 0 := by
  rw [State.writeCtxCtl_eq, State.fld_setFld_apart _ (by decide) (hf _ (by decide)),
    State.fld_setFld_apart _ (by decide) (hf _ (by decide)), State.fld_setFld_apart _ (by decide) (hf _ (by decide)),
    State.fld_setFld_apart _ (by decide) (hf _ (by decide))]

theorem State.fld_writeCtxCtl_open (c : Nat) (v loc : W64) (s : State) :
    (s.writeCtxCtl c v loc).fld fHQ_CTX_CTL_OPEN c 0 = s.fld fHQ_CTX_CTL_OPEN c 0 := by
  rw [State.fld_writeCtxCtl_apart (by decide), State.fld_writeCtlSizes_open]

theorem State.fld_writeCtxCtl_irqEn (c : Nat) (v loc : W64) (s : State) :
    (s.writeCtxCtl c v loc).fld fHQ_CTX_CTL_IRQ_EN c 0 = Fld.get fHQ_CTX_CTL_IRQ_EN v := by
  rw [State.writeCtxCtl_eq, State.fld_setFld_get _ (by decide)]
  exact get_writeValue (r := .HQ_CTX_CTL) (f := ⟨22, 22, .RW, 0, []⟩) (by decide) _ v

theorem State.fld_writeCtxCtl_vector (c : Nat) (v loc : W64) (s : State) :
    (s.writeCtxCtl c v loc).fld fHQ_CTX_CTL_VECTOR c 0 = Fld.get fHQ_CTX_CTL_VECTOR v := by
  rw [State.writeCtxCtl_eq, State.fld_setFld_apart _ (by decide) (by decide), State.fld_setFld_get _ (by decide)]
  exact get_writeValue (r := .HQ_CTX_CTL) (f := ⟨21, 14, .RW, 0, []⟩) (by decide) _ v

/-- A ring size of 13 to 15 is reserved and leaves its field as it was (R10). -/
theorem FieldRow.written_ringSize (hi lo o x : Nat) :
    FieldRow.written ⟨hi, lo, .RW, 0, [(0, 12)]⟩ o x = if x ≤ 12 then x else o := by
  simp [FieldRow.written, FieldRow.defined]

/-- On a CLOSED context the ring sizes are written. -/
theorem State.writeCtlSizes_closed {c : Nat} {s : State} (h : s.ctxState c = 0) (v loc : W64) :
    s.writeCtlSizes c v loc =
      (s.setFld fHQ_CTX_CTL_CQ_SZ c 0 (Fld.get fHQ_CTX_CTL_CQ_SZ (s.nextCtl c v))).setFld fHQ_CTX_CTL_SQ_SZ c 0
        (Fld.get fHQ_CTX_CTL_SQ_SZ (s.nextCtl c v)) := by
  rw [State.writeCtlSizes, h]
  rfl

theorem State.fld_writeCtxCtl_sqSize {c : Nat} {s : State} (h : s.ctxState c = 0) (v loc : W64) :
    (s.writeCtxCtl c v loc).fld fHQ_CTX_CTL_SQ_SZ c 0 =
      if Fld.get fHQ_CTX_CTL_SQ_SZ v ≤ 12 then Fld.get fHQ_CTX_CTL_SQ_SZ v else s.fld fHQ_CTX_CTL_SQ_SZ c 0 := by
  rw [State.fld_writeCtxCtl_apart (by decide), State.writeCtlSizes_closed h, State.fld_setFld_get _ (by decide)]
  exact (get_writeValue (r := .HQ_CTX_CTL) (f := ⟨30, 27, .RW, 0, [(0, 12)]⟩) (by decide) _ v).trans
    (FieldRow.written_ringSize 30 27 _ _)

theorem State.fld_writeCtxCtl_cqSize {c : Nat} {s : State} (h : s.ctxState c = 0) (v loc : W64) :
    (s.writeCtxCtl c v loc).fld fHQ_CTX_CTL_CQ_SZ c 0 =
      if Fld.get fHQ_CTX_CTL_CQ_SZ v ≤ 12 then Fld.get fHQ_CTX_CTL_CQ_SZ v else s.fld fHQ_CTX_CTL_CQ_SZ c 0 := by
  rw [State.fld_writeCtxCtl_apart (by decide), State.writeCtlSizes_closed h, State.fld_setFld_apart _ (by decide) (by decide),
    State.fld_setFld_get _ (by decide)]
  exact (get_writeValue (r := .HQ_CTX_CTL) (f := ⟨26, 23, .RW, 0, [(0, 12)]⟩) (by decide) _ v).trans
    (FieldRow.written_ringSize 26 23 _ _)

theorem State.hq_writeCtxCtl (c : Nat) (v loc : W64) (s : State) : (s.writeCtxCtl c v loc).hq = s.hq :=
  (State.writeCtxCtl_keeps c v loc s).parts .hq (by decide +kernel)

theorem State.ctxState_writeCtxCtl (c : Nat) (v loc : W64) (s : State) (d : Nat) :
    (s.writeCtxCtl c v loc).ctxState d = s.ctxState d := (State.writeCtxCtl_keeps c v loc s).fld (by decide +kernel) d 0

/-! ### Opening a context (R240) -/

/-- No fate and no marker is owed to the context: there is nothing to write (R257, R258). -/
theorem State.writeFates_nothing {c : Nat} {s : State} (hfates : (s.ctx c).fates = []) (hmarker : (s.ctx c).marker = none)
    (n : Nat) : s.writeFates c n = s := by
  cases n with
  | zero => rfl
  | succ n =>
    simp only [State.writeFates, hfates, hmarker]
    exact ite_self _

/-- An OPEN context as CONTEXT_OPEN leaves it: pointers at zero, phase at one, a fresh key and no command. -/
def State.freshCtx (s : State) (c : Nat) : Ctx := { key := Config.contextKey s.freeCount, irqFirst := (s.ctx c).irqFirst }

/-- The context opened, once HQ_CTX_CTL is written. -/
def State.enterOpen (c : Nat) (s : State) : State :=
  ((s.setFld fHQ_CTX_CTL_OPEN c 0 1).setCtx c (s.freshCtx c)).draw.setFld fHQ_CTX_STATUS_STATE c 0 1

theorem State.ctx_enterOpen_self (c : Nat) (s : State) : (s.enterOpen c).ctx c = s.freshCtx c := by
  rw [State.enterOpen, State.ctx_setFld, State.ctx_congr (State.hq_draw _), State.ctx_setCtx_self]

theorem State.ctx_enterOpen_ne {c d : Nat} (h : d ≠ c) (s : State) : (s.enterOpen c).ctx d = s.ctx d := by
  rw [State.enterOpen, State.ctx_setFld, State.ctx_congr (State.hq_draw _), State.ctx_setCtx_ne _ h,
    State.ctx_setFld]

theorem State.ctxState_enterOpen (c : Nat) (s : State) : (s.enterOpen c).ctxState c = 1 := by
  rw [State.enterOpen, State.ctxState, State.fld_setFld_self _ (by decide)]
  decide

theorem State.fld_enterOpen (c : Nat) (s : State) {f : Fld} (hstate : Fld.apart fHQ_CTX_STATUS_STATE f = true)
    (hcount : Fld.apart fHQ_CTX_STATUS_IN_FLIGHT f = true) (i j : Nat) :
    (s.enterOpen c).fld f i j = (s.setFld fHQ_CTX_CTL_OPEN c 0 1).fld f i j := by
  rw [State.enterOpen, State.fld_setFld_apart _ (by decide) hstate, State.fld_of_regs (State.regs_draw _),
    State.fld_setCtx _ hcount]

/-- CONTEXT_OPEN on a CLOSED context that may open. -/
theorem execContextOpen_opens {c : Nat} {v loc : W64} {s : State} (hclosed : s.ctxState c = 0)
    (hreach : s.reaches .HQ_CTX_CTL c loc = true)
    (hok : s.mode = 1 ∧ s.isOn fHQ_CTX_BIND_V c 0 = true ∧ ringsOk (s.nextCtl c v) = true) :
    ∃ g, execContextOpen c v loc s = .next (((s.writeCtxCtl c v loc).enterOpen c).settleTake g) := by
  refine ⟨(State.setCtx c ((s.writeCtxCtl c v loc).freshCtx c)
    ((s.writeCtxCtl c v loc).setFld fHQ_CTX_CTL_OPEN c 0 1)).fld fHQ_CTX_BIND_CG c 0, ?_⟩
  obtain ⟨hmode, hbound, hrings⟩ := hok
  have hmode : (s.fld fHQ_START_STATUS_MODE 0 0 == 1) = true := beq_iff_eq.mpr hmode
  simp only [execContextOpen, hreach, hclosed, hmode, hbound, hrings, Bool.not_true, Bool.false_eq_true, if_false,
    true_or, if_true, Bool.and_self, show ¬(0 = 3) by decide]
  rw [State.writeFates_nothing]
  · rw [State.enterOpen, State.freshCtx, State.freeCount_setFld, State.ctx_setFld]
  · rw [State.ctx_setFld, State.ctx_congr (State.hq_draw _), State.ctx_setCtx_self]
  · rw [State.ctx_setFld, State.ctx_congr (State.hq_draw _), State.ctx_setCtx_self]

/-- CONTEXT_OPEN on a CLOSED context that may not open. -/
theorem execContextOpen_discards {c : Nat} {v loc : W64} {s : State} (hclosed : s.ctxState c = 0)
    (hreach : s.reaches .HQ_CTX_CTL c loc = true)
    (hbad : ¬(s.mode = 1 ∧ s.isOn fHQ_CTX_BIND_V c 0 = true ∧ ringsOk (s.nextCtl c v) = true)) :
    execContextOpen c v loc s = .next ((s.writeCtxCtl c v loc).discard loc v) := by
  have hbad : ¬(s.fld fHQ_START_STATUS_MODE 0 0 == 1 && s.isOn fHQ_CTX_BIND_V c 0 && ringsOk (s.nextCtl c v)) = true := by
    rw [Bool.and_eq_true, Bool.and_eq_true, beq_iff_eq, and_assoc]
    exact hbad
  simp only [execContextOpen, hreach, hclosed, Bool.not_true, Bool.false_eq_true, if_false, true_or, if_true, hbad]

theorem execContextOpen_unreached {c : Nat} {loc : W64} {s : State} (h : s.reaches .HQ_CTX_CTL c loc = false) (v : W64) :
    execContextOpen c v loc s = .next s := by
  simp only [execContextOpen, h, Bool.not_false, if_true]

theorem execContextClose_unreached {c : Nat} {loc : W64} {s : State} (h : s.reaches .HQ_CTX_CTL c loc = false) (v : W64) :
    execContextClose c v loc s = .next s := by
  simp only [execContextClose, h, Bool.false_eq_true, if_false]

/-! ### Closing an OPEN context (R241) -/

/-- A context that leaves OPEN: its STATE is CLOSING and its OPEN 0. -/
def State.leaveOpen (c : Nat) (s : State) : State := (s.setFld fHQ_CTX_STATUS_STATE c 0 2).setFld fHQ_CTX_CTL_OPEN c 0 0

theorem State.closeCtx_of_open {c : Nat} {s : State} (h : s.ctxState c = 1) :
    s.closeCtx c = ((s.leaveOpen c).tearAll c stTornDown).settleClosing c := by
  rw [State.closeCtx, if_pos h]
  rfl

theorem State.leaveOpen_keeps (c : Nat) (s : State) :
    Keeps (touchSet [] [.HQ_CTX_CTL, .HQ_CTX_STATUS]) s (s.leaveOpen c) :=
  Keeps.setFld (Keeps.setFld Keeps.rfl (by decide +kernel)) (by decide +kernel)

theorem State.ctx_leaveOpen (c : Nat) (s : State) (d : Nat) : (s.leaveOpen c).ctx d = s.ctx d :=
  State.ctx_congr ((s.leaveOpen_keeps c).parts .hq (by decide +kernel)) d

theorem State.fld_leaveOpen_open (c : Nat) (s : State) : (s.leaveOpen c).fld fHQ_CTX_CTL_OPEN c 0 = 0 := by
  rw [State.leaveOpen, State.fld_setFld_self _ (by decide), Nat.zero_mod]

/-- A context whose commands run no job is, once it leaves OPEN, on its way to CLOSED. -/
theorem State.leaveOpen_closing {c : Nat} {s : State} (hring : s.toRing c = true)
    (hnodup : ((s.ctx c).cmds.map (·.seq)).Nodup) (hjob : ∀ m ∈ (s.ctx c).cmds, s.noJob m.seq) :
    Closing c (s.ctx c).cmds (s.leaveOpen c) := by
  have hkeeps := s.leaveOpen_keeps c
  have hfab : (s.leaveOpen c).isFabric c = s.isFabric c := by
    rw [State.isFabric, State.isOn, hkeeps.fld (by decide +kernel), State.isFabric, State.isOn]
  refine ⟨by rw [State.ctx_leaveOpen], hnodup, ?_, ?_, Or.inl ?_⟩
  · rw [State.toRing, hfab, State.ctx_leaveOpen]
    exact hring
  · exact fun m hm => State.noJob_congr (by rw [hkeeps.parts .hq (by decide +kernel)])
      (hkeeps.parts .idx (by decide +kernel)) (hkeeps.parts .qry (by decide +kernel))
      (hkeeps.parts .tbl (by decide +kernel)) (hjob m hm)
  · rw [State.leaveOpen, State.ctxState, State.fld_setFld_apart _ (by decide) (by decide), State.fld_setFld_self _ (by decide)]
    decide

/-- What closing an OPEN context leaves. -/
structure Closed (c : Nat) (s t : State) : Prop where
  state : t.ctxState c = 0
  off : t.isOn fHQ_CTX_CTL_OPEN c 0 = false
  cmds : (t.ctx c).cmds = []
  done : (t.ctx c).done = (s.ctx c).done ++ (s.ctx c).cmds.map fun m => doneOf m (Res.of stTornDown).settle
  only : OnlyCtx c s t

theorem State.closeCtx_closed {c : Nat} {s : State} (hopen : s.ctxState c = 1) (hring : s.toRing c = true)
    (hnodup : ((s.ctx c).cmds.map (·.seq)).Nodup) (hjob : ∀ m ∈ (s.ctx c).cmds, s.noJob m.seq) :
    Closed c s (s.closeCtx c) := by
  have hclosing := State.leaveOpen_closing hring hnodup hjob
  have htear := (State.tearAll_keeps c stTornDown (s.leaveOpen c)).fld (f := fHQ_CTX_CTL_OPEN) (by decide +kernel) c 0
  obtain ⟨hend, honly, hdone⟩ := hclosing.tearAll stTornDown
  rw [State.closeCtx_of_open hopen]
  refine ⟨?_, ?_, ?_, ?_, ?_⟩
  · rw [State.ctxState_settleClosing]
    split
    · rfl
    · next h => exact hend.state.resolve_left fun e => h ⟨e, hend.cmds⟩
  · have hsettle := (State.settleClosing_keeps c ((s.leaveOpen c).tearAll c stTornDown)).fld (f := fHQ_CTX_CTL_OPEN)
      (by decide +kernel) c 0
    rw [State.isOn, hsettle, htear, State.fld_leaveOpen_open]
    rfl
  · rw [State.ctx_settleClosing, hend.cmds]
  · rw [State.ctx_settleClosing, hdone, State.ctx_leaveOpen]
  · exact (OnlyCtx.of_hq ((s.leaveOpen_keeps c).parts .hq (by decide +kernel))).trans (honly.trans (OnlyCtx.settleClosing c _))

/-- A command whose completion stands among those not acknowledged, and that its context no longer holds, has ended. -/
theorem State.ended_of_doneOf {t : State} {c : Nat} {m : Cmd} {r : Res} (hcmds : (t.ctx c).cmds = [])
    (hdone : doneOf m r ∈ (t.ctx c).done) : t.ended c m r.status = true := by
  rw [State.ended, State.cmd?, hcmds, Bool.and_eq_true, List.any_eq_true]
  exact ⟨rfl, doneOf m r, hdone, by simp [doneOf]⟩

/-- Settles O13: an opening writes a fresh context, a refused one only HQ_CTX_CTL, and a closing ends the fetched commands one
by one, each with its completion entry. -/
theorem contextsOpenAndClose : Obligations.ContextsOpenAndClose := by
  unfold Obligations.ContextsOpenAndClose
  refine ⟨?opens, ?refused, ?closes, ?unreached⟩
  case opens =>
    intro c v loc s hclosed hreach hmode hbound hrings
    obtain ⟨g, hexec⟩ := execContextOpen_opens hclosed hreach ⟨hmode, hbound, hrings⟩
    have hkeeps := State.settleTake_keeps g ((s.writeCtxCtl c v loc).enterOpen c)
    have hctx := State.ctx_congr (hkeeps.parts .hq (by decide +kernel))
    have hfresh := (hctx c).trans (State.ctx_enterOpen_self c _)
    refine ⟨_, hexec, ?_, ?_, ?_, ?_, ?_⟩
    · exact (hkeeps.fld (by decide +kernel) c 0).trans (State.ctxState_enterOpen c _)
    · rw [State.isOn, hkeeps.fld (by decide +kernel), State.fld_enterOpen _ _ (by decide) (by decide),
        State.fld_setFld_self _ (by decide)]
      rfl
    · rintro n rfl
      rw [hkeeps.fld (by decide +kernel), State.fld_enterOpen _ _ (by decide) (by decide),
        State.fld_setFld_apart _ (by decide) (by decide), State.fld_writeCtxCtl_sqSize hclosed]
    · rintro n rfl
      rw [hkeeps.fld (by decide +kernel), State.fld_enterOpen _ _ (by decide) (by decide),
        State.fld_setFld_apart _ (by decide) (by decide), State.fld_writeCtxCtl_cqSize hclosed]
    · have hfree := (State.writeCtxCtl_keeps c v loc s).parts .freeCount (by decide +kernel)
      have hothers : ∀ d, d ≠ c → (((s.writeCtxCtl c v loc).enterOpen c).settleTake g).ctx d = s.ctx d := fun d hd =>
        (hctx d).trans ((State.ctx_enterOpen_ne hd _).trans (State.ctx_congr (State.hq_writeCtxCtl ..) d))
      rw [hfresh, State.freshCtx, hfree]
      exact ⟨rfl, rfl, rfl, rfl, rfl, rfl, rfl, rfl, hothers⟩
  case refused =>
    intro c v loc s hclosed hreach hbad
    have hkeeps := State.discard_keeps loc v (s.writeCtxCtl c v loc)
    refine ⟨_, execContextOpen_discards hclosed hreach hbad, ?_, ?_, ?_, ?_, ?_⟩
    · exact (hkeeps.fld (by decide +kernel) c 0).trans ((State.ctxState_writeCtxCtl ..).trans hclosed)
    · exact (hkeeps.parts .hq (by decide +kernel)).trans (State.hq_writeCtxCtl ..)
    · rw [hkeeps.fld (by decide +kernel), State.fld_writeCtxCtl_open]
    · rw [hkeeps.fld (by decide +kernel), State.fld_writeCtxCtl_irqEn]
    · rw [hkeeps.fld (by decide +kernel), State.fld_writeCtxCtl_vector]
  case closes =>
    intro c v loc s hopen hreach hring hnodup hjob
    have hw := State.writeCtxCtl_keeps c v loc s
    have hhq := State.hq_writeCtxCtl c v loc s
    have hctx := State.ctx_congr hhq c
    have hclosed : Closed c (s.writeCtxCtl c v loc) ((s.writeCtxCtl c v loc).closeCtx c) := by
      refine State.closeCtx_closed ((State.ctxState_writeCtxCtl ..).trans hopen) ?_ (by rwa [hctx]) ?_
      · rw [State.toRing, State.isFabric, State.isOn, hw.fld (by decide +kernel), hctx]
        exact hring
      · rw [hctx]
        exact fun m hm => State.noJob_congr (by rw [hhq]) (hw.parts .idx (by decide +kernel))
          (hw.parts .qry (by decide +kernel)) (hw.parts .tbl (by decide +kernel)) (hjob m hm)
    refine ⟨_, ?_, hclosed.state, hclosed.off, hclosed.cmds, ?_, ?_⟩
    · show execContextClose c v loc s = _
      rw [execContextClose, if_pos hreach]
    · intro m hm
      refine State.ended_of_doneOf (r := (Res.of stTornDown).settle) hclosed.cmds ?_
      rw [hclosed.done, hctx]
      exact List.mem_append_right _ (List.mem_map_of_mem hm)
    · exact fun d hd => (hclosed.only.others d hd).trans (State.ctx_congr hhq d)
  case unreached =>
    exact fun c v loc s h => ⟨execContextOpen_unreached h v, execContextClose_unreached h v⟩

end Sys2Proof.Machine
end

section
/-! Device time: only POWER_ON takes it back, and an empty queue lets it pass (R26, R331). -/

namespace Sys2Proof.Machine

/-- POWER_ON alone may change the part that stands for device time going back. -/
theorem time_not_mem_partsOf {c : Instr} (h : c ≠ .powerOn) : Part.time ∉ partsOf c := by
  cases c with
  | powerOn => exact absurd rfl h
  | _ => simp only [partsOf]; decide

theorem allowed_testBit_part {c : Instr} {p : Part} (h : p ∉ partsOf c) : (allowed c).testBit p.bit = false := by
  have hany : anyReg.testBit p.bit = false := by cases p <;> decide +kernel
  unfold allowed
  split
  · exact testBit_touchSet_part h
  · rw [Nat.testBit_or, testBit_touchSet_part h, hany, Bool.or_false]

theorem exec_now_le {c : Instr} {s t : State} (hc : c ≠ .powerOn) (h : exec c s = .next t) : s.now ≤ t.now := by
  obtain ⟨u, hu, hk⟩ := exec_ends c s
  obtain rfl : u = t := Host.Outcome.next.inj (hu.symm.trans h)
  exact hk.parts .time (testBit_of_within (touchOf_allowed c) (allowed_testBit_part (time_not_mem_partsOf hc)))

theorem State.now_idle (s : State) : s.idle.now = s.now + 1 := by
  unfold State.idle
  extract_lets t
  split
  · exact ((State.afterDump_keeps _).parts .now (by decide +kernel)).trans
      ((State.dumpRead_keeps t).parts .now (by decide +kernel))
  · rfl

theorem State.idle_of_no_dump {s : State} (h : s.dumpState ≠ 1) : s.idle = { s with now := s.now + 1 } := if_neg h

theorem step_of_empty {s : State} (h : s.pending = []) : step s = .next s.idle := by
  unfold step
  rw [h]

theorem step_of_cons {s : State} {c : Instr} {rest : List Instr} (h : s.pending = c :: rest) :
    step s = exec c { s with pending := rest } := by
  unfold step
  rw [h]

/-- Settles O2: a step on an empty queue is State.idle. -/
theorem anEmptyQueueIdles : Obligations.AnEmptyQueueIdles := by
  unfold Obligations.AnEmptyQueueIdles
  intro s hempty
  exact ⟨s.idle, step_of_empty hempty, (State.idle_keeps s).pending.trans hempty, s.now_idle, State.idle_of_no_dump⟩

/-- The state that POWER_ON begins a start from: nothing volatile, and device time zero (R26). -/
def State.poweredUp (s : State) : State :=
  { s.resetAll false false with
    now := 0, pins := { s.pins with faultN := true, thermtripN := true }, power := {}, start := { powerLost := true } }

theorem exec_powerOn (s : State) : exec .powerOn s = .next s.poweredUp.tryStart := by
  show execPowerOn s = _
  rfl

theorem State.now_tryStart (s : State) : s.tryStart.now = s.now := (State.tryStart_keeps s).parts .now (by decide +kernel)

theorem powerOn_now (s : State) : Leads .powerOn s fun t => t.now = 0 := ⟨_, exec_powerOn s, State.now_tryStart _⟩

/-- Settles O7: every command but POWER_ON leaves device time at or past where it was, and an empty queue moves it on. -/
theorem onlyPowerOnTurnsDeviceTimeBack : Obligations.OnlyPowerOnTurnsDeviceTimeBack := by
  unfold Obligations.OnlyPowerOnTurnsDeviceTimeBack
  refine ⟨fun s t hstep hhead => ?_, powerOn_now⟩
  cases hp : s.pending with
  | nil =>
    obtain rfl : s.idle = t := Host.Outcome.next.inj ((step_of_empty hp).symm.trans hstep)
    rw [s.now_idle]
    exact Nat.le_succ _
  | cons c rest =>
    rw [hp] at hhead
    have hc : c ≠ .powerOn := fun hc => hhead (congrArg some hc)
    have hexec := (step_of_cons hp).symm.trans hstep
    exact exec_now_le (s := { s with pending := rest }) hc hexec

end Sys2Proof.Machine
end

section
/-! SUPPORT. A command at its turn: the state in which it is admitted, and the entry with which it ends (R243, R247, R251,
R255, R312). -/

namespace Sys2Proof.Machine

/-! ### Admission (R246, R247, R298) -/

/-- A command `m`, of opcode `op`, stands admitted in `t`, which admission has reached from `s`. -/
structure Admitted (c op : Nat) (m : Cmd) (s t : State) : Prop where
  cmd : t.cmd? c m.seq = some m
  opcode : dOpcode m.bytes = op
  keeps : Keeps (State.police_touch ||| State.modCmd_touch) s t
  silent : (t.ctx c).silent = (s.ctx c).silent
  allDefined : s.allDefined c = true → t.allDefined c = true

/-- The command `m₀` of a context replaced by `m`, the same command with its admission noted. -/
theorem Admitted.modCmd {c : Nat} {m₀ m : Cmd} {s u : State} (hm₀ : m₀ ∈ (s.ctx c).cmds) (hseq : m.seq = m₀.seq)
    (hbytes : m.bytes = m₀.bytes) (hu : Keeps State.police_touch s u) :
    Admitted c (dOpcode m₀.bytes) m s (u.modCmd c m.seq fun _ => m) := by
  have hctx : u.ctx c = s.ctx c := State.ctx_congr (hu.parts .hq (by decide +kernel)) c
  have hnew : (u.modCmd c m.seq fun _ => m).ctx c =
      { s.ctx c with cmds := (s.ctx c).cmds.map fun y => if y.seq = m.seq then m else y } := by
    rw [State.modCmd, State.ctx_modCtx_self, hctx]
  refine ⟨?_, congrArg dOpcode hbytes, ?_, by rw [hnew], fun hdef => ?_⟩
  · have hsame : ((fun y => y.seq == m.seq) ∘ fun y : Cmd => if y.seq = m.seq then m else y) = fun y => y.seq == m.seq := by
      funext y
      simp only [Function.comp_apply]
      split <;> simp_all
    rw [State.cmd?, hnew, List.find?_map, hsame, Option.map_eq_some_iff]
    have hfind : ((s.ctx c).cmds.find? fun y => y.seq == m.seq).isSome :=
      List.find?_isSome.mpr ⟨m₀, hm₀, beq_iff_eq.mpr hseq.symm⟩
    obtain ⟨y, hy⟩ := Option.isSome_iff_exists.mp hfind
    have hsome := List.find?_some hy
    exact ⟨y, hy, if_pos (beq_iff_eq.mp hsome)⟩
  · exact (hu.widen (by decide +kernel)).after (State.modCmd_keeps ..) (by decide +kernel)
  · rw [State.allDefined, List.all_eq_true] at hdef ⊢
    rw [hnew]
    intro z hz
    obtain ⟨y, hy, rfl⟩ := List.mem_map.mp hz
    split
    · rw [hbytes]
      exact hdef m₀ hm₀
    · exact hdef y hy

theorem State.mem_of_front {s : State} {c : Nat} {m : Cmd} (h : s.front c = some m) : m ∈ (s.ctx c).cmds := by
  unfold State.front at h
  split at h
  · next y hy =>
    split at h
    · cases h
    · exact Option.some.inj h ▸ List.mem_of_find?_eq_some hy
  · cases h

/-- A command past its admission goes on to what its opcode does, in the state that admission reaches. -/
theorem State.admitFront_of_admission {s t : State} {c op : Nat} {m : Cmd} (h : s.admission c op = some (m, t))
    (chk : Cmd → State → Nat) (k : Cmd → State → State) :
    Admitted c op m s t ∧ s.admitFront c [op] chk k = k m t := by
  obtain ⟨m₀, hfront, hadm⟩ := Option.bind_eq_some_iff.mp h
  have hop : dOpcode m₀.bytes = op := by simpa using (Option.filter_eq_some_iff.mp hfront).2
  have hmem := State.mem_of_front (Option.filter_eq_some_iff.mp hfront).1
  unfold State.admitted? at hadm
  extract_lets r m' t' at hadm
  have hr : Keeps State.police_touch s r.2 := Keeps2.ite (Keeps2.of Keeps.rfl) (State.police_keeps ..)
  split at hadm
  · cases hadm
  · next hcond =>
    obtain ⟨rfl, rfl⟩ := Prod.mk.inj (Option.some.inj hadm)
    simp only [Bool.or_eq_true, decide_eq_true_eq, not_or, Bool.not_eq_true', Bool.not_eq_false] at hcond
    obtain ⟨⟨hcolour, haddr⟩, hheader⟩ := hcond
    refine ⟨hop ▸ Admitted.modCmd hmem rfl rfl hr, ?_⟩
    rw [State.admitFront, hfront]
    show s.admitCmd c m₀ chk k = _
    unfold State.admitCmd
    rw [if_neg hcolour, haddr, hheader]
    rfl

theorem Admitted.fld {c op : Nat} {m : Cmd} {s t : State} (h : Admitted c op m s t) {f : Fld}
    (hf : (State.police_touch ||| State.modCmd_touch).testBit (regBit f.reg) = false) (i j : Nat) :
    t.fld f i j = s.fld f i j := h.keeps.fld hf i j

theorem Admitted.toRing {c op : Nat} {m : Cmd} {s t : State} (h : Admitted c op m s t) : t.toRing c = s.toRing c := by
  rw [State.toRing, State.toRing, State.isFabric, State.isFabric, State.isOn, State.isOn, h.fld (by decide +kernel), h.silent]

theorem Admitted.ctxTenant {c op : Nat} {m : Cmd} {s t : State} (h : Admitted c op m s t) : t.ctxTenant c = s.ctxTenant c :=
  h.fld (by decide +kernel) c 0

/-- Where every opcode is defined, no command completes at its turn by itself (R247). -/
theorem State.admitBad_of_allDefined {s : State} {c : Nat} (h : s.allDefined c = true) (n : Nat) : s.admitBad c n = s := by
  cases n with
  | zero => rfl
  | succ n =>
    unfold State.admitBad
    split
    · next m hm => exact if_pos (List.all_eq_true.mp h m (State.mem_of_front hm))
    · rfl

theorem State.allDefined_congr {s t : State} {c : Nat} (h : (t.ctx c).cmds = (s.ctx c).cmds) :
    t.allDefined c = s.allDefined c := by
  rw [State.allDefined, State.allDefined, h]

/-! ### The end of a command on a ring (R243, R255, R264, R312) -/

/-- A policed command and an ill-formed one are counted. -/
def State.countEnd (r : Res) (s : State) : State :=
  let s := if r.status = stPoliced then s.bump .HQ_CMD_POLICED 0 0 1 else s
  if r.status = stInvalid then s.bump .HQ_CMD_INVALID 0 0 1 else s

/-- Records, header and GENERATION of a result are stored, where the command has any. -/
def State.putResult (c : Nat) (m : Cmd) (r : Res) (s : State) : State :=
  let a := dResultAddr m.bytes
  let p := s.ctxPort c
  if a = 0 ∨ r.bare ∨ r.status = stDeviceReset then s
  else ((s.putHost p (a + 16) (r.records ++ r.filler)).putHost p a r.header).putHost p (a + 12) (leBytes 4 (dGeneration m.bytes))

theorem State.countEnd_keeps (r : Res) (s : State) :
    Keeps (touchSet [] [.HQ_CMD_POLICED, .HQ_CMD_INVALID]) s (s.countEnd r) := by
  unfold State.countEnd
  have hpol : Keeps (touchSet [] [.HQ_CMD_POLICED, .HQ_CMD_INVALID]) s
      (if r.status = stPoliced then s.bump .HQ_CMD_POLICED 0 0 1 else s) :=
    Keeps.ite (Keeps.bump Keeps.rfl (by decide +kernel)) Keeps.rfl
  exact Keeps.ite (Keeps.bump hpol (by decide +kernel)) hpol

theorem State.putResult_keeps (c : Nat) (m : Cmd) (r : Res) (s : State) : Keeps State.putHost_touch s (s.putResult c m r) := by
  unfold State.putResult
  refine Keeps.ite Keeps.rfl ?_
  refine Keeps.after ?_ (State.putHost_keeps ..) (by decide +kernel)
  exact (State.putHost_keeps ..).after (State.putHost_keeps ..) (by decide +kernel)

/-- The end of a command on a ring, from its counts to its entry. -/
theorem State.finish_of_toRing {s : State} {c q : Nat} {m : Cmd} (hm : s.cmd? c q = some m) (hring : s.toRing c = true)
    (r : Res) :
    s.finish c q r = ((((((s.modCtx c (Ctx.without q)).countEnd r.settle).countSearch c m r.settle).putResult c m
      r.settle).writeEntry c (doneOf m r.settle)).settleClosing c) := by
  simp only [State.toRing, Bool.and_eq_true, Bool.not_eq_true'] at hring
  obtain ⟨hfab, hsil⟩ := hring
  have hk := State.countEnd_keeps r.settle (s.modCtx c (Ctx.without q))
  have hsil' : (((s.modCtx c (Ctx.without q)).countEnd r.settle).ctx c).silent = false := by
    rw [State.ctx_congr (hk.parts .hq (by decide +kernel)) c, State.ctx_modCtx_self]
    exact hsil
  have hfab' : ((s.modCtx c (Ctx.without q)).countEnd r.settle).isFabric c = false := by
    rw [State.isFabric, State.isOn, hk.fld (by decide +kernel), State.fld_modCtx _ (by decide)]
    exact hfab
  rw [State.finish, hm]
  exact congrArg (State.settleClosing c)
    ((if_neg (ne_true_of_eq_false hsil')).trans (if_neg (ne_true_of_eq_false hfab')))

/-- A search that ends on a ring is counted for its tenant (R312). -/
theorem State.finish_counts_search {s : State} {c q : Nat} {m : Cmd} (hm : s.cmd? c q = some m) (hring : s.toRing c = true)
    (hop : dOpcode m.bytes = 0x01) (r : Res) :
    (s.finish c q r).reg .TN_ACC_QUERIES (s.ctxTenant c) 0 = s.reg .TN_ACC_QUERIES (s.ctxTenant c) 0 + 1 := by
  have hbefore : Keeps (touchSet [.hq] [.HQ_CTX_STATUS, .HQ_CMD_POLICED, .HQ_CMD_INVALID]) s
      ((s.modCtx c (Ctx.without q)).countEnd r.settle) :=
    (State.modCtx_keeps c _ s |>.widen (by decide +kernel)).after (State.countEnd_keeps ..) (by decide +kernel)
  rw [State.finish_of_toRing hm hring r, (State.settleClosing_keeps ..).regs _ _ _ (by decide +kernel),
    (State.writeEntry_keeps ..).regs _ _ _ (by decide +kernel), (State.putResult_keeps ..).regs _ _ _ (by decide +kernel)]
  generalize (s.modCtx c (Ctx.without q)).countEnd r.settle = u at hbefore ⊢
  have htenant : u.ctxTenant c = s.ctxTenant c := hbefore.fld (by decide +kernel) c 0
  rw [State.countSearch, if_pos hop, ← htenant, State.bump, State.reg_setReg_other _ (by decide), State.bump,
    State.reg_setReg_other _ (by decide), State.bump, State.reg_setReg_self, hbefore.regs _ _ _ (by decide +kernel)]
  rfl

/-! ### Host memory that refuses no write (R238) -/

/-- Where the host refuses no write, no failed access to host memory is counted from `s` to `t`. -/
structure NoDmaErr (s t : State) : Prop where
  refused : t.pins.hostRefused = s.pins.hostRefused
  count : s.pins.hostRefused = [] → t.reg .HQ_DMA_ERR 0 0 = s.reg .HQ_DMA_ERR 0 0

theorem NoDmaErr.rfl {s : State} : NoDmaErr s s := ⟨Eq.refl _, fun _ => Eq.refl _⟩

theorem NoDmaErr.trans {s t u : State} (h : NoDmaErr s t) (k : NoDmaErr t u) : NoDmaErr s u :=
  ⟨k.refused.trans h.refused, fun hs => (k.count (h.refused.trans hs)).trans (h.count hs)⟩

theorem Keeps.noDmaErr {m : Nat} {s t : State} (h : Keeps m s t) (hpins : m.testBit (Part.bit .pins) = false)
    (hreg : m.testBit (regBit .HQ_DMA_ERR) = false) : NoDmaErr s t :=
  ⟨congrArg Pins.hostRefused (h.parts .pins hpins), fun _ => h.regs _ 0 0 hreg⟩

theorem State.putHost_noDmaErr (p a : Nat) (b : List Byte) (s : State) : NoDmaErr s (s.putHost p a b) := by
  refine ⟨congrArg Pins.hostRefused ((State.putHost_keeps ..).parts .pins (by decide +kernel)), fun hs => ?_⟩
  have hput : s.putHost p a b = s.wrHost p a b := by
    refine if_neg ?_
    rw [State.hostRefuses, hs, List.any_nil]
    exact Bool.false_ne_true
  rw [hput]
  rfl

theorem State.putResult_noDmaErr (c : Nat) (m : Cmd) (r : Res) (s : State) : NoDmaErr s (s.putResult c m r) := by
  unfold State.putResult
  extract_lets a p
  split
  · exact NoDmaErr.rfl
  · exact ((State.putHost_noDmaErr ..).trans (State.putHost_noDmaErr ..)).trans (State.putHost_noDmaErr ..)

theorem State.writeEntry_noDmaErr (c : Nat) (d : DoneCmd) (s : State) : NoDmaErr s (s.writeEntry c d) := by
  unfold State.writeEntry
  extract_lets x a u w last y
  have hput : NoDmaErr s w := (State.putHost_noDmaErr ..).trans (State.putHost_noDmaErr ..)
  have hset : NoDmaErr w (w.setCtx c y) := (State.setCtx_keeps c y w).noDmaErr (by decide +kernel) (by decide +kernel)
  have hbump : NoDmaErr (w.setCtx c y) ((w.setCtx c y).bump .HQ_CPL_WRITTEN 0 0 1) :=
    ⟨rfl, fun _ => State.reg_setReg_other _ (by decide) ..⟩
  exact (hput.trans (hset.trans hbump)).trans ((State.noteIrq_keeps ..).noDmaErr (by decide +kernel) (by decide +kernel))

theorem State.finish_noDmaErr {s : State} {c q : Nat} {m : Cmd} (hm : s.cmd? c q = some m) (hring : s.toRing c = true)
    (r : Res) : NoDmaErr s (s.finish c q r) := by
  rw [State.finish_of_toRing hm hring r]
  refine NoDmaErr.trans (NoDmaErr.trans ?_ (State.writeEntry_noDmaErr ..))
    ((State.settleClosing_keeps ..).noDmaErr (by decide +kernel) (by decide +kernel))
  refine NoDmaErr.trans (NoDmaErr.trans ?_ ((State.countSearch_keeps ..).noDmaErr (by decide +kernel) (by decide +kernel)))
    (State.putResult_noDmaErr ..)
  exact ((State.modCtx_keeps ..).noDmaErr (by decide +kernel) (by decide +kernel)).trans
    ((State.countEnd_keeps ..).noDmaErr (by decide +kernel) (by decide +kernel))

/-- A failed access to host memory is counted. -/
theorem State.hostDmaErr_counts (p a k : Nat) (s : State) :
    (s.hostDmaErr p a k).1.reg .HQ_DMA_ERR 0 0 = s.reg .HQ_DMA_ERR 0 0 + 1 := by
  rw [State.hostDmaErr, State.dmaErr, (State.logSeq_keeps ..).regs _ _ _ (by decide +kernel), State.bump,
    State.reg_setReg_self]
  rfl

/-! ### A command gone from its context -/

theorem CmdEnded.ended {c : Nat} {m : Cmd} {r : Res} {s t : State} (h : CmdEnded c m r s t) :
    t.ended c m r.settle.status = true := by
  rw [State.ended, State.cmd?, h.cmds, h.done, Bool.and_eq_true, List.any_eq_true]
  refine ⟨?_, doneOf m r.settle, by simp, by simp [doneOf]⟩
  rw [Option.isNone_iff_eq_none, List.find?_eq_none]
  intro y hy
  simpa using (List.mem_filter.mp hy).2

theorem CmdEnded.allDefined {c : Nat} {m : Cmd} {r : Res} {s t : State} (h : CmdEnded c m r s t)
    (hs : s.allDefined c = true) : t.allDefined c = true := by
  rw [State.allDefined, List.all_eq_true] at hs ⊢
  rw [h.cmds]
  exact fun y hy => hs y (List.mem_filter.mp hy).1

theorem Res.status_settle (r : Res) : r.settle.status = r.status := by
  unfold Res.settle
  split <;> rfl

end Sys2Proof.Machine
end

section
/-! Searches at their turn: the checks of R251, the query that they leave, and the completion of one that fails (R27, R231,
R238, R251, R260, R261). -/

namespace Sys2Proof.Machine

theorem searchAlone_not_waits {t : State} {c : Nat} {m : Cmd} (h : t.searchAlone c m = true) :
    ¬(filterMode (qFilter m.bytes) ≥ 2 ∧
      (t.qry.queries.any fun e => e.2.ctx == c && !e.2.isShadow && decide (2 ≤ filterMode e.2.filter)) = true) := by
  rintro ⟨hmode, hbusy⟩
  rw [State.searchAlone, hbusy, decide_eq_false (Nat.not_lt.mpr hmode)] at h
  cases h

/-! ### The query enters its cascade (R27, R70, R127) -/

theorem State.query_holdQuery (q : Nat) (x : Query) (s : State) : (s.holdQuery q x).query q = some x := by
  have hset : (s.setQuery q x).query q = some x := s.query_setQuery_self q x
  have hqry : (s.holdQuery q x).qry = (s.setQuery q x).qry := by
    have href := (State.holdRef_keeps x.ver (s.setQuery q x)).parts .qry (by decide +kernel)
    unfold State.holdQuery
    extract_lets u
    split
    · exact ((State.holdTable_keeps ..).parts .qry (by decide +kernel)).trans href
    · exact href
  rw [State.query, hqry]
  exact hset

theorem State.now_holdQuery (q : Nat) (x : Query) (s : State) : (s.holdQuery q x).now = s.now :=
  (State.holdQuery_keeps q x s).parts .now (by decide +kernel)

/-- A query whose encode comes first joins the encode queue of its home die. -/
theorem State.enter_encode {x : Query} (h : x.stage = .encode) (q : Nat) (s : State) :
    (s.enter q x).query q = some x ∧ q ∈ (s.enter q x).qry.encodeQ.getD [] x.home := by
  have hq := State.query_holdQuery q x s
  rw [State.enter, State.begin_, hq]
  simp only [h, if_true]
  refine ⟨hq, ?_⟩
  rw [Tbl.upd, Tbl.getD, Tbl.get?_put_self]
  exact List.mem_append_right _ List.mem_cons_self

/-- A query that needs no encode joins the probe unit of its home die. -/
theorem State.enter_probe {x : Query} (h : x.stage = .probe) (q : Nat) (s : State) :
    (s.enter q x).query q = some x ∧ (q, s.now) ∈ ((s.enter q x).qry.probe.getD {} x.home).waiting := by
  have hq := State.query_holdQuery q x s
  have hstage : { x with stage := .probe } = x := by rw [← h]
  rw [State.enter, State.begin_, hq]
  simp only [h, reduceCtorEq, if_false]
  rw [State.joinProbe, hq]
  simp only [hstage]
  refine ⟨State.query_setQuery_self _ q x, ?_⟩
  rw [Tbl.upd, Tbl.getD, Tbl.get?_put_self, State.now_setQuery, State.now_holdQuery]
  exact List.mem_append_right _ List.mem_cons_self

/-! ### The outcomes of an admission (R251) -/

/-- The query that an ordinary search becomes. -/
def State.newQuery (t : State) (c : Nat) (m : Cmd) : Query :=
  { t.makeQuery c m (t.checkSearch c m).2 (qBudgetUs m.bytes) with
    sampled := (t.sample (t.makeQuery c m (t.checkSearch c m).2 (qBudgetUs m.bytes))).1 }

section Outcomes

variable {t : State} {c : Nat} {m : Cmd} (halone : t.searchAlone c m = true)

include halone

theorem State.admitSearch_enters (hok : (t.checkSearch c m).1 = 0) (hlive : m.cancelled = false)
    (hgroup : dGroup m.bytes = false) :
    t.admitSearch true c m =
      (t.sample (t.makeQuery c m (t.checkSearch c m).2 (qBudgetUs m.bytes))).2.enter m.seq (t.newQuery c m) := by
  unfold State.admitSearch
  extract_lets mode inFlight f r p s' x r'
  rw [if_neg (searchAlone_not_waits halone), Bool.not_true, Bool.false_and, if_neg Bool.false_ne_true,
    if_neg (fun h => h hok), hlive, if_neg Bool.false_ne_true, hgroup, if_neg Bool.false_ne_true]
  rfl

theorem State.admitSearch_group (hok : (t.checkSearch c m).1 = 0) (hlive : m.cancelled = false)
    (hgroup : dGroup m.bytes = true) :
    t.admitSearch true c m = t.admitGroupSearch c m (t.checkSearch c m).2 := by
  unfold State.admitSearch
  extract_lets mode inFlight f r p s' x r'
  rw [if_neg (searchAlone_not_waits halone), Bool.not_true, Bool.false_and, if_neg Bool.false_ne_true,
    if_neg (fun h => h hok), hlive, if_neg Bool.false_ne_true, if_pos hgroup]

theorem State.admitSearch_fails (hbad : (t.checkSearch c m).1 ≠ 0) :
    t.admitSearch true c m =
      (if (t.checkSearch c m).1 = stQuota then t.bump .TN_QUOTA_REFUSED (t.ctxTenant c) 0 1 else t).finish c m.seq
        (Res.of (t.checkSearch c m).1) := by
  unfold State.admitSearch
  extract_lets mode inFlight f r p s' x r'
  rw [if_neg (searchAlone_not_waits halone), Bool.not_true, Bool.false_and, if_neg Bool.false_ne_true, if_pos hbad]

theorem State.admitSearch_unread (hhost : t.isFabric c = false) :
    t.admitSearch false c m =
      (t.draw.hostDmaErr (t.ctxPort c) (qQueryAddr m.bytes) (Config.free t.freeCount).toNat).1.finish c m.seq
        { status := stInvalid,
          errSeq := (t.draw.hostDmaErr (t.ctxPort c) (qQueryAddr m.bytes) (Config.free t.freeCount).toNat).2 } := by
  unfold State.admitSearch
  extract_lets mode inFlight f r p s' x r'
  rw [if_neg (searchAlone_not_waits halone), hhost, if_pos (show (!false && !false) = true from rfl)]

end Outcomes

/-- A search that passes its checks is a query with its captured versions (R251, R27). -/
theorem State.admitSearch_hasEntered {t : State} {c : Nat} {m : Cmd} (halone : t.searchAlone c m = true)
    (hok : (t.checkSearch c m).1 = 0) (hlive : m.cancelled = false) (hgroup : dGroup m.bytes = false) :
    (t.admitSearch true c m).hasEntered t c m := by
  rw [State.admitSearch_enters halone hok hlive hgroup]
  have hnow : ∀ x, (t.sample x).2.now = t.now := fun x => (State.sample_keeps x t).parts .now (by decide +kernel)
  unfold State.hasEntered
  extract_lets x
  by_cases hform : qForm m.bytes = 2
  · have hstage : (t.newQuery c m).stage = .encode := if_pos hform
    rw [if_pos hform]
    exact State.enter_encode hstage m.seq _
  · have hstage : (t.newQuery c m).stage = .probe := if_neg hform
    obtain ⟨hquery, hwaits⟩ := State.enter_probe hstage m.seq (t.sample x).2
    rw [if_neg hform]
    rw [hnow] at hwaits
    exact ⟨hquery, hwaits⟩

theorem State.hq_enter (q : Nat) (x : Query) (s : State) : (s.enter q x).hq = s.hq :=
  (State.enter_keeps q x s).parts .hq (by decide +kernel)

/-- A search whose turn it is and that passes its checks, on whatever kind of context. -/
theorem State.admitFront_hasEntered {s t : State} {c : Nat} {m : Cmd} (hadm : s.admission c 0x01 = some (m, t))
    (hdef : s.allDefined c = true) (halone : t.searchAlone c m = true) (hok : (t.checkSearch c m).1 = 0)
    (hlive : m.cancelled = false) (hgroup : dGroup m.bytes = false) (chk : Cmd → State → Nat) (n : Nat) :
    ((s.admitFront c [0x01] chk (State.admitSearch true c)).admitBad c n).hasEntered t c m := by
  obtain ⟨had, hfront⟩ := State.admitFront_of_admission hadm chk (State.admitSearch true c)
  have hhq : (t.admitSearch true c m).hq = t.hq := by
    rw [State.admitSearch_enters halone hok hlive hgroup, State.hq_enter]
    exact (State.sample_keeps _ t).parts .hq (by decide +kernel)
  have hdef' : (t.admitSearch true c m).allDefined c = true := by
    rw [State.allDefined_congr (congrArg Ctx.cmds (State.ctx_congr hhq c))]
    exact had.allDefined hdef
  rw [hfront, State.admitBad_of_allDefined hdef']
  exact State.admitSearch_hasEntered halone hok hlive hgroup

/-- A command that ends at its admission leaves its context's other commands as they were. -/
theorem State.admitFront_ended {s t u : State} {c op : Nat} {m : Cmd} {chk : Cmd → State → Nat} {k : Cmd → State → State}
    {r : Res} (hadm : s.admission c op = some (m, t)) (hdef : s.allDefined c = true) (hk : k m t = u.finish c m.seq r)
    (hend : CmdEnded c m r u (u.finish c m.seq r)) (hhq : u.hq = t.hq) (n : Nat) :
    (s.admitFront c [op] chk k).admitBad c n = u.finish c m.seq r := by
  obtain ⟨had, hfront⟩ := State.admitFront_of_admission hadm chk k
  have hdef' : u.allDefined c = true := by
    rw [State.allDefined_congr (congrArg Ctx.cmds (State.ctx_congr hhq c))]
    exact had.allDefined hdef
  rw [hfront, hk, State.admitBad_of_allDefined (hend.allDefined hdef')]

theorem State.cmd?_congr {s t : State} (h : t.hq = s.hq) (c q : Nat) : t.cmd? c q = s.cmd? c q := by
  rw [State.cmd?, State.cmd?, State.ctx_congr h]

theorem Keeps.toRing {w : Nat} {s t : State} (h : Keeps w s t) (hhq : w.testBit (Part.bit .hq) = false)
    (hbind : w.testBit (regBit .HQ_CTX_BIND) = false) (c : Nat) : t.toRing c = s.toRing c := by
  rw [State.toRing, State.toRing, State.isFabric, State.isFabric, State.isOn, State.isOn, h.fld hbind,
    State.ctx_congr (h.parts .hq hhq)]

theorem State.qry_finish (c q : Nat) (r : Res) (s : State) : (s.finish c q r).qry = s.qry :=
  (State.finish_keeps c q r s).parts .qry (by decide +kernel)

/-! ### A group search (R260, R314) -/

/-- The lease of a group search is asked for, and its job stands among those of the head. -/
theorem State.openGroup_leased {s : State} (h : s.leased = true) (g : GroupJob) (phase : GroupJob → State → State) :
    (s.openGroup g phase).hq = { s.hq with groups := s.hq.groups ++ [g], nextReqSeq := (s.hq.nextReqSeq + 1) % 2 ^ 48 } ∧
      (s.openGroup g phase).qry = s.qry := by
  unfold State.openGroup
  extract_lets hq u l ten
  have hl : u.leased = true := h
  rw [if_pos hl]
  exact ⟨(State.sendLease_keeps ..).parts .hq (by decide +kernel), (State.sendLease_keeps ..).parts .qry (by decide +kernel)⟩

theorem State.leased_holdQuery (q : Nat) (x : Query) (s : State) : (s.holdQuery q x).leased = s.leased := by
  have hk := State.holdQuery_keeps q x s
  rw [State.leased, State.leased, State.isOn, State.isOn, State.isOn, State.isOn, hk.fld (by decide +kernel),
    hk.fld (by decide +kernel)]

/-- A group search at a head that takes leases: its job, and its own part as a query that waits for the lease. -/
theorem State.admitGroupSearch_leased {t : State} (h : t.leased = true) (c : Nat) (m : Cmd) (p : Captured) :
    ∃ g, (t.admitGroupSearch c m p).hq =
        { t.hq with groups := t.hq.groups ++ [g], nextReqSeq := (t.hq.nextReqSeq + 1) % 2 ^ 48 } ∧
      (g.seq = m.seq ∧ g.opcode = 1 ∧ g.key = t.nextKey ∧ g.k = qK m.bytes) ∧
      (t.admitGroupSearch c m p).query m.seq =
        some { t.makeQuery c m p (if qBudgetUs m.bytes = 0 then 0 else t.memberBudget m.bytes) with
          group := some m.seq, stage := .lease } := by
  unfold State.admitGroupSearch
  extract_lets b g budget z x
  obtain ⟨hhq, hqry⟩ := State.openGroup_leased ((t.leased_holdQuery m.seq x).trans h) g State.phaseSearch
  refine ⟨g, ?_, ⟨rfl, rfl, rfl, rfl⟩, ?_⟩
  · rw [hhq, (State.holdQuery_keeps m.seq x t).parts .hq (by decide +kernel)]
  · rw [State.query, hqry]
    exact State.query_holdQuery m.seq x t

/-! ### The outcome of SEARCH and SUB_QUERY -/

/-- What SEARCH does to the command at its turn. -/
theorem exec_search (c : Nat) (readOk : Bool) (s : State) :
    exec (.search c readOk) s =
      .next ((s.admitFront c [0x01] (fun m t => (t.checkSearch c m).1) (State.admitSearch readOk c)).admitBad c 65536) := by
  show execSearch c readOk s = _
  rfl

/-- SUB_QUERY brings the command of a received message to its turn. -/
theorem exec_subQuery {conn : Nat} {s s1 s2 : State} {r : RxMsg} {c : Nat} (hsend : s.takeSend conn 0 = some (r, s1))
    (hcmd : s1.receiveCmd conn r = (some c, s2)) :
    exec (.subQuery conn) s =
      .next ((s2.admitFront c [0x01] (fun m t => (t.checkSearch c m).1) (State.admitSearch true c)).admitBad c 65536) := by
  show execSubQuery conn s = _
  rw [execSubQuery, hsend]
  simp only [hcmd]

/-- A search that fails a check: it has ended with the status of that check, and is counted. -/
theorem search_fails {c : Nat} {s t : State} {m : Cmd} (hadm : s.admission c 0x01 = some (m, t))
    (hdef : s.allDefined c = true) (hring : s.toRing c = true) (halone : t.searchAlone c m = true)
    (hbad : (t.checkSearch c m).1 ≠ 0) :
    Leads (.search c true) s fun u => u.ended c m (t.checkSearch c m).1 = true ∧ u.qry = t.qry ∧
      u.reg .TN_ACC_QUERIES (s.ctxTenant c) 0 = s.reg .TN_ACC_QUERIES (s.ctxTenant c) 0 + 1 := by
  obtain ⟨had, -⟩ := State.admitFront_of_admission hadm noCheck (State.admitSearch true c)
  have hk := State.admitSearch_fails halone hbad
  generalize hu : (if (t.checkSearch c m).1 = stQuota then t.bump .TN_QUOTA_REFUSED (t.ctxTenant c) 0 1 else t) = u at hk
  have hkeeps : Keeps (touchSet [] [.TN_QUOTA_REFUSED]) t u := by
    rw [← hu]
    exact Keeps.ite (Keeps.bump Keeps.rfl (by decide +kernel)) Keeps.rfl
  have hhq := hkeeps.parts .hq (by decide +kernel)
  have hcmd : u.cmd? c m.seq = some m := (State.cmd?_congr hhq c m.seq).trans had.cmd
  have huring : u.toRing c = true :=
    (hkeeps.toRing (by decide +kernel) (by decide +kernel) c).trans (had.toRing.trans hring)
  have hend := State.finish_ended hcmd huring (Res.of (t.checkSearch c m).1)
  refine ⟨_, (exec_search c true s).trans (congrArg _ (State.admitFront_ended hadm hdef hk hend hhq 65536)), ?_, ?_, ?_⟩
  · exact (congrArg (State.ended _ c m) (Res.status_settle _)).symm.trans hend.ended
  · exact (State.qry_finish ..).trans (hkeeps.parts .qry (by decide +kernel))
  · have htenant : u.ctxTenant c = s.ctxTenant c := (hkeeps.fld (by decide +kernel) c 0).trans had.ctxTenant
    have hcount := State.finish_counts_search hcmd huring had.opcode (Res.of (t.checkSearch c m).1)
    rw [htenant, hkeeps.regs _ _ _ (by decide +kernel), had.keeps.regs _ _ _ (by decide +kernel)] at hcount
    exact hcount

/-- A search whose block cannot be read: it has ended with INVALID_DESCRIPTOR, and the failed read is counted. -/
theorem search_unread {c : Nat} {s t : State} {m : Cmd} (hadm : s.admission c 0x01 = some (m, t))
    (hdef : s.allDefined c = true) (hring : s.toRing c = true) (halone : t.searchAlone c m = true) :
    Leads (.search c false) s fun u => u.ended c m stInvalid = true ∧
      (s.pins.hostRefused = [] → u.reg .HQ_DMA_ERR 0 0 = s.reg .HQ_DMA_ERR 0 0 + 1) ∧ u.qry = t.qry := by
  obtain ⟨had, -⟩ := State.admitFront_of_admission hadm noCheck (State.admitSearch false c)
  have htring := had.toRing.trans hring
  have hhost : t.isFabric c = false := by
    rw [State.toRing, Bool.and_eq_true, Bool.not_eq_true'] at htring
    exact htring.1
  have hk := State.admitSearch_unread halone hhost
  have hcount := State.hostDmaErr_counts (t.ctxPort c) (qQueryAddr m.bytes) (Config.free t.freeCount).toNat t.draw
  have hkeeps := (State.draw_keeps t |>.widen (by decide +kernel)).after
    (State.hostDmaErr_keeps (t.ctxPort c) (qQueryAddr m.bytes) (Config.free t.freeCount).toNat t.draw)
    (m := State.draw_touch ||| State.hostDmaErr_touch) (by decide +kernel)
  generalize t.draw.hostDmaErr (t.ctxPort c) (qQueryAddr m.bytes) (Config.free t.freeCount).toNat = r at hk hcount hkeeps
  have hhq := hkeeps.parts .hq (by decide +kernel)
  have hcmd : r.1.cmd? c m.seq = some m := (State.cmd?_congr hhq c m.seq).trans had.cmd
  have huring : r.1.toRing c = true := (hkeeps.toRing (by decide +kernel) (by decide +kernel) c).trans htring
  have hend := State.finish_ended hcmd huring { status := stInvalid, errSeq := r.2 }
  refine ⟨_, (exec_search c false s).trans (congrArg _ (State.admitFront_ended hadm hdef hk hend hhq 65536)), ?_, ?_, ?_⟩
  · exact (congrArg (State.ended _ c m) (Res.status_settle _)).symm.trans hend.ended
  · intro hrefused
    have hpins : r.1.pins.hostRefused = [] := by
      rw [hkeeps.parts .pins (by decide +kernel), had.keeps.parts .pins (by decide +kernel)]
      exact hrefused
    rw [(State.finish_noDmaErr hcmd huring _).count hpins, hcount]
    exact congrArg (· + 1) (had.keeps.regs _ _ _ (by decide +kernel))
  · exact (State.qry_finish ..).trans (hkeeps.parts .qry (by decide +kernel))

/-- Settles O17: a search at its turn meets its checks once, and each outcome is that of State.admitSearch. -/
theorem searchesAreAdmitted : Obligations.SearchesAreAdmitted := by
  unfold Obligations.SearchesAreAdmitted
  refine ⟨?search, ?subQuery, ?fails, ?unread, ?group⟩
  case search =>
    intro c s m t hadm hdef halone hok hlive hgroup
    exact ⟨_, exec_search c true s, State.admitFront_hasEntered hadm hdef halone hok hlive hgroup _ _⟩
  case subQuery =>
    intro conn s r s1 c s2 m t hsend hcmd hadm hdef halone hok hlive hgroup
    exact ⟨_, exec_subQuery hsend hcmd, State.admitFront_hasEntered hadm hdef halone hok hlive hgroup _ _⟩
  case fails => exact fun c s m t hadm hdef hring halone hbad => search_fails hadm hdef hring halone hbad
  case unread => exact fun c s m t hadm hdef hring halone => search_unread hadm hdef hring halone
  case group =>
    intro c s m t hadm hdef halone hok hlive hgroup hleased
    obtain ⟨had, hfront⟩ := State.admitFront_of_admission hadm (fun m t => (t.checkSearch c m).1) (State.admitSearch true c)
    obtain ⟨g, hhq, hg, hquery⟩ := State.admitGroupSearch_leased hleased c m (t.checkSearch c m).2
    rw [← State.admitSearch_group halone hok hlive hgroup] at hhq hquery
    have hdef' : (t.admitSearch true c m).allDefined c = true := by
      rw [State.allDefined_congr (s := t) (by rw [State.ctx, hhq]; rfl)]
      exact had.allDefined hdef
    refine ⟨t.admitSearch true c m, ?_, ?_, ⟨g, ?_, hg⟩, hquery⟩
    · rw [exec_search, hfront, State.admitBad_of_allDefined hdef']
    · rw [hhq]
    · rw [hhq]
      exact List.mem_append_right _ List.mem_cons_self

end Sys2Proof.Machine
end

section
/-! SUPPORT. Starts: HQ_START_STATUS after a reset of every domain, what begins, fails and closes a start, and the end of a
command object (R329, R348 to R352, R363). -/

namespace Sys2Proof.Machine

/-! ### Tables and repeated operations -/

theorem Tbl.get?_foldl_put_ne {α : Type} (xs : List (Nat × α)) (t : Tbl α) {k : Nat} (h : ∀ e ∈ xs, e.1 ≠ k) :
    Tbl.get? (xs.foldl (fun (t : Tbl α) e => t.put e.1 e.2) t) k = t.get? k := by
  induction xs generalizing t with
  | nil => rfl
  | cons e xs ih =>
    obtain ⟨he, hxs⟩ := List.forall_mem_cons.mp h
    rw [List.foldl_cons, ih _ hxs, Tbl.get?_put_ne _ _ he.symm]

/-- What every operation of a sequence keeps, the sequence keeps. -/
theorem forEach_keeps {α : Type} {P : State → Prop} {f : α → State → State} (hf : ∀ a u, P u → P (f a u)) (xs : List α)
    {s : State} (h : P s) : P (forEach xs f s) := by
  unfold forEach
  induction xs generalizing s with
  | nil => exact h
  | cons a xs ih => exact ih (hf a s h)

/-- What one operation of a sequence brings about and the others keep holds after the sequence. -/
theorem forEach_establishes {α : Type} {P : α → State → Prop} {f : α → State → State} (hself : ∀ a u, P a (f a u))
    (hkeep : ∀ a b u, P a u → P a (f b u)) {xs : List α} {a : α} (ha : a ∈ xs) (s : State) : P a (forEach xs f s) := by
  unfold forEach
  induction xs generalizing s with
  | nil => exact absurd ha List.not_mem_nil
  | cons b xs ih =>
    rcases List.mem_cons.mp ha with rfl | ha
    · exact forEach_keeps (fun b u => hkeep a b u) xs (hself a s)
    · exact ih ha (f b s)

/-! ### HQ_START_STATUS (R351) -/

/-- An operation that touches no HQ_START_STATUS leaves every field of it. -/
theorem Keeps.startStep {m : Nat} {s t : State} (h : Keeps m s t) (hm : m.testBit (regBit .HQ_START_STATUS) = false) :
    t.startStep = s.startStep := h.fld hm 0 0

theorem State.mode_setFld_apart (s : State) {f : Fld} (hf : Fld.fits f = true)
    (h : Fld.apart f fHQ_START_STATUS_MODE = true) (n : Nat) : (s.setFld f 0 0 n).mode = s.mode :=
  State.fld_setFld_apart s hf h 0 0 n 0 0

theorem State.startStep_setFld_apart (s : State) {f : Fld} (hf : Fld.fits f = true)
    (h : Fld.apart f fHQ_START_STATUS_STEP = true) (n : Nat) : (s.setFld f 0 0 n).startStep = s.startStep :=
  State.fld_setFld_apart s hf h 0 0 n 0 0

theorem State.fld_bootStatus (s : State) {f : Fld} (hfails : Fld.apart fHQ_START_STATUS_FAILS f = true)
    (hreason : Fld.apart fHQ_START_STATUS_LAST_REASON f = true) (hfloor : Fld.apart fHQ_START_STATUS_SEC_FLOOR f = true)
    (i j : Nat) : s.bootStatus.fld f i j = s.fld f i j := by
  rw [State.bootStatus, State.fld_setFld_apart _ (by decide) hfloor, State.fld_setFld_apart _ (by decide) hreason,
    State.fld_setFld_apart _ (by decide) hfails]

theorem State.startStep_bootStatus (s : State) : s.bootStatus.startStep = s.startStep :=
  s.fld_bootStatus (by decide) (by decide) (by decide) 0 0

theorem ne_regKey_of_keyIn {rs : List RegName} {r : RegName} {i j : Nat} {key : Nat} (hr : r ∉ rs)
    (h : keyIn rs (fun _ _ => true) key = true) : key ≠ regKey r i j := by
  rintro rfl
  simp only [keyIn, regKey, Nat.unpair_pair, Bool.and_true, List.contains_eq_mem, List.mem_map, decide_eq_true_eq] at h
  obtain ⟨x, hx, he⟩ := h
  exact hr (RegName.ctorIdx_inj he ▸ hx)

/-- A reset of every domain keeps no copy of HQ_START_STATUS, which then reads as zero. -/
theorem State.reg_resetAll_startStatus (keepErr keepDram : Bool) (s : State) :
    (s.resetAll keepErr keepDram).reg .HQ_START_STATUS 0 0 = 0 := by
  unfold State.resetAll
  extract_lets r kept chans z1 z2 z3 z4 z5 z6 z7 t held
  have hkept : ∀ e ∈ kept, e.1 ≠ regKey .HQ_START_STATUS 0 0 := by
    intro e he
    rcases List.mem_append.mp he with he | he
    · cases keepErr with
      | false => exact absurd he List.not_mem_nil
      | true => exact ne_regKey_of_keyIn (by decide) (List.mem_filter.mp he).2
    · exact ne_regKey_of_keyIn (by decide) (List.mem_filter.mp he).2
  have ht : t.reg .HQ_START_STATUS 0 0 = 0 := by
    show Tbl.getD (kept.foldl (fun (t : Tbl W64) e => t.put e.1 e.2) []) _ _ = _
    rw [Tbl.getD, Tbl.get?_foldl_put_ne kept [] hkept]
    decide
  split
  · exact (State.reg_setReg_other t (by decide) ..).trans ht
  · exact ht

theorem State.mode_resetAll (keepErr keepDram : Bool) (s : State) : (s.resetAll keepErr keepDram).mode = 0 := by
  rw [State.mode, State.fld, show fHQ_START_STATUS_MODE.reg = .HQ_START_STATUS from rfl, State.reg_resetAll_startStatus]
  decide

theorem State.startStep_resetAll (keepErr keepDram : Bool) (s : State) : (s.resetAll keepErr keepDram).startStep = 0 := by
  rw [State.startStep, State.fld, show fHQ_START_STATUS_STEP.reg = .HQ_START_STATUS from rfl, State.reg_resetAll_startStatus]
  decide

theorem State.boot_resetAll (keepErr keepDram : Bool) (s : State) : (s.resetAll keepErr keepDram).boot = s.boot := by
  cases keepErr <;> rfl

/-! ### The start history (R351) -/

theorem State.modEntry_eq (f : HistEntry → HistEntry) (s : State) :
    s.modEntry f = { s with boot := { s.boot with history := s.boot.history.modifyHead f } } := by
  unfold State.modEntry
  split
  · next h =>
    rw [h, List.modifyHead_nil, ← h]
  · next h => rw [h, List.modifyHead_cons]

theorem State.newestOutcome_eq_head {s : State} {e : HistEntry} {es : List HistEntry} (h : s.boot.history = e :: es) :
    s.newestOutcome = e.outcome := by
  rw [State.newestOutcome, h]
  rfl

/-- A new entry comes before those of before. -/
theorem State.pushEntry_eq (e : HistEntry) (s : State) :
    ∃ h, s.pushEntry e = { s with boot := { s.boot with history := h } } ∧ h[1]? = s.boot.history[0]? :=
  ⟨_, rfl, by rw [List.getElem?_take_of_lt (by decide), List.getElem?_cons_succ]⟩

/-! ### Beginning a start (R348, R351, R352) -/

/-- FAILS as the next start finds it: a start closed POWER_LOST does not count. -/
def State.countedFails (s : State) : Nat := if s.newestOutcome = 3 then s.boot.fails - 1 else s.boot.fails

/-- The start's entry is settled: one still open was interrupted. -/
def State.settleEntry (s : State) : State :=
  if s.newestOutcome = 0 then s.modEntry fun e => { e with outcome := 2, reason := 0x0A } else s

/-- A start has its number and its count, and a history; it runs or does not. -/
def State.numbered (hist : List HistEntry) (fails : Nat) (runs : Bool) (s : State) : State :=
  { s with
    boot := { s.boot with history := hist, fails := fails, startNo := s.boot.startNo + 1 }
    start := { s.start with began := s.now, stepAt := s.now, running := runs } }

theorem State.settleEntry_eq (s : State) :
    ∃ h, s.settleEntry = { s with boot := { s.boot with history := h } } ∧ (s.newestOutcome ≠ 0 → h = s.boot.history) := by
  unfold State.settleEntry
  split
  · next h0 => exact ⟨_, State.modEntry_eq .., fun h => absurd h0 h⟩
  · exact ⟨s.boot.history, rfl, fun _ => rfl⟩

theorem State.newestOutcome_settleEntry (s : State) : s.settleEntry.newestOutcome = 3 ↔ s.newestOutcome = 3 := by
  unfold State.settleEntry
  split
  · next h0 =>
    rw [State.modEntry_eq, h0]
    cases hh : s.boot.history with
    | nil =>
      rw [State.newestOutcome, hh] at h0
      cases h0
    | cons e es => simp [State.newestOutcome]
  · rfl

/-- A start is numbered; it runs with an entry of its own, or FAILS is 3 and mitten mode is entered. -/
theorem State.beginStart_eq (s : State) :
    ∃ hist, (s.newestOutcome ≠ 0 → hist = s.boot.history) ∧
      s.beginStart = if 3 ≤ s.countedFails then (s.numbered hist s.countedFails s.start.running).enterMitten
        else (s.numbered hist (s.countedFails + 1) true).bootStatus.pushEntry
          { startNo := s.boot.startNo + 1, fails := s.countedFails + 1 } := by
  obtain ⟨hist, hset, hhist⟩ := s.settleEntry_eq
  have hfails : (if s.settleEntry.newestOutcome = 3 then s.settleEntry.boot.fails - 1 else s.settleEntry.boot.fails) =
      s.countedFails := by
    simp only [State.newestOutcome_settleEntry, State.countedFails]
    rw [hset]
  refine ⟨hist, hhist, ?_⟩
  unfold State.beginStart
  rw [← State.settleEntry]
  simp only [hfails]
  rw [hset]
  rfl

theorem State.fld_numbered (hist : List HistEntry) (fails : Nat) (runs : Bool) (s : State) (f : Fld) (i j : Nat) :
    (s.numbered hist fails runs).fld f i j = s.fld f i j := rfl

theorem State.numbered_bootStatus (hist : List HistEntry) (fails : Nat) (runs : Bool) (s : State) :
    (s.numbered hist fails runs).bootStatus.mode = s.mode ∧ (s.numbered hist fails runs).bootStatus.startStep = s.startStep ∧
      (s.numbered hist fails runs).bootStatus.start = { s.start with began := s.now, stepAt := s.now, running := runs } ∧
      (s.numbered hist fails runs).bootStatus.boot =
        { s.boot with history := hist, fails := fails, startNo := s.boot.startNo + 1 } := by
  obtain ⟨-, parts, -, -⟩ := State.bootStatus_keeps (s.numbered hist fails runs)
  refine ⟨?_, ?_, parts .start (by decide +kernel), parts .boot (by decide +kernel)⟩
  · rw [State.mode, State.fld_bootStatus _ (by decide) (by decide) (by decide), State.fld_numbered, State.mode]
  · rw [State.startStep, State.fld_bootStatus _ (by decide) (by decide) (by decide), State.fld_numbered, State.startStep]

theorem State.boot_bootStatus (s : State) : s.bootStatus.boot = s.boot := by
  rw [State.bootStatus, State.boot_setFld, State.boot_setFld, State.boot_setFld]

/-- Mitten mode opens an entry, and else changes only HQ_START_STATUS. -/
theorem State.enterMitten_eq (s : State) :
    ∃ (u : State) (h : List HistEntry), s.enterMitten = { u with boot := { s.boot with history := h } } ∧ u.mode = 2 ∧
      h[1]? = s.boot.history[0]? := by
  unfold State.enterMitten
  extract_lets u old v
  have hboot : v.boot = s.boot := by
    rw [State.boot_setFld, State.boot_bootStatus, State.boot_setFld]
  have hmode : v.mode = 2 := by
    rw [State.mode_setFld_apart _ (by decide) (by decide), State.mode,
      State.fld_bootStatus _ (by decide) (by decide) (by decide), State.fld_setFld_self _ (by decide)]
    decide
  clear_value v
  obtain ⟨h, heq, hprev⟩ := State.pushEntry_eq
    { startNo := v.boot.startNo, outcome := 4, step := old.step, reason := v.lastReason, fails := v.boot.fails } v
  rw [heq, hboot]
  exact ⟨v, h, rfl, hmode, hprev.trans (by rw [hboot])⟩

/-- A start that runs from S0. -/
structure Begun (s t : State) : Prop where
  mode : t.mode = s.mode
  step : t.startStep = s.startStep
  running : t.start.running = true
  firstChoice : t.start.firstChoice = s.start.firstChoice
  startNo : t.boot.startNo = s.boot.startNo + 1
  fails : t.boot.fails = s.countedFails + 1
  previous : s.newestOutcome ≠ 0 → t.boot.history[1]? = s.boot.history[0]?

theorem begun_of_pushed {s u v : State} {hist h : List HistEntry} (hhist : s.newestOutcome ≠ 0 → hist = s.boot.history)
    (hmode : u.mode = s.mode) (hstep : u.startStep = s.startStep)
    (hstart : u.start = { s.start with began := s.now, stepAt := s.now, running := true })
    (hboot : u.boot = { s.boot with history := hist, fails := s.countedFails + 1, startNo := s.boot.startNo + 1 })
    (hv : v = { u with boot := { u.boot with history := h } }) (hprev : h[1]? = u.boot.history[0]?) : Begun s v := by
  subst hv
  refine ⟨hmode, hstep, (congrArg Start.running hstart :), (congrArg Start.firstChoice hstart :),
    (congrArg BootFlash.startNo hboot :), (congrArg BootFlash.fails hboot :), fun hout => ?_⟩
  rw [← hhist hout]
  exact hprev.trans (congrArg (fun b => b.history[0]?) hboot)

theorem State.tryStart_begun {s : State} (hmay : s.mayStart = true) (hfails : s.countedFails < 3) : Begun s s.tryStart := by
  obtain ⟨hist, hhist, hbegin⟩ := s.beginStart_eq
  obtain ⟨hmode, hstep, hstart, hboot⟩ := s.numbered_bootStatus hist (s.countedFails + 1) true
  obtain ⟨h, heq, hprev⟩ := State.pushEntry_eq { startNo := s.boot.startNo + 1, fails := s.countedFails + 1 }
    (s.numbered hist (s.countedFails + 1) true).bootStatus
  refine begun_of_pushed hhist hmode hstep hstart hboot (Eq.trans ?_ heq) hprev
  rw [State.tryStart, if_pos hmay, hbegin, if_neg (Nat.not_le.mpr hfails)]

/-- A start leaves what the boot flash stores beside the history and the counts. -/
theorem State.tryStart_boot (s : State) :
    s.tryStart.boot.stored = s.boot.stored ∧ s.tryStart.boot.secFloor = s.boot.secFloor ∧
      s.tryStart.boot.startNo = if s.mayStart then s.boot.startNo + 1 else s.boot.startNo := by
  unfold State.tryStart
  split
  · obtain ⟨hist, -, hbegin⟩ := s.beginStart_eq
    rw [hbegin]
    split
    · obtain ⟨u, h, heq, -, -⟩ := State.enterMitten_eq (s.numbered hist s.countedFails s.start.running)
      rw [heq]
      exact ⟨rfl, rfl, rfl⟩
    · obtain ⟨-, -, -, hboot⟩ := s.numbered_bootStatus hist (s.countedFails + 1) true
      generalize (s.numbered hist (s.countedFails + 1) true).bootStatus = u at *
      obtain ⟨h, heq, -⟩ := State.pushEntry_eq { startNo := s.boot.startNo + 1, fails := s.countedFails + 1 } u
      rw [heq]
      exact ⟨(congrArg BootFlash.stored hboot :), (congrArg BootFlash.secFloor hboot :), (congrArg BootFlash.startNo hboot :)⟩
  · exact ⟨rfl, rfl, rfl⟩

theorem State.ras_tryStart_of_mayStart {s : State} (h : s.mayStart = true) : s.tryStart.ras = s.ras := by
  rw [State.tryStart, if_pos h]
  exact (State.beginStart_keeps s).parts .ras (by decide +kernel)

theorem State.tryStart_held {s : State} (h : s.mayStart = false) :
    s.tryStart.ras.resets.map (fun r => (r.domain, r.phase)) = [(5, 4)] := by
  rw [State.tryStart, if_neg (ne_true_of_eq_false h)]
  rfl

/-! ### A start that fails (R349) -/

/-- Closing the entry of the start. -/
theorem State.closeStart_eq (outcome reason detail : Nat) (s : State) :
    ∃ f : HistEntry → HistEntry, s.closeStart outcome reason detail =
        { s with boot := { s.boot with history := s.boot.history.modifyHead f } } ∧
      ∀ e, (f e).outcome = outcome ∧ (f e).step = s.startStep ∧ (f e).reason = reason :=
  ⟨_, State.modEntry_eq .., fun _ => ⟨rfl, rfl, rfl⟩⟩

/-- A start that fails closes its entry with its step and reason; the next one begins, or mitten mode is entered. -/
theorem State.failStart_startFailed {s : State} (hlost : s.newestOutcome ≠ 3) (reason detail : Nat) :
    (s.failStart reason detail).startFailed s reason := by
  obtain ⟨f, hclose, hf⟩ := s.closeStart_eq 2 reason detail
  have hbeq : (s.newestOutcome == 3) = false := beq_eq_false_iff_ne.mpr hlost
  unfold State.failStart
  extract_lets lost u key st z t
  have hu : u = { s with boot := { s.boot with history := s.boot.history.modifyHead f } } :=
    (if_neg (ne_true_of_eq_false hbeq)).trans hclose
  have hlost' : lost = false := hbeq
  have hzboot : z.boot = { s.boot with history := s.boot.history.modifyHead f } :=
    (State.boot_resetAll ..).trans (congrArg State.boot hu)
  have hzpins : z.pins = s.pins :=
    ((State.resetAll_keeps true s.start.restoreDram u).parts .pins (by decide +kernel)).trans
      (congrArg State.pins hu :)
  have hzmode : z.mode = 0 := State.mode_resetAll ..
  have hzstep : z.startStep = 0 := State.startStep_resetAll ..
  clear_value z st key lost u
  have hmay : t.mayStart = s.mayStart := by
    rw [State.mayStart, State.mayStart, show t.pins = s.pins from hzpins]
  have hboot : t.boot = { s.boot with history := s.boot.history.modifyHead f } := hzboot
  have hmode : t.mode = 0 := hzmode
  have hstep : t.startStep = 0 := hzstep
  clear_value t
  have hout : s.boot.history ≠ [] → t.boot.history[0]?.map (fun e => (e.outcome, e.step, e.reason)) =
      some (2, s.startStep, reason) := by
    intro hne
    obtain ⟨e, es, he⟩ := List.exists_cons_of_ne_nil hne
    obtain ⟨h1, h2, h3⟩ := hf e
    rw [hboot, he]
    simp only [List.modifyHead_cons, List.getElem?_cons_zero, Option.map_some, h1, h2, h3]
  have hnewest : t.newestOutcome ≠ 0 ∧ t.newestOutcome ≠ 3 := by
    rw [State.newestOutcome, hboot]
    cases hh : s.boot.history with
    | nil => simp
    | cons e es => simp [hf e]
  have hfails : t.boot.fails = s.boot.fails := by rw [hboot]
  have hno : t.boot.startNo = s.boot.startNo := by rw [hboot]
  have hcounted : t.countedFails = s.boot.fails := (if_neg hnewest.2).trans hfails
  by_cases hthree : 3 ≤ s.boot.fails
  · rw [if_pos ⟨hfails ▸ hthree, by rw [hlost']; rfl⟩]
    obtain ⟨v, h, heq, hmitten, hprev⟩ := State.enterMitten_eq (t.setFld fHQ_START_STATUS_KEY_OK 0 0 key)
    rw [heq]
    refine ⟨fun _ => ⟨hmitten, hno⟩, fun h => absurd h (Nat.not_lt.mpr hthree), fun hne _ => ?_⟩
    exact (congrArg _ hprev).trans (hout hne)
  · rw [if_neg fun h => hthree (hfails ▸ h.1)]
    have hlt : s.boot.fails < 3 := Nat.not_le.mp hthree
    have hbegun : s.mayStart = true → Begun t t.tryStart := fun h =>
      State.tryStart_begun (hmay.trans h) (hcounted ▸ hlt)
    refine ⟨fun h => absurd h hthree, fun _ h => ?_, fun hne h => ?_⟩
    · obtain ⟨bmode, bstep, brun, -, bno, bfails, -⟩ := hbegun h
      exact ⟨bmode.trans hmode, bstep.trans hstep, brun, bno.trans (congrArg (· + 1) hno),
        bfails.trans (congrArg (· + 1) hcounted)⟩
    · rw [(hbegun (h hlt)).previous hnewest.1]
      exact hout hne

/-! ### The end of a command object (R363) -/

/-- The invocations of a command object that ran when it ended have this status and result. -/
theorem State.endInvoke_told (index sub status detail : Nat) (result : List Byte) (s : State) :
    (s.endInvoke index sub status detail result).told s index sub status result := by
  intro x hx hindex hsub hended
  refine ⟨_, List.mem_map_of_mem hx, ?_⟩
  rw [if_pos ⟨hindex, hsub, by rw [hended]; rfl⟩]
  exact ⟨rfl, hindex, hsub, rfl, rfl, rfl⟩

/-! ### The copies of a record (R343, R346) -/

/-- The copy that a write fills is then the one in use. -/
theorem RecCopies.usesB_write (r : RecCopies) : (RecCopies.write r).usesB = !r.usesB := by
  cases h : r.usesB with
  | true =>
    rw [RecCopies.write, if_pos h, RecCopies.usesB, RecCopies.sequence, if_pos h]
    simp
  | false =>
    rw [RecCopies.write, if_neg (ne_true_of_eq_false h), RecCopies.usesB, RecCopies.sequence, if_neg (ne_true_of_eq_false h)]
    cases r.okA <;> simp

theorem RecCopies.valid_write (r : RecCopies) : (RecCopies.write r).valid = true := by
  unfold RecCopies.write
  split
  · exact Bool.true_or _
  · exact Bool.or_true _

end Sys2Proof.Machine
end

section
/-! SUPPORT. Power-on, mitten mode's commands and the records of the boot flash (R26, R343, R346, R347, R352, R353, R354). -/

namespace Sys2Proof.Machine

/-! ### POWER_ON (R26, R348, R397) -/

theorem powerOn_begins (s : State) : Leads .powerOn s fun t => t.now = 0 ∧ t.dram = [] ∧ t.hostMem = s.hostMem ∧
    t.pins.faultN = true ∧ t.pins.thermtripN = true ∧ t.boot.stored = s.boot.stored ∧ t.boot.secFloor = s.boot.secFloor ∧
    (s.pins.resetN = true → s.pins.sysclk = true → t.boot.startNo = s.boot.startNo + 1 ∧ t.ras.resets = []) ∧
    (s.pins.resetN = false ∨ s.pins.sysclk = false → t.boot.startNo = s.boot.startNo ∧
      t.ras.resets.map (fun r => (r.domain, r.phase)) = [(5, 4)]) := by
  obtain ⟨-, parts, -, -⟩ := State.tryStart_keeps s.poweredUp
  obtain ⟨hstored, hfloor, hno⟩ := s.poweredUp.tryStart_boot
  have hpins : s.poweredUp.tryStart.pins = { s.pins with faultN := true, thermtripN := true } :=
    parts .pins (by decide +kernel)
  have hmay : s.poweredUp.mayStart = (s.pins.resetN && s.pins.sysclk) := Bool.and_true _
  refine ⟨_, exec_powerOn s, State.now_tryStart _, parts .dram (by decide +kernel), parts .hostMem (by decide +kernel),
    congrArg Pins.faultN hpins, congrArg Pins.thermtripN hpins, hstored, hfloor, fun hreset hclock => ?_, fun hheld => ?_⟩
  · have hyes : s.poweredUp.mayStart = true := by rw [hmay, hreset, hclock]; rfl
    exact ⟨hno.trans (if_pos hyes), congrArg Ras.resets (State.ras_tryStart_of_mayStart hyes)⟩
  · have hnot : s.poweredUp.mayStart = false := by
      rw [hmay]
      rcases hheld with h | h
      · rw [h]; rfl
      · rw [h, Bool.and_false]
    exact ⟨hno.trans (if_neg (ne_true_of_eq_false hnot)), State.tryStart_held hnot⟩

/-! ### The invocation of a command object (R361, R363) -/

theorem State.told_congr {s s' t : State} {index sub status : Nat} {result : List Byte} (hs : s'.dict = s.dict)
    (h : t.told s' index sub status result) : t.told s index sub status result := by
  unfold State.told at h ⊢
  rw [← hs]
  exact h

/-- A command of the boot range that its own rule refuses changes nothing but the invocation (R352). -/
theorem State.invokeRefused_tells (index sub : Nat) (s : State) :
    (s.invokeRefused index sub).boot = s.boot ∧ (s.invokeRefused index sub).told s index sub 0x10 [] :=
  ⟨rfl, State.endInvoke_told index sub 0x10 dtRefused [] s⟩

theorem State.invokeOk_tells (index sub : Nat) (result : List Byte) (s : State) :
    (s.invokeOk index sub result).boot = s.boot ∧ (s.invokeOk index sub result).told s index sub 0 result :=
  ⟨rfl, State.endInvoke_told index sub 0 0 result s⟩

/-! ### PROVISION and ATTEST (R347, R354) -/

theorem provision_once (s : State) : Leads .provision s fun t =>
    (s.boot.identity.valid = true → t.boot = s.boot ∧ t.out = s.out ∧ t.ras.refused = s.ras.refused + 1) ∧
    (s.boot.identity.valid = false → t.boot.identity.valid = true ∧
      t.out = s.out ++ [.provisioned (Config.ed448Public (Config.deviceKey 0))]) := by
  show ∃ t, execProvision s = .next t ∧ _
  unfold execProvision
  split
  · next hvalid => exact ⟨_, rfl, fun _ => ⟨rfl, rfl, rfl⟩, fun h => absurd (hvalid.symm.trans h) (by decide)⟩
  · next hvalid => exact ⟨_, rfl, fun h => absurd h hvalid, fun _ => ⟨RecCopies.valid_write _, rfl⟩⟩

theorem attest_reports (nonce : List Byte) (s : State) : Leads (.attest nonce) s fun t => t.boot = s.boot ∧
    (s.isOn fHQ_START_STATUS_KEY_OK 0 0 = true → nonce.length = 32 → t.told s 0x1001 0 0 (s.attestReport nonce)) ∧
    (s.isOn fHQ_START_STATUS_KEY_OK 0 0 = false → t.told s 0x1001 0 0x10 []) := by
  show ∃ t, execAttest nonce s = .next t ∧ _
  unfold execAttest
  split
  · next hok =>
    obtain ⟨hkey, -⟩ := Bool.and_eq_true_iff.mp hok
    obtain ⟨hboot, htold⟩ := s.invokeOk_tells 0x1001 0 (s.attestReport nonce)
    exact ⟨_, rfl, hboot, fun _ _ => htold, fun h => absurd (hkey.symm.trans h) (by decide)⟩
  · next hbad =>
    obtain ⟨hboot, htold⟩ := s.invokeRefused_tells 0x1001 0
    exact ⟨_, rfl, hboot, fun hkey hlen => absurd (by rw [hkey, hlen]; rfl) hbad, fun _ => htold⟩

/-! ### The image sets and the records (R343 to R346, R353) -/

theorem imageWrite_answers (k : Nat) (i : ImageInfo) (s : State) : Leads (.imageWrite k i) s fun t =>
    (k ≤ 1 → (s.mode = 1 ∧ s.runSet ≠ some k ∨ s.mode = 2) → t.image k = some i ∧ t.image (1 - k) = s.image (1 - k) ∧
      t.told s 0x2002 0 0 []) ∧
    (1 < k ∨ s.mode = 0 ∨ s.mode = 1 ∧ s.runSet = some k → t.boot = s.boot ∧ t.told s 0x2002 0 0x10 []) := by
  show ∃ t, execImageWrite k i s = .next t ∧ _
  unfold execImageWrite
  split
  · next hbad =>
    refine ⟨_, rfl, fun hk hmay => ?_, fun _ => s.invokeRefused_tells 0x2002 0⟩
    rcases hbad with h | h | ⟨h, hrun⟩
    · omega
    · omega
    · rcases hmay with ⟨-, hother⟩ | h2
      · exact absurd hrun hother
      · omega
  · next hgood =>
    extract_lets b
    refine ⟨_, rfl, fun hk _ => ?_, fun h => absurd h hgood⟩
    have htold : (State.invokeOk 0x2002 0 [] { s with boot := b }).told s 0x2002 0 0 [] :=
      State.told_congr rfl (State.invokeOk_tells ..).2
    obtain rfl | rfl : k = 0 ∨ k = 1 := by omega
    · exact ⟨rfl, rfl, htold⟩
    · exact ⟨rfl, rfl, htold⟩

theorem imageVerify_answers (k : Nat) (s : State) (hk : k ≤ 1) : Leads (.imageVerify k) s fun t => t.boot = s.boot ∧
    t.told s 0x2002 1 0 (leBytes 1 (16 ^ k * imageBits (s.image k) s.boot.secFloor)) :=
  ⟨_, if_neg (Nat.not_lt.mpr hk), State.invokeOk_tells ..⟩

theorem secverCommit_raises (s : State) : Leads .secverCommit s fun t =>
    (s.mode = 1 → t.boot.secFloor = max s.boot.secFloor (s.fld fHQ_START_STATUS_SEC_VERSION 0 0) ∧
      t.boot.config.valid = true ∧ t.told s 0x2003 0 0 []) ∧
    (s.mode ≠ 1 → t.boot = s.boot ∧ t.told s 0x2003 0 0x10 []) := by
  show ∃ t, execSecverCommit s = .next t ∧ _
  unfold execSecverCommit
  split
  · next hmode => exact ⟨_, rfl, fun h => absurd h hmode, fun _ => s.invokeRefused_tells 0x2003 0⟩
  · next hmode =>
    extract_lets v z u
    refine ⟨_, rfl, fun _ => ?_, fun h => absurd h hmode⟩
    obtain ⟨hboot, htold⟩ := State.invokeOk_tells 0x2003 0 [] (u.setFld fHQ_START_STATUS_SEC_FLOOR 0 0 v)
    refine ⟨?_, ?_, State.told_congr (s' := u.setFld fHQ_START_STATUS_SEC_FLOOR 0 0 v) rfl htold⟩
    · rw [hboot, State.boot_setFld]
      rfl
    · rw [hboot, State.boot_setFld]
      exact RecCopies.valid_write _

theorem preferredSet_chooses (k : Nat) (s : State) : Leads (.preferredSet k) s fun t =>
    (k ≤ 1 → s.mode ≠ 0 → t.preferred = k ∧ t.boot.anchor.valid = true) ∧
    (1 < k ∨ s.mode = 0 → t.boot = s.boot ∧ t.ras.refused = s.ras.refused + 1) := by
  show ∃ t, execPreferredSet k s = .next t ∧ _
  unfold execPreferredSet
  split
  · next hbad =>
    refine ⟨_, rfl, fun hk hmode => ?_, fun _ => ⟨rfl, rfl⟩⟩
    rcases hbad with h | h
    · omega
    · exact absurd h hmode
  · next hgood =>
    extract_lets z b
    refine ⟨_, rfl, fun _ _ => ⟨?_, RecCopies.valid_write _⟩, fun h => absurd h hgood⟩
    have huses : (RecCopies.write s.boot.anchor).usesB = !s.boot.anchor.usesB := RecCopies.usesB_write _
    simp only [State.preferred, RecCopies.valid_write, huses, Bool.not_true, Bool.false_eq_true, if_false, b]
    split
    · next hA => rw [Bool.not_eq_true'] at hA; simp [hA]
    · next hB => rw [Bool.not_eq_true', Bool.not_eq_false] at hB; simp [hB]

/-! ### Mitten mode (R352, R353) -/

theorem configReset_empties (s : State) : Leads .configReset s fun t =>
    (s.mode = 2 → t.boot.stored = [] ∧ t.dict.unsaved = [] ∧ t.boot.secFloor = s.boot.secFloor ∧ t.boot.config.valid = true ∧
      t.told s 0x2005 0 0 []) ∧
    (s.mode ≠ 2 → t.boot = s.boot ∧ t.told s 0x2005 0 0x10 []) := by
  show ∃ t, execConfigReset s = .next t ∧ _
  unfold execConfigReset
  split
  · next hmode => exact ⟨_, rfl, fun h => absurd h hmode, fun _ => s.invokeRefused_tells 0x2005 0⟩
  · next hmode =>
    extract_lets z1 z2 u
    refine ⟨_, rfl, fun _ => ⟨rfl, rfl, rfl, RecCopies.valid_write _, ?_⟩, fun h => absurd h hmode⟩
    exact State.endInvoke_told 0x2005 0 0 0 [] u.writeConfig

/-- A start that begins with no failed start counted, and everything at reset. -/
theorem State.tryStart_retried {t : State} {st : Start} (hmode : t.mode = 0) (hstep : t.startStep = 0)
    (hmay : t.mayStart = true) (hfails : t.boot.fails = 0) :
    (State.tryStart { t with start := st }).mode = 0 ∧ (State.tryStart { t with start := st }).startStep = 0 ∧
      (State.tryStart { t with start := st }).boot.startNo = t.boot.startNo + 1 ∧
      (State.tryStart { t with start := st }).boot.fails = 1 ∧
      (State.tryStart { t with start := st }).start.firstChoice = st.firstChoice := by
  have hcounted : State.countedFails { t with start := st } = 0 := by
    simp only [State.countedFails, hfails]
    split <;> rfl
  obtain ⟨bmode, bstep, -, bchoice, bno, bfails, -⟩ :=
    State.tryStart_begun (s := { t with start := st }) hmay (by rw [hcounted]; decide)
  exact ⟨bmode.trans hmode, bstep.trans hstep, bno, bfails.trans (by rw [hcounted]), bchoice⟩

/-- A retried start counts as the first (R352). -/
theorem startRetry_restarts (k : Nat) (s : State) : Leads (.startRetry k) s fun t =>
    (s.mode = 2 → k ≤ 1 → s.mayStart = true → t.mode = 0 ∧ t.startStep = 0 ∧ t.boot.startNo = s.boot.startNo + 1 ∧
      t.boot.fails = 1 ∧ t.start.firstChoice = some k) ∧
    (s.mode ≠ 2 ∨ 1 < k → t.boot = s.boot ∧ t.told s 0x2004 0 0x10 []) := by
  show ∃ t, execStartRetry k s = .next t ∧ _
  unfold execStartRetry
  split
  · next hbad =>
    refine ⟨_, rfl, fun hmode hk => ?_, fun _ => s.invokeRefused_tells 0x2004 0⟩
    rcases hbad with h | h
    · exact absurd hmode h
    · omega
  · next hgood =>
    extract_lets z u t
    refine ⟨_, rfl, fun _ _ hmay => ?_, fun h => absurd h hgood⟩
    have hpins : t.pins = s.pins := (State.resetAll_keeps true u.start.restoreDram u).parts .pins (by decide +kernel)
    have hboot : t.boot = { s.boot with fails := 0 } := State.boot_resetAll ..
    have hmode : t.mode = 0 := State.mode_resetAll ..
    have hstep : t.startStep = 0 := State.startStep_resetAll ..
    clear_value t
    obtain ⟨rmode, rstep, rno, rfails, rchoice⟩ := State.tryStart_retried
      (st := { u.start with firstChoice := some k, sets := 0, setDigest := [], bad := [] }) hmode hstep
      (by rw [State.mayStart, hpins]; exact hmay) (by rw [hboot])
    exact ⟨rmode, rstep, rno.trans (by rw [hboot]), rfails, rchoice⟩

end Sys2Proof.Machine
end

section
/-! SUPPORT. The steps of a start: the next step, the choice of a set, stored objects put in place, units brought up, and
service opened (R345, R348, R350, R371). -/

namespace Sys2Proof.Machine

/-! ### The next step (R348) -/

theorem State.modEntry_stepAt (f : HistEntry → HistEntry) (u : State) :
    ∃ h, { u.modEntry f with start := { (u.modEntry f).start with stepAt := (u.modEntry f).now } } =
      { u with boot := { u.boot with history := h }, start := { u.start with stepAt := u.now } } := by
  rw [State.modEntry_eq]
  exact ⟨_, rfl⟩

theorem State.nextStep_eq (s : State) :
    ∃ (u : State) (h : List HistEntry), u = s.setFld fHQ_START_STATUS_STEP 0 0 (s.startStep + 1) ∧
      s.nextStep = { u with boot := { u.boot with history := h }, start := { u.start with stepAt := u.now } } := by
  obtain ⟨h, heq⟩ := State.modEntry_stepAt (fun e => { e with step := s.startStep + 1 })
    (s.setFld fHQ_START_STATUS_STEP 0 0 (s.startStep + 1))
  exact ⟨_, h, rfl, heq⟩

theorem State.startStep_nextStep {s : State} {n : Nat} (h : s.startStep = n) (hn : n + 1 < 16) :
    s.nextStep.startStep = n + 1 := by
  obtain ⟨u, hist, hu, heq⟩ := s.nextStep_eq
  rw [heq]
  refine (State.fld_of_regs (s := u) rfl ..).trans ?_
  rw [hu, h, State.fld_setFld_self s (by decide)]
  exact Nat.mod_eq_of_lt hn

theorem State.fld_nextStep (s : State) {f : Fld} (h : Fld.apart fHQ_START_STATUS_STEP f = true) (i j : Nat) :
    s.nextStep.fld f i j = s.fld f i j := by
  obtain ⟨u, hist, hu, heq⟩ := s.nextStep_eq
  rw [heq]
  refine (State.fld_of_regs (s := u) rfl ..).trans ?_
  rw [hu, State.fld_setFld_apart s (by decide) h]

theorem State.flushed_nextStep (s : State) : s.nextStep.boot.flushed = s.boot.flushed := by
  obtain ⟨u, hist, hu, heq⟩ := s.nextStep_eq
  rw [heq, hu, State.boot_setFld]

theorem State.fl_nextStep (s : State) : s.nextStep.fl = s.fl := (State.nextStep_keeps s).parts .fl (by decide +kernel)

/-- A step whose work leaves HQ_START_STATUS goes on to the next one. -/
theorem Keeps.next {m n : Nat} {s t : State} (h : Keeps m s t) (hm : m.testBit (regBit .HQ_START_STATUS) = false)
    (hs : s.startStep = n) (hn : n + 1 < 16) : t.nextStep.startStep = n + 1 :=
  State.startStep_nextStep ((h.startStep hm).trans hs) hn

/-! ### Stored objects (R348, R371) -/

theorem writeValue_startStatus (old v : W64) : writeValue .HQ_START_STATUS old v = old := rfl

/-- No write changes HQ_START_STATUS, whose fields are all RO. -/
theorem State.startStatus_writeReg (r : RegName) (i j : Nat) (v : W64) (s : State) :
    (s.writeReg r i j v).reg .HQ_START_STATUS 0 0 = s.reg .HQ_START_STATUS 0 0 := by
  rw [State.writeReg]
  by_cases hr : r = .HQ_START_STATUS
  · subst hr
    rw [writeValue_startStatus]
    by_cases hij : ((0 : Nat), (0 : Nat)) = (i, j)
    · obtain ⟨rfl, rfl⟩ := Prod.mk.inj hij
      exact State.reg_setReg_self ..
    · exact State.reg_setReg_copy s _ hij _
  · exact State.reg_setReg_other s (Ne.symm hr) ..

/-- No object stands for a single field of HQ_START_STATUS. -/
theorem objects_field_reg : ∀ r ∈ objects, ∀ f n, r.src = .field f n → f.reg ≠ .HQ_START_STATUS := by
  have hall : objects.all (fun r => match r.src with | .field f _ => f.reg != .HQ_START_STATUS | _ => true) = true := by
    decide +kernel
  intro r hr f n hsrc
  have h := List.all_eq_true.mp hall r hr
  rw [hsrc] at h
  exact bne_iff_ne.mp h

theorem State.startStep_applyStored (index sub : Nat) (v : List Byte) (s : State) :
    (s.applyStored index sub v).startStep = s.startStep := by
  have hdiscard : ∀ loc value, (s.discard loc value).startStep = s.startStep :=
    fun loc value => (State.discard_keeps loc value s).startStep (by decide +kernel)
  have hcopies : ∀ (cs : List (RegName × Nat × Nat)) (w : W64),
      (forEach cs (fun c t => t.writeReg c.1 c.2.1 c.2.2 w) s).startStep = s.startStep := fun cs w =>
    forEach_keeps (P := fun u => u.startStep = s.startStep)
      (fun c u hu => (congrArg (Fld.get _) (State.startStatus_writeReg ..)).trans hu) cs rfl
  unfold State.applyStored
  split
  · exact hdiscard ..
  · next r hrow =>
    split
    · exact hdiscard ..
    · split
      · next f n hsrc =>
        have hreg := objects_field_reg r (List.mem_of_find?_eq_some hrow) f n hsrc
        exact forEach_keeps (P := fun u => u.startStep = s.startStep)
          (fun d u hu => (State.fld_setFld_other u hreg.symm ..).trans hu) _ rfl
      · exact hcopies ..
      · exact hcopies ..
      · exact hcopies ..
      · rfl

theorem State.startStep_applyConfig (rom : Bool) (s : State) : (s.applyConfig rom).startStep = s.startStep :=
  forEach_keeps (P := fun u => u.startStep = s.startStep)
    (fun _ _ hu => (State.startStep_applyStored ..).trans hu) _ rfl

/-! ### The choice of a set (R345, R348) -/

/-- The sets as S3 reads them from the boot flash. -/
def State.loaded (a b : ImageInfo) (s : State) : State := { s with boot := { s.boot with setA := some a, setB := some b } }

/-- The set `set` runs. -/
def State.runsSet (a : ImageInfo) (set other : Nat) (s : State) : State :=
  let i := (s.image set).getD a
  let s := (s.setFld fHQ_START_STATUS_SET_RUN 0 0 set).setFld fHQ_START_STATUS_SEC_VERSION 0 0 (imageSecVersion i)
  { s with start := { s.start with sets := s.start.sets ||| set ||| 2 * other, setDigest := imageDigest i } }.nextStep

theorem State.chooseSet_eq (a b : ImageInfo) (s : State) :
    s.chooseSet a b =
      if (s.loaded a b).verifies s.firstSet then (s.loaded a b).runsSet a s.firstSet 0
      else if (s.loaded a b).verifies (1 - s.firstSet) then (s.loaded a b).runsSet a (1 - s.firstSet) 1
      else ((s.loaded a b).setSets 2).failStart 4
        (imageBits (some a) s.boot.secFloor + 16 * imageBits (some b) s.boot.secFloor) := rfl

theorem State.verifies_loaded (a b : ImageInfo) (s : State) (n : Nat) :
    (s.loaded a b).verifies n = (imageBits (some (if n = 0 then a else b)) s.boot.secFloor == 0) := by
  unfold State.verifies State.image
  split <;> rfl

theorem State.nextStep_runs {u : State} {set : Nat} (h : u.startStep = 3)
    (hset : u.fld fHQ_START_STATUS_SET_RUN 0 0 = set % 2) (st : Start) :
    State.startStep (State.nextStep { u with start := st }) = 4 ∧
      State.fld (State.nextStep { u with start := st }) fHQ_START_STATUS_SET_RUN 0 0 = set % 2 := by
  refine ⟨State.startStep_nextStep (n := 3) ?_ (by decide), ?_⟩
  · exact (State.fld_of_regs rfl ..).trans h
  · rw [State.fld_nextStep _ (by decide)]
    exact (State.fld_of_regs rfl ..).trans hset

theorem State.runsSet_runs (a : ImageInfo) (set other : Nat) {s : State} (h : s.startStep = 3) :
    (s.runsSet a set other).startStep = 4 ∧ (s.runsSet a set other).fld fHQ_START_STATUS_SET_RUN 0 0 = set % 2 := by
  refine State.nextStep_runs ?_ ?_ _
  · rw [State.startStep_setFld_apart _ (by decide) (by decide), State.startStep_setFld_apart _ (by decide) (by decide), h]
  · rw [State.fld_setFld_apart _ (by decide) (by decide), State.fld_setFld_self _ (by decide)]
    rfl

/-! ### Units brought up (R330, R337, R348, R350) -/

/-- The self-test of S5 passes: the boot range and the units are noted, and the next step comes. -/
theorem State.startStep_selfTested {faults : List (Nat × Nat)} {ok bad : List UnitId} {s : State} (hs : s.startStep = 5)
    (hcore : bad.contains ⟨4, 0⟩ = false) (hdie : ok.any (fun u => u.kind == 1) = true) :
    (s.selfTested faults ok bad).startStep = 6 := by
  unfold State.selfTested
  rw [if_neg (by rw [hcore, hdie]; decide)]
  extract_lets u r v w liner
  have hu : Keeps (State.repairTiles_touch ||| touchSet [.boot, .ras] []) s u :=
    Keeps.after Keeps.rfl (State.noteBad_keeps ..) (by decide +kernel)
  clear_value u
  have hv : Keeps (State.repairTiles_touch ||| touchSet [.boot, .ras] []) s v := by
    refine Keeps.ite hu (Keeps.after ?_ (State.setSets_keeps ..) (by decide +kernel))
    exact Keeps.boot hu (by decide +kernel) (Nat.le_refl _) (Or.inl rfl)
  clear_value v
  have hw : Keeps (State.repairTiles_touch ||| touchSet [.boot, .ras] []) s w :=
    Keeps.forEach _ _ (fun _ _ => Keeps.after Keeps.rfl (State.repairTiles_keeps ..) (by decide +kernel)) hv
  clear_value w
  refine Keeps.next (Keeps.forEach _ liner (fun g t => ?_) hw) (by decide +kernel) hs (by decide)
  exact Keeps.ite Keeps.rfl (Keeps.ras Keeps.rfl (by decide +kernel) (Or.inl rfl))

theorem State.selfTested_failed {faults : List (Nat × Nat)} {ok bad : List UnitId} {s : State}
    (h : bad.contains ⟨4, 0⟩ = true ∨ ok.any (fun u => u.kind == 1) = false) :
    s.selfTested faults ok bad = s.failStart 6 0 := by
  refine if_pos ?_
  rcases h with h | h
  · exact Or.inl h
  · rw [h]
    exact Or.inr rfl

theorem State.copy_noteBad (us : List UnitId) (s : State) : (s.noteBad us).start.copy = s.start.copy := by
  unfold State.noteBad
  extract_lets one
  have hone : ∀ u t, Keeps (touchSet [.freeCount] [] ||| State.log_touch) t (one u t) := fun u t => by
    refine Keeps.after ?_ (State.log_keeps ..) (by decide +kernel)
    exact ((State.draw_keeps ..).after (State.draw_keeps ..) (by decide +kernel)).widen (by decide +kernel)
  have hstart : (forEach us one s).start = s.start :=
    (Keeps.forEach us one hone Keeps.rfl).parts .start (by decide +kernel)
  exact (congrArg Start.copy hstart :)

/-- Some stack of some die that is not out has trained (R348). -/
def State.trained (ok : List UnitId) (s : State) : Bool :=
  (List.range 5).any fun d => !s.isBad 1 d && (List.range 4).any fun i => ok.contains ⟨6, 4 * d + i⟩

theorem State.trained_iff (ok : List UnitId) (s : State) :
    s.trained ok = true ↔ ∃ d i, d < 5 ∧ i < 4 ∧ s.isBad 1 d = false ∧ ok.contains ⟨6, 4 * d + i⟩ = true := by
  simp only [State.trained, List.any_eq_true, List.mem_range, Bool.and_eq_true, Bool.not_eq_true']
  constructor
  · rintro ⟨d, hd, hgood, i, hi, hok⟩
    exact ⟨d, i, hd, hi, hgood, hok⟩
  · rintro ⟨d, i, hd, hi, hgood, hok⟩
    exact ⟨d, hd, hgood, i, hi, hok⟩

theorem State.dramStarted_failed {failed : Bool} {ok bad : List UnitId} {s : State}
    (h : ∀ d i, d < 5 → i < 4 → s.isBad 1 d = true ∨ ok.contains ⟨6, 4 * d + i⟩ = false) :
    s.dramStarted failed ok bad = s.failStart 7 0 := by
  refine if_pos ?_
  rw [← State.trained, Bool.not_eq_true', Bool.eq_false_iff, ne_eq, State.trained_iff]
  rintro ⟨d, i, hd, hi, hgood, hok⟩
  rcases h d i hd hi with h | h
  · exact absurd (h.symm.trans hgood) (by decide)
  · exact absurd (hok.symm.trans h) (by decide)

/-- Restored registers leave HQ_START_STATUS, unless the copy holds it. -/
theorem State.startStep_restoreDram {s : State} (hcopy : ∀ e ∈ s.start.copy, e.1 ≠ regKey .HQ_START_STATUS 0 0) :
    s.restoreDram.startStep = s.startStep := by
  unfold State.restoreDram
  extract_lets s1 s2 s3 s4 s5 s6 one q z1 s7 s8
  have h1 : s1.startStep = s.startStep := by
    have hreg : s1.reg .HQ_START_STATUS 0 0 = s.reg .HQ_START_STATUS 0 0 := by
      show Tbl.getD _ _ _ = Tbl.getD _ _ _
      rw [Tbl.getD, Tbl.getD, Tbl.get?_foldl_put_ne _ _ hcopy]
    exact congrArg (Fld.get _) hreg
  clear_value s1
  have h2 : s2.startStep = s1.startStep :=
    forEach_keeps (P := fun u => u.startStep = s1.startStep)
      (fun _ u hu => (State.fld_setFld_other u (by decide) ..).trans hu) _ rfl
  clear_value s2
  have h3 : s3.startStep = s2.startStep :=
    forEach_keeps (P := fun u => u.startStep = s2.startStep)
      (fun _ u hu => (State.fld_setFld_other u (by decide) ..).trans hu) _ rfl
  clear_value s3
  have h4 : s4.startStep = s3.startStep :=
    (State.fld_setFld_other _ (by decide) ..).trans (State.fld_setFld_other _ (by decide) ..)
  clear_value s4
  have h5 : s5.startStep = s4.startStep := (State.nextEpoch_keeps s4).startStep (by decide +kernel)
  clear_value s5
  have h6 : s6.startStep = s5.startStep :=
    forEach_keeps (P := fun u => u.startStep = s5.startStep)
      (fun _ u hu => ((State.dropCharge_keeps ..).startStep (by decide +kernel)).trans hu) _ rfl
  clear_value s6
  have h7 : s7.startStep = s6.startStep := rfl
  clear_value s7
  have h8 : s8.startStep = s7.startStep := by
    have hk : Keeps (State.withMirror_touch ||| State.tombOnce_touch) s7 s8 := Keeps.forEach _ _ (fun _ _ =>
      State.withMirror_keeps (by decide +kernel) (fun _ _ _ =>
        Keeps.after Keeps.rfl (State.tombOnce_keeps ..) (by decide +kernel)) Keeps.rfl) Keeps.rfl
    exact hk.startStep (by decide +kernel)
  clear_value s8
  rw [(State.settleCommit_keeps s8).startStep (by decide +kernel), h8, h7, h6, h5, h4, h3, h2, h1]

theorem State.startStep_dramStarted {failed : Bool} {ok bad : List UnitId} {s : State} (hs : s.startStep = 6)
    (htrained : s.trained ok = true) (hcopy : ∀ e ∈ s.start.copy, e.1 ≠ regKey .HQ_START_STATUS 0 0) :
    (s.dramStarted failed ok bad).startStep = 7 := by
  unfold State.dramStarted
  extract_lets trained u c0
  rw [if_neg (by rw [show trained = true from htrained]; decide)]
  have hu : u.startStep = 6 := ((State.noteBad_keeps bad s).startStep (by decide +kernel)).trans hs
  have hcopy' : ∀ e ∈ u.start.copy, e.1 ≠ regKey .HQ_START_STATUS 0 0 := by
    rw [show u.start.copy = s.start.copy from State.copy_noteBad bad s]
    exact hcopy
  clear_value u c0
  split
  · split
    · exact State.startStep_nextStep ((State.startStep_restoreDram hcopy').trans hu) (by decide)
    · exact State.startStep_nextStep (s := State.setSets 8 _) hu (by decide)
  · exact State.startStep_nextStep hu (by decide)

end Sys2Proof.Machine
end

section
/-! SUPPORT. The carriers' ONFI interfaces through the work of a channel's reset, and the channels that S7 puts in service
(R186, R191, R200, R202, R348). -/

namespace Sys2Proof.Machine

/-! ### Carrier interfaces up -/

/-- The ONFI interface of every carrier is up in `t` as it is in `s`. -/
structure SameUp (s t : State) : Prop where
  onfiUp : ∀ n, (t.chan n).onfiUp = (s.chan n).onfiUp

theorem SameUp.rfl {s : State} : SameUp s s := ⟨fun _ => Eq.refl _⟩

theorem SameUp.trans {s t u : State} (h : SameUp s t) (k : SameUp t u) : SameUp s u :=
  ⟨fun n => (k.onfiUp n).trans (h.onfiUp n)⟩

theorem SameUp.of_fl {s t : State} (h : t.fl = s.fl) : SameUp s t := ⟨fun n => by rw [State.chan, State.chan, h]⟩

theorem Keeps.sameUp {m : Nat} {s t : State} (h : Keeps m s t) (hm : m.testBit (Part.bit .fl) = false) : SameUp s t :=
  SameUp.of_fl (h.parts .fl hm)

/-- A channel given contents with the same interface. -/
theorem State.setChan_sameUp {s : State} {n : Nat} {x : Chan} (h : x.onfiUp = (s.chan n).onfiUp) : SameUp s (s.setChan n x) := by
  constructor
  intro k
  by_cases hk : k = n
  · subst hk
    rw [State.chan_setChan_self, h]
  · rw [State.chan_setChan_ne s hk]

theorem State.setFld_sameUp (f : Fld) (i j n : Nat) (s : State) : SameUp s (s.setFld f i j n) :=
  SameUp.of_fl (State.fl_setFld ..)

theorem State.bump_sameUp (r : RegName) (i j n : Nat) (s : State) : SameUp s (s.bump r i j n) :=
  SameUp.of_fl (State.fl_bump ..)

theorem SameUp.forEach {α : Type} {f : α → State → State} (hf : ∀ a u, SameUp u (f a u)) (xs : List α) (s : State) :
    SameUp s (Sys2Proof.Machine.forEach xs f s) :=
  forEach_keeps (P := SameUp s) (fun a u hu => hu.trans (hf a u)) xs SameUp.rfl

/-! ### Reset of a cuff die (R191, R202) -/

theorem State.answerDown_sameUp (n : Nat) (r : CandReq) (s : State) : SameUp s (s.answerDown n r) := by
  unfold State.answerDown
  split
  · unfold State.freeGranules
    extract_lets c holds msg busy
    split
    · exact SameUp.rfl
    · exact State.setChan_sameUp (by rfl)
  · exact ⟨fun _ => Eq.refl _⟩

theorem State.noteChan_sameUp (n : Nat) (s : State) : SameUp s (s.noteChan n) := by
  unfold State.noteChan
  extract_lets c u
  have hu : SameUp s u := (State.setFld_sameUp ..).trans (State.setFld_sameUp ..)
  split
  · exact hu.trans (State.setChan_sameUp (by rfl))
  · exact (hu.trans (State.setChan_sameUp (by rfl))).trans (State.bump_sameUp ..)
  · exact hu

theorem State.downAll_sameUp (n : Nat) (s : State) : SameUp s (s.downAll n) := by
  unfold State.downAll
  extract_lets c held x
  have hx : SameUp s (s.setChan n x) := State.setChan_sameUp rfl
  exact (hx.trans (SameUp.forEach (State.answerDown_sameUp n) held _)).trans (State.noteChan_sameUp ..)

theorem Chan.onfiUp_apply (c : Chan) (r : JRec) : (c.apply r).onfiUp = c.onfiUp := by
  unfold Chan.apply
  split
  case h_3 =>
    split
    · rfl
    · rfl
  all_goals rfl

theorem Chan.onfiUp_foldl_apply (rs : List JRec) (c : Chan) : (rs.foldl Chan.apply c).onfiUp = c.onfiUp := by
  induction rs generalizing c with
  | nil => rfl
  | cons r rs ih => rw [List.foldl_cons, ih, Chan.onfiUp_apply]

theorem State.replayCh_sameUp (n : Nat) (powerLost : Bool) (s : State) : SameUp s (s.replayCh n powerLost) := by
  unfold State.replayCh
  extract_lets c js torn kept base x staged u v w
  have hx : x.onfiUp = (s.chan n).onfiUp := Chan.onfiUp_foldl_apply kept base
  have hu : SameUp s u := by
    refine SameUp.trans ?_ (State.bump_sameUp ..)
    exact State.setChan_sameUp hx
  clear_value u
  have hv : Keeps (State.setStage_touch ||| State.noteFree_touch) u w := by
    refine Keeps.setFld (Keeps.setFld (Keeps.setFld ?_ (by decide +kernel)) (by decide +kernel)) (by decide +kernel)
    exact ((State.setStage_keeps ..).widen (by decide +kernel)).after (State.noteFree_keeps ..) (by decide +kernel)
  have hw := hu.trans (hv.sameUp (by decide +kernel))
  clear_value w
  cases torn with
  | some r => exact (hw.trans (State.bump_sameUp ..)).trans ((State.log_keeps ..).sameUp (by decide +kernel))
  | none => exact hw

theorem State.resetCuff_sameUp (n : Nat) (powerLost : Bool) (s : State) : SameUp s (s.resetCuff n powerLost) := by
  unfold State.resetCuff
  extract_lets u time v
  have hu : SameUp s u := State.downAll_sameUp n s
  have hregs : SameUp u (u.resetRegs cuffRegs fun i _ => i == n) := SameUp.of_fl (Eq.refl _)
  have hv : SameUp s v := ((hu.trans hregs).trans (State.replayCh_sameUp ..)).trans
    ((State.resetShaper_keeps ..).sameUp (by decide +kernel))
  exact hv.trans (State.setChan_sameUp (by rfl))

/-! ### Parity computed anew (R186) -/

theorem State.programStaging_sameUp (n : Nat) (s : State) : SameUp s (s.programStaging n) :=
  SameUp.trans (State.setChan_sameUp (by rfl)) (State.bump_sameUp ..)

theorem State.journal_sameUp (n : Nat) (p : JPay) (s : State) : SameUp s (s.journal n p) := by
  unfold State.journal
  extract_lets c r x u
  have hu : SameUp s u := SameUp.trans (State.setChan_sameUp (by rfl)) (State.setFld_sameUp ..)
  split
  · exact hu.trans (State.programStaging_sameUp ..)
  · exact hu

theorem State.writeSect_sameUp (n i : Nat) (data : List Byte) (wseqX : Option (BitVec 32)) (s : State) :
    SameUp s (s.writeSect n i data wseqX) :=
  (State.journal_sameUp ..).trans (State.setChan_sameUp (by rfl))

theorem State.recompute_sameUp (e k : Nat) (bad : List Nat) (s : State) : SameUp s (s.recompute e k bad) := by
  unfold State.recompute
  extract_lets ms whole p die ix u
  have hu : SameUp s u := by
    unfold u
    split
    · exact SameUp.rfl
    · exact (State.bump_sameUp ..).trans ((State.log_keeps ..).sameUp (by decide +kernel))
  clear_value u
  split
  · exact hu
  · exact (hu.trans (State.writeSect_sameUp ..)).trans (State.bump_sameUp ..)

theorem State.recomputeOpen_sameUp (k : Nat) (s : State) : SameUp s (s.recomputeOpen k) := by
  unfold State.recomputeOpen
  extract_lets js opened
  exact SameUp.forEach (fun e u => (State.recompute_sameUp ..).trans (State.bump_sameUp ..)) _ s

theorem State.chan_setFld (f : Fld) (i j v n : Nat) (s : State) : (s.setFld f i j v).chan n = s.chan n := rfl

/-! ### S7 (R200, R202, R348) -/

/-- A channel that passes: reset, its interface up, in service. -/
def State.bringUp (n : Nat) (s : State) : State :=
  let t := s.resetCuff n s.start.powerLost
  (t.setChan n { t.chan n with pwrEn := true, pwrRise := t.now, onfiUp := true }).setFld fCF_SVC_STATE n 0 0

/-- A channel is in service, its interface up. -/
def InService (n : Nat) (s : State) : Prop := s.chState n = 0 ∧ (s.chan n).onfiUp = true

theorem State.bringUp_inService (n : Nat) (s : State) : InService n (s.bringUp n) := by
  unfold State.bringUp
  extract_lets t
  constructor
  · rw [State.chState, State.fld_setFld_self _ (by decide)]
    exact Nat.zero_mod _
  · rw [State.chan_setFld, State.chan_setChan_self]

theorem State.bringUp_keeps (n : Nat) (s : State) :
    Keeps (State.resetCuff_touch ||| touchSet [.fl] [.CF_SVC]) s (s.bringUp n) := by
  unfold State.bringUp
  extract_lets t
  refine Keeps.setFld ?_ (by decide +kernel)
  refine Keeps.after ?_ (State.setChan_keeps ..) (by decide +kernel)
  exact (State.resetCuff_keeps ..).widen (by decide +kernel)

theorem State.bringUp_keeps_inService {k : Nat} (n : Nat) {s : State} (h : InService k s) : InService k (s.bringUp n) := by
  by_cases hk : k = n
  · exact hk ▸ State.bringUp_inService k s
  · obtain ⟨hstate, hup⟩ := h
    unfold State.bringUp
    extract_lets t
    have ht : t.chState k = 0 := ((State.resetCuff_keeps ..).fld (by decide +kernel) k 0).trans hstate
    have htup : (t.chan k).onfiUp = true := (State.resetCuff_sameUp n _ s |>.onfiUp k).trans hup
    clear_value t
    refine ⟨?_, ?_⟩
    · have hcopy : (k, 0) ≠ (n, 0) := fun e => hk (congrArg Prod.fst e)
      exact (State.fld_congr (State.reg_setReg_copy _ _ hcopy _)).trans ht
    · rw [State.chan_setFld, State.chan_setChan_ne t hk]
      exact htup

theorem State.recomputeOpen_keeps_inService {k : Nat} (n : Nat) {s : State} (h : InService k s) :
    InService k (s.recomputeOpen n) :=
  ⟨((State.recomputeOpen_keeps ..).fld (by decide +kernel) k 0).trans h.1, (State.recomputeOpen_sameUp n s |>.onfiUp k).trans h.2⟩

/-- The channels that pass their test at S7. -/
def goodChannels (ok : List UnitId) : List Nat := (List.range 32).filter fun n => ok.contains ⟨3, n⟩

theorem State.flashStarted_failed {ok bad : List UnitId} {s : State} (h : (goodChannels ok).length < 31)
    (hflash : s.fld fCF_CAP_DATA_SECTORS 0 0 ≠ 0) : s.flashStarted ok bad = s.failStart 8 0 := if_pos ⟨h, hflash⟩

theorem State.flashStarted_serves {ok bad : List UnitId} {s : State} (hs : s.startStep = 7)
    (h : 31 ≤ (goodChannels ok).length) :
    (s.flashStarted ok bad).startStep = 8 ∧ ∀ n ∈ goodChannels ok, InService n (s.flashStarted ok bad) := by
  have heq : s.flashStarted ok bad = State.nextStep
      (let t := forEach (goodChannels ok) State.recomputeOpen (forEach (goodChannels ok) State.bringUp (s.noteBad bad))
       { t with start := { t.start with powerLost := false } }) := if_neg fun hbad => absurd hbad.1 (Nat.not_lt.mpr h)
  rw [heq]
  extract_lets t
  have hserve : ∀ n ∈ goodChannels ok, InService n t := fun n hn =>
    forEach_keeps (P := InService n) (fun b _ => State.recomputeOpen_keeps_inService b) _
      (forEach_establishes (P := InService) State.bringUp_inService (fun _ b _ => State.bringUp_keeps_inService b) hn _)
  have hstep : t.startStep = 7 := by
    have hk : Keeps (State.noteBad_touch ||| State.resetCuff_touch ||| touchSet [.fl] [.CF_SVC] ||| State.recomputeOpen_touch)
        s t := by
      refine Keeps.forEach _ _ (fun n _ => (State.recomputeOpen_keeps n _).widen (by decide +kernel)) ?_
      refine Keeps.forEach _ _ (fun n _ => (State.bringUp_keeps n _).widen (by decide +kernel)) ?_
      exact (State.noteBad_keeps ..).widen (by decide +kernel)
    exact (hk.startStep (by decide +kernel)).trans hs
  clear_value t
  refine ⟨State.startStep_nextStep (n := 7) ((State.fld_of_regs rfl ..).trans hstep) (by decide), fun n hn => ?_⟩
  obtain ⟨hstate, hup⟩ := hserve n hn
  refine ⟨?_, ?_⟩
  · rw [State.chState, State.fld_nextStep _ (by decide)]
    exact (State.fld_of_regs rfl ..).trans hstate
  · rw [State.chan, State.fl_nextStep]
    exact hup

end Sys2Proof.Machine
end

section
/-! SUPPORT. The end of a start: the error log flushed, service opened, and the work of each step by its number (R348, R349,
R351). -/

namespace Sys2Proof.Machine

/-! ### S9 (R348) -/

theorem State.flushed_flushes {s : State} (hs : s.startStep = 9) :
    s.flushed.startStep = 10 ∧ s.flushed.boot.flushed = s.ras.errLog := by
  unfold State.flushed
  extract_lets held dump z u
  have hdone : ∀ v : State, v.startStep = 9 → v.boot.flushed = s.ras.errLog →
      v.nextStep.startStep = 10 ∧ v.nextStep.boot.flushed = s.ras.errLog := fun v hv hb =>
    ⟨State.startStep_nextStep hv (by decide), v.flushed_nextStep.trans hb⟩
  have hu : u.startStep = 9 := (State.fld_of_regs rfl ..).trans hs
  have hlog : u.boot.flushed = s.ras.errLog := rfl
  clear_value u
  split
  · exact hdone _ ((State.fld_setFld_other u (by decide) ..).trans hu) hlog
  · exact hdone u hu hlog

/-! ### S10 (R337, R338, R348, R351) -/

/-- The start history is the same. -/
structure SameHistory (s t : State) : Prop where
  history : t.boot.history = s.boot.history

theorem SameHistory.rfl {s : State} : SameHistory s s := ⟨Eq.refl _⟩

theorem SameHistory.trans {s t u : State} (h : SameHistory s t) (k : SameHistory t u) : SameHistory s u :=
  ⟨k.history.trans h.history⟩

theorem Keeps.sameHistory {m : Nat} {s t : State} (h : Keeps m s t) (hm : m.testBit (Part.bit .boot) = false) :
    SameHistory s t := ⟨congrArg BootFlash.history (h.parts .boot hm)⟩

theorem State.writeRepair_sameHistory (e : Repair) (s : State) : SameHistory s (s.writeRepair e) := by
  unfold State.writeRepair
  split
  · exact SameHistory.rfl
  · exact ⟨rfl⟩

theorem State.lanesUp_sameHistory (d : Nat) (s : State) : SameHistory s (s.lanesUp d) := by
  unfold State.lanesUp
  extract_lets spare free rec_ out s1
  have h1 : SameHistory s s1 :=
    (Keeps.forEach (m := State.setSvc_touch) _ _ (fun _ _ => Keeps.ite Keeps.rfl (State.setSvc_keeps ..)) Keeps.rfl).sameHistory
      (by decide +kernel)
  clear_value free out s1 spare
  split
  · extract_lets s2 s3
    have h2 : SameHistory s s2 := h1.trans ⟨rfl⟩
    clear_value s2
    have h3 : SameHistory s s3 :=
      (h2.trans ((State.setSvc_keeps ..).sameHistory (by decide +kernel))).trans (State.writeRepair_sameHistory ..)
    clear_value s3
    split
    · exact h3
    · exact h3.trans ((State.setSvc_keeps ..).sameHistory (by decide +kernel))
  · exact h1

theorem State.newestOutcome_closeStart {s : State} (h : s.boot.history ≠ []) (outcome reason detail : Nat) :
    (s.closeStart outcome reason detail).newestOutcome = outcome := by
  obtain ⟨f, heq, hf⟩ := s.closeStart_eq outcome reason detail
  obtain ⟨e, es, he⟩ := List.exists_cons_of_ne_nil h
  rw [heq, State.newestOutcome_eq_head (e := f e) (es := es)]
  · exact (hf e).1
  · rw [he]
    rfl

/-- A band comes into service with its owner (R338, R385). -/
def State.openBand (g : Nat) (t : State) : State :=
  let t := if t.isBad 2 g ∨ t.isBad 1 (dieOf g) then t
    else (t.setSvc ⟨2, g⟩ 0).setFld fBD_STATUS_IN_SERVICE g 0 1
  let t := { t with power := { t.power with gatedSince := t.power.gatedSince.put g t.now } }.takeOwner g
  if t.gateCond g then t else t.ungate g

def State.openBand_touch : Nat :=
  touchSet [.power] [.BD_STATUS] ||| State.setSvc_touch ||| State.takeOwner_touch ||| State.ungate_touch

theorem State.openBand_keeps (g : Nat) (s : State) : Keeps State.openBand_touch s (s.openBand g) := by
  unfold State.openBand
  extract_lets t z u
  have ht : Keeps State.openBand_touch s t := by
    refine Keeps.ite Keeps.rfl (Keeps.setFld ?_ (by decide +kernel))
    exact (State.setSvc_keeps ..).widen (by decide +kernel)
  clear_value t
  have hu : Keeps State.openBand_touch s u := (Keeps.power ht (by decide +kernel)).after (State.takeOwner_keeps ..) (by decide +kernel)
  clear_value u
  exact Keeps.ite hu (hu.after (State.ungate_keeps ..) (by decide +kernel))

/-- The start no longer runs. -/
def State.endRun (s : State) : State := { s with start := { s.start with running := false, firstChoice := none } }

theorem State.mode_endRun (s : State) : s.endRun.mode = s.mode := State.fld_of_regs rfl ..

theorem State.boot_endRun (s : State) : s.endRun.boot = s.boot := rfl

/-- SERVING, with FAILS cleared. -/
def State.markServing (s : State) : State :=
  (s.setFld fHQ_START_STATUS_MODE 0 0 1).setFld fHQ_START_STATUS_FAILS 0 0 0

theorem State.mode_markServing (s : State) : s.markServing.mode = 1 := by
  rw [State.markServing, State.mode_setFld_apart _ (by decide) (by decide), State.mode, State.fld_setFld_self _ (by decide)]
  rfl

theorem State.boot_markServing (s : State) : s.markServing.boot = s.boot := by
  rw [State.markServing, State.boot_setFld, State.boot_setFld]

/-- A device in service after a start with the history `h`. -/
structure Opened (h : List HistEntry) (t : State) : Prop where
  mode : t.mode = 1
  fails : t.boot.fails = 0
  running : t.start.running = false
  newest : h ≠ [] → t.newestOutcome = 1

theorem State.closeStart_opened {s : State} (hfails : s.boot.fails = 0) :
    Opened s.boot.history (s.closeStart 1 0 0).markServing.endRun := by
  obtain ⟨f, hclose, -⟩ := s.closeStart_eq 1 0 0
  refine ⟨(State.mode_endRun _).trans (State.mode_markServing _), ?_, rfl, fun hne => ?_⟩
  · rw [State.boot_endRun, State.boot_markServing, hclose]
    exact hfails
  · rw [State.newestOutcome, State.boot_endRun, State.boot_markServing]
    exact State.newestOutcome_closeStart hne 1 0 0

/-- S10 leaves the history to the end, where it closes the entry of the start. -/
theorem State.openService_eq (s : State) : ∃ u : State, SameHistory s u ∧
    s.openService = (State.closeStart 1 0 0 { u with boot := { u.boot with fails := 0 } }).markServing.endRun := by
  unfold State.openService
  extract_lets band s1 s2 cores s3 s4 z0 s4a z1 s5 s6
  have h1 : SameHistory s s1 :=
    (Keeps.forEach _ band State.openBand_keeps Keeps.rfl).sameHistory (by decide +kernel)
  clear_value s1
  have h2 : SameHistory s s2 := (h1.trans (State.lanesUp_sameHistory ..)).trans (State.lanesUp_sameHistory ..)
  clear_value s2
  have h3 : SameHistory s s3 := forEach_keeps (P := SameHistory s)
    (fun _ _ hu => hu.trans ((State.setSvc_keeps ..).sameHistory (by decide +kernel))) _ h2
  clear_value s3
  have h4 : SameHistory s s4a := ((h3.trans ((State.applyConfig_keeps ..).sameHistory (by decide +kernel))).trans
    ((State.flushHatpin_keeps ..).sameHistory (by decide +kernel))).trans
    ((State.setHatpin_keeps ..).sameHistory (by decide +kernel))
  clear_value s4a
  exact ⟨s4a, h4, rfl⟩

theorem State.openService_opened (s : State) : Opened s.boot.history s.openService := by
  obtain ⟨u, hu, heq⟩ := s.openService_eq
  rw [heq, ← hu.history]
  exact State.closeStart_opened (s := { u with boot := { u.boot with fails := 0 } }) rfl

end Sys2Proof.Machine
end

section
/-! Starts and the boot records: each step of a start as it ends well, as it fails and as it takes too long, and the commands
of the boot range (R26, R330, R343 to R354). -/

namespace Sys2Proof.Machine

/-! ### The outcome of S3 (R345, R348) -/

theorem State.chooseSet_of_both {a b : ImageInfo} {s : State} (ha : imageBits (some a) s.boot.secFloor = 0)
    (hb : imageBits (some b) s.boot.secFloor = 0) : s.chooseSet a b = (s.loaded a b).runsSet a s.firstSet 0 := by
  rw [State.chooseSet_eq, if_pos]
  rw [State.verifies_loaded]
  split
  · exact beq_iff_eq.mpr ha
  · exact beq_iff_eq.mpr hb

theorem State.chooseSet_of_second {a b : ImageInfo} {s : State} (hfirst : s.firstSet = 0)
    (ha : imageBits (some a) s.boot.secFloor ≠ 0) (hb : imageBits (some b) s.boot.secFloor = 0) :
    s.chooseSet a b = (s.loaded a b).runsSet a 1 1 := by
  rw [State.chooseSet_eq, hfirst, if_neg, if_pos]
  · rw [State.verifies_loaded]
    exact beq_iff_eq.mpr hb
  · rw [State.verifies_loaded]
    exact fun h => ha (beq_iff_eq.mp h)

theorem State.chooseSet_of_neither {a b : ImageInfo} {s : State} (ha : imageBits (some a) s.boot.secFloor ≠ 0)
    (hb : imageBits (some b) s.boot.secFloor ≠ 0) :
    s.chooseSet a b = ((s.loaded a b).setSets 2).failStart 4
      (imageBits (some a) s.boot.secFloor + 16 * imageBits (some b) s.boot.secFloor) := by
  have hno : ∀ n, ¬(s.loaded a b).verifies n = true := by
    intro n
    rw [State.verifies_loaded, beq_iff_eq]
    split
    · exact ha
    · exact hb
  rw [State.chooseSet_eq, if_neg (hno _), if_neg (hno _)]

theorem State.startStep_loaded (a b : ImageInfo) (s : State) : (s.loaded a b).startStep = s.startStep :=
  State.fld_of_regs rfl ..

/-! ### A step by its number (R348, R350) -/

/-- What START_STEP_COMPLETE leaves of a start that runs, by the number of the step. -/
def State.completeStep (failed : Bool) (a b : ImageInfo) (ok : List UnitId) (found : StepFaults) (s : State) : Nat → State
  | 0 => if ok.any fun u => u.kind == 8 then
      ((s.markBad (found.units.filter fun u => u.kind == 8)).sampleRefclk).nextStep else s.failStart 1 0
  | 1 => if failed || !s.boot.identity.valid then s.failStart 2 0 else (s.setFld fHQ_START_STATUS_KEY_OK 0 0 1).nextStep
  | 2 => if s.boot.config.valid then ((s.applyConfig true).bootStatus).nextStep else s.failStart 3 0
  | 3 => s.chooseSet a b
  | 4 => if failed then s.failStart 5 0 else s.loadDumpList.nextStep
  | 5 => s.selfTested found.tiles ok found.units
  | 6 => s.dramStarted failed ok found.units
  | 7 => s.flashStarted ok found.units
  | 8 => (s.noteBad found.units).nextStep
  | 9 => s.flushed
  | _ => s.openService

theorem exec_startStepComplete (failed : Bool) (a b : ImageInfo) (ok : List UnitId) (found : StepFaults) {s : State} {n : Nat}
    (hrun : s.start.running = true) (hn : s.startStep = n) :
    exec (.startStepComplete failed a b ok found) s = .next (s.completeStep failed a b ok found n) := by
  show execStartStepComplete failed a b ok found s = _
  unfold execStartStepComplete
  rw [if_neg (by rw [hrun]; decide), hn]
  match n with
  | 0 => exact (apply_ite Host.Outcome.next ..).symm
  | 1 => exact (apply_ite Host.Outcome.next ..).symm
  | 2 => exact (apply_ite Host.Outcome.next ..).symm
  | 4 => exact (apply_ite Host.Outcome.next ..).symm
  | 3 | 5 | 6 | 7 | 8 | 9 | _ + 10 => rfl

/-! ### Steps that end well (R345, R348, R350) -/

section
variable {failed : Bool} {a b : ImageInfo} {ok : List UnitId} {found : StepFaults} {s : State}

theorem State.completeStep_cores (hs : s.startStep = 0) (hcore : ok.any (fun u => u.kind == 8) = true) :
    (s.completeStep failed a b ok found 0).startStep = 1 := by
  rw [show s.completeStep failed a b ok found 0 = _ from if_pos hcore]
  have hk : Keeps (touchSet [.start] []) s ((s.markBad (found.units.filter fun u => u.kind == 8)).sampleRefclk) :=
    (State.markBad_keeps ..).after (State.sampleRefclk_keeps ..) (by decide +kernel)
  exact hk.next (by decide +kernel) hs (by decide)

theorem State.completeStep_identity (hs : s.startStep = 1) (hfailed : failed = false)
    (hvalid : s.boot.identity.valid = true) :
    (s.completeStep failed a b ok found 1).startStep = 2 ∧
      (s.completeStep failed a b ok found 1).isOn fHQ_START_STATUS_KEY_OK 0 0 = true := by
  rw [show s.completeStep failed a b ok found 1 = _ from if_neg (by rw [hfailed, hvalid]; decide)]
  constructor
  · exact State.startStep_nextStep ((State.startStep_setFld_apart s (by decide) (by decide) 1).trans hs) (by decide)
  · rw [State.isOn, State.fld_nextStep _ (by decide), State.fld_setFld_self s (by decide)]
    decide

theorem State.completeStep_config (hs : s.startStep = 2) (hvalid : s.boot.config.valid = true) :
    (s.completeStep failed a b ok found 2).startStep = 3 := by
  rw [show s.completeStep failed a b ok found 2 = _ from if_pos hvalid]
  exact State.startStep_nextStep
    ((State.startStep_bootStatus _).trans ((State.startStep_applyConfig true s).trans hs)) (by decide)

theorem State.completeStep_first (hs : s.startStep = 3) (ha : imageBits (some a) s.boot.secFloor = 0)
    (hb : imageBits (some b) s.boot.secFloor = 0) :
    (s.completeStep failed a b ok found 3).startStep = 4 ∧
      (s.completeStep failed a b ok found 3).fld fHQ_START_STATUS_SET_RUN 0 0 = s.firstSet % 2 := by
  rw [show s.completeStep failed a b ok found 3 = _ from State.chooseSet_of_both ha hb]
  exact State.runsSet_runs a s.firstSet 0 ((s.startStep_loaded a b).trans hs)

theorem State.completeStep_second (hs : s.startStep = 3) (hfirst : s.firstSet = 0)
    (ha : imageBits (some a) s.boot.secFloor ≠ 0) (hb : imageBits (some b) s.boot.secFloor = 0) :
    (s.completeStep failed a b ok found 3).startStep = 4 ∧
      (s.completeStep failed a b ok found 3).fld fHQ_START_STATUS_SET_RUN 0 0 = 1 := by
  rw [show s.completeStep failed a b ok found 3 = _ from State.chooseSet_of_second hfirst ha hb]
  exact State.runsSet_runs a 1 1 ((s.startStep_loaded a b).trans hs)

theorem State.completeStep_firmware (hs : s.startStep = 4) (hfailed : failed = false) :
    (s.completeStep failed a b ok found 4).startStep = 5 := by
  rw [show s.completeStep failed a b ok found 4 = _ from if_neg (by rw [hfailed]; decide)]
  exact (State.loadDumpList_keeps s).next (by decide +kernel) hs (by decide)

theorem State.completeStep_flash (hs : s.startStep = 7) (hgood : 31 ≤ (goodChannels ok).length) :
    (s.completeStep failed a b ok found 7).startStep = 8 ∧ ∀ n, n < 32 → ok.contains ⟨3, n⟩ = true →
      (s.completeStep failed a b ok found 7).chState n = 0 ∧
        ((s.completeStep failed a b ok found 7).chan n).onfiUp = true := by
  obtain ⟨hstep, hserve⟩ := State.flashStarted_serves (bad := found.units) hs hgood
  exact ⟨hstep, fun n hn hok => hserve n (List.mem_filter.mpr ⟨List.mem_range.mpr hn, hok⟩)⟩

theorem State.completeStep_fabric (hs : s.startStep = 8) : (s.completeStep failed a b ok found 8).startStep = 9 :=
  (State.noteBad_keeps ..).next (by decide +kernel) hs (by decide)

end

theorem startStepComplete_goes_on (failed : Bool) (a b : ImageInfo) (ok : List UnitId) (found : StepFaults) (s : State)
    (hrun : s.start.running = true) : Leads (.startStepComplete failed a b ok found) s fun t =>
    (s.startStep = 0 → ok.any (fun u => u.kind == 8) = true → t.startStep = 1) ∧
    (s.startStep = 1 → failed = false → s.boot.identity.valid = true → t.startStep = 2 ∧
      t.isOn fHQ_START_STATUS_KEY_OK 0 0 = true) ∧
    (s.startStep = 2 → s.boot.config.valid = true → t.startStep = 3) ∧
    (s.startStep = 3 → imageBits (some a) s.boot.secFloor = 0 → imageBits (some b) s.boot.secFloor = 0 → t.startStep = 4 ∧
      t.fld fHQ_START_STATUS_SET_RUN 0 0 = s.firstSet % 2) ∧
    (s.startStep = 3 → s.firstSet = 0 → imageBits (some a) s.boot.secFloor ≠ 0 → imageBits (some b) s.boot.secFloor = 0 →
      t.startStep = 4 ∧ t.fld fHQ_START_STATUS_SET_RUN 0 0 = 1) ∧
    (s.startStep = 4 → failed = false → t.startStep = 5) ∧
    (s.startStep = 5 → found.units.contains ⟨4, 0⟩ = false → ok.any (fun u => u.kind == 1) = true → t.startStep = 6) ∧
    (s.startStep = 6 → (∃ d i, d < 5 ∧ i < 4 ∧ s.isBad 1 d = false ∧ ok.contains ⟨6, 4 * d + i⟩ = true) →
      (∀ e ∈ s.start.copy, e.1 ≠ regKey .HQ_START_STATUS 0 0) → t.startStep = 7) ∧
    (s.startStep = 7 → 31 ≤ ((List.range 32).filter fun n => ok.contains ⟨3, n⟩).length → t.startStep = 8 ∧
      ∀ n, n < 32 → ok.contains ⟨3, n⟩ = true → t.chState n = 0 ∧ (t.chan n).onfiUp = true) ∧
    (s.startStep = 8 → t.startStep = 9) ∧
    (s.startStep = 9 → t.startStep = 10 ∧ t.boot.flushed = s.ras.errLog) ∧
    (s.startStep = 10 → t.mode = 1 ∧ t.boot.fails = 0 ∧ t.start.running = false ∧
      (s.boot.history ≠ [] → t.newestOutcome = 1)) := by
  refine ⟨_, exec_startStepComplete failed a b ok found hrun rfl, ?_⟩
  refine ⟨fun h => ?_, fun h => ?_, fun h => ?_, fun h => ?_, fun h => ?_, fun h => ?_, fun h => ?_, fun h => ?_, fun h => ?_,
    fun h => ?_, fun h => ?_, fun h => ?_⟩
  · rw [h]; exact State.completeStep_cores h
  · rw [h]; exact State.completeStep_identity h
  · rw [h]; exact State.completeStep_config h
  · rw [h]; exact State.completeStep_first h
  · rw [h]; exact State.completeStep_second h
  · rw [h]; exact State.completeStep_firmware h
  · rw [h]; exact State.startStep_selfTested h
  · rw [h]; exact fun htrained => State.startStep_dramStarted h ((s.trained_iff ok).mpr htrained)
  · rw [h]; exact State.completeStep_flash h
  · rw [h]; exact State.completeStep_fabric h
  · rw [h]; exact State.flushed_flushes h
  · rw [h]
    obtain ⟨hmode, hfails, hstopped, hnewest⟩ := s.openService_opened
    exact ⟨hmode, hfails, hstopped, hnewest⟩

/-! ### Steps that fail (R348, R349) -/

theorem State.startFailed_congr {s s' t : State} {reason : Nat} (hstep : s'.startStep = s.startStep)
    (hmay : s'.mayStart = s.mayStart) (hfails : s'.boot.fails = s.boot.fails) (hno : s'.boot.startNo = s.boot.startNo)
    (hhist : s'.boot.history = s.boot.history) (h : t.startFailed s' reason) : t.startFailed s reason := by
  unfold State.startFailed at h ⊢
  rw [← hstep, ← hmay, ← hfails, ← hno, ← hhist]
  exact h

theorem State.chooseSet_startFailed {a b : ImageInfo} {s : State} (hlost : s.newestOutcome ≠ 3)
    (ha : imageBits (some a) s.boot.secFloor ≠ 0) (hb : imageBits (some b) s.boot.secFloor ≠ 0) :
    (s.chooseSet a b).startFailed s 4 := by
  rw [State.chooseSet_of_neither ha hb]
  refine State.startFailed_congr (s' := (s.loaded a b).setSets 2) (State.fld_of_regs rfl ..) rfl rfl rfl rfl ?_
  exact State.failStart_startFailed (s := (s.loaded a b).setSets 2) hlost 4 _

/-- A step whose work is a failed start. -/
theorem startStepComplete_failStart {failed : Bool} {a b : ImageInfo} {ok : List UnitId} {found : StepFaults} {s : State}
    {k n detail : Nat} (hrun : s.start.running = true) (hlost : s.newestOutcome ≠ 3) (hs : s.startStep = k)
    (hk : s.completeStep failed a b ok found k = s.failStart n detail) :
    Leads (.startStepComplete failed a b ok found) s fun t => t.startFailed s n := by
  refine ⟨_, exec_startStepComplete failed a b ok found hrun hs, ?_⟩
  rw [hk]
  exact State.failStart_startFailed hlost n detail

theorem startStepComplete_fails (failed : Bool) (a b : ImageInfo) (ok : List UnitId) (found : StepFaults) (s : State) (n : Nat)
    (hrun : s.start.running = true) (hlost : s.newestOutcome ≠ 3)
    (hbad : s.startStep = 0 ∧ n = 1 ∧ ok.any (fun u => u.kind == 8) = false ∨
      s.startStep = 1 ∧ n = 2 ∧ (failed = true ∨ s.boot.identity.valid = false) ∨
      s.startStep = 2 ∧ n = 3 ∧ s.boot.config.valid = false ∨ s.startStep = 4 ∧ n = 5 ∧ failed = true ∨
      s.startStep = 3 ∧ n = 4 ∧ imageBits (some a) s.boot.secFloor ≠ 0 ∧ imageBits (some b) s.boot.secFloor ≠ 0 ∨
      s.startStep = 5 ∧ n = 6 ∧ (found.units.contains ⟨4, 0⟩ = true ∨ ok.any (fun u => u.kind == 1) = false) ∨
      s.startStep = 6 ∧ n = 7 ∧ (∀ d i, d < 5 → i < 4 → s.isBad 1 d = true ∨ ok.contains ⟨6, 4 * d + i⟩ = false) ∨
      s.startStep = 7 ∧ n = 8 ∧ ((List.range 32).filter fun n => ok.contains ⟨3, n⟩).length < 31 ∧
        s.fld fCF_CAP_DATA_SECTORS 0 0 ≠ 0) :
    Leads (.startStepComplete failed a b ok found) s fun t => t.startFailed s n := by
  rcases hbad with ⟨hs, rfl, hcore⟩ | ⟨hs, rfl, hkey⟩ | ⟨hs, rfl, hconfig⟩ | ⟨hs, rfl, hfw⟩ | ⟨hs, rfl, ha, hb⟩ |
    ⟨hs, rfl, hunits⟩ | ⟨hs, rfl, huntrained⟩ | ⟨hs, rfl, hfew, hflash⟩
  · exact startStepComplete_failStart hrun hlost hs (if_neg (ne_true_of_eq_false hcore))
  · refine startStepComplete_failStart hrun hlost hs (if_pos ?_)
    rcases hkey with h | h
    · rw [h]; rfl
    · rw [h, Bool.not_false, Bool.or_true]
  · exact startStepComplete_failStart hrun hlost hs (if_neg (ne_true_of_eq_false hconfig))
  · exact startStepComplete_failStart hrun hlost hs (if_pos hfw)
  · exact ⟨_, exec_startStepComplete failed a b ok found hrun hs, State.chooseSet_startFailed hlost ha hb⟩
  · exact startStepComplete_failStart hrun hlost hs (State.selfTested_failed hunits)
  · exact startStepComplete_failStart hrun hlost hs (State.dramStarted_failed huntrained)
  · exact startStepComplete_failStart hrun hlost hs (State.flashStarted_failed hfew hflash)

theorem exec_stepTimeout {s : State} (hrun : s.start.running = true) (hstep : s.startStep < 10) :
    exec .stepTimeout s = .next ((s.reach (s.start.stepAt + ms * stepLimitMs s.startStep)).failStart 9 s.startStep) := by
  show execStepTimeout s = _
  unfold execStepTimeout
  rw [if_pos (by rw [hrun, decide_eq_true hstep]; rfl)]

theorem State.reach_failStart_startFailed {s : State} (hlost : s.newestOutcome ≠ 3) (time reason detail : Nat) :
    ((s.reach time).failStart reason detail).startFailed s reason :=
  State.startFailed_congr (s' := s.reach time) (State.fld_of_regs rfl ..) rfl rfl rfl rfl
    (State.failStart_startFailed (s := s.reach time) hlost reason detail)

theorem stepTimeout_fails (s : State) (hrun : s.start.running = true) (hstep : s.startStep < 10) : Leads .stepTimeout s fun t =>
    t.now = max s.now (s.start.stepAt + ms * stepLimitMs s.startStep) ∧ (s.newestOutcome ≠ 3 → t.startFailed s 9) := by
  refine ⟨_, exec_stepTimeout hrun hstep, ?_, fun hlost => State.reach_failStart_startFailed hlost _ 9 _⟩
  exact (State.failStart_keeps ..).parts .now (by decide +kernel)

/-- Settles O58: the steps of a start by number, and a lemma for each command of the boot range. -/
theorem startsAndBootRecords : Obligations.StartsAndBootRecords := by
  unfold Obligations.StartsAndBootRecords
  exact ⟨powerOn_begins, startStepComplete_goes_on, startStepComplete_fails, stepTimeout_fails, provision_once, attest_reports,
    imageWrite_answers, imageVerify_answers, secverCommit_raises, startRetry_restarts, configReset_empties,
    preferredSet_chooses⟩

end Sys2Proof.Machine
end

section
/-! SUPPORT. The parts of an index: a version read after an operation that leaves the indexes alone, one bit of the VALID and
RETIRING masks written (R47 to R50), and the end of a general-body command (R248, R255). -/

namespace Sys2Proof.Machine

/-! ### One bit of a mask -/

theorem testBit_add_two_pow_ne {m v : Nat} (h : m.testBit v = false) {w : Nat} (hw : w ≠ v) :
    (m + 2 ^ v).testBit w = m.testBit w := by
  have hr := Nat.mod_lt m (Nat.two_pow_pos v)
  have hm : m + 2 ^ v = 2 ^ v * (m / 2 ^ v + 1) + m % 2 ^ v := by
    rw [Nat.mul_add, Nat.mul_one, Nat.add_right_comm, Nat.div_add_mod]
  have hlow : (m / 2 ^ v).testBit 0 = false := by rw [Nat.testBit_div_two_pow, Nat.zero_add, h]
  rw [Nat.testBit_zero, decide_eq_false_iff_not] at hlow
  rw [hm, Nat.testBit_two_pow_mul_add _ hr]
  by_cases hlt : w < v
  · rw [if_pos hlt, Nat.testBit_mod_two_pow, decide_eq_true hlt, Bool.true_and]
  · obtain ⟨k, rfl⟩ : ∃ k, w = v + (k + 1) := ⟨w - v - 1, by omega⟩
    rw [if_neg hlt, Nat.add_sub_cancel_left, Nat.testBit_succ, show (m / 2 ^ v + 1) / 2 = m / 2 ^ v / 2 by omega,
      ← Nat.testBit_succ, Nat.testBit_div_two_pow, Nat.add_comm]

theorem testBit_setBit (m v w : Nat) (b : Bool) : (setBit m v b).testBit w = if w = v then b else m.testBit w := by
  unfold setBit
  split
  · next h =>
    split
    · next hw => rw [hw, h]
    · rfl
  · next h =>
    cases b with
    | true =>
      rw [if_pos rfl]
      split
      · next hw => rw [hw, Nat.add_comm, Nat.testBit_two_pow_add_eq, Bool.eq_false_of_not_eq_true h, Bool.not_false]
      · next hw => exact testBit_add_two_pow_ne (Bool.eq_false_of_not_eq_true h) hw
    | false =>
      have hm : m - 2 ^ v + 2 ^ v = m := Nat.sub_add_cancel (Nat.ge_two_pow_of_testBit (Bool.eq_true_of_not_eq_false h))
      have hclear : (m - 2 ^ v).testBit v = false := by
        have := Nat.testBit_two_pow_add_eq (m - 2 ^ v) v
        rw [Nat.add_comm, hm, Bool.eq_true_of_not_eq_false h] at this
        simpa using this.symm
      rw [if_neg Bool.false_ne_true]
      split
      · next hw => rw [hw, hclear]
      · next hw => rw [← testBit_add_two_pow_ne hclear hw, hm]

/-- A mask field after one bit of it has been written: that bit, where the field has it, and the others as they were. -/
theorem State.testBit_fld_setFld_setBit (s : State) {f : Fld} (hf : Fld.fits f = true) (i j v w : Nat) (b : Bool) :
    ((s.setFld f i j (setBit (s.fld f i j) v b)).fld f i j).testBit w =
      if w = v then b && decide (v < f.hi + 1 - f.lo) else (s.fld f i j).testBit w := by
  rw [State.fld_setFld_self s hf, Fld.bound, Nat.testBit_mod_two_pow, testBit_setBit]
  split
  · next h => rw [h, Bool.and_comm]
  · rw [State.fld, Fld.testBit_get, ← Bool.and_assoc, Bool.and_self]

theorem State.idxRetiring_congr {s t : State} {n : Nat} (h : t.reg .HQ_IDX_CTL n 0 = s.reg .HQ_IDX_CTL n 0) (v : Nat) :
    t.idxRetiring n v = s.idxRetiring n v := by
  rw [State.idxRetiring, State.idxRetiring, State.fld_congr h]

theorem State.idxValid_congr {s t : State} {n : Nat} (h : t.reg .HQ_IDX_CTL n 0 = s.reg .HQ_IDX_CTL n 0) (v : Nat) :
    t.idxValid n v = s.idxValid n v := by
  rw [State.idxValid, State.idxValid, State.fld_congr h]

/-! ### Versions -/

theorem State.reg_setVersion (k : Nat) (x : Version) (s : State) (r : RegName) (i j : Nat) :
    (s.setVersion k x).reg r i j = s.reg r i j := rfl

theorem State.version_congr {s t : State} (h : t.idx = s.idx) (k : Nat) : t.version k = s.version k := by
  rw [State.version, State.version, h]

theorem Keeps.version {m : Nat} {s t : State} (h : Keeps m s t) (hm : m.testBit (Part.bit .idx) = false) (k : Nat) :
    t.version k = s.version k := State.version_congr (h.parts .idx hm) k

/-! ### The end of a general-body command (R248, R255) -/

theorem Keeps.cmd? {m : Nat} {s t : State} (h : Keeps m s t) (hm : m.testBit (Part.bit .hq) = false) (c q : Nat) :
    t.cmd? c q = s.cmd? c q := State.cmd?_congr (h.parts .hq hm) c q

/-- A general-body command that succeeds on a ring has ended once its sync object is signalled. -/
theorem State.gFinish_ended {s : State} {c : Nat} {m : Cmd} (hm : s.cmd? c m.seq = some m) (hring : s.toRing c = true)
    (r : Res) : CmdEnded c m r (s.gSignal m) (s.gFinish c m r) := by
  have hk := State.gSignal_keeps m s
  exact State.finish_ended ((hk.cmd? (by decide +kernel) c m.seq).trans hm)
    ((hk.toRing (by decide +kernel) (by decide +kernel) c).trans hring) r

/-- A command that stays in its context past its admission leaves the others waiting as they were. -/
theorem State.admitFront_stays {s t u : State} {c op : Nat} {m : Cmd} {chk : Cmd → State → Nat} {k : Cmd → State → State}
    (hadm : s.admission c op = some (m, t)) (hdef : s.allDefined c = true) (hk : k m t = u) (hhq : u.hq = t.hq) (n : Nat) :
    (s.admitFront c [op] chk k).admitBad c n = u := by
  obtain ⟨had, hfront⟩ := State.admitFront_of_admission hadm chk k
  have hdef' : u.allDefined c = true := by
    rw [State.allDefined_congr (congrArg Ctx.cmds (State.ctx_congr hhq c))]
    exact had.allDefined hdef
  rw [hfront, hk, State.admitBad_of_allDefined hdef']

/-- What a check of the worst status amounts to where every check passes. -/
theorem worst_eq_zero {checks : List (Bool × Nat)} (h : ∀ e ∈ checks, e.1 = false) : worst checks = 0 := by
  unfold worst
  induction checks with
  | nil => rfl
  | cons e es ih =>
    obtain ⟨he, hes⟩ := List.forall_mem_cons.mp h
    rw [List.foldl_cons, he]
    exact ih hes

theorem forEach_mem_keeps {α : Type} {P : State → Prop} {f : α → State → State} {xs : List α}
    (hf : ∀ a ∈ xs, ∀ u, P u → P (f a u)) {s : State} (h : P s) : P (forEach xs f s) := by
  unfold forEach
  induction xs generalizing s with
  | nil => exact h
  | cons a xs ih =>
    obtain ⟨ha, hxs⟩ := List.forall_mem_cons.mp hf
    exact ih hxs (ha s h)

end Sys2Proof.Machine
end

section
/-! Index versions retired, freed and switched (R49, R50, R410). -/

namespace Sys2Proof.Machine

/-! ### INDEX_RETIRE (R410) -/

/-- The version slot is being retired, and the command waits for its end. -/
def State.beginRetire (n v : Nat) (m : Cmd) (s : State) : State :=
  (s.setFld fHQ_IDX_CTL_RETIRING n 0 (setBit (s.fld fHQ_IDX_CTL_RETIRING n 0) v true)).modVersion (verKey n v) fun x =>
    { x with retireCmd := some m.seq }

theorem State.hq_beginRetire (n v : Nat) (m : Cmd) (s : State) : (s.beginRetire n v m).hq = s.hq := by
  rw [State.beginRetire, State.modVersion, State.hq_setVersion, State.hq_setFld]

theorem State.retireStatus_passes {t : State} {m : Cmd} {v : Nat} (hgen : generalOk m.bytes = true)
    (hfit : firstFit (fun v => (t.version (verKey (gTarget m.bytes) v)).holds &&
      t.fld fHQ_IDX_VER_VERSION (gTarget m.bytes) v == gVersion m.bytes && !t.idxRetiring (gTarget m.bytes) v) 4 = some v)
    (hcur : (t.idxValid (gTarget m.bytes) v && t.fld fHQ_IDX_CTL_CURRENT (gTarget m.bytes) 0 == v) = false) :
    t.retireStatus m = (some v, 0) := by
  unfold State.retireStatus
  simp only [hfit, hgen, Option.any_some, hcur]
  rfl

theorem State.admitRetire_begins {t : State} {c : Nat} {m : Cmd} {v : Nat} (h : t.retireStatus m = (some v, 0)) :
    t.admitRetire c m = (t.beginRetire (gTarget m.bytes) v m).commitVersion (verKey (gTarget m.bytes) v) := by
  unfold State.admitRetire
  rw [h]
  rfl

theorem firstFit_lt {p : Nat → Bool} {n v : Nat} (h : firstFit p n = some v) : v < n :=
  List.mem_range.mp (List.mem_of_find?_eq_some h)

theorem exec_indexRetire (c : Nat) (s : State) :
    exec (.indexRetire c) s =
      .next ((s.admitFront c [0x1A] (fun m t => (t.retireStatus m).2) (State.admitRetire c)).admitBad c 65536) := by
  show execIndexRetire c s = _
  rfl

theorem indexRetire_waits (c : Nat) (s : State) (m : Cmd) (t : State) (v : Nat) (hadm : s.admission c 0x1A = some (m, t))
    (hdef : s.allDefined c = true) (hgen : generalOk m.bytes = true)
    (hfit : firstFit (fun v => (t.version (verKey (gTarget m.bytes) v)).holds &&
      t.fld fHQ_IDX_VER_VERSION (gTarget m.bytes) v == gVersion m.bytes && !t.idxRetiring (gTarget m.bytes) v) 4 = some v)
    (hcur : (t.idxValid (gTarget m.bytes) v && t.fld fHQ_IDX_CTL_CURRENT (gTarget m.bytes) 0 == v) = false) :
    Leads (.indexRetire c) s fun u => u.idxRetiring (gTarget m.bytes) v = true ∧
      (u.version (verKey (gTarget m.bytes) v)).retireCmd = some m.seq ∧ u.cmd? c m.seq = some m ∧
      ∀ w, w ≠ v → u.idxRetiring (gTarget m.bytes) w = t.idxRetiring (gTarget m.bytes) w := by
  have had := (State.admitFront_of_admission hadm (fun m t => (t.retireStatus m).2) (State.admitRetire c)).1
  have hk := State.commitVersion_keeps (verKey (gTarget m.bytes) v) (t.beginRetire (gTarget m.bytes) v m)
  have hbits : ∀ w, (t.beginRetire (gTarget m.bytes) v m).idxRetiring (gTarget m.bytes) w =
      if w = v then true else t.idxRetiring (gTarget m.bytes) w := by
    intro w
    rw [State.beginRetire, State.modVersion, State.idxRetiring_congr (State.reg_setVersion ..), State.idxRetiring,
      State.testBit_fld_setFld_setBit t (by decide)]
    have hlt : v < fHQ_IDX_CTL_RETIRING.hi + 1 - fHQ_IDX_CTL_RETIRING.lo := firstFit_lt hfit
    rw [decide_eq_true hlt]
    rfl
  have hhq : ((t.beginRetire (gTarget m.bytes) v m).commitVersion (verKey (gTarget m.bytes) v)).hq = t.hq :=
    (hk.parts .hq (by decide +kernel)).trans (State.hq_beginRetire ..)
  have hexec : exec (.indexRetire c) s =
      .next ((t.beginRetire (gTarget m.bytes) v m).commitVersion (verKey (gTarget m.bytes) v)) := by
    rw [exec_indexRetire, State.admitFront_stays hadm hdef
      (State.admitRetire_begins (State.retireStatus_passes hgen hfit hcur)) hhq]
  refine ⟨_, hexec, ?_, ?_, ?_, fun w hw => ?_⟩
  · rw [State.idxRetiring_congr (hk.regs _ _ _ (by decide +kernel)), hbits, if_pos rfl]
  · rw [hk.version (by decide +kernel), State.beginRetire, State.modVersion, State.version_setVersion_self]
  · exact (State.cmd?_congr hhq c m.seq).trans had.cmd
  · rw [State.idxRetiring_congr (hk.regs _ _ _ (by decide +kernel)), hbits, if_neg hw]

/-! ### VERSION_FREE (R410) -/

/-- The DRAM and the lower copies of a list are released. -/
def State.freeStore (k : Nat) (l : IList) (s : State) : State :=
  let owner := (s.version k).owner
  let n := blockUnits (s.codeBits (k / 4))
  let s := if l.rstate = 3 then s else s.dropCharge l.holder 0 (s.listUnits k l)
  let low := l.blocks.filterMap (·.low)
  let s := (s.dropCharge owner l.lowTier (lowCharge l.lowTier n * low.length)).dropCharge owner 0 l.lowTabUnits
  if l.lowTier = 1 then
    forEach low (fun a t => t.releaseLsns (lowCh a) ((List.range n).map (lowLsn a + ·))) s
  else s

theorem State.freeStore_keeps (k : Nat) (l : IList) (s : State) : Keeps (touchSet [.fl] [.TN_QUOTA_USED]) s (s.freeStore k l) := by
  unfold State.freeStore
  extract_lets owner n u low w
  have hu : Keeps (touchSet [.fl] [.TN_QUOTA_USED]) s u :=
    Keeps.ite Keeps.rfl (Keeps.after Keeps.rfl (State.dropCharge_keeps ..) (by decide +kernel))
  have hw : Keeps (touchSet [.fl] [.TN_QUOTA_USED]) s w :=
    (hu.after (State.dropCharge_keeps ..) (by decide +kernel)).after (State.dropCharge_keeps ..) (by decide +kernel)
  exact Keeps.ite (Keeps.forEach _ _ (fun _ _ => (State.releaseLsns_keeps ..).widen (by decide +kernel)) hw) hw

theorem State.freeList_eq (k : Nat) (l : IList) (s : State) :
    s.freeList k l = forEach l.movers (fun m t => t.finish m.1 m.2 (Res.of stBadVersion)) (s.freeStore k l) := rfl

/-- The lists, sectors, charges and successor relations of a version are released. -/
def State.freeObjects (n v : Nat) (s : State) : State :=
  let k := verKey n v
  let x := s.version k
  let s := forEach x.sectors (State.freeSector k) (forEach x.lists.vals (State.freeList k) s)
  forEach (List.range 4) (fun w t => t.dropSuccessor (verKey n w) v) (s.dropCharge x.owner 0 x.charged)

/-- The slot holds no version any more. -/
def State.clearSlot (n v : Nat) (s : State) : State :=
  let k := verKey n v
  let keep := fun (e : KeptLog) =>
    { e with slots := e.slots.filter (·.1 != k), retired := e.retired.filter (·.1 != k) }
  let s := { s with idx := { s.idx with versions := s.idx.versions.del k, updateLog := s.idx.updateLog.map keep } }
  s.setReg .HQ_IDX_CTL n 0 (Fld.put fHQ_IDX_CTL_RETIRING
    (Fld.put fHQ_IDX_CTL_VALID (s.reg .HQ_IDX_CTL n 0) (setBit (s.fld fHQ_IDX_CTL_VALID n 0) v false))
    (setBit (s.fld fHQ_IDX_CTL_RETIRING n 0) v false))

theorem State.freeVersion_eq (n v : Nat) (s : State) :
    s.freeVersion n v = match (s.version (verKey n v)).retireCmd.bind ((s.freeObjects n v).clearSlot n v).ownerOf with
      | some (c, m) => ((s.freeObjects n v).clearSlot n v).gFinish c m {}
      | none => (s.freeObjects n v).clearSlot n v := rfl

theorem State.clearSlot_clear (n v : Nat) (s : State) :
    (s.clearSlot n v).idxValid n v = false ∧ (s.clearSlot n v).idxRetiring n v = false ∧
      (s.clearSlot n v).idx.versions.get? (verKey n v) = none := by
  have hbit : ∀ m : Nat, (setBit m v false % 2 ^ 4).testBit v = false := fun m => by
    rw [Nat.testBit_mod_two_pow, testBit_setBit, if_pos rfl, Bool.and_false]
  unfold State.clearSlot
  refine ⟨?_, ?_, Tbl.get?_del_self ..⟩
  · rw [State.idxValid, State.fld, show fHQ_IDX_CTL_VALID.reg = .HQ_IDX_CTL from rfl, State.reg_setReg_self,
      Fld.get_put_apart (by decide) (by decide), Fld.get_put_self (by decide)]
    exact hbit _
  · rw [State.idxRetiring, State.fld, show fHQ_IDX_CTL_RETIRING.reg = .HQ_IDX_CTL from rfl, State.reg_setReg_self,
      Fld.get_put_self (by decide)]
    exact hbit _

/-- Freeing the objects of a version whose lists no command waits for ends no command. -/
theorem State.freeObjects_keeps {n v : Nat} {s : State} (h : ∀ l ∈ (s.version (verKey n v)).lists.vals, l.movers = []) :
    Keeps (touchSet [.fl, .idx] [.TN_QUOTA_USED]) s (s.freeObjects n v) := by
  unfold State.freeObjects
  extract_lets k x u
  have hlists : Keeps (touchSet [.fl, .idx] [.TN_QUOTA_USED]) s (forEach x.lists.vals (State.freeList k) s) :=
    forEach_mem_keeps (P := Keeps _ s) (fun l hl w hw => by
      rw [State.freeList_eq, h l hl]
      exact hw.after (State.freeStore_keeps k l w) (by decide +kernel)) Keeps.rfl
  have hsectors : Keeps (touchSet [.fl, .idx] [.TN_QUOTA_USED]) s u :=
    Keeps.forEach _ _ (fun _ _ => (State.freeSector_keeps ..).widen (by decide +kernel)) hlists
  exact Keeps.forEach _ _ (fun _ _ => (State.dropSuccessor_keeps ..).widen (by decide +kernel))
    (hsectors.after (State.dropCharge_keeps ..) (by decide +kernel))

theorem State.clearSlot_keeps (n v : Nat) (s : State) : Keeps (touchSet [.idx] [.HQ_IDX_CTL]) s (s.clearSlot n v) := by
  unfold State.clearSlot
  exact Keeps.setReg (Keeps.idx Keeps.rfl (by decide +kernel)) (by decide +kernel)

theorem State.ownerOf_congr {s t : State} (h : t.hq = s.hq) : t.ownerOf = s.ownerOf := by
  funext seq
  rw [State.ownerOf, State.ownerOf, h]

theorem exec_versionFree_frees {n v : Nat} {s : State} (hret : s.idxRetiring n v = true)
    (href : s.syVal (s.fld fHQ_IDX_VER_REF_SYNC n v) = 0) : exec (.versionFree n v) s = .next (s.freeVersion n v) := by
  show execVersionFree n v s = _
  rw [execVersionFree, hret, href]
  rfl

theorem exec_versionFree_waits {n v : Nat} {s : State} (href : s.syVal (s.fld fHQ_IDX_VER_REF_SYNC n v) ≠ 0) :
    exec (.versionFree n v) s = .next s := by
  show execVersionFree n v s = _
  rw [execVersionFree, beq_false_of_ne href, Bool.and_false]
  rfl

theorem versionFree_frees (n v : Nat) (s : State) (hret : s.idxRetiring n v = true)
    (href : s.syVal (s.fld fHQ_IDX_VER_REF_SYNC n v) = 0) :
    Leads (.versionFree n v) s fun t => t.idxValid n v = false ∧ t.idxRetiring n v = false ∧
      t.idx.versions.get? (verKey n v) = none ∧
      (∀ c m, ((s.version (verKey n v)).retireCmd.bind s.ownerOf) = some (c, m) → s.cmd? c m.seq = some m →
        (∀ l ∈ (s.version (verKey n v)).lists.vals, l.movers = []) → s.toRing c = true → t.ended c m 0 = true) := by
  refine ⟨_, exec_versionFree_frees hret href, ?_⟩
  rw [State.freeVersion_eq]
  obtain ⟨hvalid, hretiring, hgone⟩ := State.clearSlot_clear n v (s.freeObjects n v)
  rw [← and_assoc, ← and_assoc]
  constructor
  · split
    · next c m _ =>
      have hk := State.gFinish_keeps c m {} ((s.freeObjects n v).clearSlot n v)
      have hctl := hk.regs .HQ_IDX_CTL n 0 (by decide +kernel)
      rw [State.idxValid_congr hctl, State.idxRetiring_congr hctl, hk.parts .idx (by decide +kernel)]
      exact ⟨⟨hvalid, hretiring⟩, hgone⟩
    · exact ⟨⟨hvalid, hretiring⟩, hgone⟩
  · intro c m howner hm hmovers hring
    have hk : Keeps (touchSet [.fl, .idx] [.TN_QUOTA_USED, .HQ_IDX_CTL]) s ((s.freeObjects n v).clearSlot n v) :=
      (State.freeObjects_keeps hmovers |>.widen (by decide +kernel)).after (State.clearSlot_keeps ..) (by decide +kernel)
    rw [State.ownerOf_congr (hk.parts .hq (by decide +kernel)), howner]
    exact (State.gFinish_ended ((hk.cmd? (by decide +kernel) c m.seq).trans hm)
      ((hk.toRing (by decide +kernel) (by decide +kernel) c).trans hring) {}).ended

/-! ### INDEX_VERSION_SWITCH (R49, R50) -/

/-- A switch that R50 allows leaves CURRENT VALID where it was. -/
theorem State.current_valid_of_switch {s : State} {n : Nat} {old new : W64} (h : s.switchBad n old new = false)
    (hvalid : (Fld.get fHQ_IDX_CTL_VALID old).testBit (Fld.get fHQ_IDX_CTL_CURRENT old) = true) :
    (Fld.get fHQ_IDX_CTL_VALID new).testBit (Fld.get fHQ_IDX_CTL_CURRENT new) = true := by
  simp only [State.switchBad, Bool.or_eq_false_iff] at h
  obtain ⟨⟨⟨⟨⟨hlast, -⟩, -⟩, -⟩, -⟩, -⟩ := h
  rw [hvalid, Bool.true_and] at hlast
  simpa using hlast

/-- HQ_IDX_CTL as a switch leaves it. -/
def switched (old new : W64) : W64 :=
  Fld.put fHQ_IDX_CTL_SWITCH_COUNT new (Fld.get fHQ_IDX_CTL_SWITCH_COUNT old +
    if Fld.get fHQ_IDX_CTL_CURRENT old != Fld.get fHQ_IDX_CTL_CURRENT new then 1 else 0)

theorem exec_indexVersionSwitch_writes {n : Nat} {v : W64} {s : State}
    (h : s.switchBad n (s.reg .HQ_IDX_CTL n 0) (writeValue .HQ_IDX_CTL (s.reg .HQ_IDX_CTL n 0) v) = false) (loc : W64) :
    exec (.indexVersionSwitch n v loc) s = .next (s.setReg .HQ_IDX_CTL n 0
      (switched (s.reg .HQ_IDX_CTL n 0) (writeValue .HQ_IDX_CTL (s.reg .HQ_IDX_CTL n 0) v))) := by
  show execIndexVersionSwitch n v loc s = _
  exact if_neg (ne_true_of_eq_false h)

theorem exec_indexVersionSwitch_discards {n : Nat} {v : W64} {s : State}
    (h : s.switchBad n (s.reg .HQ_IDX_CTL n 0) (writeValue .HQ_IDX_CTL (s.reg .HQ_IDX_CTL n 0) v) = true) (loc : W64) :
    exec (.indexVersionSwitch n v loc) s = .next (s.discard loc v) := by
  show execIndexVersionSwitch n v loc s = _
  exact if_pos h

theorem get_current_writeValue (old v : W64) :
    Fld.get fHQ_IDX_CTL_CURRENT (writeValue .HQ_IDX_CTL old v) = Fld.get fHQ_IDX_CTL_CURRENT v :=
  get_writeValue (f := ⟨55, 54, .RW, 0, []⟩) (by decide) old v

theorem get_valid_writeValue (old v : W64) :
    Fld.get fHQ_IDX_CTL_VALID (writeValue .HQ_IDX_CTL old v) = Fld.get fHQ_IDX_CTL_VALID v :=
  get_writeValue (f := ⟨59, 56, .RW, 0, []⟩) (by decide) old v

theorem indexVersionSwitch_switches (n : Nat) (v loc : W64) (s : State)
    (h : s.switchBad n (s.reg .HQ_IDX_CTL n 0) (writeValue .HQ_IDX_CTL (s.reg .HQ_IDX_CTL n 0) v) = false) :
    Leads (.indexVersionSwitch n v loc) s fun t => Frame [] [.HQ_IDX_CTL] s t ∧
      t.fld fHQ_IDX_CTL_CURRENT n 0 = Fld.get fHQ_IDX_CTL_CURRENT v ∧
      t.fld fHQ_IDX_CTL_VALID n 0 = Fld.get fHQ_IDX_CTL_VALID v ∧
      (t.fld fHQ_IDX_CTL_SWITCH_COUNT n 0 = (s.fld fHQ_IDX_CTL_SWITCH_COUNT n 0 +
        if s.fld fHQ_IDX_CTL_CURRENT n 0 = Fld.get fHQ_IDX_CTL_CURRENT v then 0 else 1) % 2 ^ 16) ∧
      (s.idxValid n (s.fld fHQ_IDX_CTL_CURRENT n 0) = true → t.idxValid n (t.fld fHQ_IDX_CTL_CURRENT n 0) = true) := by
  refine ⟨_, exec_indexVersionSwitch_writes h loc, ?_⟩
  generalize hnew : writeValue .HQ_IDX_CTL (s.reg .HQ_IDX_CTL n 0) v = new at h ⊢
  have hcurrent : Fld.get fHQ_IDX_CTL_CURRENT new = Fld.get fHQ_IDX_CTL_CURRENT v := hnew ▸ get_current_writeValue ..
  have hvalid : Fld.get fHQ_IDX_CTL_VALID new = Fld.get fHQ_IDX_CTL_VALID v := hnew ▸ get_valid_writeValue ..
  have hread : ∀ f : Fld, f.reg = .HQ_IDX_CTL → (s.setReg .HQ_IDX_CTL n 0 (switched (s.reg .HQ_IDX_CTL n 0) new)).fld f n 0 =
      Fld.get f (switched (s.reg .HQ_IDX_CTL n 0) new) := fun f hf => by rw [State.fld, hf, State.reg_setReg_self]
  have hapart : ∀ f : Fld, (fHQ_IDX_CTL_SWITCH_COUNT.hi < f.lo ∨ f.hi < fHQ_IDX_CTL_SWITCH_COUNT.lo) →
      Fld.get f (switched (s.reg .HQ_IDX_CTL n 0) new) = Fld.get f new := fun f hf =>
    Fld.get_put_apart (by decide) hf _ _
  have hcur := (hread fHQ_IDX_CTL_CURRENT rfl).trans (hapart _ (by decide))
  have hval := (hread fHQ_IDX_CTL_VALID rfl).trans (hapart _ (by decide))
  refine ⟨?_, hcur.trans hcurrent, hval.trans hvalid, ?_, fun hs => ?_⟩
  · exact (Keeps.setReg (m := touchSet [] [.HQ_IDX_CTL]) Keeps.rfl (by decide +kernel)).frame (by decide +kernel)
  · rw [hread _ rfl, switched, Fld.get_put_self (by decide), hcurrent]
    show (s.fld fHQ_IDX_CTL_SWITCH_COUNT n 0 + ite ((s.fld fHQ_IDX_CTL_CURRENT n 0 != _) = true) 1 0) % 2 ^ 16 = _
    congr 2
    simp only [bne_iff_ne, ne_eq, ite_not]
  · rw [State.idxValid, hval, hcur]
    exact State.current_valid_of_switch h hs

theorem indexVersionSwitch_discards (n : Nat) (v loc : W64) (s : State)
    (h : s.switchBad n (s.reg .HQ_IDX_CTL n 0) (writeValue .HQ_IDX_CTL (s.reg .HQ_IDX_CTL n 0) v) = true) :
    Leads (.indexVersionSwitch n v loc) s fun t => Frame [.out, .ras] logRegs s t :=
  ⟨_, exec_indexVersionSwitch_discards h loc, (State.discard_keeps loc v s).frame (by decide +kernel)⟩

/-- Settles O31: a retirement sets its bit and waits, the freeing clears the slot once nothing holds it, and a switch is taken
whole or discarded. -/
theorem versionsAreRetiredAndSwitched : Obligations.VersionsAreRetiredAndSwitched := by
  unfold Obligations.VersionsAreRetiredAndSwitched
  exact ⟨indexRetire_waits, versionFree_frees, fun _ _ _ => exec_versionFree_waits, indexVersionSwitch_switches,
    indexVersionSwitch_discards⟩

end Sys2Proof.Machine
end

section
/-! Index versions built: DEFINE_BITMAP, INDEX_BUILD and SCHEDULE_LOAD (R48, R93, R217, R228, R409). -/

namespace Sys2Proof.Machine

/-! ### Numbers in a descriptor (R6) -/

theorem leNat_lt (bs : List Byte) : leNat bs < 256 ^ bs.length := by
  induction bs with
  | nil => exact Nat.one_pos
  | cons b bs ih =>
    have hb := b.isLt
    rw [leNat, List.length_cons, Nat.pow_succ]
    omega

theorem fieldAt_lt (b : List Byte) (o n : Nat) : fieldAt b o n < 256 ^ n :=
  Nat.lt_of_lt_of_le (leNat_lt _) (Nat.pow_le_pow_right (by decide) (List.length_take_le ..))

/-! ### A command whose charge is made as a whole (R217) -/

/-- A command whose charges fit: it has ended with its result in the state that they make. -/
theorem State.orQuota_fits {s t after : State} {c op : Nat} {m : Cmd} {r : Res} {w : Nat} {chk : Cmd → State → Nat}
    {k : Cmd → State → State} (hadm : s.admission c op = some (m, t)) (hdef : s.allDefined c = true)
    (hring : s.toRing c = true) (hk : k m t = t.orQuota c m r after) (hafter : Keeps w t after)
    (hhq : w.testBit (Part.bit .hq) = false) (hbind : w.testBit (regBit .HQ_CTX_BIND) = false)
    (hfit : chargesFit t after = true) (n : Nat) :
    (s.admitFront c [op] chk k).admitBad c n = after.gFinish c m r ∧ (after.gFinish c m r).ended c m r.settle.status = true := by
  have had := (State.admitFront_of_admission hadm chk k).1
  have hend : CmdEnded c m r (after.gSignal m) (after.gFinish c m r) :=
    State.gFinish_ended ((hafter.cmd? hhq c m.seq).trans had.cmd) ((hafter.toRing hhq hbind c).trans (had.toRing.trans hring)) r
  have hsig : (after.gSignal m).hq = t.hq :=
    ((State.gSignal_keeps m after).parts .hq (by decide +kernel)).trans (hafter.parts .hq hhq)
  refine ⟨State.admitFront_ended hadm hdef ?_ hend hsig n, hend.ended⟩
  rw [hk, State.orQuota, if_pos hfit, State.gFinish]

/-- A command whose charges do not fit: it has ended with QUOTA_EXCEEDED, and no index has changed. -/
theorem State.orQuota_exceeds {s t after : State} {c op : Nat} {m : Cmd} {r : Res} {chk : Cmd → State → Nat}
    {k : Cmd → State → State} (hadm : s.admission c op = some (m, t)) (hdef : s.allDefined c = true)
    (hring : s.toRing c = true) (hk : k m t = t.orQuota c m r after) (hfit : chargesFit t after = false) (n : Nat) :
    ((s.admitFront c [op] chk k).admitBad c n).ended c m stQuota = true ∧
      ((s.admitFront c [op] chk k).admitBad c n).idx = t.idx := by
  have had := (State.admitFront_of_admission hadm chk k).1
  have hnote := State.noteRefused_keeps t after
  have hend : CmdEnded c m (Res.of stQuota) (t.noteRefused after) ((t.noteRefused after).finish c m.seq (Res.of stQuota)) :=
    State.finish_ended ((hnote.cmd? (by decide +kernel) c m.seq).trans had.cmd)
      ((hnote.toRing (by decide +kernel) (by decide +kernel) c).trans (had.toRing.trans hring)) _
  have hstate : (s.admitFront c [op] chk k).admitBad c n = (t.noteRefused after).finish c m.seq (Res.of stQuota) := by
    refine State.admitFront_ended hadm hdef ?_ hend (hnote.parts .hq (by decide +kernel)) n
    rw [hk, State.orQuota, if_neg (ne_true_of_eq_false hfit)]
  rw [hstate]
  exact ⟨hend.ended, ((State.finish_keeps ..).parts .idx (by decide +kernel)).trans (hnote.parts .idx (by decide +kernel))⟩

/-! ### DEFINE_BITMAP (R93) -/

theorem exec_defineBitmap (c : Nat) (s : State) :
    exec (.defineBitmap c) s =
      .next ((s.admitFront c [0x18] (fun m t => (t.defineStatus m).2) (State.admitDefine c)).admitBad c 65536) := by
  show execDefineBitmap c s = _
  rfl

/-- A definition that passes its checks is charged for the version alone, where that has no successor. -/
theorem State.admitDefine_charges {t : State} {m : Cmd} {v : Nat} (hgen : generalOk m.bytes = true)
    (hcap : t.capture (gTarget m.bytes) (gNamed m.bytes) (gVersion m.bytes) = some v)
    (hnew : (t.version (verKey (gTarget m.bytes) v)).stdMask.getLsbD (gArg m.bytes) = false)
    (hsucc : (t.version (verKey (gTarget m.bytes) v)).succ = none) (c : Nat) :
    t.admitDefine c m = t.orQuota c m {} (t.defineStd (gArg m.bytes) (verKey (gTarget m.bytes) v)) := by
  have hwith : t.withBitmap (gArg m.bytes) (verKey (gTarget m.bytes) v) =
      t.defineStd (gArg m.bytes) (verKey (gTarget m.bytes) v) := by rw [State.withBitmap, hsucc]
  have hkey : (t.defineStatus m).1 = verKey (gTarget m.bytes) v := by rw [State.defineStatus, hcap]; rfl
  have hst : (t.defineStatus m).2 = 0 ∨ (t.defineStatus m).2 = stQuota := by
    simp only [State.defineStatus, hcap, hgen, hnew, Option.getD_some, Option.isSome_some, Option.isNone_some, Bool.not_true,
      Bool.and_false, Bool.or_false, Bool.true_and]
    cases chargesFit t (t.withBitmap (gArg m.bytes) (verKey (gTarget m.bytes) v)) with
    | true => exact Or.inl rfl
    | false => exact Or.inr rfl
  rw [State.admitDefine]
  simp only [hkey, hwith]
  exact if_neg fun h => hst.elim h.1 h.2

theorem Version.getD_mapRecs (x : Version) (f : Nat → DieRec → DieRec) {d : Nat} (hd : d < 5) :
    (x.mapRecs f).getD {} d = f d (x.recs.getD {} d) := by
  interval_cases d <;> rfl

/-- A bitmap defined on a version: its bit, its charge, and its place in each die's record. -/
theorem State.version_defineStd {s : State} {j k : Nat} (hnew : (s.version k).stdMask.getLsbD j = false) :
    (s.defineStd j k).version k = { s.version k with
      stdMask := (s.version k).stdMask ||| BitVec.ofNat 16 (2 ^ j),
      charged := (s.version k).charged + (s.version k).bitmapUnits,
      recs := (s.version k).mapRecs fun d r => { r with stdBase := r.stdBase.put j (s.bitmapAt (s.version k) d d) } } := by
  unfold State.defineStd
  extract_lets x units at_
  rw [if_neg (ne_true_of_eq_false hnew)]
  exact State.version_setVersion_self ..

theorem State.bitmapAt_aligned (s : State) (x : Version) (d i : Nat) : s.bitmapAt x d i % 32 = 0 := Nat.mul_mod_left ..

theorem defineBitmap_defines (c : Nat) (s : State) (m : Cmd) (t : State) (v : Nat) (hadm : s.admission c 0x18 = some (m, t))
    (hdef : s.allDefined c = true) (hring : s.toRing c = true) (hgen : generalOk m.bytes = true)
    (hcap : t.capture (gTarget m.bytes) (gNamed m.bytes) (gVersion m.bytes) = some v)
    (hnew : (t.version (verKey (gTarget m.bytes) v)).stdMask.getLsbD (gArg m.bytes) = false)
    (hsucc : (t.version (verKey (gTarget m.bytes) v)).succ = none) :
    Leads (.defineBitmap c) s fun u =>
      (chargesFit t (t.defineStd (gArg m.bytes) (verKey (gTarget m.bytes) v)) = true → u.ended c m 0 = true ∧
        u.version (verKey (gTarget m.bytes) v) = { t.version (verKey (gTarget m.bytes) v) with
          stdMask := (t.version (verKey (gTarget m.bytes) v)).stdMask ||| BitVec.ofNat 16 (2 ^ gArg m.bytes),
          charged := (t.version (verKey (gTarget m.bytes) v)).charged + (t.version (verKey (gTarget m.bytes) v)).bitmapUnits,
          recs := (u.version (verKey (gTarget m.bytes) v)).recs } ∧
        ∀ d < 5, ∃ a, (((u.version (verKey (gTarget m.bytes) v)).recs.getD {} d).stdBase.get? (gArg m.bytes)) = some a ∧
          a % 32 = 0) ∧
      (chargesFit t (t.defineStd (gArg m.bytes) (verKey (gTarget m.bytes) v)) = false →
        u.ended c m stQuota = true ∧ u.idx = t.idx) := by
  have hcharges := State.admitDefine_charges hgen hcap hnew hsucc c
  refine ⟨_, exec_defineBitmap c s, fun hfit => ?_, fun hfit => ?_⟩
  · obtain ⟨hstate, hended⟩ := State.orQuota_fits (k := State.admitDefine c) (chk := fun m t => (t.defineStatus m).2) hadm hdef
      hring hcharges (State.defineStd_keeps ..) (by decide +kernel) (by decide +kernel) hfit 65536
    rw [hstate, (State.gFinish_keeps ..).version (by decide +kernel), State.version_defineStd hnew]
    refine ⟨hended, rfl, fun d hd => ?_⟩
    rw [Version.getD_mapRecs _ _ hd]
    exact ⟨_, Tbl.get?_put_self .., State.bitmapAt_aligned ..⟩
  · exact State.orQuota_exceeds hadm hdef hring hcharges hfit 65536

/-! ### INDEX_BUILD (R409) -/

theorem exec_indexBuild (c : Nat) (readOk : Bool) (s : State) :
    exec (.indexBuild c readOk) s =
      .next ((s.admitFront c [0x19] (fun m t => t.buildStatus m) (State.admitBuild readOk c)).admitBad c 65536) := by
  show execIndexBuild c readOk s = _
  rfl

/-- The version that a build makes (R409 steps 1 to 4). -/
def State.newVersion (s : State) (n u tenant : Nat) (cents : List Code) (place : List Nat) (std : BitVec 16) : Version :=
  let x : Version := {
    holds := true, owner := tenant, centBase := s.placeAt 1 (2 ^ 25) (s.centBits n / 8 * cents.length) (s.centBits n / 8),
    cents := cents, place := place, ordLo := (dieRanges u).1, ordHi := (dieRanges u).2, ordNext := (dieRanges u).1, stdMask := std,
    charged := buildUnits u cents.length (popcount16 std) }
  { x with recs := (List.range 5).map fun d => (d, s.dieRec x (2 + 22 * d) d) }

/-- The registers of a version slot name the version that a build makes (R409 step 4). -/
def State.nameVersion (n v u num rec_ : Nat) (s : State) : State :=
  let s := (s.setFld fHQ_IDX_VER_VERSION n v num).setFld fHQ_IDX_VER_REC_ADDR n v rec_
  let s := s.setFld fHQ_IDX_LIM_ORD_LIMIT_64K n v u
  s.setFld fHQ_IDX_CTL_VALID n 0 (setBit (s.fld fHQ_IDX_CTL_VALID n 0) v true)

theorem State.buildVersion_eq (n v u num tenant : Nat) (cents : List Code) (place : List Nat) (std : BitVec 16) (s : State) :
    s.buildVersion n v u num tenant cents place std =
      ((((s.draws 112).addCharge tenant 0 (buildUnits u cents.length (popcount16 std))).setVersion (verKey n v)
        (s.newVersion n u tenant cents place std)).nameVersion n v u num (s.placeAt 0 (2 ^ 40) 256 64 / 64)) := rfl

/-- What an INDEX_BUILD of the slot `v` makes of the device, with the clusters placed so. -/
def State.built (c : Nat) (m : Cmd) (v : Nat) (place : List Nat) (t : State) : State :=
  let b := m.bytes
  let n := gTarget b
  let u := t.buildVersion n v (gArg b / 2 ^ 14) (gVersion b) (t.ctxTenant c) (t.buildCents c m) place (t.buildStd m)
  if gOptA b then u.makeSuccessor n (t.fld fHQ_IDX_CTL_CURRENT n 0) v (gOptB b) else u

/-- A build that passes the checks of R29 and R409 is charged, wherever its clusters are placed. -/
theorem State.admitBuild_builds {t : State} {c : Nat} {m : Cmd} {v : Nat} (h : t.buildSlot? c m = some v) :
    v < 4 ∧ ∃ place, t.admitBuild true c m = t.orQuota c m { info := v } (t.built c m v place) := by
  unfold State.buildSlot? at h
  extract_lets b n held at h
  split at h
  case isFalse => cases h
  case isTrue hcond =>
    refine ⟨firstFit_lt h, ?_⟩
    simp only [Bool.and_eq_true, Bool.or_eq_true, Bool.not_eq_true', decide_eq_true_eq] at hcond
    obtain ⟨⟨⟨⟨⟨⟨⟨hgen, hen⟩, hlen⟩, hopt⟩, hcur⟩, hnum⟩, hfits⟩, hplace⟩ := hcond
    have hslot : t.freeSlot n = some v := h
    have hst : t.buildStatus m = 0 := by
      unfold State.buildStatus
      extract_lets bad
      have hopt' : (gOptB b && !gOptA b) = false := by rcases hopt with h | h <;> simp [h]
      have hbad : bad = false := by
        show (!generalOk b || !t.isOn fHQ_IDX_CTL_ENABLE n 0 || decide (t.codeBits n < t.centBits n) || (gOptB b && !gOptA b)
          || held.any (fun v => t.fld fHQ_IDX_VER_VERSION n v == gVersion b) || (t.freeSlot n).isNone
          || !t.buildFits n (gArg b / 2 ^ 14) (gCount b)) = false
        rw [hgen, hen, decide_eq_false (Nat.not_lt.mpr hlen), hopt', hnum, hslot, hfits]
        rfl
      have hcur' : (gOptA b && !t.idxValid n (t.fld fHQ_IDX_CTL_CURRENT n 0)) = false := by
        rcases hcur with h | h <;> simp [h]
      refine worst_eq_zero fun e he => ?_
      rcases List.mem_cons.mp he with rfl | he
      · exact hbad
      · rw [List.mem_singleton.mp he]
        exact hcur'
    unfold State.admitBuild
    extract_lets u count num slot cur std st f r cb p cents given v' tenant own free e
    rw [if_neg (not_not_intro hst), if_neg (by decide)]
    have hgiven : given.isSome = true := by
      show Option.isSome (if gAddrB b = 0 then _ else _) = true
      split
      · rfl
      · next hne => exact hplace.resolve_left fun h => hne (beq_iff_eq.mp h)
    obtain ⟨g, hg⟩ := Option.isSome_iff_exists.mp hgiven
    have hv : v' = v := by
      show (t.freeSlot n).getD 0 = v
      rw [hslot, Option.getD_some]
    rw [hg, hv]
    exact ⟨_, rfl⟩

/-! The charges of a build, and the version it leaves, do not depend on where its clusters go. -/

theorem State.regs_setFld_congr {s t : State} (h : t.regs = s.regs) (f : Fld) (i j x : Nat) :
    (t.setFld f i j x).regs = (s.setFld f i j x).regs := by
  rw [State.setFld, State.setFld, State.setReg, State.setReg, State.reg, State.reg, h]

theorem State.regs_nameVersion_congr {s t : State} (h : t.regs = s.regs) (n v u num rec_ : Nat) :
    (t.nameVersion n v u num rec_).regs = (s.nameVersion n v u num rec_).regs := by
  have hnamed := State.regs_setFld_congr (State.regs_setFld_congr (State.regs_setFld_congr h fHQ_IDX_VER_VERSION n v num)
    fHQ_IDX_VER_REC_ADDR n v rec_) fHQ_IDX_LIM_ORD_LIMIT_64K n v u
  simp only [State.nameVersion, State.fld_of_regs hnamed]
  exact State.regs_setFld_congr hnamed ..

theorem State.nameVersion_keeps (n v u num rec_ : Nat) (s : State) :
    Keeps (touchSet [] [.HQ_IDX_VER, .HQ_IDX_LIM, .HQ_IDX_CTL]) s (s.nameVersion n v u num rec_) := by
  unfold State.nameVersion
  refine Keeps.setFld (Keeps.setFld (Keeps.setFld (Keeps.setFld Keeps.rfl ?_) ?_) ?_) ?_ <;> decide +kernel

theorem State.version_nameVersion (n v u num rec_ : Nat) (s : State) (k : Nat) :
    (s.nameVersion n v u num rec_).version k = s.version k := (State.nameVersion_keeps ..).version (by decide +kernel) k

theorem State.version_buildVersion_self (n v u num tenant : Nat) (cents : List Code) (place : List Nat) (std : BitVec 16)
    (s : State) : (s.buildVersion n v u num tenant cents place std).version (verKey n v) =
      s.newVersion n u tenant cents place std := by
  rw [State.buildVersion_eq, State.version_nameVersion, State.version_setVersion_self]

theorem State.version_buildVersion_ne {n v k : Nat} (h : k ≠ verKey n v) (u num tenant : Nat) (cents : List Code)
    (place : List Nat) (std : BitVec 16) (s : State) :
    (s.buildVersion n v u num tenant cents place std).version k = s.version k := by
  rw [State.buildVersion_eq, State.version_nameVersion, State.version_setVersion_ne _ h]
  exact State.version_congr rfl k

/-- The cluster placement of a build stands in its version alone. -/
theorem State.version_buildVersion_place (n v u num tenant : Nat) (cents : List Code) (place : List Nat) (std : BitVec 16)
    (s : State) (k : Nat) : ∃ p, (s.buildVersion n v u num tenant cents place std).version k =
      { (s.buildVersion n v u num tenant cents [] std).version k with place := p } := by
  by_cases h : k = verKey n v
  · rw [h, State.version_buildVersion_self, State.version_buildVersion_self]
    exact ⟨place, rfl⟩
  · rw [State.version_buildVersion_ne h, State.version_buildVersion_ne h]
    exact ⟨(s.version k).place, rfl⟩

theorem State.regs_buildVersion (n v u num tenant : Nat) (cents : List Code) (place : List Nat) (std : BitVec 16) (s : State) :
    (s.buildVersion n v u num tenant cents place std).regs = (s.buildVersion n v u num tenant cents [] std).regs := by
  rw [State.buildVersion_eq, State.buildVersion_eq]
  exact State.regs_nameVersion_congr (by rw [State.regs_setVersion, State.regs_setVersion]) ..

/-- The charge of a successor's forward map reads the version's owner, ranges and successor. -/
theorem State.regs_makeSuccessor_congr {s t : State} (hregs : t.regs = s.regs) {n v : Nat}
    (hver : ∃ p, t.version (verKey n v) = { s.version (verKey n v) with place := p }) (v' : Nat) (r : Bool) :
    (t.makeSuccessor n v v' r).regs = (s.makeSuccessor n v v' r).regs := by
  obtain ⟨p, hp⟩ := hver
  unfold State.makeSuccessor
  rw [hp]
  show (State.addCharge _ 0 _ t).regs = (State.addCharge _ 0 _ s).regs
  rw [State.addCharge, State.addCharge, State.used, State.used, State.fld_of_regs hregs]
  exact State.regs_setFld_congr hregs ..

theorem State.regs_built (c : Nat) (m : Cmd) (v : Nat) (place : List Nat) (t : State) :
    (t.built c m v place).regs = (t.built c m v []).regs := by
  unfold State.built
  extract_lets b n u u'
  have hregs : u.regs = u'.regs := State.regs_buildVersion ..
  split
  · exact State.regs_makeSuccessor_congr hregs (State.version_buildVersion_place ..) ..
  · exact hregs

def State.built_touch : Nat := State.buildVersion_touch ||| State.makeSuccessor_touch

theorem State.built_keeps (c : Nat) (m : Cmd) (v : Nat) (place : List Nat) (t : State) :
    Keeps State.built_touch t (t.built c m v place) := by
  unfold State.built
  have hbuild := State.buildVersion_keeps (gTarget m.bytes) v (gArg m.bytes / 2 ^ 14) (gVersion m.bytes) (t.ctxTenant c)
    (t.buildCents c m) place (t.buildStd m) t
  exact Keeps.ite (hbuild.widen (by decide +kernel) |>.after (State.makeSuccessor_keeps ..) (by decide +kernel))
    (hbuild.widen (by decide +kernel))

/-- Charges are compared in the registers of quotas and tiers, for the units that are in service. -/
theorem chargesFit_of_regs {s a b : State} (hregs : a.regs = b.regs) (hstart : a.start = b.start) (hpower : a.power = b.power) :
    chargesFit s a = chargesFit s b := by
  have hfld : ∀ f i j, a.fld f i j = b.fld f i j := State.fld_of_regs hregs
  have hused : a.used = b.used := funext₂ (hfld _)
  have hlimit : a.limit = b.limit := funext₂ (hfld _)
  have hup : a.dieUp = b.dieUp := by funext d; simp only [State.dieUp, State.isBad, hstart, hpower]
  have hcapacity : a.dieCapacity = b.dieCapacity := by
    funext d; simp only [State.dieCapacity, State.stackUp, State.isBad, hstart, hup]
  have hcap : a.tierCapacity = b.tierCapacity := by
    funext tier
    unfold State.tierCapacity State.diesUp State.isOn
    simp only [hup, hcapacity, hfld]
  unfold chargesFit refusedIn State.tierUsed
  rw [hused, hlimit, hcap]

theorem State.chargesFit_built (c : Nat) (m : Cmd) (v : Nat) (place : List Nat) (t : State) :
    chargesFit t (t.built c m v place) = t.buildCharged c m v := by
  have hplaced := State.built_keeps c m v place t
  have hbare := State.built_keeps c m v [] t
  exact chargesFit_of_regs (State.regs_built ..)
    ((hplaced.parts .start (by decide +kernel)).trans (hbare.parts .start (by decide +kernel)).symm)
    ((hplaced.parts .power (by decide +kernel)).trans (hbare.parts .power (by decide +kernel)).symm)

/-! What a build leaves in its slot (R409). -/

/-- The version `y` has of a build what `x` has: all but its place, its charge and its successor. -/
structure Version.SameBuild (x y : Version) : Prop where
  holds : y.holds = x.holds
  owner : y.owner = x.owner
  cents : y.cents = x.cents
  stdMask : y.stdMask = x.stdMask
  lists : y.lists = x.lists
  ordLo : y.ordLo = x.ordLo
  ordHi : y.ordHi = x.ordHi

theorem Version.SameBuild.refl (x : Version) : x.SameBuild x := ⟨rfl, rfl, rfl, rfl, rfl, rfl, rfl⟩

/-- Making a successor changes in a version only its successor and forward map, and the charge and places of that map. -/
theorem State.version_makeSuccessor (n v v' : Nat) (r : Bool) (s : State) (k : Nat) :
    (s.version k).SameBuild ((s.makeSuccessor n v v' r).version k) := by
  have hdraws : ∀ (x : State) (d : Nat), (x.draws d).version k = x.version k := fun _ _ => State.version_congr rfl k
  unfold State.makeSuccessor
  extract_lets x units at_
  rw [hdraws]
  rcases eq_or_ne k (verKey n v) with rfl | h
  · rw [State.version_setVersion_self]
    exact ⟨rfl, rfl, rfl, rfl, rfl, rfl, rfl⟩
  · rw [State.version_setVersion_ne _ h, (State.addCharge_keeps ..).version (by decide +kernel)]
    exact Version.SameBuild.refl _

theorem State.version_built (c : Nat) (m : Cmd) (v : Nat) (place : List Nat) (t : State) :
    (t.newVersion (gTarget m.bytes) (gArg m.bytes / 2 ^ 14) (t.ctxTenant c) (t.buildCents c m) place (t.buildStd m)).SameBuild
      ((t.built c m v place).version (verKey (gTarget m.bytes) v)) := by
  unfold State.built
  extract_lets b n u
  rw [← State.version_buildVersion_self (gTarget m.bytes) v (gArg m.bytes / 2 ^ 14) (gVersion m.bytes)]
  split
  · exact State.version_makeSuccessor ..
  · exact Version.SameBuild.refl _

theorem State.reg_built {r : RegName} (hr : State.makeSuccessor_touch.testBit (regBit r) = false) (c : Nat) (m : Cmd) (v : Nat)
    (place : List Nat) (t : State) (i j : Nat) :
    (t.built c m v place).reg r i j = (t.buildVersion (gTarget m.bytes) v (gArg m.bytes / 2 ^ 14) (gVersion m.bytes)
      (t.ctxTenant c) (t.buildCents c m) place (t.buildStd m)).reg r i j := by
  unfold State.built
  extract_lets b n u
  split
  · exact (State.makeSuccessor_keeps ..).regs r i j hr
  · rfl

theorem State.idxValid_nameVersion {v : Nat} (hv : v < 4) (n u num rec_ : Nat) (s : State) :
    (s.nameVersion n v u num rec_).idxValid n v = true := by
  unfold State.nameVersion
  have hlt : v < fHQ_IDX_CTL_VALID.hi + 1 - fHQ_IDX_CTL_VALID.lo := hv
  rw [State.idxValid, State.testBit_fld_setFld_setBit _ (by decide), if_pos rfl, decide_eq_true hlt, Bool.and_self]

theorem State.fld_version_nameVersion {num : Nat} (h : num < 2 ^ 16) (n v u rec_ : Nat) (s : State) :
    (s.nameVersion n v u num rec_).fld fHQ_IDX_VER_VERSION n v = num := by
  unfold State.nameVersion
  rw [State.fld_setFld_apart _ (by decide) (by decide), State.fld_setFld_apart _ (by decide) (by decide),
    State.fld_setFld_apart _ (by decide) (by decide), State.fld_setFld_self _ (by decide)]
  exact Nat.mod_eq_of_lt h

theorem indexBuild_builds (c : Nat) (s : State) (m : Cmd) (t : State) (v : Nat) (hadm : s.admission c 0x19 = some (m, t))
    (hdef : s.allDefined c = true) (hring : s.toRing c = true) (hslot : t.buildSlot? c m = some v)
    (hfit : t.buildCharged c m v = true) :
    Leads (.indexBuild c true) s fun u => u.ended c m 0 = true ∧ u.idxValid (gTarget m.bytes) v = true ∧
      u.fld fHQ_IDX_VER_VERSION (gTarget m.bytes) v = gVersion m.bytes ∧
      (u.version (verKey (gTarget m.bytes) v)).holds = true ∧
      (u.version (verKey (gTarget m.bytes) v)).owner = t.ctxTenant c ∧
      (u.version (verKey (gTarget m.bytes) v)).cents = t.buildCents c m ∧
      (u.version (verKey (gTarget m.bytes) v)).stdMask = t.buildStd m ∧
      (u.version (verKey (gTarget m.bytes) v)).lists = [] ∧
      (u.version (verKey (gTarget m.bytes) v)).ordLo = (dieRanges (gArg m.bytes / 2 ^ 14)).1 ∧
      (u.version (verKey (gTarget m.bytes) v)).ordHi = (dieRanges (gArg m.bytes / 2 ^ 14)).2 := by
  obtain ⟨hv, place, hbuilds⟩ := State.admitBuild_builds hslot
  obtain ⟨hstate, hended⟩ := State.orQuota_fits (k := State.admitBuild true c) (chk := fun m t => t.buildStatus m) hadm hdef
    hring hbuilds (State.built_keeps ..) (by decide +kernel) (by decide +kernel) ((State.chargesFit_built ..).trans hfit) 65536
  have hk := State.gFinish_keeps c m { info := v } (t.built c m v place)
  have hver := State.version_built c m v place t
  refine ⟨_, exec_indexBuild c true s, ?_⟩
  rw [hstate]
  refine ⟨hended, ?_, ?_, ?_⟩
  · rw [State.idxValid_congr (hk.regs _ _ _ (by decide +kernel)), State.idxValid_congr (State.reg_built (by decide +kernel) ..),
      State.buildVersion_eq]
    exact State.idxValid_nameVersion hv ..
  · rw [hk.fld (by decide +kernel), State.fld_congr (State.reg_built (by decide +kernel) ..), State.buildVersion_eq]
    exact State.fld_version_nameVersion (fieldAt_lt m.bytes 0x12 2) ..
  · rw [hk.version (by decide +kernel)]
    exact ⟨hver.holds, hver.owner, hver.cents, hver.stdMask, hver.lists, hver.ordLo, hver.ordHi⟩

/-! ### SCHEDULE_LOAD (R228) -/

theorem exec_scheduleLoad (c : Nat) (readOk : Bool) (s : State) :
    exec (.scheduleLoad c readOk) s =
      .next ((s.admitFront c [0x1B] (fun m t => t.scheduleStatus m) (State.admitSchedule readOk c)).admitBad c 65536) := by
  show execScheduleLoad c readOk s = _
  rfl

/-- The words of a schedule, as SCHEDULE_LOAD reads them. -/
def State.scheduleWords (t : State) (c : Nat) (m : Cmd) : List Nat :=
  (List.range (gCount m.bytes)).map fun i => leNat (t.rdN (t.ctxPort c) (gAddrA m.bytes + 4 * i) 4)

/-- The version's schedule replaced whole, to start at its first entry. -/
def State.setSchedule (c : Nat) (m : Cmd) (t : State) : State :=
  t.modVersion (t.namedVersion m).1 fun x =>
    { x with schedule := (t.scheduleWords c m).map fun w => (bits w 19 0, w.testBit 31), schedPos := 0 }

theorem State.admitSchedule_loads {t : State} {c : Nat} {m : Cmd} (hnamed : (t.namedVersion m).2 = 0)
    (hcount : gCount m.bytes ≤ 65536) (hwords : ((t.scheduleWords c m).all fun w =>
      bits w 30 20 == 0 && decide (bits w 19 0 < (t.version (t.namedVersion m).1).count)) = true) :
    t.admitSchedule true c m = (t.setSchedule c m).gFinish c m {} := by
  have hst : t.scheduleStatus m = 0 := by
    refine worst_eq_zero fun e he => ?_
    rcases List.mem_cons.mp he with rfl | he
    · exact decide_eq_false (not_not_intro hnamed)
    · rw [List.mem_singleton.mp he]
      exact decide_eq_false (Nat.not_lt.mpr hcount)
  unfold State.admitSchedule
  rw [if_neg (not_not_intro hst)]
  exact if_pos hwords

theorem scheduleLoad_loads (c : Nat) (s : State) (m : Cmd) (t : State) (hadm : s.admission c 0x1B = some (m, t))
    (hdef : s.allDefined c = true) (hring : s.toRing c = true) (hnamed : (t.namedVersion m).2 = 0)
    (hcount : gCount m.bytes ≤ 65536) (hwords : ((t.scheduleWords c m).all fun w =>
      bits w 30 20 == 0 && decide (bits w 19 0 < (t.version (t.namedVersion m).1).count)) = true) :
    Leads (.scheduleLoad c true) s fun u => u.ended c m 0 = true ∧
      u.version (t.namedVersion m).1 = { t.version (t.namedVersion m).1 with
        schedPos := 0, schedule := (t.scheduleWords c m).map fun w => (bits w 19 0, w.testBit 31) } := by
  have had := (State.admitFront_of_admission hadm (fun m t => t.scheduleStatus m) (State.admitSchedule true c)).1
  have hset : Keeps State.modVersion_touch t (t.setSchedule c m) := State.modVersion_keeps ..
  have hend : CmdEnded c m {} ((t.setSchedule c m).gSignal m) ((t.setSchedule c m).gFinish c m {}) :=
    State.gFinish_ended ((hset.cmd? (by decide +kernel) c m.seq).trans had.cmd)
      ((hset.toRing (by decide +kernel) (by decide +kernel) c).trans (had.toRing.trans hring)) {}
  have hhq : ((t.setSchedule c m).gSignal m).hq = t.hq :=
    ((State.gSignal_keeps ..).parts .hq (by decide +kernel)).trans (hset.parts .hq (by decide +kernel))
  refine ⟨_, exec_scheduleLoad c true s, ?_⟩
  rw [State.admitFront_ended (k := State.admitSchedule true c) hadm hdef (State.admitSchedule_loads hnamed hcount hwords) hend hhq]
  refine ⟨hend.ended, ?_⟩
  show ((t.setSchedule c m).gFinish c m {}).version (t.namedVersion m).1 = _
  rw [(State.gFinish_keeps ..).version (by decide +kernel), State.setSchedule, State.modVersion, State.version_setVersion_self]

/-- Settles O30: a definition is charged whole or refused, a build fills the slot it takes whatever its placement, and a load
replaces the schedule. -/
theorem versionsAreBuilt : Obligations.VersionsAreBuilt := by
  unfold Obligations.VersionsAreBuilt
  refine ⟨defineBitmap_defines, indexBuild_builds, fun c s m t hadm hdef hring hnamed hcount hwords => ?_⟩
  obtain ⟨u, hexec, hended, hver⟩ := scheduleLoad_loads c s m t hadm hdef hring hnamed hcount hwords
  refine ⟨u, hexec, hended, hver.trans ?_⟩
  rw [State.scheduleWords, List.map_map]
  rfl

end Sys2Proof.Machine
end

section
/-! BLOCK_SCAN and LANE_REDUCTION: what a block adds to the rows of a task's lanes, and what a reduction leaves of one (R33,
R54, R56, R59, R62, R83). -/

namespace Sys2Proof.Machine

/-! ### Tasks by their number -/

theorem State.id_of_task? {s : State} {id : Nat} {t : Task} (h : s.task? id = some t) : t.id = id :=
  beq_iff_eq.mp (List.find?_some (p := fun y : Task => y.id == id) h)

theorem State.task?_congr {s t : State} (h : t.qry.tasks = s.qry.tasks) (id : Nat) : t.task? id = s.task? id := by
  rw [State.task?, State.task?, h]

theorem State.task?_setTask {s : State} {id : Nat} (h : (s.task? id).isSome = true) {t : Task} (ht : t.id = id) :
    (s.setTask t).task? id = some t := by
  obtain ⟨x, hx⟩ := Option.isSome_iff_exists.mp h
  have hsame : ((fun y : Task => y.id == id) ∘ fun y : Task => if y.id = t.id then t else y) = fun y => y.id == id := by
    funext y
    simp only [Function.comp_apply, ht]
    split <;> simp_all
  show List.find? _ (s.qry.tasks.map _) = _
  rw [List.find?_map, hsame, ← State.task?, hx, Option.map_some, if_pos ((State.id_of_task? hx).trans ht.symm)]

theorem State.tasks_modQuery (q : Nat) (f : Query → Query) (s : State) : (s.modQuery q f).qry.tasks = s.qry.tasks := by
  unfold State.modQuery
  split <;> rfl

theorem Keeps.tasks {m : Nat} {s t : State} (h : Keeps m s t) (hm : m.testBit (Part.bit .qry) = false) :
    t.qry.tasks = s.qry.tasks := congrArg Queries.tasks (h.parts .qry hm)

/-! ### Lanes whose rows grow -/

/-- From `y` to `z` the lanes of a task have kept their queries and their τ, and the row of each has grown by `new`; the walker
stands at the same block. -/
structure Task.Grown (new : Lane → List Elem) (y z : Task) : Prop where
  nextSeq : z.nextSeq = y.nextSeq
  blockCount : z.blockCount = y.blockCount
  band : z.band = y.band
  st : z.st = y.st
  lanes : ∃ g : Lane → Lane, z.lanes = y.lanes.map g ∧
    ∀ l, (g l).q = l.q ∧ (g l).tau = l.tau ∧ (g l).row = l.row ++ new l

/-- No row has grown. -/
abbrev Task.Kept (y z : Task) : Prop := Task.Grown (fun _ => []) y z

theorem Task.Kept.refl (y : Task) : Task.Kept y y :=
  ⟨rfl, rfl, rfl, rfl, fun l => l, (List.map_id' _).symm, fun _ => ⟨rfl, rfl, (List.append_nil _).symm⟩⟩

theorem Task.Grown.trans {new : Lane → List Elem} {x y z : Task} (h : Task.Grown new x y) (k : Task.Kept y z) :
    Task.Grown new x z := by
  obtain ⟨g, hg, hrow⟩ := h.lanes
  obtain ⟨g', hg', hrow'⟩ := k.lanes
  refine ⟨k.nextSeq.trans h.nextSeq, k.blockCount.trans h.blockCount, k.band.trans h.band, k.st.trans h.st,
    g' ∘ g, ?_, fun l => ?_⟩
  · rw [hg', hg, List.map_map]
  · obtain ⟨hq, htau, hgrow⟩ := hrow l
    obtain ⟨hq', htau', hgrow'⟩ := hrow' (g l)
    exact ⟨hq'.trans hq, htau'.trans htau, by rw [Function.comp_apply, hgrow', hgrow, List.append_nil]⟩

/-- Lanes queued for reduction keep their rows. -/
theorem queued_keeps_row (p : Lane → Bool) (now : Nat) (l : Lane) :
    (if p l then { l with queued := true, queuedAt := now } else l).q = l.q ∧
      (if p l then { l with queued := true, queuedAt := now } else l).tau = l.tau ∧
      (if p l then { l with queued := true, queuedAt := now } else l).row = l.row ++ [] := by
  rw [List.append_nil]
  split <;> exact ⟨rfl, rfl, rfl⟩

theorem State.task?_queueReductions {s : State} {id : Nat} {y : Task} (h : s.task? id = some y) :
    ∃ z, (s.queueReductions id).task? id = some z ∧ Task.Kept y z := by
  unfold State.queueReductions
  split
  next hnone => rw [h] at hnone; cases hnone
  next y' hy' =>
  obtain rfl := Option.some.inj (h.symm.trans hy')
  extract_lets due ix w u
  have hu : (u.task? id).isSome = true := by rw [State.task?_congr (s := s) (t := u) rfl, h]; rfl
  refine ⟨_, State.task?_setTask hu (State.id_of_task? (t := y) h), rfl, rfl, rfl, rfl, _, rfl, fun l => ?_⟩
  exact queued_keeps_row (fun l => l.active && !l.queued && decide (s.laneKs l < l.row.length)) s.now l

/-- A task that drains has its lanes queued, and stands where it stood. -/
theorem State.task?_drainTask {s : State} {id : Nat} {t : Task} (h : (s.task? id).isSome = true) (hid : t.id = id) :
    ∃ z, (s.drainTask t).task? id = some z ∧ z.st = .draining ∧ Task.Kept { t with st := .draining } z := by
  unfold State.drainTask
  extract_lets ix lanes u w v
  have htasks : (v.noteBand t.band).qry.tasks = u.qry.tasks := (State.noteBand_keeps t.band v).tasks (by decide +kernel)
  refine ⟨_, (State.task?_congr htasks _).trans (State.task?_setTask h hid), rfl, rfl, rfl, rfl, rfl, _, rfl, fun l => ?_⟩
  exact queued_keeps_row (fun l => l.active && !l.queued) s.now l

/-! ### The walker goes on (R59) -/

/-- The walker's next state: it drains after its last block. -/
def Task.walked (y : Task) : WState := if y.blockCount ≤ y.nextSeq + 1 then .draining else .running

/-- The walker of a running task goes on to its next block, or the task drains after the last; no row grows by it. -/
theorem State.task?_advance {s : State} {id : Nat} {y : Task} (h : s.task? id = some y) (hrun : y.st = .running) :
    ∃ z, (s.advance id).task? id = some z ∧ Task.Kept { y with nextSeq := y.nextSeq + 1, st := y.walked } z := by
  have hid := State.id_of_task? h
  have hsome : (s.task? id).isSome = true := by rw [h]; rfl
  unfold State.advance
  split
  next hnone => rw [h] at hnone; cases hnone
  next y₀ hy₀ =>
  obtain rfl := Option.some.inj (h.symm.trans hy₀)
  extract_lets y'
  by_cases hlast : y.blockCount ≤ y.nextSeq + 1
  · rw [if_pos hlast, show y.walked = .draining from if_pos hlast]
    obtain ⟨z, hz, -, hkept⟩ := State.task?_drainTask (t := y') hsome hid
    exact ⟨z, hz, hkept⟩
  · rw [if_neg hlast, show y.walked = y.st from (if_neg hlast).trans hrun.symm]
    exact ⟨y', State.task?_setTask hsome hid, Task.Kept.refl y'⟩

/-! ### The slots that a block adds (R56, R59) -/

/-- An element that a slot of a block may add to the row of a lane: the slot is filled, holds no tombstone and lies within τ. -/
def State.Emittable (s : State) (y : Task) (b : Block) (l : Lane) (e : Elem) : Prop :=
  ∃ j, j < b.fill ∧ (s.version (keyVer y.key)).tomb.contains (b.ordBase + j) = false ∧
    hamming (s.codeBits y.key.index) (s.laneCode l) (b.codes.getD 0 j) ≤ l.tau ∧
    e.score = BitVec.ofNat 32 (s.codeBits y.key.index - hamming (s.codeBits y.key.index) (s.laneCode l) (b.codes.getD 0 j))

theorem State.tomb_of_allowed {s : State} {x : Version} {b : Block} {c : BitVec 64 × Nat} {j : Nat}
    (h : j ∈ s.allowedSlots x b c) : x.tomb.contains (b.ordBase + j) = false := by
  have hp := (List.mem_filter.mp h).2
  simp only [Bool.and_eq_true, Bool.not_eq_true'] at hp
  exact hp.1

/-- A slot that a pass allows a lane is allowed by the class of the lane. -/
theorem Pass.mem_allow_of_may {p : Pass} {l : Lane} {j : Nat} (h : p.may l j = true) : ∃ a ∈ p.allow, j ∈ a := by
  simp only [Pass.may, Bool.and_eq_true, List.contains_iff_mem] at h
  obtain ⟨-, hj⟩ := h
  rw [List.getD_eq_getElem?_getD] at hj
  cases ha : p.allow[l.cls]? with
  | none => rw [ha] at hj; exact absurd hj List.not_mem_nil
  | some a => rw [ha] at hj; exact ⟨a, List.mem_of_getElem? ha, hj⟩

theorem Pass.mem_emits {p : Pass} {e : Lane × Code} {j : Nat} (h : j ∈ p.emits e) :
    j < p.block.fill ∧ (∃ a ∈ p.allow, j ∈ a) ∧ hamming p.bits e.2 (p.block.codes.getD 0 j) ≤ e.1.tau := by
  obtain ⟨hfill, hj⟩ := List.mem_filter.mp h
  rw [Bool.and_eq_true, decide_eq_true_eq] at hj
  exact ⟨List.mem_range.mp hfill, Pass.mem_allow_of_may hj.1, hj.2⟩

/-- A scan of a block adds to each row only elements that the block may add. -/
theorem State.task?_scanBlock {s : State} {t : Task} (h : (s.task? t.id).isSome = true) (b : Block) (idBad : List Nat) :
    ∃ z new, (s.scanBlock t (s.version (keyVer t.key)) b idBad).task? t.id = some z ∧ Task.Grown new t z ∧
      ∀ l, ∀ e ∈ new l, s.Emittable t b l e := by
  unfold State.scanBlock
  extract_lets bits lanes p isAl lost scan idReads none_ cyc u w bad v
  have hu : u.qry.tasks = s.qry.tasks := by
    have hk : Keeps (touchSet [] [.BD_SKIP_WORD, .BD_THR_CYC] ||| State.countPass_touch) s u :=
      Keeps.ite (Keeps.bump Keeps.rfl (by decide +kernel))
        ((State.countPass_keeps ..).widen (by decide +kernel) |>.after (State.countDisabled_keeps ..) (by decide +kernel))
    exact hk.tasks (by decide +kernel)
  have hw : w.qry.tasks = s.qry.tasks := by
    refine forEach_keeps (P := fun x => x.qry.tasks = s.qry.tasks) (fun e x hx => ?_) _ hu
    dsimp only
    split
    · exact hx
    · exact (State.tasks_modQuery ..).trans hx
  have hv : v.qry.tasks = s.qry.tasks :=
    forEach_keeps (P := fun x => x.qry.tasks = s.qry.tasks)
      (fun _ x hx => ((State.dramUncorrFree_keeps ..).tasks (by decide +kernel)).trans hx) _ hw
  have hset : (v.setTask { t with lanes := lanes.map scan, ran := t.ran + cyc }).task? t.id =
      some { t with lanes := lanes.map scan, ran := t.ran + cyc } :=
    State.task?_setTask (by rw [State.task?_congr hv]; exact h) rfl
  obtain ⟨z, hz, hkept⟩ := State.task?_queueReductions hset
  have hgrown : Task.Grown (fun l => ((p.emits (l, s.laneCode l)).filter fun j => !lost j).map
      (candidate (s.version (keyVer t.key)) bits b (l, s.laneCode l))) t { t with lanes := lanes.map scan, ran := t.ran + cyc } :=
    ⟨rfl, rfl, rfl, rfl, fun l => scan (l, s.laneCode l), List.map_map, fun _ => ⟨rfl, rfl, rfl⟩⟩
  refine ⟨z, _, hz, hgrown.trans hkept, fun l e he => ?_⟩
  obtain ⟨j, hj, rfl⟩ := List.mem_map.mp he
  obtain ⟨hfill, ⟨a, ha, hja⟩, hdist⟩ := Pass.mem_emits (List.mem_filter.mp hj).1
  obtain ⟨c, -, rfl⟩ := List.mem_map.mp ha
  exact ⟨j, hfill, State.tomb_of_allowed hja, hdist, rfl⟩

/-- What a block may add is a matter of the codes, of the index version and of the code length. -/
theorem Keeps.emittable {m : Nat} {s t : State} (h : Keeps m s t) (hqry : m.testBit (Part.bit .qry) = false)
    (hidx : m.testBit (Part.bit .idx) = false) (hreg : m.testBit (regBit .HQ_IDX_CTL) = false) {y : Task} {b : Block}
    {l : Lane} {e : Elem} (he : t.Emittable y b l e) : s.Emittable y b l e := by
  have hcode : t.laneCode l = s.laneCode l := by rw [State.laneCode, State.laneCode, State.query, State.query, h.parts .qry hqry]
  have hbits : t.codeBits y.key.index = s.codeBits y.key.index := by
    rw [State.codeBits, State.codeBits, h.fld (f := fHQ_IDX_CTL_CODE_LEN) hreg]
  obtain ⟨j, hfill, htomb, hdist, hscore⟩ := he
  rw [h.version hidx] at htomb
  rw [hcode, hbits] at hdist hscore
  exact ⟨j, hfill, htomb, hdist, hscore⟩

/-! ### One block of a task's list (R59 to R62) -/

theorem State.reg_bump_self (r : RegName) (i j n : Nat) (s : State) :
    (s.bump r i j n).reg r i j = s.reg r i j + BitVec.ofNat 64 n := State.reg_setReg_self ..

/-- Step 3 of R59 changes of the task its decode positions only. -/
theorem State.readWords_fst (t : Task) (b : Block) (s : State) :
    ∃ d, (s.readWords t b).1 = { t with decode := d } := by
  unfold State.readWords
  extract_lets maps u
  refine List.foldlRecOn (motive := fun p : Task × State => ∃ d, p.1 = { t with decode := d }) _ _ ⟨t.decode, rfl⟩
    fun p hp i _ => ?_
  obtain ⟨d, hd⟩ := hp
  dsimp only
  split
  · split
    · exact ⟨_, by rw [hd]⟩
    · exact ⟨d, hd⟩
  · exact ⟨d, hd⟩

/-- A skipped block changes no task, and counts BD_SKIP_ERROR (R62). -/
theorem State.tasks_skipBlock (t : Task) (n : Nat) (s : State) : (s.skipBlock t n).qry.tasks = s.qry.tasks :=
  forEach_keeps (P := fun x => x.qry.tasks = s.qry.tasks) (fun l x hx => (State.tasks_modQuery l.q _ x).trans hx) _
    (congrArg Queries.tasks (State.qry_bump ..))

theorem State.skipError_skipBlock (t : Task) (n : Nat) (s : State) :
    (s.skipBlock t n).reg .BD_SKIP_ERROR t.band 0 = s.reg .BD_SKIP_ERROR t.band 0 + 1 := by
  unfold State.skipBlock
  refine forEach_keeps (P := fun x => x.reg .BD_SKIP_ERROR t.band 0 = s.reg .BD_SKIP_ERROR t.band 0 + 1)
    (fun l x hx => ?_) _ (State.reg_bump_self ..)
  exact ((State.modQuery_keeps l.q _ x).regs _ _ _ (by decide +kernel)).trans hx

/-- The walker's descriptor read of a block, counted. -/
def State.blockRead (y : Task) (s : State) : State := (s.bump .BD_BLOCKS y.band 0 1).countScanRead y.band y.key.pn 32

def State.blockRead_touch : Nat := touchSet [] [.BD_BLOCKS] ||| State.countScanRead_touch

theorem State.blockRead_keeps (y : Task) (s : State) : Keeps State.blockRead_touch s (s.blockRead y) :=
  (Keeps.bump Keeps.rfl (by decide +kernel)).after (State.countScanRead_keeps ..) (by decide +kernel)

theorem State.blocks_blockRead (y : Task) (s : State) :
    (s.blockRead y).reg .BD_BLOCKS y.band 0 = s.reg .BD_BLOCKS y.band 0 + 1 :=
  ((State.countScanRead_keeps ..).regs _ _ _ (by decide +kernel)).trans (State.reg_bump_self ..)

/-- What a block is done with once its descriptor is read, before the walker goes on: an error skips it (R62), its summary word
may (R59), or it is scanned. -/
def State.scanned (y : Task) (b : Block) (err : ScanErr) (s : State) : State :=
  let x := s.version (keyVer y.key)
  let n := if err.hdrBad then 256 else x.liveIn b
  match err.dram with
  | some (stack, addr) => (s.dramUncorrAt 2 y.band stack addr 1 fun e => e).skipBlock y n
  | none =>
    if err.hdrBad then
      (s.log (mkErr 0x0102 2 y.band y.die ((x.list y.key.cluster).hdrAddr + 32 * b.seq) 0 0)).skipBlock y n
    else if s.isOn fBD_CTL_SUMMARY_SKIP_EN y.band 0 && y.classes.all fun c => !summaryPass c.1 b.stdSummary then
      s.bump .BD_SKIP_SUMMARY y.band 0 1
    else (s.readWords y b).2.scanBlock (s.readWords y b).1 x b err.idMap

theorem exec_blockScan {k : Nat} {s : State} {y : Task} {b : Block} (err : ScanErr) (hy : s.task? k = some y)
    (hb : ((s.version (keyVer y.key)).list y.key.cluster).blocks.find? (·.seq == y.nextSeq) = some b) (hrun : y.st = .running)
    (hleave : s.bandLeaving y.band = false) (hreset : s.bandReset y.band = false) (hroom : s.rowsRoom y = true) :
    exec (.blockScan k err) s = .next (((s.blockRead y).scanned y b err).advance k) := by
  have hver := (State.blockRead_keeps y s).version (by decide +kernel) (keyVer y.key)
  show execBlockScan k err s = _
  unfold execBlockScan State.scanned
  rw [hver, hy]
  dsimp only
  rw [hb]
  dsimp only
  rw [if_neg (by rw [hrun, hleave, hreset, hroom]; decide), ← State.blockRead]
  cases err.dram with
  | some e => rfl
  | none =>
    dsimp only
    split
    · rfl
    · split <;> rfl

/-- From `s` to `t` a block of task `k` has been done: it is counted, an error counted and nothing added, and each row has grown
by slots that the block may add. -/
structure State.BlockDone (s : State) (k : Nat) (y : Task) (b : Block) (bad : Prop) (t : State) : Prop where
  blocks : t.reg .BD_BLOCKS y.band 0 = s.reg .BD_BLOCKS y.band 0
  skipped : bad → t.reg .BD_SKIP_ERROR y.band 0 = s.reg .BD_SKIP_ERROR y.band 0 + 1
  rows : ∃ z new, t.task? k = some z ∧ Task.Grown new y z ∧ (bad → ∀ l, new l = []) ∧
    ∀ l, ∀ e ∈ new l, s.Emittable y b l e

/-- A block that is skipped after an error is done. -/
theorem State.blockDone_of_skip {s t : State} {k : Nat} {y : Task} (b : Block) {bad : Prop} (n : Nat) (hy : s.task? k = some y)
    (h : Keeps State.dramUncorrAt_touch s t) : s.BlockDone k y b bad (t.skipBlock y n) where
  blocks := ((State.skipBlock_keeps y n t).regs _ _ _ (by decide +kernel)).trans (h.regs _ _ _ (by decide +kernel))
  skipped _ := (State.skipError_skipBlock y n t).trans (congrArg (· + 1) (h.regs _ _ _ (by decide +kernel)))
  rows := ⟨y, fun _ => [], (State.task?_congr ((State.tasks_skipBlock y n t).trans (h.tasks (by decide +kernel))) k).trans hy,
    Task.Kept.refl y, fun _ _ => rfl, fun _ _ he => absurd he List.not_mem_nil⟩

/-- A block that is scanned is done. -/
theorem State.blockDone_of_scan {s : State} {k : Nat} {y : Task} (b : Block) (idBad : List Nat) {bad : Prop} (hgood : ¬ bad)
    (hy : s.task? k = some y) : s.BlockDone k y b bad
      ((s.readWords y b).2.scanBlock (s.readWords y b).1 (s.version (keyVer y.key)) b idBad) := by
  obtain ⟨d, hd⟩ := State.readWords_fst y b s
  have hread : Keeps State.readWords_touch s (s.readWords y b).2 := State.readWords_keeps y b s
  have htask : ((s.readWords y b).2.task? k) = some y :=
    (State.task?_congr (hread.tasks (by decide +kernel)) k).trans hy
  generalize (s.readWords y b).2 = u at hread htask
  rw [hd, ← hread.version (by decide +kernel)]
  have hid := State.id_of_task? hy
  obtain ⟨z, new, hz, hgrown, hnew⟩ := State.task?_scanBlock (s := u) (t := { y with decode := d })
    (by dsimp only; rw [hid, htask]; rfl) b idBad
  refine ⟨?_, fun hbad => absurd hbad hgood, z, new, hid ▸ hz, ?_, fun hbad => absurd hbad hgood, fun l e he => ?_⟩
  · exact ((State.scanBlock_keeps ..).regs _ _ _ (by decide +kernel)).trans (hread.regs _ _ _ (by decide +kernel))
  · exact ⟨hgrown.nextSeq, hgrown.blockCount, hgrown.band, hgrown.st, hgrown.lanes⟩
  · exact hread.emittable (by decide +kernel) (by decide +kernel) (by decide +kernel) (hnew l e he)

/-- A block whose summary word skips it is done. -/
theorem State.blockDone_of_summary {s : State} {k : Nat} {y : Task} (b : Block) {bad : Prop} (hgood : ¬ bad)
    (hy : s.task? k = some y) : s.BlockDone k y b bad (s.bump .BD_SKIP_SUMMARY y.band 0 1) where
  blocks := State.reg_setReg_other s (by decide) ..
  skipped hbad := absurd hbad hgood
  rows := ⟨y, fun _ => [], (State.task?_congr (congrArg Queries.tasks (State.qry_bump ..)) k).trans hy, Task.Kept.refl y,
    fun _ _ => rfl, fun _ _ he => absurd he List.not_mem_nil⟩

theorem State.blockDone_scanned {s : State} {k : Nat} {y : Task} (b : Block) (err : ScanErr) (hy : s.task? k = some y) :
    s.BlockDone k y b (err.dram.isSome = true ∨ err.hdrBad = true) (s.scanned y b err) := by
  unfold State.scanned
  extract_lets x n
  cases hdram : err.dram with
  | some e => exact State.blockDone_of_skip b n hy (State.dramUncorrAt_keeps ..)
  | none =>
    dsimp only
    by_cases hhdr : err.hdrBad = true
    · rw [if_pos hhdr]
      exact State.blockDone_of_skip b n hy ((State.log_keeps ..).widen (by decide +kernel))
    · rw [if_neg hhdr]
      have hgood : ¬ ((none : Option (Nat × Nat)).isSome = true ∨ err.hdrBad = true) := fun h => h.elim nofun hhdr
      by_cases hsum : (s.isOn fBD_CTL_SUMMARY_SKIP_EN y.band 0 && y.classes.all fun c => !summaryPass c.1 b.stdSummary) = true
      · rw [if_pos hsum]
        exact State.blockDone_of_summary b hgood hy
      · rw [if_neg hsum]
        exact State.blockDone_of_scan b err.idMap hgood hy

theorem State.BlockDone.advance_rows {s t : State} {k : Nat} {y : Task} {b : Block} {bad : Prop} (h : s.BlockDone k y b bad t)
    (hrun : y.st = .running) : ∃ z new, (t.advance k).task? k = some z ∧
      Task.Grown new { y with nextSeq := y.nextSeq + 1, st := y.walked } z ∧ (bad → ∀ l, new l = []) ∧
      ∀ l, ∀ e ∈ new l, s.Emittable y b l e := by
  obtain ⟨w, new, hw, hgrown, hbad, hnew⟩ := h.rows
  obtain ⟨z, hz, hkept⟩ := State.task?_advance hw (hgrown.st.trans hrun)
  have hwalk : w.walked = y.walked := by rw [Task.walked, Task.walked, hgrown.nextSeq, hgrown.blockCount]
  have hstep : Task.Grown new { y with nextSeq := y.nextSeq + 1, st := y.walked }
      { w with nextSeq := w.nextSeq + 1, st := w.walked } :=
    ⟨congrArg (· + 1) hgrown.nextSeq, hgrown.blockCount, hgrown.band, hwalk, hgrown.lanes⟩
  exact ⟨z, new, hz, hstep.trans hkept, hbad, hnew⟩

/-- A lane of a task whose rows have grown. -/
theorem Task.Grown.lane {new : Lane → List Elem} {y z : Task} (h : Task.Grown new y z) {i : Nat} {l : Lane}
    (hl : y.lanes[i]? = some l) :
    ∃ l', z.lanes[i]? = some l' ∧ l'.q = l.q ∧ l'.tau = l.tau ∧ l'.row = l.row ++ new l := by
  obtain ⟨g, hg, hrow⟩ := h.lanes
  exact ⟨g l, by rw [hg, List.getElem?_map, hl, Option.map_some], hrow l⟩

theorem Task.Grown.length_lanes {new : Lane → List Elem} {y z : Task} (h : Task.Grown new y z) :
    z.lanes.length = y.lanes.length := by
  obtain ⟨g, hg, -⟩ := h.lanes
  rw [hg, List.length_map]

/-- BLOCK_SCAN of a block of a running task whose rows have room. -/
theorem leads_blockScan {k : Nat} {s : State} {y : Task} {b : Block} (err : ScanErr) (hy : s.task? k = some y)
    (hb : ((s.version (keyVer y.key)).list y.key.cluster).blocks.find? (·.seq == y.nextSeq) = some b) (hrun : y.st = .running)
    (hleave : s.bandLeaving y.band = false) (hreset : s.bandReset y.band = false) (hroom : s.rowsRoom y = true) :
    Leads (.blockScan k err) s fun t => t.reg .BD_BLOCKS y.band 0 = s.reg .BD_BLOCKS y.band 0 + 1 ∧
      (∃ z new, t.task? k = some z ∧ Task.Grown new { y with nextSeq := y.nextSeq + 1, st := y.walked } z ∧
        (err.dram.isSome = true ∨ err.hdrBad = true → ∀ l, new l = []) ∧ ∀ l, ∀ e ∈ new l, s.Emittable y b l e) ∧
      (err.dram.isSome = true ∨ err.hdrBad = true →
        t.reg .BD_SKIP_ERROR y.band 0 = s.reg .BD_SKIP_ERROR y.band 0 + 1) := by
  have hread := State.blockRead_keeps y s
  have hdone := State.blockDone_scanned b err ((State.task?_congr (hread.tasks (by decide +kernel)) k).trans hy)
  have hadv := State.advance_keeps k ((s.blockRead y).scanned y b err)
  refine ⟨_, exec_blockScan err hy hb hrun hleave hreset hroom, ?_, ?_, fun hbad => ?_⟩
  · rw [hadv.regs _ _ _ (by decide +kernel), hdone.blocks, State.blocks_blockRead]
  · obtain ⟨z, new, hz, hgrown, hbad, hnew⟩ := hdone.advance_rows hrun
    exact ⟨z, new, hz, hgrown, hbad, fun l e he =>
      hread.emittable (by decide +kernel) (by decide +kernel) (by decide +kernel) (hnew l e he)⟩
  · rw [hadv.regs _ _ _ (by decide +kernel), hdone.skipped hbad, hread.regs _ _ _ (by decide +kernel)]

/-! ### Reductions (R54, R83) -/

/-- A reduction never raises τ (R54). -/
theorem newTau_le (bits ks tau : Nat) (kept : List Elem) : newTau bits ks tau kept ≤ tau := by
  unfold newTau
  split
  · exact Nat.min_le_left ..
  · exact Nat.le_refl _

/-- The state in which a band's oldest queued lane is taken from its queue. -/
def State.redTaken (band : Nat) (rest : List (Nat × Nat)) (s : State) : State :=
  { s with qry := { s.qry with redQ := s.qry.redQ.put band rest } }

theorem State.redTaken_keeps (band : Nat) (rest : List (Nat × Nat)) (s : State) :
    Keeps (touchSet [.qry] []) s (s.redTaken band rest) := Keeps.qry Keeps.rfl (by decide +kernel)

theorem exec_laneReduction {band id i : Nat} {s : State} {rest : List (Nat × Nat)} {y : Task}
    (hq : s.qry.redQ.getD [] band = (id, i) :: rest) (hy : s.task? id = some y) :
    exec (.laneReduction band) s = .next ((s.redTaken band rest).reduceLane y i) := by
  show execLaneReduction band s = _
  unfold execLaneReduction
  rw [hq]
  dsimp only
  rw [← State.redTaken, State.task?_congr (s := s) (t := s.redTaken band rest) rfl, hy]

/-- A lane after its reduction (R54, R83). -/
def State.reduced (s : State) (y : Task) (l : Lane) : Lane :=
  let sel := select .hamming (·.canon) (s.laneKs l) l.row
  { l with row := sel.kept, tau := newTau (s.codeBits y.key.index) (s.laneKs l) l.tau sel.kept, queued := false }

/-- The counters of a reduction. -/
def State.reduceCounted (y : Task) (l : Lane) (s : State) : State :=
  let sel := select .hamming (·.canon) (s.laneKs l) l.row
  let s := (s.bump .BD_REDUCE y.band 0 1).bump .SE_REDUCE_ELEMS y.band 0 l.row.length
  let s := (s.bump .SE_DUP_DROPPED y.band 0 sel.dropped).bump .SE_REFILL_PASSES y.band 0 sel.work.refills
  s.bump .SE_REDUCE_QWAIT_CYC y.band 0 (if l.queued then (s.now - l.queuedAt) * 4 / 5 else 0)

theorem State.reduceLane_eq {y : Task} {i : Nat} {l : Lane} (hl : y.lanes[i]? = some l) (s : State) :
    s.reduceLane y i = (s.reduceCounted y l).setTask { y with lanes := y.lanes.set i (s.reduced y l) } := by
  unfold State.reduceLane
  rw [hl]
  rfl

theorem State.reduceCounted_keeps (y : Task) (l : Lane) (s : State) :
    Keeps (touchSet [] [.BD_REDUCE, .SE_DUP_DROPPED, .SE_REDUCE_ELEMS, .SE_REDUCE_QWAIT_CYC, .SE_REFILL_PASSES]) s
      (s.reduceCounted y l) := by
  unfold State.reduceCounted
  extract_lets sel u v
  exact Keeps.bump (Keeps.bump (Keeps.bump (Keeps.bump (Keeps.bump Keeps.rfl (by decide +kernel)) (by decide +kernel))
    (by decide +kernel)) (by decide +kernel)) (by decide +kernel)

theorem State.reduces_reduceCounted (y : Task) (l : Lane) (s : State) :
    (s.reduceCounted y l).reg .BD_REDUCE y.band 0 = s.reg .BD_REDUCE y.band 0 + 1 := by
  unfold State.reduceCounted
  extract_lets sel u v
  have hlast : Keeps (touchSet [] [.SE_DUP_DROPPED, .SE_REDUCE_ELEMS, .SE_REDUCE_QWAIT_CYC, .SE_REFILL_PASSES])
      (s.bump .BD_REDUCE y.band 0 1) (s.reduceCounted y l) :=
    Keeps.bump (Keeps.bump (Keeps.bump (Keeps.bump Keeps.rfl (by decide +kernel)) (by decide +kernel)) (by decide +kernel))
      (by decide +kernel)
  exact (hlast.regs _ _ _ (by decide +kernel)).trans (State.reg_bump_self ..)

theorem State.elems_reduceCounted (y : Task) (l : Lane) (s : State) :
    (s.reduceCounted y l).reg .SE_REDUCE_ELEMS y.band 0 =
      s.reg .SE_REDUCE_ELEMS y.band 0 + BitVec.ofNat 64 l.row.length := by
  have hlast : Keeps (touchSet [] [.SE_DUP_DROPPED, .SE_REDUCE_QWAIT_CYC, .SE_REFILL_PASSES])
      ((s.bump .BD_REDUCE y.band 0 1).bump .SE_REDUCE_ELEMS y.band 0 l.row.length) (s.reduceCounted y l) :=
    Keeps.bump (Keeps.bump (Keeps.bump Keeps.rfl (by decide +kernel)) (by decide +kernel)) (by decide +kernel)
  rw [hlast.regs _ _ _ (by decide +kernel), State.reg_bump_self, State.bump, State.reg_setReg_other _ (by decide)]

theorem Tbl.getD_put_self {α : Type} (t : Tbl α) (d : α) (k : Nat) (v : α) : (t.put k v).getD d k = v := by
  rw [Tbl.getD, Tbl.get?_put_self, Option.getD_some]

/-- LANE_REDUCTION of the oldest queued lane of a band. -/
theorem leads_laneReduction {band id i : Nat} {s : State} {rest : List (Nat × Nat)} {y : Task} {l : Lane}
    (hq : s.qry.redQ.getD [] band = (id, i) :: rest) (hy : s.task? id = some y) (hl : y.lanes[i]? = some l) :
    Leads (.laneReduction band) s fun t => t.qry.redQ.getD [] band = rest ∧
      t.reg .BD_REDUCE y.band 0 = s.reg .BD_REDUCE y.band 0 + 1 ∧
      t.reg .SE_REDUCE_ELEMS y.band 0 = s.reg .SE_REDUCE_ELEMS y.band 0 + BitVec.ofNat 64 l.row.length ∧
      t.task? id = some { y with lanes := y.lanes.set i (s.reduced y l) } ∧
      Frame [.qry] [.BD_REDUCE, .SE_REDUCE_ELEMS, .SE_DUP_DROPPED, .SE_REFILL_PASSES, .SE_REDUCE_QWAIT_CYC] s t := by
  have hid := State.id_of_task? hy
  have hexec := exec_laneReduction hq hy
  have htaken := State.redTaken_keeps band rest s
  have hframe : Keeps State.reduceLane_touch s ((s.redTaken band rest).reduceLane y i) :=
    htaken.widen (by decide +kernel) |>.after (State.reduceLane_keeps ..) (by decide +kernel)
  have htask : (s.redTaken band rest).task? id = some y := (State.task?_congr rfl id).trans hy
  have hbits : (s.redTaken band rest).reduced y l = s.reduced y l := rfl
  have hqueue : (s.redTaken band rest).qry.redQ.getD [] band = rest := Tbl.getD_put_self ..
  have hred := htaken.regs .BD_REDUCE y.band 0 (by decide +kernel)
  have helems := htaken.regs .SE_REDUCE_ELEMS y.band 0 (by decide +kernel)
  rw [State.reduceLane_eq hl, hbits] at hexec hframe
  generalize s.redTaken band rest = u at hexec hframe htask hqueue hred helems
  have hcount := State.reduceCounted_keeps y l u
  have hset := State.setTask_keeps { y with lanes := y.lanes.set i (s.reduced y l) } (u.reduceCounted y l)
  refine ⟨_, hexec, ?_, ?_, ?_, ?_, hframe.frame (by decide +kernel)⟩
  · show (u.reduceCounted y l).qry.redQ.getD [] band = rest
    rw [hcount.parts .qry (by decide +kernel), hqueue]
  · rw [hset.regs _ _ _ (by decide +kernel), State.reduces_reduceCounted, hred]
  · rw [hset.regs _ _ _ (by decide +kernel), State.elems_reduceCounted, helems]
  · refine State.task?_setTask ?_ hid
    rw [State.task?_congr (hcount.tasks (by decide +kernel)), htask]
    rfl

/-- Settles O20: every block is counted, and what it adds to the rows is what the slots of it allow; a reduction keeps the best
K_S of a row and lowers τ at most. -/
theorem tasksScanTheirBlocks : Obligations.TasksScanTheirBlocks := by
  unfold Obligations.TasksScanTheirBlocks
  constructor
  · intro k err s y b hy hb hrun hleave hreset hroom
    obtain ⟨t, hexec, hblocks, ⟨z, new, hz, hgrown, hbad, hnew⟩, hskip⟩ :=
      leads_blockScan err hy hb hrun hleave hreset hroom
    refine ⟨t, hexec, hblocks, z, hz, hgrown.nextSeq, hgrown.band, hgrown.length_lanes, hgrown.st, fun i l hl => ?_, hskip⟩
    obtain ⟨l', hl', hq, htau, hrow⟩ := hgrown.lane hl
    exact ⟨l', new l, hl', hq, htau, hrow, fun h => hbad h l, hnew l⟩
  · intro band s id i rest y l hq hy hl
    obtain ⟨t, hexec, hqueue, hred, helems, htask, hframe⟩ := leads_laneReduction hq hy hl
    have hi : i < y.lanes.length := (List.getElem?_eq_some_iff.mp hl).1
    have hlane := List.getElem?_set_self (a := s.reduced y l) hi
    exact ⟨t, hexec, hqueue, hred, helems, ⟨_, s.reduced y l, htask, hlane, newTau_le .., rfl, rfl⟩, hframe⟩

end Sys2Proof.Machine
end

section
/-! What the retire queue, the records of new slots and a LIST_COPY do: RETIRED_SLOT_TOMBSTONE, RETIRE_LATE_EXPIRY,
FLASH_RECORD_DURABLE and LIST_COPY (R41, R46, R165, R169, R170, R174). -/

namespace Sys2Proof.Machine

/-! ### Tombstones stay (R162, R165) -/

/-- From `s` to `t` the retire queue has stood, and every tombstone has stayed. -/
structure TombsKept (s t : State) : Prop where
  queue : t.idx.retireQ = s.idx.retireQ
  tombs : ∀ k n, (s.version k).tomb.contains n = true → (t.version k).tomb.contains n = true

theorem TombsKept.rfl {s : State} : TombsKept s s := ⟨Eq.refl _, fun _ _ h => h⟩

theorem TombsKept.trans {s t u : State} (h : TombsKept s t) (k : TombsKept t u) : TombsKept s u :=
  ⟨k.queue.trans h.queue, fun i n hn => k.tombs i n (h.tombs i n hn)⟩

theorem Keeps.tombsKept {m : Nat} {s t : State} (h : Keeps m s t) (hm : m.testBit (Part.bit .idx) = false) : TombsKept s t :=
  ⟨congrArg Indexes.retireQ (h.parts .idx hm), fun k n hn => by rw [h.version hm]; exact hn⟩

theorem TombsKept.setVersion {s : State} {k : Nat} {x : Version}
    (h : ∀ n, (s.version k).tomb.contains n = true → x.tomb.contains n = true) : TombsKept s (s.setVersion k x) := by
  refine ⟨Eq.refl _, fun i n hn => ?_⟩
  by_cases hi : i = k
  · subst hi
    rw [State.version_setVersion_self]
    exact h n hn
  · rw [State.version_setVersion_ne s hi]
    exact hn

theorem State.modBlock_tombsKept (k cl seq : Nat) (f : Block → Block) (s : State) : TombsKept s (s.modBlock k cl seq f) :=
  TombsKept.setVersion fun _ hn => hn

theorem State.bump_tombsKept (r : RegName) (i j n : Nat) (s : State) : TombsKept s (s.bump r i j n) :=
  (Keeps.bump (m := touchSet [] [r]) Keeps.rfl (by rw [testBit_touchSet_reg]; simp)).tombsKept (testBit_touchSet_part (by decide))

theorem State.tombstone_tombsKept (k ref : Nat) (s : State) : TombsKept s (s.tombstone k ref) := by
  unfold State.tombstone
  extract_lets x u
  split
  · exact State.bump_tombsKept ..
  · have hu : TombsKept s u := by
      refine TombsKept.trans (TombsKept.setVersion fun n hn => ?_) (State.bump_tombsKept ..)
      rw [List.contains_iff_mem] at hn ⊢
      exact List.mem_append_left _ hn
    split
    · exact hu.trans (State.modBlock_tombsKept ..)
    · exact hu

/-- A slot that gets its tombstone has one. -/
theorem State.tomb_tombstone (k ref : Nat) (s : State) :
    ((s.tombstone k ref).version k).tomb.contains (refOrd ref) = true := by
  unfold State.tombstone
  extract_lets x u
  split
  · next hx => exact (State.bump_tombsKept ..).tombs _ _ hx
  · have hu : (u.version k).tomb.contains (refOrd ref) = true := by
      refine (State.bump_tombsKept ..).tombs _ _ ?_
      rw [State.version_setVersion_self, List.contains_iff_mem]
      exact List.mem_append_right _ (List.mem_singleton.mpr (Eq.refl _))
    split
    · exact (State.modBlock_tombsKept ..).tombs _ _ hu
    · exact hu

theorem State.tombOnce_tombsKept (k ref : Nat) (s : State) : TombsKept s (s.tombOnce k ref) := by
  unfold State.tombOnce
  split
  · exact TombsKept.rfl
  · exact State.tombstone_tombsKept ..

theorem State.tomb_tombOnce (k ref : Nat) (s : State) :
    ((s.tombOnce k ref).version k).tomb.contains (refOrd ref) = true := by
  unfold State.tombOnce
  split
  · next h => exact h
  · exact State.tomb_tombstone ..

/-- The mirror of a retired slot gets its tombstone after the slot itself (R169). -/
theorem State.withMirror_tombOnce (k ref : Nat) (s : State) :
    TombsKept (s.tombOnce k ref) (s.withMirror State.tombOnce k ref) := by
  unfold State.withMirror
  dsimp only
  split
  · exact (State.tombOnce_tombsKept ..).trans (State.bump_tombsKept ..)
  · exact TombsKept.rfl

theorem State.releaseRef_tombsKept (k : Nat) (s : State) : TombsKept s (s.releaseRef k) := by
  unfold State.releaseRef
  extract_lets i u x old
  have hu : TombsKept s u := (State.signal_keeps ..).tombsKept (by decide +kernel)
  split
  · refine TombsKept.trans (hu.trans ?_) ((State.dropCharge_keeps ..).tombsKept (by decide +kernel))
    exact TombsKept.setVersion fun _ hn => hn
  · exact hu

/-- The state in which the first of the retire queue has left it. -/
def State.retireTaken (rest : List Retired) (s : State) : State := { s with idx := { s.idx with retireQ := rest } }

theorem exec_retiredSlotTombstone {s : State} {r : Retired} {rest : List Retired} (hq : s.idx.retireQ = r :: rest)
    (hgone : (r.waits.all fun q => (s.query q).isNone) = true) :
    exec .retiredSlotTombstone s =
      .next (((s.retireTaken rest).withMirror State.tombOnce r.ver r.ref).releaseRef r.ver) := by
  have hnone : ¬ (r.waits.any fun q => (s.query q).isSome) = true := by
    simp only [List.any_eq_true, not_exists, not_and, List.all_eq_true, Option.isNone_iff_eq_none] at hgone ⊢
    intro q hq hsome
    rw [hgone q hq] at hsome
    cases hsome
  show execRetiredSlotTombstone s = _
  unfold execRetiredSlotTombstone
  rw [hq]
  exact if_neg hnone

/-- RETIRED_SLOT_TOMBSTONE of the first of the queue, once the queries that it waits for are gone. -/
theorem leads_retiredSlotTombstone {s : State} {r : Retired} {rest : List Retired} (hq : s.idx.retireQ = r :: rest)
    (hgone : (r.waits.all fun q => (s.query q).isNone) = true) :
    Leads .retiredSlotTombstone s fun t => t.idx.retireQ = rest ∧ (t.version r.ver).tomb.contains (refOrd r.ref) = true := by
  have hrest : TombsKept ((s.retireTaken rest).tombOnce r.ver r.ref)
      (((s.retireTaken rest).withMirror State.tombOnce r.ver r.ref).releaseRef r.ver) :=
    (State.withMirror_tombOnce ..).trans (State.releaseRef_tombsKept ..)
  refine ⟨_, exec_retiredSlotTombstone hq hgone, ?_, hrest.tombs _ _ (State.tomb_tombOnce ..)⟩
  rw [hrest.queue, (State.tombOnce_tombsKept ..).queue, State.retireTaken]

/-! ### Retired slots that wait longer than a second (R165) -/

/-- A retired slot has waited a second at `now`, and is not counted yet. -/
def Retired.due (now : Nat) (r : Retired) : Bool := !r.late && decide (r.vis + sec ≤ now)

/-- The queue with those counted late that are due. -/
def lateCounted (now : Nat) (q : List Retired) : List Retired := q.map fun r => if r.due now then { r with late := true } else r

theorem late_of_lateCounted {now : Nat} {q : List Retired} {r : Retired} (h : r ∈ lateCounted now q) :
    r.late = true ∨ now < r.vis + sec := by
  obtain ⟨r', -, rfl⟩ := List.mem_map.mp h
  by_cases hdue : r'.due now = true
  · rw [if_pos hdue]
    exact Or.inl rfl
  · rw [if_neg hdue]
    simp only [Retired.due, Bool.and_eq_true, Bool.not_eq_true', decide_eq_true_eq, not_and] at hdue
    cases hlate : r'.late with
    | true => exact Or.inl rfl
    | false => exact Or.inr (Nat.lt_of_not_le (hdue hlate))

/-- The state that RETIRE_LATE_EXPIRY leaves at `now`. -/
def State.lateExpired (now : Nat) (s : State) : State :=
  State.bump .HQ_UPD_RETIRE_LATE 0 0 (s.idx.retireQ.filter (Retired.due now)).length
    { s with now := now, idx := { s.idx with retireQ := lateCounted now s.idx.retireQ } }

theorem exec_retireLateExpiry {s : State} {r : Retired} (hr : (s.idx.retireQ.find? fun r => !r.late) = some r) :
    exec .retireLateExpiry s = .next (s.lateExpired (max s.now (r.vis + sec))) := by
  show execRetireLateExpiry s = _
  unfold execRetireLateExpiry
  rw [hr]
  rfl

/-- RETIRE_LATE_EXPIRY at the first retired slot that is not counted yet. -/
theorem leads_retireLateExpiry {s : State} {r : Retired} (hr : (s.idx.retireQ.find? fun r => !r.late) = some r) :
    Leads .retireLateExpiry s fun t => t.now = max s.now (r.vis + sec) ∧ t.idx.retireQ.length = s.idx.retireQ.length ∧
      (∀ r' ∈ t.idx.retireQ, r'.late = true ∨ t.now < r'.vis + sec) ∧
      t.reg .HQ_UPD_RETIRE_LATE 0 0 = s.reg .HQ_UPD_RETIRE_LATE 0 0 +
        BitVec.ofNat 64 (s.idx.retireQ.filter fun r' => !r'.late && decide (r'.vis + sec ≤ max s.now (r.vis + sec))).length ∧
      Frame [.now, .idx] [.HQ_UPD_RETIRE_LATE] s t := by
  have hexec := exec_retireLateExpiry hr
  obtain ⟨t, hnext, hkeeps⟩ := execRetireLateExpiry_ends s
  obtain rfl : t = s.lateExpired (max s.now (r.vis + sec)) := Host.Outcome.next.inj (hnext.symm.trans hexec)
  refine ⟨_, hexec, rfl, List.length_map .., fun r' hr' => late_of_lateCounted hr', ?_, hkeeps.frame (by decide +kernel)⟩
  exact State.reg_bump_self ..

/-! ### The acknowledgements of a channel, and the end of an update -/

/-- The channels of `t` stand as in `s`. -/
def SameChans (s t : State) : Prop := t.fl.chans = s.fl.chans

theorem SameChans.rfl {s : State} : SameChans s s := Eq.refl _

theorem SameChans.trans {s t u : State} (h : SameChans s t) (k : SameChans t u) : SameChans s u := Eq.trans k h

theorem Keeps.sameChans {m : Nat} {s t : State} (h : Keeps m s t) (hm : m.testBit (Part.bit .fl) = false) : SameChans s t :=
  congrArg Flash.chans (h.parts .fl hm)

theorem SameChans.chan {s t : State} (h : SameChans s t) (n : Nat) : t.chan n = s.chan n := by
  rw [State.chan, State.chan, h]

/-- An update broken off takes its records out of the append queues, and changes no channel (R168). -/
theorem State.undoJob_sameChans (j : UpdJob) (s : State) : SameChans s (s.undoJob j) := by
  unfold State.undoJob
  extract_lets u v drop w x
  have hu : SameChans s u := by
    refine SameChans.trans ((State.dropReserved_keeps j s).sameChans (by decide +kernel)) ?_
    exact (Keeps.forEach _ _ (fun n t => State.fillGap_keeps n t) Keeps.rfl).sameChans (by decide +kernel)
  have hv : SameChans u v := (State.rollback_keeps ..).sameChans (by decide +kernel)
  have hw : SameChans v x := Eq.refl _
  refine ((hu.trans hv).trans hw).trans (SameChans.trans ((State.dropJob_keeps j.seq x).sameChans (by decide +kernel)) ?_)
  exact (State.releaseRef_keeps ..).sameChans (by decide +kernel)

theorem State.endGroup_sameChans (g : GroupJob) (r : Res) (s : State) : SameChans s (s.endGroup g r) := by
  unfold State.endGroup
  extract_lets update u v w x y own
  have hu : SameChans s u := by
    refine Keeps.sameChans (m := State.sendGauntlet_touch) (Keeps.ite Keeps.rfl (Keeps.ite ?_ (Keeps.ite ?_ Keeps.rfl)))
      (by decide +kernel)
    · exact Keeps.forEach _ _ (fun _ _ => State.sendGauntlet_keeps ..) Keeps.rfl
    · exact Keeps.forEach _ _ (fun _ _ => State.sendGauntlet_keeps ..) Keeps.rfl
  have hv : SameChans u v := by
    unfold v
    split
    · split
      · exact State.undoJob_sameChans ..
      · exact SameChans.rfl
    · exact SameChans.rfl
  have hw : SameChans v w := by
    unfold w
    split
    · exact SameChans.rfl
    · exact (State.undoKept_keeps ..).sameChans (by decide +kernel)
  have hx : SameChans w x := SameChans.trans ((State.releaseLease_keeps ..).sameChans (by decide +kernel)) SameChans.rfl
  have hy : SameChans x y := by
    unfold y
    split
    · split
      · exact (State.signal_keeps ..).sameChans (by decide +kernel)
      · exact SameChans.rfl
    · exact SameChans.rfl
  exact (((hu.trans hv).trans hw).trans (hx.trans hy)).trans ((State.finish_keeps ..).sameChans (by decide +kernel))

/-- What the group merge notes touches. -/
def State.endGroupNotes_touch : Nat := touchSet [] [.HQ_GRP_MISSING, .SE_NAN] ||| State.noteSelect_touch

theorem State.endGroupSearch_sameChans (g : GroupJob) (s : State) : SameChans s (s.endGroupSearch g) := by
  unfold State.endGroupSearch
  extract_lets good missing scaled rows
  split
  · exact State.endGroup_sameChans ..
  · split
    · exact State.endGroup_sameChans ..
    · split
      extract_lets
      refine SameChans.trans ?_ (State.endGroup_sameChans ..)
      refine Keeps.sameChans (m := State.endGroupNotes_touch) ?_ (by decide +kernel)
      refine Keeps.bump ?_ (by decide +kernel)
      refine Keeps.after ?_ (State.noteSelect_keeps ..) (by decide +kernel)
      refine Keeps.after ?_ (State.noteSelect_keeps ..) (by decide +kernel)
      exact (State.noteNans_keeps ..).widen (by decide +kernel)

theorem State.endGroupUpdate_sameChans (g : GroupJob) (s : State) : SameChans s (s.endGroupUpdate g) := by
  unfold State.endGroupUpdate
  split
  · exact State.endGroup_sameChans ..
  · extract_lets live
    clear_value live
    split
    · exact State.endGroup_sameChans ..
    · next a rest =>
      extract_lets u v
      have hu : Keeps (touchSet [] [.HQ_UPD_CMDS] ||| State.compareCopies_touch) s u := by
        refine Keeps.after ?_ (State.compareCopies_keeps ..) (by decide +kernel)
        exact (State.failDiverged_keeps ..).widen (by decide +kernel)
      have hv : Keeps (touchSet [] [.HQ_UPD_CMDS] ||| State.compareCopies_touch) s v :=
        Keeps.ite hu (Keeps.bump hu (by decide +kernel))
      exact (hv.sameChans (by decide +kernel)).trans (State.endGroup_sameChans ..)

theorem State.settleGroup_sameChans (seq : Nat) (s : State) : SameChans s (s.settleGroup seq) := by
  unfold State.settleGroup
  split
  · exact SameChans.rfl
  · split
    · split
      · split
        · exact State.endGroupSearch_sameChans ..
        · exact State.endGroupUpdate_sameChans ..
      · exact (State.claim_keeps ..).sameChans (by decide +kernel)
    · exact SameChans.rfl

theorem State.endPart_sameChans (c : Nat) (m : Cmd) (r : Res) (s : State) : SameChans s (s.endPart c m r) := by
  unfold State.endPart
  split
  · unfold State.takeAnswer
    split
    · exact SameChans.rfl
    · next g _ _ _ =>
      extract_lets g' u
      have hu : SameChans s u := SameChans.trans (Eq.refl _) (State.settleGroup_sameChans m.seq (s.setGroup g'))
      split
      · exact hu.trans ((State.claim_keeps ..).sameChans (by decide +kernel))
      · exact hu
  · exact (State.finish_keeps ..).sameChans (by decide +kernel)

/-! ### The visibility point of an update that is no group command (R164, R166, R174) -/

/-- The updates in progress in `t` are those in `s`. -/
def SameJobs (s t : State) : Prop := t.idx.updates = s.idx.updates

theorem SameJobs.rfl {s : State} : SameJobs s s := Eq.refl _

theorem SameJobs.trans {s t u : State} (h : SameJobs s t) (k : SameJobs t u) : SameJobs s u := Eq.trans k h

theorem Keeps.sameJobs {m : Nat} {s t : State} (h : Keeps m s t) (hm : m.testBit (Part.bit .idx) = false) : SameJobs s t :=
  congrArg Indexes.updates (h.parts .idx hm)

theorem SameJobs.job? {s t : State} (h : SameJobs s t) (q : Nat) : t.job? q = s.job? q := by
  rw [State.job?, State.job?, h]

theorem State.keepLog_sameJobs (k : Nat) (m : Cmd) (retire : List Nat) (r : Res) (s : State) :
    SameJobs s (s.keepLog k m retire r) := by
  unfold State.keepLog
  extract_lets key
  clear_value key
  split <;> exact SameJobs.rfl

theorem State.queueRetired_sameJobs (k ref : Nat) (s : State) : SameJobs s (s.queueRetired k ref) := by
  unfold State.queueRetired
  split
  · exact congrArg Indexes.updates (State.idx_bump ..)
  · extract_lets mine r
    exact SameJobs.trans (Eq.refl _) ((State.holdRef_keeps ..).sameJobs (by decide +kernel))

theorem State.releaseRef_sameJobs (k : Nat) (s : State) : SameJobs s (s.releaseRef k) := by
  unfold State.releaseRef
  extract_lets i u x old
  have hu : SameJobs s u := (State.signal_keeps ..).sameJobs (by decide +kernel)
  split
  · refine SameJobs.trans (hu.trans ?_) ((State.dropCharge_keeps ..).sameJobs (by decide +kernel))
    exact Eq.refl _
  · exact hu

/-- The state at the visibility point of an update, before its completion. -/
def State.atVisible (k : Nat) (m : Cmd) (retire : List Nat) (r : Res) (s : State) : State :=
  let s := s.keepLog k m retire r
  let s := forEach retire (fun ref t => t.queueRetired k ref) s
  let s := s.bump .HQ_UPD_CMDS 0 0 1
  let s := if uSyncEn m.bytes && (s.group? m.seq).isNone then s.signal (uSync m.bytes) (uSyncValue m.bytes) else s
  s.releaseRef k

theorem State.visible_eq (c k : Nat) (m : Cmd) (retire : List Nat) (r : Res) (s : State) :
    s.visible c k m retire r = (s.atVisible k m retire r).endPart c m r := by rfl

def State.atVisible_touch : Nat := touchSet [.idx] [.HQ_UPD_CMDS, .HQ_UPD_REDUNDANT] ||| State.releaseRef_touch

theorem State.atVisible_keeps (k : Nat) (m : Cmd) (retire : List Nat) (r : Res) (s : State) :
    Keeps State.atVisible_touch s (s.atVisible k m retire r) := by
  unfold State.atVisible
  extract_lets u v w x
  have hv : Keeps State.atVisible_touch s v :=
    Keeps.forEach _ _ (fun ref t => (State.queueRetired_keeps k ref t).widen (by decide +kernel))
      ((State.keepLog_keeps ..).widen (by decide +kernel))
  have hw : Keeps State.atVisible_touch s w := Keeps.bump hv (by decide +kernel)
  have hx : Keeps State.atVisible_touch s x := Keeps.ite (hw.after (State.signal_keeps ..) (by decide +kernel)) hw
  exact hx.after (State.releaseRef_keeps ..) (by decide +kernel)

theorem State.atVisible_sameJobs (k : Nat) (m : Cmd) (retire : List Nat) (r : Res) (s : State) :
    SameJobs s (s.atVisible k m retire r) := by
  unfold State.atVisible
  extract_lets u v w x
  have hv : SameJobs s v := forEach_keeps (P := SameJobs s) (fun ref t ht => ht.trans (State.queueRetired_sameJobs k ref t))
    retire (State.keepLog_sameJobs ..)
  have hw : SameJobs s w := hv.trans (congrArg Indexes.updates (State.idx_bump ..))
  have hx : SameJobs w x := by
    unfold x
    split
    · exact (State.signal_keeps ..).sameJobs (by decide +kernel)
    · exact SameJobs.rfl
  exact (hw.trans hx).trans (State.releaseRef_sameJobs ..)

/-- The command is counted once. -/
theorem State.cmds_atVisible (k : Nat) (m : Cmd) (retire : List Nat) (r : Res) (s : State) :
    (s.atVisible k m retire r).reg .HQ_UPD_CMDS 0 0 = s.reg .HQ_UPD_CMDS 0 0 + 1 := by
  unfold State.atVisible
  extract_lets u v w x
  have hv : v.reg .HQ_UPD_CMDS 0 0 = s.reg .HQ_UPD_CMDS 0 0 := by
    refine forEach_keeps (P := fun t => t.reg .HQ_UPD_CMDS 0 0 = s.reg .HQ_UPD_CMDS 0 0) (fun ref t ht => ?_) retire
      ((State.keepLog_keeps ..).regs _ _ _ (by decide +kernel))
    exact ((State.queueRetired_keeps k ref t).regs _ _ _ (by decide +kernel)).trans ht
  have hx : Keeps State.signal_touch w x := Keeps.ite (State.signal_keeps ..) Keeps.rfl
  rw [(State.releaseRef_keeps ..).regs _ _ _ (by decide +kernel), hx.regs _ _ _ (by decide +kernel), ← hv]
  exact State.reg_bump_self ..

theorem State.group?_congr {s t : State} (h : t.hq = s.hq) (q : Nat) : t.group? q = s.group? q := by
  rw [State.group?, State.group?, h]

/-- A command that is part of no group command ends with its own completion (R171). -/
theorem State.endPart_alone {s : State} {m : Cmd} (h : s.group? m.seq = none) (c : Nat) (r : Res) :
    s.endPart c m r = s.finish c m.seq r := by
  rw [State.endPart, h]

/-- A command ends with the status of its result. -/
theorem CmdEnded.ended_status {c : Nat} {m : Cmd} {r : Res} {s t : State} (h : CmdEnded c m r s t) :
    t.ended c m r.status = true := by
  have hended := h.ended
  rwa [Res.status_settle] at hended

/-- An update on a ring, part of no group command, ends at its visibility point. -/
theorem State.visible_ended {s : State} {c : Nat} {m : Cmd} (hm : s.cmd? c m.seq = some m) (hring : s.toRing c = true)
    (hgroup : s.group? m.seq = none) (k : Nat) (retire : List Nat) (r : Res) :
    s.visible c k m retire r = (s.atVisible k m retire r).finish c m.seq r ∧
      CmdEnded c m r (s.atVisible k m retire r) ((s.atVisible k m retire r).finish c m.seq r) := by
  have hk := State.atVisible_keeps k m retire r s
  refine ⟨?_, State.finish_ended ?_ ?_ r⟩
  · rw [State.visible_eq, State.endPart_alone ((State.group?_congr (hk.parts .hq (by decide +kernel)) _).trans hgroup)]
  · exact (hk.cmd? (by decide +kernel) c m.seq).trans hm
  · exact (hk.toRing (by decide +kernel) (by decide +kernel) c).trans hring

/-! ### Slots written as their records become durable (R41, R46, R161) -/

/-- From `s` to `t` no update has changed, and no version has got a successor. -/
structure SlotsWritten (s t : State) : Prop where
  jobs : SameJobs s t
  succ : ∀ k, (t.version k).succ = (s.version k).succ

theorem SlotsWritten.rfl {s : State} : SlotsWritten s s := ⟨SameJobs.rfl, fun _ => Eq.refl _⟩

theorem SlotsWritten.trans {s t u : State} (h : SlotsWritten s t) (k : SlotsWritten t u) : SlotsWritten s u :=
  ⟨h.jobs.trans k.jobs, fun i => (k.succ i).trans (h.succ i)⟩

theorem SlotsWritten.modVersion {k : Nat} {f : Version → Version} (hf : ∀ x, (f x).succ = x.succ) (s : State) :
    SlotsWritten s (s.modVersion k f) := by
  refine ⟨SameJobs.rfl, fun i => ?_⟩
  rw [State.modVersion]
  by_cases hi : i = k
  · subst hi
    rw [State.version_setVersion_self, hf]
  · rw [State.version_setVersion_ne s hi]

theorem State.modBlock_slotsWritten (k cl seq : Nat) (f : Block → Block) (s : State) :
    SlotsWritten s (s.modBlock k cl seq f) := by
  rw [State.modBlock, State.modList]
  exact SlotsWritten.modVersion (by exact fun _ => Eq.refl _) s

theorem State.writeNew_slotsWritten (n : NewSlot) (s : State) : SlotsWritten s (s.writeNew n) := by
  unfold State.writeNew State.writeSlot
  extract_lets ord u
  have hu : SlotsWritten s u := SlotsWritten.modVersion (by exact fun _ => Eq.refl _) s
  exact hu.trans (State.modBlock_slotsWritten ..)

theorem State.bump_slotsWritten (r : RegName) (i j n : Nat) (s : State) : SlotsWritten s (s.bump r i j n) :=
  ⟨congrArg Indexes.updates (State.idx_bump ..), fun k => congrArg Version.succ (State.version_congr (State.idx_bump ..) k)⟩

/-- A slot may be written after those of `acc`: its record is durable, and the slots of its entry before it are written. -/
def NewSlot.ready (acc : List NewSlot) (x : NewSlot) : Bool :=
  x.durable && (acc.filter fun y => y.ver == x.ver && y.entry == x.entry).all (·.written)

/-- One slot of an update, where those before it came out as `acc`. -/
def readyStep (acc : List NewSlot) (x : NewSlot) : List NewSlot :=
  acc ++ [{ x with written := x.written || x.ready acc }]

theorem readySlots_eq (ns : List NewSlot) : readySlots ns = ns.foldl readyStep [] := by rfl

/-- How many slots of a list are written. -/
def writtenIn (ns : List NewSlot) : Nat := (ns.filter (·.written)).length

/-- The same step with the state in which the slot is written, where each slot written counts `n`. -/
def writeStep (n : Nat) (p : List NewSlot × State) (x : NewSlot) : List NewSlot × State :=
  if x.durable && !x.written && (p.1.filter fun y => y.ver == x.ver && y.entry == x.entry).all (·.written) then
    (p.1 ++ [{ x with written := true }], (p.2.writeNew x).bump .HQ_UPD_SLOTS_NEW 0 0 n)
  else (p.1 ++ [x], p.2)

/-- From `s` to `t` slots that did not count as written have been, `d` of them, each counting `n`. -/
structure ReadyWritten (n d : Nat) (s t : State) : Prop extends SlotsWritten s t where
  counted : t.reg .HQ_UPD_SLOTS_NEW 0 0 = s.reg .HQ_UPD_SLOTS_NEW 0 0 + BitVec.ofNat 64 (d * n)

theorem writtenIn_append_single (acc : List NewSlot) (x : NewSlot) :
    writtenIn (acc ++ [x]) = writtenIn acc + if x.written = true then 1 else 0 := by
  unfold writtenIn
  rw [List.filter_append, List.length_append, List.filter_singleton]
  cases x.written <;> rfl

/-- A slot is written where it is ready and was not written. -/
theorem writeStep_written (n : Nat) (acc : List NewSlot) (s : State) (x : NewSlot) :
    (writeStep n (acc, s) x).1 = readyStep acc x ∧
      ∃ d, writtenIn (readyStep acc x) = writtenIn acc + (if x.written = true then 1 else 0) + d ∧
        ReadyWritten n d s (writeStep n (acc, s) x).2 := by
  have hcond : (x.durable && !x.written && (acc.filter fun y => y.ver == x.ver && y.entry == x.entry).all (·.written)) =
      (!x.written && x.ready acc) := by
    rw [NewSlot.ready, ← Bool.and_assoc, Bool.and_comm x.durable]
  unfold writeStep readyStep
  dsimp only
  rw [hcond, writtenIn_append_single]
  cases hw : x.written with
  | true =>
    refine ⟨?_, 0, Eq.refl _, SlotsWritten.rfl, ?_⟩
    · show acc ++ [x] = _
      rw [Bool.true_or, ← hw]
    · rw [Nat.zero_mul]
      exact (BitVec.add_zero _).symm
  | false =>
    cases hr : x.ready acc with
    | false =>
      refine ⟨?_, 0, Eq.refl _, SlotsWritten.rfl, ?_⟩
      · show acc ++ [x] = _
        rw [Bool.or_false, ← hw]
      · rw [Nat.zero_mul]
        exact (BitVec.add_zero _).symm
    | true =>
      refine ⟨Eq.refl _, 1, Eq.refl _, (State.writeNew_slotsWritten x s).trans (State.bump_slotsWritten ..), ?_⟩
      show ((s.writeNew x).bump .HQ_UPD_SLOTS_NEW 0 0 n).reg .HQ_UPD_SLOTS_NEW 0 0 = _
      rw [State.reg_bump_self, (State.writeNew_keeps x s).regs _ _ _ (by decide +kernel), Nat.one_mul]

theorem writeSteps_written (n : Nat) (ns acc : List NewSlot) (s : State) :
    (ns.foldl (writeStep n) (acc, s)).1 = ns.foldl readyStep acc ∧
      ∃ d, writtenIn (ns.foldl readyStep acc) = writtenIn acc + writtenIn ns + d ∧
        ReadyWritten n d s (ns.foldl (writeStep n) (acc, s)).2 := by
  induction ns generalizing acc s with
  | nil =>
    refine ⟨Eq.refl _, 0, Eq.refl _, SlotsWritten.rfl, ?_⟩
    rw [Nat.zero_mul]
    exact (BitVec.add_zero _).symm
  | cons x ns ih =>
    obtain ⟨hfst, d, hd, hone⟩ := writeStep_written n acc s x
    obtain ⟨hrest, e, he, hmany⟩ := ih (readyStep acc x) (writeStep n (acc, s) x).2
    rw [← hfst, Prod.mk.eta] at hrest hmany
    rw [List.foldl_cons, List.foldl_cons]
    refine ⟨hrest.trans (by rw [hfst]), d + e, ?_, hone.toSlotsWritten.trans hmany.toSlotsWritten, ?_⟩
    · have hcons : writtenIn (x :: ns) = (if x.written = true then 1 else 0) + writtenIn ns := by
        rw [writtenIn, writtenIn, List.filter_cons]
        cases x.written with
        | true => exact Nat.add_comm ..
        | false => exact (Nat.zero_add _).symm
      rw [he, hd, hcons]
      omega
    · rw [hmany.counted, hone.counted, Nat.add_mul, BitVec.ofNat_add, BitVec.add_assoc]

theorem State.writeReady_eq (j : UpdJob) (s : State) :
    s.writeReady j = (j.slots.foldl (writeStep (if j.opcode = 0x15 then 0 else 1)) ([], s)).2.setJob
      { j with slots := (j.slots.foldl (writeStep (if j.opcode = 0x15 then 0 else 1)) ([], s)).1 } := by rfl

theorem State.id_of_job? {s : State} {q : Nat} {j : UpdJob} (h : s.job? q = some j) : j.seq = q :=
  beq_iff_eq.mp (List.find?_some (p := fun x : UpdJob => x.seq == q) h)

theorem State.job?_setJob {s : State} {q : Nat} (h : (s.job? q).isSome = true) {j : UpdJob} (hj : j.seq = q) :
    (s.setJob j).job? q = some j := by
  obtain ⟨x, hx⟩ := Option.isSome_iff_exists.mp h
  have hsame : ((fun y : UpdJob => y.seq == q) ∘ fun y : UpdJob => if y.seq = j.seq then j else y) = fun y => y.seq == q := by
    funext y
    simp only [Function.comp_apply, hj]
    split <;> simp_all
  show List.find? _ (s.idx.updates.map _) = _
  rw [List.find?_map, hsame, ← State.job?, hx, Option.map_some, if_pos ((State.id_of_job? hx).trans hj.symm)]

/-- The slots of an update that are ready are written, and counted but for those of a shard copy (R46, R174). -/
theorem State.writeReady_written {s : State} {j : UpdJob} (h : (s.job? j.seq).isSome = true) :
    (s.writeReady j).job? j.seq = some { j with slots := readySlots j.slots } ∧
      (∀ k, ((s.writeReady j).version k).succ = (s.version k).succ) ∧
      (s.writeReady j).reg .HQ_UPD_SLOTS_NEW 0 0 = s.reg .HQ_UPD_SLOTS_NEW 0 0 +
        (if j.opcode = 0x15 then 0 else BitVec.ofNat 64 (readyCount j.slots)) := by
  obtain ⟨hslots, d, hd, hwritten⟩ := writeSteps_written (if j.opcode = 0x15 then 0 else 1) j.slots [] s
  rw [← readySlots_eq] at hslots hd
  have hcount : readyCount j.slots = d := by
    show writtenIn (readySlots j.slots) - writtenIn j.slots = d
    rw [hd]
    show 0 + _ + d - _ = d
    omega
  rw [State.writeReady_eq, hslots]
  refine ⟨State.job?_setJob ?_ (Eq.refl _), hwritten.succ, ?_⟩
  · rw [hwritten.jobs.job?]
    exact h
  · show State.reg _ .HQ_UPD_SLOTS_NEW 0 0 = _
    rw [(State.setJob_keeps ..).regs _ _ _ (by decide +kernel), hwritten.counted, hcount]
    congr 1
    split
    · rw [Nat.mul_zero]
      rfl
    · rw [Nat.mul_one]

/-! ### FLASH_RECORD_DURABLE (R46, R164) -/

theorem readyStep_versions (acc : List NewSlot) (x : NewSlot) :
    (readyStep acc x).map NewSlot.ver = acc.map NewSlot.ver ++ [x.ver] := by
  rw [readyStep, List.map_append, List.map_singleton]

theorem readySlots_versions (ns : List NewSlot) : (readySlots ns).map NewSlot.ver = ns.map NewSlot.ver := by
  have h : ∀ acc, (ns.foldl readyStep acc).map NewSlot.ver = acc.map NewSlot.ver ++ ns.map NewSlot.ver := by
    induction ns with
    | nil => exact fun acc => (List.append_nil _).symm
    | cons x ns ih =>
      intro acc
      rw [List.foldl_cons, ih, readyStep_versions, List.append_assoc, List.map_cons, List.singleton_append]
  rw [readySlots_eq, h, List.map_nil, List.nil_append]

/-- A slot whose record is durable stays a slot of its version. -/
theorem versions_set {ns : List NewSlot} {i : Nat} {n x : NewSlot} (h : ns[i]? = some n) (hx : x.ver = n.ver) :
    (ns.set i x).map NewSlot.ver = ns.map NewSlot.ver := by
  obtain ⟨hi, rfl⟩ := List.getElem?_eq_some_iff.mp h
  rw [List.map_set, hx, ← List.getElem_map NewSlot.ver (h := by rwa [List.length_map]), List.set_getElem_self]

/-- An update whose slots are those of its own version alone, or are mirrored, has nothing to carry over at its visibility
point unless its version got a successor meanwhile (R169). -/
theorem State.mirrorLate_none {s : State} {j : UpdJob}
    (h : (s.version j.ver).succ = none ∨ j.slots.any (·.ver != j.ver) = true) :
    ∃ t, s.mirrorLate j = some ([], t) := by
  unfold State.mirrorLate
  dsimp only
  split
  · exact ⟨s, Eq.refl _⟩
  · next v hv =>
    have hmirrored : j.slots.any (·.ver != j.ver) = true := h.resolve_left (by rw [hv]; nofun)
    rw [hmirrored]
    exact ⟨_, Eq.refl _⟩

theorem State.settleJob_waits {s : State} {q : Nat} {j : UpdJob} (hj : s.job? q = some j)
    (h : j.slots.all (·.written) = false) : s.settleJob q = s := by
  unfold State.settleJob
  rw [hj]
  exact if_neg (ne_true_of_eq_false h)

/-- What an update completes with, where `late` are the slots carried over at its visibility point. -/
def UpdJob.result (j : UpdJob) (late : List (Nat × Nat)) : Res :=
  { info := j.count, records := pairBytes j.records, count := j.records.length,
    slots := (j.slots.filter (·.ver == j.ver)).map (fun n => (n.ver, mkRef n.cluster n.ord)) ++
      (j.slots.filter (·.ver != j.ver)).map (fun n => (n.ver, mkRef n.cluster n.ord)) ++ late }

/-- The last slot of an update on a ring completes it (R164). -/
theorem State.settleJob_ended {s : State} {q : Nat} {j : UpdJob} {m : Cmd} (hj : s.job? q = some j)
    (hall : j.slots.all (·.written) = true) (hm : s.cmd? j.ctx q = some m) (hgroup : s.group? q = none)
    (hring : s.toRing j.ctx = true) (hlate : (s.version j.ver).succ = none ∨ j.slots.any (·.ver != j.ver) = true) :
    (s.settleJob q).ended j.ctx m 0 = true ∧ (s.settleJob q).job? q = none := by
  obtain ⟨t, ht⟩ := State.mirrorLate_none hlate
  obtain rfl : m.seq = q := beq_iff_eq.mp (List.find?_some (p := fun y : Cmd => y.seq == q) hm)
  unfold State.settleJob
  rw [hj]
  dsimp only
  rw [if_pos hall, hm, ht]
  dsimp only
  have hkeeps : Keeps State.mirrorLate_touch s t := KeepsP.get ht (State.mirrorLate_keeps j s)
  have hu : Keeps (State.mirrorLate_touch ||| State.sendLate_touch) s (((t.dropReserved j).sendLate j).dropJob m.seq) := by
    refine Keeps.after ?_ (State.dropJob_keeps ..) (by decide +kernel)
    refine Keeps.after ?_ (State.sendLate_keeps ..) (by decide +kernel)
    exact (hkeeps.widen (by decide +kernel)).after (State.dropReserved_keeps ..) (by decide +kernel)
  have hgone : (((t.dropReserved j).sendLate j).dropJob m.seq).job? m.seq = none := by
    refine List.find?_eq_none.mpr fun x hx => ?_
    have hne := (List.mem_filter.mp hx).2
    simpa using hne
  generalize ((t.dropReserved j).sendLate j).dropJob m.seq = u at hu hgone ⊢
  have hvis := State.visible_ended ((hu.cmd? (by decide +kernel) j.ctx m.seq).trans hm)
    ((hu.toRing (by decide +kernel) (by decide +kernel) j.ctx).trans hring)
    ((State.group?_congr (hu.parts .hq (by decide +kernel)) _).trans hgroup) j.ver j.retire (j.result [])
  show (u.visible j.ctx j.ver m j.retire (j.result [])).ended j.ctx m 0 = true ∧
    (u.visible j.ctx j.ver m j.retire (j.result [])).job? m.seq = none
  obtain ⟨hfin, hend⟩ := hvis
  rw [hfin]
  refine ⟨hend.ended_status, ?_⟩
  rw [((State.finish_keeps ..).sameJobs (by decide +kernel)).job?, (State.atVisible_sameJobs ..).job?, hgone]

theorem State.settleJob_sameChans (q : Nat) (s : State) : SameChans s (s.settleJob q) := by
  unfold State.settleJob
  split
  · exact SameChans.rfl
  · next j _ =>
    split
    · split
      · exact SameChans.trans ((State.dropReserved_keeps j s).sameChans (by decide +kernel)) (Eq.refl _)
      · next m _ =>
        split
        · exact (State.undoJob_sameChans j s).trans (State.endPart_sameChans ..)
        · next late t ht =>
          extract_lets own mirrors u
          have hu : Keeps (State.mirrorLate_touch ||| State.sendLate_touch) s u := by
            refine Keeps.after ?_ (State.dropJob_keeps ..) (by decide +kernel)
            refine Keeps.after ?_ (State.sendLate_keeps ..) (by decide +kernel)
            refine Keeps.after ?_ (State.dropReserved_keeps ..) (by decide +kernel)
            exact (KeepsP.get ht (State.mirrorLate_keeps j s)).widen (by decide +kernel)
          rw [State.visible_eq]
          refine (hu.sameChans (by decide +kernel)).trans (SameChans.trans ?_ (State.endPart_sameChans ..))
          exact (State.atVisible_keeps ..).sameChans (by decide +kernel)
    · exact SameChans.rfl

/-- The job once the record of its slot `i` is durable, with its sidecar (R46). -/
def UpdJob.durable (j : UpdJob) (i : Nat) (n : NewSlot) (sc : W64) : UpdJob :=
  { j with slots := j.slots.set i { n with durable := true, sidecar := sc } }

/-- The state in which the first acknowledgement of a channel is taken. -/
def State.ackTaken (ch : Nat) (rest : List (Nat × Nat × W64)) (s : State) : State :=
  s.setChan ch { s.chan ch with acks := rest }

theorem exec_flashRecordDurable {s : State} {ch seq i : Nat} {sc : W64} {rest : List (Nat × Nat × W64)} {j : UpdJob}
    {n : NewSlot} (hack : (s.chan ch).acks = (seq, i, sc) :: rest) (hj : s.job? seq = some j) (hn : j.slots[i]? = some n) :
    exec (.flashRecordDurable ch) s = .next (((s.ackTaken ch rest).writeReady (j.durable i n sc)).settleJob seq) := by
  show execFlashRecordDurable ch s = _
  unfold execFlashRecordDurable
  dsimp only
  rw [hack]
  dsimp only
  rw [← State.ackTaken, show (s.ackTaken ch rest).job? seq = some j from hj]
  dsimp only
  rw [hn]
  rfl

/-- FLASH_RECORD_DURABLE of a slot of an update in progress. -/
theorem leads_flashRecordDurable {s : State} {ch seq i : Nat} {sc : W64} {rest : List (Nat × Nat × W64)} {j : UpdJob}
    {n : NewSlot} (hack : (s.chan ch).acks = (seq, i, sc) :: rest) (hj : s.job? seq = some j) (hn : j.slots[i]? = some n) :
    Leads (.flashRecordDurable ch) s fun t => (t.chan ch).acks = rest ∧
      ((readySlots (j.durable i n sc).slots).all (·.written) = false →
        t.job? seq = some { j with slots := readySlots (j.durable i n sc).slots } ∧
        t.reg .HQ_UPD_SLOTS_NEW 0 0 = s.reg .HQ_UPD_SLOTS_NEW 0 0 +
          (if j.opcode = 0x15 then 0 else BitVec.ofNat 64 (readyCount (j.durable i n sc).slots))) ∧
      (∀ m, (readySlots (j.durable i n sc).slots).all (·.written) = true →
        (s.version j.ver).succ = none ∨ j.slots.any (·.ver != j.ver) = true → s.cmd? j.ctx seq = some m →
        s.group? seq = none → s.toRing j.ctx = true → t.ended j.ctx m 0 = true ∧ t.job? seq = none) := by
  have hexec := exec_flashRecordDurable hack hj hn
  obtain rfl : j.seq = seq := State.id_of_job? hj
  have hisjob : ((s.ackTaken ch rest).job? j.seq).isSome = true := by
    rw [show (s.ackTaken ch rest).job? j.seq = some j from hj]
    rfl
  obtain ⟨hjob, hsucc, hcount⟩ := State.writeReady_written (j := j.durable i n sc) hisjob
  replace hjob : ((s.ackTaken ch rest).writeReady (j.durable i n sc)).job? j.seq =
    some { j with slots := readySlots (j.durable i n sc).slots } := hjob
  have hready := State.writeReady_keeps (j.durable i n sc) (s.ackTaken ch rest)
  refine ⟨_, hexec, ?_, fun hwait => ?_, fun m hall hlate hm hgroup hring => ?_⟩
  · have hchans : SameChans (s.ackTaken ch rest) (((s.ackTaken ch rest).writeReady (j.durable i n sc)).settleJob j.seq) :=
      (hready.sameChans (by decide +kernel)).trans (State.settleJob_sameChans ..)
    rw [hchans.chan, State.ackTaken, State.chan_setChan_self]
  · rw [State.settleJob_waits hjob hwait]
    exact ⟨hjob, hcount⟩
  · have hvers : (readySlots (j.durable i n sc).slots).any (·.ver != j.ver) = j.slots.any (·.ver != j.ver) := by
      have hmap := (readySlots_versions (j.durable i n sc).slots).trans (versions_set hn rfl)
      have hany := congrArg (List.any · (· != j.ver)) hmap
      rwa [List.any_map, List.any_map] at hany
    refine State.settleJob_ended (j := { j with slots := readySlots (j.durable i n sc).slots }) hjob hall ?_ ?_ ?_ ?_
    · exact (hready.cmd? (by decide +kernel) j.ctx j.seq).trans hm
    · exact (State.group?_congr (hready.parts .hq (by decide +kernel)) _).trans hgroup
    · exact (hready.toRing (by decide +kernel) (by decide +kernel) j.ctx).trans hring
    · exact hlate.imp (hsucc j.ver).trans hvers.trans

/-! ### LIST_COPY (R170) -/

/-- A slot copied takes its place in the successor and counts. -/
theorem State.copyList_counts {k k' cl : Nat} {reassign : Bool} {slots : List (Nat × Code)} {acc ps : List (Nat × Nat)}
    {s t : State} (h : s.copyList k k' cl reassign slots acc = some (ps, t)) :
    ∃ d, ps.length = acc.length + d ∧ t.reg .HQ_UPD_COPIED 0 0 = s.reg .HQ_UPD_COPIED 0 0 + BitVec.ofNat 64 d := by
  induction slots generalizing acc s with
  | nil =>
    obtain ⟨rfl, rfl⟩ := Prod.mk.inj (Option.some.inj h)
    exact ⟨0, rfl, (BitVec.add_zero _).symm⟩
  | cons x slots ih =>
    obtain ⟨ord, code⟩ := x
    unfold State.copyList at h
    split at h
    · cases h
    · next r u hr =>
      obtain ⟨d, hd, hreg⟩ := ih h
      have hu := (KeepsP.get hr (State.copySlot_keeps _ _ _ _ _ _ _)).regs .HQ_UPD_COPIED 0 0 (by decide +kernel)
      refine ⟨r.length + d, by rw [hd, List.length_append, Nat.add_assoc], ?_⟩
      rw [hreg, State.reg_bump_self, hu, BitVec.add_assoc, BitVec.ofNat_add]

/-- Lists that are all RESIDENT are had at once (R224). -/
theorem State.wantLists_resident {s : State} {ls : List (Nat × Nat)}
    (h : ∀ l ∈ ls, ((s.version l.1).list l.2).rstate = 0) (t : Nat) : s.wantLists t ls = (0, s) := by
  unfold State.wantLists
  induction ls with
  | nil => rfl
  | cons l ls ih =>
    obtain ⟨hl, hls⟩ := List.forall_mem_cons.mp h
    have hone : s.wantList t l.1 l.2 = (0, s) := by
      unfold State.wantList
      rw [hl]
      rfl
    rw [List.foldl_cons, hone]
    exact ih hls

/-- What a LIST_COPY completes with. -/
def copyResult (k' : Nat) (ps : List (Nat × Nat)) : Res :=
  { info := ps.length, records := pairBytes ps, count := ps.length, slots := ps.map fun p => (k', p.2) }

/-- A LIST_COPY that the successor can take, within the quota and to resident lists, copies at once. -/
theorem State.runCopy_copies {t t1 t2 : State} {k k' : Nat} {m : Cmd} {ps ps' : List (Nat × Nat)} (c : Nat)
    (hk : k' = verKey (k / 4) (((t.version k).succ).getD 0))
    (htry : t.copyList k k' (uCount m.bytes) (uReassign m.bytes) (slotsOfList ((t.version k).list (uCount m.bytes))) [] =
      some (ps, t1))
    (hfit : chargesFit t t1 = true) (hres : (ps.all fun p => ((t.version k').list (refCluster p.2)).rstate == 0) = true)
    (hcopy : ((t.holdRef k).holdRef k').copyList k k' (uCount m.bytes) (uReassign m.bytes)
      (slotsOfList ((t.version k).list (uCount m.bytes))) [] = some (ps', t2)) :
    t.runCopy c k m = (t2.releaseRef k').visible c k m [] (copyResult k' ps') := by
  subst hk
  have hwant : t.wantLists (t.ctxTenant c)
      (ps.map fun p => (verKey (k / 4) (((t.version k).succ).getD 0), refCluster p.2)).eraseDups = (0, t) := by
    refine State.wantLists_resident (fun l hl => ?_) _
    obtain ⟨p, hp, rfl⟩ := List.mem_map.mp (List.mem_eraseDups.mp hl)
    exact beq_iff_eq.mp (List.all_eq_true.mp hres p hp)
  unfold State.runCopy
  dsimp only
  rw [htry]
  dsimp only
  rw [if_neg (by rw [hfit]; decide), hwant]
  dsimp only
  rw [hcopy]
  rfl

/-! ### An update at its admission (R159) -/

/-- The opcodes of the updates, each with its command. -/
def updateInstrs (c : Nat) : List (Nat × Instr) :=
  [(0x10, .insert c true), (0x11, .delete c true), (0x12, .rewrite c true), (0x13, .bitsSet c true),
    (0x14, .bitsClear c true), (0x15, .listCopy c)]

theorem exec_update {c op : Nat} {i : Instr} (h : (op, i) ∈ updateInstrs c) (s : State) :
    exec i s = .next (s.updateFront c op true) := by
  simp only [updateInstrs, List.mem_cons, Prod.mk.injEq, List.not_mem_nil, or_false] at h
  obtain ⟨rfl, rfl⟩ | ⟨rfl, rfl⟩ | ⟨rfl, rfl⟩ | ⟨rfl, rfl⟩ | ⟨rfl, rfl⟩ | ⟨rfl, rfl⟩ := h <;> rfl

/-- An update that fails a check ends with the status of that check, and changes no index. -/
theorem leads_update_fails {c op : Nat} {i : Instr} {s t : State} {m : Cmd} (hi : (op, i) ∈ updateInstrs c)
    (hadm : s.admission c op = some (m, t)) (hdef : s.allDefined c = true) (hring : s.toRing c = true)
    (hsingle : dGroup m.bytes = false) (hgroup : t.group? m.seq = none) (hbad : (t.updStatus c m).1 ≠ 0) :
    Leads i s fun u => u.ended c m (t.updStatus c m).1 = true ∧ u.idx = t.idx := by
  have had := (State.admitFront_of_admission hadm (fun m t => (t.updStatus c m).1) (State.admitUpdate true c)).1
  have hend : CmdEnded c m (Res.of (t.updStatus c m).1) t (t.finish c m.seq (Res.of (t.updStatus c m).1)) :=
    State.finish_ended had.cmd (had.toRing.trans hring) _
  have hk : State.admitUpdate true c m t = t.finish c m.seq (Res.of (t.updStatus c m).1) := by
    unfold State.admitUpdate
    rw [hgroup]
    dsimp only
    rw [hsingle, if_neg (by decide)]
    unfold State.runUpdate
    dsimp only
    rw [if_pos hbad, State.endPart_alone hgroup]
  refine ⟨_, exec_update hi s, ?_⟩
  rw [State.updateFront, State.admitFront_ended hadm hdef hk hend rfl]
  exact ⟨hend.ended_status, (State.finish_keeps ..).parts .idx (by decide +kernel)⟩

/-- What copying does before the visibility point. -/
def State.copied_touch : Nat := State.copyList_touch ||| State.releaseRef_touch

/-- A LIST_COPY whose slots all fit (R170, R174). -/
theorem leads_listCopy {c k k' : Nat} {s t t1 t2 : State} {m : Cmd} {ps ps' : List (Nat × Nat)}
    (hadm : s.admission c 0x15 = some (m, t)) (hdef : s.allDefined c = true) (hring : s.toRing c = true)
    (hfits : t.updateFits c 0x15 m = true) (hver : k = (t.updStatus c m).2)
    (hk : k' = verKey (k / 4) (((t.version k).succ).getD 0))
    (htry : t.copyList k k' (uCount m.bytes) (uReassign m.bytes) (slotsOfList ((t.version k).list (uCount m.bytes))) [] =
      some (ps, t1))
    (hfit : chargesFit t t1 = true) (hres : (ps.all fun p => ((t.version k').list (refCluster p.2)).rstate == 0) = true)
    (hcopy : ((t.holdRef k).holdRef k').copyList k k' (uCount m.bytes) (uReassign m.bytes)
      (slotsOfList ((t.version k).list (uCount m.bytes))) [] = some (ps', t2)) :
    Leads (.listCopy c) s fun u => u.ended c m 0 = true ∧ u.reg .HQ_UPD_CMDS 0 0 = s.reg .HQ_UPD_CMDS 0 0 + 1 ∧
      u.reg .HQ_UPD_COPIED 0 0 = s.reg .HQ_UPD_COPIED 0 0 + BitVec.ofNat 64 ps'.length := by
  have had := (State.admitFront_of_admission hadm (fun m t => (t.updStatus c m).1) (State.admitUpdate true c)).1
  simp only [State.updateFits, Bool.and_eq_true, beq_iff_eq, Bool.not_eq_true', Option.isNone_iff_eq_none] at hfits
  obtain ⟨⟨⟨⟨hop, hsingle⟩, hgroup⟩, -⟩, hok⟩ := hfits
  have hheld : Keeps State.holdRef_touch t ((t.holdRef k).holdRef k') :=
    (State.holdRef_keeps ..).after (State.holdRef_keeps ..) (by decide +kernel)
  have hlist : Keeps State.copyList_touch ((t.holdRef k).holdRef k') t2 := KeepsP.get hcopy (State.copyList_keeps _ _ _ _ _ _ _)
  have hcopied : Keeps State.copied_touch t (t2.releaseRef k') :=
    ((hheld.widen (by decide +kernel)).after hlist (by decide +kernel)).after (State.releaseRef_keeps ..) (by decide +kernel)
  obtain ⟨d, hd, hcount⟩ := State.copyList_counts hcopy
  obtain rfl : ps'.length = d := by rw [hd, List.length_nil, Nat.zero_add]
  have hcmds := hcopied.regs .HQ_UPD_CMDS 0 0 (by decide +kernel)
  have hcopies : (t2.releaseRef k').reg .HQ_UPD_COPIED 0 0 =
      t.reg .HQ_UPD_COPIED 0 0 + BitVec.ofNat 64 ps'.length := by
    rw [(State.releaseRef_keeps ..).regs _ _ _ (by decide +kernel), hcount, hheld.regs _ _ _ (by decide +kernel)]
  have hrun : State.admitUpdate true c m t = (t2.releaseRef k').visible c k m [] (copyResult k' ps') := by
    unfold State.admitUpdate
    rw [hgroup]
    dsimp only
    rw [hsingle, if_neg (by decide)]
    unfold State.runUpdate
    dsimp only
    rw [if_neg (by rw [hok]; decide), if_pos hop, ← hver]
    exact State.runCopy_copies c hk htry hfit hres hcopy
  generalize t2.releaseRef k' = u at hcopied hcmds hcopies hrun
  obtain ⟨hvis, hend⟩ := State.visible_ended ((hcopied.cmd? (by decide +kernel) c m.seq).trans had.cmd)
    ((hcopied.toRing (by decide +kernel) (by decide +kernel) c).trans (had.toRing.trans hring))
    ((State.group?_congr (hcopied.parts .hq (by decide +kernel)) _).trans hgroup) k [] (copyResult k' ps')
  have hat := State.atVisible_keeps k m [] (copyResult k' ps') u
  have hhq : (u.atVisible k m [] (copyResult k' ps')).hq = t.hq :=
    (hat.parts .hq (by decide +kernel)).trans (hcopied.parts .hq (by decide +kernel))
  have hfin := State.finish_keeps c m.seq (copyResult k' ps') (u.atVisible k m [] (copyResult k' ps'))
  refine ⟨_, exec_update (c := c) (op := 0x15) (by simp [updateInstrs]) s, ?_⟩
  rw [State.updateFront, State.admitFront_ended hadm hdef (hrun.trans hvis) hend hhq]
  refine ⟨hend.ended_status, ?_, ?_⟩
  · rw [hfin.regs _ _ _ (by decide +kernel), State.cmds_atVisible, hcmds, had.keeps.regs _ _ _ (by decide +kernel)]
  · rw [hfin.regs _ _ _ (by decide +kernel), hat.regs _ _ _ (by decide +kernel), hcopies,
      had.keeps.regs _ _ _ (by decide +kernel)]

/-- Settles O29: copies, durable records, retired slots and late ones come out as their counters say, and an update that
fails a check ends with it. -/
theorem recordsRetirementsAndCopies : Obligations.RecordsRetirementsAndCopies := by
  unfold Obligations.RecordsRetirementsAndCopies
  refine ⟨?_, ?_, ?_, ?_, ?_⟩
  · intro c s m t k k' ps t1 ps' t2 hadm hdef hring hfits hver hk htry hfit hres hcopy
    exact leads_listCopy hadm hdef hring hfits hver hk htry hfit hres hcopy
  · intro c op i s m t hi hadm hdef hring hsingle hgroup hbad
    exact leads_update_fails hi hadm hdef hring hsingle hgroup hbad
  · intro ch s seq i sc rest j n hack hj hn
    exact leads_flashRecordDurable hack hj hn
  · intro s r rest hq hgone
    exact leads_retiredSlotTombstone hq hgone
  · intro s r hr
    exact leads_retireLateExpiry hr

end Sys2Proof.Machine
end

section
/-! SUPPORT. What posting pairs and settling scans leave of the scan stage's tables (R63 to R66, R84, R105, R106, R110). -/

namespace Sys2Proof.Machine

theorem State.reg_bump_other (s : State) {r q : RegName} (h : q ≠ r) (i j a b n : Nat) :
    (s.bump r i j n).reg q a b = s.reg q a b := State.reg_setReg_other s h ..

/-- What posting pairs and settling scans leave alone: the tasks, the partial lists, the probe units, and of each query that it
is in its probe or not, and its ranks. -/
noncomputable def Queries.scanView (x : Queries) :
    List Task × Tbl (List Partial) × Tbl ProbeUnit × (Nat → Option (Bool × List Nat)) :=
  (x.tasks, x.partials, x.probe, fun q => (x.queries.get? q).map fun y => (y.inProbe, y.ranks))

/-- From `s` to `t` pairs have been posted and scans have gone on. -/
def State.Gathered (s t : State) : Prop := t.qry.scanView = s.qry.scanView

theorem State.Gathered.trans {s t u : State} (h : s.Gathered t) (k : t.Gathered u) : s.Gathered u := Eq.trans k h

theorem State.gathered_of_qry {s t : State} (h : t.qry = s.qry) : s.Gathered t := congrArg Queries.scanView h

theorem State.Gathered.ite {c : Prop} [Decidable c] {s t u : State} (h : s.Gathered t) (k : s.Gathered u) :
    s.Gathered (if c then t else u) := by
  split
  · exact h
  · exact k

/-- What is done with a query, if it is there. -/
theorem State.Gathered.ofQuery {s : State} {q : Nat} {f : Query → State} (h : ∀ x, s.query q = some x → s.Gathered (f x)) :
    s.Gathered (match s.query q with | none => s | some x => f x) := by
  cases hx : s.query q with
  | none => rfl
  | some x => exact h x hx

theorem State.gathered_setQuery {s : State} {q : Nat} {x y : Query} (hx : s.query q = some x)
    (h : (y.inProbe, y.ranks) = (x.inProbe, x.ranks)) : s.Gathered (s.setQuery q y) := by
  refine congrArg (fun f => (s.qry.tasks, s.qry.partials, s.qry.probe, f)) (funext fun p => ?_)
  by_cases hp : p = q
  · show ((s.setQuery q y).query p).map _ = (s.query p).map _
    rw [hp, State.query_setQuery_self, hx, Option.map_some, h, Option.map_some]
  · exact congrArg (Option.map _) (State.query_setQuery_ne s hp y)

theorem State.gathered_bump (r : RegName) (i j n : Nat) (s : State) : s.Gathered (s.bump r i j n) := rfl

theorem State.gathered_trigger (die : Nat) (k : GKey) (tr : Trig) (s : State) : s.Gathered (s.trigger die k tr) :=
  State.Gathered.ite rfl rfl

theorem State.gathered_checkQueue (die : Nat) (k : GKey) (s : State) : s.Gathered (s.checkQueue die k) := by
  unfold State.checkQueue
  extract_lets g u
  have hu : s.Gathered u := State.Gathered.ite (State.gathered_trigger ..) rfl
  cases lowestLb g.pairs with
  | none => exact hu
  | some p => exact State.Gathered.ite (hu.trans (State.gathered_trigger ..)) hu

theorem State.gathered_checkPressure (die pn : Nat) (s : State) : s.Gathered (s.checkPressure die pn) := by
  unfold State.checkPressure
  refine State.Gathered.ite ?_ rfl
  extract_lets oldest
  generalize s.qry.gqueues.find? _ = g
  cases g with
  | none => rfl
  | some g => exact State.gathered_trigger ..

theorem State.gathered_raise (r : RegName) (i j n : Nat) (s : State) : s.Gathered (s.raise r i j n) :=
  State.Gathered.ite rfl rfl

theorem State.gathered_joinQueue (q rank die : Nat) (k : GKey) (s : State) : s.Gathered (s.joinQueue q rank die k) := by
  unfold State.joinQueue
  refine State.Gathered.ofQuery fun x _ => ?_
  extract_lets w late early byDl p g u v
  have hu : s.Gathered u := rfl
  exact ((hu.trans (State.gathered_raise ..)).trans (State.gathered_checkQueue ..)).trans (State.gathered_checkPressure ..)

theorem State.gathered_modQuery {f : Query → Query} (h : ∀ x, ((f x).inProbe, (f x).ranks) = (x.inProbe, x.ranks)) (q : Nat)
    (s : State) : s.Gathered (s.modQuery q f) := by
  unfold State.modQuery
  cases hx : s.query q with
  | none => rfl
  | some x => exact State.gathered_setQuery hx (h x)

theorem State.gathered_markReport (q rank n : Nat) (s : State) : s.Gathered (s.markReport q rank n) := by
  refine State.gathered_modQuery (fun _ => ?_) q s
  exact (apply_ite (fun y : Query => (y.inProbe, y.ranks)) ..).trans (ite_self _)

theorem State.gathered_pairGone (q rank : Nat) (s : State) : s.Gathered (s.pairGone q rank) :=
  State.Gathered.ofQuery fun _ hx => (State.gathered_setQuery hx (by rfl)).trans (State.gathered_markReport ..)

theorem State.gathered_postPair (rank q : Nat) (s : State) : s.Gathered (s.postPair rank q) := by
  unfold State.postPair
  refine State.Gathered.ofQuery fun x hx => ?_
  extract_lets cl key heat u l v h w
  have hlist : (s.modList x.ver cl heat).qry = s.qry := (State.modList_keeps ..).parts .qry rfl
  have hu : s.Gathered u :=
    (State.gathered_of_qry hlist).trans (State.gathered_setQuery ((congrArg (·.queries.get? q) hlist).trans hx) (by rfl))
  have hv : s.Gathered v := hu.trans (State.gathered_of_qry ((State.demand_keeps ..).parts .qry (by decide +kernel)))
  exact State.Gathered.ite (hu.trans (State.gathered_pairGone ..))
    (State.Gathered.ite (hv.trans (State.gathered_joinQueue ..)) hv)

theorem State.gathered_postShadow (q n : Nat) (s : State) : s.Gathered (s.postShadow q n) := by
  induction n generalizing s with
  | zero => rfl
  | succ n ih =>
    exact State.Gathered.ofQuery fun x hx => State.Gathered.ite
      (((State.gathered_setQuery hx (by rfl)).trans (State.gathered_postPair ..)).trans (ih _)) rfl

theorem State.gathered_flush (q : Nat) (s : State) : s.Gathered (s.flush q) :=
  State.Gathered.ofQuery fun _ hx => State.gathered_setQuery hx (by rfl)

theorem State.gathered_settleScan (q n : Nat) (s : State) : s.Gathered (s.settleScan q n) := by
  induction n generalizing s with
  | zero => rfl
  | succ n ih =>
    refine State.Gathered.ofQuery fun x hx => State.Gathered.ite (State.Gathered.ite (State.Gathered.ite rfl
      ((State.gathered_postShadow ..).trans (ih _))) (State.Gathered.ite ?_ (State.gathered_flush ..))) rfl
    refine .trans (forEach_keeps (P := s.Gathered) (fun r _ hu => hu.trans (State.gathered_postPair r q _)) _ ?_) (ih _)
    exact (((State.gathered_setQuery hx (by rfl)).trans (State.gathered_bump ..)).trans (State.gathered_bump ..)).trans
      (State.gathered_bump ..)

theorem State.gathered_report (q rank n : Nat) (s : State) : s.Gathered (s.report q rank n) :=
  (State.gathered_markReport ..).trans (State.gathered_settleScan ..)

theorem State.gathered_postFirst (q : Nat) (s : State) : s.Gathered (s.postFirst q) :=
  State.Gathered.ofQuery fun _ _ => State.Gathered.ite ((State.gathered_postShadow ..).trans (State.gathered_settleScan ..))
    ((forEach_keeps (P := s.Gathered) (fun r _ hu => hu.trans (State.gathered_postPair r q _)) _ (Eq.refl _)).trans
      (State.gathered_settleScan ..))

end Sys2Proof.Machine
end

section
/-! TASK_COMPLETE, TASK_CHECKPOINT and CHECKPOINT_DURABLE: the partial lists of a task that is done, and the tasks that a leaving
band gives back to their gathering queues (R68, R83, R84, R105). -/

namespace Sys2Proof.Machine

theorem not_beq_of_mem_filter_bne {α : Type} {f : α → Nat} {k : Nat} {xs : List α} {y : α}
    (h : y ∈ xs.filter (f · != k)) : ¬(f y == k) = true := fun he => bne_iff_ne.mp (List.mem_filter.mp h).2 (beq_iff_eq.mp he)

/-! ### TASK_COMPLETE (R83, R84, R105) -/

/-- The rows of the live lanes of a task: its partial lists. -/
noncomputable def Task.partials (y : Task) : List Partial :=
  (y.lanes.filter (·.active)).map fun l => { die := dieOf y.band, band := y.band, q := l.q, rank := l.rank, elems := l.row }

/-- What the live lanes of a task allowed, in all. -/
noncomputable def Task.allowed (y : Task) : Nat := (y.lanes.filter (·.active)).foldl (fun n l => n + l.allowed) 0

/-- A task has left its walker context, its rows are on their way to the die merge unit, and what its lanes allowed is
counted. -/
noncomputable def State.delivered (k : Nat) (y : Task) (s : State) : State :=
  let s := (s.dropTask k).dropHold (keyVer y.key) y.key.cluster
  let s := { s with qry := { s.qry with partials := s.qry.partials.upd [] (dieOf y.band) (· ++ y.partials) } }
  s.bump .BD_FLT_ALLOWED y.band 0 y.allowed

/-- The live lanes of a task report. -/
noncomputable def State.laneReports (y : Task) (s : State) : State :=
  forEach (y.lanes.filter (·.active)) (fun l u => u.report l.q l.rank l.allowed) s

theorem exec_taskComplete {k : Nat} {s : State} {y : Task} (hy : s.task? k = some y) (hdrain : y.st = .draining)
    (hred : ((s.qry.redQ.getD [] y.band).any (·.1 == k)) = false) :
    exec (.taskComplete k) s = .next (((s.delivered k y).laneReports y).noteBand y.band) := by
  show (match s.task? k with
    | none => (.next s : Out)
    | some t => if t.st ≠ WState.draining ∨ (s.qry.redQ.getD [] t.band).any (·.1 == k) then .next s
      else .next (((s.delivered k t).laneReports t).noteBand t.band)) = _
  rw [hy]
  exact if_neg (by rw [hdrain, hred]; decide)

/-- A task that has been delivered is gone, and its partial lists stand with those of its die. -/
theorem State.qry_delivered (k : Nat) (y : Task) (s : State) : (s.delivered k y).task? k = none ∧
    (s.delivered k y).qry.partials.getD [] (dieOf y.band) = s.qry.partials.getD [] (dieOf y.band) ++ y.partials := by
  have hdrop : ((s.dropTask k).dropHold (keyVer y.key) y.key.cluster).qry = (s.dropTask k).qry :=
    (State.dropHold_keeps ..).parts .qry rfl
  constructor
  · exact (State.task?_congr (congrArg Queries.tasks hdrop) k).trans
      (List.find?_eq_none.mpr fun x hx => not_beq_of_mem_filter_bne hx)
  · exact (Tbl.getD_put_self ..).trans
      (congrArg (fun x : Queries => x.partials.getD [] (dieOf y.band) ++ y.partials) hdrop :)

/-- TASK_COMPLETE of a draining task with no reduction outstanding. -/
theorem leads_taskComplete {k : Nat} {s : State} {y : Task} (hy : s.task? k = some y) (hdrain : y.st = .draining)
    (hred : ((s.qry.redQ.getD [] y.band).any (·.1 == k)) = false) :
    Leads (.taskComplete k) s fun t => t.task? k = none ∧
      t.qry.partials.getD [] (dieOf y.band) = s.qry.partials.getD [] (dieOf y.band) ++ y.partials ∧
      t.reg .BD_FLT_ALLOWED y.band 0 = s.reg .BD_FLT_ALLOWED y.band 0 + BitVec.ofNat 64 y.allowed := by
  have hdelivered := State.qry_delivered k y s
  have hnote := State.noteBand_keeps y.band ((s.delivered k y).laneReports y)
  have hreport : Keeps State.report_touch (s.delivered k y) ((s.delivered k y).laneReports y) :=
    Keeps.forEach _ _ (fun _ _ => State.report_keeps ..) Keeps.rfl
  have hview : (s.delivered k y).Gathered (((s.delivered k y).laneReports y).noteBand y.band) :=
    .trans (forEach_keeps (P := (s.delivered k y).Gathered) (fun _ _ hu => hu.trans (State.gathered_report ..)) _ rfl)
      (State.gathered_of_qry (hnote.parts .qry rfl))
  refine ⟨_, exec_taskComplete hy hdrain hred, ?_, ?_, ?_⟩
  · exact (State.task?_congr (congrArg Prod.fst hview) k).trans hdelivered.1
  · exact (congrArg (fun v => v.2.1.getD [] (dieOf y.band)) hview).trans hdelivered.2
  · rw [hnote.regs _ _ _ rfl, hreport.regs _ _ _ (by decide +kernel)]
    exact (State.reg_bump_self ..).trans (congrArg (· + _)
      ((State.dropHold_keeps (keyVer y.key) y.key.cluster (s.dropTask k)).regs .BD_FLT_ALLOWED _ _ rfl :))

/-! ### A running task on a leaving band (R68) -/

/-- From `y` to `z` a task has kept its band, its place in its list and its lanes. -/
def Task.SamePlace (y z : Task) : Prop := z.band = y.band ∧ z.nextSeq = y.nextSeq ∧ z.lanes.length = y.lanes.length

theorem Task.SamePlace.trans {x y z : Task} (h : x.SamePlace y) (k : y.SamePlace z) : x.SamePlace z :=
  ⟨k.1.trans h.1, k.2.1.trans h.2.1, k.2.2.trans h.2.2⟩

/-- One lane of the task numbered `k`, as it stands, is reduced. -/
noncomputable def State.reduceAt (k i : Nat) (s : State) : State :=
  match s.task? k with
  | some y => s.reduceLane y i
  | none => s

theorem State.reduceAt_keeps (k i : Nat) (s : State) : Keeps State.reduceLane_touch s (s.reduceAt k i) := by
  unfold State.reduceAt
  cases s.task? k with
  | none => exact Keeps.rfl
  | some y => exact State.reduceLane_keeps ..

theorem State.task?_reduceAt {s : State} {k : Nat} {y : Task} (h : s.task? k = some y) (i : Nat) :
    ∃ z, (s.reduceAt k i).task? k = some z ∧ y.SamePlace z := by
  have hlane : s.reduceAt k i = match y.lanes[i]? with
      | none => s
      | some l => (s.reduceCounted y l).setTask { y with lanes := y.lanes.set i (s.reduced y l) } := by
    rw [State.reduceAt, h]
    rfl
  rw [hlane]
  cases y.lanes[i]? with
  | none => exact ⟨y, h, rfl, rfl, rfl⟩
  | some l =>
    exact ⟨_, State.task?_setTask (s := s.reduceCounted y l) (Option.isSome_of_eq_some h) (State.id_of_task? (t := y) h),
      rfl, rfl, List.length_set⟩

/-- The live lanes of a task are reduced, and none of its lanes waits for a reduction any more. -/
noncomputable def State.rowsReduced (k : Nat) (y : Task) (s : State) : State :=
  let s := forEach ((List.range y.lanes.length).filter fun i => (y.lanes[i]?).any (·.active)) (State.reduceAt k) s
  { s with qry := { s.qry with redQ := s.qry.redQ.upd [] y.band (·.filter (·.1 != k)) } }

theorem State.rowsReduced_keeps (k : Nat) (y : Task) (s : State) : Keeps State.reduceLane_touch s (s.rowsReduced k y) :=
  Keeps.qry (Keeps.forEach _ _ (State.reduceAt_keeps k) Keeps.rfl) rfl

/-- A task whose rows are reduced is there still, in its place, and waits for no reduction. -/
theorem State.task?_rowsReduced {s : State} {k : Nat} {y : Task} (h : s.task? k = some y) :
    (∃ z, (s.rowsReduced k y).task? k = some z ∧ y.SamePlace z) ∧
      (((s.rowsReduced k y).qry.redQ.getD [] y.band).any (·.1 == k)) = false := by
  constructor
  · refine forEach_keeps (P := fun u => ∃ z, u.task? k = some z ∧ y.SamePlace z) (fun i u hu => ?_) _ ⟨y, h, rfl, rfl, rfl⟩
    obtain ⟨x, hx, hplace⟩ := hu
    obtain ⟨z, hz, hnext⟩ := State.task?_reduceAt hx i
    exact ⟨z, hz, hplace.trans hnext⟩
  · exact (congrArg (List.any · _) (Tbl.getD_put_self ..)).trans
      (List.any_eq_false.mpr fun e he => not_beq_of_mem_filter_bne (f := Prod.fst) he)

/-- A task as a checkpoint, which holds no tile. -/
noncomputable def Task.checkpoint (y : Task) : Task := { y with st := .checkpointed, bound := 0 }

/-- A task becomes a checkpoint; it is counted, and the lanes it preempts are counted for its tenant (R68, R312). -/
noncomputable def State.checkpointed (k : Nat) (y : Task) (s : State) : State :=
  let s := (s.setTask ((s.task? k).getD y).checkpoint).noteBand y.band
  (s.bump .BD_CHECKPOINTS y.band 0 1).bump .TN_ACC_PREEMPT (s.partTenant y.key.pn) 0 (y.lanes.filter (·.active)).length

theorem State.qry_checkpointed (k : Nat) (y : Task) (s : State) :
    (s.checkpointed k y).qry = (s.setTask ((s.task? k).getD y).checkpoint).qry :=
  (State.qry_bump ..).trans ((State.qry_bump ..).trans ((State.noteBand_keeps ..).parts .qry rfl))

theorem State.checkpoints_checkpointed (k : Nat) (y : Task) (s : State) :
    (s.checkpointed k y).reg .BD_CHECKPOINTS y.band 0 = s.reg .BD_CHECKPOINTS y.band 0 + 1 :=
  (State.reg_bump_other _ (by decide) ..).trans ((State.reg_bump_self ..).trans (congrArg (· + 1)
    ((State.noteBand_keeps y.band (s.setTask ((s.task? k).getD y).checkpoint)).regs _ _ _ rfl)))

theorem exec_taskCheckpoint {k : Nat} {s : State} {y : Task} (hy : s.task? k = some y) (hleave : s.bandLeaving y.band = true) :
    exec (.taskCheckpoint k) s = match y.st with
      | .loading => Host.Outcome.next (s.giveBack (s.rewound y))
      | .running => Host.Outcome.next ((s.rowsReduced k y).checkpointed k y)
      | _ => Host.Outcome.next s := by
  show (match s.task? k with
    | none => (.next s : Out)
    | some t => if !s.bandLeaving t.band then Host.Outcome.next s else match t.st with
      | .loading => Host.Outcome.next (s.giveBack (s.rewound t))
      | .running => Host.Outcome.next ((s.rowsReduced k t).checkpointed k t)
      | _ => Host.Outcome.next s) = _
  rw [hy]
  exact if_neg (by rw [hleave]; decide)

/-- TASK_CHECKPOINT of a running task. -/
theorem leads_taskCheckpoint_running {k : Nat} {s : State} {y : Task} (hy : s.task? k = some y)
    (hleave : s.bandLeaving y.band = true) (hrun : y.st = .running) :
    Leads (.taskCheckpoint k) s fun t =>
      (∃ z, t.task? k = some z ∧ z.st = .checkpointed ∧ z.bound = 0 ∧ y.SamePlace z) ∧
      ((t.qry.redQ.getD [] y.band).any (·.1 == k)) = false ∧
      t.reg .BD_CHECKPOINTS y.band 0 = s.reg .BD_CHECKPOINTS y.band 0 + 1 := by
  have hreduced := State.task?_rowsReduced hy
  obtain ⟨z, hz, hplace⟩ := hreduced.1
  have hexec : exec (.taskCheckpoint k) s = .next ((s.rowsReduced k y).checkpointed k y) :=
    (exec_taskCheckpoint hy hleave).trans (by rw [hrun])
  have hqry := State.qry_checkpointed k y (s.rowsReduced k y)
  refine ⟨_, hexec, ⟨z.checkpoint, ?_, rfl, rfl, hplace⟩, ?_, ?_⟩
  · rw [State.task?_congr (congrArg Queries.tasks hqry), hz]
    exact State.task?_setTask (Option.isSome_of_eq_some hz) (State.id_of_task? (t := z) hz)
  · rw [hqry]
    exact hreduced.2
  · rw [State.checkpoints_checkpointed, (State.rowsReduced_keeps ..).regs _ _ _ rfl]

/-! ### Tasks given back to their queues (R68) -/

theorem State.gq_of (s : State) (die : Nat) (k : GKey) : (s.gq die k).die = die ∧ (s.gq die k).key = k := by
  unfold State.gq
  cases h : s.qry.gqueues.find? fun g => g.die == die && g.key == k with
  | none => exact ⟨rfl, rfl⟩
  | some g =>
    have hg := List.find?_some h
    rwa [Bool.and_eq_true, beq_iff_eq, beq_iff_eq] at hg

theorem State.gq_congr {s t : State} (h : t.qry.gqueues = s.qry.gqueues) (die : Nat) (k : GKey) : t.gq die k = s.gq die k := by
  unfold State.gq
  rw [h]

/-- A resumable task stands in its queue. -/
theorem State.mem_resumable_setGq {g : GQueue} {die id : Nat} {k : GKey} (hg : g.die = die ∧ g.key = k) (h : id ∈ g.resumable)
    (s : State) : id ∈ ((s.setGq g).gq die k).resumable := by
  obtain ⟨rfl, rfl⟩ := hg
  show id ∈ (((if g.pairs = [] ∧ g.resumable = [] then s.qry.gqueues.filter fun h => !(h.die == g.die && h.key == g.key)
    else (s.qry.gqueues.filter fun h => !(h.die == g.die && h.key == g.key)) ++ [g]).find?
      fun h => h.die == g.die && h.key == g.key).getD { die := g.die, key := g.key }).resumable
  rw [if_neg fun e => List.ne_nil_of_mem h e.2, List.find?_append, List.find?_eq_none.mpr, List.find?_singleton, beq_self_eq_true,
    beq_self_eq_true]
  · exact h
  · exact fun x hx => Bool.eq_false_iff.mp ((Bool.not_eq_true' _).mp (List.mem_filter.mp hx).2)

/-- A task that stands on no band. -/
noncomputable def Task.given (y : Task) : Task := { y with band := noBand, bound := 0, st := .checkpointed }

/-- A task that is given back stands on no band, resumable in its gathering queue. -/
theorem State.giveBack_resumable {s : State} {k : Nat} {y : Task} (h : (s.task? k).isSome = true) (hid : y.id = k) :
    (s.giveBack y).task? k = some y.given ∧ k ∈ ((s.giveBack y).gq y.die y.key).resumable ∧
      Frame [.qry] [.BD_STATUS] s (s.giveBack y) := by
  subst hid
  have hnote := (State.noteBand_keeps y.band ((s.setTask y.given).setGq
    { s.gq y.die y.key with resumable := (s.gq y.die y.key).resumable ++ [y.id] })).parts .qry rfl
  refine ⟨(State.task?_congr (congrArg Queries.tasks hnote) y.id).trans (State.task?_setTask h rfl), ?_,
    (State.giveBack_keeps y s).frame rfl⟩
  exact (congrArg (fun g : GQueue => y.id ∈ g.resumable) (State.gq_congr (congrArg Queries.gqueues hnote) y.die y.key)).mpr
    (State.mem_resumable_setGq (by exact State.gq_of s ..) (List.mem_append_right _ List.mem_cons_self) _)

/-- CHECKPOINT_DURABLE of a checkpointed task that stands on a band. -/
theorem leads_checkpointDurable {k : Nat} {s : State} {y : Task} (hy : s.task? k = some y) (hck : y.st = .checkpointed)
    (hband : y.band ≠ noBand) : Leads (.checkpointDurable k) s fun t => t.task? k = some y.given ∧
      k ∈ (t.gq y.die y.key).resumable ∧ Frame [.qry] [.BD_STATUS] s t := by
  refine ⟨_, ?_, State.giveBack_resumable (Option.isSome_of_eq_some hy) (State.id_of_task? hy)⟩
  show (match s.task? k with
    | some t => if t.st = WState.checkpointed ∧ t.band ≠ noBand then Host.Outcome.next (s.giveBack t) else (.next s : Out)
    | none => .next s) = _
  rw [hy]
  exact if_pos ⟨hck, hband⟩

/-- TASK_CHECKPOINT of a task in LOADING: it begins anew, each lane with an empty row and τ = B (R54, R68; log entry 65). -/
theorem leads_taskCheckpoint_loading {k : Nat} {s : State} {y : Task} (hy : s.task? k = some y)
    (hleave : s.bandLeaving y.band = true) (hload : y.st = .loading) :
    Leads (.taskCheckpoint k) s fun t =>
      (∃ z, t.task? k = some z ∧ z.band = noBand ∧ z.bound = 0 ∧ z.st = .checkpointed ∧ z.key = y.key ∧ z.nextSeq = 0 ∧
        z.lanes.length = y.lanes.length ∧
        ∀ l ∈ z.lanes, l.row = [] ∧ l.allowed = 0 ∧ l.tau = s.codeBits y.key.index) ∧
      k ∈ (t.gq y.die y.key).resumable ∧ Frame [.qry] [.BD_STATUS] s t := by
  have hback := State.giveBack_resumable (y := s.rewound y) (Option.isSome_of_eq_some hy) (State.id_of_task? (t := y) hy)
  refine ⟨_, (exec_taskCheckpoint hy hleave).trans (by rw [hload]),
    ⟨_, hback.1, rfl, rfl, rfl, rfl, rfl, List.length_map _, fun l hl => ?_⟩, hback.2⟩
  obtain ⟨l', -, rfl⟩ := List.mem_map.mp hl
  exact ⟨rfl, rfl, rfl⟩

/-- Settles O21: a draining task hands on the rows of its live lanes; a checkpoint leaves a running task where it stood, and the
tasks that are given back are resumable. That one in LOADING begins anew with empty rows, a resumed one too, is log entry 65. -/
theorem tasksEndOrAreCheckpointed : Obligations.TasksEndOrAreCheckpointed :=
  ⟨@leads_taskComplete, @leads_taskCheckpoint_running, @leads_taskCheckpoint_loading, @leads_checkpointDurable⟩

end Sys2Proof.Machine
end

section
/-! QUERY_ENCODE, PROBE_PASS_LAUNCH and PROBE_PASS_COMPLETE: the code that an encode gives its query, the batch that a probe pass
takes, and the ranks that its queries know at its end (R70, R71, R72, R126, R127). -/

namespace Sys2Proof.Machine

/-! ### QUERY_ENCODE (R126, R127) -/

/-- A binary code is a matter of the code length, the place of the matrix and the width of its input, and DRAM. -/
theorem State.encodeCode_loadMatrix (die k : Nat) (v : List (BitVec 16)) (s : State) :
    (s.loadMatrix die k).encodeCode die k v = s.encodeCode die k v := by
  have hload := State.loadMatrix_keeps die k s
  have hram : (s.loadMatrix die k).dram = s.dram := hload.parts .dram rfl
  generalize hcode : s.encodeCode die k v = code
  unfold State.encodeCode State.project State.threshold State.rdDram State.codeBits
  rw [hload.fld (f := fHQ_IDX_CTL_CODE_LEN) rfl, hload.fld (f := fPJ_MAT_MAT_ADDR) rfl,
    hload.fld (f := fPJ_MAT_D_IN) rfl, hram]
  exact hcode

/-- From `s` to `t` an encode has been counted, and its query has the code of the matrix and is still of its home die. -/
def State.Encoded (s : State) (die q : Nat) (x : Query) (t : State) : Prop :=
  t.reg .PJ_ENC_QUERY die 0 = s.reg .PJ_ENC_QUERY die 0 + 1 ∧
    ∃ y, t.query q = some y ∧ y.code = (s.encodeCode die x.ver x.fp16).1 ∧ y.home = x.home

theorem State.encoded_setQuery {die q : Nat} {x y : Query} {s t : State}
    (ht : t.reg .PJ_ENC_QUERY die 0 = s.reg .PJ_ENC_QUERY die 0 + 1) (hy : y.code = (s.encCode die x.ver x.fp16).1)
    (hhome : y.home = x.home) : s.Encoded die q x (t.setQuery q y) := by
  have hcode : (s.encCode die x.ver x.fp16).1 = (s.encodeCode die x.ver x.fp16).1 :=
    congrArg Prod.fst (State.encodeCode_loadMatrix die x.ver x.fp16 s)
  exact ⟨ht, y, State.query_setQuery_self .., hy.trans hcode, hhome⟩

theorem State.encoded_encodeFor (die q : Nat) (x : Query) (s : State) : s.Encoded die q x (s.encodeFor die q x) := by
  have hcount := (State.reg_bump_self .PJ_ENC_QUERY die 0 1 (s.encCode die x.ver x.fp16).2).trans
    (congrArg (· + 1) ((State.encCode_keeps die x.ver x.fp16 s).regs .PJ_ENC_QUERY die 0 rfl))
  refine iteInduction (motive := s.Encoded die q x) (fun _ => ?_) fun _ => ?_
  · exact State.encoded_setQuery hcount rfl rfl
  · exact State.encoded_setQuery
      (.trans ((State.encQuery_keeps die x.ver x.key x.fp16 _).regs .PJ_ENC_QUERY die 0 rfl) hcount) rfl rfl

/-- A query that waits in the probe unit. -/
noncomputable def Query.probing (x : Query) : Query := { x with stage := .probe }

/-- A query waits in the probe unit of its home die from now on. -/
noncomputable def State.probing (q : Nat) (x : Query) (s : State) : State :=
  let s := s.setQuery q x.probing
  { s with qry := { s.qry with probe := s.qry.probe.upd {} x.home fun u => { u with waiting := u.waiting ++ [(q, s.now)] } } }

theorem State.joinProbe_of_query {q : Nat} {x : Query} {s : State} (h : s.query q = some x) : s.joinProbe q = s.probing q x := by
  show (match s.query q with | none => s | some x => s.probing q x) = _
  rw [h]

theorem State.waiting_probing (q : Nat) (x : Query) (s : State) :
    (q, s.now) ∈ ((s.probing q x).qry.probe.getD {} x.home).waiting :=
  (congrArg (fun u : ProbeUnit => (q, s.now) ∈ u.waiting) (Tbl.getD_put_self ..)).mpr
    (List.mem_append_right _ List.mem_cons_self)

/-- A query leaves the encode queue of a die. -/
noncomputable def State.encodeTaken (die q : Nat) (s : State) : State :=
  { s with qry := { s.qry with encodeQ := s.qry.encodeQ.upd [] die (·.filter (· != q)) } }

theorem exec_queryEncode {die q : Nat} {s : State} {x : Query} (hreset : s.dieReset die = false) (hq : s.nextEncode die = some q)
    (hx : s.query q = some x) (halone : x.group = none) :
    exec (.queryEncode die) s = .next (((s.encodeTaken die q).encodeFor die q x).joinProbe q) := by
  show Host.Outcome.next (if s.dieReset die then s else match s.nextEncode die with
    | none => s
    | some q => match s.query q with
      | none => s.encodeTaken die q
      | some x => match x.group with
        | some g => (((s.encodeTaken die q).encodeFor die q x).joinProbe q).fanOutSearch g
        | none => ((s.encodeTaken die q).encodeFor die q x).joinProbe q) = _
  rw [hreset, hq]
  dsimp only
  rw [hx]
  dsimp only
  rw [halone]
  rfl

/-- QUERY_ENCODE of a query that is no group search. -/
theorem leads_queryEncode {die : Nat} {s : State} {q : Nat} {x : Query} (hreset : s.dieReset die = false)
    (hq : s.nextEncode die = some q) (hx : s.query q = some x) (halone : x.group = none) :
    Leads (.queryEncode die) s fun t => t.reg .PJ_ENC_QUERY die 0 = s.reg .PJ_ENC_QUERY die 0 + 1 ∧
      (q, s.now) ∈ (t.qry.probe.getD {} x.home).waiting ∧
      ∃ y, t.query q = some y ∧ y.stage = .probe ∧ y.code = (s.encodeCode die x.ver x.fp16).1 := by
  have hencoded := State.encoded_encodeFor die q x (s.encodeTaken die q)
  have hnow : ((s.encodeTaken die q).encodeFor die q x).now = s.now := (State.encodeFor_keeps ..).parts .now rfl
  obtain ⟨y, hy, hcode, hhome⟩ := hencoded.2
  have hwait := State.waiting_probing q y ((s.encodeTaken die q).encodeFor die q x)
  rw [hhome, hnow] at hwait
  exact ⟨_, (exec_queryEncode hreset hq hx halone).trans (congrArg _ (State.joinProbe_of_query hy)), hencoded.1, hwait, y.probing,
    State.query_setQuery_self .., rfl, hcode⟩

/-! ### PROBE_PASS_LAUNCH (R70) -/

/-- The batches that are ready at a time: full, or past their probe window (R70). -/
noncomputable def State.readyBatches (s : State) (die t : Nat) : List (Nat × List (Nat × Nat)) :=
  (s.probeBatches die).filter fun b => decide (128 ≤ b.2.length) ||
    decide (oldestOf b.2 + us * s.fld fBD_PR_CFG_PROBE_WINDOW_US die 0 ≤ t)

/-- The time reaches the first window of a batch, unless a batch is ready. -/
noncomputable def State.passReady (s : State) (die : Nat) : State :=
  if (s.probeBatches die).any fun b => decide (128 ≤ b.2.length) ||
      decide (oldestOf b.2 + us * s.fld fBD_PR_CFG_PROBE_WINDOW_US die 0 ≤ s.now) then s
  else s.reach (((s.probeBatches die).map fun b => oldestOf b.2 + us * s.fld fBD_PR_CFG_PROBE_WINDOW_US die 0).foldl min
    (s.now + us * s.fld fBD_PR_CFG_PROBE_WINDOW_US die 0))

theorem State.passReady_of_ready {s : State} {die : Nat} (h : s.readyBatches die s.now ≠ []) : s.passReady die = s := by
  refine if_pos (List.any_eq_true.mpr ?_)
  obtain ⟨b, hb⟩ := List.exists_mem_of_ne_nil _ h
  exact ⟨b, List.mem_filter.mp hb⟩

/-- The probe unit of a die, which had `u`, starts a pass of the first 128 queries of a batch over the centroids of version `k`,
and counts it. -/
noncomputable def State.passStarted (die : Nat) (u : ProbeUnit) (k : Nat) (qs : List (Nat × Nat)) (s : State) : State :=
  let go := (qs.take 128).map (·.1)
  let s := { s with qry := { s.qry with probe := s.qry.probe.put die {
    waiting := u.waiting.filter fun e => !go.contains e.1, pass := go, started := s.now } } }
  ((s.bump .BD_PR_PASSES die 0 1).bump .BD_PR_QUERIES die 0 go.length).bump .BD_PR_CYC die 0
    (4 * probeCycles (s.centBits (k / 4)) (s.version k).count)

theorem exec_probePassLaunch {die k : Nat} {s : State} {qs : List (Nat × Nat)} (hreset : s.dieReset die = false)
    (hidle : (s.qry.probe.getD {} die).pass = []) (hfirst : firstBatch (s.readyBatches die s.now) = some (k, qs)) :
    exec (.probePassLaunch die) s = .next (s.passStarted die (s.qry.probe.getD {} die) k qs) := by
  have hready : s.passReady die = s := State.passReady_of_ready fun h => by rw [h] at hfirst; cases hfirst
  show (if s.dieReset die then (.next s : Out) else if (s.qry.probe.getD {} die).pass ≠ [] then .next s else
    match firstBatch (s.readyBatches die (s.passReady die).now) with
    | none => .next s
    | some (k, qs) => .next ((s.passReady die).passStarted die (s.qry.probe.getD {} die) k qs)) = _
  rw [hreset, hready, hfirst]
  exact if_neg (not_not.mpr hidle)

/-- PROBE_PASS_LAUNCH of the ready batch that has waited longest. -/
theorem leads_probePassLaunch {die : Nat} {s : State} {k : Nat} {qs : List (Nat × Nat)} (hreset : s.dieReset die = false)
    (hidle : (s.qry.probe.getD {} die).pass = []) (hfirst : firstBatch (s.readyBatches die s.now) = some (k, qs)) :
    Leads (.probePassLaunch die) s fun t => t.now = s.now ∧
      (t.qry.probe.getD {} die).pass = (qs.take 128).map (·.1) ∧ (t.qry.probe.getD {} die).started = s.now ∧
      (∀ e ∈ (t.qry.probe.getD {} die).waiting, e ∈ (s.qry.probe.getD {} die).waiting ∧ e.1 ∉ (qs.take 128).map (·.1)) ∧
      t.reg .BD_PR_PASSES die 0 = s.reg .BD_PR_PASSES die 0 + 1 ∧
      t.reg .BD_PR_QUERIES die 0 = s.reg .BD_PR_QUERIES die 0 + BitVec.ofNat 64 (qs.take 128).length ∧
      Frame [.now, .qry] [.BD_PR_PASSES, .BD_PR_QUERIES, .BD_PR_CYC] s t := by
  have hexec := exec_probePassLaunch hreset hidle hfirst
  have hkeeps := execProbePassLaunch_ends die s
  have hunit : (s.passStarted die (s.qry.probe.getD {} die) k qs).qry.probe.getD {} die = _ := Tbl.getD_put_self ..
  refine ⟨_, hexec, rfl, congrArg ProbeUnit.pass hunit, congrArg ProbeUnit.started hunit, fun e he => ?_, ?_, ?_, ?_⟩
  · rw [hunit] at he
    obtain ⟨hwait, hnot⟩ := List.mem_filter.mp he
    rw [Bool.not_eq_true', ← Bool.not_eq_true, List.contains_iff_mem] at hnot
    exact ⟨hwait, hnot⟩
  · exact (State.reg_bump_other _ (by decide) ..).trans ((State.reg_bump_other _ (by decide) ..).trans (State.reg_bump_self ..))
  · refine (State.reg_bump_other _ (by decide) ..).trans ((State.reg_bump_self ..).trans ?_)
    rw [List.length_map]
    exact congrArg (· + _) (State.reg_bump_other _ (by decide) ..)
  · rw [show execProbePassLaunch die s = _ from hexec] at hkeeps
    exact (Keeps.outAfter (t := s.passStarted die (s.qry.probe.getD {} die) k qs) hkeeps).frame rfl

/-! ### PROBE_PASS_COMPLETE (R71) -/

/-- The pass of a die's probe unit, over the centroids of version `k`, is over, and the unit is free. -/
noncomputable def State.passEnded (die k : Nat) (s : State) : State :=
  let u := s.qry.probe.getD {} die
  let s := s.reach (u.started + probeCycles (s.centBits (k / 4)) (s.version k).count * 5 / 4)
  { s with qry := { s.qry with probe := s.qry.probe.put die { u with pass := [] } } }

theorem exec_probePassComplete {die q : Nat} {s : State} {qs : List Nat} {x : Query} (hreset : s.dieReset die = false)
    (hpass : (s.qry.probe.getD {} die).pass = q :: qs) (hx : s.query q = some x) :
    exec (.probePassComplete die) s = .next (forEach (q :: qs) State.probed (s.passEnded die x.ver)) := by
  show (if s.dieReset die then (.next s : Out) else match (s.qry.probe.getD {} die).pass with
    | [] => .next s
    | q :: _ => .next (forEach (s.qry.probe.getD {} die).pass State.probed
        (s.passEnded die (((s.query q).map (·.ver)).getD 0)))) = _
  rw [hreset, hpass]
  show Host.Outcome.next (forEach (q :: qs) State.probed (s.passEnded die (((s.query q).map (·.ver)).getD 0))) = _
  rw [hx]
  rfl

/-- A query at the end of its pass, with its clusters in the order of their centroids' distance (R71). -/
noncomputable def State.ranked (s : State) (x : Query) : Query :=
  { x with ranks := (rankClusters (s.centBits x.index) (s.version x.ver).cents x.code).take (max x.nProbe x.ceil),
           inProbe := false, stage := .scan }

theorem State.probed_of_query {q : Nat} {x : Query} {s : State} (hx : s.query q = some x) :
    s.probed q = (s.setQuery q (s.ranked x)).postFirst q := by
  show (match s.query q with | none => s | some x => (s.setQuery q (s.ranked x)).postFirst q) = _
  rw [hx]

/-- Ranks and pairs of a query leave the probe units alone. -/
theorem State.probe_probed (q : Nat) (s : State) : (s.probed q).qry.probe = s.qry.probe := by
  show (match s.query q with | none => s | some x => (s.setQuery q (s.ranked x)).postFirst q).qry.probe = _
  cases s.query q with
  | none => rfl
  | some x => exact congrArg (fun v => v.2.2.1) (State.gathered_postFirst q (s.setQuery q (s.ranked x)))

/-- A query whose pass has ended knows its clusters. -/
theorem State.query_probed {q : Nat} {x : Query} {s : State} (hx : s.query q = some x) :
    ∃ y, (s.probed q).query q = some y ∧ y.inProbe = false ∧ y.ranks = (s.ranked x).ranks := by
  have hview : ((s.probed q).query q).map (fun y => (y.inProbe, y.ranks)) = some (false, (s.ranked x).ranks) := by
    rw [State.probed_of_query hx]
    refine (congrFun (congrArg (fun v => v.2.2.2) (State.gathered_postFirst q (s.setQuery q (s.ranked x)))) q).trans ?_
    exact congrArg (Option.map _) (State.query_setQuery_self ..)
  obtain ⟨y, hy, heq⟩ := Option.map_eq_some_iff.mp hview
  exact ⟨y, hy, congrArg Prod.fst heq, congrArg Prod.snd heq⟩

/-- PROBE_PASS_COMPLETE of a pass whose first query is still there. -/
theorem leads_probePassComplete {die : Nat} {s : State} {q : Nat} {qs : List Nat} {x : Query} (hreset : s.dieReset die = false)
    (hpass : (s.qry.probe.getD {} die).pass = q :: qs) (hx : s.query q = some x) :
    Leads (.probePassComplete die) s fun t => (t.qry.probe.getD {} die).pass = [] ∧
      t.now = (s.passEnded die x.ver).now ∧
      (qs = [] → ∃ y, t.query q = some y ∧ y.inProbe = false ∧ y.ranks = (s.ranked x).ranks) := by
  refine ⟨_, exec_probePassComplete hreset hpass hx, ?_, ?_, ?_⟩
  · refine forEach_keeps (P := fun t => (t.qry.probe.getD {} die).pass = []) (fun a u hu => ?_) _ ?_
    · rw [State.probe_probed]
      exact hu
    · exact congrArg ProbeUnit.pass (Tbl.getD_put_self ..)
  · exact (Keeps.forEach (q :: qs) State.probed State.probed_keeps Keeps.rfl).parts .now (by decide +kernel)
  · rintro rfl
    exact State.query_probed (s := s.passEnded die x.ver) hx

/-- Settles O18: an encode stores the code of the matrix, a launch takes the ready batch that has waited longest, and at the end
of a pass the unit is free and its queries are ranked. A launch takes no device time: log entry 11. -/
theorem queriesAreEncodedAndProbed : Obligations.QueriesAreEncodedAndProbed :=
  ⟨@leads_queryEncode, @leads_probePassLaunch, @leads_probePassComplete⟩

end Sys2Proof.Machine
end

section
/-! HOME_MERGE where a shadow goes on as the query leaves: the pair that it posts takes over a list that is being demoted, and
the command that waits for that list completes in the same step (R84, R110, R225, R312). -/

namespace Sys2Proof.Machine

set_option Elab.async false

/-- A query of context 0, ready for a home merge that no re-rank stage follows. -/
def readyQuery : Query := { ctx := 0, commandId := 0, stage := .homeReady }

/-- A shadow of the same partition in its scan, with the pair of cluster 0 yet to post. -/
def postingShadow : Query := { ctx := 0, commandId := 0, stage := .scan, isShadow := true, ranks := [0] }

/-- The search whose query is ready, and another search. -/
def readySearch : Cmd := { seq := 0, bytes := [1] }
def otherSearch : Cmd := { seq := 1, bytes := [1] }

/-- Both searches stand in context 0. The list of cluster 0 is DEMOTING, and the command that waits for it is the other search.
Commands that wait for a list are PROMOTE and DEMOTE in every run; the states of the statement are not held to that. -/
def demotionAwaited : State :=
  { State.reset with
    hq := { ctxs := [(0, { cmds := [readySearch, otherSearch] })] }
    qry := { queries := [(0, readyQuery), (2, postingShadow)] }
    idx := { versions := [(0, { lists := [(0, { die := 0, rstate := 2, movers := [(0, otherSearch.seq)] })] })] } }

/-- The state after the home merge of the ready query. -/
def demotionEnded : State := Out.after (exec (.homeMerge 0 [] []) demotionAwaited) demotionAwaited

/-- The home merge completes both searches, and both are counted for their tenant. -/
theorem homeMerge_counts_both_searches : demotionAwaited.reg .TN_ACC_QUERIES 0 0 = 0 ∧
    demotionEnded.reg .TN_ACC_QUERIES 0 0 = 2 ∧ demotionEnded.ended 0 readySearch 0 = true ∧
    demotionEnded.ended 0 otherSearch 0 = true := by decide +kernel

/-- Refutes O22: its last clause counts one query of the tenant. As the query leaves, a shadow of its partition posts its next
pair, which takes over a DEMOTING list and so completes the command that waits for that list; where that command is a search,
TN_ACC_QUERIES rises by two. -/
theorem not_listsMerge : ¬ Obligations.ListsMerge := by
  unfold Obligations.ListsMerge
  rintro ⟨-, -, hmerge⟩
  obtain ⟨t, hexec, -, -, hcount⟩ := hmerge 0 [] [] demotionAwaited readyQuery readySearch rfl rfl rfl rfl rfl rfl rfl rfl
    (by decide +kernel) (by decide +kernel)
  have ht : demotionEnded = t := congrArg (Out.after · demotionAwaited) hexec
  obtain ⟨hbefore, hafter, -⟩ := homeMerge_counts_both_searches
  have htenant : demotionAwaited.ctxTenant readyQuery.ctx = 0 := by decide +kernel
  rw [htenant, ← ht, hbefore, hafter] at hcount
  exact absurd hcount (by decide)

end Sys2Proof.Machine
end
